-- ==== Sys2Proof/Word.lean ====
section
/-! DEFINITION. The words of the FA-28 and the small records that instructions and device steps carry. -/

namespace Sys2Proof

/-- A 64-bit scalar register, control register or engine word (R119, R126). -/
abbrev Word := BitVec 64

/-- The addressable unit (R214, R120). -/
abbrev Byte := BitVec 8

/-- A general register number g0 to g31 or a vector register number v0 to v31 (R216). -/
abbrev Reg := BitVec 5

/-- A predicate number p0 to p63; a form without a VEXT prefix reaches p0 to p31 as an operand (R222, R225). -/
abbrev PReg := BitVec 6

/-- How a vector word names its governing predicate (R222, R225): `ext` is true when a VEXT prefix supplies the
fields, and then `m` reaches p0 to p63; otherwise `m` is p0 to p7. -/
structure VX where
  ext : Bool
  m : PReg
  deriving DecidableEq, Repr

/-- A host command record (R51): header fields and the seven argument words. -/
structure CmdRec where
  opcode : BitVec 16
  tag : BitVec 16
  part : BitVec 8
  flags : BitVec 8
  rsvd : BitVec 16
  arg0 : Word
  arg1 : Word
  arg2 : Word
  arg3 : Word
  arg4 : Word
  arg5 : Word
  arg6 : Word
  deriving DecidableEq, Repr

/-- A Barlos flit (R23): the 8-byte header's fields and the payload bytes. -/
structure Flit where
  seq : BitVec 32
  flow : BitVec 12
  kind : BitVec 4
  crc : BitVec 16
  payload : List Byte
  deriving DecidableEq, Repr

/-- What a SOFT_ERROR step hits (R115, R116, R113, R197). `key` names a strand, `seq` and `g` an element group of one
of its entries. -/
inductive SoftError where
  /-- One bad bit of a register row: corrected on read (R115). -/
  | rowFixable (key reg g : Nat)
  /-- A row with an uncorrectable error. Whether the micro-operation that wrote it is still in the lane's operand buffer, so
  that re-execution recovers it, the machine's state says (R115, R116). -/
  | rowLost (key reg g : Nat)
  /-- A pipeline stage's parity: the consumer is re-executed from the buffer (R115). -/
  | stage (key : Nat) (seq : BitVec 32) (g : Nat)
  /-- Lane arithmetic that gives wrong bits (`flip` is xored into the group's first result); `vote` says whether two
  of the three runs of R114 agree on the right result. -/
  | lane (key : Nat) (seq : BitVec 32) (g : Nat) (flip : Nat) (vote : Bool)
  /-- An uncorrectable line of a core's scalar L1 (R197): `line` is its physical line number. -/
  | l1Line (core : BitVec 8) (line : Nat)
  deriving DecidableEq, Repr

end Sys2Proof
end

