-- ==== Sys2Proof/Config.lean ====
section
/-! DEFINITION. What an implementation of the FA-28 fixes and the spec does not say: constants without a body. Nothing
in Lean can evaluate them, so a theorem about them holds whatever they are. -/

namespace Sys2Proof.Config

/-- A stream of free values: State.free counts how many were drawn (assumption log 2). -/
opaque free : Nat → Nat

/-- The result bits of a special function (R159): the function's code in VSFU, the format's code and the operand. Only
the values R160 does not fix are taken from here (log 8). -/
opaque special : Nat → Nat → Nat → Nat

/-- Bytes of the runtime ROM that R212 does not give (log 6). -/
opaque romByte : Nat → Byte

/-- A byte read back from a save area that the die does not own any more: draw counter and key (log 16). -/
opaque lostByte : Nat → Nat → Byte

/-- The channel of its second-tier half that holds a line, of 16: R39 does not say how lines are spread (log 7). -/
opaque tier2Channel : Nat → Nat

/-- DEVSTATE.FWVER (R50). -/
opaque fwver : BitVec 32

/-- IDENTIFY's stepping (R54). -/
opaque stepping : BitVec 16

/-- IDENTIFY's serial number (R54). -/
opaque serial : Word

/-- The identity certificate that IDENTIFY writes (R54). -/
opaque certificate : List Byte

/-- SHA-512, as a number (R65, R67). The hash is a published function that the spec does not define. -/
opaque sha512 : List Byte → Nat

/-- ECDSA verification with SHA-512 over P-521: key, signed bytes, r, s (R65, R66). -/
opaque ecdsaOk : List Byte → List Byte → Nat → Nat → Bool

/-- The 132 signature bytes that ATTEST appends (R67). -/
opaque sign : List Byte → List Byte

/-- SHA-512 of the ROM (R67). -/
opaque romHash : Nat

/-- Hash of the Walvos patch key, fused at manufacture (R66). -/
opaque patchKeyHash : Nat

/-- The fused rollback floor of firmware patches (R66). -/
opaque rollbackFloor : Nat

/-- Whether the management core can repair or correct is not a choice of software: how a patch carries its version,
key, hash and signature (R66 gives no layout): version, key bytes, r, s, and the signed bytes. -/
opaque patchParts : List Byte → Nat × List Byte × Nat × Nat × List Byte

end Sys2Proof.Config
end

