-- ==== Sys2Proof/Syntax.lean ====
section
/-! DEFINITION. The abstract syntax: one constructor for each row of spec/opcode_table.json, in the table's order.
Field names are those of R216 to R224: d, a, b, s registers; x the governing predicate and its VEXT prefix; imm and
off the undecoded immediate fields; k a pin; w a width code; o the ordered bit. A row that is a step of the device and
not an instruction names the strand (`key` is FARMID × 1024 + LOGID), entry or unit that moves. -/

namespace Sys2Proof

/-- An instruction of the FA-28 or a step of the device (R228, spec/opcode_table.json). -/
inductive Instr where
  /-- POWER_RESTORE, R70: Power is applied or restored to the module, and the PSC runs a cold start. -/
  | powerRestore
  /-- START_STEP_TIMEOUT, R72: A start step exceeds its time bound. -/
  | startStepTimeout
  /-- THROTTLE, R21: A sensor reaches its limit or power passes POWER_CAP, and the die lowers its arithmetic clock by one 68.75 MHz step. -/
  | throttle (die : Bool) (sensor : BitVec 3) (temp : BitVec 16)
  /-- CLOCK_STEP_UP, R21: After 1 ms under every limit, the die raises its clock by one step. -/
  | clockStepUp (die : Bool)
  /-- COMMAND_RECORD_REFUSED, R47: A write to the command port that is not an aligned 64-byte record, or that arrives while the port is full, is refused and counted. -/
  | commandRecordRefused (off len : Nat)
  /-- RESPONSE_PORT_READ, R48: An aligned 32-byte read pops the oldest response record, or returns OPCODE 0xFFFF if the port is empty. -/
  | responsePortRead
  /-- COMPLETION_NOTICE, R48: A waiting farm completion notice enters the response port once it has room, in farm completion order. -/
  | completionNotice
  /-- HOST_CXL_MEM_READ, R46: A host CXL.mem read of device memory is served by the owning port, or returns all ones with poison and adds an OWNHOST record. -/
  | hostCxlMemRead (port : Bool) (pa : BitVec 52) (n : Nat)
  /-- HOST_CXL_MEM_WRITE, R46: A host CXL.mem write is applied at its home after filter invalidation, or is dropped through a non-owning port. -/
  | hostCxlMemWrite (port : Bool) (pa : BitVec 52) (data : List Byte)
  /-- IDENTIFY, R54: Returns the device code, stepping, serial number, enabled cores and owner slot state, and writes the identity certificate. -/
  | identify (r : CmdRec)
  /-- ATTEST, R67: Writes a signed attestation report with ROM, patch and image hashes for the given nonce. -/
  | attest (r : CmdRec)
  /-- LOAD_IMAGE, R65: Verifies a signed GOF image, writes its sections through the partition page table, and records its farm table under a new handle. -/
  | loadImage (r : CmdRec)
  /-- START_FARM, R56: Queues farm descriptor ARG0[31:16] of a loaded image. -/
  | startFarm (r : CmdRec)
  /-- START_FARM_DIRECT, R56: Reads an FDESC at a virtual address in the partition's space and queues it. -/
  | startFarmDirect (r : CmdRec)
  /-- START_FARM_RESUME, R56: Returns a held farm to its launch queue. -/
  | startFarmResume (r : CmdRec)
  /-- STOP_FARM, R57: Halts and discards every strand of a farm and stops its transfers at byte boundaries. -/
  | stopFarm (r : CmdRec)
  /-- PREEMPT, R58: Halts and saves every strand of a running farm, then requeues it or holds it. -/
  | preempt (r : CmdRec)
  /-- QUERY_FARM, R54: Returns a farm's state, granted width, running strands, strips taken and last trap cause. -/
  | queryFarm (r : CmdRec)
  /-- PARTITION_CREATE, R53: Creates partition P1 to P7 with quota weight, age limit, castling and isolation attributes and a stack mask. -/
  | partitionCreate (r : CmdRec)
  /-- PARTITION_DESTROY, R59: Stops the partition's farms, clears its slots, gives its stacks to P0 and discards its images. -/
  | partitionDestroy (r : CmdRec)
  /-- SET_SLOTS, R60: Replaces one, 32 or all slot tables and the DONATE bits, taking effect at the next pass through slot 0. -/
  | setSlots (r : CmdRec)
  /-- SET_PAGE_BASE, R55: Writes a partition's page-table base. -/
  | setPageBase (r : CmdRec)
  /-- PIN_REVOKE, R61: Revokes every live pin of the partition overlapping a range and responds once they have stopped. -/
  | pinRevoke (r : CmdRec)
  /-- CASTLE_STACK, R62: Runs the castling procedure for a stack to a target die on behalf of its owner partition. -/
  | castleStack (r : CmdRec)
  /-- READ_ERRORS, R64: Writes waiting error records to device memory, oldest first, and optionally removes them and clears the drop count. -/
  | readErrors (r : CmdRec)
  /-- SCRUB_QUERY, R54: Reports the RUNNING and STARVED scrub state of the masked stacks. -/
  | scrubQuery (r : CmdRec)
  /-- SCRUB_FULL_PASS, R54: Starts a full scrub pass of the masked stacks. -/
  | scrubFullPass (r : CmdRec)
  /-- SCRUB_RANGE, R54: Starts a scrub of a physical address range. -/
  | scrubRange (r : CmdRec)
  /-- LINK_CONFIG, R63: Applies route, communicator, link-state and package-number entries all or none, undoing everything if a raised link cannot train. -/
  | linkConfig (r : CmdRec)
  /-- DCD_ACCEPT, R40: Maps a fabric dynamic-capacity extent at a base address homed on the named die. -/
  | dcdAccept (r : CmdRec)
  /-- DCD_RELEASE, R42: Starts a normal release of an extent: RELEASING, pin check, drain, L1 and vat write-back, TLB shootdown. -/
  | dcdRelease (r : CmdRec)
  /-- DCD_RELEASE_FORCED, R43: Starts a forced release of an extent, revoking covering pins and dropping and poisoning dirty vat lines. -/
  | dcdReleaseForced (r : CmdRec)
  /-- EXTENT_RELEASE_COMPLETE, R42: After in-flight requests and write-backs drain, the extent is removed and the release is acknowledged. -/
  | extentReleaseComplete (die : Bool) (base : BitVec 52)
  /-- POWER_CAP, R54: Sets the module power cap between 800 and 2,400 W and returns the previous cap. -/
  | powerCap (r : CmdRec)
  /-- FW_PATCH, R66: Verifies and activates a signed firmware patch at or above the rollback floor. -/
  | fwPatch (r : CmdRec)
  /-- RESET_WARM, R71: Abandons pending commands, empties the response port and runs a warm start. -/
  | resetWarm (r : CmdRec)
  /-- RESET_COLD, R70: Abandons pending commands and runs a cold start, or completes BUSY while tripped and a sensor is over its limit. -/
  | resetCold (r : CmdRec)
  /-- SLOT_SERVICE, R17: At each slot time, a pseudo-channel controller serves one beat to the slot's owner or a donating partition, or leaves the slot idle. -/
  | slotService (stack : BitVec 3) (pch : Reg) (slot : BitVec 6) (ready : BitVec 8)
  /-- SCRUB_STARVED, R19: A pseudo-channel has had no idle slot for 10 seconds, and its scrub pauses as STARVED. -/
  | scrubStarved (stack : BitVec 3) (pch : Reg)
  /-- DATA_FLIT, R29: A received data flit is CRC-checked, reordered and delivered in SEQ order, or dropped, discarded or answered with a NAK. -/
  | dataFlit (link : BitVec 6) (f : Flit)
  /-- ACKNOWLEDGEMENT, R26: A cumulative acknowledgement frees the acknowledged flits of a flow from the replay buffer. -/
  | acknowledgement (link : BitVec 6) (f : Flit)
  /-- NAK, R26: A NAK makes the sender resend the flow's flits from the named SEQ. -/
  | nak (link : BitVec 6) (f : Flit)
  /-- BARRIER_MESSAGE, R38: A barrier message flit delivers an arrival to a barrier on another package. -/
  | barrierMessage (link : BitVec 6) (f : Flit)
  /-- COLLECTIVE_DATA, R31: A collective data flit delivers contributions that the engine combines in ascending rank order. -/
  | collectiveData (link : BitVec 6) (f : Flit)
  /-- COMMAND_ANNOUNCEMENT, R25: A collective control record announces a rank's k-th command and is checked against rank 0's command. -/
  | commandAnnouncement (link : BitVec 6) (f : Flit)
  /-- COMPLETION_STATUS, R25: A collective control record makes every rank complete the command with the same status. -/
  | completionStatus (link : BitVec 6) (f : Flit)
  /-- BARRIER_COMMAND_ARRIVAL, R25: A collective control record reports a rank's BARRIER command, and the arrival goes to BAR once every rank has pushed it. -/
  | barrierCommandArrival (link : BitVec 6) (f : Flit)
  /-- REPLAY_TIMEOUT, R26: The oldest unacknowledged flit of a flow has waited 4 µs, and the sender resends from it. -/
  | replayTimeout (flow : Nat)
  /-- LOSS_OF_LOCK, R28: A link loses lock, starts retraining and moves its flows to their first alternate that is up. -/
  | lossOfLock (link : BitVec 6)
  /-- RETRAIN_COMPLETE, R28: Retraining succeeds, and moved flows return to their primary link. -/
  | retrainComplete (link : BitVec 6)
  /-- RETRAIN_FAIL, R28: A retraining attempt fails and is retried, and after three failures the link goes DOWN. -/
  | retrainFail (link : BitVec 6)
  /-- BARRIER_ARRIVAL, R35: An arrival reaches a barrier table entry and counts into ARRIVED, or is discarded with FAULT set. -/
  | barrierArrival (die : Bool) (idx : BitVec 12)
  /-- PRIORITY_AGING, R78: A ready farm's waiting time passes another age-limit interval, and its effective priority rises by one level. -/
  | priorityAging (farm : Nat)
  /-- QUOTA_PERIOD, R86: A 1 ms quota period ends, and lane-cycle accounting for partition shares starts again. -/
  | quotaPeriod (die : Bool)
  /-- HALT_REQUEST, R87: A pre-emption halt request reaches a core's strands. -/
  | haltRequest (core : BitVec 8)
  /-- STRAND_HALT, R87: A strand halts at a scalar instruction boundary, with vector work stopped at element-group boundaries. -/
  | strandHalt (key : Nat)
  /-- STRAND_SAVE, R88: A core finishes writing the save areas of its halted strands. -/
  | strandSave (core : BitVec 8)
  /-- TAKE_TRAP, R200: At a scalar instruction boundary the chosen trap fills the trap record, freezes VIQ entries to the save area and jumps to TRAPVEC. -/
  | takeTrap (key : Nat)
  /-- MICRO_OPERATION_ISSUE, R102: A pipe issues a ready element-group micro-operation whose sources' progress indices cover the group. -/
  | microOperationIssue (key : Nat) (seq : BitVec 32) (g : Nat)
  /-- ELEMENT_GROUP_COMPLETE, R104: An element group's result row is written after any mordant compare, and progress indices advance. -/
  | elementGroupComplete (key : Nat) (seq : BitVec 32) (g : Nat)
  /-- BTE_COMMAND_TAKE, R309: The BTE takes a command whose words are all in the port, checks it and announces its bytes to BAR's PENDING. -/
  | bteCommandTake (key : Nat)
  /-- BTE_BEAT, R310: The BTE delivers one 256-byte beat of a command, lowers PENDING, and completes or stops the command. -/
  | bteBeat (cmd : Nat)
  /-- COLLECTIVE_COMMAND_TAKE, R314: The collective engine takes a four-word command, matches it with the k-th command of every rank, and announces its bytes. -/
  | collectiveCommandTake (key : Nat)
  /-- HAND_OVER, R178: Once in-flight requests, write-combining entries and dirty lines drain, pins are judged, TLBs are invalidated, ownership flips and the ticket completes or ends BUSY. -/
  | handOver (stack : BitVec 3)
  /-- WAIT_TIMEOUT, R352: g[a] cycles have passed since a wait began, which sets wake-latch bit 0. -/
  | waitTimeout (key : Nat)
  /-- YIELD_EXPIRY, R353: A yield's stall of min(g[a], 2^20) cycles ends. -/
  | yieldExpiry (key : Nat)
  /-- ERRINJ_FLIP_VECTOR_BIT, R136: An ERRINJ write of KIND 1 flips one bit of a vector element. -/
  | errinjFlipVectorBit (reg : Reg) (pos : BitVec 12) (bit : BitVec 6)
  /-- ERRINJ_FLIP_TILE_BIT, R136: An ERRINJ write of KIND 2 flips one WA bit of a tile accumulator element and clears CKV. -/
  | errinjFlipTileBit (reg : Reg) (pos : BitVec 12) (bit : BitVec 6)
  /-- ERRINJ_MARK_ROW, R136: An ERRINJ write of KIND 3 marks a vector register row uncorrectable. -/
  | errinjMarkRow (reg : Reg) (pos : BitVec 12)
  /-- MAXLG, R118: A write of MAXLG sets the powered lanes of the core and gates lanes at or above it once they are released. -/
  | maxlg (v : Word)
  /-- ADD, R249: g[d] := g[a] + g[b]. -/
  | add (d a b : Reg)
  /-- SUB, R249: g[d] := g[a] - g[b]. -/
  | sub (d a b : Reg)
  /-- AND, R249: Bitwise and. -/
  | and (d a b : Reg)
  /-- OR, R249: Bitwise or. -/
  | or (d a b : Reg)
  /-- XOR, R249: Bitwise xor. -/
  | xor (d a b : Reg)
  /-- ANDN, R249: g[a] and not g[b]. -/
  | andn (d a b : Reg)
  /-- SLL, R249: Logical left shift by g[b][5:0]. -/
  | sll (d a b : Reg)
  /-- SRL, R249: Logical right shift by g[b][5:0]. -/
  | srl (d a b : Reg)
  /-- SRA, R249: Arithmetic right shift by g[b][5:0]. -/
  | sra (d a b : Reg)
  /-- ROL, R249: Rotate left by g[b][5:0]. -/
  | rol (d a b : Reg)
  /-- ROR, R249: Rotate right by g[b][5:0]. -/
  | ror (d a b : Reg)
  /-- SLT, R249: Signed set-less-than. -/
  | slt (d a b : Reg)
  /-- SLTU, R249: Unsigned set-less-than. -/
  | sltu (d a b : Reg)
  /-- MIN, R249: Signed minimum. -/
  | min (d a b : Reg)
  /-- MAX, R249: Signed maximum. -/
  | max (d a b : Reg)
  /-- MINU, R249: Unsigned minimum. -/
  | minu (d a b : Reg)
  /-- MAXU, R249: Unsigned maximum. -/
  | maxu (d a b : Reg)
  /-- ADDW, R249: 32-bit add, sign-extended. -/
  | addw (d a b : Reg)
  /-- SUBW, R249: 32-bit subtract, sign-extended. -/
  | subw (d a b : Reg)
  /-- MUL, R250: Low 64 bits of the product. -/
  | mul (d a b : Reg)
  /-- MULH, R250: High 64 bits of the signed product. -/
  | mulh (d a b : Reg)
  /-- MULHU, R250: High 64 bits of the unsigned product. -/
  | mulhu (d a b : Reg)
  /-- MULHSU, R250: High 64 bits of the signed-by-unsigned product. -/
  | mulhsu (d a b : Reg)
  /-- DIV, R251: Signed quotient, never trapping. -/
  | div (d a b : Reg)
  /-- DIVU, R251: Unsigned quotient, never trapping. -/
  | divu (d a b : Reg)
  /-- REM, R251: Signed remainder. -/
  | rem (d a b : Reg)
  /-- REMU, R251: Unsigned remainder. -/
  | remu (d a b : Reg)
  /-- CLZ, R250: Count leading zero bits. -/
  | clz (d a : Reg)
  /-- CTZ, R250: Count trailing zero bits. -/
  | ctz (d a : Reg)
  /-- POPC, R250: Count one bits. -/
  | popc (d a : Reg)
  /-- SEXTB, R250: Sign-extend from bit 7. -/
  | sextb (d a : Reg)
  /-- SEXTH, R250: Sign-extend from bit 15. -/
  | sexth (d a : Reg)
  /-- SEXTW, R250: Sign-extend from bit 31. -/
  | sextw (d a : Reg)
  /-- ZEXTH, R250: Zero-extend from bit 15. -/
  | zexth (d a : Reg)
  /-- ZEXTW, R250: Zero-extend from bit 31. -/
  | zextw (d a : Reg)
  /-- ADDI, R252: g[d] := g[a] + sext(imm14). -/
  | addi (d a : Reg) (imm : BitVec 14)
  /-- ANDI, R252: And with the sign-extended immediate. -/
  | andi (d a : Reg) (imm : BitVec 14)
  /-- ORI, R252: Or with the sign-extended immediate. -/
  | ori (d a : Reg) (imm : BitVec 14)
  /-- XORI, R252: Xor with the sign-extended immediate. -/
  | xori (d a : Reg) (imm : BitVec 14)
  /-- SLTI, R252: Signed compare with the immediate. -/
  | slti (d a : Reg) (imm : BitVec 14)
  /-- SLTIU, R252: Unsigned compare with the sign-extended immediate. -/
  | sltiu (d a : Reg) (imm : BitVec 14)
  /-- ADDI_IMM, R223: addi with a 38-bit immediate from an IMM prefix. -/
  | addiImm (d a : Reg) (imm : BitVec 38)
  /-- ANDI_IMM, R223: andi with a 38-bit immediate from an IMM prefix. -/
  | andiImm (d a : Reg) (imm : BitVec 38)
  /-- ORI_IMM, R223: ori with a 38-bit immediate from an IMM prefix. -/
  | oriImm (d a : Reg) (imm : BitVec 38)
  /-- XORI_IMM, R223: xori with a 38-bit immediate from an IMM prefix. -/
  | xoriImm (d a : Reg) (imm : BitVec 38)
  /-- SLTI_IMM, R223: slti with a 38-bit immediate from an IMM prefix. -/
  | sltiImm (d a : Reg) (imm : BitVec 38)
  /-- SLTIU_IMM, R223: sltiu with a 38-bit immediate from an IMM prefix. -/
  | sltiuImm (d a : Reg) (imm : BitVec 38)
  /-- SLLI, R253: Logical left shift by shamt. -/
  | slli (d a : Reg) (sh : BitVec 6)
  /-- SRLI, R253: Logical right shift by shamt. -/
  | srli (d a : Reg) (sh : BitVec 6)
  /-- SRAI, R253: Arithmetic right shift by shamt. -/
  | srai (d a : Reg) (sh : BitVec 6)
  /-- ROLI, R253: Rotate left by shamt. -/
  | roli (d a : Reg) (sh : BitVec 6)
  /-- LUIM, R254: g[d] := sext(imm19 << 13). -/
  | luim (d : Reg) (imm : BitVec 19)
  /-- APC, R254: g[d] := pc + sext(imm19 << 13). -/
  | apc (d : Reg) (imm : BitVec 19)
  /-- LD, R255: Scalar load of 1 to 8 bytes, sign- or zero-extended. -/
  | ld (d a : Reg) (w : BitVec 2) (u : Bool) (imm : BitVec 11)
  /-- ST, R255: Scalar store of 1 to 8 bytes. -/
  | st (s a : Reg) (w : BitVec 2) (imm : BitVec 11)
  /-- LD_IMM, R223: Scalar load with a 35-bit offset from an IMM prefix. -/
  | ldImm (d a : Reg) (w : BitVec 2) (u : Bool) (imm : BitVec 35)
  /-- ST_IMM, R223: Scalar store with a 35-bit offset from an IMM prefix. -/
  | stImm (s a : Reg) (w : BitVec 2) (imm : BitVec 35)
  /-- BEQ, R259: Branch if equal. -/
  | beq (a b : Reg) (off : BitVec 14)
  /-- BNE, R259: Branch if not equal. -/
  | bne (a b : Reg) (off : BitVec 14)
  /-- BLT, R259: Branch if less, signed. -/
  | blt (a b : Reg) (off : BitVec 14)
  /-- BGE, R259: Branch if greater or equal, signed. -/
  | bge (a b : Reg) (off : BitVec 14)
  /-- BLTU, R259: Branch if less, unsigned. -/
  | bltu (a b : Reg) (off : BitVec 14)
  /-- BGEU, R259: Branch if greater or equal, unsigned. -/
  | bgeu (a b : Reg) (off : BitVec 14)
  /-- J, R260: PC-relative jump. -/
  | j (off : BitVec 24)
  /-- JL, R260: Jump and link into lk. -/
  | jl (off : BitVec 24)
  /-- JR, R261: Jump to g[a]. -/
  | jr (a : Reg)
  /-- JLR, R261: Jump to g[a] and link into g[d]. -/
  | jlr (d a : Reg)
  /-- FADD_S, R264: FP32 add. -/
  | faddS (d a b : Reg) (rm : BitVec 3)
  /-- FSUB_S, R264: FP32 subtract. -/
  | fsubS (d a b : Reg) (rm : BitVec 3)
  /-- FMUL_S, R264: FP32 multiply. -/
  | fmulS (d a b : Reg) (rm : BitVec 3)
  /-- FDIV_S, R264: FP32 divide. -/
  | fdivS (d a b : Reg) (rm : BitVec 3)
  /-- FSQRT_S, R264: FP32 square root. -/
  | fsqrtS (d a : Reg) (rm : BitVec 3)
  /-- FMIN_S, R264: FP32 minimumNumber. -/
  | fminS (d a b : Reg)
  /-- FMAX_S, R264: FP32 maximumNumber. -/
  | fmaxS (d a b : Reg)
  /-- FEQ_S, R265: FP32 equality compare. -/
  | feqS (d a b : Reg)
  /-- FLT_S, R265: FP32 less-than compare. -/
  | fltS (d a b : Reg)
  /-- FLE_S, R265: FP32 less-or-equal compare. -/
  | fleS (d a b : Reg)
  /-- FCVT_S_L, R266: Signed 64-bit integer to FP32. -/
  | fcvtSL (d a : Reg) (rm : BitVec 3)
  /-- FCVT_L_S, R266: FP32 to signed 64-bit integer. -/
  | fcvtLS (d a : Reg) (rm : BitVec 3)
  /-- FCLASS_S, R265: FP32 class word. -/
  | fclassS (d a : Reg)
  /-- FADD_D, R264: FP64 add. -/
  | faddD (d a b : Reg) (rm : BitVec 3)
  /-- FSUB_D, R264: FP64 subtract. -/
  | fsubD (d a b : Reg) (rm : BitVec 3)
  /-- FMUL_D, R264: FP64 multiply. -/
  | fmulD (d a b : Reg) (rm : BitVec 3)
  /-- FDIV_D, R264: FP64 divide. -/
  | fdivD (d a b : Reg) (rm : BitVec 3)
  /-- FSQRT_D, R264: FP64 square root. -/
  | fsqrtD (d a : Reg) (rm : BitVec 3)
  /-- FMIN_D, R264: FP64 minimumNumber. -/
  | fminD (d a b : Reg)
  /-- FMAX_D, R264: FP64 maximumNumber. -/
  | fmaxD (d a b : Reg)
  /-- FEQ_D, R265: FP64 equality compare. -/
  | feqD (d a b : Reg)
  /-- FLT_D, R265: FP64 less-than compare. -/
  | fltD (d a b : Reg)
  /-- FLE_D, R265: FP64 less-or-equal compare. -/
  | fleD (d a b : Reg)
  /-- FCVT_D_L, R266: Signed 64-bit integer to FP64. -/
  | fcvtDL (d a : Reg) (rm : BitVec 3)
  /-- FCVT_L_D, R266: FP64 to signed 64-bit integer. -/
  | fcvtLD (d a : Reg) (rm : BitVec 3)
  /-- FCLASS_D, R265: FP64 class word. -/
  | fclassD (d a : Reg)
  /-- FMADD_S, R267: FP32 fused a×b + d. -/
  | fmaddS (d a b : Reg) (rm : BitVec 3)
  /-- FMSUB_S, R267: FP32 fused a×b − d. -/
  | fmsubS (d a b : Reg) (rm : BitVec 3)
  /-- FNMADD_S, R267: FP32 fused −(a×b) − d. -/
  | fnmaddS (d a b : Reg) (rm : BitVec 3)
  /-- FNMSUB_S, R267: FP32 fused −(a×b) + d. -/
  | fnmsubS (d a b : Reg) (rm : BitVec 3)
  /-- FMADD_D, R267: FP64 fused a×b + d. -/
  | fmaddD (d a b : Reg) (rm : BitVec 3)
  /-- FMSUB_D, R267: FP64 fused a×b − d. -/
  | fmsubD (d a b : Reg) (rm : BitVec 3)
  /-- FNMADD_D, R267: FP64 fused −(a×b) − d. -/
  | fnmaddD (d a b : Reg) (rm : BitVec 3)
  /-- FNMSUB_D, R267: FP64 fused −(a×b) + d. -/
  | fnmsubD (d a b : Reg) (rm : BitVec 3)
  /-- AMOADD, R268: Atomic add at the home, returning the old value. -/
  | amoadd (d a b : Reg) (order : BitVec 2) (word : Bool) (scope : BitVec 3)
  /-- AMOSWAP, R268: Atomic swap. -/
  | amoswap (d a b : Reg) (order : BitVec 2) (word : Bool) (scope : BitVec 3)
  /-- AMOAND, R268: Atomic and. -/
  | amoand (d a b : Reg) (order : BitVec 2) (word : Bool) (scope : BitVec 3)
  /-- AMOOR, R268: Atomic or. -/
  | amoor (d a b : Reg) (order : BitVec 2) (word : Bool) (scope : BitVec 3)
  /-- AMOMIN, R268: Atomic signed minimum. -/
  | amomin (d a b : Reg) (order : BitVec 2) (word : Bool) (scope : BitVec 3)
  /-- AMOMAX, R268: Atomic signed maximum. -/
  | amomax (d a b : Reg) (order : BitVec 2) (word : Bool) (scope : BitVec 3)
  /-- AMOCAS, R268: Atomic compare-and-swap against g[d]. -/
  | amocas (d a b : Reg) (order : BitVec 2) (word : Bool) (scope : BitVec 3)
  /-- AMOXOR, R268: Atomic xor. -/
  | amoxor (d a b : Reg) (order : BitVec 2) (word : Bool) (scope : BitVec 3)
  /-- TRAP, R350: Takes the TRAP cause with the 10-bit code. -/
  | trap (code : BitVec 10)
  /-- TRET, R204: Reposts frozen VIQ records and returns from the handler. -/
  | tret
  /-- BRK, R350: Takes the BRK cause with the code. -/
  | brk (code : BitVec 10)
  /-- WAIT, R352: Stalls until the wake latch holds an event, then reports and clears the latch. -/
  | wait (d a : Reg)
  /-- YIELD, R353: Stalls for a number of cycles and lets equal-priority work displace the farm. -/
  | yield (a : Reg)
  /-- HALT, R354: Waits for the strand's VIQ entries and transfers, unpins its pins and ends the strand. -/
  | halt
  /-- MFC, R355: Reads a control register into g[d]. -/
  | mfc (d : Reg) (cr : BitVec 10)
  /-- MTC, R355: Writes g[s] to a control register. -/
  | mtc (s : Reg) (cr : BitVec 10)
  /-- FARM, R356: Releases earlier accesses and submits an FDESC to the owning dispatcher, returning the FARMID or a refusal. -/
  | farm (d a b : Reg)
  /-- STRIP, R357: Delivers the next strip number and sets STRIPBASE. -/
  | strip (d : Reg)
  /-- TLBI, R358: Invalidates the partition's translations in a range on both dies unless a live pin overlaps it. -/
  | tlbi (d a b : Reg)
  /-- SYNC, R359: Drains the store buffer, writes back the data L1 and invalidates the instruction L1. -/
  | sync
  /-- VSYNC, R360: Stalls until every earlier VIQ entry completes and every read-queue value arrives. -/
  | vsync
  /-- FENCE, R186: Orders earlier before later accesses of the kinds in the mask, at a scope. -/
  | fence (kinds : Reg) (scope : BitVec 3)
  /-- VFENCE, R186: Completes earlier VIQ entries and performs their stores at system scope, closing an epoch in deterministic mode. -/
  | vfence
  /-- BAR_INIT, R318: Configures an idle barrier's EXPECTED, SCOPE and parent. -/
  | barInit (d a b : Reg)
  /-- BAR_ARRIVE, R318: Sends one arrival to a barrier, as a release. -/
  | barArrive (d a : Reg)
  /-- BAR_WAIT, R318: Stalls until the barrier shows the form's phase, as an acquire. -/
  | barWait (d a : Reg)
  /-- BAR_POST, R318: Adds g[b] to the barrier's PENDING. -/
  | barPost (d a b : Reg)
  /-- BAR_DONE, R318: Subtracts g[b] from PENDING as bytes delivered by the strand. -/
  | barDone (d a b : Reg)
  /-- BAR_ARRWAIT, R318: Arrives at a barrier and then stalls until its PHASE changes. -/
  | barArrwait (d a : Reg)
  /-- BAR_QUERY, R318: Reads FAULT, PHASE, ARRIVED and PENDING of a barrier. -/
  | barQuery (d a : Reg)
  /-- PIN, R171: Translates and pins a range into pin register k with given rights. -/
  | pin (k a b : Reg) (rights : BitVec 3)
  /-- UNPIN, R173: Waits for work on the pin, then frees its extents and clears LIVE. -/
  | unpin (k : Reg)
  /-- PINQ, R297: Reads a pin's state or the core's free extent count. -/
  | pinq (d k sel : Reg)
  /-- EPUSH, R306: Appends a word to an engine push port, as a release. -/
  | epush (port a : Reg)
  /-- EPOP, R306: Removes the oldest word of a pop port, as an acquire. -/
  | epop (d port : Reg)
  /-- EAVAIL, R306: Reads the free or waiting word count of a port. -/
  | eavail (d port : Reg)
  /-- CASTLE, R364: Starts the hand-over of a stack to a target die and returns a ticket. -/
  | castle (d a b : Reg)
  /-- CASTQ, R365: Reads a castling ticket's status and the stack's ownership register. -/
  | castq (d a : Reg)
  /-- VADD, R275: Vector integer add. -/
  | vadd (x : VX) (d a b : Reg)
  /-- VSUB, R275: Vector integer subtract. -/
  | vsub (x : VX) (d a b : Reg)
  /-- VMUL, R275: Vector integer multiply, low bits. -/
  | vmul (x : VX) (d a b : Reg)
  /-- VMULH, R275: Vector signed multiply, high bits. -/
  | vmulh (x : VX) (d a b : Reg)
  /-- VMULHU, R275: Vector unsigned multiply, high bits. -/
  | vmulhu (x : VX) (d a b : Reg)
  /-- VAND, R275: Vector bitwise and. -/
  | vand (x : VX) (d a b : Reg)
  /-- VOR, R275: Vector bitwise or. -/
  | vor (x : VX) (d a b : Reg)
  /-- VXOR, R275: Vector bitwise xor. -/
  | vxor (x : VX) (d a b : Reg)
  /-- VSLL, R275: Vector left shift. -/
  | vsll (x : VX) (d a b : Reg)
  /-- VSRL, R275: Vector logical right shift. -/
  | vsrl (x : VX) (d a b : Reg)
  /-- VSRA, R275: Vector arithmetic right shift. -/
  | vsra (x : VX) (d a b : Reg)
  /-- VMIN, R275: Vector signed minimum. -/
  | vmin (x : VX) (d a b : Reg)
  /-- VMAX, R275: Vector signed maximum. -/
  | vmax (x : VX) (d a b : Reg)
  /-- VMINU, R275: Vector unsigned minimum. -/
  | vminu (x : VX) (d a b : Reg)
  /-- VMAXU, R275: Vector unsigned maximum. -/
  | vmaxu (x : VX) (d a b : Reg)
  /-- VDIV, R275: Vector signed divide. -/
  | vdiv (x : VX) (d a b : Reg)
  /-- VDIVU, R275: Vector unsigned divide. -/
  | vdivu (x : VX) (d a b : Reg)
  /-- VREM, R275: Vector signed remainder. -/
  | vrem (x : VX) (d a b : Reg)
  /-- VREMU, R275: Vector unsigned remainder. -/
  | vremu (x : VX) (d a b : Reg)
  /-- VSADD, R275: Vector saturating signed add. -/
  | vsadd (x : VX) (d a b : Reg)
  /-- VSSUB, R275: Vector saturating signed subtract. -/
  | vssub (x : VX) (d a b : Reg)
  /-- VADD_SCALAR, R275: Vector add with a scalar operand. -/
  | vaddScalar (x : VX) (d a b : Reg)
  /-- VSUB_SCALAR, R275: Vector subtract of a scalar operand. -/
  | vsubScalar (x : VX) (d a b : Reg)
  /-- VMUL_SCALAR, R275: Vector multiply by a scalar, low bits. -/
  | vmulScalar (x : VX) (d a b : Reg)
  /-- VMULH_SCALAR, R275: Vector signed multiply by a scalar, high bits. -/
  | vmulhScalar (x : VX) (d a b : Reg)
  /-- VMULHU_SCALAR, R275: Vector unsigned multiply by a scalar, high bits. -/
  | vmulhuScalar (x : VX) (d a b : Reg)
  /-- VAND_SCALAR, R275: Vector and with a scalar. -/
  | vandScalar (x : VX) (d a b : Reg)
  /-- VOR_SCALAR, R275: Vector or with a scalar. -/
  | vorScalar (x : VX) (d a b : Reg)
  /-- VXOR_SCALAR, R275: Vector xor with a scalar. -/
  | vxorScalar (x : VX) (d a b : Reg)
  /-- VSLL_SCALAR, R275: Vector left shift by a scalar. -/
  | vsllScalar (x : VX) (d a b : Reg)
  /-- VSRL_SCALAR, R275: Vector logical right shift by a scalar. -/
  | vsrlScalar (x : VX) (d a b : Reg)
  /-- VSRA_SCALAR, R275: Vector arithmetic right shift by a scalar. -/
  | vsraScalar (x : VX) (d a b : Reg)
  /-- VMIN_SCALAR, R275: Vector signed minimum with a scalar. -/
  | vminScalar (x : VX) (d a b : Reg)
  /-- VMAX_SCALAR, R275: Vector signed maximum with a scalar. -/
  | vmaxScalar (x : VX) (d a b : Reg)
  /-- VMINU_SCALAR, R275: Vector unsigned minimum with a scalar. -/
  | vminuScalar (x : VX) (d a b : Reg)
  /-- VMAXU_SCALAR, R275: Vector unsigned maximum with a scalar. -/
  | vmaxuScalar (x : VX) (d a b : Reg)
  /-- VDIV_SCALAR, R275: Vector signed divide by a scalar. -/
  | vdivScalar (x : VX) (d a b : Reg)
  /-- VDIVU_SCALAR, R275: Vector unsigned divide by a scalar. -/
  | vdivuScalar (x : VX) (d a b : Reg)
  /-- VREM_SCALAR, R275: Vector signed remainder by a scalar. -/
  | vremScalar (x : VX) (d a b : Reg)
  /-- VREMU_SCALAR, R275: Vector unsigned remainder by a scalar. -/
  | vremuScalar (x : VX) (d a b : Reg)
  /-- VSADD_SCALAR, R275: Vector saturating add of a scalar. -/
  | vsaddScalar (x : VX) (d a b : Reg)
  /-- VSSUB_SCALAR, R275: Vector saturating subtract of a scalar. -/
  | vssubScalar (x : VX) (d a b : Reg)
  /-- VRSUB, R275: Scalar minus vector. -/
  | vrsub (x : VX) (d a b : Reg)
  /-- VFADD, R276: Vector FP add. -/
  | vfadd (x : VX) (d a b : Reg)
  /-- VFSUB, R276: Vector FP subtract. -/
  | vfsub (x : VX) (d a b : Reg)
  /-- VFMUL, R276: Vector FP multiply. -/
  | vfmul (x : VX) (d a b : Reg)
  /-- VFDIV, R276: Vector FP divide. -/
  | vfdiv (x : VX) (d a b : Reg)
  /-- VFSQRT, R276: Vector FP square root. -/
  | vfsqrt (x : VX) (d a : Reg)
  /-- VFMIN, R276: Vector FP minimumNumber. -/
  | vfmin (x : VX) (d a b : Reg)
  /-- VFMAX, R276: Vector FP maximumNumber. -/
  | vfmax (x : VX) (d a b : Reg)
  /-- VFSGNJ, R277: Magnitude of a with the sign of b. -/
  | vfsgnj (x : VX) (d a b : Reg)
  /-- VFSGNJN, R277: Magnitude of a with the inverted sign of b. -/
  | vfsgnjn (x : VX) (d a b : Reg)
  /-- VFSGNJX, R277: Magnitude of a with the xor of the signs. -/
  | vfsgnjx (x : VX) (d a b : Reg)
  /-- VFCLASS, R277: Class word of each element. -/
  | vfclass (x : VX) (d a : Reg)
  /-- VFADD_SCALAR, R276: Vector FP add of a scalar. -/
  | vfaddScalar (x : VX) (d a b : Reg)
  /-- VFSUB_SCALAR, R276: Vector FP subtract of a scalar. -/
  | vfsubScalar (x : VX) (d a b : Reg)
  /-- VFMUL_SCALAR, R276: Vector FP multiply by a scalar. -/
  | vfmulScalar (x : VX) (d a b : Reg)
  /-- VFDIV_SCALAR, R276: Vector FP divide by a scalar. -/
  | vfdivScalar (x : VX) (d a b : Reg)
  /-- VFSQRT_SCALAR, R276: Vector FP square root, VFPS form. -/
  | vfsqrtScalar (x : VX) (d a : Reg)
  /-- VFMIN_SCALAR, R276: Vector FP minimum with a scalar. -/
  | vfminScalar (x : VX) (d a b : Reg)
  /-- VFMAX_SCALAR, R276: Vector FP maximum with a scalar. -/
  | vfmaxScalar (x : VX) (d a b : Reg)
  /-- VFSGNJ_SCALAR, R277: Sign injection from a scalar. -/
  | vfsgnjScalar (x : VX) (d a b : Reg)
  /-- VFSGNJN_SCALAR, R277: Inverted sign injection from a scalar. -/
  | vfsgnjnScalar (x : VX) (d a b : Reg)
  /-- VFSGNJX_SCALAR, R277: Xor sign injection from a scalar. -/
  | vfsgnjxScalar (x : VX) (d a b : Reg)
  /-- VFCLASS_SCALAR, R277: Class word, VFPS form. -/
  | vfclassScalar (x : VX) (d a : Reg)
  /-- VFMACC, R278: d := a·b + d, fused. -/
  | vfmacc (x : VX) (d a b : Reg)
  /-- VFMSAC, R278: d := a·b − d, fused. -/
  | vfmsac (x : VX) (d a b : Reg)
  /-- VFNMACC, R278: d := −(a·b) − d, fused. -/
  | vfnmacc (x : VX) (d a b : Reg)
  /-- VFNMSAC, R278: d := −(a·b) + d, fused. -/
  | vfnmsac (x : VX) (d a b : Reg)
  /-- VFMACC_SCALAR, R278: Fused multiply-add with a scalar b. -/
  | vfmaccScalar (x : VX) (d a b : Reg)
  /-- VFMSAC_SCALAR, R278: Fused multiply-subtract with a scalar b. -/
  | vfmsacScalar (x : VX) (d a b : Reg)
  /-- VFNMACC_SCALAR, R278: Negated fused multiply-add with a scalar b. -/
  | vfnmaccScalar (x : VX) (d a b : Reg)
  /-- VFNMSAC_SCALAR, R278: Negated fused multiply-subtract with a scalar b. -/
  | vfnmsacScalar (x : VX) (d a b : Reg)
  /-- VMACC, R278: Integer multiply-accumulate, wrapping. -/
  | vmacc (x : VX) (d a b : Reg)
  /-- VMACC_SCALAR, R278: Integer multiply-accumulate with a scalar b. -/
  | vmaccScalar (x : VX) (d a b : Reg)
  /-- VWMACC, R279: FP16 or BF16 products accumulated into FP32. -/
  | vwmacc (x : VX) (d a b : Reg)
  /-- VEQ, R280: Integer equal compare into a predicate. -/
  | veq (x : VX) (d : PReg) (a b : Reg)
  /-- VNE, R280: Integer not-equal compare. -/
  | vne (x : VX) (d : PReg) (a b : Reg)
  /-- VLT, R280: Signed less-than compare. -/
  | vlt (x : VX) (d : PReg) (a b : Reg)
  /-- VLE, R280: Signed less-or-equal compare. -/
  | vle (x : VX) (d : PReg) (a b : Reg)
  /-- VLTU, R280: Unsigned less-than compare. -/
  | vltu (x : VX) (d : PReg) (a b : Reg)
  /-- VLEU, R280: Unsigned less-or-equal compare. -/
  | vleu (x : VX) (d : PReg) (a b : Reg)
  /-- VFEQ, R280: FP equal compare. -/
  | vfeq (x : VX) (d : PReg) (a b : Reg)
  /-- VFLT, R280: FP less-than compare. -/
  | vflt (x : VX) (d : PReg) (a b : Reg)
  /-- VFLE, R280: FP less-or-equal compare. -/
  | vfle (x : VX) (d : PReg) (a b : Reg)
  /-- VFUNORD, R280: Unordered (NaN) compare. -/
  | vfunord (x : VX) (d : PReg) (a b : Reg)
  /-- VEQ_SCALAR, R280: Integer equal compare with a scalar. -/
  | veqScalar (x : VX) (d : PReg) (a b : Reg)
  /-- VNE_SCALAR, R280: Integer not-equal compare with a scalar. -/
  | vneScalar (x : VX) (d : PReg) (a b : Reg)
  /-- VLT_SCALAR, R280: Signed less-than compare with a scalar. -/
  | vltScalar (x : VX) (d : PReg) (a b : Reg)
  /-- VLE_SCALAR, R280: Signed less-or-equal compare with a scalar. -/
  | vleScalar (x : VX) (d : PReg) (a b : Reg)
  /-- VLTU_SCALAR, R280: Unsigned less-than compare with a scalar. -/
  | vltuScalar (x : VX) (d : PReg) (a b : Reg)
  /-- VLEU_SCALAR, R280: Unsigned less-or-equal compare with a scalar. -/
  | vleuScalar (x : VX) (d : PReg) (a b : Reg)
  /-- VFEQ_SCALAR, R280: FP equal compare with a scalar. -/
  | vfeqScalar (x : VX) (d : PReg) (a b : Reg)
  /-- VFLT_SCALAR, R280: FP less-than compare with a scalar. -/
  | vfltScalar (x : VX) (d : PReg) (a b : Reg)
  /-- VFLE_SCALAR, R280: FP less-or-equal compare with a scalar. -/
  | vfleScalar (x : VX) (d : PReg) (a b : Reg)
  /-- VFUNORD_SCALAR, R280: Unordered compare with a scalar. -/
  | vfunordScalar (x : VX) (d : PReg) (a b : Reg)
  /-- PAND, R281: Predicate and. -/
  | pand (x : VX) (d a b : PReg)
  /-- POR, R281: Predicate or. -/
  | por (x : VX) (d a b : PReg)
  /-- PXOR, R281: Predicate xor. -/
  | pxor (x : VX) (d a b : PReg)
  /-- PANDN, R281: Predicate and-not. -/
  | pandn (x : VX) (d a b : PReg)
  /-- PNOT, R281: Predicate not. -/
  | pnot (x : VX) (d a : PReg)
  /-- PSET, R281: Sets predicate bits below g[a]. -/
  | pset (x : VX) (d : PReg) (a : Reg)
  /-- PPOP, R281: Counts active set bits into g[d] through the read queue. -/
  | ppop (x : VX) (d : Reg) (a : PReg)
  /-- PFIRST, R281: Returns the lowest active set bit index, or −1. -/
  | pfirst (x : VX) (d : Reg) (a : PReg)
  /-- PSCAN, R281: Exclusive prefix count of active set bits into a vector. -/
  | pscan (x : VX) (d : Reg) (a : PReg)
  /-- PBEFORE, R281: Sets bits before the first active set bit. -/
  | pbefore (x : VX) (d a : PReg)
  /-- PMV, R281: Predicate bits into vector elements as 0 or 1. -/
  | pmv (x : VX) (d : Reg) (a : PReg)
  /-- VSLIDEUP, R282: Slides elements up by a scalar amount, keeping those below it. -/
  | vslideup (x : VX) (d a b : Reg)
  /-- VSLIDEDOWN, R282: Slides elements down by a scalar amount, filling with zero. -/
  | vslidedown (x : VX) (d a b : Reg)
  /-- VGATHER, R283: Register gather by index vector. -/
  | vgather (x : VX) (d a b : Reg)
  /-- VCOMPRESS, R284: Packs active elements to the bottom. -/
  | vcompress (x : VX) (d a : Reg)
  /-- VEXPAND, R284: Spreads consecutive elements onto active positions. -/
  | vexpand (x : VX) (d a : Reg)
  /-- VBCAST, R284: Broadcasts a scalar to active elements. -/
  | vbcast (x : VX) (d a : Reg)
  /-- VMVSV, R283: Reads one vector element into g[d] through the read queue. -/
  | vmvsv (ext : Bool) (d a b : Reg)
  /-- VMVVS, R283: Writes a scalar into one vector element. -/
  | vmvvs (x : VX) (d a b : Reg)
  /-- VIOTA, R284: Writes each active element's index. -/
  | viota (x : VX) (d : Reg)
  /-- VMERGE, R284: Selects va or vb per predicate bit. -/
  | vmerge (x : VX) (d a b : Reg)
  /-- VSLIDE1UP, R282: Shifts along active elements up by one, inserting a scalar. -/
  | vslide1up (x : VX) (d a b : Reg)
  /-- VSLIDE1DOWN, R282: Shifts along active elements down by one, inserting a scalar. -/
  | vslide1down (x : VX) (d a b : Reg)
  /-- VREDSUM, R285: Integer sum reduction. -/
  | vredsum (x : VX) (d a : Reg)
  /-- VREDMIN, R285: Signed minimum reduction. -/
  | vredmin (x : VX) (d a : Reg)
  /-- VREDMAX, R285: Signed maximum reduction. -/
  | vredmax (x : VX) (d a : Reg)
  /-- VREDMINU, R285: Unsigned minimum reduction. -/
  | vredminu (x : VX) (d a : Reg)
  /-- VREDMAXU, R285: Unsigned maximum reduction. -/
  | vredmaxu (x : VX) (d a : Reg)
  /-- VREDAND, R285: Bitwise and reduction. -/
  | vredand (x : VX) (d a : Reg)
  /-- VREDOR, R285: Bitwise or reduction. -/
  | vredor (x : VX) (d a : Reg)
  /-- VREDXOR, R285: Bitwise xor reduction. -/
  | vredxor (x : VX) (d a : Reg)
  /-- VFREDSUM, R285: FP sum reduction in the fixed tree order. -/
  | vfredsum (x : VX) (d a : Reg)
  /-- VFREDMIN, R285: FP minimum reduction. -/
  | vfredmin (x : VX) (d a : Reg)
  /-- VFREDMAX, R285: FP maximum reduction. -/
  | vfredmax (x : VX) (d a : Reg)
  /-- VFREDSUM_W, R286: FP16 or BF16 sum reduction into FP32. -/
  | vfredsumW (x : VX) (d a : Reg)
  /-- VCVT_F_FP64, R289: FP64 to the float format VTYPE.FMT. -/
  | vcvtFFp64 (x : VX) (d a : Reg)
  /-- VCVT_I_FP64, R289: FP64 to a signed integer. -/
  | vcvtIFp64 (x : VX) (d a : Reg)
  /-- VCVT_U_FP64, R289: FP64 to an unsigned integer. -/
  | vcvtUFp64 (x : VX) (d a : Reg)
  /-- VCVT_FP64_I, R289: Signed integer to FP64. -/
  | vcvtFp64I (x : VX) (d a : Reg)
  /-- VCVT_F_FP32, R289: FP32 to the float format VTYPE.FMT. -/
  | vcvtFFp32 (x : VX) (d a : Reg)
  /-- VCVT_I_FP32, R289: FP32 to a signed integer. -/
  | vcvtIFp32 (x : VX) (d a : Reg)
  /-- VCVT_U_FP32, R289: FP32 to an unsigned integer. -/
  | vcvtUFp32 (x : VX) (d a : Reg)
  /-- VCVT_FP32_I, R289: Signed integer to FP32. -/
  | vcvtFp32I (x : VX) (d a : Reg)
  /-- VCVT_F_FP16, R289: FP16 to the float format VTYPE.FMT. -/
  | vcvtFFp16 (x : VX) (d a : Reg)
  /-- VCVT_I_FP16, R289: FP16 to a signed integer. -/
  | vcvtIFp16 (x : VX) (d a : Reg)
  /-- VCVT_U_FP16, R289: FP16 to an unsigned integer. -/
  | vcvtUFp16 (x : VX) (d a : Reg)
  /-- VCVT_FP16_I, R289: Signed integer to FP16. -/
  | vcvtFp16I (x : VX) (d a : Reg)
  /-- VCVT_F_BF16, R289: BF16 to the float format VTYPE.FMT. -/
  | vcvtFBf16 (x : VX) (d a : Reg)
  /-- VCVT_I_BF16, R289: BF16 to a signed integer. -/
  | vcvtIBf16 (x : VX) (d a : Reg)
  /-- VCVT_U_BF16, R289: BF16 to an unsigned integer. -/
  | vcvtUBf16 (x : VX) (d a : Reg)
  /-- VCVT_BF16_I, R289: Signed integer to BF16. -/
  | vcvtBf16I (x : VX) (d a : Reg)
  /-- VCVT_F_E4M3, R289: E4M3 to the float format VTYPE.FMT. -/
  | vcvtFE4m3 (x : VX) (d a : Reg)
  /-- VCVT_I_E4M3, R289: E4M3 to a signed integer. -/
  | vcvtIE4m3 (x : VX) (d a : Reg)
  /-- VCVT_U_E4M3, R289: E4M3 to an unsigned integer. -/
  | vcvtUE4m3 (x : VX) (d a : Reg)
  /-- VCVT_I_I8, R289: Signed 8-bit integer to a signed SEW-bit integer. -/
  | vcvtII8 (x : VX) (d a : Reg)
  /-- VCVT_F_E5M2, R289: E5M2 to the float format VTYPE.FMT. -/
  | vcvtFE5m2 (x : VX) (d a : Reg)
  /-- VCVT_I_E5M2, R289: E5M2 to a signed integer. -/
  | vcvtIE5m2 (x : VX) (d a : Reg)
  /-- VCVT_U_E5M2, R289: E5M2 to an unsigned integer. -/
  | vcvtUE5m2 (x : VX) (d a : Reg)
  /-- VCVT_I_I16, R289: Signed 16-bit integer to a signed SEW-bit integer. -/
  | vcvtII16 (x : VX) (d a : Reg)
  /-- VCVT_F_E2M3, R289: E2M3 to the float format VTYPE.FMT. -/
  | vcvtFE2m3 (x : VX) (d a : Reg)
  /-- VCVT_I_E2M3, R289: E2M3 to a signed integer. -/
  | vcvtIE2m3 (x : VX) (d a : Reg)
  /-- VCVT_U_E2M3, R289: E2M3 to an unsigned integer. -/
  | vcvtUE2m3 (x : VX) (d a : Reg)
  /-- VCVT_I_I32, R289: Signed 32-bit integer to a signed SEW-bit integer. -/
  | vcvtII32 (x : VX) (d a : Reg)
  /-- VCVT_F_E3M2, R289: E3M2 to the float format VTYPE.FMT. -/
  | vcvtFE3m2 (x : VX) (d a : Reg)
  /-- VCVT_I_E3M2, R289: E3M2 to a signed integer. -/
  | vcvtIE3m2 (x : VX) (d a : Reg)
  /-- VCVT_U_E3M2, R289: E3M2 to an unsigned integer. -/
  | vcvtUE3m2 (x : VX) (d a : Reg)
  /-- VCVT_I_I64, R289: Signed 64-bit integer to a signed SEW-bit integer. -/
  | vcvtII64 (x : VX) (d a : Reg)
  /-- VCVT_F_T8, R289: T8 to the float format VTYPE.FMT. -/
  | vcvtFT8 (x : VX) (d a : Reg)
  /-- VCVT_I_T8, R289: T8 to a signed integer. -/
  | vcvtIT8 (x : VX) (d a : Reg)
  /-- VCVT_U_T8, R289: T8 to an unsigned integer. -/
  | vcvtUT8 (x : VX) (d a : Reg)
  /-- VCVT_F_T6, R289: T6 to the float format VTYPE.FMT. -/
  | vcvtFT6 (x : VX) (d a : Reg)
  /-- VCVT_I_T6, R289: T6 to a signed integer. -/
  | vcvtIT6 (x : VX) (d a : Reg)
  /-- VCVT_U_T6, R289: T6 to an unsigned integer. -/
  | vcvtUT6 (x : VX) (d a : Reg)
  /-- VMXPACK, R290: Packs FP32 elements to an MX format with per-block scale bytes. -/
  | vmxpack (x : VX) (d a b : Reg)
  /-- VMXUNPACK, R290: Unpacks MX elements with their scales to FP32. -/
  | vmxunpack (x : VX) (d a b : Reg)
  /-- VEXP2, R291: Special function 2^x. -/
  | vexp2 (x : VX) (d a : Reg)
  /-- VLOG2, R291: Special function log2 x. -/
  | vlog2 (x : VX) (d a : Reg)
  /-- VRCP, R291: Special function 1/x. -/
  | vrcp (x : VX) (d a : Reg)
  /-- VRSQRT, R291: Special function 1/sqrt x. -/
  | vrsqrt (x : VX) (d a : Reg)
  /-- VSINPI, R291: Special function sin πx. -/
  | vsinpi (x : VX) (d a : Reg)
  /-- VCOSPI, R291: Special function cos πx. -/
  | vcospi (x : VX) (d a : Reg)
  /-- VTANH, R291: Special function tanh x. -/
  | vtanh (x : VX) (d a : Reg)
  /-- VSIGM, R291: Special function sigmoid. -/
  | vsigm (x : VX) (d a : Reg)
  /-- VGELU, R291: Special function x·Φ(x). -/
  | vgelu (x : VX) (d a : Reg)
  /-- VERF, R291: Special function erf x. -/
  | verf (x : VX) (d a : Reg)
  /-- VCONF, R292: Index of the previous active element with the same key, or −1. -/
  | vconf (x : VX) (d a : Reg)
  /-- VLEAD, R292: Marks the last active occurrence of each key. -/
  | vlead (x : VX) (d : PReg) (a : Reg)
  /-- VDUPSUM, R293: Sums the values of duplicate keys in ascending element order at each leader. -/
  | vdupsum (x : VX) (d a b : Reg)
  /-- SETVL, R273: Sets VL to min(request, VLMAX), adopting a pending width grant. -/
  | setvl (ext : Bool) (d a : Reg)
  /-- SETVTYPE, R274: Sets VTYPE and lowers VL to the new VLMAX. -/
  | setvtype (ext : Bool) (d a : Reg)
  /-- VLD, R300: Unit-stride vector load through a pin. -/
  | vld (x : VX) (w : BitVec 2) (k : BitVec 3) (d a : Reg)
  /-- VLDS, R300: Strided vector load. -/
  | vlds (x : VX) (w : BitVec 2) (k : BitVec 3) (d a b : Reg)
  /-- VLDX, R300: Indexed vector load. -/
  | vldx (x : VX) (w : BitVec 2) (k : BitVec 3) (d a b : Reg)
  /-- VLDSEG, R301: Segment load of records of 2 to 8 fields. -/
  | vldseg (x : VX) (w : BitVec 2) (k : BitVec 3) (d a : Reg) (nf : BitVec 3) (perm : Option (BitVec 5))
  /-- VST, R300: Unit-stride vector store. -/
  | vst (x : VX) (o : Bool) (w : BitVec 2) (k : BitVec 3) (d a : Reg)
  /-- VSTS, R300: Strided vector store. -/
  | vsts (x : VX) (o : Bool) (w : BitVec 2) (k : BitVec 3) (d a b : Reg)
  /-- VSTX, R300: Indexed vector store, ordered or unordered. -/
  | vstx (x : VX) (o : Bool) (w : BitVec 2) (k : BitVec 3) (d a b : Reg)
  /-- VSTSEG, R301: Segment store of records. -/
  | vstseg (x : VX) (o : Bool) (w : BitVec 2) (k : BitVec 3) (d a : Reg) (nf : BitVec 3)
  /-- VAMO_ADD, R302: Vector atomic add at indexed locations. -/
  | vamoAdd (x : VX) (o : Bool) (k : BitVec 3) (d a b : Reg)
  /-- VAMO_MIN, R302: Vector atomic minimum. -/
  | vamoMin (x : VX) (o : Bool) (k : BitVec 3) (d a b : Reg)
  /-- VAMO_MAX, R302: Vector atomic maximum. -/
  | vamoMax (x : VX) (o : Bool) (k : BitVec 3) (d a b : Reg)
  /-- VAMO_SWAP, R302: Vector atomic swap. -/
  | vamoSwap (x : VX) (o : Bool) (k : BitVec 3) (d a b : Reg)
  /-- VGSCR, R303: Gathers rows into the scratchpad through the cluster BTE, counted on XFERBAR. -/
  | vgscr (x : VX) (w : BitVec 2) (k : BitVec 3) (d a b : Reg)
  /-- VEPOP, R304: Pops stream-port elements into a vector, trimming VL at an end mark. -/
  | vepop (ext : Bool) (w : BitVec 2) (d b : Reg)
  /-- TCFG, R325: Sets an accumulator's shape from TSHAPE and clears it. -/
  | tcfg (acc : BitVec 3)
  /-- TZERO, R325: Clears an accumulator and its checksums. -/
  | tzero (acc : BitVec 3)
  /-- TMMA, R326: Adds A×B from memory into a tile accumulator in WA. -/
  | tmma (acc : BitVec 3) (ra rb rs : Reg) (ms : BitVec 3) (fa fb : BitVec 4) (mk : PReg) (ka kb : BitVec 3) (ck : Bool)
  /-- TMMA_V, R326: Tile multiply-accumulate with A from a vector group. -/
  | tmmaV (acc : BitVec 3) (ra rb rs : Reg) (ms : BitVec 3) (fa fb : BitVec 4) (mk : PReg) (ka kb : BitVec 3) (ck : Bool)
  /-- TMMAS, R326: Tile multiply-accumulate with A compressed by the K-mask. -/
  | tmmas (acc : BitVec 3) (ra rb rs : Reg) (ms : BitVec 3) (fa fb : BitVec 4) (mk : PReg) (ka kb : BitVec 3) (ck : Bool)
  /-- TLD, R330: Loads a tile, padding out-of-bounds elements with TPAD. -/
  | tld (acc : BitVec 3) (ra rb rs : Reg) (ms : BitVec 3) (fa : BitVec 4) (ka : BitVec 3)
  /-- TST, R331: Stores a tile, rounded or as containers. -/
  | tst (acc : BitVec 3) (ra rs : Reg) (ms : BitVec 3) (fa : BitVec 4) (ka : BitVec 3)
  /-- TROW, R332: Moves one accumulator row to or from a vector. -/
  | trow (acc : BitVec 3) (ra rb : Reg) (ms : BitVec 3)
  /-- TCOL, R332: Moves one accumulator column to or from a vector. -/
  | tcol (acc : BitVec 3) (ra rb : Reg) (ms : BitVec 3)
  /-- TCHK, R335: Compares row and column sums with the checksums into a vector and predicate. -/
  | tchk (acc : BitVec 3) (ra rb : Reg) (mk : PReg)
  /-- TCON, R336: Contracts one index of an 8×8×8 field with an 8×8 matrix. -/
  | tcon (acc : BitVec 3) (ra rb : Reg) (ms : BitVec 3) (fa fb : BitVec 4) (ka kb : BitVec 3)
  /-- TSAVE, R333: Writes a 33,288-byte accumulator image. -/
  | tsave (acc : BitVec 3) (ra : Reg) (ka : BitVec 3)
  /-- TREST, R333: Restores an accumulator image except the shape. -/
  | trest (acc : BitVec 3) (ra : Reg) (ka : BitVec 3)
  /-- TSTAT, R334: Writes an accumulator status word to a vector element. -/
  | tstat (acc : BitVec 3) (ra : Reg)
  /-- OQINIT, R340: Initialises an orthogonal accumulator's length, capacity, policy, target and log. -/
  | oqinit (q : BitVec 1) (d a b : Reg) (m : BitVec 3) (n : BitVec 14) (cap : BitVec 6) (pol : BitVec 2)
  /-- OQACC, R341: Appends a reflector and extends T, applying the capacity rule. -/
  | oqacc (q : BitVec 1) (a b : Reg)
  /-- OQHH, R343: Forms a Householder reflector from a column and appends it. -/
  | oqhh (q : BitVec 1) (d a b : Reg)
  /-- OQAPL, R344: Applies Q or Q transposed to matrix columns in memory from the left. -/
  | oqapl (q : BitVec 1) (a b : Reg) (m : BitVec 3) (tr : Bool)
  /-- OQAPR, R344: Applies Q or Q transposed to matrix rows in memory from the right. -/
  | oqapr (q : BitVec 1) (a b : Reg) (m : BitVec 3) (tr : Bool)
  /-- OQAPV, R344: Applies Q or Q transposed to a vector. -/
  | oqapv (q : BitVec 1) (d a : Reg) (tr : Bool)
  /-- OQFORM, R346: Logs, applies and empties the accumulator's block. -/
  | oqform (q : BitVec 1)
  /-- OQSAVE, R347: Writes an accumulator image to memory. -/
  | oqsave (q : BitVec 1) (a : Reg) (m : BitVec 3)
  /-- OQREST, R347: Restores an accumulator image, refusing invalid ones. -/
  | oqrest (q : BitVec 1) (a : Reg) (m : BitVec 3)
  /-- OQCNT, R348: Writes K, CAP, POL, FMT, N and LCOUNT to a vector element. -/
  | oqcnt (q : BitVec 1) (d : Reg)
  /-- OQRD, R348: Reads a column of V or T into a vector. -/
  | oqrd (q : BitVec 1) (d b : Reg)
  /-- C_ADDI, R224: Compressed addi of an 8-bit immediate. -/
  | cAddi (d : BitVec 3) (imm : BitVec 8)
  /-- C_ADD, R224: Compressed add. -/
  | cAdd (d a : BitVec 3)
  /-- C_MOV, R224: Compressed register move. -/
  | cMov (d a : BitVec 3)
  /-- C_LD, R224: Compressed 8-byte load from the stack. -/
  | cLd (d : BitVec 3) (imm : BitVec 8)
  /-- C_ST, R224: Compressed 8-byte store to the stack. -/
  | cSt (s : BitVec 3) (imm : BitVec 8)
  /-- C_BEQZ, R224: Compressed branch if zero. -/
  | cBeqz (a : BitVec 3) (off : BitVec 8)
  /-- C_BNEZ, R224: Compressed branch if not zero. -/
  | cBnez (a : BitVec 3) (off : BitVec 8)
  /-- C_J, R224: Compressed jump. -/
  | cJ (off : BitVec 11)
  /-- C_NOP, R224: No effect. -/
  | cNop
  /-- CVY, R109: Marks the next posted VIQ entry as the first of a convoy. -/
  | cvy
  /-- C_BRK, R224: Compressed BRK trap with an 11-bit code. -/
  | cBrk (code : BitVec 11)
  /-- START_STEP_COMPLETE, R70: A start step finishes its work, or reports an error, and STEP advances, leading after the last step to STATE READY and MSI-X vector 0. -/
  | startStepComplete (ok : Bool)
  /-- POWER_LOSS, R21: Power is removed from the module from outside, and it goes to OFF with BAR0 not answering. -/
  | powerLoss
  /-- MEMORY_ERROR, R20: A bit error arises in an HBM or LPDDR line, which is then found corrected or uncorrectable and poisoned. -/
  | memoryError (pa : BitVec 52) (fixable : Bool)
  /-- SOFT_ERROR, R115: A bit upset or fault arises in a register row, a pipeline stage, lane arithmetic or a scalar L1 line, to be caught by ECC, parity or the mordant pass. -/
  | softError (e : SoftError)
  /-- MATRIX_ENGINE_STEP, R324: The core's matrix engine finishes a row or block step of a tile instruction, advancing ROWPROG and entry progress. -/
  | matrixEngineStep (key : Nat)
  /-- ORTHOGONAL_LINE_STEP, R338: The orthogonal unit finishes computing and writing back one target line, log record or append step of an orthogonal instruction. -/
  | orthogonalLineStep (key : Nat)
  /-- SCALAR_ACCESS_PERFORMED, R257: A scalar load's value returns from memory, or a buffered scalar store is performed at its home. -/
  | scalarAccessPerformed (key n : Nat)
  /-- LANE_POWER_UP, R118: A lane that a raised MAXLG powers up again becomes usable 2 µs later, with its rows reading zero. -/
  | lanePowerUp (core : BitVec 8) (lane : Reg)
  deriving DecidableEq, Repr

end Sys2Proof
end

