-- ==== Sys2Proof/Decode.lean ====
section
/-! DEFINITION. The decoder (R214 to R229), total on parcels, and after it the encoder written from the same tables.
The decoder answers none for every pattern R229 calls reserved by its form: a reserved major, function code, prefix or
compressed op, and a bit R218 requires to be zero. Checks on a field's range and on the machine's state are made by the
instruction's meaning at commit (R229). -/

namespace Sys2Proof

/-! Lean's compiler gives no object tag to a constructor past the 244th, so what builds an Instr is marked
noncomputable; the kernel evaluates it all the same. -/
noncomputable section

/-- `len` bits of a word from bit `lo` (R3). -/
def bits (w : BitVec 32) (lo len : Nat) : BitVec len := w.extractLsb' lo len

/-- Sign extension to 64 bits (R230). -/
def sext64 {n : Nat} (x : BitVec n) : BitVec 64 := x.signExtend 64

/-- Zero extension to 64 bits (R230). -/
def zext64 {n : Nat} (x : BitVec n) : BitVec 64 := x.setWidth 64

def fldD (w : BitVec 32) : Reg := bits w 8 5
def fldA (w : BitVec 32) : Reg := bits w 13 5
def fldB (w : BitVec 32) : Reg := bits w 18 5
def fldM (w : BitVec 32) : BitVec 3 := bits w 23 3
def fldFn (w : BitVec 32) : BitVec 6 := bits w 26 6
def fldMajor (w : BitVec 32) : BitVec 6 := bits w 2 6
def bit (w : BitVec 32) (n : Nat) : Bool := w.getLsbD n

/-- An instruction answered only when `c` holds (the bits R218 requires to be zero). -/
def guardI (c : Bool) (i : Instr) : Option Instr := if c then some i else none

/-! ### Scalar majors -/

/-- Major 0x01 (R249). -/
def decodeAlu (w : BitVec 32) : Option Instr :=
  match (fldFn w).toNat with
  | 0x00 => guardI (fldM w == 0) (.add (fldD w) (fldA w) (fldB w))
  | 0x01 => guardI (fldM w == 0) (.sub (fldD w) (fldA w) (fldB w))
  | 0x02 => guardI (fldM w == 0) (.and (fldD w) (fldA w) (fldB w))
  | 0x03 => guardI (fldM w == 0) (.or (fldD w) (fldA w) (fldB w))
  | 0x04 => guardI (fldM w == 0) (.xor (fldD w) (fldA w) (fldB w))
  | 0x05 => guardI (fldM w == 0) (.andn (fldD w) (fldA w) (fldB w))
  | 0x06 => guardI (fldM w == 0) (.sll (fldD w) (fldA w) (fldB w))
  | 0x07 => guardI (fldM w == 0) (.srl (fldD w) (fldA w) (fldB w))
  | 0x08 => guardI (fldM w == 0) (.sra (fldD w) (fldA w) (fldB w))
  | 0x09 => guardI (fldM w == 0) (.rol (fldD w) (fldA w) (fldB w))
  | 0x0A => guardI (fldM w == 0) (.ror (fldD w) (fldA w) (fldB w))
  | 0x0B => guardI (fldM w == 0) (.slt (fldD w) (fldA w) (fldB w))
  | 0x0C => guardI (fldM w == 0) (.sltu (fldD w) (fldA w) (fldB w))
  | 0x0D => guardI (fldM w == 0) (.min (fldD w) (fldA w) (fldB w))
  | 0x0E => guardI (fldM w == 0) (.max (fldD w) (fldA w) (fldB w))
  | 0x0F => guardI (fldM w == 0) (.minu (fldD w) (fldA w) (fldB w))
  | 0x10 => guardI (fldM w == 0) (.maxu (fldD w) (fldA w) (fldB w))
  | 0x11 => guardI (fldM w == 0) (.addw (fldD w) (fldA w) (fldB w))
  | 0x12 => guardI (fldM w == 0) (.subw (fldD w) (fldA w) (fldB w))
  | _ => none

/-- Major 0x02 (R250). -/
def decodeMdb (w : BitVec 32) : Option Instr :=
  match (fldFn w).toNat with
  | 0x00 => guardI (fldM w == 0) (.mul (fldD w) (fldA w) (fldB w))
  | 0x01 => guardI (fldM w == 0) (.mulh (fldD w) (fldA w) (fldB w))
  | 0x02 => guardI (fldM w == 0) (.mulhu (fldD w) (fldA w) (fldB w))
  | 0x03 => guardI (fldM w == 0) (.mulhsu (fldD w) (fldA w) (fldB w))
  | 0x04 => guardI (fldM w == 0) (.div (fldD w) (fldA w) (fldB w))
  | 0x05 => guardI (fldM w == 0) (.divu (fldD w) (fldA w) (fldB w))
  | 0x06 => guardI (fldM w == 0) (.rem (fldD w) (fldA w) (fldB w))
  | 0x07 => guardI (fldM w == 0) (.remu (fldD w) (fldA w) (fldB w))
  | 0x08 => guardI (fldB w == 0 && fldM w == 0) (.clz (fldD w) (fldA w))
  | 0x09 => guardI (fldB w == 0 && fldM w == 0) (.ctz (fldD w) (fldA w))
  | 0x0A => guardI (fldB w == 0 && fldM w == 0) (.popc (fldD w) (fldA w))
  | 0x0B => guardI (fldB w == 0 && fldM w == 0) (.sextb (fldD w) (fldA w))
  | 0x0C => guardI (fldB w == 0 && fldM w == 0) (.sexth (fldD w) (fldA w))
  | 0x0D => guardI (fldB w == 0 && fldM w == 0) (.sextw (fldD w) (fldA w))
  | 0x0E => guardI (fldB w == 0 && fldM w == 0) (.zexth (fldD w) (fldA w))
  | 0x0F => guardI (fldB w == 0 && fldM w == 0) (.zextw (fldD w) (fldA w))
  | _ => none

/-- Major 0x16 (R261). -/
def decodeJr (w : BitVec 32) : Option Instr :=
  match (fldFn w).toNat with
  | 0x00 => guardI (fldD w == 0 && fldB w == 0 && fldM w == 0) (.jr (fldA w))
  | 0x01 => guardI (fldB w == 0 && fldM w == 0) (.jlr (fldD w) (fldA w))
  | _ => none

/-- Major 0x17 (R264). -/
def decodeFps (w : BitVec 32) : Option Instr :=
  match (fldFn w).toNat with
  | 0x00 => some (.faddS (fldD w) (fldA w) (fldB w) (fldM w))
  | 0x01 => some (.fsubS (fldD w) (fldA w) (fldB w) (fldM w))
  | 0x02 => some (.fmulS (fldD w) (fldA w) (fldB w) (fldM w))
  | 0x03 => some (.fdivS (fldD w) (fldA w) (fldB w) (fldM w))
  | 0x04 => guardI (fldB w == 0) (.fsqrtS (fldD w) (fldA w) (fldM w))
  | 0x05 => guardI (fldM w == 0) (.fminS (fldD w) (fldA w) (fldB w))
  | 0x06 => guardI (fldM w == 0) (.fmaxS (fldD w) (fldA w) (fldB w))
  | 0x07 => guardI (fldM w == 0) (.feqS (fldD w) (fldA w) (fldB w))
  | 0x08 => guardI (fldM w == 0) (.fltS (fldD w) (fldA w) (fldB w))
  | 0x09 => guardI (fldM w == 0) (.fleS (fldD w) (fldA w) (fldB w))
  | 0x0A => guardI (fldB w == 0) (.fcvtSL (fldD w) (fldA w) (fldM w))
  | 0x0B => guardI (fldB w == 0) (.fcvtLS (fldD w) (fldA w) (fldM w))
  | 0x0C => guardI (fldB w == 0 && fldM w == 0) (.fclassS (fldD w) (fldA w))
  | 0x10 => some (.faddD (fldD w) (fldA w) (fldB w) (fldM w))
  | 0x11 => some (.fsubD (fldD w) (fldA w) (fldB w) (fldM w))
  | 0x12 => some (.fmulD (fldD w) (fldA w) (fldB w) (fldM w))
  | 0x13 => some (.fdivD (fldD w) (fldA w) (fldB w) (fldM w))
  | 0x14 => guardI (fldB w == 0) (.fsqrtD (fldD w) (fldA w) (fldM w))
  | 0x15 => guardI (fldM w == 0) (.fminD (fldD w) (fldA w) (fldB w))
  | 0x16 => guardI (fldM w == 0) (.fmaxD (fldD w) (fldA w) (fldB w))
  | 0x17 => guardI (fldM w == 0) (.feqD (fldD w) (fldA w) (fldB w))
  | 0x18 => guardI (fldM w == 0) (.fltD (fldD w) (fldA w) (fldB w))
  | 0x19 => guardI (fldM w == 0) (.fleD (fldD w) (fldA w) (fldB w))
  | 0x1A => guardI (fldB w == 0) (.fcvtDL (fldD w) (fldA w) (fldM w))
  | 0x1B => guardI (fldB w == 0) (.fcvtLD (fldD w) (fldA w) (fldM w))
  | 0x1C => guardI (fldB w == 0 && fldM w == 0) (.fclassD (fldD w) (fldA w))
  | _ => none

/-- Major 0x18 (R267). -/
def decodeFmas (w : BitVec 32) : Option Instr :=
  match (fldFn w).toNat with
  | 0x00 => some (.fmaddS (fldD w) (fldA w) (fldB w) (fldM w))
  | 0x01 => some (.fmsubS (fldD w) (fldA w) (fldB w) (fldM w))
  | 0x02 => some (.fnmaddS (fldD w) (fldA w) (fldB w) (fldM w))
  | 0x03 => some (.fnmsubS (fldD w) (fldA w) (fldB w) (fldM w))
  | 0x10 => some (.fmaddD (fldD w) (fldA w) (fldB w) (fldM w))
  | 0x11 => some (.fmsubD (fldD w) (fldA w) (fldB w) (fldM w))
  | 0x12 => some (.fnmaddD (fldD w) (fldA w) (fldB w) (fldM w))
  | 0x13 => some (.fnmsubD (fldD w) (fldA w) (fldB w) (fldM w))
  | _ => none

/-- Major 0x1A (R349). -/
def decodeSys (w : BitVec 32) : Option Instr :=
  match (fldFn w).toNat with
  | 0x00 => guardI (fldD w == 0 && fldM w == 0) (.trap (bits w 13 10))
  | 0x01 => guardI (fldD w == 0 && fldA w == 0 && fldB w == 0 && fldM w == 0) (.tret)
  | 0x02 => guardI (fldD w == 0 && fldM w == 0) (.brk (bits w 13 10))
  | 0x03 => guardI (fldB w == 0 && fldM w == 0) (.wait (fldD w) (fldA w))
  | 0x04 => guardI (fldD w == 0 && fldB w == 0 && fldM w == 0) (.yield (fldA w))
  | 0x05 => guardI (fldD w == 0 && fldA w == 0 && fldB w == 0 && fldM w == 0) (.halt)
  | 0x06 => guardI (fldM w == 0) (.mfc (fldD w) (bits w 13 10))
  | 0x07 => guardI (fldM w == 0) (.mtc (fldD w) (bits w 13 10))
  | 0x08 => guardI (fldM w == 0) (.farm (fldD w) (fldA w) (fldB w))
  | 0x09 => guardI (fldA w == 0 && fldB w == 0 && fldM w == 0) (.strip (fldD w))
  | 0x0A => guardI (fldM w == 0) (.tlbi (fldD w) (fldA w) (fldB w))
  | 0x0B => guardI (fldD w == 0 && fldA w == 0 && fldB w == 0 && fldM w == 0) (.sync)
  | 0x0C => guardI (fldD w == 0 && fldA w == 0 && fldB w == 0 && fldM w == 0) (.vsync)
  | _ => none

/-- Major 0x1B (R315 to R318). -/
def decodeFence (w : BitVec 32) : Option Instr :=
  match (fldFn w).toNat with
  | 0x00 => guardI (fldA w == 0 && fldB w == 0) (.fence (fldD w) (fldM w))
  | 0x01 => guardI (fldD w == 0 && fldA w == 0 && fldB w == 0 && fldM w == 0) (.vfence)
  | 0x02 => guardI (fldM w == 0) (.barInit (fldD w) (fldA w) (fldB w))
  | 0x03 => guardI (fldB w == 0 && fldM w == 0) (.barArrive (fldD w) (fldA w))
  | 0x04 => guardI (fldB w == 0 && fldM w == 0) (.barWait (fldD w) (fldA w))
  | 0x05 => guardI (fldM w == 0) (.barPost (fldD w) (fldA w) (fldB w))
  | 0x06 => guardI (fldM w == 0) (.barDone (fldD w) (fldA w) (fldB w))
  | 0x07 => guardI (fldB w == 0 && fldM w == 0) (.barArrwait (fldD w) (fldA w))
  | 0x08 => guardI (fldB w == 0 && fldM w == 0) (.barQuery (fldD w) (fldA w))
  | _ => none

/-- Major 0x1C (R295 to R297). -/
def decodePin (w : BitVec 32) : Option Instr :=
  match (fldFn w).toNat with
  | 0x00 => some (.pin (fldD w) (fldA w) (fldB w) (fldM w))
  | 0x01 => guardI (fldA w == 0 && fldB w == 0 && fldM w == 0) (.unpin (fldD w))
  | 0x02 => guardI (fldM w == 0) (.pinq (fldD w) (fldA w) (fldB w))
  | _ => none

/-- Major 0x1D (R306). -/
def decodeEport (w : BitVec 32) : Option Instr :=
  match (fldFn w).toNat with
  | 0x00 => guardI (fldB w == 0 && fldM w == 0) (.epush (fldD w) (fldA w))
  | 0x01 => guardI (fldA w == 0 && fldM w == 0) (.epop (fldD w) (fldB w))
  | 0x02 => guardI (fldA w == 0 && fldM w == 0) (.eavail (fldD w) (fldB w))
  | _ => none

/-- Major 0x1E (R349). -/
def decodeCastle (w : BitVec 32) : Option Instr :=
  match (fldFn w).toNat with
  | 0x00 => guardI (fldM w == 0) (.castle (fldD w) (fldA w) (fldB w))
  | 0x01 => guardI (fldB w == 0 && fldM w == 0) (.castq (fldD w) (fldA w))
  | _ => none

/-- Major 0x07 (R253): bits [29:24] are zero, bits [31:30] the kind. -/
def decodeShi (w : BitVec 32) : Option Instr :=
  if bits w 24 6 != 0 then none
  else match (bits w 30 2).toNat with
    | 0 => some (.slli (fldD w) (fldA w) (bits w 18 6))
    | 1 => some (.srli (fldD w) (fldA w) (bits w 18 6))
    | 2 => some (.srai (fldD w) (fldA w) (bits w 18 6))
    | _ => some (.roli (fldD w) (fldA w) (bits w 18 6))

/-- Major 0x19 (R268): fn holds the order, the width and the operation, m the scope. -/
def decodeAmo (w : BitVec 32) : Option Instr :=
  let mk (c : Reg → Reg → Reg → BitVec 2 → Bool → BitVec 3 → Instr) : Option Instr :=
    some (c (fldD w) (fldA w) (fldB w) (bits w 30 2) (bit w 29) (fldM w))
  match (bits w 26 3).toNat with
  | 0 => mk .amoadd
  | 1 => mk .amoswap
  | 2 => mk .amoand
  | 3 => mk .amoor
  | 4 => mk .amomin
  | 5 => mk .amomax
  | 6 => mk .amocas
  | _ => mk .amoxor

/-! ### Vector majors -/

/-- The operand fields of a vector word after its prefix is read (R222): the predicate, and d, a and b at six bits. -/
structure VFields where
  x : VX
  d : BitVec 6
  a : BitVec 6
  b : BitVec 6

/-- The fields of a base word without a prefix. -/
def vfieldsBase (w : BitVec 32) : VFields :=
  { x := { ext := false, m := (fldM w).setWidth 6 }, d := (fldD w).setWidth 6, a := (fldA w).setWidth 6,
    b := (fldB w).setWidth 6 }

/-- The fields a VEXT prefix supplies; the base word's m, d, a and b must be zero (R222). -/
def vfieldsExt (p w : BitVec 32) : Option VFields :=
  if bits w 8 18 != 0 then none
  else some { x := { ext := true, m := bits p 8 6 }, d := bits p 14 6, a := bits p 20 6, b := bits p 26 6 }

/-- A field that names a vector or scalar register must have bit 5 clear (R222). -/
def asReg (f : BitVec 6) : Option Reg := if f.getLsbD 5 then none else some (f.setWidth 5)

def vRRR (c : VX → Reg → Reg → Reg → Instr) (f : VFields) : Option Instr :=
  match asReg f.d, asReg f.a, asReg f.b with
  | some d, some a, some b => some (c f.x d a b)
  | _, _, _ => none

def vRR (c : VX → Reg → Reg → Instr) (f : VFields) : Option Instr :=
  if f.b != 0 then none
  else match asReg f.d, asReg f.a with
    | some d, some a => some (c f.x d a)
    | _, _ => none

def vR (c : VX → Reg → Instr) (f : VFields) : Option Instr :=
  if f.b != 0 || f.a != 0 then none
  else match asReg f.d with
    | some d => some (c f.x d)
    | none => none

def vPRR (c : VX → PReg → Reg → Reg → Instr) (f : VFields) : Option Instr :=
  match asReg f.a, asReg f.b with
  | some a, some b => some (c f.x f.d a b)
  | _, _ => none

def vPPP (c : VX → PReg → PReg → PReg → Instr) (f : VFields) : Option Instr := some (c f.x f.d f.a f.b)

def vPP (c : VX → PReg → PReg → Instr) (f : VFields) : Option Instr :=
  if f.b != 0 then none else some (c f.x f.d f.a)

def vPR (c : VX → PReg → Reg → Instr) (f : VFields) : Option Instr :=
  if f.b != 0 then none
  else match asReg f.a with
    | some a => some (c f.x f.d a)
    | none => none

def vRP (c : VX → Reg → PReg → Instr) (f : VFields) : Option Instr :=
  if f.b != 0 then none
  else match asReg f.d with
    | some d => some (c f.x d f.a)
    | none => none

/-- Forms that use no predicate: m is zero (R270). -/
def vNoM (c : Bool → Reg → Reg → Reg → Instr) (f : VFields) : Option Instr :=
  if f.x.m != 0 then none else vRRR (fun x => c x.ext) f

def vNoM2 (c : Bool → Reg → Reg → Instr) (f : VFields) : Option Instr :=
  if f.x.m != 0 then none else vRR (fun x => c x.ext) f

/-- Major 0x20 (R228, R270). -/
def decodeVInt (fn : Nat) (f : VFields) : Option Instr :=
  match fn with
  | 0x00 => vRRR .vadd f
  | 0x01 => vRRR .vsub f
  | 0x02 => vRRR .vmul f
  | 0x03 => vRRR .vmulh f
  | 0x04 => vRRR .vmulhu f
  | 0x05 => vRRR .vand f
  | 0x06 => vRRR .vor f
  | 0x07 => vRRR .vxor f
  | 0x08 => vRRR .vsll f
  | 0x09 => vRRR .vsrl f
  | 0x0A => vRRR .vsra f
  | 0x0B => vRRR .vmin f
  | 0x0C => vRRR .vmax f
  | 0x0D => vRRR .vminu f
  | 0x0E => vRRR .vmaxu f
  | 0x0F => vRRR .vdiv f
  | 0x10 => vRRR .vdivu f
  | 0x11 => vRRR .vrem f
  | 0x12 => vRRR .vremu f
  | 0x13 => vRRR .vsadd f
  | 0x14 => vRRR .vssub f
  | _ => none

/-- Major 0x21 (R228, R270). -/
def decodeVInts (fn : Nat) (f : VFields) : Option Instr :=
  match fn with
  | 0x00 => vRRR .vaddScalar f
  | 0x01 => vRRR .vsubScalar f
  | 0x02 => vRRR .vmulScalar f
  | 0x03 => vRRR .vmulhScalar f
  | 0x04 => vRRR .vmulhuScalar f
  | 0x05 => vRRR .vandScalar f
  | 0x06 => vRRR .vorScalar f
  | 0x07 => vRRR .vxorScalar f
  | 0x08 => vRRR .vsllScalar f
  | 0x09 => vRRR .vsrlScalar f
  | 0x0A => vRRR .vsraScalar f
  | 0x0B => vRRR .vminScalar f
  | 0x0C => vRRR .vmaxScalar f
  | 0x0D => vRRR .vminuScalar f
  | 0x0E => vRRR .vmaxuScalar f
  | 0x0F => vRRR .vdivScalar f
  | 0x10 => vRRR .vdivuScalar f
  | 0x11 => vRRR .vremScalar f
  | 0x12 => vRRR .vremuScalar f
  | 0x13 => vRRR .vsaddScalar f
  | 0x14 => vRRR .vssubScalar f
  | 0x20 => vRRR .vrsub f
  | _ => none

/-- Major 0x22 (R228, R270). -/
def decodeVFp (fn : Nat) (f : VFields) : Option Instr :=
  match fn with
  | 0x00 => vRRR .vfadd f
  | 0x01 => vRRR .vfsub f
  | 0x02 => vRRR .vfmul f
  | 0x03 => vRRR .vfdiv f
  | 0x04 => vRR .vfsqrt f
  | 0x05 => vRRR .vfmin f
  | 0x06 => vRRR .vfmax f
  | 0x07 => vRRR .vfsgnj f
  | 0x08 => vRRR .vfsgnjn f
  | 0x09 => vRRR .vfsgnjx f
  | 0x0A => vRR .vfclass f
  | _ => none

/-- Major 0x23 (R228, R270). -/
def decodeVFps (fn : Nat) (f : VFields) : Option Instr :=
  match fn with
  | 0x00 => vRRR .vfaddScalar f
  | 0x01 => vRRR .vfsubScalar f
  | 0x02 => vRRR .vfmulScalar f
  | 0x03 => vRRR .vfdivScalar f
  | 0x04 => vRR .vfsqrtScalar f
  | 0x05 => vRRR .vfminScalar f
  | 0x06 => vRRR .vfmaxScalar f
  | 0x07 => vRRR .vfsgnjScalar f
  | 0x08 => vRRR .vfsgnjnScalar f
  | 0x09 => vRRR .vfsgnjxScalar f
  | 0x0A => vRR .vfclassScalar f
  | _ => none

/-- Major 0x24 (R228, R270). -/
def decodeVFma (fn : Nat) (f : VFields) : Option Instr :=
  match fn with
  | 0x00 => vRRR .vfmacc f
  | 0x01 => vRRR .vfmsac f
  | 0x02 => vRRR .vfnmacc f
  | 0x03 => vRRR .vfnmsac f
  | 0x04 => vRRR .vfmaccScalar f
  | 0x05 => vRRR .vfmsacScalar f
  | 0x06 => vRRR .vfnmaccScalar f
  | 0x07 => vRRR .vfnmsacScalar f
  | 0x08 => vRRR .vmacc f
  | 0x09 => vRRR .vmaccScalar f
  | 0x0A => vRRR .vwmacc f
  | _ => none

/-- Major 0x25 (R228, R270). -/
def decodeVCmp (fn : Nat) (f : VFields) : Option Instr :=
  match fn with
  | 0x00 => vPRR .veq f
  | 0x01 => vPRR .vne f
  | 0x02 => vPRR .vlt f
  | 0x03 => vPRR .vle f
  | 0x04 => vPRR .vltu f
  | 0x05 => vPRR .vleu f
  | 0x06 => vPRR .vfeq f
  | 0x07 => vPRR .vflt f
  | 0x08 => vPRR .vfle f
  | 0x09 => vPRR .vfunord f
  | 0x10 => vPRR .veqScalar f
  | 0x11 => vPRR .vneScalar f
  | 0x12 => vPRR .vltScalar f
  | 0x13 => vPRR .vleScalar f
  | 0x14 => vPRR .vltuScalar f
  | 0x15 => vPRR .vleuScalar f
  | 0x16 => vPRR .vfeqScalar f
  | 0x17 => vPRR .vfltScalar f
  | 0x18 => vPRR .vfleScalar f
  | 0x19 => vPRR .vfunordScalar f
  | _ => none

/-- Major 0x26 (R228, R270). -/
def decodePred (fn : Nat) (f : VFields) : Option Instr :=
  match fn with
  | 0x00 => vPPP .pand f
  | 0x01 => vPPP .por f
  | 0x02 => vPPP .pxor f
  | 0x03 => vPPP .pandn f
  | 0x04 => vPP .pnot f
  | 0x05 => vPR .pset f
  | 0x06 => vRP .ppop f
  | 0x07 => vRP .pfirst f
  | 0x08 => vRP .pscan f
  | 0x09 => vPP .pbefore f
  | 0x0A => vRP .pmv f
  | _ => none

/-- Major 0x27 (R228, R270). -/
def decodeVPerm (fn : Nat) (f : VFields) : Option Instr :=
  match fn with
  | 0x00 => vRRR .vslideup f
  | 0x01 => vRRR .vslidedown f
  | 0x02 => vRRR .vgather f
  | 0x03 => vRR .vcompress f
  | 0x04 => vRR .vexpand f
  | 0x05 => vRR .vbcast f
  | 0x06 => vNoM .vmvsv f
  | 0x07 => vRRR .vmvvs f
  | 0x08 => vR .viota f
  | 0x09 => vRRR .vmerge f
  | 0x0A => vRRR .vslide1up f
  | 0x0B => vRRR .vslide1down f
  | _ => none

/-- Major 0x28 (R228, R270). -/
def decodeVRed (fn : Nat) (f : VFields) : Option Instr :=
  match fn with
  | 0x00 => vRR .vredsum f
  | 0x01 => vRR .vredmin f
  | 0x02 => vRR .vredmax f
  | 0x03 => vRR .vredminu f
  | 0x04 => vRR .vredmaxu f
  | 0x05 => vRR .vredand f
  | 0x06 => vRR .vredor f
  | 0x07 => vRR .vredxor f
  | 0x08 => vRR .vfredsum f
  | 0x09 => vRR .vfredmin f
  | 0x0A => vRR .vfredmax f
  | 0x0B => vRR .vfredsumW f
  | _ => none

/-- Major 0x29 (R228, R270). -/
def decodeVCvt (fn : Nat) (f : VFields) : Option Instr :=
  match fn with
  | 0x00 => vRR .vcvtFFp64 f
  | 0x01 => vRR .vcvtIFp64 f
  | 0x02 => vRR .vcvtUFp64 f
  | 0x03 => vRR .vcvtFp64I f
  | 0x04 => vRR .vcvtFFp32 f
  | 0x05 => vRR .vcvtIFp32 f
  | 0x06 => vRR .vcvtUFp32 f
  | 0x07 => vRR .vcvtFp32I f
  | 0x08 => vRR .vcvtFFp16 f
  | 0x09 => vRR .vcvtIFp16 f
  | 0x0A => vRR .vcvtUFp16 f
  | 0x0B => vRR .vcvtFp16I f
  | 0x0C => vRR .vcvtFBf16 f
  | 0x0D => vRR .vcvtIBf16 f
  | 0x0E => vRR .vcvtUBf16 f
  | 0x0F => vRR .vcvtBf16I f
  | 0x10 => vRR .vcvtFE4m3 f
  | 0x11 => vRR .vcvtIE4m3 f
  | 0x12 => vRR .vcvtUE4m3 f
  | 0x13 => vRR .vcvtII8 f
  | 0x14 => vRR .vcvtFE5m2 f
  | 0x15 => vRR .vcvtIE5m2 f
  | 0x16 => vRR .vcvtUE5m2 f
  | 0x17 => vRR .vcvtII16 f
  | 0x18 => vRR .vcvtFE2m3 f
  | 0x19 => vRR .vcvtIE2m3 f
  | 0x1A => vRR .vcvtUE2m3 f
  | 0x1B => vRR .vcvtII32 f
  | 0x1C => vRR .vcvtFE3m2 f
  | 0x1D => vRR .vcvtIE3m2 f
  | 0x1E => vRR .vcvtUE3m2 f
  | 0x1F => vRR .vcvtII64 f
  | 0x20 => vRR .vcvtFT8 f
  | 0x21 => vRR .vcvtIT8 f
  | 0x22 => vRR .vcvtUT8 f
  | 0x24 => vRR .vcvtFT6 f
  | 0x25 => vRR .vcvtIT6 f
  | 0x26 => vRR .vcvtUT6 f
  | 0x3E => vRRR .vmxpack f
  | 0x3F => vRRR .vmxunpack f
  | _ => none

/-- Major 0x2A (R228, R270). -/
def decodeVSfu (fn : Nat) (f : VFields) : Option Instr :=
  match fn with
  | 0x00 => vRR .vexp2 f
  | 0x01 => vRR .vlog2 f
  | 0x02 => vRR .vrcp f
  | 0x03 => vRR .vrsqrt f
  | 0x04 => vRR .vsinpi f
  | 0x05 => vRR .vcospi f
  | 0x06 => vRR .vtanh f
  | 0x07 => vRR .vsigm f
  | 0x08 => vRR .vgelu f
  | 0x09 => vRR .verf f
  | _ => none

/-- Major 0x2B (R228, R270). -/
def decodeVConf (fn : Nat) (f : VFields) : Option Instr :=
  match fn with
  | 0x00 => vRR .vconf f
  | 0x01 => vPR .vlead f
  | 0x02 => vRRR .vdupsum f
  | _ => none

/-- Major 0x2C (R228, R270). -/
def decodeVSet (fn : Nat) (f : VFields) : Option Instr :=
  match fn with
  | 0x00 => vNoM2 .setvl f
  | 0x01 => vNoM2 .setvtype f
  | _ => none

/-- Majors 0x20 to 0x2C (R228). -/
def decodeVector (w : BitVec 32) (f : VFields) : Option Instr :=
  let fn := (fldFn w).toNat
  match (fldMajor w).toNat with
  | 0x20 => decodeVInt fn f
  | 0x21 => decodeVInts fn f
  | 0x22 => decodeVFp fn f
  | 0x23 => decodeVFps fn f
  | 0x24 => decodeVFma fn f
  | 0x25 => decodeVCmp fn f
  | 0x26 => decodePred fn f
  | 0x27 => decodeVPerm fn f
  | 0x28 => decodeVRed fn f
  | 0x29 => decodeVCvt fn f
  | 0x2A => decodeVSfu fn f
  | 0x2B => decodeVConf fn f
  | 0x2C => decodeVSet fn f
  | _ => none

/-- The M format's o, w and k fields (R216). -/
def mO (w : BitVec 32) : Bool := bit w 31
def mW (w : BitVec 32) : BitVec 2 := bits w 29 2
def mK (w : BitVec 32) : BitVec 3 := bits w 26 3

/-- The permutation register of `vldseg` under VEXT (R222): bx = 0 is none, bx with bit 5 set names v(bx[4:0]). -/
def segPerm (bx : BitVec 6) : Option (Option Reg) :=
  if bx == 0 then some none
  else if bx.getLsbD 5 then some (some (bx.setWidth 5))
  else none

/-- `vldseg` (R228, R301): the base word's b field is the field count, also under VEXT. -/
def decodeVldseg (p? : Option (BitVec 32)) (w : BitVec 32) : Option Instr :=
  if mO w || bits w 21 2 != 0 then none
  else
    let nf : BitVec 3 := bits w 18 3
    match p? with
    | none => some (.vldseg { ext := false, m := (fldM w).setWidth 6 } (mW w) (mK w) (fldD w) (fldA w) nf none)
    | some p =>
      if bits w 8 10 != 0 || fldM w != 0 then none
      else match asReg (bits p 14 6), asReg (bits p 20 6), segPerm (bits p 26 6) with
        | some d, some a, some pm => some (.vldseg { ext := true, m := bits p 8 6 } (mW w) (mK w) d a nf pm)
        | _, _, _ => none

/-- Vector memory majors 0x30 to 0x3A (R216, R228, R299). -/
def decodeVMem (w : BitVec 32) (f : VFields) : Option Instr :=
  let o := mO w
  let ww := mW w
  let k := mK w
  match asReg f.d, asReg f.a with
  | some d, some a =>
    match (fldMajor w).toNat with
    | 0x30 => guardI (!o && f.b == 0) (.vld f.x ww k d a)
    | 0x31 => match asReg f.b with | some b => guardI (!o) (.vlds f.x ww k d a b) | none => none
    | 0x32 => match asReg f.b with | some b => guardI (!o) (.vldx f.x ww k d a b) | none => none
    | 0x34 => guardI (f.b == 0) (.vst f.x o ww k d a)
    | 0x35 => match asReg f.b with | some b => some (.vsts f.x o ww k d a b) | none => none
    | 0x36 => match asReg f.b with | some b => some (.vstx f.x o ww k d a b) | none => none
    | 0x37 => guardI (f.b.extractLsb' 3 3 == 0) (.vstseg f.x o ww k d a (f.b.setWidth 3))
    | 0x38 =>
      match asReg f.b with
      | none => none
      | some b =>
        match ww.toNat with
        | 0 => some (.vamoAdd f.x o k d a b)
        | 1 => some (.vamoMin f.x o k d a b)
        | 2 => some (.vamoMax f.x o k d a b)
        | _ => some (.vamoSwap f.x o k d a b)
    | 0x39 => match asReg f.b with | some b => guardI (!o) (.vgscr f.x ww k d a b) | none => none
    | 0x3A =>
      match asReg f.b with
      | some b => guardI (!o && k == 0 && a == 0 && f.x.m == 0) (.vepop f.x.ext ww d b)
      | none => none
    | _ => none
  | _, _ => none

/-! ### Tile and orthogonal pairs -/

/-- A TILE prefix and a major 0x3F base word (R220, R321). A field R321 marks as unused must be zero. -/
def decodeTile (p w : BitVec 32) : Option Instr :=
  let acc : BitVec 3 := bits p 8 3
  let fa : BitVec 4 := bits p 11 4
  let fb : BitVec 4 := bits p 15 4
  let mk : BitVec 6 := bits p 19 6
  let ka : BitVec 3 := bits p 25 3
  let kb : BitVec 3 := bits p 28 3
  let ck := bit p 31
  let ra := fldD w
  let rb := fldA w
  let rs := fldB w
  let ms := fldM w
  let zA := ra == 0
  let zB := rb == 0
  let zS := rs == 0
  let zM := ms == 0
  let zfa := fa == 0
  let zfb := fb == 0
  let zmk := mk == 0
  let zka := ka == 0
  let zkb := kb == 0
  let zck := !ck
  match (fldFn w).toNat with
  | 0x00 => guardI (zA && zB && zS && zM && zfa && zfb && zmk && zka && zkb && zck) (.tcfg acc)
  | 0x01 => guardI (zA && zB && zS && zM && zfa && zfb && zmk && zka && zkb && zck) (.tzero acc)
  | 0x02 => some (.tmma acc ra rb rs ms fa fb mk ka kb ck)
  | 0x03 => some (.tmmaV acc ra rb rs ms fa fb mk ka kb ck)
  | 0x04 => some (.tmmas acc ra rb rs ms fa fb mk ka kb ck)
  | 0x05 => guardI (zfb && zmk && zkb && zck) (.tld acc ra rb rs ms fa ka)
  | 0x06 => guardI (zB && zfb && zmk && zkb && zck) (.tst acc ra rs ms fa ka)
  | 0x07 => guardI (zS && zfa && zfb && zmk && zka && zkb && zck) (.trow acc ra rb ms)
  | 0x08 => guardI (zS && zfa && zfb && zmk && zka && zkb && zck) (.tcol acc ra rb ms)
  | 0x09 => guardI (zS && zM && zfa && zfb && zka && zkb && zck) (.tchk acc ra rb mk)
  | 0x0A => guardI (zS && zmk && zck) (.tcon acc ra rb ms fa fb ka kb)
  | 0x0B => guardI (zB && zS && zM && zfa && zfb && zmk && zkb && zck) (.tsave acc ra ka)
  | 0x0C => guardI (zB && zS && zM && zfa && zfb && zmk && zkb && zck) (.trest acc ra ka)
  | 0x0D => guardI (zB && zS && zM && zfa && zfb && zmk && zka && zkb && zck) (.tstat acc ra)
  | _ => none

/-- An OQ prefix and a major 0x3F base word (R221, R337). -/
def decodeOq (p w : BitVec 32) : Option Instr :=
  let q : BitVec 1 := bits p 8 1
  let tr := bit p 9
  let pol : BitVec 2 := bits p 10 2
  let cap : BitVec 6 := bits p 12 6
  let n : BitVec 14 := bits p 18 14
  let d := fldD w
  let a := fldA w
  let b := fldB w
  let m := fldM w
  let zp := pol == 0 && cap == 0 && n == 0
  let zt := !tr
  let zd := d == 0
  let za := a == 0
  let zb := b == 0
  let zm := m == 0
  match (fldFn w).toNat with
  | 0x20 => guardI zt (.oqinit q d a b m n cap pol)
  | 0x21 => guardI (zp && zt && zd && zm) (.oqacc q a b)
  | 0x22 => guardI (zp && zt && zm) (.oqhh q d a b)
  | 0x23 => guardI (zp && zd) (.oqapl q a b m tr)
  | 0x24 => guardI (zp && zd) (.oqapr q a b m tr)
  | 0x25 => guardI (zp && zb && zm) (.oqapv q d a tr)
  | 0x26 => guardI (zp && zt && zd && za && zb && zm) (.oqform q)
  | 0x27 => guardI (zp && zt && zd && zb) (.oqsave q a m)
  | 0x28 => guardI (zp && zt && zd && zb) (.oqrest q a m)
  | 0x29 => guardI (zp && zt && za && zb && zm) (.oqcnt q d)
  | 0x2A => guardI (zp && zt && za && zm) (.oqrd q d b)
  | _ => none

/-! ### Words -/

/-- A base word without a prefix (R216, R228). -/
def decodeBase (w : BitVec 32) : Option Instr :=
  match (fldMajor w).toNat with
  | 0x01 => decodeAlu w
  | 0x02 => decodeMdb w
  | 0x03 => some (.addi (fldD w) (fldA w) (bits w 18 14))
  | 0x04 => some (.andi (fldD w) (fldA w) (bits w 18 14))
  | 0x05 => some (.ori (fldD w) (fldA w) (bits w 18 14))
  | 0x06 => some (.xori (fldD w) (fldA w) (bits w 18 14))
  | 0x07 => decodeShi w
  | 0x08 => some (.slti (fldD w) (fldA w) (bits w 18 14))
  | 0x09 => some (.sltiu (fldD w) (fldA w) (bits w 18 14))
  | 0x0A => some (.luim (fldD w) (bits w 13 19))
  | 0x0B => some (.apc (fldD w) (bits w 13 19))
  | 0x0C => some (.ld (fldD w) (fldA w) (bits w 18 2) (bit w 20) (bits w 21 11))
  | 0x0D => guardI (!bit w 20) (.st (fldD w) (fldA w) (bits w 18 2) (bits w 21 11))
  | 0x0E => some (.beq (fldD w) (fldA w) (bits w 18 14))
  | 0x0F => some (.bne (fldD w) (fldA w) (bits w 18 14))
  | 0x10 => some (.blt (fldD w) (fldA w) (bits w 18 14))
  | 0x11 => some (.bge (fldD w) (fldA w) (bits w 18 14))
  | 0x12 => some (.bltu (fldD w) (fldA w) (bits w 18 14))
  | 0x13 => some (.bgeu (fldD w) (fldA w) (bits w 18 14))
  | 0x14 => some (.j (bits w 8 24))
  | 0x15 => some (.jl (bits w 8 24))
  | 0x16 => decodeJr w
  | 0x17 => decodeFps w
  | 0x18 => decodeFmas w
  | 0x19 => decodeAmo w
  | 0x1A => decodeSys w
  | 0x1B => decodeFence w
  | 0x1C => decodePin w
  | 0x1D => decodeEport w
  | 0x1E => decodeCastle w
  | 0x33 => decodeVldseg none w
  | mj =>
    if 0x20 ≤ mj && mj ≤ 0x2C then decodeVector w (vfieldsBase w)
    else if 0x30 ≤ mj && mj ≤ 0x3A then decodeVMem w (vfieldsBase w)
    else none

/-- An IMM prefix (R219, R223): imm24 above the base word's immediate. -/
def decodeImm (p w : BitVec 32) : Option Instr :=
  let hi : BitVec 24 := bits p 8 24
  let imm38 : BitVec 38 := hi ++ (bits w 18 14 : BitVec 14)
  let imm35 : BitVec 35 := hi ++ (bits w 21 11 : BitVec 11)
  match (fldMajor w).toNat with
  | 0x03 => some (.addiImm (fldD w) (fldA w) imm38)
  | 0x04 => some (.andiImm (fldD w) (fldA w) imm38)
  | 0x05 => some (.oriImm (fldD w) (fldA w) imm38)
  | 0x06 => some (.xoriImm (fldD w) (fldA w) imm38)
  | 0x08 => some (.sltiImm (fldD w) (fldA w) imm38)
  | 0x09 => some (.sltiuImm (fldD w) (fldA w) imm38)
  | 0x0C => some (.ldImm (fldD w) (fldA w) (bits w 18 2) (bit w 20) imm35)
  | 0x0D => guardI (!bit w 20) (.stImm (fldD w) (fldA w) (bits w 18 2) imm35)
  | _ => none

/-- A prefix word and its base word (R219). -/
def decodePair (p w : BitVec 32) : Option Instr :=
  let mj := (fldMajor w).toNat
  match (bits p 2 6).toNat with
  | 0x01 => if mj = 0x3F then decodeTile p w else none
  | 0x02 => if mj = 0x3F then decodeOq p w else none
  | 0x03 =>
    if mj = 0x33 then decodeVldseg (some p) w
    else match vfieldsExt p w with
      | none => none
      | some f =>
        if 0x20 ≤ mj && mj ≤ 0x2C then decodeVector w f
        else if 0x30 ≤ mj && mj ≤ 0x3A then decodeVMem w f
        else none
  | 0x04 => decodeImm p w
  | _ => none

/-- A compressed parcel (R224). -/
def decodeCompressed (c : BitVec 16) : Option Instr :=
  let op := (c.extractLsb' 2 3).toNat
  let r3 : BitVec 3 := c.extractLsb' 5 3
  let a3 : BitVec 3 := c.extractLsb' 8 3
  let imm8 : BitVec 8 := c.extractLsb' 8 8
  let imm11 : BitVec 11 := c.extractLsb' 5 11
  let z := c.extractLsb' 11 5 == 0
  if c.extractLsb' 0 2 == 1 then
    match op with
    | 0 => some (.cAddi r3 imm8)
    | 1 => guardI z (.cAdd r3 a3)
    | 2 => guardI z (.cMov r3 a3)
    | 3 => some (.cLd r3 imm8)
    | 4 => some (.cSt r3 imm8)
    | 5 => some (.cBeqz r3 imm8)
    | 6 => some (.cBnez r3 imm8)
    | _ => some (.cJ imm11)
  else
    match op with
    | 0 => guardI (imm11 == 0) .cNop
    | 1 => guardI (imm11 == 0) .cvy
    | 2 => some (.cBrk imm11)
    | _ => none

/-- How many bytes an instruction takes, from its first parcel (R214). -/
def parcelLength (c : BitVec 16) : Nat :=
  if c.extractLsb' 0 2 == 0 then 4 else if c.extractLsb' 0 2 == 3 then 8 else 2

/-- Two parcels as one word (R214). -/
def joinParcels (lo hi : BitVec 16) : BitVec 32 := hi ++ lo

/-- The instruction at the head of a list of parcels (R214, R219). A prefix followed by anything but a base word
is refused. -/
def decodeParcels : List (BitVec 16) → Option Instr
  | [] => none
  | c :: rest =>
    if parcelLength c = 2 then decodeCompressed c
    else if parcelLength c = 4 then
      match rest with
      | [] => none
      | h :: _ => decodeBase (joinParcels c h)
    else
      match rest with
      | h :: c2 :: h2 :: _ => if parcelLength c2 = 4 then decodePair (joinParcels c h) (joinParcels c2 h2) else none
      | _ => none

/-- The low 16 bits of a number, its next 16 bits, and so on. -/
def parcelsOfNat : Nat → Nat → List (BitVec 16)
  | 0, _ => []
  | k + 1, w => BitVec.ofNat 16 w :: parcelsOfNat k (w / 65536)

/-- The parcels of the instruction whose low `nbits` bits are `w` and whose other bits are zero. -/
def tableParcels (nbits w : Nat) : List (BitVec 16) := parcelsOfNat 4 (w % 2 ^ nbits)

/-- What this decoder reads from a word numbered as spec/opcode_table.json numbers it. -/
def decodeTableWord (nbits w : Nat) : Option Instr := decodeParcels (tableParcels nbits w)

/-! ### The encoder -/

/-- A 32-bit word as its two parcels (R214). -/
def splitWord (w : BitVec 32) : List (BitVec 16) := [w.extractLsb' 0 16, w.extractLsb' 16 16]

/-- R format (R216). -/
def encR (major fn : Nat) (m : BitVec 3) (b a d : Reg) : List (BitVec 16) :=
  splitWord (BitVec.ofNat 6 fn ++ m ++ b ++ a ++ d ++ BitVec.ofNat 6 major ++ 0#2)

/-- I format (R216). -/
def encI (major : Nat) (imm : BitVec 14) (a d : Reg) : List (BitVec 16) :=
  splitWord (imm ++ a ++ d ++ BitVec.ofNat 6 major ++ 0#2)

/-- U format (R216). -/
def encU (major : Nat) (imm : BitVec 19) (d : Reg) : List (BitVec 16) :=
  splitWord (imm ++ d ++ BitVec.ofNat 6 major ++ 0#2)

/-- J format (R216). -/
def encJ (major : Nat) (off : BitVec 24) : List (BitVec 16) := splitWord (off ++ BitVec.ofNat 6 major ++ 0#2)

/-- LS and SS formats (R216). -/
def encLS (major : Nat) (imm : BitVec 11) (u : Bool) (w : BitVec 2) (a d : Reg) : List (BitVec 16) :=
  splitWord (imm ++ BitVec.ofBool u ++ w ++ a ++ d ++ BitVec.ofNat 6 major ++ 0#2)

/-- A prefix word (R219). -/
def encPrefix (kind : Nat) (payload : BitVec 24) : List (BitVec 16) :=
  splitWord (payload ++ BitVec.ofNat 6 kind ++ 3#2)

/-- SYS forms with a 10-bit code (R349). -/
def encCode (fn : Nat) (code : BitVec 10) (d : Reg) : List (BitVec 16) :=
  splitWord (BitVec.ofNat 6 fn ++ 0#3 ++ code ++ d ++ 0x1A#6 ++ 0#2)

/-- A vector R-format word, with its VEXT prefix when it has one (R222). -/
def encV (major fn : Nat) (x : VX) (b a d : BitVec 6) : List (BitVec 16) :=
  if x.ext then encPrefix 3 (b ++ a ++ d ++ x.m) ++ encR major fn 0 0 0 0
  else encR major fn (x.m.setWidth 3) (b.setWidth 5) (a.setWidth 5) (d.setWidth 5)

/-- A vector register field at six bits. -/
def r6 (r : Reg) : BitVec 6 := r.setWidth 6

/-- The M format's base word (R216). -/
def encMBase (major : Nat) (o : Bool) (w : BitVec 2) (k m : BitVec 3) (b a d : Reg) : List (BitVec 16) :=
  splitWord (BitVec.ofBool o ++ w ++ k ++ m ++ b ++ a ++ d ++ BitVec.ofNat 6 major ++ 0#2)

/-- An M-format word, with its VEXT prefix when it has one. -/
def encM (major : Nat) (x : VX) (o : Bool) (w : BitVec 2) (k : BitVec 3) (b a d : BitVec 6) : List (BitVec 16) :=
  if x.ext then encPrefix 3 (b ++ a ++ d ++ x.m) ++ encMBase major o w k 0 0 0 0
  else encMBase major o w k (x.m.setWidth 3) (b.setWidth 5) (a.setWidth 5) (d.setWidth 5)

/-- `vldseg` (R222, R301). -/
def encVldseg (x : VX) (w : BitVec 2) (k : BitVec 3) (d a : Reg) (nf : BitVec 3) (perm : Option Reg) :
    List (BitVec 16) :=
  let bx : BitVec 6 := match perm with | none => 0 | some r => 1#1 ++ r
  if x.ext then encPrefix 3 (bx ++ r6 a ++ r6 d ++ x.m) ++ encMBase 0x33 false w k 0 (nf.setWidth 5) 0 0
  else encMBase 0x33 false w k (x.m.setWidth 3) (nf.setWidth 5) a d

/-- A tile pair (R220, R321). -/
def encT (fn : Nat) (acc : BitVec 3) (ra rb rs : Reg) (ms : BitVec 3) (fa fb : BitVec 4) (mk : PReg)
    (ka kb : BitVec 3) (ck : Bool) : List (BitVec 16) :=
  encPrefix 1 (BitVec.ofBool ck ++ kb ++ ka ++ mk ++ fb ++ fa ++ acc) ++ encR 0x3F fn ms rs rb ra

/-- An orthogonal pair (R221, R337). -/
def encQ (fn : Nat) (q : BitVec 1) (tr : Bool) (n : BitVec 14) (cap : BitVec 6) (pol : BitVec 2) (m : BitVec 3)
    (b a d : Reg) : List (BitVec 16) :=
  encPrefix 2 (n ++ cap ++ pol ++ BitVec.ofBool tr ++ q) ++ encR 0x3F fn m b a d

/-- A compressed parcel (R224): bits [15:8], [7:5], op and quadrant. -/
def encC (hi : BitVec 8) (r : BitVec 3) (op quad : Nat) : List (BitVec 16) :=
  [hi ++ r ++ BitVec.ofNat 3 op ++ BitVec.ofNat 2 quad]

/-- A compressed parcel with an 11-bit field (R224). -/
def encC11 (x : BitVec 11) (op quad : Nat) : List (BitVec 16) := [x ++ BitVec.ofNat 3 op ++ BitVec.ofNat 2 quad]

/-- The parcels of an instruction; a step of the device has none. -/
def encode : Instr → List (BitVec 16)
  | .powerRestore => []
  | .startStepTimeout => []
  | .throttle _ _ _ => []
  | .clockStepUp _ => []
  | .commandRecordRefused _ _ => []
  | .responsePortRead => []
  | .completionNotice => []
  | .hostCxlMemRead _ _ _ => []
  | .hostCxlMemWrite _ _ _ => []
  | .identify _ => []
  | .attest _ => []
  | .loadImage _ => []
  | .startFarm _ => []
  | .startFarmDirect _ => []
  | .startFarmResume _ => []
  | .stopFarm _ => []
  | .preempt _ => []
  | .queryFarm _ => []
  | .partitionCreate _ => []
  | .partitionDestroy _ => []
  | .setSlots _ => []
  | .setPageBase _ => []
  | .pinRevoke _ => []
  | .castleStack _ => []
  | .readErrors _ => []
  | .scrubQuery _ => []
  | .scrubFullPass _ => []
  | .scrubRange _ => []
  | .linkConfig _ => []
  | .dcdAccept _ => []
  | .dcdRelease _ => []
  | .dcdReleaseForced _ => []
  | .extentReleaseComplete _ _ => []
  | .powerCap _ => []
  | .fwPatch _ => []
  | .resetWarm _ => []
  | .resetCold _ => []
  | .slotService _ _ _ _ => []
  | .scrubStarved _ _ => []
  | .dataFlit _ _ => []
  | .acknowledgement _ _ => []
  | .nak _ _ => []
  | .barrierMessage _ _ => []
  | .collectiveData _ _ => []
  | .commandAnnouncement _ _ => []
  | .completionStatus _ _ => []
  | .barrierCommandArrival _ _ => []
  | .replayTimeout _ => []
  | .lossOfLock _ => []
  | .retrainComplete _ => []
  | .retrainFail _ => []
  | .barrierArrival _ _ => []
  | .priorityAging _ => []
  | .quotaPeriod _ => []
  | .haltRequest _ => []
  | .strandHalt _ => []
  | .strandSave _ => []
  | .takeTrap _ => []
  | .microOperationIssue _ _ _ => []
  | .elementGroupComplete _ _ _ => []
  | .bteCommandTake _ => []
  | .bteBeat _ => []
  | .collectiveCommandTake _ => []
  | .handOver _ => []
  | .waitTimeout _ => []
  | .yieldExpiry _ => []
  | .errinjFlipVectorBit _ _ _ => []
  | .errinjFlipTileBit _ _ _ => []
  | .errinjMarkRow _ _ => []
  | .maxlg _ => []
  | .add d a b => encR 0x01 0x00 0 b a d
  | .sub d a b => encR 0x01 0x01 0 b a d
  | .and d a b => encR 0x01 0x02 0 b a d
  | .or d a b => encR 0x01 0x03 0 b a d
  | .xor d a b => encR 0x01 0x04 0 b a d
  | .andn d a b => encR 0x01 0x05 0 b a d
  | .sll d a b => encR 0x01 0x06 0 b a d
  | .srl d a b => encR 0x01 0x07 0 b a d
  | .sra d a b => encR 0x01 0x08 0 b a d
  | .rol d a b => encR 0x01 0x09 0 b a d
  | .ror d a b => encR 0x01 0x0A 0 b a d
  | .slt d a b => encR 0x01 0x0B 0 b a d
  | .sltu d a b => encR 0x01 0x0C 0 b a d
  | .min d a b => encR 0x01 0x0D 0 b a d
  | .max d a b => encR 0x01 0x0E 0 b a d
  | .minu d a b => encR 0x01 0x0F 0 b a d
  | .maxu d a b => encR 0x01 0x10 0 b a d
  | .addw d a b => encR 0x01 0x11 0 b a d
  | .subw d a b => encR 0x01 0x12 0 b a d
  | .mul d a b => encR 0x02 0x00 0 b a d
  | .mulh d a b => encR 0x02 0x01 0 b a d
  | .mulhu d a b => encR 0x02 0x02 0 b a d
  | .mulhsu d a b => encR 0x02 0x03 0 b a d
  | .div d a b => encR 0x02 0x04 0 b a d
  | .divu d a b => encR 0x02 0x05 0 b a d
  | .rem d a b => encR 0x02 0x06 0 b a d
  | .remu d a b => encR 0x02 0x07 0 b a d
  | .clz d a => encR 0x02 0x08 0 0 a d
  | .ctz d a => encR 0x02 0x09 0 0 a d
  | .popc d a => encR 0x02 0x0A 0 0 a d
  | .sextb d a => encR 0x02 0x0B 0 0 a d
  | .sexth d a => encR 0x02 0x0C 0 0 a d
  | .sextw d a => encR 0x02 0x0D 0 0 a d
  | .zexth d a => encR 0x02 0x0E 0 0 a d
  | .zextw d a => encR 0x02 0x0F 0 0 a d
  | .addi d a imm => encI 0x03 imm a d
  | .andi d a imm => encI 0x04 imm a d
  | .ori d a imm => encI 0x05 imm a d
  | .xori d a imm => encI 0x06 imm a d
  | .slti d a imm => encI 0x08 imm a d
  | .sltiu d a imm => encI 0x09 imm a d
  | .addiImm d a imm => encPrefix 4 (imm.extractLsb' 14 24) ++ encI 0x03 (imm.extractLsb' 0 14) a d
  | .andiImm d a imm => encPrefix 4 (imm.extractLsb' 14 24) ++ encI 0x04 (imm.extractLsb' 0 14) a d
  | .oriImm d a imm => encPrefix 4 (imm.extractLsb' 14 24) ++ encI 0x05 (imm.extractLsb' 0 14) a d
  | .xoriImm d a imm => encPrefix 4 (imm.extractLsb' 14 24) ++ encI 0x06 (imm.extractLsb' 0 14) a d
  | .sltiImm d a imm => encPrefix 4 (imm.extractLsb' 14 24) ++ encI 0x08 (imm.extractLsb' 0 14) a d
  | .sltiuImm d a imm => encPrefix 4 (imm.extractLsb' 14 24) ++ encI 0x09 (imm.extractLsb' 0 14) a d
  | .slli d a sh => encI 0x07 (0#2 ++ 0#6 ++ sh) a d
  | .srli d a sh => encI 0x07 (1#2 ++ 0#6 ++ sh) a d
  | .srai d a sh => encI 0x07 (2#2 ++ 0#6 ++ sh) a d
  | .roli d a sh => encI 0x07 (3#2 ++ 0#6 ++ sh) a d
  | .luim d imm => encU 0x0A imm d
  | .apc d imm => encU 0x0B imm d
  | .ld d a w u imm => encLS 0x0C imm u w a d
  | .st s a w imm => encLS 0x0D imm false w a s
  | .ldImm d a w u imm => encPrefix 4 (imm.extractLsb' 11 24) ++ encLS 0x0C (imm.extractLsb' 0 11) u w a d
  | .stImm s a w imm => encPrefix 4 (imm.extractLsb' 11 24) ++ encLS 0x0D (imm.extractLsb' 0 11) false w a s
  | .beq a b off => encI 0x0E off b a
  | .bne a b off => encI 0x0F off b a
  | .blt a b off => encI 0x10 off b a
  | .bge a b off => encI 0x11 off b a
  | .bltu a b off => encI 0x12 off b a
  | .bgeu a b off => encI 0x13 off b a
  | .j off => encJ 0x14 off
  | .jl off => encJ 0x15 off
  | .jr a => encR 0x16 0x00 0 0 a 0
  | .jlr d a => encR 0x16 0x01 0 0 a d
  | .faddS d a b rm => encR 0x17 0x00 rm b a d
  | .fsubS d a b rm => encR 0x17 0x01 rm b a d
  | .fmulS d a b rm => encR 0x17 0x02 rm b a d
  | .fdivS d a b rm => encR 0x17 0x03 rm b a d
  | .fsqrtS d a rm => encR 0x17 0x04 rm 0 a d
  | .fminS d a b => encR 0x17 0x05 0 b a d
  | .fmaxS d a b => encR 0x17 0x06 0 b a d
  | .feqS d a b => encR 0x17 0x07 0 b a d
  | .fltS d a b => encR 0x17 0x08 0 b a d
  | .fleS d a b => encR 0x17 0x09 0 b a d
  | .fcvtSL d a rm => encR 0x17 0x0A rm 0 a d
  | .fcvtLS d a rm => encR 0x17 0x0B rm 0 a d
  | .fclassS d a => encR 0x17 0x0C 0 0 a d
  | .faddD d a b rm => encR 0x17 0x10 rm b a d
  | .fsubD d a b rm => encR 0x17 0x11 rm b a d
  | .fmulD d a b rm => encR 0x17 0x12 rm b a d
  | .fdivD d a b rm => encR 0x17 0x13 rm b a d
  | .fsqrtD d a rm => encR 0x17 0x14 rm 0 a d
  | .fminD d a b => encR 0x17 0x15 0 b a d
  | .fmaxD d a b => encR 0x17 0x16 0 b a d
  | .feqD d a b => encR 0x17 0x17 0 b a d
  | .fltD d a b => encR 0x17 0x18 0 b a d
  | .fleD d a b => encR 0x17 0x19 0 b a d
  | .fcvtDL d a rm => encR 0x17 0x1A rm 0 a d
  | .fcvtLD d a rm => encR 0x17 0x1B rm 0 a d
  | .fclassD d a => encR 0x17 0x1C 0 0 a d
  | .fmaddS d a b rm => encR 0x18 0x00 rm b a d
  | .fmsubS d a b rm => encR 0x18 0x01 rm b a d
  | .fnmaddS d a b rm => encR 0x18 0x02 rm b a d
  | .fnmsubS d a b rm => encR 0x18 0x03 rm b a d
  | .fmaddD d a b rm => encR 0x18 0x10 rm b a d
  | .fmsubD d a b rm => encR 0x18 0x11 rm b a d
  | .fnmaddD d a b rm => encR 0x18 0x12 rm b a d
  | .fnmsubD d a b rm => encR 0x18 0x13 rm b a d
  | .amoadd d a b order word scope => splitWord (order ++ BitVec.ofBool word ++ 0#3 ++ scope ++ b ++ a ++ d ++ 0x19#6 ++ 0#2)
  | .amoswap d a b order word scope => splitWord (order ++ BitVec.ofBool word ++ 1#3 ++ scope ++ b ++ a ++ d ++ 0x19#6 ++ 0#2)
  | .amoand d a b order word scope => splitWord (order ++ BitVec.ofBool word ++ 2#3 ++ scope ++ b ++ a ++ d ++ 0x19#6 ++ 0#2)
  | .amoor d a b order word scope => splitWord (order ++ BitVec.ofBool word ++ 3#3 ++ scope ++ b ++ a ++ d ++ 0x19#6 ++ 0#2)
  | .amomin d a b order word scope => splitWord (order ++ BitVec.ofBool word ++ 4#3 ++ scope ++ b ++ a ++ d ++ 0x19#6 ++ 0#2)
  | .amomax d a b order word scope => splitWord (order ++ BitVec.ofBool word ++ 5#3 ++ scope ++ b ++ a ++ d ++ 0x19#6 ++ 0#2)
  | .amocas d a b order word scope => splitWord (order ++ BitVec.ofBool word ++ 6#3 ++ scope ++ b ++ a ++ d ++ 0x19#6 ++ 0#2)
  | .amoxor d a b order word scope => splitWord (order ++ BitVec.ofBool word ++ 7#3 ++ scope ++ b ++ a ++ d ++ 0x19#6 ++ 0#2)
  | .trap code => encCode 0x00 code 0
  | .tret => encR 0x1A 0x01 0 0 0 0
  | .brk code => encCode 0x02 code 0
  | .wait d a => encR 0x1A 0x03 0 0 a d
  | .yield a => encR 0x1A 0x04 0 0 a 0
  | .halt => encR 0x1A 0x05 0 0 0 0
  | .mfc d cr => encCode 0x06 cr d
  | .mtc s cr => encCode 0x07 cr s
  | .farm d a b => encR 0x1A 0x08 0 b a d
  | .strip d => encR 0x1A 0x09 0 0 0 d
  | .tlbi d a b => encR 0x1A 0x0A 0 b a d
  | .sync => encR 0x1A 0x0B 0 0 0 0
  | .vsync => encR 0x1A 0x0C 0 0 0 0
  | .fence kinds scope => encR 0x1B 0x00 scope 0 0 kinds
  | .vfence => encR 0x1B 0x01 0 0 0 0
  | .barInit d a b => encR 0x1B 0x02 0 b a d
  | .barArrive d a => encR 0x1B 0x03 0 0 a d
  | .barWait d a => encR 0x1B 0x04 0 0 a d
  | .barPost d a b => encR 0x1B 0x05 0 b a d
  | .barDone d a b => encR 0x1B 0x06 0 b a d
  | .barArrwait d a => encR 0x1B 0x07 0 0 a d
  | .barQuery d a => encR 0x1B 0x08 0 0 a d
  | .pin k a b rights => encR 0x1C 0x00 rights b a k
  | .unpin k => encR 0x1C 0x01 0 0 0 k
  | .pinq d k sel => encR 0x1C 0x02 0 sel k d
  | .epush port a => encR 0x1D 0x00 0 0 a port
  | .epop d port => encR 0x1D 0x01 0 port 0 d
  | .eavail d port => encR 0x1D 0x02 0 port 0 d
  | .castle d a b => encR 0x1E 0x00 0 b a d
  | .castq d a => encR 0x1E 0x01 0 0 a d
  | .vadd x d a b => encV 0x20 0x00 x (r6 b) (r6 a) (r6 d)
  | .vsub x d a b => encV 0x20 0x01 x (r6 b) (r6 a) (r6 d)
  | .vmul x d a b => encV 0x20 0x02 x (r6 b) (r6 a) (r6 d)
  | .vmulh x d a b => encV 0x20 0x03 x (r6 b) (r6 a) (r6 d)
  | .vmulhu x d a b => encV 0x20 0x04 x (r6 b) (r6 a) (r6 d)
  | .vand x d a b => encV 0x20 0x05 x (r6 b) (r6 a) (r6 d)
  | .vor x d a b => encV 0x20 0x06 x (r6 b) (r6 a) (r6 d)
  | .vxor x d a b => encV 0x20 0x07 x (r6 b) (r6 a) (r6 d)
  | .vsll x d a b => encV 0x20 0x08 x (r6 b) (r6 a) (r6 d)
  | .vsrl x d a b => encV 0x20 0x09 x (r6 b) (r6 a) (r6 d)
  | .vsra x d a b => encV 0x20 0x0A x (r6 b) (r6 a) (r6 d)
  | .vmin x d a b => encV 0x20 0x0B x (r6 b) (r6 a) (r6 d)
  | .vmax x d a b => encV 0x20 0x0C x (r6 b) (r6 a) (r6 d)
  | .vminu x d a b => encV 0x20 0x0D x (r6 b) (r6 a) (r6 d)
  | .vmaxu x d a b => encV 0x20 0x0E x (r6 b) (r6 a) (r6 d)
  | .vdiv x d a b => encV 0x20 0x0F x (r6 b) (r6 a) (r6 d)
  | .vdivu x d a b => encV 0x20 0x10 x (r6 b) (r6 a) (r6 d)
  | .vrem x d a b => encV 0x20 0x11 x (r6 b) (r6 a) (r6 d)
  | .vremu x d a b => encV 0x20 0x12 x (r6 b) (r6 a) (r6 d)
  | .vsadd x d a b => encV 0x20 0x13 x (r6 b) (r6 a) (r6 d)
  | .vssub x d a b => encV 0x20 0x14 x (r6 b) (r6 a) (r6 d)
  | .vaddScalar x d a b => encV 0x21 0x00 x (r6 b) (r6 a) (r6 d)
  | .vsubScalar x d a b => encV 0x21 0x01 x (r6 b) (r6 a) (r6 d)
  | .vmulScalar x d a b => encV 0x21 0x02 x (r6 b) (r6 a) (r6 d)
  | .vmulhScalar x d a b => encV 0x21 0x03 x (r6 b) (r6 a) (r6 d)
  | .vmulhuScalar x d a b => encV 0x21 0x04 x (r6 b) (r6 a) (r6 d)
  | .vandScalar x d a b => encV 0x21 0x05 x (r6 b) (r6 a) (r6 d)
  | .vorScalar x d a b => encV 0x21 0x06 x (r6 b) (r6 a) (r6 d)
  | .vxorScalar x d a b => encV 0x21 0x07 x (r6 b) (r6 a) (r6 d)
  | .vsllScalar x d a b => encV 0x21 0x08 x (r6 b) (r6 a) (r6 d)
  | .vsrlScalar x d a b => encV 0x21 0x09 x (r6 b) (r6 a) (r6 d)
  | .vsraScalar x d a b => encV 0x21 0x0A x (r6 b) (r6 a) (r6 d)
  | .vminScalar x d a b => encV 0x21 0x0B x (r6 b) (r6 a) (r6 d)
  | .vmaxScalar x d a b => encV 0x21 0x0C x (r6 b) (r6 a) (r6 d)
  | .vminuScalar x d a b => encV 0x21 0x0D x (r6 b) (r6 a) (r6 d)
  | .vmaxuScalar x d a b => encV 0x21 0x0E x (r6 b) (r6 a) (r6 d)
  | .vdivScalar x d a b => encV 0x21 0x0F x (r6 b) (r6 a) (r6 d)
  | .vdivuScalar x d a b => encV 0x21 0x10 x (r6 b) (r6 a) (r6 d)
  | .vremScalar x d a b => encV 0x21 0x11 x (r6 b) (r6 a) (r6 d)
  | .vremuScalar x d a b => encV 0x21 0x12 x (r6 b) (r6 a) (r6 d)
  | .vsaddScalar x d a b => encV 0x21 0x13 x (r6 b) (r6 a) (r6 d)
  | .vssubScalar x d a b => encV 0x21 0x14 x (r6 b) (r6 a) (r6 d)
  | .vrsub x d a b => encV 0x21 0x20 x (r6 b) (r6 a) (r6 d)
  | .vfadd x d a b => encV 0x22 0x00 x (r6 b) (r6 a) (r6 d)
  | .vfsub x d a b => encV 0x22 0x01 x (r6 b) (r6 a) (r6 d)
  | .vfmul x d a b => encV 0x22 0x02 x (r6 b) (r6 a) (r6 d)
  | .vfdiv x d a b => encV 0x22 0x03 x (r6 b) (r6 a) (r6 d)
  | .vfsqrt x d a => encV 0x22 0x04 x 0 (r6 a) (r6 d)
  | .vfmin x d a b => encV 0x22 0x05 x (r6 b) (r6 a) (r6 d)
  | .vfmax x d a b => encV 0x22 0x06 x (r6 b) (r6 a) (r6 d)
  | .vfsgnj x d a b => encV 0x22 0x07 x (r6 b) (r6 a) (r6 d)
  | .vfsgnjn x d a b => encV 0x22 0x08 x (r6 b) (r6 a) (r6 d)
  | .vfsgnjx x d a b => encV 0x22 0x09 x (r6 b) (r6 a) (r6 d)
  | .vfclass x d a => encV 0x22 0x0A x 0 (r6 a) (r6 d)
  | .vfaddScalar x d a b => encV 0x23 0x00 x (r6 b) (r6 a) (r6 d)
  | .vfsubScalar x d a b => encV 0x23 0x01 x (r6 b) (r6 a) (r6 d)
  | .vfmulScalar x d a b => encV 0x23 0x02 x (r6 b) (r6 a) (r6 d)
  | .vfdivScalar x d a b => encV 0x23 0x03 x (r6 b) (r6 a) (r6 d)
  | .vfsqrtScalar x d a => encV 0x23 0x04 x 0 (r6 a) (r6 d)
  | .vfminScalar x d a b => encV 0x23 0x05 x (r6 b) (r6 a) (r6 d)
  | .vfmaxScalar x d a b => encV 0x23 0x06 x (r6 b) (r6 a) (r6 d)
  | .vfsgnjScalar x d a b => encV 0x23 0x07 x (r6 b) (r6 a) (r6 d)
  | .vfsgnjnScalar x d a b => encV 0x23 0x08 x (r6 b) (r6 a) (r6 d)
  | .vfsgnjxScalar x d a b => encV 0x23 0x09 x (r6 b) (r6 a) (r6 d)
  | .vfclassScalar x d a => encV 0x23 0x0A x 0 (r6 a) (r6 d)
  | .vfmacc x d a b => encV 0x24 0x00 x (r6 b) (r6 a) (r6 d)
  | .vfmsac x d a b => encV 0x24 0x01 x (r6 b) (r6 a) (r6 d)
  | .vfnmacc x d a b => encV 0x24 0x02 x (r6 b) (r6 a) (r6 d)
  | .vfnmsac x d a b => encV 0x24 0x03 x (r6 b) (r6 a) (r6 d)
  | .vfmaccScalar x d a b => encV 0x24 0x04 x (r6 b) (r6 a) (r6 d)
  | .vfmsacScalar x d a b => encV 0x24 0x05 x (r6 b) (r6 a) (r6 d)
  | .vfnmaccScalar x d a b => encV 0x24 0x06 x (r6 b) (r6 a) (r6 d)
  | .vfnmsacScalar x d a b => encV 0x24 0x07 x (r6 b) (r6 a) (r6 d)
  | .vmacc x d a b => encV 0x24 0x08 x (r6 b) (r6 a) (r6 d)
  | .vmaccScalar x d a b => encV 0x24 0x09 x (r6 b) (r6 a) (r6 d)
  | .vwmacc x d a b => encV 0x24 0x0A x (r6 b) (r6 a) (r6 d)
  | .veq x d a b => encV 0x25 0x00 x (r6 b) (r6 a) d
  | .vne x d a b => encV 0x25 0x01 x (r6 b) (r6 a) d
  | .vlt x d a b => encV 0x25 0x02 x (r6 b) (r6 a) d
  | .vle x d a b => encV 0x25 0x03 x (r6 b) (r6 a) d
  | .vltu x d a b => encV 0x25 0x04 x (r6 b) (r6 a) d
  | .vleu x d a b => encV 0x25 0x05 x (r6 b) (r6 a) d
  | .vfeq x d a b => encV 0x25 0x06 x (r6 b) (r6 a) d
  | .vflt x d a b => encV 0x25 0x07 x (r6 b) (r6 a) d
  | .vfle x d a b => encV 0x25 0x08 x (r6 b) (r6 a) d
  | .vfunord x d a b => encV 0x25 0x09 x (r6 b) (r6 a) d
  | .veqScalar x d a b => encV 0x25 0x10 x (r6 b) (r6 a) d
  | .vneScalar x d a b => encV 0x25 0x11 x (r6 b) (r6 a) d
  | .vltScalar x d a b => encV 0x25 0x12 x (r6 b) (r6 a) d
  | .vleScalar x d a b => encV 0x25 0x13 x (r6 b) (r6 a) d
  | .vltuScalar x d a b => encV 0x25 0x14 x (r6 b) (r6 a) d
  | .vleuScalar x d a b => encV 0x25 0x15 x (r6 b) (r6 a) d
  | .vfeqScalar x d a b => encV 0x25 0x16 x (r6 b) (r6 a) d
  | .vfltScalar x d a b => encV 0x25 0x17 x (r6 b) (r6 a) d
  | .vfleScalar x d a b => encV 0x25 0x18 x (r6 b) (r6 a) d
  | .vfunordScalar x d a b => encV 0x25 0x19 x (r6 b) (r6 a) d
  | .pand x d a b => encV 0x26 0x00 x b a d
  | .por x d a b => encV 0x26 0x01 x b a d
  | .pxor x d a b => encV 0x26 0x02 x b a d
  | .pandn x d a b => encV 0x26 0x03 x b a d
  | .pnot x d a => encV 0x26 0x04 x 0 a d
  | .pset x d a => encV 0x26 0x05 x 0 (r6 a) d
  | .ppop x d a => encV 0x26 0x06 x 0 a (r6 d)
  | .pfirst x d a => encV 0x26 0x07 x 0 a (r6 d)
  | .pscan x d a => encV 0x26 0x08 x 0 a (r6 d)
  | .pbefore x d a => encV 0x26 0x09 x 0 a d
  | .pmv x d a => encV 0x26 0x0A x 0 a (r6 d)
  | .vslideup x d a b => encV 0x27 0x00 x (r6 b) (r6 a) (r6 d)
  | .vslidedown x d a b => encV 0x27 0x01 x (r6 b) (r6 a) (r6 d)
  | .vgather x d a b => encV 0x27 0x02 x (r6 b) (r6 a) (r6 d)
  | .vcompress x d a => encV 0x27 0x03 x 0 (r6 a) (r6 d)
  | .vexpand x d a => encV 0x27 0x04 x 0 (r6 a) (r6 d)
  | .vbcast x d a => encV 0x27 0x05 x 0 (r6 a) (r6 d)
  | .vmvsv ext d a b => encV 0x27 0x06 { ext := ext, m := 0 } (r6 b) (r6 a) (r6 d)
  | .vmvvs x d a b => encV 0x27 0x07 x (r6 b) (r6 a) (r6 d)
  | .viota x d => encV 0x27 0x08 x 0 0 (r6 d)
  | .vmerge x d a b => encV 0x27 0x09 x (r6 b) (r6 a) (r6 d)
  | .vslide1up x d a b => encV 0x27 0x0A x (r6 b) (r6 a) (r6 d)
  | .vslide1down x d a b => encV 0x27 0x0B x (r6 b) (r6 a) (r6 d)
  | .vredsum x d a => encV 0x28 0x00 x 0 (r6 a) (r6 d)
  | .vredmin x d a => encV 0x28 0x01 x 0 (r6 a) (r6 d)
  | .vredmax x d a => encV 0x28 0x02 x 0 (r6 a) (r6 d)
  | .vredminu x d a => encV 0x28 0x03 x 0 (r6 a) (r6 d)
  | .vredmaxu x d a => encV 0x28 0x04 x 0 (r6 a) (r6 d)
  | .vredand x d a => encV 0x28 0x05 x 0 (r6 a) (r6 d)
  | .vredor x d a => encV 0x28 0x06 x 0 (r6 a) (r6 d)
  | .vredxor x d a => encV 0x28 0x07 x 0 (r6 a) (r6 d)
  | .vfredsum x d a => encV 0x28 0x08 x 0 (r6 a) (r6 d)
  | .vfredmin x d a => encV 0x28 0x09 x 0 (r6 a) (r6 d)
  | .vfredmax x d a => encV 0x28 0x0A x 0 (r6 a) (r6 d)
  | .vfredsumW x d a => encV 0x28 0x0B x 0 (r6 a) (r6 d)
  | .vcvtFFp64 x d a => encV 0x29 0x00 x 0 (r6 a) (r6 d)
  | .vcvtIFp64 x d a => encV 0x29 0x01 x 0 (r6 a) (r6 d)
  | .vcvtUFp64 x d a => encV 0x29 0x02 x 0 (r6 a) (r6 d)
  | .vcvtFp64I x d a => encV 0x29 0x03 x 0 (r6 a) (r6 d)
  | .vcvtFFp32 x d a => encV 0x29 0x04 x 0 (r6 a) (r6 d)
  | .vcvtIFp32 x d a => encV 0x29 0x05 x 0 (r6 a) (r6 d)
  | .vcvtUFp32 x d a => encV 0x29 0x06 x 0 (r6 a) (r6 d)
  | .vcvtFp32I x d a => encV 0x29 0x07 x 0 (r6 a) (r6 d)
  | .vcvtFFp16 x d a => encV 0x29 0x08 x 0 (r6 a) (r6 d)
  | .vcvtIFp16 x d a => encV 0x29 0x09 x 0 (r6 a) (r6 d)
  | .vcvtUFp16 x d a => encV 0x29 0x0A x 0 (r6 a) (r6 d)
  | .vcvtFp16I x d a => encV 0x29 0x0B x 0 (r6 a) (r6 d)
  | .vcvtFBf16 x d a => encV 0x29 0x0C x 0 (r6 a) (r6 d)
  | .vcvtIBf16 x d a => encV 0x29 0x0D x 0 (r6 a) (r6 d)
  | .vcvtUBf16 x d a => encV 0x29 0x0E x 0 (r6 a) (r6 d)
  | .vcvtBf16I x d a => encV 0x29 0x0F x 0 (r6 a) (r6 d)
  | .vcvtFE4m3 x d a => encV 0x29 0x10 x 0 (r6 a) (r6 d)
  | .vcvtIE4m3 x d a => encV 0x29 0x11 x 0 (r6 a) (r6 d)
  | .vcvtUE4m3 x d a => encV 0x29 0x12 x 0 (r6 a) (r6 d)
  | .vcvtII8 x d a => encV 0x29 0x13 x 0 (r6 a) (r6 d)
  | .vcvtFE5m2 x d a => encV 0x29 0x14 x 0 (r6 a) (r6 d)
  | .vcvtIE5m2 x d a => encV 0x29 0x15 x 0 (r6 a) (r6 d)
  | .vcvtUE5m2 x d a => encV 0x29 0x16 x 0 (r6 a) (r6 d)
  | .vcvtII16 x d a => encV 0x29 0x17 x 0 (r6 a) (r6 d)
  | .vcvtFE2m3 x d a => encV 0x29 0x18 x 0 (r6 a) (r6 d)
  | .vcvtIE2m3 x d a => encV 0x29 0x19 x 0 (r6 a) (r6 d)
  | .vcvtUE2m3 x d a => encV 0x29 0x1A x 0 (r6 a) (r6 d)
  | .vcvtII32 x d a => encV 0x29 0x1B x 0 (r6 a) (r6 d)
  | .vcvtFE3m2 x d a => encV 0x29 0x1C x 0 (r6 a) (r6 d)
  | .vcvtIE3m2 x d a => encV 0x29 0x1D x 0 (r6 a) (r6 d)
  | .vcvtUE3m2 x d a => encV 0x29 0x1E x 0 (r6 a) (r6 d)
  | .vcvtII64 x d a => encV 0x29 0x1F x 0 (r6 a) (r6 d)
  | .vcvtFT8 x d a => encV 0x29 0x20 x 0 (r6 a) (r6 d)
  | .vcvtIT8 x d a => encV 0x29 0x21 x 0 (r6 a) (r6 d)
  | .vcvtUT8 x d a => encV 0x29 0x22 x 0 (r6 a) (r6 d)
  | .vcvtFT6 x d a => encV 0x29 0x24 x 0 (r6 a) (r6 d)
  | .vcvtIT6 x d a => encV 0x29 0x25 x 0 (r6 a) (r6 d)
  | .vcvtUT6 x d a => encV 0x29 0x26 x 0 (r6 a) (r6 d)
  | .vmxpack x d a b => encV 0x29 0x3E x (r6 b) (r6 a) (r6 d)
  | .vmxunpack x d a b => encV 0x29 0x3F x (r6 b) (r6 a) (r6 d)
  | .vexp2 x d a => encV 0x2A 0x00 x 0 (r6 a) (r6 d)
  | .vlog2 x d a => encV 0x2A 0x01 x 0 (r6 a) (r6 d)
  | .vrcp x d a => encV 0x2A 0x02 x 0 (r6 a) (r6 d)
  | .vrsqrt x d a => encV 0x2A 0x03 x 0 (r6 a) (r6 d)
  | .vsinpi x d a => encV 0x2A 0x04 x 0 (r6 a) (r6 d)
  | .vcospi x d a => encV 0x2A 0x05 x 0 (r6 a) (r6 d)
  | .vtanh x d a => encV 0x2A 0x06 x 0 (r6 a) (r6 d)
  | .vsigm x d a => encV 0x2A 0x07 x 0 (r6 a) (r6 d)
  | .vgelu x d a => encV 0x2A 0x08 x 0 (r6 a) (r6 d)
  | .verf x d a => encV 0x2A 0x09 x 0 (r6 a) (r6 d)
  | .vconf x d a => encV 0x2B 0x00 x 0 (r6 a) (r6 d)
  | .vlead x d a => encV 0x2B 0x01 x 0 (r6 a) d
  | .vdupsum x d a b => encV 0x2B 0x02 x (r6 b) (r6 a) (r6 d)
  | .setvl ext d a => encV 0x2C 0x00 { ext := ext, m := 0 } 0 (r6 a) (r6 d)
  | .setvtype ext d a => encV 0x2C 0x01 { ext := ext, m := 0 } 0 (r6 a) (r6 d)
  | .vld x w k d a => encM 0x30 x false w k 0 (r6 a) (r6 d)
  | .vlds x w k d a b => encM 0x31 x false w k (r6 b) (r6 a) (r6 d)
  | .vldx x w k d a b => encM 0x32 x false w k (r6 b) (r6 a) (r6 d)
  | .vldseg x w k d a nf perm => encVldseg x w k d a nf perm
  | .vst x o w k d a => encM 0x34 x o w k 0 (r6 a) (r6 d)
  | .vsts x o w k d a b => encM 0x35 x o w k (r6 b) (r6 a) (r6 d)
  | .vstx x o w k d a b => encM 0x36 x o w k (r6 b) (r6 a) (r6 d)
  | .vstseg x o w k d a nf => encM 0x37 x o w k (nf.setWidth 6) (r6 a) (r6 d)
  | .vamoAdd x o k d a b => encM 0x38 x o 0 k (r6 b) (r6 a) (r6 d)
  | .vamoMin x o k d a b => encM 0x38 x o 1 k (r6 b) (r6 a) (r6 d)
  | .vamoMax x o k d a b => encM 0x38 x o 2 k (r6 b) (r6 a) (r6 d)
  | .vamoSwap x o k d a b => encM 0x38 x o 3 k (r6 b) (r6 a) (r6 d)
  | .vgscr x w k d a b => encM 0x39 x false w k (r6 b) (r6 a) (r6 d)
  | .vepop ext w d b => encM 0x3A { ext := ext, m := 0 } false w 0 (r6 b) 0 (r6 d)
  | .tcfg acc => encT 0x00 acc 0 0 0 0 0 0 0 0 0 false
  | .tzero acc => encT 0x01 acc 0 0 0 0 0 0 0 0 0 false
  | .tmma acc ra rb rs ms fa fb mk ka kb ck => encT 0x02 acc ra rb rs ms fa fb mk ka kb ck
  | .tmmaV acc ra rb rs ms fa fb mk ka kb ck => encT 0x03 acc ra rb rs ms fa fb mk ka kb ck
  | .tmmas acc ra rb rs ms fa fb mk ka kb ck => encT 0x04 acc ra rb rs ms fa fb mk ka kb ck
  | .tld acc ra rb rs ms fa ka => encT 0x05 acc ra rb rs ms fa 0 0 ka 0 false
  | .tst acc ra rs ms fa ka => encT 0x06 acc ra 0 rs ms fa 0 0 ka 0 false
  | .trow acc ra rb ms => encT 0x07 acc ra rb 0 ms 0 0 0 0 0 false
  | .tcol acc ra rb ms => encT 0x08 acc ra rb 0 ms 0 0 0 0 0 false
  | .tchk acc ra rb mk => encT 0x09 acc ra rb 0 0 0 0 mk 0 0 false
  | .tcon acc ra rb ms fa fb ka kb => encT 0x0A acc ra rb 0 ms fa fb 0 ka kb false
  | .tsave acc ra ka => encT 0x0B acc ra 0 0 0 0 0 0 ka 0 false
  | .trest acc ra ka => encT 0x0C acc ra 0 0 0 0 0 0 ka 0 false
  | .tstat acc ra => encT 0x0D acc ra 0 0 0 0 0 0 0 0 false
  | .oqinit q d a b m n cap pol => encQ 0x20 q false n cap pol m b a d
  | .oqacc q a b => encQ 0x21 q false 0 0 0 0 b a 0
  | .oqhh q d a b => encQ 0x22 q false 0 0 0 0 b a d
  | .oqapl q a b m tr => encQ 0x23 q tr 0 0 0 m b a 0
  | .oqapr q a b m tr => encQ 0x24 q tr 0 0 0 m b a 0
  | .oqapv q d a tr => encQ 0x25 q tr 0 0 0 0 0 a d
  | .oqform q => encQ 0x26 q false 0 0 0 0 0 0 0
  | .oqsave q a m => encQ 0x27 q false 0 0 0 m 0 a 0
  | .oqrest q a m => encQ 0x28 q false 0 0 0 m 0 a 0
  | .oqcnt q d => encQ 0x29 q false 0 0 0 0 0 0 d
  | .oqrd q d b => encQ 0x2A q false 0 0 0 0 b 0 d
  | .cAddi d imm => encC imm d 0 1
  | .cAdd d a => encC (0#5 ++ a) d 1 1
  | .cMov d a => encC (0#5 ++ a) d 2 1
  | .cLd d imm => encC imm d 3 1
  | .cSt s imm => encC imm s 4 1
  | .cBeqz a off => encC off a 5 1
  | .cBnez a off => encC off a 6 1
  | .cJ off => encC11 off 7 1
  | .cNop => encC11 0 0 2
  | .cvy => encC11 0 1 2
  | .cBrk code => encC11 code 2 2
  | .startStepComplete _ => []
  | .powerLoss => []
  | .memoryError _ _ => []
  | .softError _ => []
  | .matrixEngineStep _ => []
  | .orthogonalLineStep _ => []
  | .scalarAccessPerformed _ _ => []
  | .lanePowerUp _ _ => []

/-- The length of an instruction in bytes (R214): two bytes for each of its parcels. -/
def Instr.size (i : Instr) : Nat := 2 * (encode i).length

end

end Sys2Proof
end

