-- ==== Sys2Proof/Machine/Fp.lean ====
section
/-! DEFINITION. Number formats and exact arithmetic (R137 to R157): every operation is carried out exactly on integers
and rounded once. -/

namespace Sys2Proof.Machine

/-- The formats of R131, in the order of their codes, and the wide accumulator format WA (R154). -/
inductive Fmt where
  | fp64
  | fp32
  | fp16
  | bf16
  | e4m3
  | e5m2
  | e2m3
  | e3m2
  | t8
  | t6
  | wa
  deriving DecidableEq, Repr

/-- The format of an FMT code (R131); codes 10 to 15 are reserved. -/
def Fmt.ofCode : Nat → Option Fmt
  | 0 => some .fp64
  | 1 => some .fp32
  | 2 => some .fp16
  | 3 => some .bf16
  | 4 => some .e4m3
  | 5 => some .e5m2
  | 6 => some .e2m3
  | 7 => some .e3m2
  | 8 => some .t8
  | 9 => some .t6
  | _ => none

/-- Width of an element in bits (R287); FP6 and T6 elements occupy a byte. -/
def Fmt.width : Fmt → Nat
  | .fp64 => 64
  | .fp32 => 32
  | .fp16 => 16
  | .bf16 => 16
  | .wa => 64
  | _ => 8

/-- Fraction bits F (R137, R154). -/
def Fmt.fbits : Fmt → Nat
  | .fp64 => 52
  | .fp32 => 23
  | .fp16 => 10
  | .bf16 => 7
  | .e4m3 => 3
  | .e5m2 => 2
  | .e2m3 => 3
  | .e3m2 => 2
  | .wa => 37
  | .t8 => 0
  | .t6 => 0

/-- Exponent bits E (R137, R154). -/
def Fmt.ebits : Fmt → Nat
  | .fp64 => 11
  | .fp32 => 8
  | .fp16 => 5
  | .bf16 => 8
  | .e4m3 => 4
  | .e5m2 => 5
  | .e2m3 => 2
  | .e3m2 => 3
  | .wa => 10
  | .t8 => 0
  | .t6 => 0

/-- Exponent bias (R137, R154). -/
def Fmt.bias : Fmt → Nat
  | .fp64 => 1023
  | .fp32 => 127
  | .fp16 => 15
  | .bf16 => 127
  | .e4m3 => 7
  | .e5m2 => 15
  | .e2m3 => 1
  | .e3m2 => 3
  | .wa => 511
  | .t8 => 0
  | .t6 => 0

/-- Whether the format has infinities (R137). -/
def Fmt.hasInf : Fmt → Bool
  | .fp64 => true
  | .fp32 => true
  | .fp16 => true
  | .bf16 => true
  | .e5m2 => true
  | .wa => true
  | _ => false

/-- The encoding of the largest finite magnitude (R137, R144). -/
def Fmt.maxCode (f : Fmt) : Nat :=
  match f with
  | .e4m3 => 0x7E
  | .e2m3 => 0x1F
  | .e3m2 => 0x1F
  | f => (2 ^ f.ebits - 1) * 2 ^ f.fbits - 1

/-- The sign bit's place. -/
def Fmt.signBit (f : Fmt) : Nat := f.ebits + f.fbits

/-- The canonical NaN (R137, R154); the FP6 formats have none and take +0 (R144). -/
def Fmt.canonNaN : Fmt → Nat
  | .fp64 => 0x7FF8000000000000
  | .fp32 => 0x7FC00000
  | .fp16 => 0x7E00
  | .bf16 => 0x7FC0
  | .e4m3 => 0x7F
  | .e5m2 => 0x7E
  | .e2m3 => 0
  | .e3m2 => 0
  | .t8 => 0x80
  | .t6 => 0x20
  | .wa => 0x00007FF000000000

/-- A decoded operand (R138, R139): a NaN (signalling or quiet), an infinity, or (−1)^s × m × 2^e. -/
inductive FpVal where
  | nan (signalling : Bool)
  | inf (s : Bool)
  | fin (s : Bool) (m : Nat) (e : Int)
  deriving DecidableEq, Repr

/-- Length of the run of bits equal to `b` from bit `i` downward, at most `fuel` (R140). -/
def runLength (q : Nat) (b : Bool) : Nat → Nat → Nat
  | 0, _ => 0
  | fuel + 1, i => if q.testBit i = b then (if i = 0 then 1 else 1 + runLength q b fuel (i - 1)) else 0

/-- A tapered pattern of n bits (R140), with `es` 1 for T8 (a bit of exponent) and 0 for T6. -/
def decodeTapered (n es : Nat) (p : Nat) : FpVal :=
  if p = 0 then .fin false 0 0
  else if p = 2 ^ (n - 1) then .nan false
  else
    let s := p.testBit (n - 1)
    let q := if s then (2 ^ n - p) % 2 ^ n else p
    let b := q.testBit (n - 2)
    let m := runLength q b (n - 1) (n - 2)
    let k : Int := if b then (m : Int) - 1 else -(m : Int)
    let restLen := n - 1 - m - 1
    let rest := q % 2 ^ restLen
    let eLen := min es restLen
    let e := rest / 2 ^ (restLen - eLen)
    let j := restLen - eLen
    let f := rest % 2 ^ j
    let scale : Int := k * (2 : Int) ^ es + (if eLen = 0 then 0 else (e : Int))
    .fin s (2 ^ j + f) (scale - (j : Int))

/-- The value of an encoding (R138, R140, R154). Bits above the format's width are ignored, but a WA container whose
top half is not zero is a NaN (R154). -/
def Fmt.decode (f : Fmt) (x : Nat) : FpVal :=
  match f with
  | .t8 => decodeTapered 8 1 (x % 256)
  | .t6 => decodeTapered 6 0 (x % 64)
  | f =>
    if f = .wa ∧ x / 2 ^ 48 % 2 ^ 16 ≠ 0 then .nan false
    else
      let s := x.testBit f.signBit
      let ex := x / 2 ^ f.fbits % 2 ^ f.ebits
      let fr := x % 2 ^ f.fbits
      let top := 2 ^ f.ebits - 1
      let qmin : Int := 1 - (f.bias : Int) - (f.fbits : Int)
      if f = .e4m3 ∧ ex = top ∧ fr = 7 then .nan false
      else if f.hasInf ∧ ex = top then
        if fr = 0 then .inf s
        else .nan (f ≠ .e5m2 ∧ f ≠ .wa ∧ !fr.testBit (f.fbits - 1))
      else if ex = 0 then .fin s fr qmin
      else .fin s (2 ^ f.fbits + fr) (qmin + (ex : Int) - 1)

/-! ### Flags (R132, R145) -/

def fNX : BitVec 5 := 1
def fUF : BitVec 5 := 2
def fOF : BitVec 5 := 4
def fDZ : BitVec 5 := 8
def fNV : BitVec 5 := 16

/-- A rounded result: its bits, the FSTAT flags it raises and whether it saturated (GSTAT.SATX). -/
structure FpRes where
  bits : Nat
  fl : BitVec 5
  satx : Bool
  deriving DecidableEq, Repr

/-- A result before rounding. `sticky` says that the exact magnitude lies above m × 2^e and below (m + 1) × 2^e. -/
inductive Exact where
  | nan (nv : Bool)
  | inf (s : Bool) (dz : Bool)
  | fin (s : Bool) (m : Nat) (e : Int) (sticky : Bool)
  deriving DecidableEq, Repr

/-- A rounding mode: the code of R143, and for SR (code 5) the random word R of R149. -/
structure Rm where
  code : Nat
  r : Nat
  deriving DecidableEq, Repr

def Rm.rne : Rm := { code := 0, r := 0 }

/-- Shift right by a non-negative number of places, or left by its opposite. -/
def shiftBy (m : Nat) (k : Int) : Nat := if 0 ≤ k then m / 2 ^ k.toNat else m * 2 ^ (-k).toNat

/-- Whether a magnitude with `shift` bits below its unit rounds up (R143, R149): `rem` are those bits. -/
def roundsUp (rm : Rm) (s : Bool) (odd : Bool) (rem shift : Nat) (sticky : Bool) : Bool :=
  let half := 2 ^ shift
  match rm.code with
  | 0 => decide (half < 2 * rem) || (decide (half = 2 * rem) && decide (0 < shift) && (sticky || odd))
  | 1 => false
  | 2 => !s && (decide (rem ≠ 0) || sticky)
  | 3 => s && (decide (rem ≠ 0) || sticky)
  | 4 => decide (half ≤ 2 * rem) && decide (0 < shift)
  | _ => decide (rm.r < rem * 2 ^ 32 / 2 ^ shift)

/-- Round an exact non-zero magnitude to a format with an exponent field (R143, R144, R145). -/
def roundFin (f : Fmt) (rm : Rm) (sat : Bool) (s : Bool) (m : Nat) (e : Int) (sticky : Bool) : FpRes :=
  let signed (c : Nat) : Nat := if s then c + 2 ^ f.signBit else c
  if m = 0 ∧ !sticky then { bits := signed 0, fl := 0, satx := false }
  else
    let qmin : Int := 1 - (f.bias : Int) - (f.fbits : Int)
    let top : Int := e + (m.log2 : Int)
    let q : Int := max (top - (f.fbits : Int)) qmin
    let exactly := decide (q ≤ e)
    let shift := (q - e).toNat
    let mant := if exactly then m * 2 ^ (e - q).toNat else m / 2 ^ shift
    let rem := if exactly then 0 else m % 2 ^ shift
    let sh := if exactly then 0 else shift
    let inexact := decide (rem ≠ 0) || sticky
    let up := roundsUp rm s (mant % 2 = 1) rem sh sticky
    let code := (q - qmin).toNat * 2 ^ f.fbits + mant + (if up then 1 else 0)
    if f.maxCode < code then
      let toMax := sat || !f.hasInf || rm.code = 1 || (rm.code = 2 && s) || (rm.code = 3 && !s)
      if f = .e4m3 ∧ !sat then { bits := f.canonNaN, fl := fOF ||| fNX ||| fNV, satx := false }
      else if toMax then
        { bits := signed f.maxCode, fl := fOF ||| fNX, satx := sat || !f.hasInf }
      else { bits := signed (f.maxCode + 1), fl := fOF ||| fNX, satx := false }
    else
      { bits := signed code,
        fl := (if inexact then fNX else 0) ||| (if inexact ∧ code < 2 ^ f.fbits then fUF else 0),
        satx := false }

/-- The largest positive pattern of a tapered format (R140). -/
def taperedMax (f : Fmt) : Nat := if f = .t8 then 0x7F else 0x1F

/-- A finite value as a magnitude times 2^k for comparison at a common scale (2^-2200 lies below every exponent). -/
def scaled (m : Nat) (e : Int) : Nat := m * 2 ^ (e + 2200).toNat

/-- The magnitude of a positive tapered pattern at the common scale. -/
def taperedScaled (f : Fmt) (p : Nat) : Nat :=
  match f.decode p with
  | .fin _ m e => scaled m e
  | _ => 0

/-- The largest positive pattern whose value is at most x, at most `p`. -/
def taperedBelow (f : Fmt) (x : Nat) : Nat → Nat
  | 0 => 0
  | p + 1 => if taperedScaled f (p + 1) ≤ x then p + 1 else taperedBelow f x p

/-- Conversion into T8 or T6 (R141). -/
def roundTapered (f : Fmt) (s : Bool) (m : Nat) (e : Int) (sticky : Bool) : FpRes :=
  let n := if f = .t8 then 8 else 6
  if m = 0 ∧ !sticky then { bits := 0, fl := 0, satx := false }
  else
    let x := 2 * scaled m e + (if sticky then 1 else 0)
    let big := taperedMax f
    let v (p : Nat) : Nat := 2 * taperedScaled f p
    let lo := taperedBelow f (x / 2) big
    let pick : Nat :=
      if v big ≤ x then big
      else if x ≤ v 1 then 1
      else
        let up := v (lo + 1) - x
        let down := x - v lo
        if down < up then lo else if up < down then lo + 1 else if lo % 2 = 0 then lo else lo + 1
    let exact := decide (v pick = x)
    { bits := if s then (2 ^ n - pick) % 2 ^ n else pick, fl := if exact then 0 else fNX,
      satx := decide (v big < x) || decide (x < v 1) }

/-- Round a result to a format (R141, R143, R144, R145, R146). -/
def Exact.round (f : Fmt) (rm : Rm) (sat : Bool) (x : Exact) : FpRes :=
  let tapered := f = .t8 ∨ f = .t6
  match x with
  | .nan nv =>
    let fp6 := f = .e2m3 ∨ f = .e3m2
    { bits := f.canonNaN, fl := if nv ∨ fp6 ∨ tapered then fNV else 0, satx := false }
  | .inf s dz =>
    let d : BitVec 5 := if dz then fDZ else 0
    if tapered then { bits := f.canonNaN, fl := fNV, satx := false }
    else if f.hasInf then
      { bits := (if s then 2 ^ f.signBit else 0) + f.maxCode + 1, fl := d, satx := false }
    else if f = .e4m3 ∧ !sat then { bits := f.canonNaN, fl := fNV, satx := false }
    else { bits := (if s then 2 ^ f.signBit else 0) + f.maxCode, fl := 0, satx := true }
  | .fin s m e st => if tapered then roundTapered f s m e st else roundFin f rm sat s m e st

/-! ### Exact operations -/

/-- The sign of an exact zero sum of operands with signs `a` and `b`, both zero or cancelling (R143). -/
def zeroSign (rm : Rm) (bothZero a b : Bool) : Bool := if bothZero && a == b then a else rm.code = 3

/-- An exact sum of two finite values (R143). -/
def addFin (rm : Rm) (sa : Bool) (ma : Nat) (ea : Int) (sb : Bool) (mb : Nat) (eb : Int) : Exact :=
  let e := min ea eb
  let x : Int := (ma * 2 ^ (ea - e).toNat : Nat)
  let y : Int := (mb * 2 ^ (eb - e).toNat : Nat)
  let t := (if sa then -x else x) + (if sb then -y else y)
  if t = 0 then .fin (zeroSign rm (ma = 0 && mb = 0) sa sb) 0 0 false
  else .fin (t < 0) t.natAbs e false

def FpVal.neg : FpVal → FpVal
  | .nan q => .nan q
  | .inf s => .inf (!s)
  | .fin s m e => .fin (!s) m e

def FpVal.isSnan : FpVal → Bool
  | .nan q => q
  | _ => false

def FpVal.isNan : FpVal → Bool
  | .nan _ => true
  | _ => false

/-- a + b (R143, R145, R146). -/
def fpAdd (rm : Rm) (a b : FpVal) : Exact :=
  match a, b with
  | .nan q, b => .nan (q || b.isSnan)
  | a, .nan q => .nan (q || a.isSnan)
  | .inf s, .inf t => if s = t then .inf s false else .nan true
  | .inf s, _ => .inf s false
  | _, .inf s => .inf s false
  | .fin s m e, .fin t n k => addFin rm s m e t n k

/-- a × b. -/
def fpMul (a b : FpVal) : Exact :=
  match a, b with
  | .nan q, b => .nan (q || b.isSnan)
  | a, .nan q => .nan (q || a.isSnan)
  | .inf s, .inf t => .inf (s != t) false
  | .inf s, .fin t m _ => if m = 0 then .nan true else .inf (s != t) false
  | .fin s m _, .inf t => if m = 0 then .nan true else .inf (s != t) false
  | .fin s m e, .fin t n k => .fin (s != t) (m * n) (e + k) false

/-- Bits of quotient kept below the leading one: more than any fraction and the 32 bits SR reads (R149). -/
def guardBits : Nat := 128

/-- a ÷ b. -/
def fpDiv (a b : FpVal) : Exact :=
  match a, b with
  | .nan q, b => .nan (q || b.isSnan)
  | a, .nan q => .nan (q || a.isSnan)
  | .inf _, .inf _ => .nan true
  | .inf s, .fin t _ _ => .inf (s != t) false
  | .fin s _ _, .inf t => .fin (s != t) 0 0 false
  | .fin s m e, .fin t n k =>
    if n = 0 then (if m = 0 then .nan true else .inf (s != t) true)
    else if m = 0 then .fin (s != t) 0 0 false
    else
      let sh := guardBits + n.log2
      let num := m * 2 ^ sh
      .fin (s != t) (num / n) (e - k - (sh : Int)) (decide (num % n ≠ 0))

/-- Floor of the square root of n, bit by bit from bit k − 1 of the root. -/
def isqrtAux (n : Nat) : Nat → Nat → Nat
  | 0, r => r
  | k + 1, r => if (r + 2 ^ k) * (r + 2 ^ k) ≤ n then isqrtAux n k (r + 2 ^ k) else isqrtAux n k r

def isqrt (n : Nat) : Nat := isqrtAux n (n.log2 / 2 + 1) 0

/-- √a. -/
def fpSqrt (a : FpVal) : Exact :=
  match a with
  | .nan q => .nan q
  | .inf s => if s then .nan true else .inf false false
  | .fin s m e =>
    if m = 0 then .fin s 0 0 false
    else if s then .nan true
    else
      let sh := 2 * guardBits + (if e % 2 = 0 then 0 else 1)
      let n := m * 2 ^ sh
      let r := isqrt n
      .fin false r ((e - (sh : Int)) / 2) (decide (r * r ≠ n))

/-- a × b + c with one rounding (R267): 0 × ∞ is invalid even when c is a quiet NaN. -/
def fpFma (rm : Rm) (a b c : FpVal) : Exact :=
  match fpMul a b with
  | .nan nv => .nan (nv || c.isSnan)
  | .inf s _ =>
    match c with
    | .nan q => .nan q
    | .inf t => if s = t then .inf s false else .nan true
    | .fin _ _ _ => .inf s false
  | .fin s m e _ =>
    match c with
    | .nan q => .nan q
    | .inf t => .inf t false
    | .fin t n k => addFin rm s m e t n k

/-- Compare two numbers: −0 equals +0; NaNs are unordered (R265). -/
def fpCmp (a b : FpVal) : Option Ordering :=
  match a, b with
  | .nan _, _ => none
  | _, .nan _ => none
  | .inf s, .inf t => some (if s = t then .eq else if s then .lt else .gt)
  | .inf s, .fin _ _ _ => some (if s then .lt else .gt)
  | .fin _ _ _, .inf t => some (if t then .gt else .lt)
  | .fin s m e, .fin t n k =>
    let lo := min e k
    let x : Int := (m * 2 ^ (e - lo).toNat : Nat)
    let y : Int := (n * 2 ^ (k - lo).toNat : Nat)
    some (compare (if s then -x else x) (if t then -y else y))

def FpVal.sign : FpVal → Bool
  | .nan _ => false
  | .inf s => s
  | .fin s _ _ => s

/-- fmin and fmax (R146): bits of the operand chosen. `x` and `y` are the operands' own bits. -/
def fpMinMax (f : Fmt) (isMax : Bool) (x y : Nat) : FpRes :=
  let a := f.decode x
  let b := f.decode y
  let fl : BitVec 5 := if a.isSnan || b.isSnan then fNV else 0
  let pick : Nat :=
    match a.isNan, b.isNan with
    | true, true => f.canonNaN
    | true, false => y
    | false, true => x
    | false, false =>
      let aLess : Bool :=
        match fpCmp a b with
        | some .lt => true
        | some .gt => false
        | _ => a.sign
      if aLess then (if isMax then y else x) else (if isMax then x else y)
  { bits := pick, fl := fl, satx := false }

/-- The compares of R265: equal, less, less or equal. -/
inductive Cmp where
  | eq
  | lt
  | le
  | unord
  deriving DecidableEq, Repr

/-- A compare's truth and flags (R265, R280). -/
def fpCompare (c : Cmp) (a b : FpVal) : Bool × BitVec 5 :=
  let s := a.isSnan || b.isSnan
  let n := a.isNan || b.isNan
  match c with
  | .eq => (fpCmp a b == some .eq, if s then fNV else 0)
  | .lt => (fpCmp a b == some .lt, if n then fNV else 0)
  | .le => (fpCmp a b == some .lt || fpCmp a b == some .eq, if n then fNV else 0)
  | .unord => (n, if s then fNV else 0)

/-- The 16-bit class word of R265. -/
def fpClass (f : Fmt) (x : Nat) : Nat :=
  let sgn := if x.testBit f.signBit then 8 else 0
  match f.decode x with
  | .nan q => sgn + (if q then 5 else 4)
  | .inf _ => sgn + 3
  | .fin _ m e =>
    if m = 0 then sgn
    else
      let ex : Int := e + (m.log2 : Int)
      let kind := if m < 2 ^ f.fbits then 1 else 2
      ((ex % 4096).toNat % 4096) * 16 + sgn + kind

/-- Convert to an integer clamped to [lo, hi] (R142, R266, R289): value, flags, saturation. -/
def fpToInt (rm : Rm) (lo hi : Int) (a : FpVal) : Int × BitVec 5 × Bool :=
  match a with
  | .nan _ => (0, fNV, true)
  | .inf s => (if s then lo else hi, fNV, true)
  | .fin s m e =>
    let shift := (-e).toNat
    let mant := if 0 ≤ e then m * 2 ^ e.toNat else m / 2 ^ shift
    let rem := if 0 ≤ e then 0 else m % 2 ^ shift
    let sh := if 0 ≤ e then 0 else shift
    let up := roundsUp rm s (mant % 2 = 1) rem sh false
    let mag : Int := (mant + (if up then 1 else 0) : Nat)
    let v := if s then -mag else mag
    if v < lo then (lo, fNV, true)
    else if hi < v then (hi, fNV, true)
    else (v, if rem = 0 then 0 else fNX, false)

/-- A signed integer as an exact value. -/
def Exact.ofInt (v : Int) : Exact := .fin (decide (v < 0)) v.natAbs 0 false

/-- A decoded operand as an exact value (a conversion between formats, R289). A signalling NaN is invalid (R145). -/
def FpVal.exact : FpVal → Exact
  | .nan q => .nan q
  | .inf s => .inf s false
  | .fin s m e => .fin s m e false

/-! ### Stochastic rounding (R147, R148) -/

/-- Right rotation of a 64-bit word. -/
def rotr (x : Word) (n : Nat) : Word := x.rotateRight n

/-- One of the four rounds of R148. -/
def srRound (key c : Word) (s : Nat) (x : Word) : Word :=
  let y := x + key + c
  (y ^^^ rotr y s) * 0x9F3A5C71E2B84D65

/-- R := x[63:32] of R148 and R149 for a counter and a key. -/
def srWord (key counter : Word) : Nat :=
  let x := srRound key 0x6A1D3F8592C407EB 29 counter
  let x := srRound key 0xB4E27C195D08A3F1 31 x
  let x := srRound key 0x2F97C6DA18B34E65 27 x
  let x := srRound key 0xE8530B4F76A29CD7 33 x
  x.toNat / 2 ^ 32

/-- The counter of result element i (R147). -/
def srCounter (srsalt stripbase : Word) (i : Nat) : Word :=
  BitVec.ofNat 64 (srsalt.toNat % 256 * 2 ^ 56 + (stripbase.toNat + i) % 2 ^ 56)

/-! ### Exact sums (R155, R328, R335) -/

/-- An exact dyadic number n × 2^e. -/
structure Dy where
  n : Int
  e : Int
  deriving DecidableEq, Repr

def Dy.zero : Dy := { n := 0, e := 0 }

def Dy.add (a b : Dy) : Dy :=
  let e := min a.e b.e
  { n := a.n * (2 : Int) ^ (a.e - e).toNat + b.n * (2 : Int) ^ (b.e - e).toNat, e := e }

def Dy.neg (a : Dy) : Dy := { a with n := -a.n }

/-- A sum of products or elements that never loses a bit: the finite part, and what the NaNs and infinities met make
of it (R156). `allNegZero` stays true while every term was −0 (R155). -/
structure ExactSum where
  total : Dy
  nan : Bool
  nv : Bool
  posInf : Bool
  negInf : Bool
  allNegZero : Bool
  count : Nat
  deriving DecidableEq, Repr

def ExactSum.empty : ExactSum :=
  { total := Dy.zero, nan := false, nv := false, posInf := false, negInf := false, allNegZero := true, count := 0 }

/-- Add one exact term. -/
def ExactSum.add (a : ExactSum) (x : Exact) : ExactSum :=
  let a := { a with count := a.count + 1 }
  match x with
  | .nan nv => { a with nan := true, nv := a.nv || nv, allNegZero := false }
  | .inf s _ =>
    if s then { a with negInf := true, allNegZero := false } else { a with posInf := true, allNegZero := false }
  | .fin s m e _ =>
    { a with
      total := a.total.add { n := if s then -(m : Int) else (m : Int), e := e }
      allNegZero := a.allNegZero && s && m = 0 }

/-- What an exact sum comes to (R155, R156). -/
def ExactSum.result (a : ExactSum) : Exact :=
  if a.nan then .nan a.nv
  else if a.posInf && a.negInf then .nan true
  else if a.posInf then .inf false false
  else if a.negInf then .inf true false
  else if a.total.n = 0 then .fin (a.allNegZero && decide (0 < a.count)) 0 0 false
  else .fin (decide (a.total.n < 0)) a.total.n.natAbs a.total.e false

end Sys2Proof.Machine
end

