-- ==== Sys2Proof/Machine/State.lean ====
section
/-! DEFINITION. Everything the spec gives the FA-28 to hold, as plain data: the module with its two dies, stacks, cores,
strands, engines, links and host ports. INVENTORY.md lists each field with its rule and reset value. -/

namespace Sys2Proof.Machine

/-- Data by key, in one canonical form: keys strictly rising, no entry equal to what an unlisted key reads as. -/
abbrev Sparse (α : Type) := List (Nat × α)

/-- Memory: bytes by key. A key below 2^52 is a physical address (R161); local SRAM has keys above (log 9). -/
abbrev Memory := List Host.Cell

/-! ### Strands -/

inductive Level where
  | user
  | kernel
  deriving DecidableEq, Repr

/-- What has become of a strand (R83 to R92). -/
inductive Life where
  | unused
  | running
  | halted
  | saved
  | ended
  deriving DecidableEq, Repr

/-- What the instruction at the pc has already done while the scalar sequencer stalls at it (R361). -/
inductive Pause where
  | none
  /-- `wait` has begun, with or without a limit of cycles. -/
  | waiting (limited : Bool)
  /-- `yield` stalls for that many cycles. -/
  | yielding (cycles : Nat)
  /-- `yield`'s stall has ended. -/
  | yielded
  /-- `bar.arrwait` has arrived: the barrier form and the PHASE seen (R206). -/
  | arrived (form : BitVec 16) (phase : Bool)
  /-- `vfence` has counted (R193, R206). -/
  | counted
  /-- The `epush` at the pc has appended its word and waits for the engine to take the command (R306). -/
  | pushed
  deriving DecidableEq, Repr

/-- The trap record's parts (R135, R197). -/
structure TrapInfo where
  cause : BitVec 8
  vec : Bool
  seq : BitVec 32
  elem : Nat
  addr : Word
  info : BitVec 62
  deriving DecidableEq, Repr

/-- What a VIQ entry captures when it is posted (R98, R129, R147, R208). -/
structure Caps where
  ga : Word
  gb : Word
  gd : Word
  vl : Word
  vtype : Word
  stripbase : Word
  srseed : Word
  srsalt : Word
  check : Word
  tshape : Word
  tpad : Word
  mxsa : Word
  mxsb : Word
  xferbar : Word
  rowbytes : Word
  deriving DecidableEq, Repr

/-- One element's write to a register: bytes of a vector register, or a predicate bit. -/
inductive EWrite where
  | v (reg byte len val : Nat)
  | p (reg idx : Nat) (b : Bool)
  deriving DecidableEq, Repr

/-- An element held in the deterministic write-combining buffer (R192): its bytes' keys and value; for an atomic also
the operation, the captured VTYPE and the stochastic word, and of its bytes that a later scalar write of the strand has
covered, keys and what stood there before (R184, R194). `quiet` marks an atomic before an `mtc` to FSTAT, which has replaced
the flags that it raises (R130, log 69). -/
structure HeldElem where
  seq : BitVec 32
  elem : Nat
  va : Nat
  keys : List Nat
  val : Nat
  amo : Option (BitVec 2 × Word × Nat)
  past : List Host.Cell
  quiet : Bool
  deriving DecidableEq, Repr

/-- An element group between issue and completion, or complete and not yet merged: its writes, the FSTAT and GSTAT
flags it raises, a lane fault met on the way (R113 to R115), and the atomic updates it has still to perform in an order
that nothing fixes (R191). -/
structure GroupRes where
  g : Nat
  writes : List EWrite
  fl : BitVec 5
  gs : BitVec 5
  flip : Option (Nat × Bool)
  left : List HeldElem
  deriving DecidableEq, Repr

/-- A fault recorded against a VIQ entry (R107, R208). -/
structure VFault where
  cause : BitVec 8
  elem : Nat
  addr : Word
  info : BitVec 62
  deriving DecidableEq, Repr

/-- A VIQ entry (R98, R104, R107, R208). `prog` is PROGRESS as R208 stores it: leading final elements, or columns and
rows under R205; `rowprog` is ROWPROG of the step in flight. `value` is a returned value until its delivery. `skip` is the
element that `tret` made inactive (R204). `partA` holds the column sums of A that a block step with ck = 1 has gathered in
its rows so far: the partial state that a stop keeps (R205, R328). `logged` says that the log record of its retirement or
`oqform` is written (R342 step 1). `bad` are the rows of its own version that are lost: register and element group (R115). -/
structure VEntry where
  instr : Instr
  seq : BitVec 32
  convoy : Bool
  caps : Caps
  prog : Nat
  rowprog : Nat
  inflight : List GroupRes
  done : List GroupRes
  fault : Option VFault
  complete : Bool
  value : Option Word
  skip : Option Nat
  partA : List ExactSum
  logged : Bool
  bad : List (Nat × Nat)
  deriving DecidableEq, Repr

/-- A slot of the synchronising read queue (R99). -/
structure RqSlot where
  seq : BitVec 32
  dest : Reg
  value : Option Word
  deriving DecidableEq, Repr

/-- A maximal run of pages contiguous virtually and physically (R171 step 5). -/
structure PinExtent where
  va : Nat
  key : Nat
  len : Nat
  deriving DecidableEq, Repr

/-- A pin register (R123). XCOUNT is the number of extents. -/
structure Pin where
  live : Bool
  revoked : Bool
  rights : BitVec 3
  base : BitVec 55
  len : BitVec 37
  xfirst : BitVec 11
  extents : List PinExtent
  stop : BitVec 37
  deriving DecidableEq, Repr

/-- A tile accumulator (R124), with the shape recorded at the commit of `tcfg` (R323). -/
structure Tile where
  elems : Sparse (BitVec 64)
  m : BitVec 7
  n : BitVec 7
  rowprog : BitVec 7
  ckrow : Sparse (BitVec 32)
  ckcol : Sparse (BitVec 32)
  ckv : Bool
  recM : BitVec 7
  recN : BitVec 7
  deriving DecidableEq, Repr

/-- An orthogonal accumulator (R125). -/
structure Orth where
  n : BitVec 10
  fp64 : Bool
  k : BitVec 6
  cap : BitVec 6
  pol : BitVec 2
  v : Sparse Word
  t : Sparse Word
  bva : BitVec 55
  bstride : BitVec 32
  bcols : BitVec 16
  bpin : BitVec 3
  bside : BitVec 2
  lva : BitVec 55
  lpin : BitVec 3
  lcount : BitVec 16
  lmax : BitVec 16
  deriving DecidableEq, Repr

/-- What a stream port holds, in arrival order (R304, R308). -/
inductive StreamItem where
  | byte (b : Byte)
  | endMark
  deriving DecidableEq, Repr

/-- The engine ports of a strand (R126). -/
structure Ports where
  e0 : List Word
  e1 : List Word
  e2 : List Word
  e3 : List Word
  streams : Sparse (List StreamItem)
  deriving DecidableEq, Repr

/-- A committed scalar store that is not yet performed (R257). `after` is the sequence number the next VIQ entry had
when it committed: the loads of earlier entries come before it (R188). `fence` are the kinds of access that a later
fence holds back until it is performed (R186). `handler` marks a store of a trap handler, which comes before the frozen
entries' replay (R200, R204). `rewalk` marks one whose translation a `tlbi` has invalidated (R358). -/
structure BufferedStore where
  va : Nat
  keys : List Nat
  val : Nat
  after : BitVec 32
  fence : BitVec 5
  handler : Bool
  rewalk : Bool
  deriving DecidableEq, Repr

/-- The control registers of a strand that are words of their own (R127). VLMAX, LGW, DETMODE, identity, PTBASE and
MAXLG are computed from other fields. -/
structure Ctl where
  vl : Word
  vtype : Word
  stripbase : Word
  srseed : Word
  srsalt : Word
  rmode : Word
  fstat : Word
  gstat : Word
  suspect : Word
  check : Word
  chkcnt : Word
  tshape : Word
  tpad : Word
  mxsa : Word
  mxsb : Word
  xferbar : Word
  rowbytes : Word
  trapvec : Word
  tcause : Word
  tpc : Word
  tviq : Word
  telem : Word
  taddr : Word
  tinfo : Word
  ptbase : Word
  errinj : Word
  deriving DecidableEq, Repr

/-- The rows that an arithmetic micro-operation wrote, while its operands stand in its lane's operand buffer (R115): the
lane's position in the group, the entry, and register and element group of each row of that entry's version. Once the entry
has left the queue the rows are those of the register file that it wrote last. -/
structure OpRec where
  lane : Nat
  seq : BitVec 32
  rows : List (Nat × Nat)
  deriving DecidableEq, Repr

/-- A strand (R119 to R136). `opBuf` is what its lanes' operand buffers hold, newest first (R115). `trapNow` and `trapInfo`
are TCAUSE and TINFO of the trap being handled, which an `mtc` does not change (R201, R213, R355). `epochLines` are the
lines taken in the open epoch, those drained early among them (R192). `pendSave` are writes to the save area, offset, bytes
and value, that the die holds (R14, R203); `savedLines` the write-combining lines that its area holds, in their slots (R206);
`checks` counts the machine checks raised while it does not run (R203), and `drained` are the flags that its held atomics
raise when they drain while it is saved. `badRows` are the lost rows of the register file itself (R115). -/
structure Strand where
  farm : Nat
  logid : Nat
  nstrands : Nat
  part : BitVec 3
  die : Bool
  core : BitVec 7
  lane : BitVec 5
  lgw : Nat
  lanes : Nat
  pendW : Option Nat
  det : Bool
  life : Life
  level : Level
  inHandler : Bool
  trapNow : Word
  trapInfo : Word
  pc : Word
  g : Vector Word 32
  v : Vector (BitVec 32768) 32
  p : Vector (BitVec 32768) 64
  badRows : List (Nat × Nat)
  opBuf : List OpRec
  ctl : Ctl
  pins : Vector Pin 8
  tiles : List Tile
  orths : List Orth
  ports : Ports
  viq : List VEntry
  nextSeq : BitVec 32
  cvy : Bool
  rq : List RqSlot
  frozen : Nat
  shadow : List VEntry
  latch : BitVec 6
  stalled : Bool
  pause : Pause
  vfences : BitVec 32
  held : List HeldElem
  epochLines : List Nat
  sbuf : List BufferedStore
  tcmBase : Nat
  tcmLen : Nat
  saveVa : Nat
  haltReq : Bool
  strips : Nat
  mcheck : Option TrapInfo
  pendSave : List (Nat × Nat × Nat)
  savedLines : List Nat
  checks : Nat
  drained : BitVec 5
  deriving DecidableEq, Repr

/-! ### Cores -/

/-- A scalar TLB entry (R167): partition, level of the leaf, virtual page number at that level, frame and rights bits. -/
structure TlbEntry where
  part : BitVec 3
  level : Nat
  vpn : Nat
  frame : Nat
  rights : BitVec 6
  deriving DecidableEq, Repr

/-- What a core holds besides its strands (R102, R115, R118, R167, R168, R258, R324). `lines` and `ilines` are the lines of
its data and its instruction L1, newest first, `dirty` the dirty ones of the first. `ptrs` are the round-robin pointers, by
pipe; `tile` and `orth` name the strand and the sequence number of the instruction that the matrix engine and the orthogonal
unit execute. `fixed` counts corrected errors of register rows. -/
structure Core where
  maxlg : BitVec 6
  tlb : List TlbEntry
  lines : List Nat
  dirty : List Nat
  ilines : List Nat
  stale : List Host.Cell
  ptrs : Sparse Nat
  tile : Option (Nat × BitVec 32)
  orth : Option (Nat × BitVec 32)
  fixed : Nat
  waking : List Nat
  deriving DecidableEq, Repr

/-! ### Stacks and castling -/

inductive Access where
  | absent
  | owned
  | handing
  deriving DecidableEq, Repr

/-- An access-right entry (R12). -/
structure Right where
  state : Access
  gen : BitVec 16
  deriving DecidableEq, Repr

/-- A hand-over in progress (R178). -/
structure HandOver where
  source : Bool
  target : Bool
  force : Bool
  bar : BitVec 16
  resp : Option CmdRec
  deriving DecidableEq, Repr

/-- An HBM stack: its base die's registers, both dies' access rights, its slot tables and its castle-unit state. `patrol`
is the next 64-byte beat that patrol scrub reads, by pseudo-channel (R19); `pass` the next beat of a pass that SCRUB has asked
for and the beats that it has left (R54). -/
structure Stack where
  owner : Bool
  handing : Bool
  gen : BitVec 16
  right0 : Right
  right1 : Right
  att : BitVec 16
  lastBusy : Bool
  hand : Option HandOver
  queue : List CmdRec
  tables : Sparse (BitVec 256)
  newTables : List (Nat × BitVec 256)
  donate : BitVec 8
  newDonate : Option (BitVec 8)
  served : Option (BitVec 3)
  starved : BitVec 32
  patrol : Sparse Nat
  pass : Sparse (Nat × Nat)
  corrected : Nat
  deriving DecidableEq, Repr

/-! ### Barriers, engines, links -/

/-- A barrier table entry (R34). -/
structure Barrier where
  parpkg : BitVec 16
  parv : Bool
  pardie : Bool
  paridx : BitVec 12
  scope : BitVec 3
  fault : Bool
  phase : Bool
  arrived : BitVec 16
  expected : BitVec 16
  pending : BitVec 40
  deriving DecidableEq, Repr

/-- A BTE command being carried out (R307 to R312); `row` is true for a row that `vgscr` handed over (R303), whose
destination is the scratchpad key `dst`. `seq` is its age: the entry's own sequence number for a row, else the number
the strand's next entry had when the command's last word was pushed (R175). -/
structure BteCmd where
  id : Nat
  key : Nat
  seq : BitVec 32
  cluster : Nat
  row : Bool
  op : BitVec 4
  spin : BitVec 3
  dpin : BitVec 3
  port : BitVec 5
  endMark : Bool
  bar : BitVec 16
  tag : BitVec 16
  pad : Byte
  src : Word
  dst : Word
  rb : Nat
  nr : Nat
  sstride : Word
  dstride : Word
  vr : Nat
  vb : Nat
  delivered : Nat
  padded : Bool
  readAny : Bool
  deriving DecidableEq, Repr

/-- The completion words of an engine command that wait for room in e1, or in e3 for a collective, or for the strand to
run again (R126, R311, R314). -/
structure EngineDone where
  key : Nat
  coll : Bool
  w0 : Word
  w1 : Word
  deriving DecidableEq, Repr

/-- A communicator member entry (R63 KIND 2). -/
structure Member where
  die : Bool
  comm : BitVec 16
  rank : BitVec 16
  pkg : BitVec 16
  mdie : Bool
  deriving DecidableEq, Repr

/-- The control record of a collective (R25). -/
structure CtlRec where
  comm : BitVec 16
  k : BitVec 32
  rank : BitVec 16
  kind : BitVec 8
  op : BitVec 4
  opr : BitVec 2
  type : BitVec 8
  status : BitVec 8
  count : BitVec 40
  deriving DecidableEq, Repr

/-- A collective command taken by a die's engine (R313, R314). `seen` holds the announcements and arrivals, one a rank,
`ended` the completion statuses, one a rank, `data` the contributions received, by rank; `stage` is 0 until every announcement
is seen, 1 until the result is written, then 2; 3 when it has failed, 4 when it has failed with no bytes announced. `status` and
`reason` are its own then. `seq` is its age and `id` its place among the commands taken, as in BteCmd. -/
structure CollCmd where
  id : Nat
  die : Bool
  key : Nat
  seq : BitVec 32
  comm : BitVec 16
  k : BitVec 32
  rank : BitVec 16
  tag : BitVec 16
  bar : BitVec 16
  dpin : BitVec 3
  spin : BitVec 3
  type : BitVec 4
  opr : BitVec 2
  op : BitVec 4
  src : Word
  dst : Word
  count : BitVec 40
  seen : List CtlRec
  ended : List (BitVec 16 × BitVec 8)
  data : Sparse (List Byte)
  stage : Nat
  status : BitVec 8
  reason : BitVec 8
  fl : BitVec 5
  delivered : Nat
  deriving DecidableEq, Repr

/-- A payload of a collective that came before its command was taken (R314). -/
structure EarlyMsg where
  die : Bool
  kind : BitVec 4
  payload : List Byte
  deriving DecidableEq, Repr

inductive LinkState where
  | down
  | up
  | training
  deriving DecidableEq, Repr

/-- A Barlos link (R26 to R28): failed attempts of the retraining in progress, failed CRCs counted against it, flits
received, and the receive numbers of the last failures. -/
structure Link where
  state : LinkState
  attempts : Nat
  crcErrors : Nat
  received : Nat
  recentBad : List Nat
  deriving DecidableEq, Repr

/-- A route table entry (R24, R63 KIND 1). -/
structure Route where
  die : Bool
  inLink : BitVec 5
  inFlow : BitVec 12
  outFlow : BitVec 12
  primary : BitVec 5
  alt1 : BitVec 5
  alt2 : BitVec 5
  alt3 : BitVec 5
  deriving DecidableEq, Repr

/-- A flow at its source die (R24, R26, R28): `current` is the link (numbered as in LINKUP) it now uses. -/
structure TxFlow where
  id : Nat
  die : Bool
  flow : BitVec 12
  next : BitVec 32
  unacked : List Flit
  current : Option (BitVec 6)
  failed : Bool
  deriving DecidableEq, Repr

/-- A flow at its destination die (R27, R29): the next expected SEQ, the flits held out of order, and whether a flit has
failed its check since the last good one. -/
structure RxFlow where
  die : Bool
  flow : BitVec 12
  expected : BitVec 32
  window : List Flit
  bad : Bool
  deriving DecidableEq, Repr

/-! ### Second tier -/

/-- An accepted CXL extent (R40 to R43): while RELEASING, the release command and whether it is forced. -/
structure Extent where
  die : Bool
  tag : BitVec 16
  base : Nat
  len : Nat
  releasing : Option (CmdRec × Bool)
  deriving DecidableEq, Repr

/-- A loss record of a forced release (R43). -/
structure Loss where
  die : Bool
  base : Nat
  lines : List Nat
  deriving DecidableEq, Repr

/-! ### Farms and partitions -/

/-- The fields of a farm descriptor (R75). -/
structure Fdesc where
  entry : Word
  argptr : Word
  striplen : BitVec 32
  stripcnt : BitVec 32
  nstrands : BitVec 16
  width : BitVec 2
  minw : BitVec 2
  fixed : Bool
  det : Bool
  check : BitVec 2
  prio : BitVec 3
  part : BitVec 3
  dies : BitVec 2
  waits : List (BitVec 16)
  done : BitVec 16
  ntile : BitVec 4
  north : BitVec 2
  tcmkb : BitVec 10
  stackkb : BitVec 10
  saveva : Word
  srseed : Word
  srsalt : BitVec 8
  rsvdZero : Bool
  deriving DecidableEq, Repr

/-- Farm states as QUERY_FARM reports them, 0 to 5 (R56). -/
inductive FarmState where
  | queued
  | running
  | held
  | done
  | stopped
  | faulted
  deriving DecidableEq, Repr

/-- Why a farm is being halted (R57, R58, R86): the PSC command to answer, and what becomes of the farm. -/
inductive Halting where
  | no
  | requeue (r : Option CmdRec)
  | hold (r : CmdRec)
  | stop (r : Option CmdRec)
  deriving DecidableEq, Repr

structure Farm where
  id : Nat
  part : BitVec 3
  fd : Fdesc
  state : FarmState
  ready : Bool
  order : Nat
  readyAt : Nat
  aged : Nat
  grant : BitVec 2
  notify : Option CmdRec
  level : Level
  frames : List Nat
  strips : Nat
  nextStrip : Nat
  res2 : Nat
  trapped : Bool
  launched : Nat
  halting : Halting
  fresh : Bool
  vfDone : Nat
  deriving DecidableEq, Repr

/-- A loaded image: its farm table and the hash ATTEST reports (R65, R67). -/
structure Image where
  farms : List Fdesc
  hash : Nat
  deriving DecidableEq, Repr

/-- A partition (R54, R55, R79, R381). -/
structure Part where
  weight : BitVec 16
  ageLimit : BitVec 16
  userCastle : Bool
  isolated : Bool
  stackMask : BitVec 8
  ptbase : Word
  credit : Int
  images : Sparse Image
  deriving DecidableEq, Repr

/-! ### PSC -/

/-- DEVSTATE.STATE (R50). -/
inductive DevMode where
  | off
  | coldStart
  | warmStart
  | ready
  | failed
  | tripped
  deriving DecidableEq, Repr

/-- A response record (R52). -/
structure RespRec where
  status : BitVec 16
  part : BitVec 8
  tag : BitVec 16
  opcode : BitVec 16
  res0 : Word
  res1 : Word
  res2 : Word
  deriving DecidableEq, Repr

/-- An error record (R64). -/
structure ErrRec where
  cls : BitVec 16
  source : BitVec 16
  step : BitVec 16
  count : Word
  addr : Word
  time : Word
  deriving DecidableEq, Repr

/-- An active firmware patch (R66). -/
structure Patch where
  version : Nat
  hash : Nat
  deriving DecidableEq, Repr

/-- A host CXL.mem access that its port holds while the stack is HANDING, or behind one that is held (R178, R195). -/
inductive HostReq where
  | read (pa : Nat) (n : Nat)
  | write (pa : Nat) (data : List Byte)
  deriving DecidableEq, Repr

structure Sensor where
  temp : BitVec 16
  limit : BitVec 16
  deriving DecidableEq, Repr

/-- Which agent moves next (log 1): a strand's scalar side, the host writing the bytes of a record to the command port, or
a step of the device. -/
inductive Turn where
  | strand (key : Nat)
  | record (data : List Byte)
  | event (i : Instr)
  deriving DecidableEq, Repr

/-- The module. `hostHeld` are the host accesses that a port holds, in port order (R195). `vatDirty` are the dirty lines of
both vats, newest first (R41). `bteTurn` is the command, plus 1, that a cluster's BTE served last (R310). `scrubDue` are the
64 MiB regions that held a write in flight at a warm reset (R71). `reserve` are the farms with DIES = 3 for which die 1
holds back its launches (R81). -/
structure State where
  mode : DevMode
  startStep : Nat
  warmFail : Nat
  patch : Option Patch
  resetResp : Option CmdRec
  cmdPort : List CmdRec
  cmdRefused : Word
  cmdBadWrite : Word
  respPort : List RespRec
  notices : List RespRec
  msix : List Nat
  hostRead : List Byte
  hostPoison : Bool
  hostHeld : List (Bool × HostReq)
  errors : List ErrRec
  errDropped : Nat
  power : BitVec 16
  powerCap : BitVec 16
  sensors : Vector Sensor 8
  clockDown0 : Nat
  clockDown1 : Nat
  ownerSlots : List (Option Nat)
  slotsRevoked : BitVec 4
  coresOn : BitVec 256
  pkgNum : BitVec 16
  parts : Vector (Option Part) 8
  hbm : Vector Stack 8
  mem : Memory
  poison : Sparse (Option (BitVec 64))
  scrubDue : List Nat
  vatDirty : List Nat
  extents : List Extent
  losses : List Loss
  cores : Sparse Core
  barriers : Sparse Barrier
  bte : List BteCmd
  nextBte : Nat
  bteTurn : Sparse Nat
  engineDone : List EngineDone
  members : List Member
  collCount : Sparse (BitVec 32)
  colls : List CollCmd
  collEarly : List EarlyMsg
  links : Vector Link 36
  routes : List Route
  txFlows : List TxFlow
  rxFlows : List RxFlow
  wire : List (BitVec 6 × Flit)
  txWait : List (Bool × BitVec 12 × BitVec 4 × List Byte)
  farms : List Farm
  nextFarm : Nat
  nextOrder : Nat
  quota : Sparse Nat
  reserve : List Nat
  cur : Strand
  others : List Strand
  turns : List Turn
  clock : Nat
  free : Nat
  lost : Bool
  deriving DecidableEq, Repr

/-- Why a step stops. -/
inductive Fault where
  /-- Raised by `tret` and by a resumption when the record read back from the save area holds no instruction of the
  machine, because software has overwritten it: R204 and R211 give no effect for such a record. Safe: the hardware may
  do anything. -/
  | recordLost
  deriving DecidableEq, Repr

/-- Why a step has no meaning in this model. -/
inductive Refusal where
  /-- Raised by an arm of exec that has no meaning yet. Safe. -/
  | notModelled (mnemonic : String)
  deriving DecidableEq, Repr

/-- What every meaning answers. -/
abbrev Res := Host.Outcome State Fault Refusal

/-! ### Reset (R13, R18, R70, R83, R127, R381) -/

/-- The control registers at strand start (R83, R127). -/
def Ctl.start : Ctl :=
  { vl := 0, vtype := 0x0A, stripbase := 0, srseed := 0, srsalt := 0, rmode := 0, fstat := 0, gstat := 0, suspect := 0,
    check := 0, chkcnt := 0, tshape := 0x4040, tpad := 0, mxsa := 0, mxsb := 0, xferbar := 0, rowbytes := 16,
    trapvec := 0x7FFFF003000040, tcause := 0, tpc := 0, tviq := 0, telem := 0, taddr := 0, tinfo := 0, ptbase := 0,
    errinj := 0 }

def Pin.idle : Pin :=
  { live := false, revoked := false, rights := 0, base := 0, len := 0, xfirst := 0, extents := [], stop := 0 }

/-- A tile accumulator at strand start (R83). -/
def Tile.start : Tile :=
  { elems := [], m := 64, n := 64, rowprog := 64, ckrow := [], ckcol := [], ckv := true, recM := 64, recN := 64 }

/-- An orthogonal accumulator at strand start (R83). -/
def Orth.start : Orth :=
  { n := 1, fp64 := false, k := 0, cap := 32, pol := 0, v := [], t := [], bva := 0, bstride := 0, bcols := 0, bpin := 0,
    bside := 0, lva := 0, lpin := 0, lcount := 0, lmax := 0 }

def Ports.empty : Ports := { e0 := [], e1 := [], e2 := [], e3 := [], streams := [] }

/-- A strand slot before any launch: the start values of R83 and R127, the first sequence number 0 (R98, R373), the rest as
log 5 says. -/
def Strand.blank : Strand :=
  { farm := 0, logid := 0, nstrands := 1, part := 0, die := false, core := 0, lane := 0, lgw := 8, lanes := 8,
    pendW := none, det := false, life := .unused, level := .kernel, inHandler := false, trapNow := 0, trapInfo := 0, pc := 0,
    g := Vector.replicate 32 0, v := Vector.replicate 32 0, p := Vector.replicate 64 0, badRows := [], opBuf := [],
    ctl := Ctl.start, pins := Vector.replicate 8 Pin.idle, tiles := [], orths := [], ports := Ports.empty, viq := [],
    nextSeq := 0, cvy := true, rq := [], frozen := 0, shadow := [], latch := 0, stalled := false, pause := .none, vfences := 0,
    held := [], epochLines := [], sbuf := [], tcmBase := 0, tcmLen := 0, saveVa := 0, haltReq := false, strips := 0, mcheck := none,
    pendSave := [], savedLines := [], checks := 0, drained := 0 }

/-- A core after reset (R118, R102). -/
def Core.reset : Core :=
  { maxlg := 32, tlb := [], lines := [], dirty := [], ilines := [], stale := [], ptrs := [], tile := none, orth := none, fixed := 0, waking := [] }

/-- A barrier after reset: unconfigured (R37). -/
def Barrier.reset : Barrier :=
  { parpkg := 0, parv := false, pardie := false, paridx := 0, scope := 0, fault := false, phase := false, arrived := 0,
    expected := 0, pending := 0 }

/-- A stack owned by a die, as both starts leave it (R13, R18). -/
def Stack.reset (owner : Bool) : Stack :=
  { owner := owner, handing := false, gen := 0,
    right0 := { state := if owner then .absent else .owned, gen := 0 },
    right1 := { state := if owner then .owned else .absent, gen := 0 },
    att := 0, lastBusy := false, hand := none, queue := [], tables := [], newTables := [], donate := 0xFF, newDonate := none, served := none,
    starved := 0, patrol := [], pass := [], corrected := 0 }

/-- P0 (R381). -/
def Part.p0 : Part :=
  { weight := 1, ageLimit := 0, userCastle := false, isolated := false, stackMask := 0xFF, ptbase := 0, credit := 0,
    images := [] }

def Link.reset : Link := { state := .down, attempts := 0, crcErrors := 0, received := 0, recentBad := [] }

/-- The module right after reset: every register at its reset value, the cold start at its first step (R49, R50, R70). -/
def State.reset : State :=
  { mode := .coldStart, startStep := 0, warmFail := 0, patch := none, resetResp := none, cmdPort := [], cmdRefused := 0,
    cmdBadWrite := 0, respPort := [], notices := [], msix := [], hostRead := [], hostPoison := false, hostHeld := [], errors := [],
    errDropped := 0, power := 0, powerCap := 2400,
    sensors := Vector.replicate 8 { temp := 0, limit := 0xFFFF }, clockDown0 := 0, clockDown1 := 0,
    ownerSlots := [none, none, none, none], slotsRevoked := 0, coresOn := BitVec.allOnes 256, pkgNum := 0,
    parts := #v[some Part.p0, none, none, none, none, none, none, none],
    hbm := #v[Stack.reset false, Stack.reset false, Stack.reset false, Stack.reset false, Stack.reset true,
      Stack.reset true, Stack.reset true, Stack.reset true],
    mem := [], poison := [], scrubDue := [], vatDirty := [], extents := [], losses := [], cores := [], barriers := [], bte := [],
    nextBte := 0, bteTurn := [], engineDone := [], members := [], collCount := [], colls := [], collEarly := [], links := Vector.replicate 36 Link.reset, routes := [],
    txFlows := [], rxFlows := [], wire := [], txWait := [], farms := [], nextFarm := 1, nextOrder := 0, quota := [], reserve := [],
    cur := Strand.blank, others := [], turns := [], clock := 0, free := 0, lost := false }

end Sys2Proof.Machine
end

