-- ==== Sys2Proof/Machine/Base.lean ====
section
/-! DEFINITION. Reading and updating the parts of the state: strands, cores, stacks, barriers, the g, v and p registers
of a strand, free values. -/

namespace Sys2Proof.Machine

/-! ### Strands -/

/-- A strand's name in Instr and Turn: FARMID × 1024 + LOGID. -/
def Strand.key (t : Strand) : Nat := t.farm * 1024 + t.logid

/-- Update the current strand. -/
def State.modCur (s : State) (f : Strand → Strand) : State := { s with cur := f s.cur }

/-- The strands that exist: launched and not ended. -/
def Strand.exists_ (t : Strand) : Bool :=
  match t.life with
  | .unused => false
  | .ended => false
  | _ => true

/-- Every strand record, the current one first. -/
def State.strands (s : State) : List Strand := s.cur :: s.others

def findStrand (k : Nat) : List Strand → Option Strand
  | [] => none
  | t :: r => if t.key = k ∧ t.exists_ then some t else findStrand k r

/-- The strand with a key. -/
def State.strand? (s : State) (k : Nat) : Option Strand := findStrand k s.strands

def modFirst (k : Nat) (f : Strand → Strand) : List Strand → List Strand
  | [] => []
  | t :: r => if t.key = k ∧ t.exists_ then f t :: r else t :: modFirst k f r

/-- Update the strand with a key. -/
def State.modStrand (s : State) (k : Nat) (f : Strand → Strand) : State :=
  if s.cur.key = k ∧ s.cur.exists_ then s.modCur f else { s with others := modFirst k f s.others }

/-- Update every strand. -/
def State.mapStrands (s : State) (f : Strand → Strand) : State :=
  { s with cur := f s.cur, others := s.others.map f }

def takeStrand (k : Nat) : List Strand → Option (Strand × List Strand)
  | [] => none
  | t :: r =>
    if t.key = k ∧ t.exists_ then some (t, r)
    else
      match takeStrand k r with
      | some (u, r') => some (u, t :: r')
      | none => none

/-- Make the strand with a key the current one; the strand that was current joins the others. -/
def State.focus (s : State) (k : Nat) : State :=
  if s.cur.key = k ∧ s.cur.exists_ then s
  else
    match takeStrand k s.others with
    | some (t, r) => { s with cur := t, others := if s.cur.life = .unused then r else r ++ [s.cur] }
    | none => s

/-! ### Cores, clusters -/

/-- A core's number in the package: die × 128 + core in die. -/
def Strand.coreNo (t : Strand) : Nat := (if t.die then 128 else 0) + t.core.toNat

/-- A strand's cluster in the package, 16 to a die, 8 cores to a cluster (R82). -/
def Strand.cluster (t : Strand) : Nat := t.coreNo / 8

/-- The strand slot: its lowest lane over 8 (R82). -/
def Strand.slot (t : Strand) : Nat := t.lane.toNat / 8

def State.core (s : State) (n : Nat) : Core := sget Core.reset s.cores n

def State.modCore (s : State) (n : Nat) (f : Core → Core) : State :=
  { s with cores := sset Core.reset s.cores n (f (s.core n)) }

/-! ### Stacks -/

def State.stack (s : State) (n : Nat) : Stack := s.hbm.getD n (Stack.reset false)

def State.modStack (s : State) (n : Nat) (f : Stack → Stack) : State :=
  { s with hbm := s.hbm.setIfInBounds n (f (s.stack n)) }

/-- A die's access-right entry for a stack (R12). -/
def Stack.right (k : Stack) (die : Bool) : Right := if die then k.right1 else k.right0

def Stack.setRight (k : Stack) (die : Bool) (r : Right) : Stack :=
  if die then { k with right1 := r } else { k with right0 := r }

/-! ### Registers -/

/-- Read a g register: g0 reads zero (R119). -/
def Strand.getG (t : Strand) (r : Reg) : Word := if r = 0 then 0 else t.g.getD r.toNat 0

/-- Write a g register: a write to g0 is discarded (R119). -/
def Strand.setG (t : Strand) (r : Reg) (x : Word) : Strand :=
  if r = 0 then t else { t with g := t.g.setIfInBounds r.toNat x }

def State.g (s : State) (r : Reg) : Word := s.cur.getG r

def State.setG (s : State) (r : Reg) (x : Word) : State := s.modCur (fun t => t.setG r x)

/-- The pc moves on by an instruction's length (R214). -/
def State.advance (s : State) (n : Nat) : State := s.modCur (fun t => { t with pc := t.pc + BitVec.ofNat 64 n })

def State.setPc (s : State) (x : Word) : State := s.modCur (fun t => { t with pc := x })

/-- Write a register and go on to the next instruction. -/
def State.retire (s : State) (d : Reg) (x : Word) (len : Nat) : State := (s.setG d x).advance len

/-- The scalar sequencer waits at the instruction, which executes again (R99, R361). -/
def State.stall (s : State) : State := s.modCur (fun t => { t with stalled := true })

/-- A register whose value a vector instruction has yet to deliver (R99). -/
def Strand.pendingG (t : Strand) (r : Reg) : Bool := r != 0 && t.rq.any (fun q => q.dest == r)

/-- An instruction that names a pending register waits (R99). -/
def withRegs (rs : List Reg) (s : State) (k : State → Res) : Res :=
  if rs.any (fun r => s.cur.pendingG r) then .next s.stall else k s

/-- Bit i of a predicate: p0 reads all ones (R122). -/
def Strand.getP (t : Strand) (p : Nat) : BitVec 32768 := if p = 0 then BitVec.allOnes 32768 else t.p.getD p 0

/-- Bytes of a vector register in this strand's width (R120). -/
def Strand.vbytes (t : Strand) : Nat := 128 * t.lgw

/-- VLMAX = 8 × W × G × GROUP in bits of VTYPE (R96). -/
def vtSew (vt : Word) : Nat := 8 * 2 ^ (vt.toNat % 8)
def vtFmt (vt : Word) : Nat := vt.toNat / 8 % 16
def vtGroup (vt : Word) : Nat := 2 ^ (vt.toNat / 128 % 8)
def vtRm (vt : Word) : Nat := vt.toNat / 1024 % 8
def vtSat (vt : Word) : Bool := vt.getLsbD 13

/-- G: elements in an element group (R96). -/
def vtG (vt : Word) : Nat := 128 / vtSew vt

def vlmaxOf (lgw : Nat) (vt : Word) : Nat := 8 * lgw * vtG vt * vtGroup vt

/-! ### Free values (log 2) -/

/-- Draw one free value. -/
def State.draw (s : State) : Nat × State := (Config.free s.free, { s with free := s.free + 1 })

/-! ### Little-endian bytes (R120, R214) -/

def leNat : List Byte → Nat
  | [] => 0
  | b :: r => b.toNat + 256 * leNat r

def leBytes : Nat → Nat → List Byte
  | 0, _ => []
  | n + 1, x => BitVec.ofNat 8 x :: leBytes n (x / 256)

/-! ### Farms, partitions -/

def findFarm (id : Nat) : List Farm → Option Farm
  | [] => none
  | f :: r => if f.id = id then some f else findFarm id r

def State.farm? (s : State) (id : Nat) : Option Farm := findFarm id s.farms

def State.modFarm (s : State) (id : Nat) (f : Farm → Farm) : State :=
  { s with farms := s.farms.map (fun x => if x.id = id then f x else x) }

def State.part? (s : State) (p : Nat) : Option Part := s.parts.getD p none

def State.modPart (s : State) (p : Nat) (f : Part → Part) : State :=
  { s with parts := s.parts.setIfInBounds p ((s.part? p).map f) }

/-! ### Barriers (R34) -/

def barKey (die : Bool) (idx : Nat) : Nat := (if die then 4096 else 0) + idx

def State.bar (s : State) (k : Nat) : Barrier := sget Barrier.reset s.barriers k

def State.setBar (s : State) (k : Nat) (b : Barrier) : State := { s with barriers := sset Barrier.reset s.barriers k b }

/-! ### Sequence numbers (R98) -/

/-- Posted earlier, modulo 2^32. -/
def seqLt (a b : BitVec 32) : Bool := a != b && decide ((b - a).toNat < 2 ^ 31)

/-! ### Numbers -/

/-- A number as a word. -/
def wNat (x : Nat) : Word := BitVec.ofNat 64 x

/-- A Nat read as a signed number of n bits. -/
def toSigned (n x : Nat) : Int := let y := x % 2 ^ n; if n = 0 then 0 else if y < 2 ^ (n - 1) then y else (y : Int) - (2 : Int) ^ n

/-- An integer wrapped to n bits. -/
def ofInt (n : Nat) (x : Int) : Nat := (x % (2 : Int) ^ n).toNat

def ceilDiv (a b : Nat) : Nat := if b = 0 then 0 else (a + b - 1) / b

/-- A field of a number: `len` bits from bit `lo`. -/
def fld (x lo len : Nat) : Nat := x / 2 ^ lo % 2 ^ len

end Sys2Proof.Machine
end

