-- ==== Sys2Proof/Machine/Flow.lean ====
section
/-! DEFINITION. Flits, routes and the sending side of a flow (R23, R24, R26, R28). -/

namespace Sys2Proof.Machine

/-! ### The flit check (R23) -/

/-- One bit of CRC-16 with polynomial 0x1021, most significant bit first. -/
def crcBit (c : Nat) (b : Bool) : Nat :=
  let top := c / 2 ^ 15 % 2 = 1
  let sh := c * 2 % 2 ^ 16
  if top != b then sh ^^^ 0x1021 else sh

def crcByte (c : Nat) (x : Byte) : Nat :=
  [7, 6, 5, 4, 3, 2, 1, 0].foldl (fun c i => crcBit c (x.getLsbD i)) c

/-- Header bits [63:16], the highest byte first, then the payload (log 11). -/
def flitCrc (f : Flit) : BitVec 16 :=
  let h := f.seq.toNat * 2 ^ 16 + f.flow.toNat * 2 ^ 4 + f.kind.toNat
  let hb : List Byte := [5, 4, 3, 2, 1, 0].map (fun i => BitVec.ofNat 8 (h / 2 ^ (8 * i)))
  BitVec.ofNat 16 ((hb ++ f.payload).foldl crcByte 0xFFFF)

/-- A payload filled with zeros to 248 bytes. -/
def padPayload (p : List Byte) : List Byte := p.take 248 ++ List.replicate (248 - p.length) 0

def makeFlit (seq : BitVec 32) (flow : BitVec 12) (kind : BitVec 4) (p : List Byte) : Flit :=
  let f : Flit := { seq := seq, flow := flow, kind := kind, crc := 0, payload := padPayload p }
  { f with crc := flitCrc f }

/-! ### Links and routes -/

/-- A link's number in LINKUP: die × 18 + link. -/
def linkNo (die : Bool) (link : Nat) : Nat := (if die then 18 else 0) + link

def State.link (s : State) (n : Nat) : Link := s.links.getD n Link.reset

def State.modLink (s : State) (n : Nat) (f : Link → Link) : State :=
  { s with links := s.links.setIfInBounds n (f (s.link n)) }

def State.linkUp (s : State) (n : Nat) : Bool := (s.link n).state == .up

/-- The route table entry of a die for an incoming link and label; link 31 is the local source (R63). -/
def State.route? (s : State) (die : Bool) (inLink : BitVec 5) (inFlow : BitVec 12) : Option Route :=
  s.routes.find? (fun r => r.die == die && r.inLink == inLink && r.inFlow == inFlow)

/-- The outgoing link a route uses now: its primary if up, else its first alternate that is up (R28). -/
def State.pickLink (s : State) (die : Bool) (r : Route) : Option (BitVec 6) :=
  ([r.primary, r.alt1, r.alt2, r.alt3].find? (fun l => l != 31 && s.linkUp (linkNo die l.toNat))).map
    (fun l => BitVec.ofNat 6 (linkNo die l.toNat))

/-! ### Sending -/

/-- Flits a die's replay buffer holds: 4 MiB of 256-byte flits (R26). -/
def replayRoom : Nat := 16384

/-- Flits in a die's replay buffer. What a FAILED flow had sent is lost and takes no room (R28). -/
def State.unackedOf (s : State) (die : Bool) : Nat :=
  ((s.txFlows.filter (fun f => f.die == die && !f.failed)).map (fun f => f.unacked.length)).sum

def State.modTx (s : State) (die : Bool) (flow : BitVec 12) (f : TxFlow → TxFlow) : State :=
  { s with txFlows := s.txFlows.map (fun x => if x.die = die ∧ x.flow = flow then f x else x) }

/-- Put flits on the link a flow uses now; without one they wait in the replay buffer (R28). -/
def State.putWire (s : State) (die : Bool) (flow : BitVec 12) (fs : List Flit) : State :=
  match s.txFlows.find? (fun x => x.die == die && x.flow == flow) with
  | some x =>
    match x.current with
    | some l => { s with wire := s.wire ++ fs.map (fun f => (l, f)) }
    | none => s
  | none => s

/-- A die sends one payload on a local flow (R24, R26); it does not overtake one of its flow that waits for room. The label
on the link is the route's outgoing one. Answers false when there is no such flow or it is FAILED (R28). -/
def State.sendFlit (s : State) (die : Bool) (flow : BitVec 12) (kind : BitVec 4) (p : List Byte) : State × Bool :=
  match s.txFlows.find? (fun x => x.die == die && x.flow == flow), s.route? die 31 flow with
  | some x, some r =>
    if x.failed then (s, false)
    else if replayRoom ≤ s.unackedOf die ∨ s.txWait.any (fun w => w.1 == die && w.2.1 == flow) = true then ({ s with txWait := s.txWait ++ [(die, flow, kind, p)] }, true)
    else
      let f := makeFlit x.next r.outFlow kind p
      ((s.modTx die flow (fun y => { y with next := y.next + 1, unacked := y.unacked ++ [f] })).putWire die flow [f], true)
  | _, _ => (s, false)

/-- The local flow that leads to a die of a package: twice its number and the die, in FLOW's 12 bits, so that packages 2,048 apart
share one (log 11). -/
def flowLabel (pkg : Nat) (die : Bool) : BitVec 12 := BitVec.ofNat 12 (2 * pkg + (if die then 1 else 0))

end Sys2Proof.Machine
end

