-- ==== Sys2Proof/Machine/Mem.lean ====
section
/-! DEFINITION. Memory by key, the physical map, poison, dirty lines and what a write at a home does (R20, R41, R161,
R164, R169, R212). Keys of local SRAM lie above the physical addresses (log 9). -/

namespace Sys2Proof.Machine

/-! ### Keys -/

/-- Key of a byte of a core's TCM. -/
def tcmKey (core off : Nat) : Nat := 2 ^ 52 + core * 2 ^ 19 + off

/-- Key of a byte of a cluster's scratchpad. -/
def scratchKey (cl off : Nat) : Nat := 2 ^ 52 + 2 ^ 40 + cl * 2 ^ 23 + off

/-- Key of a byte of a cluster's slice table. -/
def sliceKey (cl off : Nat) : Nat := 2 ^ 52 + 2 ^ 41 + cl * 64 + off

/-- Key of a byte of the runtime ROM. -/
def romKey (off : Nat) : Nat := 2 ^ 52 + 2 ^ 42 + off

/-- The runtime ROM (R212): `trap 1023` at offset 0; at 0x40 the default handler, `mfc g0, TCAUSE` and `halt` (log 6). -/
def romImage (off : Nat) : Byte :=
  match off with
  | 0x00 => 0x68
  | 0x01 => 0xE0
  | 0x02 => 0x7F
  | 0x03 => 0x00
  | 0x40 => 0x68
  | 0x41 => 0x20
  | 0x42 => 0x04
  | 0x43 => 0x18
  | 0x44 => 0x68
  | 0x45 => 0x00
  | 0x46 => 0x00
  | 0x47 => 0x14
  | n => Config.romByte n

/-- What a byte that nothing has written reads as: the ROM's byte, V = 1 and P0 twice in a slice table (R164), else 0
(R70, log 4). -/
def memDefault (k : Nat) : Byte :=
  if k < 2 ^ 52 + 2 ^ 41 then 0 else if k < 2 ^ 52 + 2 ^ 42 then 0x88 else romImage (k - (2 ^ 52 + 2 ^ 42))

/-- Read one byte. -/
def memRead (m : Memory) (k : Nat) : Byte := sget (memDefault k) m k

/-- Write one byte. -/
def memWrite (m : Memory) (k : Nat) (b : Byte) : Memory := sset (memDefault k) m k b

/-- The canonical form: keys strictly rising, none listed at its default. -/
def Memory.wf (m : Memory) : Bool := swf memDefault none m

/-- Read bytes at keys. -/
def memReadList (m : Memory) (ks : List Nat) : List Byte := ks.map (memRead m)

/-- Write bytes at keys, in order. -/
def memWriteList (m : Memory) : List Nat → List Byte → Memory
  | k :: ks, b :: bs => memWriteList (memWrite m k b) ks bs
  | _, _ => m

/-- n consecutive keys. -/
def keysFrom (k : Nat) : Nat → List Nat
  | 0 => []
  | n + 1 => k :: keysFrom (k + 1) n

/-- A little-endian number of n bytes at consecutive keys. -/
def memNat (m : Memory) (k n : Nat) : Nat := leNat (memReadList m (keysFrom k n))

def memSetNat (m : Memory) (k n x : Nat) : Memory := memWriteList m (keysFrom k n) (leBytes n x)

/-! ### The physical map (R10, R39, R161) -/

inductive Region where
  | hbm (stack : Nat)
  | tier2 (die : Bool)
  | sram (die : Bool)
  | cxl
  | window
  | outside
  deriving DecidableEq, Repr

/-- The row of R161 that holds a key. -/
def region (k : Nat) : Region :=
  if k < 0x8000000000 then .hbm (k / 0x1000000000)
  else if k < 0x10000000000 then .outside
  else if k < 0x18000000000 then .tier2 false
  else if k < 0x20000000000 then .tier2 true
  else if k < 0x20006000000 then .sram false
  else if k < 0x20100000000 then .outside
  else if k < 0x20106000000 then .sram true
  else if k < 0x4000000000000 then .outside
  else if k < 0x8000000000000 then .cxl
  else if k < 0x10000000000000 then .outside
  else .window

/-- Rows compared by R256: all stacks are one row, both second-tier halves one. -/
def Region.row : Region → Nat
  | .hbm _ => 0
  | .tier2 _ => 1
  | .sram die => if die then 3 else 2
  | .cxl => 4
  | .window => 5
  | .outside => 6

/-- Memory that is not local SRAM of a core or cluster (R188). -/
def offCore (k : Nat) : Bool := decide (k < 2 ^ 52)

/-- What the scalar L1 caches (R168). -/
def cached (k : Nat) : Bool :=
  match region k with
  | .hbm _ => true
  | .tier2 _ => true
  | .cxl => true
  | _ => false

/-- What a vat holds (R41). -/
def inVat (k : Nat) : Bool :=
  match region k with
  | .tier2 _ => true
  | .cxl => true
  | _ => false

/-- The pseudo-channel of a stack that holds an HBM byte: PA[12:8], so that 256-byte blocks rotate through all 32 (R10). -/
def pseudoChannel (k : Nat) : Nat := k / 256 % 32

/-- The key of the n-th 64-byte beat of a pseudo-channel; its 2 GiB hold 2^25 beats (R10, R22). -/
def beatKey (stack pch n : Nat) : Nat := stack * 2 ^ 36 + n / 4 * 2 ^ 13 + pch * 2 ^ 8 + n % 4 * 64

/-- Beats of a pseudo-channel. -/
def beatCount : Nat := 2 ^ 25

def lineOf (k : Nat) : Nat := k / 64

def insertNat (x : Nat) (l : List Nat) : List Nat := if l.contains x then l else x :: l

/-- The distinct lines of a list of keys. -/
def linesOf (ks : List Nat) : List Nat := ks.foldl (fun l k => insertNat (lineOf k) l) []

/-! ### Error records (R64) -/

/-- Count one more error into a held CORRECTED record of the same source. -/
def mergeCorrected (source : BitVec 16) : List ErrRec → List ErrRec
  | [] => []
  | e :: r =>
    if e.cls == 1 && e.source == source then { e with count := e.count + 1 } :: r else e :: mergeCorrected source r

/-- Add an error record; MSI-X vector 1 is signalled (R48). TIME is not modelled: a free value (log 3). -/
def State.addError (s : State) (cls source step count addr : Nat) : State :=
  let src := BitVec.ofNat 16 source
  if s.errors.length < 4096 then
    let e : ErrRec :=
      { cls := BitVec.ofNat 16 cls, source := src, step := BitVec.ofNat 16 step, count := BitVec.ofNat 64 count,
        addr := BitVec.ofNat 64 addr, time := BitVec.ofNat 64 (Config.free s.free) }
    { s with errors := s.errors ++ [e], free := s.free + 1, msix := s.msix ++ [1] }
  else if cls = 1 ∧ s.errors.any (fun e => e.cls == 1 && e.source == src) then
    { s with errors := mergeCorrected src s.errors }
  else { s with errDropped := s.errDropped + 1 }

/-- SOURCE of a memory error record at an address (R64). -/
def errSource (k : Nat) : Nat :=
  match region k with
  | .hbm st => st
  | .tier2 die => 0x8000 + (if die then 0x100 else 0)
  | _ => 0

/-! ### Poison (R20, R43) -/

def State.poisoned (s : State) (line : Nat) : Bool := (sget none s.poison line).isSome

/-- The first byte of a list that lies in a poisoned line, by its place in the list. -/
def firstPoison (s : State) : List Nat → Nat → Option Nat
  | [], _ => none
  | k :: ks, i => if s.poisoned (lineOf k) then some i else firstPoison s ks (i + 1)

/-- A write to a poisoned line; once every byte of the line is written the management core repairs it (R20). -/
def State.unpoison (s : State) (k : Nat) : State :=
  match s.poison with
  | [] => s
  | _ =>
    match sget none s.poison (lineOf k) with
    | none => s
    | some m =>
      let m' : BitVec 64 := m ||| BitVec.ofNat 64 (2 ^ (k % 64))
      if m' = BitVec.allOnes 64 then
        { s with poison := sset none s.poison (lineOf k) none }.addError 3 (errSource k) 0 0 (lineOf k * 64)
      else { s with poison := sset none s.poison (lineOf k) (some m') }

/-! ### Extents -/

def findExtent (k : Nat) : List Extent → Option Extent
  | [] => none
  | e :: r => if e.base ≤ k ∧ k < e.base + e.len then some e else findExtent k r

/-! ### Lines of the L1s and the vats (R41, R168, R169) -/

/-- The lines of a list, newest first, without those that satisfy `p` beyond the first n. -/
def boundLines (p : Nat → Bool) : Nat → List Nat → List Nat
  | _, [] => []
  | n, x :: r =>
    if p x then (if n = 0 then boundLines p 0 r else x :: boundLines p (n - 1) r) else x :: boundLines p n r

/-- The die whose vat holds a line: that of a second-tier half, or an extent's home (R41). -/
def State.vatOf (s : State) (line : Nat) : Bool :=
  match region (64 * line) with
  | .tier2 die => die
  | _ => match findExtent (64 * line) s.extents with | some e => e.die | none => false

/-- Lines that a vat of 64 MiB holds. -/
def vatLines : Nat := 2 ^ 20

/-- Entries of a filter (R169). -/
def filterSize : Nat := 2048

/-- The filter that records a line of the L1s: that of its HBM pseudo-channel, of its second-tier channel, 16 to a half, or of
the CXL port of its vat (R39, R169, log 7). -/
def State.filterOf (s : State) (line : Nat) : Nat :=
  match region (64 * line) with
  | .hbm st => 32 * st + pseudoChannel (64 * line)
  | .tier2 die => 256 + (if die then 16 else 0) + Config.tier2Channel line % 16
  | _ => if s.vatOf line then 289 else 288

/-- Every copy of some lines in the L1s of a core is written back; unless `keep` says that the L1 keeps it clean, it is
invalidated (R169, R178). -/
def Core.giveUp (keep : Bool) (p : Nat → Bool) (c : Core) : Core :=
  let rest (ls : List Nat) : List Nat := ls.filter (fun l => !p l)
  { c with dirty := rest c.dirty, lines := if keep then c.lines else rest c.lines,
           ilines := if keep then c.ilines else rest c.ilines }

/-- Some L1 holds one of the lines. -/
def Core.holdsAny (c : Core) (p : Nat → Bool) : Bool := c.dirty.any p || c.lines.any p || c.ilines.any p

/-- The filters' action on every scalar L1 copy of some lines (R169). -/
def State.filterLines (s : State) (keep : Bool) (lines : List Nat) : State :=
  if s.cores.any (fun c => c.2.holdsAny lines.contains) then
    let act (n : Nat) : State → State := fun t => t.modCore n (Core.giveUp keep lines.contains)
    s.cores.foldl (fun t c => act c.1 t) s
  else s

/-- A line of the vat is dirty; when a vat is full of dirty lines its oldest one is written back to make room (log 7). -/
def State.markVat (s : State) (k : Nat) : State :=
  if inVat k && !s.vatDirty.contains (lineOf k) then
    { s with vatDirty := boundLines (fun l => s.vatOf l == s.vatOf (lineOf k)) vatLines (lineOf k :: s.vatDirty) }
  else s

/-- A line enters an L1 of 128 sets of 8 ways, whose lines stand newest first; a ninth line of a set takes the oldest's
place (R168, log 7). -/
def enterL1 (l : Nat) (ls : List Nat) : List Nat :=
  if ls.contains l then ls else boundLines (fun x => x % 128 == l % 128) 8 (l :: ls)

/-- A scalar access of a core takes a line into its data L1, or a fetch into its instruction L1. A dirty line that makes
room is written back. -/
def Core.takeLine (ins : Bool) (l : Nat) (c : Core) : Core :=
  if ins then { c with ilines := enterL1 l c.ilines }
  else
    let ls := enterL1 l c.lines
    { c with lines := ls, dirty := c.dirty.filter ls.contains }

def Core.addDirty (l : Nat) (c : Core) : Core := if c.dirty.contains l then c else { c with dirty := l :: c.dirty }

/-- The lines that one filter records: those of its home in any L1. -/
def State.filterUse (s : State) (f : Nat) : List Nat :=
  s.cores.foldl (fun a c => (c.2.lines ++ c.2.ilines).foldl (fun a l => if s.filterOf l = f then insertNat l a else a) a) []

/-- A line enters an L1 of a core. A filter without an entry for it drops another, whose copies are written back and
invalidated (R169, log 7). -/
def State.takeLine (s : State) (core : Nat) (ins : Bool) (l : Nat) : State :=
  if (if ins then (s.core core).ilines else (s.core core).lines).contains l then s
  else
    let s := s.modCore core (Core.takeLine ins l)
    let f := s.filterOf l
    let ls := s.filterUse f
    if filterSize < ls.length then s.filterLines false ((ls.filter (fun x => x != l)).getLast?.toList) else s

/-- A cached access takes its lines (R168): only HBM, the second tier and CXL extents are cached. -/
def State.takeLines (s : State) (core : Nat) (ins : Bool) (ks : List Nat) : State :=
  (linesOf (ks.filter cached)).foldl (fun s l => s.takeLine core ins l) s

/-- A scalar store of a core writes a line: write-allocate (R168). -/
def State.dirtyLine (s : State) (core l : Nat) : State := (s.takeLine core false l).modCore core (Core.addDirty l)

/-! ### Writes at the home -/

/-- One byte is written at its home: memory, the vat's dirty line, a poisoned line's progress. -/
def State.writeByte (s : State) (k : Nat) (b : Byte) : State :=
  (({ s with mem := memWrite s.mem k b }).markVat k).unpoison k

/-- Bytes are written at their homes by an agent other than a scalar store: the filter acts first (R169). -/
def State.writeBytes (s : State) : List Nat → List Byte → State
  | k :: ks, b :: bs => (s.writeByte k b).writeBytes ks bs
  | _, _ => s

/-- A write by the vector path, an engine, the host or a peer (R169). -/
def State.homeWrite (s : State) (ks : List Nat) (bs : List Byte) : State :=
  (s.filterLines false (linesOf ks)).writeBytes ks bs

end Sys2Proof.Machine
end

