-- ==== Sys2Proof/Machine/Bar.lean ====
section
/-! DEFINITION. Barriers: arrivals, announced bytes, deliveries and completion (R34 to R38). -/

namespace Sys2Proof.Machine

/-- Set a bit of the wake latch of the strands that satisfy `p` (R352). -/
def State.wake (s : State) (b : BitVec 6) (p : Strand → Bool) : State :=
  s.mapStrands (fun t => if p t && t.exists_ then { t with latch := t.latch ||| b } else t)

/-! ### Engine completions (R126, R311) -/

/-- The words held in a push or pop port e0 to e3. -/
def Ports.words (p : Ports) : Nat → List Word
  | 0 => p.e0
  | 1 => p.e1
  | 2 => p.e2
  | _ => p.e3

def Ports.setWords (p : Ports) (n : Nat) (ws : List Word) : Ports :=
  match n with
  | 0 => { p with e0 := ws }
  | 1 => { p with e1 := ws }
  | 2 => { p with e2 := ws }
  | _ => { p with e3 := ws }

/-- Completions go to their pop ports in order; one without room, or of a strand that does not run, waits, and one of a strand
that has ended goes with it. -/
def State.giveDone (s : State) : List EngineDone → State
  | [] => s
  | d :: r =>
    let n := if d.coll then 3 else 1
    match s.strand? d.key with
    | none => s.giveDone r
    | some t =>
      if t.life = .ended then s.giveDone r
      else if t.life = .running ∧ (t.ports.words n).length ≤ 30 then
        (s.modStrand d.key (fun t => { t with
          ports := t.ports.setWords n (t.ports.words n ++ [d.w0, d.w1]), latch := t.latch ||| 4 })).giveDone r
      else { s with engineDone := s.engineDone ++ [d] }.giveDone r

def State.giveAll (s : State) : State :=
  match s.engineDone with
  | [] => s
  | ds => { s with engineDone := [] }.giveDone ds

/-- Put an agent's step at the end of the turns: a message on its way (R38). -/
def State.send (s : State) (i : Instr) : State := { s with turns := s.turns ++ [.event i] }

/-- The payload of a barrier message: die, then index (log 11). -/
def barMessage (die : Bool) (idx : BitVec 12) : List Byte :=
  (if die then 1 else 0) :: leBytes 2 idx.toNat

/-- The arrival that a completed barrier sends to its parent (R35, R38). -/
def State.sendParent (s : State) (die : Bool) (b : Barrier) : State :=
  if !b.parv then s
  else if b.parpkg = s.pkgNum then s.send (.barrierArrival b.pardie b.paridx)
  else
    match s.sendFlit die (flowLabel b.parpkg.toNat b.pardie) 2 (barMessage b.pardie b.paridx) with
    | (s, true) => s
    | (s, false) => s.addError 6 (linkNo die 0) 0 b.paridx.toNat 0

/-- The barrier completes if ARRIVED = EXPECTED and PENDING = 0 (R35). -/
def State.settleBar (s : State) (die : Bool) (idx : Nat) : State :=
  let k := barKey die idx
  let b := s.bar k
  if b.expected ≠ 0 ∧ b.arrived = b.expected ∧ b.pending = 0 then
    ((s.setBar k { b with phase := !b.phase, arrived := 0 }).wake 2 (fun t => t.die == die)).sendParent die b
  else s

/-- One arrival (R35 to R37). Answers true when it is discarded. -/
def State.arriveRaw (s : State) (die : Bool) (idx : Nat) : State × Bool :=
  let k := barKey die idx
  let b := s.bar k
  if b.expected = 0 then
    if b.arrived = BitVec.allOnes 16 then (s.setBar k { b with fault := true }, true)
    else (s.setBar k { b with arrived := b.arrived + 1 }, false)
  else if b.expected ≤ b.arrived then (s.setBar k { b with fault := true }, true)
  else ((s.setBar k { b with arrived := b.arrived + 1 }).settleBar die idx, false)

/-- Announce bytes; refused when PENDING would pass 2^40 − 1 (R36). -/
def State.announce (s : State) (die : Bool) (idx n : Nat) : Option State :=
  let k := barKey die idx
  let b := s.bar k
  if 2 ^ 40 ≤ b.pending.toNat + n then none
  else some (s.setBar k { b with pending := BitVec.ofNat 40 (b.pending.toNat + n) })

/-- Bytes are delivered (R35, R36). -/
def State.deliverBytes (s : State) (die : Bool) (idx n : Nat) : State :=
  let k := barKey die idx
  let b := s.bar k
  (s.setBar k { b with pending := BitVec.ofNat 40 (b.pending.toNat - n) }).settleBar die idx

/-- FAULT is set (R36). -/
def State.faultBar (s : State) (die : Bool) (idx : Nat) : State :=
  let k := barKey die idx
  s.setBar k { s.bar k with fault := true }

/-! ### The 16-bit barrier form (R75) -/

def barV (x : BitVec 16) : Bool := x.getLsbD 15
def barPh (x : BitVec 16) : Bool := x.getLsbD 14
def barDie (x : BitVec 16) : Bool := x.getLsbD 12
def barIdx (x : BitVec 16) : Nat := x.toNat % 4096

/-- A wait named in barrier form is satisfied: V = 0, or PHASE equals PH (R77, R37). -/
def State.waitMet (s : State) (x : BitVec 16) : Bool :=
  !barV x || (s.bar (barKey (barDie x) (barIdx x))).phase == barPh x

end Sys2Proof.Machine
end

