-- ==== Sys2Proof/Machine/Held.lean ====
section
/-! DEFINITION. One vector atomic update (R302), and the elements a deterministic strand holds back until its epoch's
drain (R192, R193). -/

namespace Sys2Proof.Machine

/-- The floating-point format of VTYPE when FMT is 0 to 3 and SEW equals its width (R226, R302). -/
def vtFp (vt : Word) : Option Fmt :=
  match Fmt.ofCode (vtFmt vt) with
  | some f => if vtFmt vt ≤ 3 ∧ f.width = vtSew vt then some f else none
  | none => none

/-- The rounding mode of VTYPE with the random word of an element (R143, R149). -/
def vtMode (vt : Word) (r : Nat) : Rm := { code := vtRm vt, r := r }

/-- One update of `vamo`: the new value and the flags (R302). -/
def amoCompute (op : Nat) (vt : Word) (r old v : Nat) : Nat × BitVec 5 :=
  let w := vtSew vt
  let old := old % 2 ^ w
  let v := v % 2 ^ w
  match vtFp vt, op with
  | _, 3 => (v, 0)
  | some f, 0 =>
    let x := (fpAdd (vtMode vt r) (f.decode old) (f.decode v)).round f (vtMode vt r) false
    (x.bits, x.fl)
  | some f, 1 => let x := fpMinMax f false old v; (x.bits, x.fl)
  | some f, _ => let x := fpMinMax f true old v; (x.bits, x.fl)
  | none, 0 => ((old + v) % 2 ^ w, 0)
  | none, 1 => (if toSigned w old ≤ toSigned w v then old else v, 0)
  | none, _ => (if toSigned w old ≤ toSigned w v then v else old, 0)

/-- A later scalar write of the strand has covered a byte of a held element. -/
def HeldElem.covered (h : HeldElem) (k : Nat) : Bool := h.past.any (fun c => c.1 == k)

/-- The bytes that a held element still writes. -/
def HeldElem.live (h : HeldElem) : List Nat := h.keys.filter (fun k => !h.covered k)

/-- A byte as a held atomic finds it: one that a later scalar write has covered as it stood before. -/
def HeldElem.sees (m : Memory) (h : HeldElem) (k : Nat) : Byte :=
  match h.past.find? (fun c => c.1 == k) with
  | some c => c.2
  | none => memRead m k

/-- What a held element's operation gives over a memory image: the value, and the flags that an atomic raises (R302). -/
def HeldElem.outcome (m : Memory) (h : HeldElem) : Nat × BitVec 5 :=
  match h.amo with
  | none => (h.val, 0)
  | some (op, vt, r) => amoCompute op.toNat vt r (leNat (h.keys.map (h.sees m))) h.val

/-- The bytes that a held element's operation gives, over a memory image. -/
def HeldElem.result (m : Memory) (h : HeldElem) : List Byte := leBytes h.keys.length (h.outcome m).1

/-- What a held element writes: keys and bytes. -/
def HeldElem.writes (m : Memory) (h : HeldElem) : List (Nat × Byte) :=
  (h.keys.zip (h.result m)).filter (fun x => !h.covered x.1)

/-- Apply one held element to a memory image (R193). -/
def HeldElem.apply (m : Memory) (h : HeldElem) : Memory :=
  memWriteList m ((h.writes m).map (fun x => x.1)) ((h.writes m).map (fun x => x.2))

/-- The flags that held elements raise when they are applied in order (R145, R193). -/
def heldFlags : Memory → List HeldElem → BitVec 5
  | _, [] => 0
  | m, h :: r => (if h.quiet then 0 else (h.outcome m).2) ||| heldFlags (h.apply m) r

/-- Memory as the strand's own loads see it: its held elements over the homes' contents (R192). -/
def heldView (m : Memory) (hs : List HeldElem) : Memory := hs.foldl HeldElem.apply m

/-- A buffered scalar store over a memory image (R257). -/
def BufferedStore.apply (m : Memory) (b : BufferedStore) : Memory :=
  memWriteList m b.keys (leBytes b.keys.length b.val)

/-- Memory as the strand's own scalar loads see it (R184, R192, R257). -/
def Strand.view (t : Strand) (m : Memory) : Memory := t.sbuf.foldl BufferedStore.apply (heldView m t.held)

/-- Held elements in drain order within a strand: ascending sequence number, then element (R193). -/
def heldBefore (a b : HeldElem) : Bool := seqLt a.seq b.seq || (a.seq == b.seq && a.elem < b.elem)

def insertHeld (h : HeldElem) : List HeldElem → List HeldElem
  | [] => [h]
  | x :: r => if heldBefore h x then h :: x :: r else x :: insertHeld h r

/-- The distinct 64-byte blocks of a strand's held elements (R192). -/
def heldLines (hs : List HeldElem) : List Nat := hs.foldl (fun l h => h.live.foldl (fun l k => insertNat (lineOf k) l) l) []

/-- Perform one held element at its home. -/
def State.performHeld (s : State) (h : HeldElem) : State :=
  s.homeWrite ((h.writes s.mem).map (fun x => x.1)) ((h.writes s.mem).map (fun x => x.2))

def State.performHelds (s : State) : List HeldElem → State
  | [] => s
  | h :: r => (s.performHeld h).performHelds r

/-- Keep some bytes of a held store: the first one's address, the bytes' keys and value. -/
def HeldElem.keep (p : Nat → Bool) (h : HeldElem) : HeldElem :=
  let kept := (h.keys.zip (leBytes h.keys.length h.val)).filter (fun x => p x.1)
  { h with va := h.va + h.keys.findIdx p, keys := kept.map (fun x => x.1), val := leNat (kept.map (fun x => x.2)) }

/-- Keep the bytes of a held store that are not among `ks`. -/
def HeldElem.without (ks : List Nat) (h : HeldElem) : HeldElem := h.keep (fun k => !ks.contains k)

/-- A held element as a later scalar write of some bytes leaves it: a store without them, an atomic that has read them as
they stood in `m` and leaves them alone when it is drained (log 10). -/
def HeldElem.giveWay (m : Memory) (ks : List Nat) (h : HeldElem) : HeldElem :=
  match h.amo with
  | none => h.without ks
  | some _ => { h with past := h.past ++ (h.live.filter (fun k => ks.contains k)).map (fun k => (k, memRead m k)) }

/-- Held elements, in drain order, as a scalar write of some bytes leaves them; `m` is memory as the first one finds it. An
atomic with no byte left to write still raises its flags when it drains. -/
def giveWayAll (ks : List Nat) : Memory → List HeldElem → List HeldElem
  | _, [] => []
  | m, h :: r =>
    let x := h.giveWay m ks
    let rest := giveWayAll ks (h.apply m) r
    if x.live = [] ∧ x.amo = none then rest else x :: rest

/-- A strand writes bytes by a scalar store or atomic: what it holds of them counts as performed just before, so that the
program order of R184 stands, and the write covers it. The elements' other bytes stay held (R194, log 10). -/
def State.settleHeld (s : State) (key : Nat) (ks : List Nat) : State :=
  match s.strand? key with
  | none => s
  | some t =>
    if t.held.any (fun h => h.live.any (fun k => ks.contains k)) then
      s.modStrand key (fun t => { t with held := giveWayAll ks s.mem t.held })
    else s

end Sys2Proof.Machine
end

