-- ==== Sys2Proof/Machine/Xlate.lean ====
section
/-! DEFINITION. Address translation, the window rules, ownership and extents (R14, R42, R161 to R167, R256). -/

namespace Sys2Proof.Machine

inductive AKind where
  | read
  | write
  | atomic
  | fetch
  deriving DecidableEq, Repr

/-- TINFO [2:0] of PAGE, PERM, ACCESS and MISALIGN (R197). -/
def AKind.code : AKind → Nat
  | .read => 1
  | .write => 2
  | .atomic => 4
  | .fetch => 0

/-- Why an access does not go ahead: it is held on the die (R14), it takes a trap, or it meets a stack whose base die and
access rights disagree (R15), at a virtual and a physical address. -/
inductive Stop where
  | hold
  | trap (cause : BitVec 8) (addr : Nat) (info : Nat)
  | mirror (va pa : Nat)
  deriving DecidableEq, Repr

/-! Cause codes of R197. -/
def cILLEGAL : BitVec 8 := 0x01
def cPRIV : BitVec 8 := 0x02
def cTARGET : BitVec 8 := 0x03
def cFETCH : BitVec 8 := 0x04
def cPAGE : BitVec 8 := 0x05
def cPERM : BitVec 8 := 0x06
def cACCESS : BitVec 8 := 0x07
def cMISALIGN : BitVec 8 := 0x08
def cOWNER : BitVec 8 := 0x09
def cEXTENT : BitVec 8 := 0x0A
def cPOISON : BitVec 8 := 0x0B
def cPINSTATE : BitVec 8 := 0x0C
def cPINCAP : BitVec 8 := 0x0D
def cPINRANGE : BitVec 8 := 0x0E
def cPINRIGHTS : BitVec 8 := 0x0F
def cPINREVOKED : BitVec 8 := 0x10
def cDETOVF : BitVec 8 := 0x11
def cMCHECK : BitVec 8 := 0x12
def cSUSPECT : BitVec 8 := 0x13
def cOQCAP : BitVec 8 := 0x14
def cTRAP : BitVec 8 := 0x18
def cBRK : BitVec 8 := 0x19

/-! ### The window region (R162 to R164) -/

def windowBase : Nat := 0x7FFFF000000000
def scratchVa : Nat := 0x7FFFF001000000
def sliceVa : Nat := 0x7FFFF002000000
def romVa : Nat := 0x7FFFF003000000

/-- The slice-table entry of a scratchpad slice: [3] V, [2:0] partition (R164). -/
def sliceEntry (m : Memory) (cl n : Nat) : Nat :=
  let b := (memRead m (sliceKey cl (n / 2))).toNat
  if n % 2 = 0 then b % 16 else b / 16

/-- Where a window address leads; `slice` says whether the access may reach the slice table (a kernel scalar load or
store). -/
def windowKey (s : State) (t : Strand) (kind : AKind) (slice : Bool) (va : Nat) : Except Stop Nat :=
  let bad : Except Stop Nat := .error (.trap cACCESS va kind.code)
  if va < windowBase + 0x80000 then
    let off := va - windowBase
    if t.level = .kernel ∨ (t.tcmBase ≤ off ∧ off < t.tcmBase + t.tcmLen) then .ok (tcmKey t.coreNo off) else bad
  else if scratchVa ≤ va ∧ va < scratchVa + 0x800000 then
    let off := va - scratchVa
    if sliceEntry s.mem t.cluster (off / 0x10000) = 8 + t.part.toNat then .ok (scratchKey t.cluster off) else bad
  else if sliceVa ≤ va ∧ va < sliceVa + 64 then
    if slice ∧ t.level = .kernel ∧ (kind = .read ∨ kind = .write) then .ok (sliceKey t.cluster (va - sliceVa)) else bad
  else if romVa ≤ va ∧ va < romVa + 0x10000 then
    if kind = .read ∨ kind = .fetch then .ok (romKey (va - romVa)) else bad
  else bad

/-! ### Ownership and extents -/

/-- What a die's request to a physical address meets before it leaves (R14, R15, R42, R161). `va` is the address a trap
reports. -/
def physCheck (s : State) (die : Bool) (kind : AKind) (va pa : Nat) : Except Stop Nat :=
  match region pa with
  | .hbm st =>
    match ((s.stack st).right die).state with
    | .absent => .error (.trap cOWNER va st)
    | .handing => .error .hold
    | .owned => if (s.stack st).owner = die then .ok pa else .error (.mirror va pa)
  | .cxl =>
    match findExtent pa s.extents with
    | some e => if e.releasing.isSome then .error (.trap cEXTENT va 0) else .ok pa
    | none => .error (.trap cEXTENT va 0)
  | .outside => .error (.trap cACCESS va kind.code)
  | .window => .error (.trap cACCESS va kind.code)
  | _ => .ok pa

/-- What the base die records of a mirror mismatch: the stack, and the address (R15, R64). -/
def State.mirror (s : State) (x : Stop) : State :=
  match x with
  | .mirror _ pa => s.addError 4 (errSource pa) 0 0 pa
  | _ => s

/-! ### Page tables (R165, R166) -/

/-- Bytes a leaf of a level maps: level 0 is the third level of R165 (64 KiB), 2 the root (4 TiB). -/
def levelShift (n : Nat) : Nat := 16 + 13 * n

/-- A page-table entry, read by the walker from memory, bypassing the L1 (R167). R20 names the accesses that a poisoned line
stops, and a walk is none of them: the walker takes the stored bytes (log 25). -/
def readPte (s : State) (die : Bool) (va addr : Nat) (kind : AKind) : Except Stop Nat :=
  match physCheck s die kind va addr with
  | .error e => .error e
  | .ok _ => .ok (memNat s.mem addr 8)

/-- The walk from a table at `table` for the levels below `n` (R165, R166). -/
def walk (s : State) (die : Bool) (kind : AKind) (va : Nat) : Nat → Nat → Except Stop TlbEntry
  | 0, _ => .error (.trap cPAGE va kind.code)
  | n + 1, table =>
    match readPte s die va (table + 8 * fld va (levelShift n) 13) kind with
    | .error e => .error e
    | .ok pte =>
      if pte % 2 = 0 ∨ fld pte 6 10 ≠ 0 ∨ fld pte 52 12 ≠ 0 then .error (.trap cPAGE va kind.code)
      else
        let frame := fld pte 16 36 * 0x10000
        if fld pte 1 3 = 0 then walk s die kind va n frame
        else if frame % 2 ^ levelShift n ≠ 0 then .error (.trap cPAGE va kind.code)
        else
          .ok { part := 0, level := n, vpn := va / 2 ^ levelShift n, frame := frame, rights := BitVec.ofNat 6 pte }

/-- Whether a leaf grants an access (R166): bit 1 RD, 2 W, 3 X, 4 U, 5 AT. -/
def grants (level : Level) (kind : AKind) (r : BitVec 6) : Bool :=
  (level == .kernel || r.getLsbD 4) &&
  (match kind with
    | .read => r.getLsbD 1
    | .write => r.getLsbD 2
    | .atomic => r.getLsbD 1 && r.getLsbD 2 && r.getLsbD 5
    | .fetch => r.getLsbD 3)

/-! ### The scalar TLB (R167) -/

def tlbFind (part : BitVec 3) (va : Nat) : List TlbEntry → Option TlbEntry
  | [] => none
  | e :: r => if e.part = part ∧ e.vpn = va / 2 ^ levelShift e.level then some e else tlbFind part va r

/-- The leaf that maps an address: from the core's TLB, else by a walk from PTBASE. -/
def findLeaf (s : State) (t : Strand) (kind : AKind) (va : Nat) : Except Stop TlbEntry :=
  match tlbFind t.part va (s.core t.coreNo).tlb with
  | some e => .ok e
  | none =>
    match walk s t.die kind va 3 t.ctl.ptbase.toNat with
    | .ok e => .ok { e with part := t.part }
    | .error e => .error e

/-- One byte of a scalar access (R161 to R166, R14). -/
def checkByte (s : State) (t : Strand) (kind : AKind) (va : Nat) : Except Stop Nat :=
  if 2 ^ 55 ≤ va then .error (.trap cACCESS va kind.code)
  else if windowBase ≤ va then windowKey s t kind true va
  else
    match findLeaf s t kind va with
    | .error e => .error e
    | .ok e =>
      if grants t.level kind e.rights then physCheck s t.die kind va (e.frame + va % 2 ^ levelShift e.level)
      else .error (.trap cPERM va kind.code)

/-- Every byte of a scalar access, in ascending order; all must lie in one row of R161 (R256). -/
def checkBytes (s : State) (t : Strand) (kind : AKind) (row : Option Nat) : Nat → Word → Except Stop (List Nat)
  | 0, _ => .ok []
  | n + 1, va =>
    match checkByte s t kind va.toNat with
    | .error e => .error e
    | .ok k =>
      if row.isSome ∧ row ≠ some (region k).row then .error (.trap cACCESS va.toNat kind.code)
      else
        match checkBytes s t kind (some (region k).row) n (va + 1) with
        | .error e => .error e
        | .ok ks => .ok (k :: ks)

/-- POISON at the first byte of an access that lies in a poisoned line (R20). -/
def poisonStop (s : State) (va : Word) (ks : List Nat) : Option Stop :=
  (firstPoison s ks 0).map (fun i => .trap cPOISON (va + BitVec.ofNat 64 i).toNat 0)

/-- The keys of a scalar access of n bytes, or why it stops. A load or atomic takes POISON (R20, R256). -/
def scalarKeys (s : State) (t : Strand) (kind : AKind) (n : Nat) (va : Word) : Except Stop (List Nat) :=
  match checkBytes s t kind none n va with
  | .error e => .error e
  | .ok ks =>
    if kind = .write then .ok ks
    else
      match poisonStop s va ks with
      | some x => .error x
      | none => .ok ks

/-- Put the leaf of a translated address into the core's TLB; the oldest entry makes room (log 7). -/
def State.fillTlb (s : State) (t : Strand) (kind : AKind) (va : Nat) : State :=
  if windowBase ≤ va then s
  else
    match tlbFind t.part va (s.core t.coreNo).tlb with
    | some _ => s
    | none =>
      match findLeaf s t kind va with
      | .ok e => s.modCore t.coreNo (fun c => { c with tlb := (e :: c.tlb).take 128 })
      | .error _ => s

end Sys2Proof.Machine
end

