-- ==== Sys2Proof/Machine/Viq.lean ====
section
/-! DEFINITION. The vector instruction queue: entries, element groups, progress, the read queue (R98 to R107, R113,
R114). What a group computes stands in the vector files. -/

namespace Sys2Proof.Machine

/-! ### Classes of vector instruction -/

/-- The g register a vector instruction returns a value to (R99). -/
def rqDest : Instr → Option Reg
  | .vredsum _ d _ => some d
  | .vredmin _ d _ => some d
  | .vredmax _ d _ => some d
  | .vredminu _ d _ => some d
  | .vredmaxu _ d _ => some d
  | .vredand _ d _ => some d
  | .vredor _ d _ => some d
  | .vredxor _ d _ => some d
  | .vfredsum _ d _ => some d
  | .vfredmin _ d _ => some d
  | .vfredmax _ d _ => some d
  | .vfredsumW _ d _ => some d
  | .ppop _ d _ => some d
  | .pfirst _ d _ => some d
  | .vmvsv _ d _ _ => some d
  | _ => none

/-- The accesses a VIQ entry makes through a pin: it reads memory, it writes memory, or both (R186). -/
structure MemUse where
  pins : List (BitVec 3)
  reads : Bool
  writes : Bool
  deriving DecidableEq, Repr

def MemUse.none : MemUse := { pins := [], reads := false, writes := false }
def MemUse.load (k : BitVec 3) : MemUse := { pins := [k], reads := true, writes := false }
def MemUse.store (k : BitVec 3) : MemUse := { pins := [k], reads := false, writes := true }
def MemUse.both (k : BitVec 3) : MemUse := { pins := [k], reads := true, writes := true }

/-- What memory an instruction uses (R170, R186). `oq` says it of one whose accumulator decides: an append, an application,
`oqform`. -/
def memUse (oq : BitVec 1 → MemUse) : Instr → MemUse
  | .vld _ _ k _ _ => .load k
  | .vlds _ _ k _ _ _ => .load k
  | .vldx _ _ k _ _ _ => .load k
  | .vldseg _ _ k _ _ _ _ => .load k
  | .vst _ _ _ k _ _ => .store k
  | .vsts _ _ _ k _ _ _ => .store k
  | .vstx _ _ _ k _ _ _ => .store k
  | .vstseg _ _ _ k _ _ _ => .store k
  | .vamoAdd _ _ k _ _ _ => .both k
  | .vamoMin _ _ k _ _ _ => .both k
  | .vamoMax _ _ k _ _ _ => .both k
  | .vamoSwap _ _ k _ _ _ => .both k
  | .vgscr _ _ k _ _ _ => .load k
  | .tmma _ _ _ _ _ _ _ _ ka kb _ => { pins := [ka, kb], reads := true, writes := false }
  | .tmmaV _ _ _ _ _ _ _ _ ka kb _ => { pins := [ka, kb], reads := true, writes := false }
  | .tmmas _ _ _ _ _ _ _ _ ka kb _ => { pins := [ka, kb], reads := true, writes := false }
  | .tld _ _ _ _ _ _ ka => .load ka
  | .tst _ _ _ _ _ ka => .store ka
  | .tcon _ _ _ _ _ _ ka kb => { pins := [ka, kb], reads := true, writes := false }
  | .tsave _ _ ka => .store ka
  | .trest _ _ ka => .load ka
  | .oqapl q _ _ _ _ => oq q
  | .oqapr q _ _ _ _ => oq q
  | .oqacc q _ _ => oq q
  | .oqhh q _ _ _ => oq q
  | .oqform q => oq q
  | .oqsave _ _ m => .store m
  | .oqrest _ _ m => .load m
  | _ => .none

/-- The accumulator an instruction of the orthogonal unit names. -/
def orthAcc : Instr → Option (BitVec 1)
  | .oqinit q _ _ _ _ _ _ _ => some q
  | .oqacc q _ _ => some q
  | .oqhh q _ _ _ => some q
  | .oqapl q _ _ _ _ => some q
  | .oqapr q _ _ _ _ => some q
  | .oqapv q _ _ _ => some q
  | .oqform q => some q
  | .oqsave q _ _ => some q
  | .oqrest q _ _ => some q
  | .oqcnt q _ => some q
  | .oqrd q _ _ => some q
  | _ => none

/-- Whether there is a target (R340). -/
def Orth.hasTarget (o : Orth) : Bool := o.bside != 3 && o.bpin != 0 && o.bcols != 0

/-- A target read and written through one pin, a log written through another (R338). -/
def targetUse (target log : List (BitVec 3)) : MemUse :=
  { pins := target ++ log, reads := target != [], writes := target != [] || log != [] }

def Orth.use (o : Orth) : MemUse := targetUse (if o.hasTarget then [o.bpin] else []) (if o.lmax = 0 then [] else [o.lpin])

/-- The accumulator as `oqinit` leaves it (R340). -/
def Caps.orthInit (c : Caps) (m : BitVec 3) (n : BitVec 14) (cap : BitVec 6) (pol : BitVec 2) : Orth :=
  { n := n.setWidth 10, fp64 := vtFmt c.vtype == 0, k := 0, cap := if cap = 0 then 32 else cap, pol := pol, v := [],
    t := [], bva := c.ga.setWidth 55, bstride := c.gb.setWidth 32, bcols := (c.gb >>> 32).setWidth 16,
    bpin := (c.gb >>> 48).setWidth 3, bside := (c.gb >>> 56).setWidth 2, lva := (c.gd.setWidth 48).setWidth 55, lpin := m,
    lcount := 0, lmax := if m = 0 then 0 else (c.gd >>> 48).setWidth 16 }

/-- An append of an entry finds the capacity used up and retires the block, or is in the middle of doing so (R342). -/
def Orth.retires (o : Orth) (e : VEntry) : Bool := e.logged || (o.k == o.cap && o.pol == 1 && o.lcount != o.lmax)

/-- `oqform` of an entry writes the block, or is in the middle of doing so (R346). -/
def Orth.forms (o : Orth) (e : VEntry) : Bool := e.logged || e.prog != 0 || (o.k != 0 && (o.lmax == 0 || decide (o.lcount < o.lmax)))

/-- `oqhh` names a pivot that the accumulator has (R343). -/
def Orth.hasPivot (o : Orth) (e : VEntry) : Bool := decide (e.caps.gb.toNat < o.n.toNat)

/-- K and LCOUNT after an append of an entry. -/
def Orth.appended (o : Orth) (e : VEntry) : Orth :=
  if o.retires e then { o with k := 1, lcount := if e.logged then o.lcount else o.lcount + 1 }
  else if o.k = o.cap then o
  else { o with k := o.k + 1 }

/-- An accumulator after `oqform`. -/
def Orth.formed (o : Orth) (e : VEntry) : Orth :=
  if o.forms e then { o with k := 0, lcount := if !e.logged && o.lmax != 0 then o.lcount + 1 else o.lcount } else o

/-- What is known of an accumulator before an entry runs: everything, that it is empty, or nothing since an `oqrest` has still to
read it from memory. -/
inductive OrthView where
  | known (o : Orth)
  | empty
  | unknown
  deriving DecidableEq, Repr

/-- What is known after an entry. -/
def OrthView.after (v : OrthView) (e : VEntry) : OrthView :=
  match e.instr, v with
  | .oqinit _ _ _ _ m n cap pol, _ => .known (e.caps.orthInit m n cap pol)
  | .oqrest _ _ _, _ => .unknown
  | .oqacc _ _ _, .known o => .known (o.appended e)
  | .oqhh _ _ _ _, .known o => .known (if o.hasPivot e then o.appended e else o)
  | .oqform _, .known o => .known (o.formed e)
  | .oqform _, _ => .empty
  | .oqacc _ _ _, _ => .unknown
  | .oqhh _ _ _ _, _ => .unknown
  | _, _ => v

/-- What an application through a pin uses: nothing without columns or without lines (R344, R345). -/
def VEntry.lineUse (e : VEntry) (m : BitVec 3) (empty : Bool) : MemUse :=
  if empty || (e.caps.gb >>> 32).setWidth 16 == (0 : BitVec 16) then .none else .both m

/-- What an entry uses of memory when it finds its accumulator so: only a retirement, a block that is formed, or an
application of some columns to some lines makes accesses (R341 to R346). -/
def Orth.useOf (o : Orth) (e : VEntry) : MemUse :=
  match e.instr with
  | .oqacc _ _ _ => if o.retires e then o.use else .none
  | .oqhh _ _ _ _ => if o.hasPivot e && o.retires e then o.use else .none
  | .oqform _ => if o.forms e then o.use else .none
  | .oqapl _ _ _ m _ => e.lineUse m (o.k == 0)
  | .oqapr _ _ _ m _ => e.lineUse m (o.k == 0)
  | _ => .none

/-- The same under what is known. An empty accumulator takes an append and has nothing to form or apply; of an unknown one an
append or `oqform` may use any pin that the image names (log 63). -/
def OrthView.useOf (v : OrthView) (e : VEntry) : MemUse :=
  match v with
  | .known o => o.useOf e
  | .empty => .none
  | .unknown =>
    match e.instr with
    | .oqapl _ _ _ m _ => e.lineUse m false
    | .oqapr _ _ _ m _ => e.lineUse m false
    | _ => { pins := [1, 2, 3, 4, 5, 6, 7], reads := true, writes := true }

/-- A strand's entries in the order in which they run: those it was saved with, its queue, then those frozen by the trap
being handled (R200, R204). -/
def Strand.runOrder (t : Strand) : List VEntry := t.shadow.drop t.frozen ++ t.viq ++ t.shadow.take t.frozen

/-- What an entry uses of memory through its accumulator, given the entries before it that have still to change that one. -/
def Strand.oqUse (t : Strand) (e : VEntry) (q : BitVec 1) : MemUse :=
  match t.orths[q.toNat]? with
  | none => .none
  | some o =>
    let ahead := (t.runOrder.takeWhile (fun x => x.seq != e.seq)).filter (fun x => !x.complete && orthAcc x.instr == some q)
    (ahead.foldl OrthView.after (.known o)).useOf e

/-- A `tld` of a tile that lies wholly outside its tensor: it reads no memory (R330). -/
def VEntry.padOnly (e : VEntry) : Bool :=
  match e.instr with
  | .tld _ _ _ _ _ _ _ => fld e.caps.gb.toNat 0 32 == 0 || fld e.caps.gb.toNat 32 32 == 0
  | _ => false

def Strand.memUse (t : Strand) (e : VEntry) : MemUse :=
  let u := if e.padOnly then .none else Machine.memUse (t.oqUse e) e.instr
  { u with pins := u.pins.filter (fun k => k != 0) }

/-- Work of the memory pipe, the matrix engine or the orthogonal unit: not duplicated by the mordant pass (R113). -/
def singleRun : Instr → Bool
  | .vepop _ _ _ _ => true
  | .tcfg _ => true
  | .tzero _ => true
  | .trow _ _ _ _ => true
  | .tcol _ _ _ _ => true
  | .tchk _ _ _ _ => true
  | .tstat _ _ => true
  | .oqinit _ _ _ _ _ _ _ _ => true
  | .oqapv _ _ _ _ => true
  | .oqcnt _ _ => true
  | .oqrd _ _ _ => true
  | i => decide ((memUse (fun _ => .both 1) i).reads = true) || decide ((memUse (fun _ => .both 1) i).writes = true)

/-- Work of the special-function slices (R102). -/
def isSfu : Instr → Bool
  | .vexp2 _ _ _ => true
  | .vlog2 _ _ _ => true
  | .vrcp _ _ _ => true
  | .vrsqrt _ _ _ => true
  | .vsinpi _ _ _ => true
  | .vcospi _ _ _ => true
  | .vtanh _ _ _ => true
  | .vsigm _ _ _ => true
  | .vgelu _ _ _ => true
  | .verf _ _ _ => true
  | _ => false

/-! ### Entries -/

def findEntry (seq : BitVec 32) : List VEntry → Option VEntry
  | [] => none
  | e :: r => if e.seq = seq then some e else findEntry seq r

def Strand.entry? (t : Strand) (seq : BitVec 32) : Option VEntry := findEntry seq t.viq

def Strand.modEntry (t : Strand) (seq : BitVec 32) (f : VEntry → VEntry) : Strand :=
  { t with viq := t.viq.map (fun e => if e.seq = seq then f e else e) }

/-- The entries posted before one, in sequence order. -/
def entriesBefore (seq : BitVec 32) : List VEntry → List VEntry
  | [] => []
  | e :: r => if e.seq = seq then [] else e :: entriesBefore seq r

/-! ### Vector register contents -/

/-- Replace `len` bytes at byte `at_` of a register image. -/
def setBytes (v : BitVec 32768) (at_ len val : Nat) : BitVec 32768 :=
  let m : BitVec 32768 := BitVec.ofNat 32768 ((2 ^ (8 * len) - 1) * 2 ^ (8 * at_))
  (v &&& ~~~m) ||| (BitVec.ofNat 32768 (val % 2 ^ (8 * len)) <<< (8 * at_))

/-- `len` bytes at byte `at_` of a register image. -/
def getBytes (v : BitVec 32768) (at_ len : Nat) : Nat := (v.extractLsb' (8 * at_) (8 * len)).toNat

def setBit (v : BitVec 32768) (i : Nat) (b : Bool) : BitVec 32768 :=
  let m : BitVec 32768 := BitVec.twoPow 32768 i
  if b then v ||| m else v &&& ~~~m

/-- Perform one write in the registers; p0 is never written (R122). -/
def Strand.applyWrite (t : Strand) : EWrite → Strand
  | .v r at_ len val => { t with v := t.v.setIfInBounds r (setBytes (t.v.getD r 0) at_ len val) }
  | .p r i b => if r = 0 then t else { t with p := t.p.setIfInBounds r (setBit (t.p.getD r 0) i b) }

def Strand.applyWrites (t : Strand) (ws : List EWrite) : Strand := ws.foldl Strand.applyWrite t

/-- A write that reaches a byte of a register. -/
def EWrite.hits (reg byte : Nat) : EWrite → Bool
  | .v r at_ len _ => r == reg && decide (at_ ≤ byte) && decide (byte < at_ + len)
  | .p _ _ _ => false

/-- Writes that together rewrite a whole row: register and element group. -/
def rewrites (ws : List EWrite) (x : Nat × Nat) : Bool :=
  (List.range 16).all (fun b => ws.any (EWrite.hits x.1 (16 * x.2 + b)))

/-- A group's writes; a row of the register file that is rewritten whole is sound again. -/
def Strand.applyGroup (t : Strand) (g : GroupRes) : Strand :=
  let u := t.applyWrites g.writes
  if u.badRows = [] then u else { u with badRows := u.badRows.filter (fun x => !rewrites g.writes x) }

def Strand.applyGroups (t : Strand) (gs : List GroupRes) : Strand := gs.foldl Strand.applyGroup t

/-! ### Operand buffers (R115) -/

/-- The rows of a register that a write reaches. -/
def EWrite.rows : EWrite → List (Nat × Nat)
  | .v r at_ len _ => (List.range (ceilDiv (at_ + len) 16 - at_ / 16)).map (fun i => (r, at_ / 16 + i))
  | .p _ _ _ => []

/-- The rows that writes reach. -/
def rowsOf (ws : List EWrite) : List (Nat × Nat) := ((ws.map EWrite.rows).flatten).eraseDups

/-- Records of a lane beyond the first n are gone. -/
def boundOps (lane : Nat) : Nat → List OpRec → List OpRec
  | _, [] => []
  | n, x :: r =>
    if x.lane = lane then (if n = 0 then boundOps lane 0 r else x :: boundOps lane (n - 1) r) else x :: boundOps lane n r

/-- A lane's operand buffer takes one more arithmetic micro-operation: it holds the last 8. -/
def pushOp (lane : Nat) (seq : BitVec 32) (rows : List (Nat × Nat)) (ops : List OpRec) : List OpRec :=
  boundOps lane 8 ({ lane := lane, seq := seq, rows := rows } :: ops)

/-- Records that satisfy `p` no longer stand for some rows. -/
def dropRows (p : OpRec → Bool) (rows : List (Nat × Nat)) (ops : List OpRec) : List OpRec :=
  ops.map (fun x => if p x then { x with rows := x.rows.filter (fun y => !rows.contains y) } else x)

/-- What a finished group leaves in the buffers: work of the arithmetic pipe enters its lane's, and its copies the next lanes'
(R113). A row that several groups of the entry write counts for the last. -/
def Strand.noteOps (t : Strand) (e : VEntry) (r : GroupRes) (copies : Nat) : Strand :=
  if singleRun e.instr || isSfu e.instr then t
  else
    let rows := rowsOf r.writes
    let w := Nat.max t.lgw 1
    let ops := pushOp (r.g % w) e.seq rows (dropRows (fun x => x.seq == e.seq) rows t.opBuf)
    { t with opBuf := (List.range copies).foldl (fun l i => pushOp ((r.g + i + 1) % w) e.seq [] l) ops }

/-- The rows that an entry's completed groups have written. -/
def VEntry.wrote (e : VEntry) (x : Nat × Nat) : Bool := e.done.any (fun r => (rowsOf r.writes).contains x)

/-- The version of a row that an entry reads, or the newest one for none: that of the last earlier entry that has written it,
else the register file's (R101, R105). -/
def Strand.versionOf (t : Strand) (seq : Option (BitVec 32)) (x : Nat × Nat) : Option (BitVec 32) :=
  let es : List VEntry := match seq with | some q => entriesBefore q t.viq | none => t.viq
  ((es.filter (fun e => e.wrote x)).getLast?).map (fun e => e.seq)

/-- The micro-operation that wrote a version of a row still stands in its lane's buffer, so that it can run again. What the
register file holds was written by an entry that has left the queue. -/
def Strand.producerHeld (t : Strand) (ver : Option (BitVec 32)) (x : Nat × Nat) : Bool :=
  t.opBuf.any (fun o => o.rows.contains x &&
    (match ver with | some q => o.seq == q | none => !t.viq.any (fun e => e.seq == o.seq)))

/-- A version of a row is lost. -/
def Strand.markRow (t : Strand) (ver : Option (BitVec 32)) (x : Nat × Nat) : Strand :=
  match ver with
  | none => { t with badRows := insertRow x t.badRows }
  | some q => t.modEntry q (fun e => { e with bad := insertRow x e.bad })
where insertRow (x : Nat × Nat) (l : List (Nat × Nat)) : List (Nat × Nat) := if l.contains x then l else x :: l

def Strand.isLost (t : Strand) (ver : Option (BitVec 32)) (x : Nat × Nat) : Bool :=
  match ver with
  | none => t.badRows.contains x
  | some q => t.viq.any (fun e => e.seq == q && e.bad.contains x)

/-- A version of a row is sound again. -/
def Strand.mendRow (t : Strand) (ver : Option (BitVec 32)) (x : Nat × Nat) : Strand :=
  match ver with
  | none => { t with badRows := t.badRows.filter (fun y => y != x) }
  | some q => t.modEntry q (fun e => { e with bad := e.bad.filter (fun y => y != x) })

/-- An entry's groups over the registers, its lost rows among them. -/
def Strand.applyEntry (t : Strand) (e : VEntry) (gs : List GroupRes) : Strand :=
  let u := t.applyGroups gs
  if e.bad = [] then u
  else { u with badRows := e.bad.filter (fun x => gs.any (fun r => (rowsOf r.writes).contains x)) ++ u.badRows }

/-- An entry's version becomes the register file's: its groups `gs` stay and any others are dropped. The producers of rows so
written are the entry's own (R115). -/
def Strand.settle (t : Strand) (e : VEntry) (gs : List GroupRes) : Strand :=
  let kept := (gs.map (fun r => rowsOf r.writes)).flatten
  let lost := (e.done.map (fun r => rowsOf r.writes)).flatten.filter (fun x => !kept.contains x)
  let u := t.applyEntry e gs
  if t.opBuf = [] then u
  else { u with opBuf := dropRows (fun x => x.seq == e.seq) lost (dropRows (fun x => x.seq != e.seq &&
      !t.viq.any (fun y => y.seq == x.seq)) kept t.opBuf) }

/-- The registers as an entry sees them: every earlier entry's completed groups over the register file (R104, R105). -/
def Strand.before (t : Strand) (seq : BitVec 32) : Strand :=
  (entriesBefore seq t.viq).foldl (fun u e => u.applyEntry e e.done) t

/-- The rows that an entry finds lost. -/
def Strand.lostRows (t : Strand) (seq : BitVec 32) : List (Nat × Nat) :=
  if t.badRows = [] ∧ t.viq.all (fun e => e.bad == []) then [] else (t.before seq).badRows

/-- Rows that an entry reads are rewritten (R115): the mark goes from the version that it reads, and from the register file where
that version keeps some of its bytes. -/
def Strand.mend (t : Strand) (seq : BitVec 32) (rows : List (Nat × Nat)) : Strand :=
  rows.foldl (fun t x =>
    let u := t.mendRow (t.versionOf (some seq) x) x
    if (u.lostRows seq).contains x then u.mendRow none x else u) t

/-- Elements to a group of an entry (R96). -/
def VEntry.G (e : VEntry) : Nat := vtG e.caps.vtype

/-- The groups of an entry below its progress. -/
def VEntry.finalGroups (e : VEntry) : List GroupRes :=
  if e.complete then e.done else e.done.filter (fun r => decide (r.g * e.G < e.prog))

/-- The architectural value of the registers at a stop: each entry's groups below its progress (R104). -/
def Strand.architectural (t : Strand) : Strand := t.viq.foldl (fun u e => u.applyEntry e e.finalGroups) t

/-- What the operand buffers still stand for once the queue's entries leave it at a stop: the rows of the registers'
architectural value (R115). -/
def Strand.settledOps (t : Strand) : List OpRec :=
  if t.opBuf = [] then []
  else (t.viq.foldl (fun (u : Strand) e =>
    { u with viq := u.viq.filter (fun x => x.seq != e.seq) }.settle e e.finalGroups) t).opBuf

/-! ### Completion of groups -/

/-- Whether an entry's group holds an element that acts: below VL, its predicate bit set, not skipped. -/
def VEntry.active (e : VEntry) (p : BitVec 32768) (i : Nat) : Bool :=
  decide (i < e.caps.vl.toNat) && p.getLsbD i && e.skip != some i

/-- Count up to a counter's largest value (R133). -/
def satInc (x top : Nat) : Nat := if x < top then x + 1 else x

def chkAdd (c : Word) (compares votes mchecks : Nat) : Word :=
  let n := c.toNat
  let a := Nat.min (fld n 32 32 + compares) (2 ^ 32 - 1)
  let b := Nat.min (fld n 16 16 + votes) (2 ^ 16 - 1)
  let d := Nat.min (fld n 0 16 + mchecks) (2 ^ 16 - 1)
  BitVec.ofNat 64 (a * 2 ^ 32 + b * 2 ^ 16 + d)

/-- A machine check is counted in CHKCNT (R133); one of a strand that does not run, when it has resumed (R203). -/
def Strand.countCheck (t : Strand) : Strand :=
  if t.life = .running then { t with ctl := { t.ctl with chkcnt := chkAdd t.ctl.chkcnt 0 0 1 } }
  else { t with checks := t.checks + 1 }

def Strand.orFlags (t : Strand) (fl gs : BitVec 5) : Strand :=
  { t with ctl := { t.ctl with fstat := t.ctl.fstat ||| fl.setWidth 64, gstat := t.ctl.gstat ||| gs.setWidth 64 } }

/-- Flags that held atomics raise at their drain; those of a saved strand, when it has resumed (R145, R209, log 69). -/
def Strand.drainFlags (t : Strand) (fl : BitVec 5) : Strand :=
  if t.life = .saved then { t with drained := t.drained ||| fl } else t.orFlags fl 0

/-- A trap that no VIQ entry reports. -/
def scalarTrap (cause : BitVec 8) (addr info : Nat) : TrapInfo :=
  { cause := cause, vec := false, seq := 0, elem := 0, addr := BitVec.ofNat 64 addr, info := BitVec.ofNat 62 info }

/-- A request on a strand's behalf meets a mirror mismatch: the base die's record, and a machine check of the strand (R15,
R133). -/
def State.mirrorCheck (s : State) (key : Nat) (x : Stop) : State :=
  match x with
  | .mirror va _ =>
    (s.mirror x).modStrand key (fun t => { t.countCheck with mcheck := some (scalarTrap cMCHECK va 2) })
  | _ => s

/-- A request on a strand's behalf that no instruction at its pc makes: what stops it is due at the strand's next boundary,
unless a trap is due there already (log 16, log 31). -/
def State.storeFault (s : State) (key : Nat) (x : Stop) : State :=
  match x with
  | .hold => s
  | .mirror _ _ => s.mirrorCheck key x
  | .trap c a i => s.modStrand key (fun t => { t with mcheck := some (t.mcheck.getD (scalarTrap c a i)) })

/-- Record a fault against an entry, keeping the lowest element met (R107, R110). -/
def VEntry.addFault (e : VEntry) (f : VFault) : VEntry :=
  match e.fault with
  | none => { e with fault := some f }
  | some o => if f.elem < o.elem then { e with fault := some f } else e

/-- Flip the bits of a lane's wrong result (R113, log 12). -/
def flipFirst (x : Nat) : List EWrite → List EWrite
  | .v r a l val :: ws => .v r a l (val ^^^ x) :: ws
  | .p r i b :: ws => .p r i (b != x.testBit 0) :: ws
  | [] => []

/-- One issued group's result is compared, written and counted (R104, R113, R114). -/
def Strand.finishGroup (t : Strand) (seq : BitVec 32) (g : Nat) : Strand :=
  match t.entry? seq with
  | none => t
  | some e =>
    match e.inflight.find? (fun r => r.g == g) with
    | none => t
    | some r =>
      let t := t.modEntry seq (fun e => { e with inflight := e.inflight.filter (fun r => r.g != g) })
      let check := e.caps.check.toNat % 4
      let dup := decide (check ≠ 0) && !singleRun e.instr
      let count (v m : Nat) (t : Strand) : Strand := { t with ctl := { t.ctl with chkcnt := chkAdd t.ctl.chkcnt 1 v m } }
      let write (copies : Nat) (r : GroupRes) (t : Strand) : Strand :=
        ((t.modEntry seq (fun e => { e with done := e.done ++ [{ r with flip := none }] })).orFlags r.fl r.gs).noteOps e r copies
      match r.flip, dup with
      | none, false => write 0 r t
      | none, true => count 0 0 (write 1 r t)
      | some (x, _), false => write 0 { r with writes := flipFirst x r.writes } t
      | some (_, vote), true =>
        if check = 2 ∧ vote then count 1 0 (write 2 r t)
        else
          (count 0 1 t).modEntry seq (fun e => e.addFault { cause := cMCHECK, elem := g * e.G, addr := 0, info := 0 })

/-- Every issued group completes (R200). -/
def Strand.finishAll (t : Strand) : Strand :=
  t.viq.foldl (fun u e => e.inflight.foldl (fun w r => w.finishGroup e.seq r.g) u) t

/-! ### Leaving the queue -/

/-- Deliver the read queue's head while its value has arrived (R99); the entry then holds it no longer (R208). -/
def Strand.deliver : Nat → Strand → Strand
  | 0, t => t
  | n + 1, t =>
    match t.rq with
    | [] => t
    | q :: r =>
      match q.value with
      | none => t
      | some v => Strand.deliver n (({ t with rq := r }.modEntry q.seq (fun e => { e with value := none })).setG q.dest v)

/-- Entries leave from the head: complete, delivered, no fault recorded (R107). -/
def Strand.leave : Nat → Strand → Strand
  | 0, t => t
  | n + 1, t =>
    match t.viq with
    | [] => t
    | e :: r =>
      if e.complete ∧ e.fault.isNone ∧ !t.rq.any (fun q => q.seq == e.seq) then
        Strand.leave n ({ t with viq := r }.settle e e.done)
      else t

/-- Deliver what has arrived and let finished entries leave. -/
def Strand.tidy (t : Strand) : Strand := Strand.leave 64 (Strand.deliver 8 t)

/-- An entry completes, with the value it returns (R107, R99). -/
def Strand.finishEntry (t : Strand) (seq : BitVec 32) (v : Option Word) : Strand :=
  let t := t.modEntry seq (fun e => { e with complete := true, value := v })
  { t with rq := t.rq.map (fun (q : RqSlot) => if q.seq = seq then { q with value := some (v.getD 0) } else q) }.tidy

/-- The recorded fault that is taken: an MCHECK first, else the lowest sequence number, then the lowest element
(R199). -/
def Strand.dueFault (t : Strand) : Option (VEntry × VFault) :=
  let pick (es : List VEntry) (ok : VFault → Bool) : Option (VEntry × VFault) :=
    es.findSome? (fun e => match e.fault with | some f => if ok f then some (e, f) else none | none => none)
  match pick t.viq (fun f => f.cause == cMCHECK) with
  | some x => some x
  | none => pick t.viq (fun _ => true)

/-- Every earlier entry has completed (R100, R360). -/
def Strand.viqDone (t : Strand) : Bool := t.viq.all (fun e => e.complete)

end Sys2Proof.Machine
end

