-- ==== Sys2Proof/Machine/Save.lean ====
section
/-! DEFINITION. The strand save area and the VIQ records (R85, R206 to R211). What the layout of R208 does not hold of an
entry is kept in Strand.shadow (log 13). -/

namespace Sys2Proof.Machine

noncomputable section

/-! ### Places in the save region (R85, R206) -/

/-- The key of a byte of a strand's save area, through the frames that the farm's pinned region has. -/
def saveKey (frames : List Nat) (saveVa logid off : Nat) : Nat :=
  let x := saveVa % 0x10000 + logid * 0x100000 + off
  frames.getD (x / 0x10000) 0 + x % 0x10000

/-- The frames of a strand's farm. -/
def State.saveFrames (s : State) (t : Strand) : List Nat :=
  match s.farm? t.farm with
  | some f => f.frames
  | none => []

/-- The virtual address of a byte of a strand's area. -/
def Strand.saveAddr (t : Strand) (off : Nat) : Nat := t.saveVa + t.logid * 0x100000 + off

/-- The core's access to a byte of the area is judged by the ownership rules (R9, R14, R15). -/
def State.saveCheck (s : State) (t : Strand) (kind : AKind) (off : Nat) : Except Stop Nat :=
  physCheck s t.die kind (t.saveAddr off) (saveKey (s.saveFrames t) t.saveVa t.logid off)

def isHold : Except Stop Nat → Bool
  | .error .hold => true
  | _ => false

/-- Why an access fails, unless it is only held. -/
def stopOf : Except Stop Nat → Option Stop
  | .ok _ => none
  | .error .hold => none
  | .error x => some x

/-- Offsets of the area, one in each of its 64 KiB frames. -/
def saveProbes : List Nat := (List.range 17).map (fun i => 0x10000 * Nat.min i 15 + 0xFFFF * (i / 16))

/-- Part of a strand's area lies on a stack that its die is handing over: the core holds the access (R14). -/
def State.saveHeld (s : State) (t : Strand) : Bool := saveProbes.any (fun o => isHold (s.saveCheck t .write o))

/-- What stops a read among some offsets of the area: a stack that the die does not own (R14), or a mirror mismatch (R15). -/
def State.saveStop (s : State) (t : Strand) (offs : List Nat) : Option Stop :=
  offs.findSome? (fun o => stopOf (s.saveCheck t .read o))

/-- Write a little-endian number of n bytes into a strand's save area: held on the die in HANDING until the hand-over ends
(R14). A byte on a stack that the die does not own is not written, and the ownership fault is due at the strand's next boundary
(log 16); a mirror mismatch is recorded and raises the strand's machine check (R15). -/
def State.putSave (s : State) (t : Strand) (off n x : Nat) : State :=
  let cs := (keysFrom off n).map (s.saveCheck t .write)
  if cs.any isHold then s.modStrand t.key (fun t => { t with pendSave := t.pendSave ++ [(off, n, x)] })
  else
    let s := match cs.findSome? stopOf with | some x => s.storeFault t.key x | none => s
    let ps := (cs.zip (leBytes n x)).filterMap (fun p => match p.1 with | .ok k => some (k, p.2) | .error _ => none)
    s.homeWrite (ps.map (fun p => p.1)) (ps.map (fun p => p.2))

/-- Read a little-endian number of n bytes from a strand's save area. A byte on a stack that the die does not own is a free
value (log 16). -/
def State.getSave (s : State) (t : Strand) (off n : Nat) : Nat :=
  leNat ((keysFrom off n).map (fun o =>
    match s.saveCheck t .read o with
    | .ok k => memRead s.mem k
    | .error _ => Config.lostByte s.free (saveKey (s.saveFrames t) t.saveVa t.logid o)))

def State.putWords (s : State) (t : Strand) (off : Nat) : List Nat → State
  | [] => s
  | w :: r => (s.putSave t off 8 w).putWords t (off + 8) r

/-! ### VIQ records (R208) -/

def boolNat (b : Bool) : Nat := if b then 1 else 0

/-- The parcels of an instruction as one number, the first lowest. -/
def parcelsNat : List (BitVec 16) → Nat
  | [] => 0
  | p :: r => p.toNat + 2 ^ 16 * parcelsNat r

/-- The sixteen words of a VIQ record. -/
def recordWords (e : VEntry) : List Nat :=
  let c := e.caps
  let holds := e.complete && e.value.isSome && (rqDest e.instr).isSome
  [ parcelsNat (encode e.instr),
    e.seq.toNat + 2 ^ 32 * boolNat e.convoy + 2 ^ 33 * boolNat e.fault.isSome + 2 ^ 34 * boolNat holds,
    e.prog % 2 ^ 32 + 2 ^ 32 * (e.rowprog % 128),
    c.ga.toNat, c.gb.toNat, c.gd.toNat, c.vl.toNat, c.vtype.toNat, c.stripbase.toNat, c.srseed.toNat,
    c.tpad.toNat, c.mxsa.toNat, c.mxsb.toNat,
    fld c.check.toNat 0 2 + 2 ^ 2 * fld c.xferbar.toNat 0 16 + 2 ^ 18 * fld c.rowbytes.toNat 0 17
      + 2 ^ 35 * fld c.srsalt.toNat 0 8 + 2 ^ 43 * fld c.tshape.toNat 0 15,
    (match e.fault with
      | some f => 0x100 + f.cause.toNat + 2 ^ 32 * (f.elem % 2 ^ 32)
      | none => 0),
    (if holds then (e.value.getD 0).toNat else match e.fault with | some f => f.addr.toNat | none => 0) ]

/-- The instruction a record's first word holds: prefix first, bytes 4 to 7 zero for a single word. -/
def recordInstr (w : Nat) : Option Instr :=
  let p (i : Nat) : BitVec 16 := BitVec.ofNat 16 (w / 2 ^ (16 * i))
  match decodeParcels [p 0, p 1, p 2, p 3] with
  | some i => some i
  | none => none

/-- Read one record back. `sh` is the entry's shadow, for what the record does not hold. -/
def readRecord (s : State) (t : Strand) (base : Nat) : Option VEntry :=
  let w (k : Nat) : Nat := s.getSave t (base + 8 * k) 8
  match recordInstr (w 0) with
  | none => none
  | some i =>
    let seq := BitVec.ofNat 32 (w 1)
    let sh := findEntry seq t.shadow
    let holds := (w 1).testBit 34
    let b (x : Nat) : Word := BitVec.ofNat 64 x
    let info : BitVec 62 := match sh with | some e => (match e.fault with | some f => f.info | none => 0) | none => 0
    some
      { instr := i, seq := seq, convoy := (w 1).testBit 32,
        caps :=
          { ga := b (w 3), gb := b (w 4), gd := b (w 5), vl := b (w 6), vtype := b (w 7), stripbase := b (w 8),
            srseed := b (w 9), srsalt := b (fld (w 13) 35 8), check := b (fld (w 13) 0 2),
            tshape := b (fld (w 13) 43 15), tpad := b (w 10), mxsa := b (w 11), mxsb := b (w 12),
            xferbar := b (fld (w 13) 2 16), rowbytes := b (fld (w 13) 18 17) },
        prog := fld (w 2) 0 32, rowprog := fld (w 2) 32 7, inflight := [],
        done := match sh with | some e => (if e.complete then e.done else []) | none => [],
        fault :=
          (if (w 1).testBit 33 then
            some { cause := BitVec.ofNat 8 (w 14), elem := fld (w 14) 32 32, addr := if holds then 0 else b (w 15),
                   info := info }
          else none),
        complete := holds || (match sh with | some e => e.complete | none => false),
        value := if holds then some (b (w 15)) else match sh with | some e => if e.complete then none else e.value | none => none,
        skip := none
        partA := match sh with | some e => e.partA | none => []
        logged := match sh with | some e => e.logged | none => false
        bad := [] }

/-- Read n records from consecutive places; none when one of them holds no instruction. -/
def readRecords (s : State) (t : Strand) : Nat → Nat → Option (List VEntry)
  | 0, _ => some []
  | n + 1, base =>
    match readRecord s t base, readRecords s t n (base + 128) with
    | some e, some r => some (e :: r)
    | _, _ => none

def State.putRecords (s : State) (t : Strand) (base : Nat) : List VEntry → State
  | [] => s
  | e :: r => (s.putWords t base (recordWords e)).putRecords t (base + 128) r

/-! ### Control registers as R127 numbers them -/

/-- The control register with a number, as `mfc` reads it (R127). -/
def Strand.ctlRead (t : Strand) (maxlg : BitVec 6) (n : Nat) : Option Word :=
  let c := t.ctl
  let w (x : Nat) : Option Word := some (BitVec.ofNat 64 x)
  match n with
  | 0x000 => some c.vl
  | 0x001 => some c.vtype
  | 0x002 => w (vlmaxOf t.lgw c.vtype)
  | 0x003 => w t.lgw
  | 0x004 => some c.stripbase
  | 0x005 => some c.srseed
  | 0x006 => some c.srsalt
  | 0x007 => some c.rmode
  | 0x008 => some c.fstat
  | 0x009 => some c.gstat
  | 0x00A => some c.suspect
  | 0x00B => some c.check
  | 0x00C => some c.chkcnt
  | 0x00D => w (boolNat t.det)
  | 0x010 => w (512 * boolNat t.die + 4 * t.core.toNat + t.slot % 4)
  | 0x011 => w t.logid
  | 0x012 => w t.nstrands
  | 0x013 => w t.farm
  | 0x014 => w t.part.toNat
  | 0x018 => some c.tshape
  | 0x019 => some c.tpad
  | 0x01A => some c.mxsa
  | 0x01B => some c.mxsb
  | 0x01C => some c.xferbar
  | 0x01D => some c.rowbytes
  | 0x020 => some c.trapvec
  | 0x021 => some c.tcause
  | 0x022 => some c.tpc
  | 0x023 => some c.tviq
  | 0x024 => some c.telem
  | 0x025 => some c.taddr
  | 0x026 => some c.tinfo
  | 0x030 => some c.ptbase
  | 0x031 => w maxlg.toNat
  | 0x032 => some c.errinj
  | _ => none

/-! ### The save area (R206, R207, R209) -/

/-- The width code of R75: 0 eight lanes, 1 sixteen, 2 thirty-two. -/
def widthCode (lgw : Nat) : Nat := if lgw ≤ 8 then 0 else if lgw ≤ 16 then 1 else 2
def widthLanes (code : Nat) : Nat := 8 * 2 ^ code

/-- Words 0 to 3 of a pin record (R207). -/
def pinWords (p : Pin) : List Nat :=
  [ 2 ^ 63 * boolNat p.live + 2 ^ 62 * boolNat p.revoked + 2 ^ 59 * p.rights.toNat + p.base.toNat, p.len.toNat,
    p.stop.toNat, p.extents.length ]

/-- The orthogonal record (R207). -/
def orthWords (o : Orth) : List Nat :=
  [ o.n.toNat + 2 ^ 16 * boolNat o.fp64 + 2 ^ 24 * o.k.toNat + 2 ^ 32 * o.cap.toNat + 2 ^ 40 * o.pol.toNat, o.bva.toNat,
    o.bstride.toNat + 2 ^ 32 * o.bcols.toNat + 2 ^ 48 * o.bpin.toNat + 2 ^ 56 * o.bside.toNat, o.lva.toNat,
    o.lpin.toNat + 2 ^ 16 * o.lcount.toNat + 2 ^ 32 * o.lmax.toNat ]

/-- Writes to a strand's area, in order: offset, bytes and value. -/
def State.putMany (s : State) (t : Strand) : List (Nat × Nat × Nat) → State
  | [] => s
  | (off, n, x) :: r => (s.putSave t off n x).putMany t r

/-- The bytes a stream port holds. -/
def streamBytes (xs : List StreamItem) : List Byte :=
  xs.filterMap (fun x => match x with | .byte b => some b | .endMark => none)

/-- Stream items with other bytes, n of them replaced already. -/
def refillStream (f : Nat → Byte) : Nat → List StreamItem → List StreamItem
  | _, [] => []
  | n, .endMark :: r => .endMark :: refillStream f n r
  | n, .byte b :: r => .byte (if n < 512 then f n else b) :: refillStream f (n + 1) r

/-- The virtual address of a line that a held element lies in. -/
def HeldElem.lineVa (h : HeldElem) (line : Nat) : Nat :=
  h.va / 64 * 64 + (if (h.keys.head?.map lineOf) = some line then 0 else 64)

/-- What R206 to R210 write of a halted strand: offset, bytes and value of each piece. `maxlg` is the core's. -/
def savePieces (t : Strand) (maxlg : BitVec 6) : List (Nat × Nat × Nat) :=
  let idx (n : Nat) : List Nat := List.range n
  let head : Nat :=
    1 + 2 ^ 8 * widthCode t.lgw + 2 ^ 10 * boolNat (t.level == .kernel) + 2 ^ 11 * boolNat t.inHandler
      + 2 ^ 12 * t.viq.length + 2 ^ 18 * t.frozen + 2 ^ 24 * t.rq.length
      + 2 ^ 28 * boolNat (t.pause == .counted)
      + 2 ^ 29 * boolNat (match t.pause with | .arrived _ _ => true | _ => false) + 2 ^ 32 * t.farm
  let arr : Nat := match t.pause with | .arrived b ph => b.toNat + 2 ^ 16 * boolNat ph | _ => 0
  let lines := t.savedLines
  let vlBytes := t.ctl.vl.toNat * vtSew t.ctl.vtype / 8
  let grp := vtGroup t.ctl.vtype
  let vlen (n : Nat) : Nat := Nat.min t.vbytes (vlBytes - (n % grp) * t.vbytes)
  [(0x0, 8, head), (0x8, 8, t.pc.toNat)]
  ++ (idx 31).map (fun i => (0x10 + 8 * i, 8, (t.getG (BitVec.ofNat 5 (i + 1))).toNat))
  ++ (idx 64).map (fun c => (0x200 + 8 * c, 8, ((t.ctlRead maxlg c).getD 0).toNat))
  ++ ((t.rq.zip (idx 8)).map (fun p =>
      [(0x400 + 16 * p.2, 8, p.1.seq.toNat + 2 ^ 32 * p.1.dest.toNat + 2 ^ 63),
       (0x408 + 16 * p.2, 8, (p.1.value.getD 0).toNat)])).flatten
  ++ ((idx 7).map (fun i =>
      ((pinWords (t.pins.getD (i + 1) Pin.idle)).zip (idx 4)).map (fun p => (0x480 + 32 * i + 8 * p.2, 8, p.1)))).flatten
  ++ (idx 4).map (fun i => (0x560 + i, 1, (t.ports.words i).length))
  ++ (idx 16).map (fun i => (0x564 + i, 1, (ceilDiv (streamBytes (sget [] t.ports.streams (16 + i))).length 8)))
  ++ [(0x600, 8, t.vfences.toNat + 2 ^ 32 * lines.length), (0x608, 8, arr)]
  ++ ((idx 4).map (fun i => ((t.ports.words i).zip (idx 32)).map (fun p =>
      (0x2000 + 256 * i + 8 * p.2, 8, p.1.toNat)))).flatten
  ++ ((idx 16).map (fun i => ((streamBytes (sget [] t.ports.streams (16 + i))).zip (idx 512)).map (fun p =>
        (0x2400 + 512 * i + p.2, 1, p.1.toNat)))).flatten
  ++ ((t.tiles.zip (idx 8)).map (fun p =>
      let b := 0x4400 + 1024 * p.2
      [(b, 8, p.1.m.toNat + 2 ^ 8 * p.1.n.toNat + 2 ^ 16 * p.1.rowprog.toNat + 2 ^ 24 * boolNat p.1.ckv)]
      ++ (idx 64).map (fun r => (b + 0x100 + 4 * r, 4, (sget 0 p.1.ckrow r).toNat))
      ++ (idx 64).map (fun r => (b + 0x200 + 4 * r, 4, (sget 0 p.1.ckcol r).toNat))
      ++ (idx 4096).map (fun i => (0x80000 + 0x8000 * p.2 + 8 * i, 8, (sget 0 p.1.elems i).toNat)))).flatten
  ++ ((t.orths.zip (idx 2)).map (fun p =>
      ((orthWords p.1).zip (idx 5)).map (fun q => (0x6400 + 256 * p.2 + 8 * q.2, 8, q.1))
      ++ ((idx p.1.k.toNat).map (fun j => (idx p.1.n.toNat).map (fun r =>
          (0xC0000 + 0x20000 * p.2 + 0x1000 * j + 8 * r, 8, (sget 0 p.1.v (512 * j + r)).toNat)))).flatten
      ++ ((idx p.1.k.toNat).map (fun i => (idx p.1.k.toNat).map (fun j =>
          (0xC000 + 0x2000 * p.2 + 8 * (32 * i + j), 8, (sget 0 p.1.t (32 * i + j)).toNat)))).flatten)).flatten
  ++ ((lines.zip (idx 1024)).map (fun p =>
      let bytes := (keysFrom (64 * p.1) 64).map (fun k => (t.held.filter (fun h => h.live.contains k)).getLast?.map (fun h =>
        ((leBytes h.keys.length h.val).getD (h.keys.idxOf k) 0).toNat))
      [(0x8000 + 16 * p.2, 8, ((t.held.find? (fun h => h.live.any (fun k => lineOf k == p.1))).map (fun h =>
          h.lineVa p.1)).getD 0),
       (0x8008 + 16 * p.2, 8, ((bytes.zip (idx 64)).foldl (fun m q => if q.1.isSome then m + 2 ^ q.2 else m) 0))]
      ++ (bytes.zip (idx 64)).map (fun q => (0x10000 + 64 * p.2 + q.2, 1, q.1.getD 0)))).flatten
  ++ (idx 32).map (fun n => (0x20000 + 4096 * n, vlen n, (t.v.getD n 0).toNat))
  ++ (idx 63).map (fun i =>
      (0x40000 + 4096 * (i + 1), ceilDiv t.ctl.vl.toNat 8, (t.p.getD (i + 1) 0).toNat % 2 ^ t.ctl.vl.toNat))

/-- Write a halted strand's save area (R88, R206): registers at their architectural values (R104), then the VIQ. -/
def State.saveStrand (s : State) (t : Strand) : State :=
  let a := { t.architectural with viq := t.viq, savedLines := heldLines t.held }
  ((s.putMany t (savePieces a (s.core t.coreNo).maxlg))).putRecords t 0x1000 t.viq

/-- Writes to the save areas that the dies held are sent when a hand-over has ended (R14, R203). -/
def State.sendSaves (s : State) : State :=
  (s.strands.filter (fun t => t.pendSave != [])).foldl (fun s t =>
    (s.modStrand t.key (fun t => { t with pendSave := [] })).putMany t t.pendSave) s

/-- Restore the control registers that R210 restores. -/
def Ctl.restore (c : Ctl) (r : Nat → Word) : Ctl :=
  { c with
    vl := r 0x000, vtype := r 0x001, stripbase := r 0x004, srseed := r 0x005, srsalt := r 0x006, rmode := r 0x007,
    fstat := r 0x008, gstat := r 0x009, suspect := r 0x00A, check := r 0x00B, chkcnt := r 0x00C, tshape := r 0x018,
    tpad := r 0x019, mxsa := r 0x01A, mxsb := r 0x01B, xferbar := r 0x01C, rowbytes := r 0x01D, trapvec := r 0x020,
    tcause := r 0x021, tpc := r 0x022, tviq := r 0x023, telem := r 0x024, taddr := r 0x025, tinfo := r 0x026, errinj := 0 }

def restorePin (w : Nat → Nat) : Pin :=
  { live := (w 0).testBit 63, revoked := (w 0).testBit 62, rights := BitVec.ofNat 3 (w 0 / 2 ^ 59),
    base := BitVec.ofNat 55 (w 0), len := BitVec.ofNat 37 (w 1), xfirst := 0, extents := [], stop := BitVec.ofNat 37 (w 2) }

def listSparse {α : Type} [DecidableEq α] (d : α) (n : Nat) (f : Nat → α) : Sparse α :=
  (List.range n).foldl (fun m i => sset d m i (f i)) []

/-- The write-combining lines as the area gives them back, in the slots of the lines that were saved: its count, masks and
bytes; what it does not hold of an element is the strand's own (log 13). -/
def restoreHeld (g : Nat → Nat → Nat) (lines : List Nat) (hs : List HeldElem) : List HeldElem :=
  let place (k : Nat) : Nat := lines.idxOf (lineOf k)
  let there (k : Nat) : Bool := decide (place k < fld (g 0x600 8) 32 11) && (g (0x8008 + 16 * place k) 8).testBit (k % 64)
  let last (k : Nat) : Option HeldElem := (hs.filter (fun x => x.live.contains k)).getLast?
  hs.filterMap (fun h =>
    let x := if h.amo.isSome then h else h.keep there
    if x.keys = [] ∨ (h.amo.isSome = true ∧ h.live.all there = false) then none
    else some { x with val := leNat ((x.keys.zip (leBytes x.keys.length x.val)).map (fun p =>
      if last p.1 = some h then BitVec.ofNat 8 (g (0x10000 + 64 * place p.1 + p.1 % 64) 1) else p.2)) })

/-- Read a strand back from its save area (R209 to R211 steps 2 and 5). `t` is its record as placed; what the area does not
hold stays as it is there, marks of lost rows among it (R203, log 18). None when a VIQ record holds no instruction; of an
area that the die does not own whole no record is read (log 16). Pins come back without their extents. -/
def State.restoreStrand (s : State) (t : Strand) : Option Strand :=
  let g (off n : Nat) : Nat := s.getSave t off n
  let head := g 0 8
  let lgw := widthLanes (fld head 8 2)
  match (if (s.saveStop t saveProbes).isSome then some [] else readRecords s t (fld head 12 6) 0x1000) with
  | none => none
  | some viq =>
    let ctl := t.ctl.restore (fun c => BitVec.ofNat 64 (g (0x200 + 8 * c) 8))
    let vl := ctl.vl.toNat
    let vbytes := 128 * lgw
    let grp := vtGroup ctl.vtype
    let vlen (n : Nat) : Nat := Nat.min vbytes (vl * vtSew ctl.vtype / 8 - (n % grp) * vbytes)
    let words (off : Nat) (n : Nat) : List Word := (List.range n).map (fun i => BitVec.ofNat 64 (g (off + 8 * i) 8))
    let arr := g 0x608 8
    some { t with
      checks := 0, savedLines := []
      lgw := lgw, level := if head.testBit 10 then .kernel else .user, inHandler := head.testBit 11,
      pc := BitVec.ofNat 64 (g 0x8 8), frozen := fld head 18 6,
      g := Vector.ofFn (fun i : Fin 32 => if i.val = 0 then 0 else BitVec.ofNat 64 (g (0x10 + 8 * (i.val - 1)) 8)),
      ctl := { ctl with chkcnt := chkAdd ctl.chkcnt 0 0 t.checks, fstat := ctl.fstat ||| t.drained.setWidth 64 }, drained := 0,
      rq := (List.range (fld head 24 4)).map (fun j =>
        let w := g (0x400 + 16 * j) 8
        let v := g (0x408 + 16 * j) 8
        let seq := BitVec.ofNat 32 w
        { seq := seq, dest := BitVec.ofNat 5 (w / 2 ^ 32),
          value := (viq.find? (fun e => e.seq == seq && e.complete)).map (fun _ => BitVec.ofNat 64 v) }),
      pins := Vector.ofFn (fun i : Fin 8 =>
        if i.val = 0 then Pin.idle else restorePin (fun k => g (0x480 + 32 * (i.val - 1) + 8 * k) 8)),
      ports := { t.ports with
        e0 := words 0x2000 (g 0x560 1), e1 := words 0x2100 (g 0x561 1), e2 := words 0x2200 (g 0x562 1),
        e3 := words 0x2300 (g 0x563 1),
        streams := (List.range 16).foldl (fun m i => sset [] m (16 + i)
          (refillStream (fun k => if k < 8 * g (0x564 + i) 1 then BitVec.ofNat 8 (g (0x2400 + 512 * i + k) 1) else 0) 0
            (sget [] t.ports.streams (16 + i)))) t.ports.streams },
      held := restoreHeld g t.savedLines t.held,
      vfences := BitVec.ofNat 32 (g 0x600 4),
      pause := if head.testBit 28 then .counted
        else if head.testBit 29 then .arrived (BitVec.ofNat 16 arr) (arr.testBit 16) else .none,
      tiles := (List.range t.tiles.length).map (fun n =>
        let m := g (0x4400 + 1024 * n) 8
        let old := t.tiles.getD n Tile.start
        { old with
          m := BitVec.ofNat 7 m, n := BitVec.ofNat 7 (m / 2 ^ 8), rowprog := BitVec.ofNat 7 (m / 2 ^ 16),
          ckv := m.testBit 24,
          ckrow := listSparse 0 64 (fun r => BitVec.ofNat 32 (g (0x4400 + 1024 * n + 0x100 + 4 * r) 4)),
          ckcol := listSparse 0 64 (fun r => BitVec.ofNat 32 (g (0x4400 + 1024 * n + 0x200 + 4 * r) 4)),
          elems := listSparse 0 4096 (fun i => BitVec.ofNat 64 (g (0x80000 + 0x8000 * n + 8 * i) 8)) }),
      orths := (List.range t.orths.length).map (fun q =>
        let w (k : Nat) : Nat := g (0x6400 + 256 * q + 8 * k) 8
        let k := fld (w 0) 24 6
        let n := fld (w 0) 0 10
        { n := BitVec.ofNat 10 (w 0), fp64 := (w 0).testBit 16, k := BitVec.ofNat 6 (w 0 / 2 ^ 24),
          cap := BitVec.ofNat 6 (w 0 / 2 ^ 32), pol := BitVec.ofNat 2 (w 0 / 2 ^ 40),
          v := listSparse 0 (512 * k) (fun i =>
            if i % 512 < n then BitVec.ofNat 64 (g (0xC0000 + 0x20000 * q + 0x1000 * (i / 512) + 8 * (i % 512)) 8) else 0),
          t := listSparse 0 (32 * k) (fun i =>
            if i % 32 < k then BitVec.ofNat 64 (g (0xC000 + 0x2000 * q + 8 * i) 8) else 0),
          bva := BitVec.ofNat 55 (w 1), bstride := BitVec.ofNat 32 (w 2), bcols := BitVec.ofNat 16 (w 2 / 2 ^ 32),
          bpin := BitVec.ofNat 3 (w 2 / 2 ^ 48), bside := BitVec.ofNat 2 (w 2 / 2 ^ 56), lva := BitVec.ofNat 55 (w 3),
          lpin := BitVec.ofNat 3 (w 4), lcount := BitVec.ofNat 16 (w 4 / 2 ^ 16), lmax := BitVec.ofNat 16 (w 4 / 2 ^ 32) }),
      v := Vector.ofFn (fun i : Fin 32 => BitVec.ofNat 32768 (g (0x20000 + 4096 * i.val) (vlen i.val))),
      p := Vector.ofFn (fun i : Fin 64 =>
        if i.val = 0 then 0 else BitVec.ofNat 32768 (g (0x40000 + 4096 * i.val) (ceilDiv vl 8) % 2 ^ vl)),
      viq := viq, opBuf := [] }

end

end Sys2Proof.Machine
end

