-- ==== Sys2Proof/Machine/Operands.lean ====
section
/-! DEFINITION. The operand forms of vector instructions: element images, register groups, decode checks, and what one
micro-operation is given (R96, R106, R120, R226, R227, R270 to R272). -/

namespace Sys2Proof.Machine

/-! ### Elements in a register group's image (R120) -/

/-- Element i of width `bits` in the group that starts at register `reg`; W bytes rule R120. -/
def Strand.elem (t : Strand) (reg bits i : Nat) : Nat :=
  let at_ := i * bits / 8
  getBytes (t.v.getD (reg + at_ / t.vbytes) 0) (at_ % t.vbytes) (bits / 8)

/-- The write of one element. -/
def Strand.elemWrite (t : Strand) (reg bits i val : Nat) : EWrite :=
  let at_ := i * bits / 8
  .v (reg + at_ / t.vbytes) (at_ % t.vbytes) (bits / 8) (val % 2 ^ bits)

/-! ### Operands -/

/-- How far a group's micro-operation reads a source: its own elements, whole blocks of 32, or every element (R105,
R290). -/
inductive Reach where
  | elem
  | block
  | whole
  deriving DecidableEq, Repr

/-- A register operand: a vector group of elements of `bits` bits, or a predicate. `count` registers from `reg`. -/
structure Opd where
  pred : Bool
  reg : Nat
  bits : Nat
  count : Nat
  reach : Reach
  deriving DecidableEq, Repr

/-- Registers of an operand of width w under a VTYPE: GROUP × w ÷ SEW, at least one (R227, R288). -/
def regsFor (vt : Word) (w : Nat) : Nat := Nat.max 1 (vtGroup vt * w / vtSew vt)

def Opd.vec (vt : Word) (r : Reg) (w : Nat) (reach : Reach) : Opd :=
  { pred := false, reg := r.toNat, bits := w, count := regsFor vt w, reach := reach }

def Opd.prd (p : PReg) (reach : Reach) : Opd := { pred := true, reg := p.toNat, bits := 1, count := 1, reach := reach }

/-- The operand names registers that exist and starts at a multiple of its size (R120, R227). -/
def Opd.ok (o : Opd) : Bool := o.pred || (o.reg % o.count == 0 && decide (o.reg + o.count ≤ 32) && decide (o.count ≤ 8))

def Opd.shares (a b : Opd) : Bool :=
  !a.pred && !b.pred && decide (a.reg < b.reg + b.count) && decide (b.reg < a.reg + a.count)

/-- R227: a destination that shares a register with a source is identical to it. -/
def overlapOk (d s : Opd) : Bool := !d.shares s || (d.reg == s.reg && d.count == s.count)

/-- The checks of R120, R122, R226 and R227 on destinations and sources. `apart` asks that they share nothing
(R227 widening, R272, R288). -/
def operandsOk (apart : Bool) (ds ss : List Opd) : Bool :=
  ds.all (fun d => d.ok && !(d.pred && d.reg == 0)) && ss.all Opd.ok &&
  ds.all (fun d => ss.all (fun s => if apart then !d.shares s else overlapOk d s))

/-- A floating-point instruction's FMT and SEW agree (R226). -/
def fpOk (vt : Word) : Bool := (vtFp vt).isSome

/-! ### What a micro-operation is given -/

/-- The registers as the entry sees them, and what it captured. -/
structure VEnv where
  t : Strand
  c : Caps
  skip : Option Nat
  deriving DecidableEq, Repr

def VEnv.vl (e : VEnv) : Nat := e.c.vl.toNat
def VEnv.sew (e : VEnv) : Nat := vtSew e.c.vtype

/-- Elements of width SEW that a register group has. -/
def VEnv.top (e : VEnv) : Nat := vlmaxOf e.t.lgw e.c.vtype

/-- Element i of a source of width w. -/
def VEnv.get (e : VEnv) (r : Reg) (w i : Nat) : Nat := e.t.elem r.toNat w i

/-- Whether element i is active under predicate m (R106, R204). -/
def VEnv.active (e : VEnv) (m i : Nat) : Bool :=
  decide (i < e.vl) && (e.t.getP m).getLsbD i && e.skip != some i

/-- Bit i of a source predicate. -/
def VEnv.bit (e : VEnv) (p : PReg) (i : Nat) : Bool := (e.t.getP p.toNat).getLsbD i

/-- The rounding mode for result element i (R143, R147). -/
def VEnv.rm (e : VEnv) (i : Nat) : Rm :=
  vtMode e.c.vtype (if vtRm e.c.vtype = 5 then srWord e.c.srseed (srCounter e.c.srsalt e.c.stripbase i) else 0)

/-- Active indices below n, ascending. -/
def VEnv.activeList (e : VEnv) (m n : Nat) : List Nat := (List.range n).filter (fun i => e.active m i)

/-! ### What an element comes to -/

/-- Writes, FSTAT flags and GSTAT flags. -/
structure ERes where
  writes : List EWrite
  fl : BitVec 5
  gs : BitVec 5
  deriving DecidableEq, Repr

def ERes.none : ERes := { writes := [], fl := 0, gs := 0 }

def ERes.join (a b : ERes) : ERes := { writes := a.writes ++ b.writes, fl := a.fl ||| b.fl, gs := a.gs ||| b.gs }

/-- One vector element written. -/
def VEnv.put (e : VEnv) (d : Reg) (w i val : Nat) : ERes :=
  { writes := [e.t.elemWrite d.toNat w i val], fl := 0, gs := 0 }

/-- One predicate bit written. -/
def VEnv.putBit (_ : VEnv) (d : PReg) (i : Nat) (b : Bool) : ERes := { writes := [.p d.toNat i b], fl := 0, gs := 0 }

def ERes.withFlags (r : ERes) (fl gs : BitVec 5) : ERes := { r with fl := r.fl ||| fl, gs := r.gs ||| gs }

/-! GSTAT bits (R132). -/
def gGATHERX : BitVec 5 := 1
def gSATX : BitVec 5 := 2
def gTRIM : BitVec 5 := 4
def gRETIRED : BitVec 5 := 8
def gPADFILL : BitVec 5 := 16

/-! ### Operations -/

/-- A vector memory access: pin, kind, fields of a record, address of field f of element i, the first data register,
the ordered bit, and the operation of `vamo` (R299 to R302). -/
structure MemOp where
  k : BitVec 3
  kind : AKind
  fields : Nat
  addr : VEnv → Nat → Nat → Word
  data : Reg
  ordered : Bool
  amo : Option (BitVec 2)

/-- What a vector instruction's micro-operations do: one result for each element that acts, and GSTAT flags at the end;
one value for a g register; a memory access for each element; or work of the engines. -/
inductive VRun where
  | elem (f : VEnv → Nat → ERes) (fin : VEnv → BitVec 5)
  | scalar (f : VEnv → Word × ERes)
  | mem (m : MemOp)
  | gscr (k : BitVec 3) (b : Reg)
  | epop (port : Reg) (d : Reg)
  | tile
  | orth

/-- A vector instruction: the g registers it captures from its a, b and d-or-S fields (g0 for none), the elements below
VL that a micro-operation acts on, decode checks on the strand's state, register operands, and its work. `picks` names what
element i reads of the sources of reach `whole`: register, width and index; where it names nothing, a reduction reads its
own elements and any other instruction all below VL. -/
structure VOp where
  ga : Reg
  gb : Reg
  gd : Reg
  acts : VEnv → Nat → Bool
  legal : Strand → Bool
  dests : Word → List Opd
  srcs : Word → List Opd
  run : VRun
  picks : Option (VEnv → Nat → List (Nat × Nat × Nat)) := none

/-- The checks of the common frame, with `extra` for what an instruction adds. -/
def frameOk (apart : Bool) (ds ss : Word → List Opd) (extra : Word → Bool) (t : Strand) : Bool :=
  let vt := t.ctl.vtype
  extra vt && operandsOk apart (ds vt) (ss vt)

/-- An element-wise instruction under predicate m, with the value of g register b captured. -/
def elemOp (m : PReg) (b : Reg) (apart : Bool) (extra : Word → Bool) (ds ss : Word → List Opd)
    (f : VEnv → Nat → ERes) : VOp :=
  { ga := 0, gb := b, gd := 0, acts := fun e i => e.active m.toNat i, legal := frameOk apart ds ss extra, dests := ds,
    srcs := fun vt => Opd.prd m .elem :: ss vt, run := .elem f (fun _ => 0) }

def anyVt : Word → Bool := fun _ => true

/-- The operand d of width SEW, and others like it. -/
def sewOpd (r : Reg) (reach : Reach) (vt : Word) : Opd := Opd.vec vt r (vtSew vt) reach

/-- The low SEW bits of the captured scalar b (R226, R271). -/
def VEnv.sb (e : VEnv) : Nat := e.c.gb.toNat % 2 ^ e.sew

/-- v[d] := f(v[a], v[b]) at width SEW (R275). -/
def vvOp (m : PReg) (extra : Word → Bool) (d a b : Reg) (f : VEnv → Nat → Nat → Nat → Nat × BitVec 5) : VOp :=
  elemOp m 0 false extra (fun vt => [sewOpd d .elem vt]) (fun vt => [sewOpd a .elem vt, sewOpd b .elem vt])
    (fun e i => let r := f e i (e.get a e.sew i) (e.get b e.sew i); (e.put d e.sew i r.1).withFlags r.2 0)

/-- v[d] := f(v[a], g[b]). -/
def vsOp (m : PReg) (extra : Word → Bool) (d a b : Reg) (f : VEnv → Nat → Nat → Nat → Nat × BitVec 5) : VOp :=
  elemOp m b false extra (fun vt => [sewOpd d .elem vt]) (fun vt => [sewOpd a .elem vt])
    (fun e i => let r := f e i (e.get a e.sew i) e.sb; (e.put d e.sew i r.1).withFlags r.2 0)

/-- v[d] := f(v[a]). -/
def vOp1 (m : PReg) (extra : Word → Bool) (d a : Reg) (f : VEnv → Nat → Nat → Nat × BitVec 5) : VOp :=
  elemOp m 0 false extra (fun vt => [sewOpd d .elem vt]) (fun vt => [sewOpd a .elem vt])
    (fun e i => let r := f e i (e.get a e.sew i); (e.put d e.sew i r.1).withFlags r.2 0)

/-- A multiply-accumulate reads d too (R278). -/
def vvdOp (m : PReg) (extra : Word → Bool) (d a b : Reg) (f : VEnv → Nat → Nat → Nat → Nat → Nat × BitVec 5) : VOp :=
  elemOp m 0 false extra (fun vt => [sewOpd d .elem vt])
    (fun vt => [sewOpd a .elem vt, sewOpd b .elem vt, sewOpd d .elem vt])
    (fun e i => let r := f e i (e.get a e.sew i) (e.get b e.sew i) (e.get d e.sew i)
      (e.put d e.sew i r.1).withFlags r.2 0)

def vsdOp (m : PReg) (extra : Word → Bool) (d a b : Reg) (f : VEnv → Nat → Nat → Nat → Nat → Nat × BitVec 5) : VOp :=
  elemOp m b false extra (fun vt => [sewOpd d .elem vt]) (fun vt => [sewOpd a .elem vt, sewOpd d .elem vt])
    (fun e i => let r := f e i (e.get a e.sew i) e.sb (e.get d e.sew i)
      (e.put d e.sew i r.1).withFlags r.2 0)

/-- p[d] := f(v[a], v[b]) (R280). -/
def cvvOp (m : PReg) (extra : Word → Bool) (d : PReg) (a b : Reg) (f : VEnv → Nat → Nat → Bool × BitVec 5) : VOp :=
  elemOp m 0 false extra (fun _ => [Opd.prd d .elem]) (fun vt => [sewOpd a .elem vt, sewOpd b .elem vt])
    (fun e i => let r := f e (e.get a e.sew i) (e.get b e.sew i); (e.putBit d i r.1).withFlags r.2 0)

def cvsOp (m : PReg) (extra : Word → Bool) (d : PReg) (a b : Reg) (f : VEnv → Nat → Nat → Bool × BitVec 5) : VOp :=
  elemOp m b false extra (fun _ => [Opd.prd d .elem]) (fun vt => [sewOpd a .elem vt])
    (fun e i => let r := f e (e.get a e.sew i) e.sb; (e.putBit d i r.1).withFlags r.2 0)

/-- An instruction that returns a value to a g register (R99): it waits for its whole sources. -/
def scalarOp (m : PReg) (b : Reg) (extra : Word → Bool) (ss : Word → List Opd) (f : VEnv → Word × ERes) : VOp :=
  { ga := 0, gb := b, gd := 0, acts := fun e i => e.active m.toNat i, legal := frameOk false (fun _ => []) ss extra,
    dests := fun _ => [], srcs := fun vt => Opd.prd m .whole :: ss vt, run := .scalar f }

end Sys2Proof.Machine
end

