-- ==== Sys2Proof/Machine/Flags.lean ====
section
/-! DEFINITION. The integer and floating-point element functions with the flags they raise (R142 to R146, R251, R263 to
R267, R275 to R280). -/

namespace Sys2Proof.Machine

/-! ### Integers of w bits (R249 to R251, R275) -/

/-- Signed quotient; a zero divisor gives all ones, the one overflow wraps (R251). -/
def sdivN (w a b : Nat) : Nat :=
  if b % 2 ^ w = 0 then 2 ^ w - 1 else ofInt w (Int.tdiv (toSigned w a) (toSigned w b))

def udivN (w a b : Nat) : Nat := if b % 2 ^ w = 0 then 2 ^ w - 1 else a % 2 ^ w / (b % 2 ^ w)

/-- Signed remainder with the dividend's sign; a zero divisor gives the dividend (R251). -/
def sremN (w a b : Nat) : Nat :=
  if b % 2 ^ w = 0 then a % 2 ^ w else ofInt w (Int.tmod (toSigned w a) (toSigned w b))

def uremN (w a b : Nat) : Nat := if b % 2 ^ w = 0 then a % 2 ^ w else a % 2 ^ w % (b % 2 ^ w)

/-- The high half of a product: both signed, both unsigned. -/
def mulhN (w a b : Nat) : Nat := ofInt w (toSigned w a * toSigned w b / (2 : Int) ^ w)
def mulhuN (w a b : Nat) : Nat := a % 2 ^ w * (b % 2 ^ w) / 2 ^ w
def mulhsuN (w a b : Nat) : Nat := ofInt w (toSigned w a * (b % 2 ^ w : Nat) / (2 : Int) ^ w)

def sminN (w a b : Nat) : Nat := if toSigned w a ≤ toSigned w b then a % 2 ^ w else b % 2 ^ w
def smaxN (w a b : Nat) : Nat := if toSigned w a ≤ toSigned w b then b % 2 ^ w else a % 2 ^ w
def uminN (w a b : Nat) : Nat := Nat.min (a % 2 ^ w) (b % 2 ^ w)
def umaxN (w a b : Nat) : Nat := Nat.max (a % 2 ^ w) (b % 2 ^ w)

/-- Shifts by an amount already reduced. -/
def shlN (w a s : Nat) : Nat := a * 2 ^ s % 2 ^ w
def shrN (w a s : Nat) : Nat := a % 2 ^ w / 2 ^ s
def sarN (w a s : Nat) : Nat := ofInt w (toSigned w a / (2 : Int) ^ s)

/-- Clamp to the signed range of w bits (`vsadd`, `vssub`). -/
def clampN (w : Nat) (x : Int) : Nat :=
  let hi : Int := (2 : Int) ^ (w - 1) - 1
  let lo : Int := -((2 : Int) ^ (w - 1))
  ofInt w (if x < lo then lo else if hi < x then hi else x)

/-- Sign extension of a w-bit pattern to a word. -/
def sextN (w x : Nat) : Word := BitVec.ofInt 64 (toSigned w x)

/-! ### Floating point of one format -/

/-- A rounded operation: bits and flags. Arithmetic follows the SAT = 0 column (R144). -/
def roundArith (f : Fmt) (rm : Rm) (x : Exact) : Nat × BitVec 5 := let r := x.round f rm false; (r.bits, r.fl)

def faddN (f : Fmt) (rm : Rm) (a b : Nat) : Nat × BitVec 5 := roundArith f rm (fpAdd rm (f.decode a) (f.decode b))
def fsubN (f : Fmt) (rm : Rm) (a b : Nat) : Nat × BitVec 5 := roundArith f rm (fpAdd rm (f.decode a) (f.decode b).neg)
def fmulN (f : Fmt) (rm : Rm) (a b : Nat) : Nat × BitVec 5 := roundArith f rm (fpMul (f.decode a) (f.decode b))
def fdivN (f : Fmt) (rm : Rm) (a b : Nat) : Nat × BitVec 5 := roundArith f rm (fpDiv (f.decode a) (f.decode b))
def fsqrtN (f : Fmt) (rm : Rm) (a : Nat) : Nat × BitVec 5 := roundArith f rm (fpSqrt (f.decode a))
def fminN (f : Fmt) (a b : Nat) : Nat × BitVec 5 := let r := fpMinMax f false a b; (r.bits, r.fl)
def fmaxN (f : Fmt) (a b : Nat) : Nat × BitVec 5 := let r := fpMinMax f true a b; (r.bits, r.fl)

/-- ±(a × b) ± c with one rounding; `np` negates the product, `nc` the addend (R267, R278). -/
def ffmaN (f : Fmt) (rm : Rm) (np nc : Bool) (a b c : Nat) : Nat × BitVec 5 :=
  let x := f.decode a
  let z := f.decode c
  roundArith f rm (fpFma rm (if np then x.neg else x) (f.decode b) (if nc then z.neg else z))

/-- Sign injection: magnitude of a with a chosen sign; a NaN gives the canonical NaN (R277). -/
def signInject (f : Fmt) (s : Bool) (a : Nat) : Nat :=
  if (f.decode a).isNan then f.canonNaN else a % 2 ^ f.signBit + (if s then 2 ^ f.signBit else 0)

def signOf (f : Fmt) (a : Nat) : Bool := a.testBit f.signBit

/-- The compare codes (R265, R280). -/
def fcmpN (c : Cmp) (f : Fmt) (a b : Nat) : Bool × BitVec 5 := fpCompare c (f.decode a) (f.decode b)

/-- SATX in GSTAT (R132). -/
def satBit (b : Bool) : BitVec 5 := if b then gSATX else 0

/-- The format of a floating-point vector instruction, FP32 where VTYPE names none (such an instruction is ILLEGAL). -/
def VEnv.fmt (e : VEnv) : Fmt := (vtFp e.c.vtype).getD .fp32

end Sys2Proof.Machine
end

