-- ==== Sys2Proof/Machine/Pins.lean ====
section
/-! DEFINITION. Pins: the range walk, the extent table, element translation, freeing (R123, R170 to R173). Revocation
stands in Revoke.lean. -/

namespace Sys2Proof.Machine

/-! ### The walk of a range (R171 steps 1, 3, 4 and 5) -/

/-- The kinds of access that a rights mask asks for, in the order read, write, atomic. -/
def rightKinds (m : BitVec 3) : List AKind :=
  (if m.getLsbD 0 then [.read] else []) ++ (if m.getLsbD 1 then [.write] else []) ++ (if m.getLsbD 2 then [.atomic] else [])

/-- Step 3 for one page, at its first byte inside the range: its leaf grants every right. -/
def pinPage (s : State) (t : Strand) (m : BitVec 3) (va : Nat) : Except Stop Nat :=
  match walk s t.die ((rightKinds m).headD .read) va 3 t.ctl.ptbase.toNat with
  | .error e => .error e
  | .ok e =>
    match (rightKinds m).find? (fun k => !grants t.level k e.rights) with
    | some k => .error (.trap cPERM va k.code)
    | none => .ok (e.frame + va % 2 ^ levelShift e.level)

/-- The pages of [va, va + len) after step 3, at most n of them. -/
def pinWalk (s : State) (t : Strand) (m : BitVec 3) : Nat → Nat → Nat → Except Stop (List PinExtent)
  | 0, _, _ => .ok []
  | n + 1, va, len =>
    if len = 0 then .ok []
    else
      match pinPage s t m va with
      | .error e => .error e
      | .ok key =>
        let here := Nat.min len (0x10000 - va % 0x10000)
        match pinWalk s t m n (va + here) (len - here) with
        | .error e => .error e
        | .ok xs => .ok ({ va := va, key := key, len := here } :: xs)

/-- Step 4 for every page: the first whose memory the die may not reach decides. -/
def pinOwned (s : State) (t : Strand) (m : BitVec 3) : List PinExtent → Except Stop Unit
  | [] => .ok ()
  | x :: r =>
    match physCheck s t.die ((rightKinds m).headD .read) x.va x.key with
    | .error e => .error e
    | .ok _ => pinOwned s t m r

/-- One stack, or one row of R161 outside HBM. -/
def sameRow (a b : Region) : Bool :=
  match a, b with
  | .hbm x, .hbm y => x == y
  | a, b => a.row == b.row

/-- Whether a page goes on from an extent: contiguous virtually and physically, in one stack and one row. -/
def joins (x : PinExtent) (va key : Nat) : Bool :=
  decide (x.va + x.len = va) && decide (x.key + x.len = key) && sameRow (region x.key) (region key)

/-- Step 5: pages cut into extents. -/
def cutExtents : List PinExtent → List PinExtent
  | [] => []
  | x :: r =>
    match cutExtents r with
    | [] => [x]
    | y :: ys => if joins x y.va y.key then { x with len := x.len + y.len } :: ys else x :: y :: ys

/-- The 1 KiB units of a window range obey R162 to R164. -/
def windowWalk (s : State) (t : Strand) (m : BitVec 3) : Nat → Nat → Nat → Except Stop Unit
  | 0, _, _ => .ok ()
  | n + 1, va, len =>
    if len = 0 then .ok ()
    else
      match (rightKinds m).findSome? (fun k => match windowKey s t k false va with | .error e => some e | .ok _ => none) with
      | some e => .error e
      | none =>
        let here := Nat.min len (0x400 - va % 0x400)
        windowWalk s t m n (va + here) (len - here)

/-- The extents of a range (R171 steps 3 to 5). A window range is one extent. -/
def rangeExtents (s : State) (t : Strand) (m : BitVec 3) (base len : Nat) : Except Stop (List PinExtent) :=
  if windowBase ≤ base then
    match windowWalk s t m (len / 0x400 + 2) base len with
    | .error e => .error e
    | .ok _ =>
      match windowKey s t ((rightKinds m).headD .read) false base with
      | .error e => .error e
      | .ok key => .ok [{ va := base, key := key, len := len }]
  else
    match pinWalk s t m (len / 0x10000 + 2) base len with
    | .error e => .error e
    | .ok xs =>
      match pinOwned s t m xs with
      | .error e => .error e
      | .ok _ => .ok (cutExtents xs)

/-! ### The extent table (R171) -/

/-- A strand holds its lanes and its core's table entries while it runs or is halted and not yet saved. -/
def Strand.placed (t : Strand) : Bool := t.life == .running || t.life == .halted

def Strand.pinEntries (t : Strand) : Nat := (t.pins.toList.map (fun p => p.extents.length)).sum

/-- Entries in use in a core's table. -/
def State.tableUsed (s : State) (core : Nat) : Nat :=
  ((s.strands.filter (fun t => t.placed && t.coreNo == core)).map Strand.pinEntries).sum

def tableSize : Nat := 2048

/-- A run of `n` entries at `first` is freed: later runs of the core move down. -/
def State.freeRun (s : State) (core : Nat) (first n : Nat) : State :=
  if n = 0 then s
  else
    let f (p : Pin) : Pin :=
      if first < p.xfirst.toNat ∧ p.extents ≠ [] then { p with xfirst := p.xfirst - BitVec.ofNat 11 n } else p
    s.mapStrands (fun t => if t.placed && t.coreNo == core then { t with pins := t.pins.map f } else t)

/-- Set one pin of a strand. -/
def State.setPin (s : State) (key : Nat) (k : Nat) (p : Pin) : State :=
  s.modStrand key (fun t => { t with pins := t.pins.setIfInBounds k p })

/-- Unpin one register (R173): extents freed, LIVE and REVOKED cleared, the other fields kept. -/
def State.unpinOne (s : State) (key : Nat) (k : Nat) : State :=
  match s.strand? key with
  | none => s
  | some t =>
    let p := t.pins.getD k Pin.idle
    (s.setPin key k { p with live := false, revoked := false, xfirst := 0, extents := [] }).freeRun t.coreNo p.xfirst.toNat
      (if t.placed then p.extents.length else 0)

/-- A strand that leaves its core gives up its runs in the table; its pins stay as they are (R171, R211). -/
def State.leaveTable (s : State) (key : Nat) : State :=
  [1, 2, 3, 4, 5, 6, 7].foldl (fun s k =>
    match s.strand? key with
    | none => s
    | some t =>
      let p := t.pins.getD k Pin.idle
      (s.setPin key k { p with xfirst := 0 }).freeRun t.coreNo p.xfirst.toNat (if t.placed then p.extents.length else 0)) s

/-- Unpin every register of a strand (R91, R173). -/
def State.unpinAll (s : State) (key : Nat) : State :=
  [1, 2, 3, 4, 5, 6, 7].foldl (fun s k => s.unpinOne key k) s

/-- Every live pin whose extents reach into a range of keys: strand and pin number. -/
def Pin.covers (p : Pin) (lo hi : Nat) : Bool :=
  p.live && !p.revoked && p.extents.any (fun x => decide (x.key < hi) && decide (lo < x.key + x.len))

/-- Pages of 64 KiB that a farm's save region touches: 16 a strand, and one more for an unaligned start. -/
def savePages (d : Fdesc) : Nat := 16 * d.nstrands.toNat + (if d.saveva.toNat % 0x10000 = 0 then 0 else 1)

/-- The dispatcher has pinned a farm's save region: from its launch to its end (R85). -/
def Farm.regionPinned (f : Farm) : Bool :=
  f.frames != [] && (f.state == .queued || f.state == .running || f.state == .held)

/-- The region's pages reach into a range of keys. -/
def Farm.regionCovers (f : Farm) (lo hi : Nat) : Bool :=
  f.regionPinned && f.frames.any (fun k => decide (k < hi) && decide (lo < k + 0x10000))

/-- A live pin of a strand, or the pin of a farm's save region, covers part of a range of keys (R42, R85). -/
def State.pinned (s : State) (lo hi : Nat) : Bool :=
  s.strands.any (fun t => t.exists_ && t.pins.toList.any (fun p => p.covers lo hi)) || s.farms.any (fun f => f.regionCovers lo hi)

/-! ### Element accesses (R172) -/

def findXExtent (va : Nat) : List PinExtent → Option PinExtent
  | [] => none
  | x :: r => if x.va ≤ va ∧ va < x.va + x.len then some x else findXExtent va r

def AKind.right (k : AKind) : Nat :=
  match k with
  | .read => 0
  | .write => 1
  | _ => 2

/-- The keys of an element of n bytes through a pin (R172, R14, R42), or why it stops. TINFO of the memory causes adds
the pin in [6:4] (R197). -/
def pinBytes (s : State) (t : Strand) (k : BitVec 3) (kind : AKind) (p : Pin) : Nat → Nat → Except Stop (List Nat)
  | 0, _ => .ok []
  | n + 1, va =>
    match findXExtent va p.extents with
    | none => .error (.trap cPINRANGE va k.toNat)
    | some x =>
      let key := x.key + (va - x.va)
      let here : Except Stop Nat :=
        if 2 ^ 52 ≤ key then .ok key
        else
          match physCheck s t.die kind va key with
          | .error (.trap c a i) => .error (.trap c a (i + 16 * k.toNat))
          | r => r
      match here with
      | .error e => .error e
      | .ok key =>
        match pinBytes s t k kind p n (va + 1) with
        | .error e => .error e
        | .ok ks => .ok (key :: ks)

/-- An element access through pin k (R172). A read or atomic of a poisoned line takes POISON (R20). -/
def pinAccess (s : State) (t : Strand) (k : BitVec 3) (kind : AKind) (va : Word) (n : Nat) : Except Stop (List Nat) :=
  let p := t.pins.getD k.toNat Pin.idle
  let a := va.toNat
  if !p.live then .error (.trap cPINRANGE a k.toNat)
  else if p.revoked then .error (.trap cPINREVOKED (p.base.toNat + p.stop.toNat) k.toNat)
  else if a < p.base.toNat ∨ p.base.toNat + p.len.toNat < a + n then .error (.trap cPINRANGE a k.toNat)
  else if !p.rights.getLsbD kind.right then .error (.trap cPINRIGHTS a k.toNat)
  else
    match pinBytes s t k kind p n a with
    | .error e => .error e
    | .ok ks =>
      if kind = .write then .ok ks
      else
        match firstPoison s ks 0 with
        | some i => .error (.trap cPOISON (a + i) (16 * k.toNat))
        | none => .ok ks

/-- Whether a scalar address lies in the range of a pin register (R184). -/
def Strand.inPin (t : Strand) (k : BitVec 3) (va n : Nat) : Bool :=
  let p := t.pins.getD k.toNat Pin.idle
  p.live && decide (va < p.base.toNat + p.len.toNat) && decide (p.base.toNat < va + n)

end Sys2Proof.Machine
end

