-- ==== Sys2Proof/Machine/Stores.lean ====
section
/-! DEFINITION. Performing scalar stores, and the drain of a deterministic farm's held elements (R164, R168, R188, R192,
R193, R257, R258). -/

namespace Sys2Proof.Machine

/-- Remember a byte's older value for fetches that no `sync` has put in order (R258): on the storing core and on every
core that the model has a record of (log 15). -/
def Core.addStale (c : Core) (m : Memory) (ks : List Nat) : Core :=
  { c with stale := ks.foldl (fun l k => if l.any (fun x => x.1 == k) then l else (k, memRead m k) :: l) c.stale }

def State.addStale (s : State) (core : Nat) (ks : List Nat) : State :=
  let m := s.mem
  (((s.cores.map (fun c => c.1)).filter (fun n => n != core)).foldl
    (fun s n => s.modCore n (fun c => c.addStale m ks)) s).modCore core (fun c => c.addStale m ks)

/-- Whether a key lies in a slice table (R164). -/
def isSliceKey (k : Nat) : Bool := decide (2 ^ 52 + 2 ^ 41 ≤ k) && decide (k < 2 ^ 52 + 2 ^ 42)

/-- A byte of a slice table is written entry by entry: an entry that a live pin covers stays (R164). -/
def State.writeSlice (s : State) (k : Nat) (b : Byte) : State :=
  let off := k - (2 ^ 52 + 2 ^ 41)
  let cl := off / 64
  let n := 2 * (off % 64)
  let old := (memRead s.mem k).toNat
  let held (n : Nat) : Bool := s.pinned (scratchKey cl (n * 0x10000)) (scratchKey cl ((n + 1) * 0x10000))
  let lo := if held n then old % 16 else b.toNat % 16
  let hi := if held (n + 1) then old / 16 else b.toNat / 16
  { s with mem := memWrite s.mem k (BitVec.ofNat 8 (hi * 16 + lo)) }

/-- The bytes of a scalar store at their homes. -/
def State.storeBytes (s : State) : List Nat → List Byte → State
  | k :: ks, b :: bs => (if isSliceKey k then s.writeSlice k b else s.writeByte k b).storeBytes ks bs
  | _, _ => s

/-- A scalar store of the strand with a key is performed at its home: its core's lines are dirty (R168), the older
bytes may still be fetched (R258). -/
def State.performStore (s : State) (key core : Nat) (ks : List Nat) (bs : List Byte) : State :=
  let s := (s.settleHeld key ks).addStale core ks
  ((linesOf (ks.filter cached)).foldl (fun s l => s.dirtyLine core l) s).storeBytes ks bs

/-- Remove the n-th element of a list. -/
def dropAt {α : Type} : Nat → List α → List α
  | _, [] => []
  | 0, _ :: r => r
  | n + 1, x :: r => x :: dropAt n r

/-- A pin that reaches off-core memory. -/
def Strand.offCorePin (t : Strand) (k : BitVec 3) : Bool := decide ((t.pins.getD k.toNat Pin.idle).base.toNat < windowBase)

/-- An entry that still has off-core loads to make (R188). -/
def Strand.loadsOffCore (t : Strand) (e : VEntry) : Bool :=
  !e.complete && (t.memUse e).reads && (t.memUse e).pins.any t.offCorePin

/-- The frozen entries of a strand whose handler runs (R200). -/
def Strand.frozenWork (t : Strand) : List VEntry := t.shadow.take t.frozen

/-- A buffered store of before the trap waits for a frozen entry's loads (R188). -/
def Strand.storeFrozen (t : Strand) (b : BufferedStore) : Bool :=
  !b.handler && t.frozenWork.any (fun e => seqLt e.seq b.after && t.loadsOffCore e)

/-- The entries, queued, saved or frozen, whose off-core loads a buffered store waits for (R188). -/
def Strand.storeLoads (t : Strand) (b : BufferedStore) : List VEntry :=
  ((if b.handler then t.shadow.drop t.frozen else t.shadow) ++ t.viq).filter (fun e => seqLt e.seq b.after && t.loadsOffCore e)

/-- A buffered store that may be performed: no earlier store of the buffer touches its bytes or is fenced against it, and
no earlier entry still has off-core loads to make (R184, R188). -/
def Strand.storeReady (t : Strand) (n : Nat) : Bool :=
  match t.sbuf[n]? with
  | none => false
  | some b =>
    !(t.sbuf.take n).any (fun c => c.fence.getLsbD 1 || c.keys.any (fun k => b.keys.contains k)) && t.storeLoads b == []

/-- The bytes that a buffered store writes. One whose translation a `tlbi` has invalidated is translated again; while it
cannot be, it stays in the buffer (R358, log 62). -/
def State.storeKeys (s : State) (t : Strand) (b : BufferedStore) : Option (List Nat) :=
  if b.rewalk then
    match checkBytes s t .write none b.keys.length (BitVec.ofNat 64 b.va) with
    | .ok ks => some ks
    | .error _ => none
  else some b.keys

/-- What stops a buffered store's request that leaves the core: the stack has been castled away, or the extent released, while
the store waited for loads. One to a stack in HANDING or to an extent being released was in flight (R14, R42, R178). -/
def State.storeStop (s : State) (die : Bool) (va k : Nat) : Option Stop :=
  match physCheck s die .write va k with
  | .ok _ => none
  | .error .hold => none
  | .error x => if (findExtent k s.extents).isSome then none else some x

/-- Perform the n-th buffered store. -/
def State.performNth (s : State) (key n : Nat) : State :=
  match s.strand? key with
  | none => s
  | some t =>
    match t.sbuf[n]? with
    | none => s
    | some b =>
      match s.storeKeys t b with
      | none => s
      | some ks =>
        let s := s.modStrand key (fun t => { t with sbuf := dropAt n t.sbuf })
        match ks.findSome? (s.storeStop t.die b.va) with
        | none => s.performStore key t.coreNo ks (leBytes ks.length b.val)
        | some x => s.storeFault key x

/-- Perform the buffered stores that may be performed, the oldest such first. -/
def State.flushStores (s : State) (key : Nat) : Nat → State
  | 0 => s
  | n + 1 =>
    match s.strand? key with
    | none => s
    | some t =>
      match (List.range t.sbuf.length).find? t.storeReady with
      | none => s
      | some i => (s.performNth key i).flushStores key n

/-- The loads that a buffered store waits for go on by themselves: they stand in the queue of a running strand, and nothing
before the store there has faulted, waits for a stream, or goes through a pin into a range where requests are held. -/
def Strand.loadsGoOn (t : Strand) (lo hi : Nat) (b : BufferedStore) : Bool :=
  t.life == .running && (t.storeLoads b).all (fun e => t.viq.any (fun x => x.seq == e.seq)) &&
  t.viq.all (fun e => e.complete || !seqLt e.seq b.after || (e.fault.isNone &&
    (match e.instr with | .vepop _ _ _ _ => false | _ => true) &&
    !(t.memUse e).pins.any (fun k => (t.pins.getD k.toNat Pin.idle).covers lo hi)))

/-! ### The drain (R193) -/

def insertByLog (t : Strand) : List Strand → List Strand
  | [] => [t]
  | u :: r => if t.logid ≤ u.logid then t :: u :: r else u :: insertByLog t r

/-- The strands of a farm, ascending LOGID, ended ones that still hold lines among them. -/
def State.farmStrands (s : State) (farm : Nat) : List Strand :=
  (s.strands.filter (fun t => t.farm == farm && t.life != .unused)).foldr insertByLog []

/-- Perform the held elements of one strand that satisfy `p` in order, with the flags that they raise, and drop them from its
buffer. -/
def State.drainHeld (s : State) (p : HeldElem → Bool) (t : Strand) : State :=
  let hs := t.held.filter p
  (s.performHelds hs).mapStrands (fun u =>
    if u.key = t.key then { u with held := u.held.filter (fun h => !p h) }.drainFlags (heldFlags s.mem hs) else u)

/-- Perform the held elements of a farm that satisfy `p`, in the drain's order: strand by strand. -/
def State.drainFarm (s : State) (farm : Nat) (p : HeldElem → Bool) : State :=
  (s.farmStrands farm).foldl (fun s t => s.drainHeld p t) s

/-- The strands of a farm begin an epoch: no line is taken yet (R192). -/
def State.newEpoch (s : State) (farm : Nat) : State :=
  s.mapStrands (fun t => if t.farm = farm then { t with epochLines := [] } else t)

/-- Every strand of a deterministic farm has reached its n-th `vfence`: a strand's count is n or one more, and an ended
strand counts as having reached every epoch. -/
def epochClosed (n : Nat) (ts : List Strand) : Bool := ts.all (fun t => !t.exists_ || t.vfences != BitVec.ofNat 32 n)

/-- Close the farm's open epoch while every strand has reached it (R193). -/
def State.closeEpoch (s : State) (farm : Nat) : State :=
  match s.farm? farm with
  | none => s
  | some f =>
    if epochClosed f.vfDone (s.farmStrands farm) then
      ((s.drainFarm farm (fun _ => true)).newEpoch farm).modFarm farm (fun f => { f with vfDone := f.vfDone + 1 })
    else s

end Sys2Proof.Machine
end

