-- ==== Sys2Proof/Machine/VCore.lean ====
section
/-! DEFINITION. The vector side's own accesses to memory: reads through a pin as the strand sees them, checked stores, the
write-combining buffer of a deterministic strand (R172, R192, R198). -/

namespace Sys2Proof.Machine

/-- A read of n bytes through a pin, from the strand's own view of memory (R192). -/
def vRead (s : State) (t : Strand) (view : Memory) (k : BitVec 3) (va : Word) (n : Nat) : Except Stop Nat :=
  match pinAccess s t k .read va n with
  | .error e => .error e
  | .ok ks => .ok (leNat (memReadList view ks))

/-- Reads in order; the first that stops decides. -/
def vReads (s : State) (t : Strand) (view : Memory) (k : BitVec 3) (n : Nat) : List Word → Except Stop (List Nat)
  | [] => .ok []
  | va :: r =>
    match vRead s t view k va n with
    | .error e => .error e
    | .ok x =>
      match vReads s t view k n r with
      | .error e => .error e
      | .ok xs => .ok (x :: xs)

/-- One element to be stored: its place in the entry, address, keys, value, and the operation of an atomic with VTYPE
and the stochastic word. -/
structure VStore where
  elem : Nat
  va : Nat
  keys : List Nat
  val : Nat
  amo : Option (BitVec 2 × Word × Nat)
  deriving DecidableEq, Repr

/-- An element as the write-combining buffer, or a group with updates left, keeps it. -/
def VStore.held (seq : BitVec 32) (x : VStore) : HeldElem :=
  { seq := seq, elem := x.elem, va := x.va, keys := x.keys, val := x.val, amo := x.amo, past := [], quiet := false }

/-- A byte of the strand's own core's TCM: a deterministic strand writes it at once (R192). -/
def Strand.ownTcm (t : Strand) (k : Nat) : Bool := decide (tcmKey t.coreNo 0 ≤ k) && decide (k < tcmKey (t.coreNo + 1) 0)

/-- Whether an element enters the write-combining buffer. -/
def Strand.holds (t : Strand) (ks : List Nat) : Bool := t.det && !ks.all t.ownTcm

/-- Lines that the buffer of a strand slot has (R192). -/
def wcLines : Nat := 1024

/-- The lines that a strand has taken in its open epoch: a line drained early still counts (R192). -/
def Strand.takenLines (t : Strand) : List Nat := (heldLines t.held).foldl (fun l x => insertNat x l) t.epochLines

/-- The check of an element against the buffer's lines, given the keys of the elements that enter before it. -/
def Strand.lineStop (t : Strand) (before ks : List Nat) (va : Nat) : Option Stop :=
  if t.holds ks then
    let lines := before.foldl (fun l k => insertNat (lineOf k) l) t.takenLines
    let more := ks.foldl (fun l k => insertNat (lineOf k) l) lines
    if wcLines < more.length then some (.trap cDETOVF va lines.length) else none
  else none

/-- Check the elements of a group in order, for writing or as atomics: each element's keys, or the element that stops
and why (R198). `before` are the keys that earlier elements put into the buffer. -/
def checkStores (s : State) (t : Strand) (k : BitVec 3) (kind : AKind) (n : Nat) (before : List Nat) :
    List (Nat × Word × Nat) → Except (Nat × Stop) (List VStore)
  | [] => .ok []
  | (i, va, val) :: r =>
    match pinAccess s t k kind va n with
    | .error e => .error (i, e)
    | .ok ks =>
      match t.lineStop before ks va.toNat with
      | some e => .error (i, e)
      | none =>
        match checkStores s t k kind n (if t.holds ks then before ++ ks else before) r with
        | .error e => .error e
        | .ok xs => .ok ({ elem := i, va := va.toNat, keys := ks, val := val, amo := none } :: xs)

/-- Perform one checked element of entry `seq`: held back in deterministic mode, else performed at its home with the flags that
an atomic raises there (R145, R302). A held atomic raises its flags when it drains (log 69). -/
def State.vStore (s : State) (key : Nat) (seq : BitVec 32) (x : VStore) : State × BitVec 5 :=
  match s.strand? key with
  | none => (s, 0)
  | some t =>
    let h := x.held seq
    if t.holds x.keys then
      (s.modStrand key (fun t => { t with
        held := insertHeld h t.held, epochLines := x.keys.foldl (fun l k => insertNat (lineOf k) l) t.epochLines }), 0)
    else (s.performHeld h, (h.outcome s.mem).2)

/-- Perform elements in order, gathering flags. -/
def State.vStores (s : State) (key : Nat) (seq : BitVec 32) : List VStore → State × BitVec 5
  | [] => (s, 0)
  | x :: r =>
    let a := s.vStore key seq x
    let b := a.1.vStores key seq r
    (b.1, a.2 ||| b.2)

/-- Record why an element stops, at element `elem` of entry `seq` (R107). A mirror mismatch is also recorded as an error
(R15). A held access records nothing: it is tried again (R14). -/
def State.vFault (s : State) (key : Nat) (seq : BitVec 32) (elem : Nat) (x : Stop) : State :=
  let note (c : BitVec 8) (a i : Nat) (t : Strand) : Strand := t.modEntry seq (fun e =>
    e.addFault { cause := c, elem := elem, addr := BitVec.ofNat 64 a, info := BitVec.ofNat 62 i })
  match x with
  | .hold => s
  | .trap c a i => s.modStrand key (note c a i)
  | .mirror a _ => (s.mirror x).modStrand key (fun t => (note cMCHECK a 2 t).countCheck)

end Sys2Proof.Machine
end

