-- ==== Sys2Proof/Machine/Orth.lean ====
section
/-! DEFINITION. The orthogonal unit: instructions under an OQ prefix (R125, R337 to R348). One progress step at a time: a
log record, a line, or the last step; what the state becomes stands in Engine.lean. -/

namespace Sys2Proof.Machine

noncomputable section

/-! ### Accumulators -/

def Orth.fmt (o : Orth) : Fmt := if o.fp64 then .fp64 else .fp32

def Strand.orth (t : Strand) (q : BitVec 1) : Orth := t.orths.getD q.toNat Orth.start

/-- V row r, column c; T row i, column j: containers (R125). -/
def Orth.vAt (o : Orth) (c r : Nat) : Nat := (sget (0 : Word) o.v (512 * c + r)).toNat
def Orth.tAt (o : Orth) (i j : Nat) : Nat := (sget (0 : Word) o.t (32 * i + j)).toNat

/-- An empty accumulator: columns at and above K read zero. -/
def Orth.empty (o : Orth) : Orth := { o with k := 0, v := [], t := [] }

/-! ### Sums in the orders of R339, RNE in the accumulator's format (R338) -/

/-- A value with the flags raised on the way to it. -/
abbrev Fl (α : Type) := α × BitVec 5

/-- A fused step p := fma(x, y, p), or with the product negated. -/
def fmaStep (f : Fmt) (neg : Bool) (x y : Nat) (p : Fl Nat) : Fl Nat :=
  let r := ffmaN f Rm.rne neg false x y p.1
  (r.1, p.2 ||| r.2)

/-- Partial j of a dot product; none when no index falls to it. -/
def dotPartial (f : Fmt) (x y : Nat → Nat) (is : List Nat) : Option (Fl Nat) :=
  if is = [] then none else some (is.foldl (fun p r => fmaStep f false (x r) (y r) p) (0, 0))

def joinFl (f : Fmt) : Option (Fl Nat) → Option (Fl Nat) → Option (Fl Nat)
  | none, b => b
  | a, none => a
  | some a, some b => let r := faddN f Rm.rne a.1 b.1; some (r.1, a.2 ||| b.2 ||| r.2)

def levelFl (f : Fmt) : List (Option (Fl Nat)) → List (Option (Fl Nat))
  | a :: b :: r => joinFl f a b :: levelFl f r
  | l => l

/-- dot(x, y) over an index set. -/
def dot (f : Fmt) (x y : Nat → Nat) (is : List Nat) : Fl Nat :=
  let ps := (List.range 16).map (fun j => dotPartial f x y (is.filter (fun i => i % 16 == j)))
  ((levelFl f (levelFl f (levelFl f (levelFl f ps)))).headD none).getD (0, 0)

/-- Fwd(w) or Tra(w) (R339). -/
def tri (o : Orth) (tra : Bool) (w : Nat → Nat) : List (Fl Nat) :=
  (List.range o.k.toNat).map (fun i =>
    if tra then (List.range (i + 1)).foldl (fun p l => fmaStep o.fmt false (o.tAt l i) (w l) p) (0, 0)
    else ((List.range o.k.toNat).drop i).foldl (fun p l => fmaStep o.fmt false (o.tAt i l) (w l) p) (0, 0))

def orFl {α : Type} (xs : List (Fl α)) : BitVec 5 := xs.foldl (fun a x => a ||| x.2) 0

def nth (xs : List (Fl Nat)) (i : Nat) : Nat := (xs.getD i (0, 0)).1

/-- The dot products of V's columns with a line. -/
def Orth.project (o : Orth) (x : Nat → Nat) : List (Fl Nat) :=
  (List.range o.k.toNat).map (fun i => dot o.fmt (o.vAt i) x (List.range o.n.toNat))

/-- One line transformed (R345). -/
def Orth.apply (o : Orth) (tra : Bool) (x : Nat → Nat) : Fl (List Nat) :=
  let w := o.project x
  let y := tri o tra (nth w)
  let out := (List.range o.n.toNat).map (fun r =>
    (List.range o.k.toNat).foldl (fun p i => fmaStep o.fmt true (o.vAt i r) (nth y i) p) (x r, 0))
  (out.map (fun z => z.1), orFl w ||| orFl y ||| orFl out)

/-- Append a reflector (R341). -/
def Orth.append (o : Orth) (v : List Nat) (tau : Nat) : Fl Orth :=
  let k := o.k.toNat
  let w := o.project (fun r => v.getD r 0)
  let z := tri o false (nth w)
  let neg := tau ^^^ 2 ^ o.fmt.signBit
  let col := (List.range k).map (fun i => fmulN o.fmt Rm.rne neg (nth z i))
  let t := (List.range k).foldl (fun t i => sset (0 : Word) t (32 * i + k) (wNat (nth col i))) o.t
  let vv := (List.range o.n.toNat).foldl (fun m r => sset (0 : Word) m (512 * k + r) (wNat (v.getD r 0))) o.v
  ({ o with t := sset (0 : Word) t (32 * k + k) (wNat tau), v := vv, k := o.k + 1 }, orFl w ||| orFl z ||| orFl col)

/-! ### Conversion between vector and accumulator (R338) -/

/-- From one format to another under RNE; the same format keeps the bits. -/
def convert (a b : Fmt) (x : Nat) : Fl Nat :=
  if a = b then (x, 0) else let r := (a.decode x).exact.round b Rm.rne false; (r.bits, r.fl)

/-- Elements 0 to N - 1 of a vector as accumulator values; beyond the group they read +0. -/
def vecIn (e : VEnv) (o : Orth) (a : Reg) : List (Fl Nat) :=
  (List.range o.n.toNat).map (fun i => if i < e.top then convert e.fmt o.fmt (e.get a e.sew i) else (0, 0))

/-- One element of a result; a write beyond the group is dropped. -/
def vecOut (e : VEnv) (o : Orth) (d : Reg) (i x : Nat) : Fl (List EWrite) :=
  let y := convert o.fmt e.fmt x
  (if i < e.top then [e.t.elemWrite d.toNat e.sew i y.1] else [], y.2)

/-- An element of x carried over unchanged. -/
def vecKeep (e : VEnv) (d a : Reg) (i : Nat) : List EWrite :=
  if i < e.top then [e.t.elemWrite d.toNat e.sew i (e.get a e.sew i)] else []

def vecOuts (e : VEnv) (o : Orth) (d : Reg) (xs : List (Nat × Nat)) : Fl (List EWrite) :=
  let ys := xs.map (fun p => vecOut e o d p.1 p.2)
  ((ys.map (fun y => y.1)).flatten, orFl ys)

/-! ### Decode checks (R221, R337) -/

/-- FMT 0 or 1 with SEW equal to its width. -/
def orthFmt (vt : Word) : Bool := fpOk vt && decide (vtFmt vt ≤ 1)

def orthOp (q : BitVec 1) (ga gb gd : Reg) (legal : Strand → Bool) (ds ss : Word → List Opd) : VOp :=
  { ga := ga, gb := gb, gd := gd, acts := fun _ _ => false
    legal := fun t => decide (q.toNat < t.orths.length) && legal t && operandsOk false (ds t.ctl.vtype) (ss t.ctl.vtype)
    dests := ds, srcs := ss, run := .orth }

def onVt (p : Word → Bool) : Strand → Bool := fun t => p t.ctl.vtype

/-- fn 20. -/
def opOqinit (q : BitVec 1) (d a b : Reg) (_m : BitVec 3) (n : BitVec 14) (cap : BitVec 6) (pol : BitVec 2) : VOp :=
  orthOp q a b d (fun t => decide (vtFmt t.ctl.vtype ≤ 1) && decide (1 ≤ n.toNat) && decide (n.toNat ≤ 512) &&
    decide (cap.toNat ≤ 32) && decide (pol.toNat ≤ 1)) (fun _ => []) (fun _ => [])

/-- fn 21. -/
def opOqacc (q : BitVec 1) (a b : Reg) : VOp :=
  orthOp q 0 b 0 (onVt orthFmt) (fun _ => []) (fun vt => [sewOpd a .elem vt])

/-- fn 22. -/
def opOqhh (q : BitVec 1) (d a b : Reg) : VOp :=
  orthOp q 0 b 0 (onVt orthFmt) (fun vt => [sewOpd d .elem vt]) (fun vt => [sewOpd a .elem vt])

/-- fn 23 and 24. -/
def opOqapl (q : BitVec 1) (a b : Reg) (m : BitVec 3) (_tr : Bool) : VOp :=
  orthOp q a b 0 (fun _ => m != 0) (fun _ => []) (fun _ => [])
def opOqapr (q : BitVec 1) (a b : Reg) (m : BitVec 3) (_tr : Bool) : VOp :=
  orthOp q a b 0 (fun _ => m != 0) (fun _ => []) (fun _ => [])

/-- fn 25. -/
def opOqapv (q : BitVec 1) (d a : Reg) (_tr : Bool) : VOp :=
  orthOp q 0 0 0 (onVt orthFmt) (fun vt => [sewOpd d .elem vt]) (fun vt => [sewOpd a .elem vt])

/-- fn 26. -/
def opOqform (q : BitVec 1) : VOp := orthOp q 0 0 0 (fun _ => true) (fun _ => []) (fun _ => [])

/-- fn 27 and 28. -/
def opOqsave (q : BitVec 1) (a : Reg) (m : BitVec 3) : VOp := orthOp q a 0 0 (fun _ => m != 0) (fun _ => []) (fun _ => [])
def opOqrest (q : BitVec 1) (a : Reg) (m : BitVec 3) : VOp := orthOp q a 0 0 (fun _ => m != 0) (fun _ => []) (fun _ => [])

/-- fn 29. Its own sentence of R337 governs it: SEW 64, whatever FMT holds (log 51). -/
def opOqcnt (q : BitVec 1) (d : Reg) : VOp :=
  orthOp q 0 0 0 (fun t => vtSew t.ctl.vtype == 64) (fun vt => [sewOpd d .elem vt]) (fun _ => [])

/-- fn 2A. -/
def opOqrd (q : BitVec 1) (d b : Reg) : VOp :=
  orthOp q 0 b 0 (onVt orthFmt) (fun vt => [sewOpd d .elem vt]) (fun _ => [])

/-! ### Steps -/

/-- What a step writes of a log or target: its record (R342 step 1), or a whole line (R205). -/
inductive OPart where
  | none
  | log
  | line
  deriving DecidableEq, Repr

/-- What one step comes to: the accumulator, flags, stores through a pin, the elements of one size that it reads through a
pin, register writes, the record or line that it writes, and whether it was the last. -/
structure OStep where
  orth : Orth
  fl : BitVec 5
  gs : BitVec 5
  pin : BitVec 3
  bytes : Nat
  stores : List (Nat × Word × Nat)
  reads : List (BitVec 3 × Nat × List Word)
  writes : List EWrite
  part : OPart
  last : Bool
  deriving DecidableEq, Repr

def OStep.last_ (o : Orth) (fl : BitVec 5) (ws : List EWrite) : OStep :=
  { orth := o, fl := fl, gs := 0, pin := 0, bytes := 0, stores := [], reads := [], writes := ws, part := .none, last := true }

/-- What a step is given: state, strand, its view of memory, captured values, the count of lines written, and whether the log
record is. -/
structure OEnv where
  s : State
  t : Strand
  view : Memory
  e : VEnv
  step : Nat
  logged : Bool

/-- Line element bytes. -/
def Orth.bytes (o : Orth) : Nat := if o.fp64 then 8 else 4

/-- One line in memory through a pin: read, transformed, to be written back whole (R205, R344). -/
def lineStep (r : OEnv) (o : Orth) (k : BitVec 3) (base : Word) (tra : Bool) : Except Stop OStep :=
  let n := o.bytes
  let vas := (List.range o.n.toNat).map (fun i => base + wNat (i * n))
  match vReads r.s r.t r.view k n vas with
  | .error e => .error e
  | .ok xs =>
    let y := o.apply tra (fun i => xs.getD i 0)
    .ok { orth := o, fl := y.2, gs := 0, pin := k, bytes := n,
          stores := ((vas.zip y.1).zip (List.range o.n.toNat)).map (fun p => (r.step * 65536 + p.2, p.1.1, p.1.2)),
          reads := [(k, n, vas)], writes := [], part := .line, last := false }

def Orth.targetLines (o : Orth) : Nat := if o.hasTarget then o.bcols.toNat else 0

/-- Line c of the target; BSIDE 1 is oqapr, 2 is oqapl with tr = 1 (R345). -/
def Orth.targetBase (o : Orth) (c : Nat) : Word := o.bva.setWidth 64 + wNat c * o.bstride.signExtend 64

def targetStep (r : OEnv) (o : Orth) (c : Nat) : Except Stop OStep :=
  lineStep r o o.bpin (o.targetBase c) (o.bside != 0)

/-- Where log record j lies (R342). -/
def Orth.logBase (o : Orth) : Word :=
  o.lva.setWidth 64 + wNat (o.lcount.toNat * (64 + 8 * o.cap.toNat * (o.n.toNat + o.cap.toNat)))

/-- V and T as an image holds them. -/
def Orth.body (o : Orth) : List Nat :=
  let k := o.k.toNat
  ((List.range k).map (fun c => (List.range o.n.toNat).map (fun r => o.vAt c r))).flatten ++
  ((List.range k).map (fun i => (List.range k).map (fun j => o.tAt i j))).flatten

/-- The words of a log record. -/
def Orth.logWords (o : Orth) : List Nat :=
  [o.n.toNat + 2 ^ 16 * o.k.toNat + (if o.fp64 then 2 ^ 24 else 0), o.lcount.toNat, 0, 0, 0, 0, 0, 0] ++ o.body

/-- Words stored from an address up. -/
def wordStores (step : Nat) (base : Word) (ws : List Nat) : List (Nat × Word × Nat) :=
  (ws.zip (List.range ws.length)).map (fun p => (step * 65536 + p.2, base + wNat (8 * p.2), p.1))

/-- R342 step 1. -/
def logStep (r : OEnv) (o : Orth) : OStep :=
  { orth := { o with lcount := o.lcount + 1 }, fl := 0, gs := 0, pin := o.lpin, bytes := 8,
    stores := wordStores r.step o.logBase o.logWords, reads := [], writes := [], part := .log, last := false }

/-- OQCAP: accumulator q, and whether the log is full (R197). -/
def capStop (q : BitVec 1) (full : Bool) : Stop := .trap cOQCAP 0 (q.toNat + (if full then 2 else 0))

/-- An append under the capacity rule of R342; `form` appends to the accumulator. A retirement writes the log record, then the
target's lines. -/
def capped (r : OEnv) (q : BitVec 1) (o : Orth) (form : Orth → OStep) : Except Stop OStep :=
  if !r.logged && o.k != o.cap then .ok (form o)
  else if !r.logged && o.pol == 0 then .error (capStop q false)
  else if !r.logged && o.lcount == o.lmax then .error (capStop q true)
  else if !r.logged then .ok (logStep r o)
  else if r.step < o.targetLines then targetStep r o r.step
  else let z := form o.empty; .ok { z with gs := z.gs ||| gRETIRED }

/-- τ from a g register (R338, R341). -/
def tauIn (e : VEnv) (o : Orth) : Fl Nat := convert e.fmt o.fmt e.sb

def oqaccForm (r : OEnv) (a : Reg) (o : Orth) : OStep :=
  let v := vecIn r.e o a
  let tau := tauIn r.e o
  let z := o.append (v.map (fun x => x.1)) tau.1
  OStep.last_ z.1 (orFl v ||| tau.2 ||| z.2) []

/-- A number with the given sign, its magnitude that of x; a NaN stays as it was produced (R146). -/
def withSign (f : Fmt) (s : Bool) (x : Nat) : Nat :=
  if (f.decode x).isNan then x else x % 2 ^ f.signBit + (if s then 2 ^ f.signBit else 0)

def isZeroN (f : Fmt) (x : Nat) : Bool := x % 2 ^ f.signBit == 0

/-- oqhh with a pivot below N (R343). -/
def oqhhForm (r : OEnv) (d a : Reg) (p : Nat) (o : Orth) : OStep :=
  let e := r.e
  let f := o.fmt
  let n := o.n.toNat
  let xs := vecIn e o a
  let x (i : Nat) : Nat := nth xs i
  let alpha := x p
  let s := dot f x x ((List.range n).filter (fun i => decide (p < i)))
  let one := f.bias * 2 ^ f.fbits
  let keep (is : List Nat) : List EWrite := (is.map (vecKeep e d a)).flatten
  if isZeroN f s.1 then
    let v := (List.range n).map (fun i => if i < p then 0 else if i = p then one else x i)
    let z := o.append v 0
    OStep.last_ z.1 (orFl xs ||| s.2 ||| z.2) (keep (List.range n))
  else
    let q := ffmaN f Rm.rne false false alpha alpha s.1
    let root := fsqrtN f Rm.rne q.1
    let beta := withSign f (!(signOf f alpha) || isZeroN f alpha) root.1
    let d1 := fsubN f Rm.rne beta alpha
    let tau := fdivN f Rm.rne d1.1 beta
    let c := fsubN f Rm.rne alpha beta
    let vs : List (Fl Nat) := (List.range n).map (fun i =>
      if i < p then (0, 0) else if i = p then (one, 0) else fdivN f Rm.rne (x i) c.1)
    let z := o.append (vs.map (fun y => y.1)) tau.1
    let out := vecOuts e o d (((List.range n).filter (fun i => decide (p ≤ i))).map (fun i =>
      (i, if i = p then beta else nth vs i)))
    OStep.last_ z.1 (orFl xs ||| s.2 ||| q.2 ||| root.2 ||| d1.2 ||| tau.2 ||| c.2 ||| orFl vs ||| z.2 ||| out.2)
      (keep (List.range p) ++ out.1)

def oqhhStep (r : OEnv) (q : BitVec 1) (d a : Reg) (o : Orth) : Except Stop OStep :=
  let p := r.e.c.gb.toNat
  if o.n.toNat ≤ p then
    .ok (OStep.last_ o fNV ((List.range o.n.toNat).map (vecKeep r.e d a)).flatten)
  else capped r q o (oqhhForm r d a p)

/-- oqapl and oqapr: line r.step of L (R344). -/
def oqapStep (r : OEnv) (m : BitVec 3) (tra : Bool) (o : Orth) : Except Stop OStep :=
  let lines := fld r.e.c.gb.toNat 32 16
  if o.k = 0 ∨ lines ≤ r.step then .ok (OStep.last_ o 0 [])
  else
    match lineStep r o m (r.e.c.ga + wNat r.step * strideOf r.e.c.gb) tra with
    | .error e => .error e
    | .ok z => .ok { z with last := decide (lines ≤ r.step + 1) }
where strideOf (x : Word) : Word := (x.setWidth 32).signExtend 64

def oqapvStep (r : OEnv) (d a : Reg) (tr : Bool) (o : Orth) : OStep :=
  if o.k = 0 then OStep.last_ o 0 ((List.range o.n.toNat).map (vecKeep r.e d a)).flatten
  else
    let xs := vecIn r.e o a
    let y := o.apply tr (nth xs)
    let out := vecOuts r.e o d ((List.range o.n.toNat).zip y.1)
    OStep.last_ o (orFl xs ||| y.2 ||| out.2) out.1

/-- oqform (R346): the log record when LMAX is above 0, the target's lines, then the emptying. -/
def oqformStep (r : OEnv) (q : BitVec 1) (o : Orth) : Except Stop OStep :=
  if !r.logged && o.k == 0 then .ok (OStep.last_ o 0 [])
  else if !r.logged && o.lmax != 0 then (if o.lmax ≤ o.lcount then .error (capStop q true) else .ok (logStep r o))
  else if r.step < o.targetLines then targetStep r o r.step
  else .ok { OStep.last_ o.empty 0 [] with gs := gRETIRED }

/-- The words of an image of R347. -/
def Orth.imageWords (o : Orth) : List Nat := orthWords o ++ [0, 0, 0] ++ o.body

def misaligned (va : Word) (kind : AKind) : Option Stop :=
  if va.toNat % 8 = 0 then none else some (.trap cACCESS va.toNat kind.code)

def oqsaveStep (r : OEnv) (m : BitVec 3) (o : Orth) : Except Stop OStep :=
  match misaligned r.e.c.ga .write with
  | some x => .error x
  | none =>
    .ok { OStep.last_ o 0 [] with pin := m, bytes := 8, stores := wordStores 0 r.e.c.ga o.imageWords }

/-- An accumulator from the five words of R207, empty of columns. -/
def orthOfWords (w : Nat → Nat) : Orth :=
  { n := BitVec.ofNat 10 (w 0), fp64 := (w 0).testBit 16, k := BitVec.ofNat 6 (w 0 / 2 ^ 24),
    cap := BitVec.ofNat 6 (w 0 / 2 ^ 32), pol := BitVec.ofNat 2 (w 0 / 2 ^ 40), v := [], t := [],
    bva := BitVec.ofNat 55 (w 1), bstride := BitVec.ofNat 32 (w 2), bcols := BitVec.ofNat 16 (w 2 / 2 ^ 32),
    bpin := BitVec.ofNat 3 (w 2 / 2 ^ 48), bside := BitVec.ofNat 2 (w 2 / 2 ^ 56), lva := BitVec.ofNat 55 (w 3),
    lpin := BitVec.ofNat 3 (w 4), lcount := BitVec.ofNat 16 (w 4 / 2 ^ 16), lmax := BitVec.ofNat 16 (w 4 / 2 ^ 32) }

/-- The refusals of R347. -/
def Orth.imageOk (o : Orth) : Bool :=
  decide (1 ≤ o.n.toNat) && decide (o.n.toNat ≤ 512) && decide (1 ≤ o.cap.toNat) && decide (o.cap.toNat ≤ 32) &&
  decide (o.k.toNat ≤ o.cap.toNat) && decide (o.pol.toNat ≤ 1) && decide (o.lcount.toNat ≤ o.lmax.toNat)

def fillSparse (xs : List (Nat × Nat)) : Sparse Word := xs.foldl (fun m p => sset (0 : Word) m p.1 (wNat p.2)) []

def oqrestStep (r : OEnv) (m : BitVec 3) (o : Orth) : Except Stop OStep :=
  match misaligned r.e.c.ga .read with
  | some x => .error x
  | none =>
    let vas (from_ n : Nat) : List Word := (List.range n).map (fun i => r.e.c.ga + wNat (8 * (from_ + i)))
    let read (from_ n : Nat) : Except Stop (List Nat) := vReads r.s r.t r.view m 8 (vas from_ n)
    match read 0 8 with
    | .error e => .error e
    | .ok ws =>
      let h := orthOfWords (fun i => ws.getD i 0)
      if !h.imageOk then .ok { OStep.last_ o.empty fNV [] with reads := [(m, 8, vas 0 8)] }
      else
        let k := h.k.toNat
        let n := h.n.toNat
        match read 8 (k * (n + k)) with
        | .error e => .error e
        | .ok xs =>
          let vs := (List.range (k * n)).map (fun i => (512 * (i / n) + i % n, xs.getD i 0))
          let ts := ((List.range (k * k)).filter (fun i => decide (i / k ≤ i % k))).map (fun i =>
            (32 * (i / k) + i % k, xs.getD (k * n + i) 0))
          .ok { OStep.last_ { h with v := fillSparse vs, t := fillSparse ts } 0 [] with reads := [(m, 8, vas 0 (8 + k * (n + k)))] }

def oqcntStep (r : OEnv) (d : Reg) (o : Orth) : OStep :=
  let w := o.k.toNat + 2 ^ 8 * o.cap.toNat + 2 ^ 16 * o.pol.toNat + (if o.fp64 then 2 ^ 18 else 0) + 2 ^ 32 * o.n.toNat
    + 2 ^ 48 * o.lcount.toNat
  OStep.last_ o 0 [r.e.t.elemWrite d.toNat 64 0 w]

def oqrdStep (r : OEnv) (d : Reg) (o : Orth) : OStep :=
  let sel := r.e.c.gb.toNat
  let c := sel % 64
  let there := decide (c < o.k.toNat)
  let xs : List (Nat × Nat) :=
    if sel.testBit 8 then (List.range 32).map (fun i => (i, if there then o.tAt i c else 0))
    else (List.range o.n.toNat).map (fun i => (i, if there then o.vAt c i else 0))
  let out := vecOuts r.e o d xs
  OStep.last_ o out.2 out.1

/-- The next step of an orthogonal instruction. -/
def orthStep (r : OEnv) (o : Orth) : Instr → Except Stop OStep
  | .oqinit _ _ _ _ m n cap pol => .ok (OStep.last_ (r.e.c.orthInit m n cap pol) 0 [])
  | .oqacc q a _ => capped r q o (oqaccForm r a)
  | .oqhh q d a _ => oqhhStep r q d a o
  | .oqapl _ _ _ m tr => oqapStep r m tr o
  | .oqapr _ _ _ m tr => oqapStep r m (!tr) o
  | .oqapv _ d a tr => .ok (oqapvStep r d a tr o)
  | .oqform q => oqformStep r q o
  | .oqsave _ _ m => oqsaveStep r m o
  | .oqrest _ _ m => oqrestStep r m o
  | .oqcnt _ d => .ok (oqcntStep r d o)
  | .oqrd _ d _ => .ok (oqrdStep r d o)
  | _ => .ok (OStep.last_ o 0 [])

/-- Whether the instruction reads a vector (R105): elements 0 to N - 1. -/
def orthNeeds (t : Strand) (e : VEntry) : Nat :=
  match e.instr with
  | .oqacc q _ _ => (t.orth q).n.toNat
  | .oqhh q _ _ _ => (t.orth q).n.toNat
  | .oqapv q _ _ _ => (t.orth q).n.toNat
  | _ => 0

end

end Sys2Proof.Machine
end

