-- ==== Sys2Proof/Machine/Pred.lean ====
section
/-! DEFINITION. Predicate instructions: major 0x26 PRED (R281). -/

namespace Sys2Proof.Machine

noncomputable section

/-- pd[i] := f(pa[i], pb[i]). -/
def ppOp (m d a b : PReg) (f : Bool → Bool → Bool) : VOp :=
  elemOp m 0 false anyVt (fun _ => [Opd.prd d .elem]) (fun _ => [Opd.prd a .elem, Opd.prd b .elem])
    (fun e i => e.putBit d i (f (e.bit a i) (e.bit b i)))

/-- PRED 00. -/
def opPand (x : VX) (d a b : PReg) : VOp := ppOp x.m d a b (fun p q => p && q)

/-- PRED 01. -/
def opPor (x : VX) (d a b : PReg) : VOp := ppOp x.m d a b (fun p q => p || q)

/-- PRED 02. -/
def opPxor (x : VX) (d a b : PReg) : VOp := ppOp x.m d a b (fun p q => p != q)

/-- PRED 03. -/
def opPandn (x : VX) (d a b : PReg) : VOp := ppOp x.m d a b (fun p q => p && !q)

/-- PRED 04. -/
def opPnot (x : VX) (d a : PReg) : VOp :=
  elemOp x.m 0 false anyVt (fun _ => [Opd.prd d .elem]) (fun _ => [Opd.prd a .elem])
    (fun e i => e.putBit d i (!e.bit a i))

/-- PRED 05: pd[i] := i < g[a]. -/
def opPset (x : VX) (d : PReg) (a : Reg) : VOp :=
  { elemOp x.m 0 false anyVt (fun _ => [Opd.prd d .elem]) (fun _ => [])
      (fun e i => e.putBit d i (decide (i < e.c.ga.toNat))) with ga := a }

/-- The active elements whose bit of p is set, ascending. -/
def VEnv.setList (e : VEnv) (m : Nat) (p : PReg) : List Nat := (e.activeList m e.vl).filter (fun i => e.bit p i)

/-- PRED 06: how many bits of active elements are set. -/
def opPpop (x : VX) (_d : Reg) (a : PReg) : VOp :=
  scalarOp x.m 0 anyVt (fun _ => [Opd.prd a .whole])
    (fun e => (BitVec.ofNat 64 (e.setList x.m.toNat a).length, ERes.none))

/-- PRED 07: the lowest, or -1. -/
def opPfirst (x : VX) (_d : Reg) (a : PReg) : VOp :=
  scalarOp x.m 0 anyVt (fun _ => [Opd.prd a .whole])
    (fun e => (match e.setList x.m.toNat a with | i :: _ => BitVec.ofNat 64 i | [] => BitVec.allOnes 64, ERes.none))

/-- PRED 08: how many set bits of active elements lie below i. -/
def opPscan (x : VX) (d : Reg) (a : PReg) : VOp :=
  { elemOp x.m 0 false anyVt (fun vt => [sewOpd d .elem vt]) (fun _ => [Opd.prd a .whole])
      (fun e i => e.put d e.sew i ((e.activeList x.m.toNat i).filter (fun j => e.bit a j)).length) with
    srcs := fun _ => [Opd.prd x.m .whole, Opd.prd a .whole] }

/-- PRED 09: pd[i] := i < the first active set index, or VL. -/
def opPbefore (x : VX) (d a : PReg) : VOp :=
  { elemOp x.m 0 false (fun _ => d != a) (fun _ => [Opd.prd d .elem]) (fun _ => [Opd.prd a .whole])
      (fun e i => e.putBit d i (decide (i < (e.setList x.m.toNat a).headD e.vl))) with
    srcs := fun _ => [Opd.prd x.m .whole, Opd.prd a .whole] }

/-- PRED 0A: vd[i] := pa[i] as 1 or 0. -/
def opPmv (x : VX) (d : Reg) (a : PReg) : VOp :=
  elemOp x.m 0 false anyVt (fun vt => [sewOpd d .elem vt]) (fun _ => [Opd.prd a .elem])
    (fun e i => e.put d e.sew i (if e.bit a i then 1 else 0))

end

end Sys2Proof.Machine
end

