-- ==== Sys2Proof/Machine/Tile.lean ====
section
/-! DEFINITION. The matrix engine: tile instructions under a TILE prefix (R151 to R157, R321 to R336). One row of one step
at a time; what the state becomes stands in Engine.lean. -/

namespace Sys2Proof.Machine

noncomputable section

/-! ### Formats and shapes -/

/-- The operand pairs of R322. -/
def pairOk (fa fb : Nat) : Bool :=
  (fa == fb && (fa == 1 || fa == 2 || fa == 3 || fa == 8 || fa == 9)) ||
  ((fa == 4 || fa == 5) && (fb == 4 || fb == 5)) || ((fa == 6 || fa == 7) && (fb == 6 || fb == 7))

def fmtOf (c : BitVec 4) : Fmt := (Fmt.ofCode c.toNat).getD .fp32

/-- Bytes of an element in memory (R322). -/
def fmtBytes (c : BitVec 4) : Nat := (fmtOf c).width / 8

def Strand.tile (t : Strand) (acc : BitVec 3) : Tile := t.tiles.getD acc.toNat Tile.start

/-- The shape that decode checks use (R323). -/
def Strand.holdsTile (t : Strand) (acc : BitVec 3) : Bool := decide (acc.toNat < t.tiles.length)

def Tile.at_ (a : Tile) (m n : Nat) : Nat := (sget (0 : BitVec 64) a.elems (64 * m + n)).toNat
def Tile.set (a : Tile) (m n : Nat) (x : Nat) : Tile :=
  { a with elems := sset (0 : BitVec 64) a.elems (64 * m + n) (BitVec.ofNat 64 x) }

/-- Low and high halves of g[S] or g[B] as signed or unsigned (R326, R330). -/
def strideLo (x : Word) : Word := (x.setWidth 32).signExtend 64
def strideHi (x : Word) : Word := ((x >>> 32).setWidth 32).signExtend 64

/-! ### Arithmetic of a step (R155, R156) -/

/-- Round to WA under RNE; only OF and NV count. -/
def toWa (x : Exact) : Nat × BitVec 5 := let r := x.round .wa Rm.rne false; (r.bits, r.fl &&& (fOF ||| fNV))

/-- An exact sum of terms, as an exact value; NV for any NaN term (R156). -/
def sumExact (xs : List Exact) : Exact :=
  let a := xs.foldl ExactSum.add ExactSum.empty
  ({ a with nv := a.nan }).result

def Exact.isNan : Exact → Bool
  | .nan _ => true
  | _ => false

/-- One K block into an accumulator element: the new container and the flags. -/
def blockStep (old : Nat) (ps : List Exact) : Nat × BitVec 5 :=
  let s := toWa (sumExact ps)
  let r := toWa (fpAdd Rm.rne (Fmt.decode .wa old) (Fmt.decode .wa s.1))
  (r.1, s.2 ||| r.2)

/-- One rounding to FP32 under RNE, no flag (R328). -/
def ckRound (x : Exact) : Nat := (x.round .fp32 Rm.rne false).bits

/-- round(CK + round(v)) (R328). -/
def ckAdd (ck : BitVec 32) (v : Exact) : BitVec 32 :=
  BitVec.ofNat 32 (ckRound (fpAdd Rm.rne (Fmt.decode .fp32 ck.toNat) (Fmt.decode .fp32 (ckRound v))))

/-- An operand element times its E8M0 scale; a scale of 0xFF is a NaN (R151). -/
def scaled8 (sc : Option Nat) (v : FpVal) : FpVal :=
  match sc with
  | none => v
  | some x =>
    if x = 0xFF then .nan true
    else match v with
      | .fin s m e => .fin s m (e + (x : Int) - 127)
      | v => v

/-! ### The suspect check (R329) -/

/-- floor(log2 |x|) of a finite non-zero value. -/
def magE : FpVal → Option Int
  | .fin _ m e => if m = 0 then none else some (e + (m.log2 : Int))
  | _ => none

def maxE (vs : List FpVal) : Option Int :=
  vs.foldl (fun o v => match o, magE v with | some a, some b => some (max a b) | none, b => b | a, none => a) none

def FpVal.finite : FpVal → Bool
  | .fin _ _ _ => true
  | _ => false

/-- ceil(log2 c). -/
def ceilLog2 (c : Nat) : Nat := if c ≤ 1 then 0 else (c - 1).log2 + 1

/-- Whether a result is over bound. -/
def overBound (as bs : List FpVal) (old new : FpVal) : Bool :=
  let ps := (as.zip bs).map (fun p => fpMul p.1 p.2)
  if ps.any (fun p => match p with | .fin _ m _ _ => m != 0 | _ => false) then
    match maxE as, maxE bs with
    | some ea, some eb =>
      let b : Int := ea + eb + (ceilLog2 as.length : Int) + 1
      match new with
      | .fin _ _ _ =>
        (match magE new with
          | some r => decide (r > max ((magE old).getD b) b + 2)
          | none => false)
      | _ => old.finite && as.all FpVal.finite && bs.all FpVal.finite
    | _, _ => false
  else false

/-! ### What a row comes to -/

/-- The accumulator after the row, the entry's gathered sums of A's columns, flags, stores to make, the elements of one
size that it reads through a pin, register writes, and whether an element was over bound. -/
structure RowRes where
  tile : Tile
  partA : List ExactSum
  fl : BitVec 5
  gs : BitVec 5
  stores : List (Nat × Word × Nat)
  reads : List (BitVec 3 × Nat × List Word)
  writes : List EWrite
  sus : Bool
  deriving DecidableEq, Repr

def RowRes.of (a : Tile) : RowRes :=
  { tile := a, partA := [], fl := 0, gs := 0, stores := [], reads := [], writes := [], sus := false }

/-- What a row is given: state, strand, its view of memory, registers and controls, the sums gathered so far, and the
step's number and row. -/
structure RowEnv where
  s : State
  t : Strand
  view : Memory
  e : VEnv
  partA : List ExactSum
  step : Nat
  row : Nat

def RowEnv.read (r : RowEnv) (k : BitVec 3) (n : Nat) (vas : List Word) : Except Stop (List Nat) :=
  vReads r.s r.t r.view k n vas

/-! ### Multiply-accumulate (R326 to R329) -/

/-- Where A comes from. -/
inductive AForm where
  | dense
  | vector
  | sparse
  deriving DecidableEq, Repr

structure MulArgs where
  form : AForm
  acc : BitVec 3
  ra : Reg
  ms : BitVec 3
  fa : BitVec 4
  fb : BitVec 4
  msk : PReg
  ka : BitVec 3
  kb : BitVec 3
  ck : Bool
  deriving DecidableEq, Repr

/-- Whether position k is present. -/
def MulArgs.present (x : MulArgs) (e : VEnv) (k : Nat) : Bool := x.msk == 0 || e.bit x.msk k

/-- Present positions of block b. -/
def MulArgs.block (x : MulArgs) (e : VEnv) (b : Nat) : List Nat :=
  ((List.range 32).map (fun i => 32 * b + i)).filter (fun k => decide (k < e.vl) && x.present e k)

/-- Addresses of row m of A at the present positions of a block. -/
def MulArgs.aAddrs (x : MulArgs) (e : VEnv) (m : Nat) (ks : List Nat) : List Word :=
  let base := e.c.ga + wNat m * strideLo e.c.gd
  let col (k : Nat) : Nat :=
    if x.form = .sparse then ((List.range k).filter (fun j => x.present e j)).length else k
  ks.map (fun k => base + wNat (col k * fmtBytes x.fa))

/-- Addresses of B at the present positions of a block: position by position, column by column. -/
def MulArgs.bAddrs (x : MulArgs) (e : VEnv) (n : Nat) (ks : List Nat) : List Word :=
  (ks.map (fun k => (List.range n).map (fun j =>
    e.c.gb + wNat k * strideHi e.c.gd + wNat (j * fmtBytes x.fb)))).flatten

/-- Addresses of the scales of rows of A or columns of B in block b (R327). -/
def scaleAddrs (base : Word) (n nb b : Nat) : List Word := (List.range n).map (fun i => base + wNat (i * nb + b))

def MulArgs.scaleA (x : MulArgs) : Bool := x.ms.getLsbD 0
def MulArgs.scaleB (x : MulArgs) : Bool := x.ms.getLsbD 1

/-- Row m of block step b: everything read, in the order B, scale arrays, A. -/
def MulArgs.operands (x : MulArgs) (r : RowEnv) (a : Tile) (ks : List Nat) :
    Except Stop (List (List FpVal) × List FpVal) :=
  let e := r.e
  let nb := ceilDiv e.vl 32
  let n := a.n.toNat
  match r.read x.kb (fmtBytes x.fb) (x.bAddrs e n ks) with
  | .error z => .error z
  | .ok bs =>
    match (if x.scaleA then r.read x.ka 1 (scaleAddrs e.c.mxsa a.m.toNat nb r.step) else .ok []) with
    | .error z => .error z
    | .ok sas =>
      match (if x.scaleB then r.read x.kb 1 (scaleAddrs e.c.mxsb n nb r.step) else .ok []) with
      | .error z => .error z
      | .ok sbs =>
        let as : Except Stop (List Nat) :=
          if x.form = .vector then .ok (ks.map (fun k => e.get x.ra (8 * fmtBytes x.fa) (r.row * e.vl + k)))
          else r.read x.ka (fmtBytes x.fa) (x.aAddrs e r.row ks)
        match as with
        | .error z => .error z
        | .ok as =>
          let sa : Option Nat := if x.scaleA then sas[r.row]? else none
          let av := as.map (fun v => scaled8 sa ((fmtOf x.fa).decode v))
          let rows := (List.range ks.length).map (fun i => (List.range n).map (fun j =>
            scaled8 (if x.scaleB then sbs[j]? else none) ((fmtOf x.fb).decode (bs.getD (i * n + j) 0))))
          .ok (rows, av)

/-- Column j of B. -/
def column (rows : List (List FpVal)) (j : Nat) : List FpVal := rows.map (fun r => r.getD j (.fin false 0 0))

/-- One element of the row. -/
def mulElem (rows : List (List FpVal)) (av : List FpVal) (m : Nat) (z : RowRes) (n : Nat) : RowRes :=
  let bs := column rows n
  let old := z.tile.at_ m n
  let new := blockStep old ((av.zip bs).map (fun p => fpMul p.1 p.2))
  { z with tile := z.tile.set m n new.1, fl := z.fl ||| new.2,
           sus := z.sus || overBound av bs (Fmt.decode .wa old) (Fmt.decode .wa new.1) }

/-- sB[k] as a value. -/
def sumRow (vs : List FpVal) : FpVal := Fmt.decode .fp32 (ckRound ((vs.map FpVal.exact).foldl ExactSum.add ExactSum.empty).result)

def dotExact (xs ys : List FpVal) : Exact :=
  (((xs.zip ys).map (fun p => fpMul p.1 p.2)).foldl ExactSum.add ExactSum.empty).result

/-- The checksum extension's part of a row (R328): CKROW of the row, the gathered sums of A's columns, and after the
last row CKCOL. -/
def ckPart (rows : List (List FpVal)) (av : List FpVal) (m : Nat) (part : List ExactSum) (z : RowRes) : RowRes :=
  let a := z.tile
  let row := dotExact av (rows.map sumRow)
  let sums := ((if m = 0 then av.map (fun _ => ExactSum.empty) else part).zip av).map (fun p => p.1.add p.2.exact)
  let a := { a with ckrow := sset (0 : BitVec 32) a.ckrow m (ckAdd (sget 0 a.ckrow m) row) }
  if m + 1 < a.m.toNat then { z with tile := a, partA := sums }
  else
    let sa := sums.map (fun z => Fmt.decode .fp32 (ckRound z.result))
    { z with tile := { a with
        ckcol := (List.range a.n.toNat).foldl
          (fun c n => sset (0 : BitVec 32) c n (ckAdd (sget 0 c n) (dotExact sa (column rows n)))) a.ckcol } }

/-- What a row of a multiply form reads through its pins. -/
def MulArgs.reads (x : MulArgs) (r : RowEnv) (a : Tile) (ks : List Nat) : List (BitVec 3 × Nat × List Word) :=
  let nb := ceilDiv r.e.vl 32
  [(x.kb, fmtBytes x.fb, x.bAddrs r.e a.n.toNat ks)]
  ++ (if x.scaleA then [(x.ka, 1, scaleAddrs r.e.c.mxsa a.m.toNat nb r.step)] else [])
  ++ (if x.scaleB then [(x.kb, 1, scaleAddrs r.e.c.mxsb a.n.toNat nb r.step)] else [])
  ++ (if x.form = .vector then [] else [(x.ka, fmtBytes x.fa, x.aAddrs r.e r.row ks)])

/-- One row of a multiply form. -/
def mulRow (x : MulArgs) (r : RowEnv) (a : Tile) : Except Stop RowRes :=
  let ks := x.block r.e r.step
  let a := if x.ck then a else { a with ckv := false }
  if ks = [] then .ok (RowRes.of a)
  else
    match x.operands r a ks with
    | .error z => .error z
    | .ok (rows, av) =>
      let z := (List.range a.n.toNat).foldl (mulElem rows av r.row) { RowRes.of a with reads := x.reads r a ks }
      .ok (if x.ck then ckPart rows av r.row r.partA z else z)

def mulOp (x : MulArgs) (rb rs : Reg) : VOp :=
  { ga := if x.form = .vector then 0 else x.ra, gb := rb, gd := rs, acts := fun _ _ => false
    legal := fun t =>
      t.holdsTile x.acc && pairOk x.fa.toNat x.fb.toNat && decide (x.ms.toNat ≤ 3) && x.kb != 0 &&
      (if x.form = .vector then (x.ka != 0) == x.scaleA else x.ka != 0) &&
      (x.form != .sparse || x.msk != 0) && (!x.scaleA || decide (4 ≤ x.fa.toNat)) && (!x.scaleB || decide (4 ≤ x.fb.toNat)) &&
      (x.form != .vector ||
        ((sewOpd x.ra .whole t.ctl.vtype).ok && vtSew t.ctl.vtype == 8 * fmtBytes x.fa &&
          decide ((t.tile x.acc).recM.toNat * t.ctl.vl.toNat ≤ vlmaxOf t.lgw t.ctl.vtype)))
    dests := fun _ => []
    srcs := fun vt => (if x.msk = 0 then [] else [Opd.prd x.msk .whole]) ++
      (if x.form = .vector then [sewOpd x.ra .whole vt] else [])
    run := .tile }

def mulArgs (form : AForm) (acc : BitVec 3) (ra : Reg) (ms : BitVec 3) (fa fb : BitVec 4) (mk : PReg) (ka kb : BitVec 3)
    (ck : Bool) : MulArgs :=
  { form := form, acc := acc, ra := ra, ms := ms, fa := fa, fb := fb, msk := mk, ka := ka, kb := kb, ck := ck }

/-- fn 02. -/
def opTmma (acc : BitVec 3) (ra rb rs : Reg) (ms : BitVec 3) (fa fb : BitVec 4) (mk : PReg) (ka kb : BitVec 3)
    (ck : Bool) : VOp := mulOp (mulArgs .dense acc ra ms fa fb mk ka kb ck) rb rs

/-- fn 03. -/
def opTmmaV (acc : BitVec 3) (ra rb rs : Reg) (ms : BitVec 3) (fa fb : BitVec 4) (mk : PReg) (ka kb : BitVec 3)
    (ck : Bool) : VOp := mulOp (mulArgs .vector acc ra ms fa fb mk ka kb ck) rb rs

/-- fn 04. -/
def opTmmas (acc : BitVec 3) (ra rb rs : Reg) (ms : BitVec 3) (fa fb : BitVec 4) (mk : PReg) (ka kb : BitVec 3)
    (ck : Bool) : VOp := mulOp (mulArgs .sparse acc ra ms fa fb mk ka kb ck) rb rs

/-! ### Forms of one step -/

/-- A tile instruction with g operands a, b, S, extra checks, and vector operands. -/
def tileOp (acc : BitVec 3) (ga gb gd : Reg) (legal : Strand → Bool) (ds ss : Word → List Opd) : VOp :=
  { ga := ga, gb := gb, gd := gd, acts := fun _ _ => false
    legal := fun t => t.holdsTile acc && legal t && operandsOk false (ds t.ctl.vtype) (ss t.ctl.vtype)
    dests := ds, srcs := ss, run := .tile }

def noOpds : Word → List Opd := fun _ => []

/-- fn 00 and 01 (R325). -/
def opTcfg (acc : BitVec 3) : VOp := tileOp acc 0 0 0 (fun _ => true) noOpds noOpds
def opTzero (acc : BitVec 3) : VOp := tileOp acc 0 0 0 (fun _ => true) noOpds noOpds

/-- Elements, checksums, CKV and ROWPROG of a cleared accumulator (R325). -/
def Tile.clear (a : Tile) : Tile := { a with elems := [], ckrow := [], ckcol := [], ckv := true }

def tcfgRow (r : RowEnv) (a : Tile) : RowRes :=
  RowRes.of { a.clear with m := r.e.c.tshape.setWidth 7, n := (r.e.c.tshape >>> 8).setWidth 7 }

/-- fn 05 (R330). -/
def opTld (acc : BitVec 3) (ra rb rs : Reg) (ms : BitVec 3) (fa : BitVec 4) (ka : BitVec 3) : VOp :=
  tileOp acc ra rb rs
    (fun _ => ka != 0 && decide (ms.toNat ≤ 1) && (if ms = 1 then fa == 0 else (Fmt.ofCode fa.toNat).isSome)) noOpds noOpds

/-- An element of memory widened to WA: FP64 rounds with flags, the others are exact. -/
def widen (fa : BitVec 4) (x : Nat) : Nat × BitVec 5 :=
  let r := ((fmtOf fa).decode x).exact.round .wa Rm.rne false
  (r.bits, if fa = 0 then r.fl else r.fl &&& fNV)

def tldRow (ms : BitVec 3) (fa : BitVec 4) (ka : BitVec 3) (r : RowEnv) (a : Tile) : Except Stop RowRes :=
  let c := r.e.c
  let sa := if ms = 1 then 8 else fmtBytes fa
  let vr := c.gb.toNat % 2 ^ 32
  let vc := c.gb.toNat / 2 ^ 32
  let pad := ((Fmt.decode .fp32 c.tpad.toNat).exact.round .wa Rm.rne false).bits
  let cols := if r.row < vr then Nat.min vc a.n.toNat else 0
  let base := c.ga + wNat r.row * strideLo c.gd
  let vas := (List.range cols).map (fun n => base + wNat (n * sa))
  match r.read ka sa vas with
  | .error z => .error z
  | .ok xs =>
    let z := (List.range a.n.toNat).foldl (fun (z : RowRes) n =>
      let v := match xs[n]? with
        | some x => if ms = 1 then (x, 0) else widen fa x
        | none => (pad, 0)
      { z with tile := z.tile.set r.row n v.1, fl := z.fl ||| v.2 }) (RowRes.of { a with ckv := false })
    .ok { z with gs := if vr = 0 ∨ vc = 0 then gPADFILL else 0, reads := [(ka, sa, vas)] }

/-- fn 06 (R331). -/
def opTst (acc : BitVec 3) (ra rs : Reg) (ms : BitVec 3) (fa : BitVec 4) (ka : BitVec 3) : VOp :=
  tileOp acc ra 0 rs
    (fun _ => ka != 0 && decide (ms.toNat ≤ 3) && (if ms.getLsbD 0 then fa == 0 else (Fmt.ofCode fa.toNat).isSome))
    noOpds noOpds

/-- An element read out to a format (R157, R331): element i numbers the stochastic counter. -/
def readOut (e : VEnv) (f : Fmt) (i x : Nat) : FpRes := (Fmt.decode .wa x).exact.round f (e.rm i) (vtSat e.c.vtype)

def tstRow (ms : BitVec 3) (fa : BitVec 4) (r : RowEnv) (a : Tile) : RowRes :=
  let c := r.e.c
  let sa := if ms.getLsbD 0 then 8 else fmtBytes fa
  let sd := strideLo c.gd
  let at_ (n : Nat) : Word :=
    if ms.getLsbD 1 then c.ga + wNat n * sd + wNat (r.row * sa) else c.ga + wNat r.row * sd + wNat (n * sa)
  (List.range a.n.toNat).foldl (fun (z : RowRes) n =>
    let x := a.at_ r.row n
    let v : FpRes := if ms.getLsbD 0 then { bits := x, fl := 0, satx := false } else readOut r.e (fmtOf fa) (64 * r.row + n) x
    { z with stores := z.stores ++ [(64 * r.row + n, at_ n, v.bits)], fl := z.fl ||| v.fl, gs := z.gs ||| satBit v.satx })
    (RowRes.of a)

/-- The checks of fn 07 and 08 on VTYPE (R323). -/
def lineOk (ms : BitVec 3) (vt : Word) : Bool :=
  decide (ms.toNat ≤ 3) && (if ms.getLsbD 1 then vtSew vt == 64 else fpOk vt)

def lineOp (acc : BitVec 3) (ra rb : Reg) (ms : BitVec 3) : VOp :=
  tileOp acc 0 rb 0 (fun t => lineOk ms t.ctl.vtype)
    (fun vt => if ms.getLsbD 0 then [] else [sewOpd ra .elem vt])
    (fun vt => if ms.getLsbD 0 then [sewOpd ra .elem vt] else [])

/-- fn 07 and 08 (R332). -/
def opTrow (acc : BitVec 3) (ra rb : Reg) (ms : BitVec 3) : VOp := lineOp acc ra rb ms
def opTcol (acc : BitVec 3) (ra rb : Reg) (ms : BitVec 3) : VOp := lineOp acc ra rb ms

/-- A line between accumulator and vector. Its read-out saturates under VTYPE.SAT as that of `tst` (R157, R331; log 61). -/
def lineRow (col : Bool) (ra : Reg) (ms : BitVec 3) (r : RowEnv) (a : Tile) : RowRes :=
  let x := r.e.c.gb.toNat
  let len := if col then a.m.toNat else a.n.toNat
  let ok := decide (x < if col then a.n.toNat else a.m.toNat)
  let f := r.e.fmt
  let gs : BitVec 5 := if ok then 0 else gGATHERX
  let place (j : Nat) : Nat × Nat := if col then (j, x) else (x, j)
  let get (j : Nat) : Nat := a.at_ (place j).1 (place j).2
  if ms.getLsbD 0 then
    if ok then
      (List.range len).foldl (fun (z : RowRes) j =>
        let y := r.e.get ra r.e.sew j
        let v : Nat × BitVec 5 :=
          if ms.getLsbD 1 then (y, 0)
          else let w := (f.decode y).exact.round .wa Rm.rne false; (w.bits, if f = .fp64 then w.fl else w.fl &&& fNV)
        { z with tile := z.tile.set (place j).1 (place j).2 v.1, fl := z.fl ||| v.2 }) (RowRes.of { a with ckv := false })
    else { RowRes.of a with gs := gs }
  else
    (List.range len).foldl (fun (z : RowRes) j =>
      let v : FpRes :=
        if !ok then { bits := 0, fl := 0, satx := false }
        else if ms.getLsbD 1 then { bits := get j, fl := 0, satx := false }
        else readOut r.e f j (get j)
      { z with writes := z.writes ++ [r.e.t.elemWrite ra.toNat r.e.sew j v.bits], fl := z.fl ||| v.fl,
               gs := z.gs ||| satBit v.satx }) { RowRes.of a with gs := gs }

/-- fn 09 (R335). -/
def opTchk (acc : BitVec 3) (ra rb : Reg) (mk : PReg) : VOp :=
  tileOp acc 0 rb 0 (fun t => vtFmt t.ctl.vtype == 1 && vtSew t.ctl.vtype == 32)
    (fun vt => [sewOpd ra .elem vt, Opd.prd mk .elem]) noOpds

/-- A residue: exact sum minus a checksum, rounded once to FP32, no flag. -/
def residue (xs : List Nat) (ck : BitVec 32) : Nat :=
  let terms := xs.map (fun x => (Fmt.decode .wa x).exact) ++ [(Fmt.decode .fp32 ck.toNat).neg.exact]
  ckRound ((terms.foldl ExactSum.add ExactSum.empty).result)

def residues (a : Tile) : List Nat :=
  let m := a.m.toNat
  let n := a.n.toNat
  (List.range 64).map (fun i => if i < m then residue ((List.range n).map (fun j => a.at_ i j)) (sget 0 a.ckrow i) else 0)
  ++ (List.range 64).map (fun j => if j < n then residue ((List.range m).map (fun i => a.at_ i j)) (sget 0 a.ckcol j) else 0)

/-- Whether a residue is a NaN or larger in magnitude than tol. -/
def residueBad (tol x : Nat) : Bool :=
  let v := Fmt.decode .fp32 (x % 2 ^ 31)
  v.isNan || fpCmp (Fmt.decode .fp32 tol) v == some .lt

def tchkRow (ra : Reg) (mk : PReg) (r : RowEnv) (a : Tile) : RowRes :=
  let res := residues a
  let tol := r.e.c.gb.toNat % 2 ^ 32
  let z := (List.range 128).foldl (fun (z : RowRes) i =>
    let x := res.getD i 0
    { z with writes := z.writes ++ [r.e.t.elemWrite ra.toNat 32 i x, .p mk.toNat i (residueBad tol x)] }) (RowRes.of a)
  { z with tile := { a with ckv := !res.any (residueBad tol) } }

/-- fn 0A (R336). -/
def opTcon (acc : BitVec 3) (ra rb : Reg) (ms : BitVec 3) (fa fb : BitVec 4) (ka kb : BitVec 3) : VOp :=
  tileOp acc ra rb 0
    (fun t => ka != 0 && kb != 0 && decide (ms.toNat ≤ 2) && fa == fb && (fa == 1 || fa == 2 || fa == 3) &&
      (t.tile acc).recM == 64 && (t.tile acc).recN == 8) noOpds noOpds

/-- Place of u with the contracted index set to l, for accumulator row 8h + o. -/
def conIndex (ms : BitVec 3) (row l : Nat) : Nat :=
  let h := row / 8
  let o := row % 8
  if ms = 0 then 64 * l + 8 * h + o else if ms = 1 then 64 * h + 8 * l + o else 64 * h + 8 * o + l

def tconRow (ms : BitVec 3) (fa : BitVec 4) (ka kb : BitVec 3) (r : RowEnv) (a : Tile) : Except Stop RowRes :=
  let c := r.e.c
  let n := fmtBytes fa
  let f := fmtOf fa
  let dvas := (List.range 64).map (fun i => c.gb + wNat (i * n))
  let uvas := (List.range 8).map (fun l => c.ga + wNat (conIndex ms r.row l * n))
  match r.read kb n dvas with
  | .error z => .error z
  | .ok ds =>
    match r.read ka n uvas with
    | .error z => .error z
    | .ok us =>
      .ok ((List.range 8).foldl (fun (z : RowRes) q =>
        let ps := (List.range 8).map (fun l => fpMul (f.decode (ds.getD (8 * q + l) 0)) (f.decode (us.getD l 0)))
        let v := blockStep (z.tile.at_ r.row q) ps
        { z with tile := z.tile.set r.row q v.1, fl := z.fl ||| v.2 }) 
        { RowRes.of { a with ckv := false } with reads := [(kb, n, dvas), (ka, n, uvas)] })

/-- fn 0B and 0C (R333). -/
def opTsave (acc : BitVec 3) (ra : Reg) (ka : BitVec 3) : VOp := tileOp acc ra 0 0 (fun _ => ka != 0) noOpds noOpds
def opTrest (acc : BitVec 3) (ra : Reg) (ka : BitVec 3) : VOp := tileOp acc ra 0 0 (fun _ => ka != 0) noOpds noOpds

/-- The image of R333 as 8-byte words: 4,096 elements, 32 + 32 pairs of checksums, the shape. -/
def Tile.imageWord (a : Tile) (i : Nat) : Nat :=
  let pair (c : Sparse (BitVec 32)) (j : Nat) : Nat :=
    (sget (0 : BitVec 32) c (2 * j)).toNat + 2 ^ 32 * (sget (0 : BitVec 32) c (2 * j + 1)).toNat
  if i < 4096 then a.at_ (i / 64) (i % 64)
  else if i < 4128 then pair a.ckrow (i - 4096)
  else if i < 4160 then pair a.ckcol (i - 4128)
  else a.m.toNat + 2 ^ 8 * a.n.toNat + (if a.ckv then 2 ^ 24 else 0)

/-- The words of one row: 64 elements; the last row also takes the rest. -/
def imageRow (m : Nat) : List Nat :=
  (List.range 64).map (fun n => 64 * m + n) ++ (if m = 63 then (List.range 65).map (fun j => 4096 + j) else [])

def tsaveRow (r : RowEnv) (a : Tile) : RowRes :=
  { RowRes.of a with stores := (imageRow r.row).map (fun i => (i, r.e.c.ga + wNat (8 * i), a.imageWord i)) }

/-- Take back one word of an image; a container outside the present shape stays +0 (R124). -/
def Tile.takeWord (a : Tile) (i x : Nat) : Tile :=
  let pair (c : Sparse (BitVec 32)) (j : Nat) : Sparse (BitVec 32) :=
    sset 0 (sset 0 c (2 * j) (BitVec.ofNat 32 x)) (2 * j + 1) (BitVec.ofNat 32 (x / 2 ^ 32))
  if i < 4096 then a.set (i / 64) (i % 64) (if i / 64 < a.m.toNat ∧ i % 64 < a.n.toNat then x else 0)
  else if i < 4128 then { a with ckrow := pair a.ckrow (i - 4096) }
  else if i < 4160 then { a with ckcol := pair a.ckcol (i - 4128) }
  else { a with ckv := x.testBit 24 }

def trestRow (ka : BitVec 3) (r : RowEnv) (a : Tile) : Except Stop RowRes :=
  let vas := (imageRow r.row).map (fun i => r.e.c.ga + wNat (8 * i))
  match r.read ka 8 vas with
  | .error z => .error z
  | .ok xs =>
    .ok { RowRes.of (((imageRow r.row).zip xs).foldl (fun a p => a.takeWord p.1 p.2) a) with reads := [(ka, 8, vas)] }

/-- fn 0D (R334). -/
def opTstat (acc : BitVec 3) (ra : Reg) : VOp :=
  tileOp acc 0 0 0 (fun t => vtSew t.ctl.vtype == 64) (fun vt => [sewOpd ra .elem vt]) noOpds

def tstatRow (acc : BitVec 3) (ra : Reg) (r : RowEnv) (a : Tile) : RowRes :=
  let any (p : FpVal → Bool) : Bool := (List.range 4096).any (fun i => p (Fmt.decode .wa (a.at_ (i / 64) (i % 64))))
  let w := a.m.toNat + 2 ^ 8 * a.n.toNat + 2 ^ 16 * a.rowprog.toNat + (if a.ckv then 2 ^ 24 else 0)
    + (if r.t.ctl.suspect.getLsbD acc.toNat then 2 ^ 25 else 0) + (if any FpVal.isNan then 2 ^ 26 else 0)
    + (if any (fun v => match v with | .inf _ => true | _ => false) then 2 ^ 27 else 0)
  { RowRes.of a with writes := [r.e.t.elemWrite ra.toNat 64 0 w] }

/-! ### The table of forms -/

/-- A tile instruction at work: accumulator, number of steps, rows of a step, pin and element bytes of its stores, whether
it needs an 8-byte aligned image (R333), and its row. -/
structure TileForm where
  acc : BitVec 3
  steps : Nat
  rows : Nat
  pin : BitVec 3
  bytes : Nat
  image : Option AKind
  row : RowEnv → Tile → Except Stop RowRes

def TileForm.one (acc : BitVec 3) (row : RowEnv → Tile → RowRes) : TileForm :=
  { acc := acc, steps := 1, rows := 1, pin := 0, bytes := 0, image := none, row := fun r a => .ok (row r a) }

/-- The form of a tile instruction, given VL and the accumulator's rows. -/
def tileForm (vl m : Nat) : Instr → Option TileForm
  | .tcfg acc => some (TileForm.one acc tcfgRow)
  | .tzero acc => some (TileForm.one acc (fun _ a => RowRes.of a.clear))
  | .tmma acc ra _ _ ms fa fb mk ka kb ck =>
    some { acc := acc, steps := ceilDiv vl 32, rows := m, pin := 0, bytes := 0, image := none,
           row := mulRow (mulArgs .dense acc ra ms fa fb mk ka kb ck) }
  | .tmmaV acc ra _ _ ms fa fb mk ka kb ck =>
    some { acc := acc, steps := ceilDiv vl 32, rows := m, pin := 0, bytes := 0, image := none,
           row := mulRow (mulArgs .vector acc ra ms fa fb mk ka kb ck) }
  | .tmmas acc ra _ _ ms fa fb mk ka kb ck =>
    some { acc := acc, steps := ceilDiv vl 32, rows := m, pin := 0, bytes := 0, image := none,
           row := mulRow (mulArgs .sparse acc ra ms fa fb mk ka kb ck) }
  | .tld acc _ _ _ ms fa ka =>
    some { acc := acc, steps := 1, rows := m, pin := 0, bytes := 0, image := none, row := tldRow ms fa ka }
  | .tst acc _ _ ms fa ka =>
    some { acc := acc, steps := 1, rows := m, pin := ka, bytes := if ms.getLsbD 0 then 8 else fmtBytes fa, image := none,
           row := fun r a => .ok (tstRow ms fa r a) }
  | .trow acc ra _ ms => some (TileForm.one acc (lineRow false ra ms))
  | .tcol acc ra _ ms => some (TileForm.one acc (lineRow true ra ms))
  | .tchk acc ra _ mk => some (TileForm.one acc (tchkRow ra mk))
  | .tcon acc _ _ ms fa _ ka kb =>
    some { acc := acc, steps := 1, rows := 64, pin := 0, bytes := 0, image := none, row := tconRow ms fa ka kb }
  | .tsave acc _ ka =>
    some { acc := acc, steps := 1, rows := 64, pin := ka, bytes := 8, image := some .write,
           row := fun r a => .ok (tsaveRow r a) }
  | .trest acc _ ka =>
    some { acc := acc, steps := 1, rows := 64, pin := 0, bytes := 0, image := some .read, row := trestRow ka }
  | .tstat acc ra => some (TileForm.one acc (tstatRow acc ra))
  | _ => none

/-- Leading elements of the vector source that the next row needs (R105, R324, R332). -/
def tileNeeds (t : Strand) (e : VEntry) : Nat :=
  match e.instr with
  | .tmmaV acc _ _ _ _ _ _ _ _ _ _ => Nat.min ((e.rowprog + 1) * e.caps.vl.toNat) ((t.tile acc).m.toNat * e.caps.vl.toNat)
  | .trow acc _ _ _ => (t.tile acc).n.toNat
  | .tcol acc _ _ _ => (t.tile acc).m.toNat
  | _ => 0

end

end Sys2Proof.Machine
end

