-- ==== Sys2Proof/Machine/VCmp.lean ====
section
/-! DEFINITION. Vector compares: major 0x25 VCMP (R280). -/

namespace Sys2Proof.Machine

noncomputable section

/-- An integer condition: no flag. -/
def icFn (f : Nat → Nat → Nat → Bool) : VEnv → Nat → Nat → Bool × BitVec 5 := fun e x y => (f e.sew x y, 0)

/-- A floating-point condition (R265). -/
def fcFn (c : Cmp) : VEnv → Nat → Nat → Bool × BitVec 5 := fun e x y => fcmpN c e.fmt x y

/-- VCMP 00: a = b. -/
def opVeq (x : VX) (d : PReg) (a b : Reg) : VOp := cvvOp x.m anyVt d a b (icFn (fun _ x y => x == y))

/-- VCMP 01: a ≠ b. -/
def opVne (x : VX) (d : PReg) (a b : Reg) : VOp := cvvOp x.m anyVt d a b (icFn (fun _ x y => x != y))

/-- VCMP 02: a < b, signed. -/
def opVlt (x : VX) (d : PReg) (a b : Reg) : VOp := cvvOp x.m anyVt d a b (icFn (fun w x y => decide (toSigned w x < toSigned w y)))

/-- VCMP 03: a ≤ b, signed. -/
def opVle (x : VX) (d : PReg) (a b : Reg) : VOp := cvvOp x.m anyVt d a b (icFn (fun w x y => decide (toSigned w x ≤ toSigned w y)))

/-- VCMP 04: a < b, unsigned. -/
def opVltu (x : VX) (d : PReg) (a b : Reg) : VOp := cvvOp x.m anyVt d a b (icFn (fun _ x y => decide (x < y)))

/-- VCMP 05: a ≤ b, unsigned. -/
def opVleu (x : VX) (d : PReg) (a b : Reg) : VOp := cvvOp x.m anyVt d a b (icFn (fun _ x y => decide (x ≤ y)))

/-- VCMP 06: a = b. -/
def opVfeq (x : VX) (d : PReg) (a b : Reg) : VOp := cvvOp x.m fpOk d a b (fcFn .eq)

/-- VCMP 07: a < b. -/
def opVflt (x : VX) (d : PReg) (a b : Reg) : VOp := cvvOp x.m fpOk d a b (fcFn .lt)

/-- VCMP 08: a ≤ b. -/
def opVfle (x : VX) (d : PReg) (a b : Reg) : VOp := cvvOp x.m fpOk d a b (fcFn .le)

/-- VCMP 09: a or b is a NaN. -/
def opVfunord (x : VX) (d : PReg) (a b : Reg) : VOp := cvvOp x.m fpOk d a b (fcFn .unord)

/-- VCMP 10: a = b, b a scalar. -/
def opVeqScalar (x : VX) (d : PReg) (a b : Reg) : VOp := cvsOp x.m anyVt d a b (icFn (fun _ x y => x == y))

/-- VCMP 11: a ≠ b, b a scalar. -/
def opVneScalar (x : VX) (d : PReg) (a b : Reg) : VOp := cvsOp x.m anyVt d a b (icFn (fun _ x y => x != y))

/-- VCMP 12: a < b, signed, b a scalar. -/
def opVltScalar (x : VX) (d : PReg) (a b : Reg) : VOp := cvsOp x.m anyVt d a b (icFn (fun w x y => decide (toSigned w x < toSigned w y)))

/-- VCMP 13: a ≤ b, signed, b a scalar. -/
def opVleScalar (x : VX) (d : PReg) (a b : Reg) : VOp := cvsOp x.m anyVt d a b (icFn (fun w x y => decide (toSigned w x ≤ toSigned w y)))

/-- VCMP 14: a < b, unsigned, b a scalar. -/
def opVltuScalar (x : VX) (d : PReg) (a b : Reg) : VOp := cvsOp x.m anyVt d a b (icFn (fun _ x y => decide (x < y)))

/-- VCMP 15: a ≤ b, unsigned, b a scalar. -/
def opVleuScalar (x : VX) (d : PReg) (a b : Reg) : VOp := cvsOp x.m anyVt d a b (icFn (fun _ x y => decide (x ≤ y)))

/-- VCMP 16: a = b, b a scalar. -/
def opVfeqScalar (x : VX) (d : PReg) (a b : Reg) : VOp := cvsOp x.m fpOk d a b (fcFn .eq)

/-- VCMP 17: a < b, b a scalar. -/
def opVfltScalar (x : VX) (d : PReg) (a b : Reg) : VOp := cvsOp x.m fpOk d a b (fcFn .lt)

/-- VCMP 18: a ≤ b, b a scalar. -/
def opVfleScalar (x : VX) (d : PReg) (a b : Reg) : VOp := cvsOp x.m fpOk d a b (fcFn .le)

/-- VCMP 19: a or b is a NaN, b a scalar. -/
def opVfunordScalar (x : VX) (d : PReg) (a b : Reg) : VOp := cvsOp x.m fpOk d a b (fcFn .unord)


end

end Sys2Proof.Machine
end

