-- ==== Sys2Proof/Machine/VConf.lean ====
section
/-! DEFINITION. Conflict detection: major 0x2B VCONF (R292, R293). -/

namespace Sys2Proof.Machine

noncomputable section

/-- VCONF 00: the largest active j below i with an equal key, else -1. -/
def opVconf (x : VX) (d a : Reg) : VOp :=
  { elemOp x.m 0 true anyVt (fun vt => [sewOpd d .elem vt]) (fun vt => [sewOpd a .whole vt])
      (fun e i =>
        let same := (e.activeList x.m.toNat i).filter (fun j => e.get a e.sew j == e.get a e.sew i)
        e.put d e.sew i (same.getLast?.getD (2 ^ e.sew - 1))) with
    srcs := fun vt => [Opd.prd x.m .whole, sewOpd a .whole vt]
    picks := some (fun e i => (e.activeList x.m.toNat (i + 1)).map (fun j => (a.toNat, e.sew, j))) }

/-- Whether element i is the last active one with its key. -/
def VEnv.isLast (e : VEnv) (m : Nat) (a : Reg) (i : Nat) : Bool :=
  !(e.activeList m e.vl).any (fun j => decide (i < j) && e.get a e.sew j == e.get a e.sew i)

/-- VCONF 01: 1 for the last active element with a key. -/
def opVlead (x : VX) (d : PReg) (a : Reg) : VOp :=
  { elemOp x.m 0 false anyVt (fun _ => [Opd.prd d .elem]) (fun vt => [sewOpd a .whole vt])
      (fun e i => e.putBit d i (e.isLast x.m.toNat a i)) with
    srcs := fun vt => [Opd.prd x.m .whole, sewOpd a .whole vt]
    picks := some (fun e i => ((e.activeList x.m.toNat e.vl).filter (fun j => decide (i ≤ j))).map (fun j => (a.toNat, e.sew, j))) }

/-- A left-to-right sum, the counter of each addition that of the element added (R293). -/
def sumUp (op : Nat → Nat → Nat → Nat × BitVec 5) (get : Nat → Nat) : List Nat → Nat → BitVec 5 → Nat × BitVec 5
  | [], s, fl => (s, fl)
  | j :: r, s, fl => let x := op j s (get j); sumUp op get r x.1 (fl ||| x.2)

/-- VCONF 02: at the last element of each key, the sum of the key's values. -/
def opVdupsum (x : VX) (d a b : Reg) : VOp :=
  { elemOp x.m 0 true fpOk (fun vt => [sewOpd d .elem vt]) (fun vt => [sewOpd a .whole vt, sewOpd b .whole vt])
      (fun e i =>
        if e.isLast x.m.toNat a i then
          match (e.activeList x.m.toNat e.vl).filter (fun j => e.get a e.sew j == e.get a e.sew i) with
          | [] => ERes.none
          | j :: r =>
            let s := sumUp (fun k p q => faddN e.fmt (e.rm k) p q) (fun k => e.get b e.sew k) r (e.get b e.sew j) 0
            (e.put d e.sew i s.1).withFlags s.2 0
        else ERes.none) with
    srcs := fun vt => [Opd.prd x.m .whole, sewOpd a .whole vt, sewOpd b .whole vt]
    picks := some (fun e i =>
      let act := e.activeList x.m.toNat e.vl
      act.map (fun j => (a.toNat, e.sew, j)) ++
      (if e.isLast x.m.toNat a i then act.filter (fun j => e.get a e.sew j == e.get a e.sew i) else []).map
        (fun j => (b.toNat, e.sew, j))) }

end

end Sys2Proof.Machine
end

