-- ==== Sys2Proof/Machine/VCvt.lean ====
section
/-! DEFINITION. Conversions and MX packing: major 0x29 VCVT (R141, R142, R151, R153, R287 to R290). -/

namespace Sys2Proof.Machine

noncomputable section

/-! ### The two sides (R288) -/

/-- A conversion from elements of width sw to elements of width dw (by VTYPE). -/
def cvtOp (m : PReg) (extra : Word → Bool) (d a : Reg) (dw sw : Word → Nat) (apart : Word → Bool)
    (f : VEnv → Nat → Nat → Nat × BitVec 5 × Bool) : VOp :=
  let ds := fun vt => [Opd.vec vt d (dw vt) .elem]
  let ss := fun vt => [Opd.vec vt a (sw vt) .elem]
  { elemOp m 0 false extra ds ss
      (fun e i =>
        let r := f e i (e.get a (sw e.c.vtype) i)
        (e.put d (dw e.c.vtype) i r.1).withFlags r.2.1 (satBit r.2.2)) with
    legal := fun t => frameOk (apart t.ctl.vtype) ds ss extra t }

/-- The format of VTYPE.FMT, whatever SEW is. -/
def vtAnyFmt (vt : Word) : Fmt := (Fmt.ofCode (vtFmt vt)).getD .fp32

/-- A conversion's result as bits, flags and saturation. -/
def FpRes.triple (r : FpRes) : Nat × BitVec 5 × Bool := (r.bits, r.fl, r.satx)

/-- Class 0: float format s to VTYPE.FMT (R287). -/
def cvtFF (s : Fmt) (code : Nat) (x : VX) (d a : Reg) : VOp :=
  cvtOp x.m (fun vt => vtFmt vt != code && decide (vtFmt vt ≤ 9) && (vtAnyFmt vt).width == vtSew vt) d a vtSew
    (fun _ => s.width) (fun vt => vtSew vt != s.width)
    (fun e i v => ((s.decode v).exact.round (vtAnyFmt e.c.vtype) (e.rm i) (vtSat e.c.vtype)).triple)

/-- A float to an integer of w bits (R142, R289). -/
def toIntN (w : Nat) (signed : Bool) (rm : Rm) (sat : Bool) (v : FpVal) : Nat × BitVec 5 × Bool :=
  let lo : Int := if signed then -((2 : Int) ^ (w - 1)) else 0
  let hi : Int := if signed then (2 : Int) ^ (w - 1) - 1 else (2 : Int) ^ w - 1
  let r := fpToInt rm lo hi v
  (ofInt w r.1, r.2.1, sat && r.2.2)

/-- Classes 1 and 2: float format s to an integer of SEW bits. -/
def cvtFI (s : Fmt) (signed : Bool) (x : VX) (d a : Reg) : VOp :=
  cvtOp x.m anyVt d a vtSew (fun _ => s.width) (fun vt => vtSew vt != s.width)
    (fun e i v => toIntN e.sew signed (e.rm i) (vtSat e.c.vtype) (s.decode v))

/-- Class 3, s 0 to 3: a signed integer of SEW bits to float format s. -/
def cvtIF (s : Fmt) (x : VX) (d a : Reg) : VOp :=
  cvtOp x.m anyVt d a (fun _ => s.width) vtSew (fun vt => vtSew vt != s.width)
    (fun e i v => ((Exact.ofInt (toSigned e.sew v)).round s (e.rm i) (vtSat e.c.vtype)).triple)

/-- An integer of n bits to one of w bits: widening sign-extends, narrowing follows R142. -/
def intToInt (n w : Nat) (sat : Bool) (v : Nat) : Nat × BitVec 5 × Bool :=
  let y := toSigned n v
  if n ≤ w ∨ !sat then (ofInt w y, 0, false) else let z := clampN w y; (z, 0, toSigned w z != y)

/-- Class 3, s 4 to 7: a signed integer of W bits to one of SEW bits. -/
def cvtII (n : Nat) (x : VX) (d a : Reg) : VOp :=
  cvtOp x.m (fun vt => vtSew vt != n) d a vtSew (fun _ => n) (fun _ => true)
    (fun e _ v => intToInt n e.sew (vtSat e.c.vtype) v)

/-! ### The codes -/

/-- vcvt.f.fp64, code 00. -/
def opVcvtFFp64 (x : VX) (d a : Reg) : VOp := cvtFF .fp64 0 x d a

/-- vcvt.i.fp64, code 01. -/
def opVcvtIFp64 (x : VX) (d a : Reg) : VOp := cvtFI .fp64 true x d a

/-- vcvt.u.fp64, code 02. -/
def opVcvtUFp64 (x : VX) (d a : Reg) : VOp := cvtFI .fp64 false x d a

/-- vcvt.fp64.i, code 03. -/
def opVcvtFp64I (x : VX) (d a : Reg) : VOp := cvtIF .fp64 x d a

/-- vcvt.f.fp32, code 04. -/
def opVcvtFFp32 (x : VX) (d a : Reg) : VOp := cvtFF .fp32 1 x d a

/-- vcvt.i.fp32, code 05. -/
def opVcvtIFp32 (x : VX) (d a : Reg) : VOp := cvtFI .fp32 true x d a

/-- vcvt.u.fp32, code 06. -/
def opVcvtUFp32 (x : VX) (d a : Reg) : VOp := cvtFI .fp32 false x d a

/-- vcvt.fp32.i, code 07. -/
def opVcvtFp32I (x : VX) (d a : Reg) : VOp := cvtIF .fp32 x d a

/-- vcvt.f.fp16, code 08. -/
def opVcvtFFp16 (x : VX) (d a : Reg) : VOp := cvtFF .fp16 2 x d a

/-- vcvt.i.fp16, code 09. -/
def opVcvtIFp16 (x : VX) (d a : Reg) : VOp := cvtFI .fp16 true x d a

/-- vcvt.u.fp16, code 0A. -/
def opVcvtUFp16 (x : VX) (d a : Reg) : VOp := cvtFI .fp16 false x d a

/-- vcvt.fp16.i, code 0B. -/
def opVcvtFp16I (x : VX) (d a : Reg) : VOp := cvtIF .fp16 x d a

/-- vcvt.f.bf16, code 0C. -/
def opVcvtFBf16 (x : VX) (d a : Reg) : VOp := cvtFF .bf16 3 x d a

/-- vcvt.i.bf16, code 0D. -/
def opVcvtIBf16 (x : VX) (d a : Reg) : VOp := cvtFI .bf16 true x d a

/-- vcvt.u.bf16, code 0E. -/
def opVcvtUBf16 (x : VX) (d a : Reg) : VOp := cvtFI .bf16 false x d a

/-- vcvt.bf16.i, code 0F. -/
def opVcvtBf16I (x : VX) (d a : Reg) : VOp := cvtIF .bf16 x d a

/-- vcvt.f.e4m3, code 10. -/
def opVcvtFE4m3 (x : VX) (d a : Reg) : VOp := cvtFF .e4m3 4 x d a

/-- vcvt.i.e4m3, code 11. -/
def opVcvtIE4m3 (x : VX) (d a : Reg) : VOp := cvtFI .e4m3 true x d a

/-- vcvt.u.e4m3, code 12. -/
def opVcvtUE4m3 (x : VX) (d a : Reg) : VOp := cvtFI .e4m3 false x d a

/-- vcvt.i.i8, code 13. -/
def opVcvtII8 (x : VX) (d a : Reg) : VOp := cvtII 8 x d a

/-- vcvt.f.e5m2, code 14. -/
def opVcvtFE5m2 (x : VX) (d a : Reg) : VOp := cvtFF .e5m2 5 x d a

/-- vcvt.i.e5m2, code 15. -/
def opVcvtIE5m2 (x : VX) (d a : Reg) : VOp := cvtFI .e5m2 true x d a

/-- vcvt.u.e5m2, code 16. -/
def opVcvtUE5m2 (x : VX) (d a : Reg) : VOp := cvtFI .e5m2 false x d a

/-- vcvt.i.i16, code 17. -/
def opVcvtII16 (x : VX) (d a : Reg) : VOp := cvtII 16 x d a

/-- vcvt.f.e2m3, code 18. -/
def opVcvtFE2m3 (x : VX) (d a : Reg) : VOp := cvtFF .e2m3 6 x d a

/-- vcvt.i.e2m3, code 19. -/
def opVcvtIE2m3 (x : VX) (d a : Reg) : VOp := cvtFI .e2m3 true x d a

/-- vcvt.u.e2m3, code 1A. -/
def opVcvtUE2m3 (x : VX) (d a : Reg) : VOp := cvtFI .e2m3 false x d a

/-- vcvt.i.i32, code 1B. -/
def opVcvtII32 (x : VX) (d a : Reg) : VOp := cvtII 32 x d a

/-- vcvt.f.e3m2, code 1C. -/
def opVcvtFE3m2 (x : VX) (d a : Reg) : VOp := cvtFF .e3m2 7 x d a

/-- vcvt.i.e3m2, code 1D. -/
def opVcvtIE3m2 (x : VX) (d a : Reg) : VOp := cvtFI .e3m2 true x d a

/-- vcvt.u.e3m2, code 1E. -/
def opVcvtUE3m2 (x : VX) (d a : Reg) : VOp := cvtFI .e3m2 false x d a

/-- vcvt.i.i64, code 1F. -/
def opVcvtII64 (x : VX) (d a : Reg) : VOp := cvtII 64 x d a

/-- vcvt.f.t8, code 20. -/
def opVcvtFT8 (x : VX) (d a : Reg) : VOp := cvtFF .t8 8 x d a

/-- vcvt.i.t8, code 21. -/
def opVcvtIT8 (x : VX) (d a : Reg) : VOp := cvtFI .t8 true x d a

/-- vcvt.u.t8, code 22. -/
def opVcvtUT8 (x : VX) (d a : Reg) : VOp := cvtFI .t8 false x d a

/-- vcvt.f.t6, code 24. -/
def opVcvtFT6 (x : VX) (d a : Reg) : VOp := cvtFF .t6 9 x d a

/-- vcvt.i.t6, code 25. -/
def opVcvtIT6 (x : VX) (d a : Reg) : VOp := cvtFI .t6 true x d a

/-- vcvt.u.t6, code 26. -/
def opVcvtUT6 (x : VX) (d a : Reg) : VOp := cvtFI .t6 false x d a

/-! ### MX packing (R290) -/

/-- emax of R153. -/
def mxEmax : Fmt → Int
  | .e4m3 => 8
  | .e5m2 => 15
  | .e2m3 => 2
  | .e3m2 => 4
  | .t8 => 12
  | .t6 => 4
  | _ => 0

/-- SEW 8 with an MX element format. -/
def mxOk (vt : Word) : Bool := vtSew vt == 8 && decide (4 ≤ vtFmt vt) && decide (vtFmt vt ≤ 9)

/-- floor(log2) of a block's largest magnitude: none for a NaN; a magnitude of 0 counts as -∞, ∞ as +∞. -/
def blockExp (vs : List FpVal) : Option Int :=
  vs.foldl (fun (o : Option Int) v =>
    match o with
    | none => none
    | some t =>
      match v with
      | .nan _ => none
      | .inf _ => some 100000
      | .fin _ m e => if m = 0 then some t else some (max t (e + (m.log2 : Int)))) (some (-100000))

/-- The scale byte X of R153. -/
def mxScale (f : Fmt) (vs : List FpVal) : Nat :=
  match blockExp vs with
  | none => 0xFF
  | some t => (max 0 (min 254 (t - mxEmax f + 127))).toNat

/-- A decoded value times 2^k. -/
def FpVal.scale (k : Int) : FpVal → FpVal
  | .fin s m e => .fin s m (e + k)
  | v => v

/-- The active elements of the block that holds element i. -/
def VEnv.block (e : VEnv) (m i : Nat) : List Nat :=
  ((List.range 32).map (fun k => i / 32 * 32 + k)).filter (fun j => e.active m j)

/-- Last element below VL of the block that holds element i. -/
def VEnv.blockEnd (e : VEnv) (i : Nat) : Nat := Nat.min (i / 32 * 32 + 31) (e.vl - 1)

/-- One element of vmxpack: the element where it is active, and the scale byte with its block's last active element, or
with the block's last element when none is active. -/
def mxPackElem (m : Nat) (d a b : Reg) (e : VEnv) (i : Nat) : ERes :=
  let f := vtAnyFmt e.c.vtype
  let act := e.block m i
  let x := mxScale f (act.map (fun j => Fmt.decode .fp32 (e.get a 32 j)))
  let own : ERes :=
    if e.active m i then
      if x = 0xFF then (e.put d 8 i f.canonNaN).withFlags fNV 0
      else
        let r := ((Fmt.decode .fp32 (e.get a 32 i)).scale (127 - (x : Int))).exact.round f (e.rm i) (vtSat e.c.vtype)
        (e.put d 8 i r.bits).withFlags r.fl (satBit r.satx)
    else ERes.none
  if act.getLast?.getD (e.blockEnd i) = i then own.join (e.put b 8 (i / 32) x) else own

/-- Two operands that share no register. -/
def apartOk (os : List Opd) : Bool :=
  match os with
  | [p, q, r] => p.ok && q.ok && r.ok && !p.shares q && !p.shares r && !q.shares r
  | _ => false

/-- The scale operand: one register of bytes. -/
def scaleOpd (b : Reg) (reach : Reach) : Opd := { pred := false, reg := b.toNat, bits := 8, count := 1, reach := reach }

/-- VCVT 3E (R290). -/
def opVmxpack (x : VX) (d a b : Reg) : VOp :=
  { ga := 0, gb := 0, gd := 0
    acts := fun e i => e.active x.m.toNat i || (e.block x.m.toNat i == [] && e.blockEnd i == i)
    legal := fun t => mxOk t.ctl.vtype &&
      apartOk [sewOpd d .elem t.ctl.vtype, Opd.vec t.ctl.vtype a 32 .block, scaleOpd b .elem]
    dests := fun vt => [sewOpd d .elem vt, { scaleOpd b .whole with bits := 0 }]
    srcs := fun vt => [Opd.prd x.m .block, Opd.vec vt a 32 .block]
    run := .elem (mxPackElem x.m.toNat d a b) (fun _ => 0) }

/-- VCVT 3F (R151, R290). SAT does not govern it (log 61). -/
def opVmxunpack (x : VX) (d a b : Reg) : VOp :=
  { elemOp x.m 0 true mxOk (fun vt => [Opd.vec vt d 32 .elem]) (fun vt => [sewOpd a .elem vt, scaleOpd b .whole])
      (fun e i =>
        let s := e.get b 8 (i / 32)
        if s = 0xFF then (e.put d 32 i (Fmt.canonNaN .fp32)).withFlags fNV 0
        else
          let v := (vtAnyFmt e.c.vtype).decode (e.get a 8 i)
          let r := (v.scale ((s : Int) - 127)).exact.round .fp32 (e.rm i) false
          (e.put d 32 i r.bits).withFlags r.fl 0) with
    legal := fun t => mxOk t.ctl.vtype &&
      apartOk [Opd.vec t.ctl.vtype d 32 .elem, sewOpd a .elem t.ctl.vtype, scaleOpd b .whole]
    picks := some (fun _ i => [(b.toNat, 8, i / 32)]) }

end

end Sys2Proof.Machine
end

