-- ==== Sys2Proof/Machine/VFma.lean ====
section
/-! DEFINITION. Vector multiply-accumulate: major 0x24 VFMA (R278, R279). -/

namespace Sys2Proof.Machine

noncomputable section

/-- A fused multiply-add of format, signs and a, b, d. -/
def fmaFn (np nc : Bool) : VEnv → Nat → Nat → Nat → Nat → Nat × BitVec 5 :=
  fun e i x y z => ffmaN e.fmt (e.rm i) np nc x y z

/-- Integer multiply-add, wrapping. -/
def imaFn : VEnv → Nat → Nat → Nat → Nat → Nat × BitVec 5 := fun e _ x y z => ((x * y + z) % 2 ^ e.sew, 0)

/-- VFMA 00: a·b + d. -/
def opVfmacc (x : VX) (d a b : Reg) : VOp := vvdOp x.m fpOk d a b (fmaFn false false)

/-- VFMA 01: a·b - d. -/
def opVfmsac (x : VX) (d a b : Reg) : VOp := vvdOp x.m fpOk d a b (fmaFn false true)

/-- VFMA 02: -(a·b) - d. -/
def opVfnmacc (x : VX) (d a b : Reg) : VOp := vvdOp x.m fpOk d a b (fmaFn true true)

/-- VFMA 03: -(a·b) + d. -/
def opVfnmsac (x : VX) (d a b : Reg) : VOp := vvdOp x.m fpOk d a b (fmaFn true false)

/-- VFMA 04: a·b + d, b a scalar. -/
def opVfmaccScalar (x : VX) (d a b : Reg) : VOp := vsdOp x.m fpOk d a b (fmaFn false false)

/-- VFMA 05: a·b - d, b a scalar. -/
def opVfmsacScalar (x : VX) (d a b : Reg) : VOp := vsdOp x.m fpOk d a b (fmaFn false true)

/-- VFMA 06: -(a·b) - d, b a scalar. -/
def opVfnmaccScalar (x : VX) (d a b : Reg) : VOp := vsdOp x.m fpOk d a b (fmaFn true true)

/-- VFMA 07: -(a·b) + d, b a scalar. -/
def opVfnmsacScalar (x : VX) (d a b : Reg) : VOp := vsdOp x.m fpOk d a b (fmaFn true false)

/-- VFMA 08: low SEW bits of a·b + d. -/
def opVmacc (x : VX) (d a b : Reg) : VOp := vvdOp x.m anyVt d a b imaFn

/-- VFMA 09: the same, b a scalar. -/
def opVmaccScalar (x : VX) (d a b : Reg) : VOp := vsdOp x.m anyVt d a b imaFn

/-- FMT FP16 or BF16 at SEW 16 (R279, R286). -/
def halfOk (vt : Word) : Bool := (vtFmt vt == 2 || vtFmt vt == 3) && vtSew vt == 16

/-- a × b + d of two formats: the product exact, the sum rounded once to FP32. -/
def wideFma (f : Fmt) (r : Rm) (a b c : Nat) : Nat × BitVec 5 :=
  roundArith .fp32 r (fpFma r (f.decode a) (f.decode b) (Fmt.decode .fp32 c))

/-- VFMA 0A: FP32 a·b + d of 16-bit operands (R279). -/
def opVwmacc (x : VX) (d a b : Reg) : VOp :=
  { elemOp x.m 0 true halfOk (fun vt => [Opd.vec vt d 32 .elem]) (fun vt => [sewOpd a .elem vt, sewOpd b .elem vt])
      (fun e i =>
        let r := wideFma e.fmt (e.rm i) (e.get a 16 i) (e.get b 16 i) (e.get d 32 i)
        (e.put d 32 i r.1).withFlags r.2 0) with
    srcs := fun vt => [Opd.prd x.m .elem, sewOpd a .elem vt, sewOpd b .elem vt, Opd.vec vt d 32 .elem] }

end

end Sys2Proof.Machine
end

