-- ==== Sys2Proof/Machine/VFp.lean ====
section
/-! DEFINITION. Vector floating-point arithmetic: majors 0x22 VFP and 0x23 VFPS (R276, R277). -/

namespace Sys2Proof.Machine

noncomputable section

/-- A floating-point function of format, mode, a and b. -/
def fpFn (g : Fmt → Rm → Nat → Nat → Nat × BitVec 5) : VEnv → Nat → Nat → Nat → Nat × BitVec 5 :=
  fun e i x y => g e.fmt (e.rm i) x y

def fpFn1 (g : Fmt → Rm → Nat → Nat × BitVec 5) : VEnv → Nat → Nat → Nat × BitVec 5 := fun e i x => g e.fmt (e.rm i) x

/-- VFP 00: a + b (R276). -/
def opVfadd (x : VX) (d a b : Reg) : VOp := vvOp x.m fpOk d a b (fpFn (fun f r x y => faddN f r x y))

/-- VFP 01: a - b (R276). -/
def opVfsub (x : VX) (d a b : Reg) : VOp := vvOp x.m fpOk d a b (fpFn (fun f r x y => fsubN f r x y))

/-- VFP 02: a × b (R276). -/
def opVfmul (x : VX) (d a b : Reg) : VOp := vvOp x.m fpOk d a b (fpFn (fun f r x y => fmulN f r x y))

/-- VFP 03: a ÷ b (R276). -/
def opVfdiv (x : VX) (d a b : Reg) : VOp := vvOp x.m fpOk d a b (fpFn (fun f r x y => fdivN f r x y))

/-- VFP 05: minimumNumber (R276). -/
def opVfmin (x : VX) (d a b : Reg) : VOp := vvOp x.m fpOk d a b (fpFn (fun f _ x y => fminN f x y))

/-- VFP 06: maximumNumber (R276). -/
def opVfmax (x : VX) (d a b : Reg) : VOp := vvOp x.m fpOk d a b (fpFn (fun f _ x y => fmaxN f x y))

/-- VFP 07: magnitude of a, sign of b (R276). -/
def opVfsgnj (x : VX) (d a b : Reg) : VOp := vvOp x.m fpOk d a b (fpFn (fun f _ x y => (signInject f (signOf f y) x, 0)))

/-- VFP 08: magnitude of a, inverted sign of b (R276). -/
def opVfsgnjn (x : VX) (d a b : Reg) : VOp := vvOp x.m fpOk d a b (fpFn (fun f _ x y => (signInject f (!signOf f y) x, 0)))

/-- VFP 09: magnitude of a, sign of a xor sign of b (R276). -/
def opVfsgnjx (x : VX) (d a b : Reg) : VOp := vvOp x.m fpOk d a b (fpFn (fun f _ x y => (signInject f (signOf f x != signOf f y) x, 0)))

/-- VFP 04: √a (R276). -/
def opVfsqrt (x : VX) (d a : Reg) : VOp := vOp1 x.m fpOk d a (fpFn1 (fun f r x => fsqrtN f r x))

/-- VFP 0A: class word of a (R277). -/
def opVfclass (x : VX) (d a : Reg) : VOp := vOp1 x.m fpOk d a (fpFn1 (fun f _ x => (fpClass f x, 0)))

/-- VFPS 00: a + b (R276). -/
def opVfaddScalar (x : VX) (d a b : Reg) : VOp := vsOp x.m fpOk d a b (fpFn (fun f r x y => faddN f r x y))

/-- VFPS 01: a - b (R276). -/
def opVfsubScalar (x : VX) (d a b : Reg) : VOp := vsOp x.m fpOk d a b (fpFn (fun f r x y => fsubN f r x y))

/-- VFPS 02: a × b (R276). -/
def opVfmulScalar (x : VX) (d a b : Reg) : VOp := vsOp x.m fpOk d a b (fpFn (fun f r x y => fmulN f r x y))

/-- VFPS 03: a ÷ b (R276). -/
def opVfdivScalar (x : VX) (d a b : Reg) : VOp := vsOp x.m fpOk d a b (fpFn (fun f r x y => fdivN f r x y))

/-- VFPS 05: minimumNumber (R276). -/
def opVfminScalar (x : VX) (d a b : Reg) : VOp := vsOp x.m fpOk d a b (fpFn (fun f _ x y => fminN f x y))

/-- VFPS 06: maximumNumber (R276). -/
def opVfmaxScalar (x : VX) (d a b : Reg) : VOp := vsOp x.m fpOk d a b (fpFn (fun f _ x y => fmaxN f x y))

/-- VFPS 07: magnitude of a, sign of b (R276). -/
def opVfsgnjScalar (x : VX) (d a b : Reg) : VOp := vsOp x.m fpOk d a b (fpFn (fun f _ x y => (signInject f (signOf f y) x, 0)))

/-- VFPS 08: magnitude of a, inverted sign of b (R276). -/
def opVfsgnjnScalar (x : VX) (d a b : Reg) : VOp := vsOp x.m fpOk d a b (fpFn (fun f _ x y => (signInject f (!signOf f y) x, 0)))

/-- VFPS 09: magnitude of a, sign of a xor sign of b (R276). -/
def opVfsgnjxScalar (x : VX) (d a b : Reg) : VOp := vsOp x.m fpOk d a b (fpFn (fun f _ x y => (signInject f (signOf f x != signOf f y) x, 0)))

/-- VFPS 04: √a (R276). -/
def opVfsqrtScalar (x : VX) (d a : Reg) : VOp := vOp1 x.m fpOk d a (fpFn1 (fun f r x => fsqrtN f r x))

/-- VFPS 0A: class word of a (R277). -/
def opVfclassScalar (x : VX) (d a : Reg) : VOp := vOp1 x.m fpOk d a (fpFn1 (fun f _ x => (fpClass f x, 0)))


end

end Sys2Proof.Machine
end

