-- ==== Sys2Proof/Machine/VInt.lean ====
section
/-! DEFINITION. Vector integer arithmetic: majors 0x20 VINT and 0x21 VINTS (R275). -/

namespace Sys2Proof.Machine

noncomputable section

/-- An integer function of width, a and b: no flag (R275). -/
def intFn (f : Nat → Nat → Nat → Nat) : VEnv → Nat → Nat → Nat → Nat × BitVec 5 := fun e _ x y => (f e.sew x y, 0)

/-- VINT 00: a + b. -/
def opVadd (x : VX) (d a b : Reg) : VOp := vvOp x.m anyVt d a b (intFn (fun w x y => (x + y) % 2 ^ w))

/-- VINT 01: a - b. -/
def opVsub (x : VX) (d a b : Reg) : VOp := vvOp x.m anyVt d a b (intFn (fun w x y => (x + 2 ^ w - y) % 2 ^ w))

/-- VINT 02: low bits of a × b. -/
def opVmul (x : VX) (d a b : Reg) : VOp := vvOp x.m anyVt d a b (intFn (fun w x y => x * y % 2 ^ w))

/-- VINT 03: high bits, both signed. -/
def opVmulh (x : VX) (d a b : Reg) : VOp := vvOp x.m anyVt d a b (intFn (fun w x y => mulhN w x y))

/-- VINT 04: high bits, both unsigned. -/
def opVmulhu (x : VX) (d a b : Reg) : VOp := vvOp x.m anyVt d a b (intFn (fun w x y => mulhuN w x y))

/-- VINT 05: bitwise and. -/
def opVand (x : VX) (d a b : Reg) : VOp := vvOp x.m anyVt d a b (intFn (fun _ x y => x &&& y))

/-- VINT 06: bitwise or. -/
def opVor (x : VX) (d a b : Reg) : VOp := vvOp x.m anyVt d a b (intFn (fun _ x y => x ||| y))

/-- VINT 07: bitwise xor. -/
def opVxor (x : VX) (d a b : Reg) : VOp := vvOp x.m anyVt d a b (intFn (fun _ x y => x ^^^ y))

/-- VINT 08: a << (b mod SEW). -/
def opVsll (x : VX) (d a b : Reg) : VOp := vvOp x.m anyVt d a b (intFn (fun w x y => shlN w x (y % w)))

/-- VINT 09: a >> (b mod SEW), zeros entering. -/
def opVsrl (x : VX) (d a b : Reg) : VOp := vvOp x.m anyVt d a b (intFn (fun w x y => shrN w x (y % w)))

/-- VINT 0A: a >> (b mod SEW), copies of the sign entering. -/
def opVsra (x : VX) (d a b : Reg) : VOp := vvOp x.m anyVt d a b (intFn (fun w x y => sarN w x (y % w)))

/-- VINT 0B: signed minimum. -/
def opVmin (x : VX) (d a b : Reg) : VOp := vvOp x.m anyVt d a b (intFn (fun w x y => sminN w x y))

/-- VINT 0C: signed maximum. -/
def opVmax (x : VX) (d a b : Reg) : VOp := vvOp x.m anyVt d a b (intFn (fun w x y => smaxN w x y))

/-- VINT 0D: unsigned minimum. -/
def opVminu (x : VX) (d a b : Reg) : VOp := vvOp x.m anyVt d a b (intFn (fun w x y => uminN w x y))

/-- VINT 0E: unsigned maximum. -/
def opVmaxu (x : VX) (d a b : Reg) : VOp := vvOp x.m anyVt d a b (intFn (fun w x y => umaxN w x y))

/-- VINT 0F: signed quotient. -/
def opVdiv (x : VX) (d a b : Reg) : VOp := vvOp x.m anyVt d a b (intFn (fun w x y => sdivN w x y))

/-- VINT 10: unsigned quotient. -/
def opVdivu (x : VX) (d a b : Reg) : VOp := vvOp x.m anyVt d a b (intFn (fun w x y => udivN w x y))

/-- VINT 11: signed remainder. -/
def opVrem (x : VX) (d a b : Reg) : VOp := vvOp x.m anyVt d a b (intFn (fun w x y => sremN w x y))

/-- VINT 12: unsigned remainder. -/
def opVremu (x : VX) (d a b : Reg) : VOp := vvOp x.m anyVt d a b (intFn (fun w x y => uremN w x y))

/-- VINT 13: a + b as signed, clamped. -/
def opVsadd (x : VX) (d a b : Reg) : VOp := vvOp x.m anyVt d a b (intFn (fun w x y => clampN w (toSigned w x + toSigned w y)))

/-- VINT 14: a - b as signed, clamped. -/
def opVssub (x : VX) (d a b : Reg) : VOp := vvOp x.m anyVt d a b (intFn (fun w x y => clampN w (toSigned w x - toSigned w y)))

/-- VINTS 00: a + b, b a scalar. -/
def opVaddScalar (x : VX) (d a b : Reg) : VOp := vsOp x.m anyVt d a b (intFn (fun w x y => (x + y) % 2 ^ w))

/-- VINTS 01: a - b, b a scalar. -/
def opVsubScalar (x : VX) (d a b : Reg) : VOp := vsOp x.m anyVt d a b (intFn (fun w x y => (x + 2 ^ w - y) % 2 ^ w))

/-- VINTS 02: low bits of a × b, b a scalar. -/
def opVmulScalar (x : VX) (d a b : Reg) : VOp := vsOp x.m anyVt d a b (intFn (fun w x y => x * y % 2 ^ w))

/-- VINTS 03: high bits, both signed, b a scalar. -/
def opVmulhScalar (x : VX) (d a b : Reg) : VOp := vsOp x.m anyVt d a b (intFn (fun w x y => mulhN w x y))

/-- VINTS 04: high bits, both unsigned, b a scalar. -/
def opVmulhuScalar (x : VX) (d a b : Reg) : VOp := vsOp x.m anyVt d a b (intFn (fun w x y => mulhuN w x y))

/-- VINTS 05: bitwise and, b a scalar. -/
def opVandScalar (x : VX) (d a b : Reg) : VOp := vsOp x.m anyVt d a b (intFn (fun _ x y => x &&& y))

/-- VINTS 06: bitwise or, b a scalar. -/
def opVorScalar (x : VX) (d a b : Reg) : VOp := vsOp x.m anyVt d a b (intFn (fun _ x y => x ||| y))

/-- VINTS 07: bitwise xor, b a scalar. -/
def opVxorScalar (x : VX) (d a b : Reg) : VOp := vsOp x.m anyVt d a b (intFn (fun _ x y => x ^^^ y))

/-- VINTS 08: a << (b mod SEW), b a scalar. -/
def opVsllScalar (x : VX) (d a b : Reg) : VOp := vsOp x.m anyVt d a b (intFn (fun w x y => shlN w x (y % w)))

/-- VINTS 09: a >> (b mod SEW), zeros entering, b a scalar. -/
def opVsrlScalar (x : VX) (d a b : Reg) : VOp := vsOp x.m anyVt d a b (intFn (fun w x y => shrN w x (y % w)))

/-- VINTS 0A: a >> (b mod SEW), copies of the sign entering, b a scalar. -/
def opVsraScalar (x : VX) (d a b : Reg) : VOp := vsOp x.m anyVt d a b (intFn (fun w x y => sarN w x (y % w)))

/-- VINTS 0B: signed minimum, b a scalar. -/
def opVminScalar (x : VX) (d a b : Reg) : VOp := vsOp x.m anyVt d a b (intFn (fun w x y => sminN w x y))

/-- VINTS 0C: signed maximum, b a scalar. -/
def opVmaxScalar (x : VX) (d a b : Reg) : VOp := vsOp x.m anyVt d a b (intFn (fun w x y => smaxN w x y))

/-- VINTS 0D: unsigned minimum, b a scalar. -/
def opVminuScalar (x : VX) (d a b : Reg) : VOp := vsOp x.m anyVt d a b (intFn (fun w x y => uminN w x y))

/-- VINTS 0E: unsigned maximum, b a scalar. -/
def opVmaxuScalar (x : VX) (d a b : Reg) : VOp := vsOp x.m anyVt d a b (intFn (fun w x y => umaxN w x y))

/-- VINTS 0F: signed quotient, b a scalar. -/
def opVdivScalar (x : VX) (d a b : Reg) : VOp := vsOp x.m anyVt d a b (intFn (fun w x y => sdivN w x y))

/-- VINTS 10: unsigned quotient, b a scalar. -/
def opVdivuScalar (x : VX) (d a b : Reg) : VOp := vsOp x.m anyVt d a b (intFn (fun w x y => udivN w x y))

/-- VINTS 11: signed remainder, b a scalar. -/
def opVremScalar (x : VX) (d a b : Reg) : VOp := vsOp x.m anyVt d a b (intFn (fun w x y => sremN w x y))

/-- VINTS 12: unsigned remainder, b a scalar. -/
def opVremuScalar (x : VX) (d a b : Reg) : VOp := vsOp x.m anyVt d a b (intFn (fun w x y => uremN w x y))

/-- VINTS 13: a + b as signed, clamped, b a scalar. -/
def opVsaddScalar (x : VX) (d a b : Reg) : VOp := vsOp x.m anyVt d a b (intFn (fun w x y => clampN w (toSigned w x + toSigned w y)))

/-- VINTS 14: a - b as signed, clamped, b a scalar. -/
def opVssubScalar (x : VX) (d a b : Reg) : VOp := vsOp x.m anyVt d a b (intFn (fun w x y => clampN w (toSigned w x - toSigned w y)))

/-- VINTS 20: b - a. -/
def opVrsub (x : VX) (d a b : Reg) : VOp := vsOp x.m anyVt d a b (intFn (fun w x y => (y + 2 ^ w - x) % 2 ^ w))

end

end Sys2Proof.Machine
end

