-- ==== Sys2Proof/Machine/VMem.lean ====
section
/-! DEFINITION. Vector memory instructions: majors 0x30 to 0x3A (R298 to R304): operands, checks and addresses. What an
access does stands in Engine.lean. -/

namespace Sys2Proof.Machine

noncomputable section

/-- Element bytes. -/
def VEnv.n (e : VEnv) : Nat := e.sew / 8

/-- w equals SEW, and the pin is not k0 (R298, R123). -/
def memFrame (w : BitVec 2) (k : BitVec 3) (vt : Word) : Bool := vtSew vt == 8 * 2 ^ w.toNat && k != 0

/-- A load, store or atomic of `nf` fields. -/
def memOp (m : PReg) (a b : Reg) (extra : Word → Bool) (apart : Bool) (ds ss : Word → List Opd) (mo : MemOp) : VOp :=
  { ga := a, gb := b, gd := 0, acts := fun e i => e.active m.toNat i, legal := frameOk apart ds ss extra, dests := ds,
    srcs := fun vt => Opd.prd m .elem :: ss vt, run := .mem mo }

/-! ### Addresses (R299) -/

def addrUnit (e : VEnv) (i : Nat) : Word := e.c.ga + wNat (i * e.n)
def addrStride (e : VEnv) (i : Nat) : Word := e.c.ga + wNat i * e.c.gb
def addrIndex (b : Reg) (e : VEnv) (i : Nat) : Word := e.c.ga + wNat (e.get b e.sew i * e.n)

/-- Field f of record i, under a permutation of records when one is named (R301). -/
def addrSeg (nf : Nat) (perm : Option Reg) (e : VEnv) (i f : Nat) : Word :=
  let r := match perm with | some p => e.get p e.sew i | none => i
  e.c.ga + wNat ((r * nf + f) * e.n)

def loadOp (k : BitVec 3) (d : Reg) (addr : VEnv → Nat → Word) : MemOp :=
  { k := k, kind := .read, fields := 1, addr := fun e i _ => addr e i, data := d, ordered := false, amo := none }

def storeOp (k : BitVec 3) (o : Bool) (d : Reg) (addr : VEnv → Nat → Word) : MemOp :=
  { k := k, kind := .write, fields := 1, addr := fun e i _ => addr e i, data := d, ordered := o, amo := none }

/-! ### Loads -/

def opVld (x : VX) (w : BitVec 2) (k : BitVec 3) (d a : Reg) : VOp :=
  memOp x.m a 0 (memFrame w k) false (fun vt => [sewOpd d .elem vt]) (fun _ => []) (loadOp k d addrUnit)

def opVlds (x : VX) (w : BitVec 2) (k : BitVec 3) (d a b : Reg) : VOp :=
  memOp x.m a b (memFrame w k) false (fun vt => [sewOpd d .elem vt]) (fun _ => []) (loadOp k d addrStride)

def opVldx (x : VX) (w : BitVec 2) (k : BitVec 3) (d a b : Reg) : VOp :=
  memOp x.m a 0 (memFrame w k) false (fun vt => [sewOpd d .elem vt]) (fun vt => [sewOpd b .elem vt])
    (loadOp k d (addrIndex b))

/-- The groups of a record's fields: field f starts at d + f × GROUP (R301). -/
def segOpds (d : Reg) (nf : Nat) (vt : Word) : List Opd :=
  (List.range nf).map (fun f => { sewOpd d .elem vt with reg := d.toNat + f * regsFor vt (vtSew vt) })

def opVldseg (x : VX) (w : BitVec 2) (k : BitVec 3) (d a : Reg) (nf : BitVec 3) (perm : Option (BitVec 5)) : VOp :=
  let n := nf.toNat + 1
  memOp x.m a 0 (fun vt => memFrame w k vt && decide (2 ≤ n)) true (segOpds d n)
    (fun vt => match perm with | some p => [sewOpd p .elem vt] | none => [])
    { k := k, kind := .read, fields := n, addr := addrSeg n perm, data := d, ordered := false, amo := none }

/-! ### Stores -/

def opVst (x : VX) (o : Bool) (w : BitVec 2) (k : BitVec 3) (d a : Reg) : VOp :=
  memOp x.m a 0 (memFrame w k) false (fun _ => []) (fun vt => [sewOpd d .elem vt]) (storeOp k o d addrUnit)

def opVsts (x : VX) (o : Bool) (w : BitVec 2) (k : BitVec 3) (d a b : Reg) : VOp :=
  memOp x.m a b (memFrame w k) false (fun _ => []) (fun vt => [sewOpd d .elem vt]) (storeOp k o d addrStride)

def opVstx (x : VX) (o : Bool) (w : BitVec 2) (k : BitVec 3) (d a b : Reg) : VOp :=
  memOp x.m a 0 (memFrame w k) false (fun _ => []) (fun vt => [sewOpd d .elem vt, sewOpd b .elem vt])
    (storeOp k o d (addrIndex b))

def opVstseg (x : VX) (o : Bool) (w : BitVec 2) (k : BitVec 3) (d a : Reg) (nf : BitVec 3) : VOp :=
  let n := nf.toNat + 1
  memOp x.m a 0 (fun vt => memFrame w k vt && decide (2 ≤ n)) false (fun _ => []) (segOpds d n)
    { k := k, kind := .write, fields := n, addr := addrSeg n none, data := d, ordered := o, amo := none }

/-! ### Atomics (R302) -/

def vamoOp (op : BitVec 2) (x : VX) (o : Bool) (k : BitVec 3) (d a b : Reg) : VOp :=
  memOp x.m a 0 (fun _ => k != 0) false (fun _ => []) (fun vt => [sewOpd d .elem vt, sewOpd b .elem vt])
    { k := k, kind := .atomic, fields := 1, addr := fun e i _ => addrIndex b e i, data := d, ordered := o, amo := some op }

def opVamoAdd (x : VX) (o : Bool) (k : BitVec 3) (d a b : Reg) : VOp := vamoOp 0 x o k d a b
def opVamoMin (x : VX) (o : Bool) (k : BitVec 3) (d a b : Reg) : VOp := vamoOp 1 x o k d a b
def opVamoMax (x : VX) (o : Bool) (k : BitVec 3) (d a b : Reg) : VOp := vamoOp 2 x o k d a b
def opVamoSwap (x : VX) (o : Bool) (k : BitVec 3) (d a b : Reg) : VOp := vamoOp 3 x o k d a b

/-! ### Row gather and stream pop (R303, R304) -/

def opVgscr (x : VX) (w : BitVec 2) (k : BitVec 3) (d a b : Reg) : VOp :=
  { ga := a, gb := 0, gd := d, acts := fun e i => e.active x.m.toNat i
    legal := fun t => frameOk false (fun _ => []) (fun vt => [sewOpd b .elem vt]) (memFrame w k) t
      && t.ctl.xferbar.getLsbD 15
    dests := fun _ => [], srcs := fun vt => [Opd.prd x.m .elem, sewOpd b .elem vt], run := .gscr k b }

def opVepop (_ext : Bool) (w : BitVec 2) (d b : Reg) : VOp :=
  { ga := 0, gb := 0, gd := 0, acts := fun e i => e.active 0 i
    legal := frameOk false (fun vt => [sewOpd d .elem vt]) (fun _ => [])
      (fun vt => vtSew vt == 8 * 2 ^ w.toNat && decide (16 ≤ b.toNat))
    dests := fun vt => [sewOpd d .whole vt], srcs := fun _ => [], run := .epop b d }

end

end Sys2Proof.Machine
end

