-- ==== Sys2Proof/Machine/VPerm.lean ====
section
/-! DEFINITION. Permutations: major 0x27 VPERM (R282 to R284). -/

namespace Sys2Proof.Machine

noncomputable section

/-- An instruction that reads va at other indices, at most the one that `pick` gives, and whose vd shares no register with
a vector source (R272, R105). -/
def permOp (m : PReg) (b d a : Reg) (ss : Word → List Opd) (pick : VEnv → Nat → Option Nat) (f : VEnv → Nat → ERes) : VOp :=
  { elemOp m b true anyVt (fun vt => [sewOpd d .elem vt]) ss f with
    srcs := fun vt => Opd.prd m .whole :: ss vt
    picks := some (fun e i => (pick e i).toList.map (fun j => (a.toNat, e.sew, j))) }

/-- A number below a bound. -/
def below (n x : Nat) : Option Nat := if x < n then some x else none

/-- VPERM 00: vd[i] := va[i - s] for i at or above s = g[b]. -/
def opVslideup (x : VX) (d a b : Reg) : VOp :=
  permOp x.m b d a (fun vt => [sewOpd a .whole vt])
    (fun e i => if e.c.gb.toNat ≤ i then some (i - e.c.gb.toNat) else none)
    (fun e i => if e.c.gb.toNat ≤ i then e.put d e.sew i (e.get a e.sew (i - e.c.gb.toNat)) else ERes.none)

/-- VPERM 01: vd[i] := va[i + s] where i + s < VL, else 0. -/
def opVslidedown (x : VX) (d a b : Reg) : VOp :=
  permOp x.m b d a (fun vt => [sewOpd a .whole vt]) (fun e i => below e.vl (i + e.c.gb.toNat))
    (fun e i => e.put d e.sew i (if i + e.c.gb.toNat < e.vl then e.get a e.sew (i + e.c.gb.toNat) else 0))

/-- read(va, x) of R283: the element and GATHERX. -/
def VEnv.read (e : VEnv) (a : Reg) (x : Nat) : Nat × BitVec 5 :=
  (if x < e.top then e.get a e.sew x else 0, if x < e.vl then 0 else gGATHERX)

/-- VPERM 02: vd[i] := read(va, vb[i]). -/
def opVgather (x : VX) (d a b : Reg) : VOp :=
  { permOp x.m 0 d a (fun vt => [sewOpd a .whole vt, sewOpd b .whole vt]) (fun _ _ => none)
    (fun e i => let r := e.read a (e.get b e.sew i); (e.put d e.sew i r.1).withFlags 0 r.2) with
    picks := some (fun e i => (b.toNat, e.sew, i) ::
      (below e.top (e.get b e.sew i)).toList.map (fun j => (a.toNat, e.sew, j))) }

/-- VPERM 03: the active elements of va, packed from element 0. -/
def opVcompress (x : VX) (d a : Reg) : VOp :=
  { permOp x.m 0 d a (fun vt => [sewOpd a .whole vt]) (fun e i => (e.activeList x.m.toNat e.vl)[i]?)
      (fun e i => match (e.activeList x.m.toNat e.vl)[i]? with
        | some j => e.put d e.sew i (e.get a e.sew j)
        | none => ERes.none) with
    acts := fun e i => decide (i < (e.activeList x.m.toNat e.vl).length) }

/-- VPERM 04: each active element takes the next element of va. -/
def opVexpand (x : VX) (d a : Reg) : VOp :=
  permOp x.m 0 d a (fun vt => [sewOpd a .whole vt]) (fun e i => some (e.activeList x.m.toNat i).length)
    (fun e i => e.put d e.sew i (e.get a e.sew (e.activeList x.m.toNat i).length))

/-- VPERM 05: vd[i] := g[a]. -/
def opVbcast (x : VX) (d a : Reg) : VOp :=
  { elemOp x.m 0 false anyVt (fun vt => [sewOpd d .elem vt]) (fun _ => [])
      (fun e i => e.put d e.sew i e.c.ga.toNat) with ga := a }

/-- VPERM 06: g[d] := sext(read(va, g[b])). -/
def opVmvsv (_ext : Bool) (_d a b : Reg) : VOp :=
  { scalarOp 0 b anyVt (fun vt => [sewOpd a .whole vt])
      (fun e => let r := e.read a e.c.gb.toNat; (sextN e.sew r.1, ERes.none.withFlags 0 r.2)) with
    picks := some (fun e i => if i = 0 then (below e.top e.c.gb.toNat).toList.map (fun j => (a.toNat, e.sew, j)) else []) }

/-- VPERM 07: element g[b] of vd := g[a], when it is active and below VL. -/
def opVmvvs (x : VX) (d a b : Reg) : VOp :=
  { elemOp x.m b false anyVt (fun vt => [sewOpd d .elem vt]) (fun _ => [])
      (fun e i => if i = e.c.gb.toNat then e.put d e.sew i e.c.ga.toNat else ERes.none) with
    ga := a
    run := .elem (fun e i => if i = e.c.gb.toNat then e.put d e.sew i e.c.ga.toNat else ERes.none)
      (fun e => if e.c.gb.toNat < e.vl then 0 else gGATHERX) }

/-- VPERM 08: vd[i] := i. -/
def opViota (x : VX) (d : Reg) : VOp :=
  elemOp x.m 0 false anyVt (fun vt => [sewOpd d .elem vt]) (fun _ => []) (fun e i => e.put d e.sew i i)

/-- VPERM 09: vd[i] := va[i] where pM[i] = 1, else vb[i], for every i below VL. -/
def opVmerge (x : VX) (d a b : Reg) : VOp :=
  { elemOp x.m 0 false anyVt (fun vt => [sewOpd d .elem vt]) (fun vt => [sewOpd a .elem vt, sewOpd b .elem vt])
      (fun e i => e.put d e.sew i (if e.bit x.m i then e.get a e.sew i else e.get b e.sew i)) with
    acts := fun e i => e.active 0 i }

/-- VPERM 0A: each active element takes va at the next lower active index, the lowest takes g[b]. -/
def opVslide1up (x : VX) (d a b : Reg) : VOp :=
  permOp x.m b d a (fun vt => [sewOpd a .whole vt]) (fun e i => (e.activeList x.m.toNat i).getLast?)
    (fun e i => e.put d e.sew i (match (e.activeList x.m.toNat i).getLast? with | some j => e.get a e.sew j | none => e.sb))

/-- VPERM 0B: each active element takes va at the next higher active index, the highest takes g[b]. -/
def opVslide1down (x : VX) (d a b : Reg) : VOp :=
  permOp x.m b d a (fun vt => [sewOpd a .whole vt])
    (fun e i => (e.activeList x.m.toNat e.vl).find? (fun j => decide (i < j)))
    (fun e i => e.put d e.sew i (match (e.activeList x.m.toNat e.vl).find? (fun j => decide (i < j)) with
      | some j => e.get a e.sew j
      | none => e.sb))

end

end Sys2Proof.Machine
end

