-- ==== Sys2Proof/Machine/VRed.lean ====
section
/-! DEFINITION. Reductions: major 0x28 VRED (R111, R150, R285, R286). -/

namespace Sys2Proof.Machine

noncomputable section

/-! ### The reduction geometry (R111) -/

/-- A partial result: its value, the lowest element index it holds, and the flags its operations raised. -/
structure Partial where
  val : Nat
  low : Nat
  fl : BitVec 5
  deriving DecidableEq, Repr

/-- Partial j: the elements whose index is j modulo 16, ascending; the first is the starting value. `op i x y` combines
under the counter of element i. -/
def partialOf (op : Nat → Nat → Nat → Nat × BitVec 5) (get : Nat → Nat) : List Nat → Option Partial → Option Partial
  | [], p => p
  | i :: r, none => partialOf op get r (some { val := get i, low := i, fl := 0 })
  | i :: r, some p =>
    let x := op i p.val (get i)
    partialOf op get r (some { p with val := x.1, fl := p.fl ||| x.2 })

/-- One addition of the tree; an absent operand is skipped. -/
def joinPartial (op : Nat → Nat → Nat → Nat × BitVec 5) : Option Partial → Option Partial → Option Partial
  | none, b => b
  | a, none => a
  | some a, some b =>
    let x := op b.low a.val b.val
    some { val := x.1, low := Nat.min a.low b.low, fl := a.fl ||| b.fl ||| x.2 }

/-- One level of the tree. -/
def treeLevel (op : Nat → Nat → Nat → Nat × BitVec 5) : List (Option Partial) → List (Option Partial)
  | a :: b :: r => joinPartial op a b :: treeLevel op r
  | l => l

/-- A reduction over active indices: 16 partials, then four levels. -/
def reduceList (op : Nat → Nat → Nat → Nat × BitVec 5) (get : Nat → Nat) (is : List Nat) : Option Partial :=
  let ps := (List.range 16).map (fun j => partialOf op get (is.filter (fun i => i % 16 == j)) none)
  (treeLevel op (treeLevel op (treeLevel op (treeLevel op ps)))).headD none

/-- A reduction instruction: `fin` gives the register's value of the result, `empty` the value with no active element. -/
def redOp (m : PReg) (extra : Word → Bool) (a : Reg) (op : VEnv → Nat → Nat → Nat → Nat × BitVec 5)
    (get : VEnv → Nat → Nat) (empty : VEnv → Nat) (fin : VEnv → Nat → Word) : VOp :=
  scalarOp m 0 extra (fun vt => [sewOpd a .whole vt])
    (fun e => match reduceList (op e) (get e) (e.activeList m.toNat e.vl) with
      | some p => (fin e p.val, ERes.none.withFlags p.fl 0)
      | none => (fin e (empty e), ERes.none))

/-- An integer reduction with result sign-extended or zero-extended. -/
def iredOp (m : PReg) (a : Reg) (signed : Bool) (f : Nat → Nat → Nat → Nat) (empty : Nat → Nat) : VOp :=
  redOp m anyVt a (fun e _ x y => (f e.sew x y, 0)) (fun e i => e.get a e.sew i) (fun e => empty e.sew)
    (fun e x => if signed then sextN e.sew x else BitVec.ofNat 64 x)

/-! ### VRED -/

/-- VRED 00. -/
def opVredsum (x : VX) (_d a : Reg) : VOp := iredOp x.m a true (fun w p q => (p + q) % 2 ^ w) (fun _ => 0)

/-- VRED 01. -/
def opVredmin (x : VX) (_d a : Reg) : VOp := iredOp x.m a true sminN (fun w => 2 ^ (w - 1) - 1)

/-- VRED 02. -/
def opVredmax (x : VX) (_d a : Reg) : VOp := iredOp x.m a true smaxN (fun w => 2 ^ (w - 1))

/-- VRED 03. -/
def opVredminu (x : VX) (_d a : Reg) : VOp := iredOp x.m a false uminN (fun w => 2 ^ w - 1)

/-- VRED 04. -/
def opVredmaxu (x : VX) (_d a : Reg) : VOp := iredOp x.m a false umaxN (fun _ => 0)

/-- VRED 05. -/
def opVredand (x : VX) (_d a : Reg) : VOp := iredOp x.m a false (fun _ p q => p &&& q) (fun w => 2 ^ w - 1)

/-- VRED 06. -/
def opVredor (x : VX) (_d a : Reg) : VOp := iredOp x.m a false (fun _ p q => p ||| q) (fun _ => 0)

/-- VRED 07. -/
def opVredxor (x : VX) (_d a : Reg) : VOp := iredOp x.m a false (fun _ p q => p ^^^ q) (fun _ => 0)

/-- A floating-point reduction: FP bits in the register. -/
def fredOp (m : PReg) (a : Reg) (f : Fmt → Rm → Nat → Nat → Nat × BitVec 5) (empty : Fmt → Nat) : VOp :=
  redOp m fpOk a (fun e i p q => f e.fmt (e.rm i) p q) (fun e i => e.get a e.sew i) (fun e => empty e.fmt)
    (fun _ v => BitVec.ofNat 64 v)

/-- The bits of an infinity. -/
def Fmt.infBits (f : Fmt) (s : Bool) : Nat := (if s then 2 ^ f.signBit else 0) + f.maxCode + 1

/-- VRED 08. -/
def opVfredsum (x : VX) (_d a : Reg) : VOp := fredOp x.m a faddN (fun _ => 0)

/-- VRED 09. -/
def opVfredmin (x : VX) (_d a : Reg) : VOp := fredOp x.m a (fun f _ p q => fminN f p q) (fun f => f.infBits false)

/-- VRED 0A. -/
def opVfredmax (x : VX) (_d a : Reg) : VOp := fredOp x.m a (fun f _ p q => fmaxN f p q) (fun f => f.infBits true)

/-- FMT FP16 or BF16 at SEW 16 (R286). -/
def redHalfOk (vt : Word) : Bool := (vtFmt vt == 2 || vtFmt vt == 3) && vtSew vt == 16

/-- A value of a narrower format in FP32, exactly: a signalling NaN stays one, so that the addition that takes it sets NV
(R139, R145). -/
def wideBits (v : FpVal) : Nat := if v.isSnan then 0x7F800001 else (v.exact.round .fp32 Rm.rne false).bits

/-- VRED 0B: elements decoded exactly to FP32, additions in FP32, a NaN result canonical (R146, R286). -/
def opVfredsumW (x : VX) (_d a : Reg) : VOp :=
  redOp x.m redHalfOk a (fun e i p q => faddN .fp32 (e.rm i) p q) (fun e i => wideBits (e.fmt.decode (e.get a 16 i)))
    (fun _ => 0) (fun _ v => BitVec.ofNat 64 (if (Fmt.decode .fp32 v).isNan then Fmt.canonNaN .fp32 else v))

end

end Sys2Proof.Machine
end

