-- ==== Sys2Proof/Machine/VSfu.lean ====
section
/-! DEFINITION. Special functions: major 0x2A VSFU (R159, R160, R291). The spec fixes each result's error bound, not its
bits: the bits are a free value inside the bound (log 8). The bound is measured against the mathematical value, computed
here in fixed point with 320 bits below the point. -/

namespace Sys2Proof.Machine

noncomputable section

/-! ### Fixed point: an Int that counts units of 2^-320 -/

def fxP : Nat := 320
def fxOne : Int := (2 : Int) ^ fxP
def fxMul (a b : Int) : Int := a * b / fxOne
def fxDiv (a b : Int) : Int := a * fxOne / b

/-- log_e 2, π, 2/√π and 1/√2 times 2^320. -/
def fxLn2 : Int := 0xb17217f7d1cf79abc9e3b39803f2f6af40f343267298b62d8a0d175b8baafa2be7b876206debac98
def fxPi : Int := 0x3243f6a8885a308d313198a2e03707344a4093822299f31d0082efa98ec4e6c89452821e638d01377
def fxTwoSqrtPi : Int := 0x120dd750429b6d11ae3a914fed7fd8688281341d7587cea2e7342b06199cc416180eb39f0b24e1e22
def fxSqrtHalf : Int := 0xb504f333f9de6484597d89b3754abe9f1d6f60ba893ba84ced17ac85833399154afc83043ab8a2c3

/-- Terms first, first·x/(k+1), ... of a series whose factor at step k is `step k`, at most n of them. -/
def fxSeries (step : Nat → Int → Int) : Nat → Nat → Int → Int → Int
  | 0, _, _, acc => acc
  | n + 1, k, term, acc => fxSeries step n (k + 1) (step k term) (acc + term)

/-- e^x for |x| up to about 1. -/
def fxExpSmall (x : Int) : Int := fxSeries (fun k t => fxMul t x / (k + 1 : Nat)) 80 0 fxOne 0

/-- 2^x. -/
def fxExp2 (x : Int) : Int :=
  let n := x / fxOne
  let y := fxExpSmall (fxMul (x % fxOne) fxLn2)
  if 0 ≤ n then y * (2 : Int) ^ n.toNat else y / (2 : Int) ^ (-n).toNat

/-- e^x. -/
def fxExp (x : Int) : Int := fxExp2 (fxDiv x fxLn2)

/-- Bits of log2 of a mantissa in [1, 2), by repeated squaring. -/
def fxLogBits : Nat → Int → Int → Int → Int
  | 0, _, _, acc => acc
  | n + 1, m, bit, acc =>
    let q := fxMul m m
    if 2 * fxOne ≤ q then fxLogBits n (q / 2) (bit / 2) (acc + bit) else fxLogBits n q (bit / 2) acc

/-- log2 of m × 2^e for m above 0. -/
def fxLog2 (m : Nat) (e : Int) : Int :=
  let l := m.log2
  let mant : Int := (m : Int) * (2 : Int) ^ (fxP - l)
  (e + (l : Int)) * fxOne + fxLogBits 200 mant (fxOne / 2) 0

/-- sin and cos of x for |x| up to about 7. -/
def fxSin (x : Int) : Int :=
  let q := -fxMul x x
  fxSeries (fun k t => fxMul t q / ((2 * k + 2) * (2 * k + 3) : Nat)) 60 0 x 0

def fxCos (x : Int) : Int :=
  let q := -fxMul x x
  fxSeries (fun k t => fxMul t q / ((2 * k + 1) * (2 * k + 2) : Nat)) 60 0 fxOne 0

/-- erf x for |x| up to 11: the terms (-1)^n x^(2n+1) / n!, each over 2n + 1. -/
def fxErfAux (q : Int) : Nat → Nat → Int → Int → Int
  | 0, _, _, acc => acc
  | n + 1, k, t, acc => fxErfAux q n (k + 1) (fxMul t q / (k + 1 : Nat)) (acc + t / (2 * k + 1 : Nat))

/-- A value whose magnitude is less than 1, though the fixed point may not tell it from 1. -/
def fxBelow1 (x : Int) : Int := max (1 - fxOne) (min x (fxOne - 1))

def fxErf (x : Int) : Int :=
  if 11 * fxOne < x then fxOne - 1 else if x < -11 * fxOne then 1 - fxOne
  else fxMul fxTwoSqrtPi (fxErfAux (-fxMul x x) 500 0 x 0)

/-- The magnitude of a finite value in fixed point. -/
def fxMag (m : Nat) (e : Int) : Int :=
  if 0 ≤ e + (fxP : Int) then (m : Int) * (2 : Int) ^ (e + (fxP : Int)).toNat
  else (m : Int) / (2 : Int) ^ (-(e + (fxP : Int))).toNat

/-- A magnitude of 2^10 and more: every function but `vgelu` is at its limit there. -/
def fxBig (m : Nat) (e : Int) : Bool := decide (10 ≤ e + (m.log2 : Int))

/-- A finite value in fixed point, its magnitude capped at 2^10. -/
def fxOf (s : Bool) (m : Nat) (e : Int) : Int :=
  let a := if fxBig m e then 1024 * fxOne else fxMag m e
  if s then -a else a

/-- x × Φ(x), which is less than x: above 2^10 the difference from x, below -2^10 the value itself is less than any format
shows. -/
def fxGelu (s : Bool) (m : Nat) (e : Int) : Int :=
  let x := fxOf s m e
  if fxBig m e then (if s then -1 else fxMag m e - 1)
  else
    let y := fxMul x ((fxOne + fxErf (fxMul x fxSqrtHalf)) / 2)
    if s then min y (-1) else y

/-- The value modulo 2, for the functions of period 2. -/
def fxMod2 (s : Bool) (m : Nat) (e : Int) : Int :=
  let a : Int := if 0 ≤ e then ((m * 2 ^ e.toNat % 2 : Nat) : Int) * fxOne else
    if 0 ≤ e + (fxP : Int) then (m : Int) * (2 : Int) ^ (e + (fxP : Int)).toNat % (2 * fxOne)
    else (m : Int) / (2 : Int) ^ (-(e + (fxP : Int))).toNat
  (if s then -a else a) % (2 * fxOne)

/-- The function with a code of VSFU, at a finite value that R160 does not name. Where the mathematical value is less than 1,
or than x, or above 0, it stays so in fixed point, so that its unit in the last place is that of the smaller side (R159). -/
def fxSpecial (fn : Nat) (s : Bool) (m : Nat) (e : Int) : Int :=
  let x := fxOf s m e
  match fn with
  | 0 => max (fxExp2 x) 1
  | 1 => fxLog2 m e
  | 4 =>
    let y := fxMod2 s m e
    if 2 * y = fxOne then fxOne else if 2 * y = 3 * fxOne then -fxOne else fxBelow1 (fxSin (fxMul fxPi y))
  | 5 => fxBelow1 (fxCos (fxMul fxPi (fxMod2 s m e)))
  | 6 =>
    let a := if s then -x else x
    let y := fxExp (-2 * a)
    let t := min (fxDiv (fxOne - y) (fxOne + y)) (min a fxOne - 1)
    if s then -t else t
  | 7 =>
    let y := fxExp (-(if s then -x else x))
    if s then max (fxDiv y (fxOne + y)) 1 else fxBelow1 (fxDiv fxOne (fxOne + y))
  | 8 => fxGelu s m e
  | _ => fxErf x

/-! ### The bounds of R159 -/

/-- Units of 2^-1 ulp allowed. -/
def sfuHalfUlps (fn : Nat) (f : Fmt) : Nat :=
  if f = .fp32 then (if fn ≤ 3 then 2 else if fn = 8 then 8 else 4) else if fn ≤ 3 then 1 else 2

/-- The absolute bound that counts if larger, in fixed point. -/
def sfuAbs (fn : Nat) (f : Fmt) : Int :=
  if f = .fp32 ∧ fn = 1 then (2 : Int) ^ (fxP - 24) else if f = .fp32 ∧ fn = 8 then (2 : Int) ^ (fxP - 22) else 0

/-- Half a unit in the last place at a magnitude in fixed point. -/
def halfUlp (f : Fmt) (v : Nat) : Int :=
  let top : Int := (v.log2 : Int) - (fxP : Int)
  let q : Int := max (top - (f.fbits : Int)) (1 - (f.bias : Int) - (f.fbits : Int))
  (2 : Int) ^ (q - 1 + (fxP : Int)).toNat

/-- Round a fixed-point value to nearest, ties to even. -/
def fxRound (f : Fmt) (v : Int) : FpRes := roundFin f Rm.rne false (decide (v < 0)) v.natAbs (-(fxP : Int)) false

/-- The fixed-point value of a finite encoding. -/
def fxValue (f : Fmt) (bits : Nat) : Option Int :=
  match f.decode bits with
  | .fin s m e =>
    let a : Int := (m : Int) * (2 : Int) ^ (e + (fxP : Int)).toNat
    some (if s then -a else a)
  | _ => none

/-- The delivered result: the true value moved by a free part of the bound and rounded, if that stays inside the bound;
else the true value rounded. `vexp2` gives nothing below +0 (R160). -/
def withinBound (fn : Nat) (f : Fmt) (x : Nat) (v : Int) : FpRes :=
  let b := max (sfuAbs fn f) ((sfuHalfUlps fn f : Int) * halfUlp f v.natAbs)
  let near := fxRound f v
  if sfuHalfUlps fn f = 1 then near
  else
    let t : Int := (Config.special fn (f.width * 256 + f.fbits) x % (2 ^ 33 + 1) : Nat) - (2 : Int) ^ 32
    let w := v + b * t / (2 : Int) ^ 32
    let c := fxRound f (if fn = 0 then max w 0 else w)
    match fxValue f c.bits with
    | some y => if (y - v).natAbs ≤ b.natAbs then c else near
    | none => near

/-! ### Special inputs (R160) and results -/

/-- 1.0, 0.5, a signed zero and a signed infinity of a format. -/
def Fmt.one (f : Fmt) : Nat := f.bias * 2 ^ f.fbits
def Fmt.half (f : Fmt) : Nat := (f.bias - 1) * 2 ^ f.fbits
def Fmt.zero (f : Fmt) (s : Bool) : Nat := if s then 2 ^ f.signBit else 0
def Fmt.inf (f : Fmt) (s : Bool) : Nat := f.zero s + f.maxCode + 1
def Fmt.signedOne (f : Fmt) (s : Bool) : Nat := f.zero s + f.one

/-- Whether a finite value is an integer; whether its double is. -/
def isInt (m : Nat) (e : Int) : Bool := decide (0 ≤ e) || decide (m % 2 ^ (-e).toNat = 0)

/-- Whether an integral value is odd. -/
def isOdd (m : Nat) (e : Int) : Bool := if 0 ≤ e then decide (e = 0 ∧ m % 2 = 1) else decide (m / 2 ^ (-e).toNat % 2 = 1)

/-- The special inputs of R160 with their results and flags; none for the other inputs. -/
def sfuNamed (fn : Nat) (f : Fmt) (v : FpVal) : Option (Nat × BitVec 5) :=
  let nan (fl : BitVec 5) : Option (Nat × BitVec 5) := some (f.canonNaN, fl)
  match v with
  | .nan q => nan (if q then fNV else 0)
  | .inf s =>
    match fn with
    | 0 => some (if s then f.zero false else f.inf false, 0)
    | 1 => if s then nan fNV else some (f.inf false, 0)
    | 2 => some (f.zero s, 0)
    | 3 => if s then nan fNV else some (f.zero false, 0)
    | 4 => nan fNV
    | 5 => nan fNV
    | 6 => some (f.signedOne s, 0)
    | 7 => some (if s then f.zero false else f.one, 0)
    | 8 => some (if s then f.zero true else f.inf false, 0)
    | _ => some (f.signedOne s, 0)
  | .fin s m e =>
    if m = 0 then
      match fn with
      | 0 => some (f.one, 0)
      | 1 => some (f.inf true, fDZ)
      | 2 => some (f.inf s, fDZ)
      | 3 => some (f.inf s, fDZ)
      | 4 => some (f.zero false, 0)
      | 5 => some (f.one, 0)
      | 7 => some (f.half, 0)
      | _ => some (f.zero s, 0)
    else
      match fn with
      | 1 => if s then nan fNV else if decide (e ≤ 0) && decide (m = 2 ^ (-e).toNat) then some (f.zero false, 0) else none
      | 3 => if s then nan fNV else none
      | 4 => if isInt m e then some (f.zero s, 0) else none
      | 5 =>
        if isInt m e then some (f.signedOne (isOdd m e), 0)
        else if isInt m (e + 1) then some (f.zero false, 0) else none
      | _ => none

/-- 1 ÷ x, 1 ÷ √x, exactly rounded. -/
def sfuRational (fn : Nat) (f : Fmt) (v : FpVal) : FpRes :=
  let one : FpVal := .fin false 1 0
  if fn = 2 then (fpDiv one v).round f Rm.rne false
  else
    match fpDiv one v with
    | .fin _ m e st =>
      -- The square root of 1/x, with the sticky bit of the quotient kept.
      match fpSqrt (.fin false (m * 2 ^ 2) (e - 2)) with
      | .fin s m' e' st' => (Exact.fin s m' e' (st || st')).round f Rm.rne false
      | y => y.round f Rm.rne false
    | y => y.round f Rm.rne false

/-- A reciprocal or reciprocal root in fixed point. -/
def fxRational (fn : Nat) (v : FpVal) : Int :=
  match fpDiv (.fin false 1 0) v with
  | .fin s m e st =>
    if fn = 2 then (if s then -fxMag m e else fxMag m e)
    else
      match fpSqrt (.fin false m e) with
      | .fin _ m' e' _ => fxMag m' e'
      | _ => if st then 1 else 0
  | _ => 0

/-- Whether a function that is correctly rounded has an exact result: 2^n, log2 of a power of two. -/
def sfuExact (fn : Nat) (m : Nat) (e : Int) : Bool :=
  if fn = 0 then isInt m e else if fn = 1 then decide (m = 2 ^ m.log2) else false

/-- A value beyond a format's range upward: 2^(bias + 1) and more. -/
def Fmt.beyond (f : Fmt) (v : Int) : Bool := decide ((2 : Int) ^ (fxP + f.bias + 1) ≤ v)

/-- A positive value below the normal numbers. -/
def Fmt.beneath (f : Fmt) (v : Int) : Bool := decide (v < (2 : Int) ^ (fxP + 1 - f.bias))

/-- The result of a special function at a finite input that R160 does not name. Where 2^x lies beyond the format's range vexp2
gives +∞ with OF, or +0 or a subnormal with UF, an exact one too (R160); the others raise NX only (R159). -/
def sfuFinite (fn : Nat) (f : Fmt) (x : Nat) (s : Bool) (m : Nat) (e : Int) : Nat × BitVec 5 :=
  let exactly := sfuHalfUlps fn f = 1
  if fn = 2 ∨ fn = 3 then
    let r := sfuRational fn f (.fin s m e)
    if exactly ∨ f.decode r.bits = .inf s then (r.bits, r.fl &&& fNX) else ((withinBound fn f x (fxRational fn (.fin s m e))).bits, fNX)
  else
    let v := fxSpecial fn s m e
    let r := withinBound fn f x v
    let nx : BitVec 5 := if exactly ∧ sfuExact fn m e then r.fl &&& fNX else fNX
    if fn ≠ 0 then (r.bits, nx)
    else if f.beyond v then (f.inf false, fOF ||| fNX)
    else (r.bits, (if f.beneath v then fUF else 0) ||| nx)

/-- A special function by its code (R159, R160). -/
def sfu (fn : Nat) (f : Fmt) (x : Nat) : Nat × BitVec 5 :=
  let v := f.decode x
  match sfuNamed fn f v, v with
  | some r, _ => r
  | none, .fin s m e => sfuFinite fn f x s m e
  | none, _ => (f.canonNaN, 0)

/-- FMT 1, 2 or 3 with SEW equal to its width (R291). -/
def sfuOk (vt : Word) : Bool := fpOk vt && vtFmt vt != 0

def sfuOp (fn : Nat) (x : VX) (d a : Reg) : VOp := vOp1 x.m sfuOk d a (fun e _ v => sfu fn e.fmt v)

/-- VSFU 00. -/
def opVexp2 (x : VX) (d a : Reg) : VOp := sfuOp 0 x d a

/-- VSFU 01. -/
def opVlog2 (x : VX) (d a : Reg) : VOp := sfuOp 1 x d a

/-- VSFU 02. -/
def opVrcp (x : VX) (d a : Reg) : VOp := sfuOp 2 x d a

/-- VSFU 03. -/
def opVrsqrt (x : VX) (d a : Reg) : VOp := sfuOp 3 x d a

/-- VSFU 04. -/
def opVsinpi (x : VX) (d a : Reg) : VOp := sfuOp 4 x d a

/-- VSFU 05. -/
def opVcospi (x : VX) (d a : Reg) : VOp := sfuOp 5 x d a

/-- VSFU 06. -/
def opVtanh (x : VX) (d a : Reg) : VOp := sfuOp 6 x d a

/-- VSFU 07. -/
def opVsigm (x : VX) (d a : Reg) : VOp := sfuOp 7 x d a

/-- VSFU 08. -/
def opVgelu (x : VX) (d a : Reg) : VOp := sfuOp 8 x d a

/-- VSFU 09. -/
def opVerf (x : VX) (d a : Reg) : VOp := sfuOp 9 x d a

end

end Sys2Proof.Machine
end

