-- ==== Sys2Proof/Machine/VTable.lean ====
section
/-! DEFINITION. The vector, tile and orthogonal instructions and what each does: none for every other instruction. -/

namespace Sys2Proof.Machine

noncomputable section

/-- What a VIQ entry's instruction does. -/
def vop : Instr → Option VOp
  | .vadd x d a b => some (opVadd x d a b)
  | .vsub x d a b => some (opVsub x d a b)
  | .vmul x d a b => some (opVmul x d a b)
  | .vmulh x d a b => some (opVmulh x d a b)
  | .vmulhu x d a b => some (opVmulhu x d a b)
  | .vand x d a b => some (opVand x d a b)
  | .vor x d a b => some (opVor x d a b)
  | .vxor x d a b => some (opVxor x d a b)
  | .vsll x d a b => some (opVsll x d a b)
  | .vsrl x d a b => some (opVsrl x d a b)
  | .vsra x d a b => some (opVsra x d a b)
  | .vmin x d a b => some (opVmin x d a b)
  | .vmax x d a b => some (opVmax x d a b)
  | .vminu x d a b => some (opVminu x d a b)
  | .vmaxu x d a b => some (opVmaxu x d a b)
  | .vdiv x d a b => some (opVdiv x d a b)
  | .vdivu x d a b => some (opVdivu x d a b)
  | .vrem x d a b => some (opVrem x d a b)
  | .vremu x d a b => some (opVremu x d a b)
  | .vsadd x d a b => some (opVsadd x d a b)
  | .vssub x d a b => some (opVssub x d a b)
  | .vaddScalar x d a b => some (opVaddScalar x d a b)
  | .vsubScalar x d a b => some (opVsubScalar x d a b)
  | .vmulScalar x d a b => some (opVmulScalar x d a b)
  | .vmulhScalar x d a b => some (opVmulhScalar x d a b)
  | .vmulhuScalar x d a b => some (opVmulhuScalar x d a b)
  | .vandScalar x d a b => some (opVandScalar x d a b)
  | .vorScalar x d a b => some (opVorScalar x d a b)
  | .vxorScalar x d a b => some (opVxorScalar x d a b)
  | .vsllScalar x d a b => some (opVsllScalar x d a b)
  | .vsrlScalar x d a b => some (opVsrlScalar x d a b)
  | .vsraScalar x d a b => some (opVsraScalar x d a b)
  | .vminScalar x d a b => some (opVminScalar x d a b)
  | .vmaxScalar x d a b => some (opVmaxScalar x d a b)
  | .vminuScalar x d a b => some (opVminuScalar x d a b)
  | .vmaxuScalar x d a b => some (opVmaxuScalar x d a b)
  | .vdivScalar x d a b => some (opVdivScalar x d a b)
  | .vdivuScalar x d a b => some (opVdivuScalar x d a b)
  | .vremScalar x d a b => some (opVremScalar x d a b)
  | .vremuScalar x d a b => some (opVremuScalar x d a b)
  | .vsaddScalar x d a b => some (opVsaddScalar x d a b)
  | .vssubScalar x d a b => some (opVssubScalar x d a b)
  | .vrsub x d a b => some (opVrsub x d a b)
  | .vfadd x d a b => some (opVfadd x d a b)
  | .vfsub x d a b => some (opVfsub x d a b)
  | .vfmul x d a b => some (opVfmul x d a b)
  | .vfdiv x d a b => some (opVfdiv x d a b)
  | .vfsqrt x d a => some (opVfsqrt x d a)
  | .vfmin x d a b => some (opVfmin x d a b)
  | .vfmax x d a b => some (opVfmax x d a b)
  | .vfsgnj x d a b => some (opVfsgnj x d a b)
  | .vfsgnjn x d a b => some (opVfsgnjn x d a b)
  | .vfsgnjx x d a b => some (opVfsgnjx x d a b)
  | .vfclass x d a => some (opVfclass x d a)
  | .vfaddScalar x d a b => some (opVfaddScalar x d a b)
  | .vfsubScalar x d a b => some (opVfsubScalar x d a b)
  | .vfmulScalar x d a b => some (opVfmulScalar x d a b)
  | .vfdivScalar x d a b => some (opVfdivScalar x d a b)
  | .vfsqrtScalar x d a => some (opVfsqrtScalar x d a)
  | .vfminScalar x d a b => some (opVfminScalar x d a b)
  | .vfmaxScalar x d a b => some (opVfmaxScalar x d a b)
  | .vfsgnjScalar x d a b => some (opVfsgnjScalar x d a b)
  | .vfsgnjnScalar x d a b => some (opVfsgnjnScalar x d a b)
  | .vfsgnjxScalar x d a b => some (opVfsgnjxScalar x d a b)
  | .vfclassScalar x d a => some (opVfclassScalar x d a)
  | .vfmacc x d a b => some (opVfmacc x d a b)
  | .vfmsac x d a b => some (opVfmsac x d a b)
  | .vfnmacc x d a b => some (opVfnmacc x d a b)
  | .vfnmsac x d a b => some (opVfnmsac x d a b)
  | .vfmaccScalar x d a b => some (opVfmaccScalar x d a b)
  | .vfmsacScalar x d a b => some (opVfmsacScalar x d a b)
  | .vfnmaccScalar x d a b => some (opVfnmaccScalar x d a b)
  | .vfnmsacScalar x d a b => some (opVfnmsacScalar x d a b)
  | .vmacc x d a b => some (opVmacc x d a b)
  | .vmaccScalar x d a b => some (opVmaccScalar x d a b)
  | .vwmacc x d a b => some (opVwmacc x d a b)
  | .veq x d a b => some (opVeq x d a b)
  | .vne x d a b => some (opVne x d a b)
  | .vlt x d a b => some (opVlt x d a b)
  | .vle x d a b => some (opVle x d a b)
  | .vltu x d a b => some (opVltu x d a b)
  | .vleu x d a b => some (opVleu x d a b)
  | .vfeq x d a b => some (opVfeq x d a b)
  | .vflt x d a b => some (opVflt x d a b)
  | .vfle x d a b => some (opVfle x d a b)
  | .vfunord x d a b => some (opVfunord x d a b)
  | .veqScalar x d a b => some (opVeqScalar x d a b)
  | .vneScalar x d a b => some (opVneScalar x d a b)
  | .vltScalar x d a b => some (opVltScalar x d a b)
  | .vleScalar x d a b => some (opVleScalar x d a b)
  | .vltuScalar x d a b => some (opVltuScalar x d a b)
  | .vleuScalar x d a b => some (opVleuScalar x d a b)
  | .vfeqScalar x d a b => some (opVfeqScalar x d a b)
  | .vfltScalar x d a b => some (opVfltScalar x d a b)
  | .vfleScalar x d a b => some (opVfleScalar x d a b)
  | .vfunordScalar x d a b => some (opVfunordScalar x d a b)
  | .pand x d a b => some (opPand x d a b)
  | .por x d a b => some (opPor x d a b)
  | .pxor x d a b => some (opPxor x d a b)
  | .pandn x d a b => some (opPandn x d a b)
  | .pnot x d a => some (opPnot x d a)
  | .pset x d a => some (opPset x d a)
  | .ppop x d a => some (opPpop x d a)
  | .pfirst x d a => some (opPfirst x d a)
  | .pscan x d a => some (opPscan x d a)
  | .pbefore x d a => some (opPbefore x d a)
  | .pmv x d a => some (opPmv x d a)
  | .vslideup x d a b => some (opVslideup x d a b)
  | .vslidedown x d a b => some (opVslidedown x d a b)
  | .vgather x d a b => some (opVgather x d a b)
  | .vcompress x d a => some (opVcompress x d a)
  | .vexpand x d a => some (opVexpand x d a)
  | .vbcast x d a => some (opVbcast x d a)
  | .vmvsv ext d a b => some (opVmvsv ext d a b)
  | .vmvvs x d a b => some (opVmvvs x d a b)
  | .viota x d => some (opViota x d)
  | .vmerge x d a b => some (opVmerge x d a b)
  | .vslide1up x d a b => some (opVslide1up x d a b)
  | .vslide1down x d a b => some (opVslide1down x d a b)
  | .vredsum x d a => some (opVredsum x d a)
  | .vredmin x d a => some (opVredmin x d a)
  | .vredmax x d a => some (opVredmax x d a)
  | .vredminu x d a => some (opVredminu x d a)
  | .vredmaxu x d a => some (opVredmaxu x d a)
  | .vredand x d a => some (opVredand x d a)
  | .vredor x d a => some (opVredor x d a)
  | .vredxor x d a => some (opVredxor x d a)
  | .vfredsum x d a => some (opVfredsum x d a)
  | .vfredmin x d a => some (opVfredmin x d a)
  | .vfredmax x d a => some (opVfredmax x d a)
  | .vfredsumW x d a => some (opVfredsumW x d a)
  | .vcvtFFp64 x d a => some (opVcvtFFp64 x d a)
  | .vcvtIFp64 x d a => some (opVcvtIFp64 x d a)
  | .vcvtUFp64 x d a => some (opVcvtUFp64 x d a)
  | .vcvtFp64I x d a => some (opVcvtFp64I x d a)
  | .vcvtFFp32 x d a => some (opVcvtFFp32 x d a)
  | .vcvtIFp32 x d a => some (opVcvtIFp32 x d a)
  | .vcvtUFp32 x d a => some (opVcvtUFp32 x d a)
  | .vcvtFp32I x d a => some (opVcvtFp32I x d a)
  | .vcvtFFp16 x d a => some (opVcvtFFp16 x d a)
  | .vcvtIFp16 x d a => some (opVcvtIFp16 x d a)
  | .vcvtUFp16 x d a => some (opVcvtUFp16 x d a)
  | .vcvtFp16I x d a => some (opVcvtFp16I x d a)
  | .vcvtFBf16 x d a => some (opVcvtFBf16 x d a)
  | .vcvtIBf16 x d a => some (opVcvtIBf16 x d a)
  | .vcvtUBf16 x d a => some (opVcvtUBf16 x d a)
  | .vcvtBf16I x d a => some (opVcvtBf16I x d a)
  | .vcvtFE4m3 x d a => some (opVcvtFE4m3 x d a)
  | .vcvtIE4m3 x d a => some (opVcvtIE4m3 x d a)
  | .vcvtUE4m3 x d a => some (opVcvtUE4m3 x d a)
  | .vcvtII8 x d a => some (opVcvtII8 x d a)
  | .vcvtFE5m2 x d a => some (opVcvtFE5m2 x d a)
  | .vcvtIE5m2 x d a => some (opVcvtIE5m2 x d a)
  | .vcvtUE5m2 x d a => some (opVcvtUE5m2 x d a)
  | .vcvtII16 x d a => some (opVcvtII16 x d a)
  | .vcvtFE2m3 x d a => some (opVcvtFE2m3 x d a)
  | .vcvtIE2m3 x d a => some (opVcvtIE2m3 x d a)
  | .vcvtUE2m3 x d a => some (opVcvtUE2m3 x d a)
  | .vcvtII32 x d a => some (opVcvtII32 x d a)
  | .vcvtFE3m2 x d a => some (opVcvtFE3m2 x d a)
  | .vcvtIE3m2 x d a => some (opVcvtIE3m2 x d a)
  | .vcvtUE3m2 x d a => some (opVcvtUE3m2 x d a)
  | .vcvtII64 x d a => some (opVcvtII64 x d a)
  | .vcvtFT8 x d a => some (opVcvtFT8 x d a)
  | .vcvtIT8 x d a => some (opVcvtIT8 x d a)
  | .vcvtUT8 x d a => some (opVcvtUT8 x d a)
  | .vcvtFT6 x d a => some (opVcvtFT6 x d a)
  | .vcvtIT6 x d a => some (opVcvtIT6 x d a)
  | .vcvtUT6 x d a => some (opVcvtUT6 x d a)
  | .vmxpack x d a b => some (opVmxpack x d a b)
  | .vmxunpack x d a b => some (opVmxunpack x d a b)
  | .vexp2 x d a => some (opVexp2 x d a)
  | .vlog2 x d a => some (opVlog2 x d a)
  | .vrcp x d a => some (opVrcp x d a)
  | .vrsqrt x d a => some (opVrsqrt x d a)
  | .vsinpi x d a => some (opVsinpi x d a)
  | .vcospi x d a => some (opVcospi x d a)
  | .vtanh x d a => some (opVtanh x d a)
  | .vsigm x d a => some (opVsigm x d a)
  | .vgelu x d a => some (opVgelu x d a)
  | .verf x d a => some (opVerf x d a)
  | .vconf x d a => some (opVconf x d a)
  | .vlead x d a => some (opVlead x d a)
  | .vdupsum x d a b => some (opVdupsum x d a b)
  | .vld x w k d a => some (opVld x w k d a)
  | .vlds x w k d a b => some (opVlds x w k d a b)
  | .vldx x w k d a b => some (opVldx x w k d a b)
  | .vldseg x w k d a nf perm => some (opVldseg x w k d a nf perm)
  | .vst x o w k d a => some (opVst x o w k d a)
  | .vsts x o w k d a b => some (opVsts x o w k d a b)
  | .vstx x o w k d a b => some (opVstx x o w k d a b)
  | .vstseg x o w k d a nf => some (opVstseg x o w k d a nf)
  | .vamoAdd x o k d a b => some (opVamoAdd x o k d a b)
  | .vamoMin x o k d a b => some (opVamoMin x o k d a b)
  | .vamoMax x o k d a b => some (opVamoMax x o k d a b)
  | .vamoSwap x o k d a b => some (opVamoSwap x o k d a b)
  | .vgscr x w k d a b => some (opVgscr x w k d a b)
  | .vepop ext w d b => some (opVepop ext w d b)
  | .tcfg acc => some (opTcfg acc)
  | .tzero acc => some (opTzero acc)
  | .tmma acc ra rb rs ms fa fb mk ka kb ck => some (opTmma acc ra rb rs ms fa fb mk ka kb ck)
  | .tmmaV acc ra rb rs ms fa fb mk ka kb ck => some (opTmmaV acc ra rb rs ms fa fb mk ka kb ck)
  | .tmmas acc ra rb rs ms fa fb mk ka kb ck => some (opTmmas acc ra rb rs ms fa fb mk ka kb ck)
  | .tld acc ra rb rs ms fa ka => some (opTld acc ra rb rs ms fa ka)
  | .tst acc ra rs ms fa ka => some (opTst acc ra rs ms fa ka)
  | .trow acc ra rb ms => some (opTrow acc ra rb ms)
  | .tcol acc ra rb ms => some (opTcol acc ra rb ms)
  | .tchk acc ra rb mk => some (opTchk acc ra rb mk)
  | .tcon acc ra rb ms fa fb ka kb => some (opTcon acc ra rb ms fa fb ka kb)
  | .tsave acc ra ka => some (opTsave acc ra ka)
  | .trest acc ra ka => some (opTrest acc ra ka)
  | .tstat acc ra => some (opTstat acc ra)
  | .oqinit q d a b m n cap pol => some (opOqinit q d a b m n cap pol)
  | .oqacc q a b => some (opOqacc q a b)
  | .oqhh q d a b => some (opOqhh q d a b)
  | .oqapl q a b m tr => some (opOqapl q a b m tr)
  | .oqapr q a b m tr => some (opOqapr q a b m tr)
  | .oqapv q d a tr => some (opOqapv q d a tr)
  | .oqform q => some (opOqform q)
  | .oqsave q a m => some (opOqsave q a m)
  | .oqrest q a m => some (opOqrest q a m)
  | .oqcnt q d => some (opOqcnt q d)
  | .oqrd q d b => some (opOqrd q d b)
  | _ => none

end

end Sys2Proof.Machine
end

