-- ==== Sys2Proof/Machine/Engine.lean ====
section
/-! DEFINITION. The vector side: when a micro-operation may issue, what it does, how progress advances, and the steps of
the matrix engine and the orthogonal unit (R98 to R116, R184 to R193, R198, R205, R303, R304, R324, R338). -/

namespace Sys2Proof.Machine

noncomputable section

/-! ### Parts of the register files -/

/-- Bytes `lo` to `hi - 1` of the vector file (register n starts at n times the register's bytes), or bits of a
predicate. -/
structure Span where
  pred : Bool
  reg : Nat
  lo : Nat
  hi : Nat
  deriving DecidableEq, Repr

def Span.meets (a b : Span) : Bool :=
  a.pred == b.pred && a.reg == b.reg && decide (a.lo < b.hi) && decide (b.lo < a.hi)

/-- Elements `a` to `b - 1` of an operand; an operand with no element width (a scale register) counts whole. -/
def Opd.span (vb : Nat) (o : Opd) (a b : Nat) : Span :=
  if o.pred then { pred := true, reg := o.reg, lo := a, hi := b }
  else
    let lo := o.reg * vb
    let hi := (o.reg + o.count) * vb
    if o.bits = 0 then { pred := false, reg := 0, lo := lo, hi := hi }
    else { pred := false, reg := 0, lo := lo + a * o.bits / 8, hi := Nat.min hi (lo + b * o.bits / 8) }

/-- More elements than any register group holds. -/
def allElems : Nat := 32768

/-- The part of a source that group g reads (R105, R290). -/
def Opd.reads (vb : Nat) (o : Opd) (G g : Nat) : Span :=
  match o.reach with
  | .elem => o.span vb (g * G) (g * G + G)
  | .block => o.span vb (g * G / 32 * 32) ((g * G + G + 31) / 32 * 32)
  | .whole => o.span vb 0 allElems

/-- The part of a source that an entry with `n` final elements may still read. -/
def Opd.unread (vb : Nat) (o : Opd) (n : Nat) : Span :=
  match o.reach with
  | .elem => o.span vb n allElems
  | .block => o.span vb (n / 32 * 32) allElems
  | .whole => o.span vb 0 allElems

/-- Leading elements of the destinations of an incomplete entry that are final (R104). Tile, orthogonal and stream
entries write their registers at the end. -/
def finalCount (op : VOp) (e : VEntry) : Nat :=
  match op.run with
  | .elem _ _ => e.prog
  | .mem _ => e.prog
  | _ => 0

/-- Every earlier entry's version covers a part of the registers (R105). -/
def Strand.covered (t : Strand) (seq : BitVec 32) (x : Span) : Bool :=
  (entriesBefore seq t.viq).all (fun e => e.complete ||
    (match vop e.instr with
      | some op => (op.dests e.caps.vtype).all (fun d => !(d.span t.vbytes (finalCount op e) allElems).meets x)
      | none => true))

/-- No earlier entry has still to read a part of the registers: its replay after a trap would find it overwritten
(log 17). -/
def Strand.readersPast (t : Strand) (seq : BitVec 32) (x : Span) : Bool :=
  (entriesBefore seq t.viq).all (fun e => e.complete ||
    (match vop e.instr with
      | some op => (op.srcs e.caps.vtype).all (fun o => !(o.unread t.vbytes (finalCount op e)).meets x)
      | none => true))

/-! ### Orders between entries -/

/-- The entries before the convoy that holds an entry are complete (R109); the list runs backward from the entry. -/
def convoysDone : List VEntry → Bool
  | [] => true
  | e :: r => if e.convoy then r.all (fun x => x.complete) else convoysDone r

def Strand.convoyOk (t : Strand) (e : VEntry) : Bool :=
  !t.det || convoysDone (e :: (entriesBefore e.seq t.viq).reverse)

def pinsOverlap (t : Strand) (j k : BitVec 3) : Bool :=
  let p := t.pins.getD j.toNat Pin.idle
  let q := t.pins.getD k.toNat Pin.idle
  j == k || (p.live && q.live && decide (p.base.toNat < q.base.toNat + q.len.toNat) &&
    decide (q.base.toNat < p.base.toNat + p.len.toNat))

/-- A unit-stride access: its pin, width and base value. -/
def unitStride (e : VEntry) : Option (BitVec 3 × BitVec 2 × Word) :=
  match e.instr with
  | .vld _ w k _ _ => some (k, w, e.caps.ga)
  | .vst _ _ w k _ _ => some (k, w, e.caps.ga)
  | _ => none

/-- Whether group g of an entry has completed. -/
def VEntry.groupDone (e : VEntry) (g : Nat) : Bool :=
  e.complete || decide (g * e.G < e.prog) || e.done.any (fun r => r.g == g)

/-- Whether group g of a memory entry need not wait for an earlier entry (R184 rule 3). An earlier access at the same
place has no group g when its VL ends below. -/
def Strand.clearOf (t : Strand) (e : VEntry) (g : Nat) (x : VEntry) : Bool :=
  let a := t.memUse e
  let b := t.memUse x
  x.complete || !(a.writes || b.writes) || !a.pins.any (fun j => b.pins.any (pinsOverlap t j)) ||
  ((unitStride e).isSome && unitStride e == unitStride x && (x.groupDone g || decide (x.caps.vl.toNat ≤ g * x.G)))

/-- What a memory entry's group waits for among the strand's own accesses (R184 rules 2 and 3, R188). -/
def Strand.memOk (t : Strand) (e : VEntry) (g : Nat) : Bool :=
  let u := t.memUse e
  !t.sbuf.any (fun b => !seqLt e.seq b.after && ((u.reads && b.fence.getLsbD 2) ||
    (u.writes && b.fence.getLsbD 3) || u.pins.any (fun k => t.inPin k b.va b.keys.length))) &&
  (entriesBefore e.seq t.viq).all (t.clearOf e g) &&
  (!(u.writes && u.pins.any t.offCorePin) ||
    (entriesBefore e.seq t.viq).all (fun x => !t.loadsOffCore x))

/-! ### Issue (R102, R105, R106) -/

/-- What an entry's micro-operations see. -/
def Strand.env (t : Strand) (e : VEntry) : VEnv := { t := t.before e.seq, c := e.caps, skip := e.skip }

/-- Indices of group g. -/
def VEntry.indices (e : VEntry) (g : Nat) : List Nat := (List.range e.G).map (fun i => g * e.G + i)

/-- Indices of group g that act. -/
def VEntry.acting (e : VEntry) (op : VOp) (v : VEnv) (g : Nat) : List Nat :=
  (e.indices g).filter (fun i => decide (i < e.caps.vl.toNat) && op.acts v i)

/-- Some element of group g keeps its old value. -/
def VEntry.keeps (e : VEntry) (op : VOp) (v : VEnv) (g : Nat) : Bool :=
  (e.indices g).any (fun i => !(decide (i < e.caps.vl.toNat) && op.acts v i) ||
    (match op.run with | .elem f _ => (f v i).writes == [] | _ => false))

/-- Sources of group g are final. -/
def Strand.sourcesOk (t : Strand) (e : VEntry) (op : VOp) (preds : Bool) (g : Nat) : Bool :=
  (op.srcs e.caps.vtype).all (fun o => (preds && !o.pred) || t.covered e.seq (o.reads t.vbytes e.G g))

/-- The destinations' previous versions cover group g. -/
def Strand.destsCovered (t : Strand) (e : VEntry) (op : VOp) (g : Nat) : Bool :=
  (op.dests e.caps.vtype).all (fun d => t.covered e.seq (d.span t.vbytes (g * e.G) (g * e.G + e.G)))

/-- The previous versions of whole destinations are final, and no earlier entry has still to read them (R105, log 17). -/
def Strand.destsFree (t : Strand) (e : VEntry) (ds : List Opd) : Bool :=
  ds.all (fun d => t.covered e.seq (d.span t.vbytes 0 allElems) && t.readersPast e.seq (d.span t.vbytes 0 allElems))

/-- Group g has been issued or is final. -/
def VEntry.issued (e : VEntry) (g : Nat) : Bool := e.groupDone g || e.inflight.any (fun r => r.g == g)

/-- Work whose groups issue in ascending order: what stores, so that a group stands below the progress index once nothing
below it is left, and no halt or fault performs it twice (R104, R375, log 64). -/
def inTurn (op : VOp) : Bool :=
  match op.run with
  | .mem m => m.kind != .read
  | .gscr _ _ => true
  | _ => false

/-- Every group below g is issued or has no element that acts. -/
def VEntry.inOrder (e : VEntry) (op : VOp) (v : VEnv) (g : Nat) : Bool :=
  (List.range g).all (fun h => e.issued h || e.acting op v h == [])

/-- Instructions that are split into micro-operations (R102); a stream pop, the matrix engine and the orthogonal unit work
by themselves. -/
def VOp.micro (op : VOp) : Bool :=
  match op.run with
  | .epop _ _ => false
  | .tile => false
  | .orth => false
  | _ => true

/-- A micro-operation for group g may issue now. -/
def Strand.canIssue (t : Strand) (e : VEntry) (op : VOp) (g : Nat) : Bool :=
  let v := t.env e
  op.micro && !e.complete && decide (g * e.G < e.caps.vl.toNat) && !e.issued g &&
  (match e.fault with | some f => decide (g < f.elem / e.G) | none => true) &&
  t.convoyOk e && t.sourcesOk e op false g &&
  (op.dests e.caps.vtype).all (fun d => t.readersPast e.seq (d.span t.vbytes (g * e.G) (g * e.G + e.G))) &&
  e.acting op v g != [] && (!e.keeps op v g || t.destsCovered e op g) && t.memOk e g &&
  (!inTurn op || e.inOrder op v g)

/-! ### Spare rows, the issue window and the pipes (R101 to R103) -/

/-- Groups below VL. -/
def VEntry.groups (e : VEntry) : Nat := ceilDiv e.caps.vl.toNat e.G

/-- Groups of an entry below n that have still to issue. -/
def Strand.unissued (t : Strand) (e : VEntry) (op : VOp) (n : Nat) : List Nat :=
  let v := t.env e
  (List.range n).filter (fun h => !e.issued h && e.acting op v h != [])

/-- Spare rows of a lane. -/
def spareRows : Nat := 64

/-- Spare rows that a lane's present versions hold: one for each row written, until the entry that wrote it leaves. -/
def Strand.rowsHeld (t : Strand) (lane : Nat) : Nat :=
  (t.viq.map (fun e => ((e.inflight ++ e.done).map (fun r =>
    ((rowsOf r.writes).filter (fun x => x.2 % Nat.max t.lgw 1 == lane)).length)).sum)).sum

/-- Elements that an entry of an engine or a stream pop writes in its vector destinations, all at once. -/
def Strand.writesAtOnce (t : Strand) (e : VEntry) : Nat :=
  match e.instr with
  | .vepop _ _ _ _ => e.caps.vl.toNat
  | .trow acc _ _ _ => (t.tile acc).n.toNat
  | .tcol acc _ _ _ => (t.tile acc).m.toNat
  | .tchk _ _ _ _ => 128
  | .tstat _ _ => 1
  | .oqhh q _ _ _ => (t.orth q).n.toNat
  | .oqapv q _ _ _ => (t.orth q).n.toNat
  | .oqcnt _ _ => 1
  | .oqrd q _ _ => if e.caps.gb.getLsbD 8 then 32 else (t.orth q).n.toNat
  | _ => 0

/-- Rows of the vector destinations' elements `a` to `b - 1`, counted through the register file. -/
def Strand.destRows (t : Strand) (e : VEntry) (op : VOp) (a b : Nat) : List Nat :=
  (((op.dests e.caps.vtype).filter (fun d => !d.pred)).map (fun d =>
    let x := d.span t.vbytes a b
    (List.range (ceilDiv x.hi 16 - x.lo / 16)).map (fun i => x.lo / 16 + i))).flatten

/-- The rows that a group writes, or all those of an entry that writes at once. -/
def Strand.rowsAsked (t : Strand) (e : VEntry) (op : VOp) (g : Nat) : List Nat :=
  if op.micro then t.destRows e op (g * e.G) (g * e.G + e.G) else t.destRows e op 0 (t.writesAtOnce e)

/-- A group's rows can be had. The oldest entry at work always has them: what it overwrites no version holds any more. -/
def Strand.rowsFit (t : Strand) (e : VEntry) (op : VOp) (g : Nat) : Bool :=
  let w := Nat.max t.lgw 1
  let rows := t.rowsAsked e op g
  (entriesBefore e.seq t.viq).all (fun x => x.complete) ||
  rows.all (fun r => decide (t.rowsHeld (r % w) + (rows.filter (fun q => q % w == r % w)).length ≤ spareRows))

/-- The group for which an entry wants rows next; an entry that writes at once has one such. -/
def Strand.wantsRows (t : Strand) (e : VEntry) (op : VOp) : Option Nat :=
  if op.micro then (t.unissued e op e.groups).head? else some 0

/-- A group has its rows, and no earlier entry waits for rows (R101). -/
def Strand.rowsOk (t : Strand) (e : VEntry) (op : VOp) (g : Nat) : Bool :=
  t.rowsFit e op g && (entriesBefore e.seq t.viq).all (fun x => x.complete ||
    (match vop x.instr with
      | some o => (match t.wantsRows x o with | some h => t.rowsFit x o h | none => true)
      | none => true))

/-- Micro-operations of an entry that have still to issue. -/
def Strand.toIssue (t : Strand) (x : VEntry) : Nat :=
  match vop x.instr with
  | some o => if x.complete || !o.micro then 0 else (t.unissued x o x.groups).length
  | none => 0

/-- Entries of a core's issue window. -/
def windowSize : Nat := 128

/-- The entries that a strand may hold of its core's issue window, which its running strands share: 8 are kept for each of the
others, and in slot order each takes what it can use of the rest (R102, log 65). -/
def State.windowShare (s : State) (t : Strand) : Nat :=
  let us := s.strands.filter (fun u => u.coreNo == t.coreNo && u.life == .running)
  let cap := windowSize - 8 * (us.filter (fun u => u.key != t.key)).length
  let later (k : Nat) : Nat := (us.filter (fun u => decide (k < u.slot))).length
  let taken := (List.range t.slot).foldl (fun n k =>
    match us.find? (fun u => u.slot == k) with
    | some u => n + Nat.min (Nat.min cap (windowSize - n - 8 * later k)) ((u.viq.map u.toIssue).sum)
    | none => n) 0
  Nat.min cap (windowSize - taken - 8 * later t.slot)

/-- A micro-operation stands in the window: entries are split in sequence order, groups ascending. -/
def Strand.inWindow (t : Strand) (share : Nat) (e : VEntry) (op : VOp) (g : Nat) : Bool :=
  decide (((entriesBefore e.seq t.viq).map t.toIssue).sum + (t.unissued e op g).length < share)

/-- The pipe that runs a micro-operation, as Core.ptrs numbers them: the arithmetic pipes of lanes 0 to 31, their memory
pipes from 32, the special-function slices from 64. The matrix engine has 68, the orthogonal unit 69. -/
def Strand.pipe (t : Strand) (i : Instr) (g : Nat) : Nat :=
  if isSfu i then 64 + t.slot + g % Nat.max (t.lgw / 8) 1
  else (if singleRun i then 32 else 0) + t.lane.toNat + g % Nat.max t.lgw 1

/-- Groups of an entry below n that are ready and need a pipe. -/
def Strand.readyFor (t : Strand) (p : Nat) (e : VEntry) (op : VOp) (n : Nat) : Bool :=
  (List.range n).any (fun h => t.pipe e.instr h == p && t.canIssue e op h)

/-- The pipe's choice within the strand: the lowest sequence number, then the lowest group. The strands of a core have lane
groups of their own (R82), and with them pipes and slices, so no other strand competes (R102). -/
def Strand.pipeTurn (t : Strand) (e : VEntry) (op : VOp) (g : Nat) : Bool :=
  let p := t.pipe e.instr g
  !t.readyFor p e op g && (entriesBefore e.seq t.viq).all (fun x =>
    match vop x.instr with | some o => !t.readyFor p x o x.groups | none => true)

/-- A pipe or engine is granted to a strand: its pointer moves to the slot after (R102). -/
def State.granted (s : State) (t : Strand) (p : Nat) : State :=
  s.modCore t.coreNo (fun c => { c with ptrs := sset (0 : Nat) c.ptrs p ((t.slot + 1) % 4) })

/-! ### What a micro-operation does -/

def VEntry.addGroup (e : VEntry) (r : GroupRes) : VEntry := { e with inflight := e.inflight ++ [r] }

def groupOf (g : Nat) (r : ERes) : GroupRes :=
  { g := g, writes := r.writes, fl := r.fl, gs := r.gs, flip := none, left := [] }

/-- The keys of elements read through pins: pin, bytes of an element, addresses. -/
def readKeys (s : State) (t : Strand) (xs : List (BitVec 3 × Nat × List Word)) : List Nat :=
  (xs.map (fun x => (x.2.2.map (fun va =>
    match pinAccess s t x.1 .read va x.2.1 with | .ok ks => ks | .error _ => [])).flatten)).flatten

/-- The filter's action on what a vector load reads: the L1s' copies are written back and stay, clean (R169). -/
def State.cleanReads (s : State) (t : Strand) (xs : List (BitVec 3 × Nat × List Word)) : State :=
  if s.cores.any (fun c => c.2.dirty != []) then s.filterLines true (linesOf (readKeys s t xs)) else s

/-- Load the fields of elements, in order: writes, or the element that stops and why. -/
def loadElems (s : State) (t : Strand) (view : Memory) (v : VEnv) (m : MemOp) (step : Nat) :
    List (Nat × Nat) → Except (Nat × Stop) (List EWrite)
  | [] => .ok []
  | (i, f) :: r =>
    match vRead s t view m.k (m.addr v i f) (v.sew / 8) with
    | .error x => .error (i, x)
    | .ok val =>
      match loadElems s t view v m step r with
      | .error x => .error x
      | .ok ws => .ok (v.t.elemWrite (m.data.toNat + f * step) v.sew i val :: ws)

/-- The fields of elements, element by element. -/
def fieldList (n : Nat) (is : List Nat) : List (Nat × Nat) := (is.map (fun i => (List.range n).map (fun f => (i, f)))).flatten

/-- Addresses of the elements an entry has already stored. -/
def storedVas (e : VEntry) (op : VOp) (v : VEnv) (m : MemOp) : List Nat :=
  (((List.range (ceilDiv e.caps.vl.toNat e.G)).filter e.issued).map (fun g =>
    (e.acting op v g).map (fun i => (m.addr v i 0).toNat))).flatten

/-- The bytes of an element that others of the instruction may have been written over, byte by byte (R182, R191). -/
def State.thinBytes (s : State) (n : Nat) (prior : List Nat) (x : VStore) : State × VStore :=
  let z := ((x.keys.zip (leBytes n x.val)).zip (List.range n)).foldl (fun (a : State × List (Nat × Byte)) p =>
    if prior.any (fun q => decide (q ≤ x.va + p.2) && decide (x.va + p.2 < q + n)) then
      let (d, s) := a.1.draw
      if d % 2 = 0 then (s, a.2 ++ [p.1]) else (s, a.2)
    else (a.1, a.2 ++ [p.1])) (s, [])
  (z.1, { x with keys := z.2.map (fun p => p.1), val := leNat (z.2.map (fun p => p.2)) })

/-- One element of an unordered store, after others of the instruction: where they overlap, the element may count as
performed before them (R191). Two aligned elements that overlap write the same place, and each is whole; a misaligned one
counts byte by byte (R182). -/
def State.thin (s : State) (n : Nat) (prior : List Nat) (x : VStore) : State × VStore :=
  if !prior.any (fun p => decide (p < x.va + n) && decide (x.va < p + n)) then (s, x)
  else if x.va % n = 0 && prior.contains x.va then
    let (d, s) := s.draw
    if d % 2 = 0 then s.thinBytes n (prior.filter (fun p => p != x.va)) x else (s, { x with keys := [], val := 0 })
  else s.thinBytes n prior x

def State.thinAll (s : State) (n : Nat) : List Nat → List VStore → State × List VStore
  | _, [] => (s, [])
  | prior, x :: r =>
    let a := s.thin n prior x
    let b := a.1.thinAll n (x.va :: prior) r
    (b.1, a.2 :: b.2)

/-- A store or atomic whose elements are performed in an order that nothing fixes (R191). -/
def unordered (t : Strand) (m : MemOp) : Bool := !m.ordered && !t.det && m.kind != .read

/-- The share of an unordered store's elements (R191): a unit-stride or segment store writes no place twice. -/
def State.orderElems (s : State) (t : Strand) (e : VEntry) (op : VOp) (v : VEnv) (m : MemOp) (xs : List VStore) :
    State × List VStore :=
  if unordered t m && m.fields == 1 && !(unitStride e).isSome then s.thinAll (v.sew / 8) (storedVas e op v m) xs
  else (s, xs)

/-- A memory micro-operation: every element is checked before any is performed (R198, R300, R302). The updates of an
unordered atomic are left to be performed one by one until the group completes (R191). -/
def State.issueMem (s : State) (key : Nat) (t : Strand) (e : VEntry) (op : VOp) (m : MemOp) (g : Nat) : State :=
  let v := t.env e
  let step := regsFor e.caps.vtype v.sew
  let acc := fieldList m.fields (e.acting op v g)
  let finish (s : State) (ws : List EWrite) (fl : BitVec 5) (left : List HeldElem) : State :=
    s.modStrand key (fun t => t.modEntry e.seq (fun e => e.addGroup
      { g := g, writes := ws, fl := fl, gs := 0, flip := none, left := left }))
  if m.kind = .read then
    match loadElems s t (heldView s.mem t.held) v m step acc with
    | .error (i, x) => s.vFault key e.seq i x
    | .ok ws => finish (s.cleanReads t [(m.k, v.sew / 8, acc.map (fun p => m.addr v p.1 p.2))]) ws 0 []
  else
    let els := acc.map (fun p => (p.1, m.addr v p.1 p.2, v.t.elem (m.data.toNat + p.2 * step) v.sew p.1))
    match checkStores s t m.k m.kind (v.sew / 8) [] els with
    | .error (i, x) => s.vFault key e.seq i x
    | .ok xs =>
      let xs := xs.map (fun x => { x with
        amo := m.amo.map (fun o => (o, e.caps.vtype,
          if vtRm e.caps.vtype = 5 then srWord e.caps.srseed (srCounter e.caps.srsalt e.caps.stripbase x.elem) else 0)) })
      if unordered t m && m.kind == .atomic then finish s [] 0 (xs.map (VStore.held e.seq))
      else
        let a := s.orderElems t e op v m xs
        let b := a.1.vStores key e.seq (a.2.filter (fun x => x.keys != []))
        finish b.1 [] b.2 []

/-! ### Row gathers, and what a stream port holds -/

/-- Check the rows of a group in order: the row that stops and why. A row in a poisoned line takes POISON here, as an
element that the strand reads; R20 has a bullet for such elements and one for the BTE's reads, and does not say which
governs a row (log 25). -/
def checkRows (s : State) (t : Strand) (k : BitVec 3) (n : Nat) : List (Nat × Word) → Option (Nat × Stop)
  | [] => none
  | (i, va) :: r =>
    match pinAccess s t k .read va n with
    | .error x => some (i, x)
    | .ok _ => checkRows s t k n r

/-- One row is announced and handed to the cluster's BTE (R303). `dst` is its key in the scratchpad. -/
def State.handRow (s : State) (key : Nat) (t : Strand) (e : VEntry) (k : BitVec 3) (src : Word) (dst n : Nat) : State :=
  let bar := e.caps.xferbar.setWidth 16
  match s.announce (barDie bar) (barIdx bar) n with
  | none => s.faultBar (barDie bar) (barIdx bar)
  | some s =>
    let c : BteCmd :=
      { id := s.nextBte, key := key, seq := e.seq, cluster := t.cluster, row := true, op := 1, spin := k, dpin := 0,
        port := 0, endMark := false, bar := bar, tag := 0, pad := 0, src := src, dst := wNat dst, rb := n, nr := 1,
        sstride := 0, dstride := 0, vr := 1, vb := n, delivered := 0, padded := false, readAny := false }
    { s with bte := s.bte ++ [c], nextBte := s.nextBte + 1 }

def State.issueRows (s : State) (key : Nat) (t : Strand) (e : VEntry) (op : VOp) (k : BitVec 3) (b : Reg) (g : Nat) : State :=
  let v := t.env e
  let n := e.caps.rowbytes.toNat % 2 ^ 17
  let is := e.acting op v g
  let src (i : Nat) : Word := e.caps.ga + wNat (v.get b v.sew i * n)
  match checkRows s t k n (is.map (fun i => (i, src i))) with
  | some (i, x) => s.vFault key e.seq i x
  | none =>
    let below (i : Nat) : Nat := ((List.range i).filter (op.acts v)).length
    let s := is.foldl (fun s i =>
      s.handRow key t e k (src i) (scratchKey t.cluster (e.caps.gd.toNat - scratchVa + below i * n)) n) s
    s.modStrand key (fun t => t.modEntry e.seq (fun e => e.addGroup (groupOf g ERes.none)))

/-- Bytes before the first end mark, and whether there is one. -/
def streamHead : List StreamItem → List Byte × Bool
  | [] => ([], false)
  | .endMark :: _ => ([], true)
  | .byte b :: r => let x := streamHead r; (b :: x.1, x.2)

/-! ### Rows of the register file that are lost (R115, R116) -/

/-- The rows, register and 16-byte group, that lie in some parts of the register file and are marked uncorrectable. -/
def Strand.badRowsIn (t : Strand) (e : VEntry) (xs : List Span) : List (Nat × Nat) :=
  (t.lostRows e.seq).filter (fun r =>
    let lo := r.1 * t.vbytes + 16 * r.2
    xs.any (fun x => x.meets { pred := false, reg := 0, lo := lo, hi := lo + 16 }))

/-- A row's bytes. -/
def Strand.rowSpan (t : Strand) (x : Nat × Nat) : Span :=
  { pred := false, reg := 0, lo := x.1 * t.vbytes + 16 * x.2, hi := x.1 * t.vbytes + 16 * x.2 + 16 }

/-- The rows that writes reach and do not rewrite whole: what they keep is read (R105). -/
def Strand.mergedRows (t : Strand) (ws : List EWrite) : List Span := ((rowsOf ws).filter (fun x => !rewrites ws x)).map t.rowSpan

/-- Elements of vector operands: register, width and index. -/
def Strand.elemSpans (t : Strand) (xs : List (Nat × Nat × Nat)) : List Span :=
  xs.map (fun x => { pred := false, reg := 0, lo := x.1 * t.vbytes + x.2.2 * x.2.1 / 8, hi := x.1 * t.vbytes + (x.2.2 + 1) * x.2.1 / 8 })

/-- The part of a vector source below VL that group g's micro-operation reads (R105, R290). Of a whole source it reads what
the instruction picks, or its own elements to reduce, or everything. -/
def Strand.sourceReads (t : Strand) (e : VEntry) (op : VOp) (g : Nat) (o : Opd) : List Span :=
  let vl := e.caps.vl.toNat
  let own : Span := o.span t.vbytes (g * e.G) (Nat.min (g * e.G + e.G) vl)
  match o.reach with
  | .elem => [own]
  | .block => [o.span t.vbytes (g * e.G / 32 * 32) (Nat.min ((g * e.G + e.G + 31) / 32 * 32) vl)]
  | .whole =>
    match op.picks, op.run with
    | some _, _ => []
    | none, .scalar _ => [own]
    | none, _ => [o.span t.vbytes 0 vl]

/-- What the instruction picks of its whole sources for group g. -/
def Strand.pickReads (t : Strand) (e : VEntry) (op : VOp) (g : Nat) : List Span :=
  match op.picks with
  | some f => t.elemSpans (((e.acting op (t.env e) g).map (f (t.env e))).flatten)
  | none => []

/-- The elements of its destinations that group g keeps, and the rows that it writes in part (R105). -/
def Strand.keptReads (t : Strand) (e : VEntry) (op : VOp) (g : Nat) : List Span :=
  let v := t.env e
  let act := e.acting op v g
  let kept := (e.indices g).filter (fun i => !act.contains i ||
    (match op.run with | .elem f _ => (f v i).writes == [] | _ => false))
  ((op.dests e.caps.vtype).filter (fun d => !d.pred && d.bits != 0)).foldr (fun d l =>
    kept.map (fun i => d.span t.vbytes i (i + 1)) ++ l)
    (match op.run with
      | .elem f _ => t.mergedRows ((act.map (fun i => (f v i).writes)).flatten)
      | _ => [])

/-- What a micro-operation reads of the vector file. -/
def Strand.microReads (t : Strand) (e : VEntry) (op : VOp) (g : Nat) : List Span :=
  (((op.srcs e.caps.vtype).filter (fun o => !o.pred)).map (t.sourceReads e op g)).flatten ++ t.pickReads e op g ++ t.keptReads e op g

/-- Lost rows that an access reads: a row whose producer still stands in its lane's operand buffer is written again, and
the reader goes on; else the entry takes MCHECK, which is counted (R115, R116, R133). The row is the version that the entry
reads. -/
def Strand.recover (t : Strand) (e : VEntry) (elem : Nat) (xs : List Span) : Except Strand Strand :=
  let rows := t.badRowsIn e xs
  if rows.all (fun x => t.producerHeld (t.versionOf (some e.seq) x) x) then .ok (t.mend e.seq rows)
  else .error (t.modEntry e.seq (fun e => e.addFault { cause := cMCHECK, elem := elem, addr := 0, info := 1 })).countCheck

/-- Lost rows that an entry of a strand reads: the strand as it goes on, unless it stops. -/
def State.recoverRows (s : State) (key : Nat) (t : Strand) (e : VEntry) (elem : Nat) (xs : List Span) : State × Option Strand :=
  if t.badRowsIn e xs = [] then (s, some t)
  else
    match t.recover e elem xs with
    | .ok u => (s.modStrand key (fun _ => u), some u)
    | .error u => (s.modStrand key (fun _ => u), none)

/-! ### Stream pops -/

/-- A stream pop, once VL elements or an end mark are in the port (R304). -/
def State.popStream (s : State) (key : Nat) (t : Strand) (e : VEntry) (port d : Reg) : State :=
  let v := t.env e
  let n := v.sew / 8
  let items := sget ([] : List StreamItem) t.ports.streams port.toNat
  let h := streamHead items
  if (h.1.length / n < v.vl ∧ !h.2) ∨ !t.destsFree e [Opd.vec e.caps.vtype d v.sew .whole] then s
  else
    let c := Nat.min v.vl (h.1.length / n)
    let ws := (List.range c).map (fun i => v.t.elemWrite d.toNat v.sew i (leNat ((h.1.drop (i * n)).take n)))
    let used := if c < v.vl then h.1.length + 1 else c * n
    let a := s.recoverRows key t e 0 (t.mergedRows ws)
    match a.2 with
    | none => a.1
    | some _ =>
      a.1.modStrand key (fun t =>
        let r := groupOf 0 { writes := ws, fl := 0, gs := 0 }
        let t := { t with
          ports := { t.ports with streams := sset ([] : List StreamItem) t.ports.streams port.toNat (items.drop used) }
          ctl := { t.ctl with vl := wNat c } }
        ((t.modEntry e.seq (fun e => { e with done := e.done ++ [r] })).orFlags 0
          (if c < v.vl then gTRIM else 0)).finishEntry e.seq none)

/-! ### MICRO_OPERATION_ISSUE -/

/-- The work of an issued micro-operation. -/
def State.perform (s : State) (key : Nat) (t : Strand) (e : VEntry) (op : VOp) (g : Nat) : State :=
  match op.run with
  | .elem f _ =>
    let v := t.env e
    let r := (e.acting op v g).foldl (fun (a : ERes) i => a.join (f v i)) ERes.none
    s.modStrand key (fun t => t.modEntry e.seq (fun e => e.addGroup (groupOf g r)))
  | .scalar _ => s.modStrand key (fun t => t.modEntry e.seq (fun e => e.addGroup (groupOf g ERes.none)))
  | .mem m => s.issueMem key t e op m g
  | .gscr k b => s.issueRows key t e op k b g
  | _ => s

/-- A micro-operation issues if it may. -/
def State.issue (s : State) (key : Nat) (seq : BitVec 32) (g : Nat) : State :=
  match s.strand? key with
  | none => s
  | some t =>
    match t.entry? seq with
    | none => s
    | some e =>
      match vop e.instr with
      | none => s
      | some op =>
        match op.run with
        | .epop port d =>
          if e.complete ∨ e.fault.isSome = true ∨ t.life ≠ .running ∨ !t.convoyOk e ∨ !t.rowsOk e op 0 then s
          else s.popStream key t e port d
        | _ =>
          if t.life ≠ .running || !t.canIssue e op g || !t.inWindow (s.windowShare t) e op g || !t.rowsOk e op g ||
              !t.pipeTurn e op g then s
          else
            let a := (s.granted t (t.pipe e.instr g)).recoverRows key t e (g * e.G) (t.microReads e op g)
            match a.2 with
            | some u => a.1.perform key u e op g
            | none => a.1

/-! ### Progress (R104, R107) -/

/-- `vmvsv` reads an element whatever VL is. -/
def readsElem0 : Instr → Bool
  | .vmvsv _ _ _ _ => true
  | _ => false

/-- One step of an entry's progress: past a completed group, past a group with nothing to do, or to its end. None when
it stays. -/
def Strand.advance1 (t : Strand) (e : VEntry) (op : VOp) : Option Strand :=
  let vl := e.caps.vl.toNat
  let g := e.prog / e.G
  let past : Strand := t.modEntry e.seq (fun e => { e with prog := Nat.min ((g + 1) * e.G) vl })
  if vl ≤ e.prog then
    match op.run with
    | .elem _ fin => some ((t.orFlags 0 (fin (t.env e))).finishEntry e.seq none)
    | .scalar f =>
      let end_ (t : Strand) : Strand :=
        let r := f (t.env e)
        (t.orFlags r.2.fl r.2.gs).finishEntry e.seq (some r.1)
      if vl == 0 && readsElem0 e.instr then
        if e.fault.isSome || !t.sourcesOk e op false 0 then none
        else match t.recover e 0 (match op.picks with | some f => t.elemSpans (f (t.env e) 0) | none => []) with
          | .ok u => some (end_ u)
          | .error u => some u
      else if vl == 0 || t.sourcesOk e op false 0 then some (end_ t)
      else none
    | .mem _ => some (t.finishEntry e.seq none)
    | .gscr _ _ => some (t.finishEntry e.seq none)
    | _ => none
  else if e.done.any (fun r => r.g == g) then some past
  else if e.inflight.any (fun r => r.g == g) then none
  else if t.sourcesOk e op true g && e.acting op (t.env e) g == [] && t.destsCovered e op g then some past
  else none

/-- A multiply form or a stream pop with VL = 0 completes at once (R226, R304, R324). -/
def atOnce (e : VEntry) : Bool :=
  e.caps.vl == 0 &&
  (match e.instr with
    | .vepop _ _ _ _ => true
    | .tmma _ _ _ _ _ _ _ _ _ _ _ => true
    | .tmmaV _ _ _ _ _ _ _ _ _ _ _ => true
    | .tmmas _ _ _ _ _ _ _ _ _ _ _ => true
    | _ => false)

/-- An entry's progress goes as far as it can. -/
def Strand.advanceEntry (seq : BitVec 32) : Nat → Strand → Strand
  | 0, t => t
  | n + 1, t =>
    match t.entry? seq with
    | none => t
    | some e =>
      if e.complete then t
      else
        match vop e.instr with
        | none => t
        | some op =>
          match op.run with
          | .tile => if atOnce e then t.finishEntry seq none else t
          | .orth => t
          | .epop _ _ => if atOnce e then t.finishEntry seq none else t
          | _ =>
            match t.advance1 e op with
            | some u => u.advanceEntry seq n
            | none => t

/-- Every entry's progress goes as far as it can, in sequence order. -/
def Strand.advanceAll (t : Strand) : Strand := (t.viq.foldl (fun u e => u.advanceEntry e.seq 4200) t).tidy

/-- Every issued micro-operation completes, and progress with it (R200). -/
def Strand.drainIssued (t : Strand) : Strand := t.finishAll.advanceAll

/-- One of the updates that a group has left to perform, whichever a free value picks (R191). -/
def State.performLeft (s : State) (key : Nat) (seq : BitVec 32) (r : GroupRes) : State :=
  let (d, s) := s.draw
  let i := d % r.left.length
  match r.left[i]? with
  | none => s
  | some h =>
    let fl := (h.outcome s.mem).2
    (s.performHeld h).modStrand key (fun t => t.modEntry seq (fun e => { e with
      inflight := e.inflight.map (fun x => if x.g = r.g then { x with left := dropAt i x.left, fl := x.fl ||| fl } else x) }))

/-- A group of the strand with updates left, and its entry. -/
def Strand.someLeft (t : Strand) : Option (BitVec 32 × GroupRes) :=
  t.viq.findSome? (fun e => (e.inflight.find? (fun r => r.left != [])).map (fun r => (e.seq, r)))

/-- Updates that the strand's groups have left. -/
def Strand.leftCount (t : Strand) : Nat := (t.viq.map (fun e => (e.inflight.map (fun r => r.left.length)).sum)).sum

/-- Every update left is performed. -/
def State.performLefts (s : State) (key : Nat) : Nat → State
  | 0 => s
  | n + 1 =>
    match s.strand? key with
    | none => s
    | some t =>
      match t.someLeft with
      | none => s
      | some (q, r) => (s.performLeft key q r).performLefts key n

/-- A strand's issued micro-operations complete, their updates performed (R200). -/
def State.drainStrand (s : State) (key : Nat) : State :=
  match s.strand? key with
  | none => s
  | some t => (s.performLefts key t.leftCount).modStrand key Strand.drainIssued

/-- An element group completes (ELEMENT_GROUP_COMPLETE), or performs one of the updates it has left. -/
def State.complete (s : State) (key : Nat) (seq : BitVec 32) (g : Nat) : State :=
  match (s.strand? key).bind (fun t => (t.entry? seq).bind (fun e => e.inflight.find? (fun r => r.g == g && r.left != []))) with
  | some r => s.performLeft key seq r
  | none => s.modStrand key (fun t => (t.finishGroup seq g).advanceAll)

/-! ### Entries that come back (R204) -/

/-- What an entry reposted with progress has already made final: the registers' present values below it. -/
def Strand.present (t : Strand) (e : VEntry) : List EWrite :=
  match vop e.instr with
  | none => []
  | some op =>
    let n := finalCount op e
    ((op.dests e.caps.vtype).map (fun d =>
      if d.pred then (List.range n).map (fun i => EWrite.p d.reg i ((t.getP d.reg).getLsbD i))
      else
        let bytes := if d.bits = 0 then n / 32 else n * d.bits / 8
        (List.range d.count).map (fun j =>
          let len := Nat.min t.vbytes (bytes - j * t.vbytes)
          EWrite.v (d.reg + j) 0 len (getBytes (t.v.getD (d.reg + j) 0) 0 len)))).flatten

/-- A write with the value that the registers hold now. -/
def Strand.reread (t : Strand) : EWrite → EWrite
  | .v r at_ len _ => .v r at_ len (getBytes (t.v.getD r 0) at_ len)
  | .p r i _ => .p r i ((t.getP r).getLsbD i)

/-- A record as it joins the queue again. A complete entry keeps what it wrote, so that its version stays the newer one
while an earlier entry is replayed (R104, R107). Rows of its version that are lost by now are so (R115). -/
def Strand.rejoin (t : Strand) (e : VEntry) : VEntry :=
  let done : List GroupRes :=
    if e.complete then e.done.map (fun r => { r with writes := r.writes.map t.reread })
    else if e.prog = 0 then []
    else [{ g := 0, writes := t.present e, fl := 0, gs := 0, flip := none, left := [] }]
  let x := { e with done := done }
  { x with bad := t.badRows.filter x.wrote }

/-! ### The matrix engine (R205, R324) -/

def isTile (i : Instr) : Bool := match vop i with | some op => (match op.run with | .tile => true | _ => false) | none => false
def isOrth (i : Instr) : Bool := match vop i with | some op => (match op.run with | .orth => true | _ => false) | none => false

/-- The strand's oldest incomplete entry of a kind. -/
def Strand.oldest (t : Strand) (p : Instr → Bool) : Option VEntry := t.viq.find? (fun e => !e.complete && p e.instr)

/-- A tile or orthogonal entry may run its next row or step: the leading `n` elements of its vector sources and whole
predicates are final, its destinations' previous versions are, nobody has still to read what it writes, and memory orders
hold (R105). -/
def Strand.engineOk (t : Strand) (e : VEntry) (op : VOp) (n : Nat) : Bool :=
  e.fault.isNone && t.convoyOk e && t.memOk e 0 && t.rowsOk e op 0 &&
  (op.srcs e.caps.vtype).all (fun o => t.covered e.seq (o.span t.vbytes 0 (if o.pred then allElems else n))) &&
  t.destsFree e (op.dests e.caps.vtype)

/-- The instruction that an engine of a core executes is still at work there: incomplete, no fault recorded. Its strand. -/
def State.engineBusy (s : State) (core : Nat) (held : Option (Nat × BitVec 32)) : Option Nat :=
  match held with
  | none => none
  | some (k, q) =>
    match s.strand? k with
    | none => none
    | some t =>
      if t.coreNo == core && t.life == .running &&
          (match t.entry? q with | some e => !e.complete && e.fault.isNone | none => false) then some k
      else none

/-- The engine's choice (R324): the strand whose instruction it executes, else the first of the core's ready strands in
ascending slot order from the pointer. -/
def State.engineTurn (s : State) (t : Strand) (held : Option (Nat × BitVec 32)) (ptr : Nat) (ready : Strand → Bool) : Bool :=
  match s.engineBusy t.coreNo held with
  | some k => k == t.key
  | none =>
    let far (u : Strand) : Nat := (u.slot + 4 - ptr) % 4
    s.strands.all (fun u => u.key == t.key || u.coreNo != t.coreNo || u.life != .running || !ready u || decide (far t ≤ far u))

def Strand.setTile (t : Strand) (acc : BitVec 3) (a : Tile) : Strand := { t with tiles := t.tiles.set acc.toNat a }

/-- The row is final: accumulator, flags, register writes, ROWPROG and the step count; the entry's end, with the SUSPECT
record of R329. -/
def Strand.rowDone (t : Strand) (e : VEntry) (f : TileForm) (z : RowRes) (fl : BitVec 5) : Strand :=
  let row := e.rowprog + 1
  let stepDone := decide (f.rows ≤ row)
  let place := 64 * e.prog + e.rowprog
  let sus := t.ctl.suspect.getLsbD (8 + f.acc.toNat)
  let t := if z.sus then { t with ctl := { t.ctl with suspect := t.ctl.suspect ||| BitVec.twoPow 64 f.acc.toNat } } else t
  let value : Option Word := if e.value.isSome then e.value else if z.sus && sus then some (wNat place) else none
  let t := (t.setTile f.acc { z.tile with rowprog := if stepDone then 64 else BitVec.ofNat 7 row }).orFlags (z.fl ||| fl) z.gs
  let t := t.modEntry e.seq (fun e => { e with
    value := value, partA := z.partA, prog := if stepDone then e.prog + 1 else e.prog, rowprog := if stepDone then 0 else row,
    done := if z.writes = [] then e.done else e.done ++ [groupOf 0 { writes := z.writes, fl := 0, gs := 0 }] })
  if stepDone ∧ f.steps ≤ e.prog + 1 then
    let t := match value with
      | some x => t.modEntry e.seq (fun e => e.addFault
          { cause := cSUSPECT, elem := x.toNat, addr := 0, info := BitVec.ofNat 62 (f.acc.toNat + 2 ^ 8 * (x.toNat % 64)) })
      | none => t
    (t.finishEntry e.seq none).advanceAll
  else t

/-- The form of a tile entry, its accumulator's rows read from the strand. -/
def Strand.formOf (t : Strand) (e : VEntry) : Option TileForm :=
  tileForm e.caps.vl.toNat (t.tile (match tileForm 0 0 e.instr with | some f => f.acc | none => 0)).m.toNat e.instr

/-- ROWPROG stays at the row that stops (R324). -/
def State.stayAtRow (s : State) (key : Nat) (e : VEntry) (acc : BitVec 3) : State :=
  s.modStrand key (fun t => t.setTile acc { t.tile acc with rowprog := BitVec.ofNat 7 e.rowprog })

/-- A row stops: the fault, and ROWPROG. -/
def State.rowFault (s : State) (key : Nat) (e : VEntry) (acc : BitVec 3) (x : Stop) : State :=
  match x with
  | .hold => s
  | _ => (s.vFault key e.seq (64 * e.prog + e.rowprog) x).stayAtRow key e acc

/-- Elements of its vector source that the next row of a tile entry reads (R324, R332). -/
def Strand.rowElems (t : Strand) (e : VEntry) : List Nat :=
  match e.instr with
  | .tmmaV acc ra _ _ ms fa fb pm ka kb ck =>
    ((mulArgs .vector acc ra ms fa fb pm ka kb ck).block (t.env e) e.prog).map (fun k => e.rowprog * e.caps.vl.toNat + k)
  | .trow acc _ _ _ => if e.caps.gb.toNat < (t.tile acc).m.toNat then List.range (t.tile acc).n.toNat else []
  | .tcol acc _ _ _ => if e.caps.gb.toNat < (t.tile acc).n.toNat then List.range (t.tile acc).m.toNat else []
  | _ => []

/-- What an engine reads of the vector file: elements of its sources, and the rows that it writes in part. -/
def Strand.engineReads (t : Strand) (e : VEntry) (op : VOp) (is : List Nat) (ws : List EWrite) : List Span :=
  (((op.srcs e.caps.vtype).filter (fun o => !o.pred)).map (fun o => is.map (fun i => o.span t.vbytes i (i + 1)))).flatten ++
  t.mergedRows ws

/-- One row of a tile entry. A row of the register file that it reads and that is lost stops it there (R116, R324). -/
def State.runRow (s : State) (key : Nat) (t : Strand) (e : VEntry) (op : VOp) (f : TileForm) : State :=
  match (if e.rowprog = 0 ∧ e.caps.ga.toNat % 8 ≠ 0 then f.image else none) with
  | some kind => s.rowFault key e f.acc (.trap cACCESS e.caps.ga.toNat kind.code)
  | none =>
    let r : RowEnv :=
      { s := s, t := t, view := heldView s.mem t.held, e := t.env e, partA := e.partA, step := e.prog, row := e.rowprog }
    match f.row r (t.tile f.acc) with
    | .error x => s.rowFault key e f.acc x
    | .ok z =>
      match checkStores s t f.pin .write f.bytes [] z.stores with
      | .error (_, x) => s.rowFault key e f.acc x
      | .ok xs =>
        let b := s.recoverRows key t e (64 * e.prog + e.rowprog) (t.engineReads e op (t.rowElems e) z.writes)
        match b.2 with
        | none => b.1.stayAtRow key e f.acc
        | some _ =>
          let a := (b.1.cleanReads t z.reads).vStores key e.seq xs
          a.1.modStrand key (fun t => t.rowDone e f z a.2)

/-- The strand's oldest tile entry may run its next row. -/
def Strand.tileReady (t : Strand) : Bool :=
  match t.oldest isTile with
  | none => false
  | some e => match vop e.instr with | some op => t.engineOk e op (tileNeeds t e) | none => false

/-- MATRIX_ENGINE_STEP: one row of the strand's oldest tile entry, when the core's engine serves it. -/
def State.tileStep (s : State) (key : Nat) : State :=
  match s.strand? key with
  | none => s
  | some t =>
    match t.oldest isTile with
    | none => s
    | some e =>
      match vop e.instr, t.formOf e with
      | some op, some f =>
        let c := s.core t.coreNo
        if t.life ≠ .running || !t.tileReady || !s.engineTurn t c.tile (sget 0 c.ptrs 68) Strand.tileReady then s
        else
          let s := (if (s.engineBusy t.coreNo c.tile).isSome then s else s.granted t 68).modCore t.coreNo
            (fun c => { c with tile := some (key, e.seq) })
          if f.steps ≤ e.prog then s.modStrand key (fun t => (t.finishEntry e.seq none).advanceAll)
          else s.runRow key t e op f
      | _, _ => s

/-! ### The orthogonal unit (R205, R338) -/

def Strand.setOrth (t : Strand) (q : BitVec 1) (o : Orth) : Strand := { t with orths := t.orths.set q.toNat o }

/-- One step of an orthogonal entry; its progress counts the lines written (R205). Its last step reads the vector source. -/
def State.runLine (s : State) (key : Nat) (t : Strand) (e : VEntry) (op : VOp) (q : BitVec 1) : State :=
  let r : OEnv := { s := s, t := t, view := heldView s.mem t.held, e := t.env e, step := e.prog, logged := e.logged }
  match Machine.orthStep r (t.orth q) e.instr with
  | .error x => s.vFault key e.seq e.prog x
  | .ok z =>
    match checkStores s t z.pin .write z.bytes [] z.stores with
    | .error (_, x) => s.vFault key e.seq e.prog x
    | .ok xs =>
      let n := if z.last then Nat.min (orthNeeds t e) r.e.top else 0
      let b := s.recoverRows key t e e.prog (t.engineReads e op (List.range n) z.writes)
      match b.2 with
      | none => b.1
      | some _ =>
        let a := (b.1.cleanReads t z.reads).vStores key e.seq xs
        a.1.modStrand key (fun t =>
          let g := groupOf 0 { writes := z.writes, fl := 0, gs := 0 }
          let t := (t.setOrth q z.orth).orFlags (z.fl ||| a.2) z.gs
          let t := t.modEntry e.seq (fun e => { e with
            prog := if z.part = .line then e.prog + 1 else e.prog, logged := e.logged || z.part == .log,
            done := if z.writes = [] then e.done else e.done ++ [g] })
          if z.last then (t.finishEntry e.seq none).advanceAll else t)

/-- The strand's oldest orthogonal entry may run its next step. -/
def Strand.orthReady (t : Strand) : Bool :=
  match t.oldest isOrth with
  | none => false
  | some e => match vop e.instr with | some op => t.engineOk e op (orthNeeds t e) | none => false

/-- ORTHOGONAL_LINE_STEP: one step of the strand's oldest orthogonal entry, when the core's unit serves it. -/
def State.orthStep (s : State) (key : Nat) : State :=
  match s.strand? key with
  | none => s
  | some t =>
    match t.oldest isOrth with
    | none => s
    | some e =>
      match vop e.instr, orthAcc e.instr with
      | some op, some q =>
        let c := s.core t.coreNo
        if t.life ≠ .running || !t.orthReady || !s.engineTurn t c.orth (sget 0 c.ptrs 69) Strand.orthReady then s
        else
          let s := (if (s.engineBusy t.coreNo c.orth).isSome then s else s.granted t 69).modCore t.coreNo
            (fun c => { c with orth := some (key, e.seq) })
          s.runLine key t e op q
      | _, _ => s

end

end Sys2Proof.Machine
end

