-- ==== Sys2Proof/Machine/Farm.lean ====
section
/-! DEFINITION. The farm dispatcher: descriptors, readiness, placement, launch, resumption, pre-emption requests, and the
end of strands and farms (R75 to R93, R211, R370). -/

namespace Sys2Proof.Machine

noncomputable section

/-! ### Responses and notices (R48, R52, R56) -/

/-- Put a record at the response port's tail; vector 0 when the port was empty. -/
def State.pushResp (s : State) (r : RespRec) : State :=
  { s with respPort := s.respPort ++ [r], msix := if s.respPort = [] then s.msix ++ [0] else s.msix }

/-- A notice or a late response waits in the notice queue, in order. -/
def State.pushNotice (s : State) (r : RespRec) : State := { s with notices := s.notices ++ [r] }

/-- The response to a command record (R52). It follows every notice produced before it (R48). -/
def State.respond (s : State) (c : CmdRec) (status r0 r1 r2 : Nat) : State :=
  let r : RespRec :=
    { status := BitVec.ofNat 16 status, part := c.part, tag := c.tag, opcode := c.opcode, res0 := BitVec.ofNat 64 r0,
      res1 := BitVec.ofNat 64 r1, res2 := BitVec.ofNat 64 r2 }
  if s.notices = [] ∧ s.respPort.length < 256 then s.pushResp r else s.pushNotice r

def FarmState.code : FarmState → Nat
  | .queued => 0
  | .running => 1
  | .held => 2
  | .done => 3
  | .stopped => 4
  | .faulted => 5

/-- A farm completes: its state, and the notice it owes (R56). -/
def State.finishFarm (s : State) (f : Farm) (st : FarmState) : State :=
  let s := s.modFarm f.id (fun f => { f with state := st, ready := false, halting := .no, notify := none })
  match f.notify with
  | none => s
  | some c =>
    s.pushNotice { status := 0, part := c.part, tag := c.tag, opcode := c.opcode, res0 := BitVec.ofNat 64 st.code,
                   res1 := 0, res2 := 0 }

/-! ### Descriptors (R75, R76) -/

/-- The fields of a 1,024-bit descriptor. -/
def parseFdesc (x : Nat) : Fdesc :=
  { entry := BitVec.ofNat 64 (fld x 0 64), argptr := BitVec.ofNat 64 (fld x 64 64), striplen := BitVec.ofNat 32 (fld x 128 32),
    stripcnt := BitVec.ofNat 32 (fld x 160 32), nstrands := BitVec.ofNat 16 (fld x 192 16),
    width := BitVec.ofNat 2 (fld x 208 2), minw := BitVec.ofNat 2 (fld x 210 2), fixed := x.testBit 212, det := x.testBit 213,
    check := BitVec.ofNat 2 (fld x 214 2), prio := BitVec.ofNat 3 (fld x 216 3), part := BitVec.ofNat 3 (fld x 219 3),
    dies := BitVec.ofNat 2 (fld x 224 2),
    waits := [0, 1, 2, 3].map (fun i => BitVec.ofNat 16 (fld x (256 + 16 * i) 16)),
    done := BitVec.ofNat 16 (fld x 320 16), ntile := BitVec.ofNat 4 (fld x 384 4), north := BitVec.ofNat 2 (fld x 388 2),
    tcmkb := BitVec.ofNat 10 (fld x 392 10), stackkb := BitVec.ofNat 10 (fld x 408 10),
    saveva := BitVec.ofNat 64 (fld x 448 64), srseed := BitVec.ofNat 64 (fld x 512 64), srsalt := BitVec.ofNat 8 (fld x 576 8),
    rsvdZero := fld x 222 2 = 0 && fld x 226 30 = 0 && fld x 336 48 = 0 && fld x 390 2 = 0 && fld x 402 6 = 0
      && fld x 418 30 = 0 && fld x 584 440 = 0 }

/-- A barrier form with its reserved bit clear. -/
def barFormOk (x : BitVec 16) : Bool := !x.getLsbD 13

/-- The checks of R76 on the fields alone. -/
def Fdesc.ok (d : Fdesc) : Bool :=
  d.rsvdZero && d.ntile.toNat ≤ 8 && d.north.toNat ≤ 2 && d.saveva.toNat % 4096 = 0 && d.entry.toNat % 2 = 0
  && d.width.toNat ≤ 2 && d.minw.toNat ≤ 2 && d.check.toNat ≤ 2 && d.dies.toNat ≠ 0
  && d.waits.all barFormOk && barFormOk d.done
  && 1 ≤ d.nstrands.toNat && d.nstrands.toNat ≤ 1024 && d.striplen ≠ 0 && d.minw.toNat ≤ d.width.toNat
  && !(d.det && !d.fixed) && !(barV d.done && barPh d.done) && d.tcmkb.toNat + d.stackkb.toNat ≤ 512

/-! ### Page-table walks for the dispatchers and the PSC (R55, R85, R370) -/

/-- The module with every stack open: the PSC and the dispatchers see a page table wherever it lies. -/
def State.asPsc (s : State) : State :=
  { s with hbm := s.hbm.map (fun k => { k with owner := false, right0 := { k.right0 with state := .owned } }) }

/-- The leaf of a partition's page table for an address, in a module as the PSC sees it. -/
def partLeaf (s : State) (p : BitVec 3) (va : Nat) : Option TlbEntry :=
  match s.part? p.toNat with
  | none => none
  | some q =>
    if 2 ^ 55 ≤ va ∨ windowBase ≤ va then none
    else match walk s false .read va 3 q.ptbase.toNat with
      | .ok e => some e
      | .error _ => none

/-- The frames of the save region's pages; none when one is missing or read-only (R85). -/
def regionFrames (s : State) (p : BitVec 3) : Nat → Nat → Option (List Nat)
  | 0, _ => some []
  | n + 1, va =>
    match partLeaf s p va, regionFrames s p n (va + 0x10000) with
    | some e, some r => if e.rights.getLsbD 2 then some ((e.frame + va % 2 ^ levelShift e.level) :: r) else none
    | _, _ => none

def saveFramesOf (s : State) (d : Fdesc) : Option (List Nat) :=
  regionFrames s.asPsc d.part (savePages d) (d.saveva.toNat / 0x10000 * 0x10000)

/-- The level a farm's strands start at (R370); none when the ENTRY leaf is missing or lacks X. -/
def entryLevel (s : State) (d : Fdesc) : Option Level :=
  match partLeaf s.asPsc d.part d.entry.toNat with
  | some e => if e.rights.getLsbD 3 then some (if e.rights.getLsbD 4 then .user else .kernel) else none
  | none => none

/-! ### Placement (R80 to R82) -/

/-- The die whose dispatcher owns a farm (R81). -/
def Fdesc.owner (d : Fdesc) : Bool := d.dies = 2

/-- The die of a strand (R81). -/
def Fdesc.dieOf (d : Fdesc) (logid : Nat) : Bool :=
  if d.dies = 1 then false else if d.dies = 2 then true else decide ((d.nstrands.toNat + 1) / 2 ≤ logid)

/-- What a strand takes on a core. -/
structure Seat where
  logid : Nat
  core : Nat
  lane : Nat
  lanes : Nat
  tcmBase : Nat
  tcmLen : Nat
  ntile : Nat
  north : Nat
  extents : Nat
  deriving DecidableEq, Repr

/-- A strand holds its seat until it is saved or ends, and an ended one its lane group until its held lines have drained
(R354). -/
def Strand.seated (t : Strand) : Bool := t.placed || (t.life == .ended && t.held != [])

/-- What a strand takes; its TCM and accumulators are free once it has ended (R82, R91). -/
def Strand.seat (t : Strand) : Seat :=
  let here (n : Nat) : Nat := if t.placed then n else 0
  { logid := t.logid, core := t.coreNo, lane := t.lane.toNat, lanes := t.lanes, tcmBase := t.tcmBase, tcmLen := here t.tcmLen,
    ntile := here t.tiles.length, north := here t.orths.length, extents := here t.pinEntries }

def State.seats (s : State) : List Seat := (s.strands.filter Strand.seated).map Strand.seat

/-- The lowest free range of `len` bytes among seats of one core, in units of 1 KiB. A seat that holds no TCM stands in no
range's way. -/
def freeTcm (used : List Seat) (len : Nat) : Nat → Nat → Option Nat
  | 0, _ => none
  | n + 1, base =>
    if 0x80000 < base + len then none
    else if used.any (fun x => x.tcmLen != 0 && decide (x.tcmBase < base + len) && decide (base < x.tcmBase + x.tcmLen)) then
      freeTcm used len n (base + 0x400)
    else some base

/-- Whether an aligned lane group of a core is free and powered (R82, R118). -/
def lanesFree (s : State) (used : List Seat) (core lane w : Nat) : Bool :=
  decide (lane + w ≤ (s.core core).maxlg.toNat) &&
  !(s.core core).waking.any (fun l => decide (lane ≤ l) && decide (l < lane + w)) &&
  !used.any (fun x => decide (x.lane < lane + w) && decide (lane < x.lane + x.lanes))

/-- A seat on one core, if the strand fits (R82). -/
def seatOn (s : State) (taken : List Seat) (need : Seat) (core : Nat) : Option Seat :=
  if !s.coresOn.getLsbD core then none
  else
    let used := taken.filter (fun x => x.core == core)
    if 4 ≤ used.length ∨ 8 < (used.map (fun x => x.ntile)).sum + need.ntile
      ∨ 2 < (used.map (fun x => x.north)).sum + need.north
      ∨ (need.extents ≠ 0 ∧ tableSize < (used.map (fun x => x.extents)).sum + need.extents) then none
    else
      match ([0, 8, 16, 24].filter (fun l => l % need.lanes = 0)).find? (fun l => lanesFree s used core l need.lanes),
            freeTcm used need.tcmLen 513 0 with
      | some l, some b => some { need with core := core, lane := l, tcmBase := b }
      | _, _ => none

/-- Seats for strands in ascending LOGID order; none when one does not fit (R80). -/
def seatAll (s : State) (d : Fdesc) : List Seat → List Seat → Option (List Seat)
  | _, [] => some []
  | taken, n :: r =>
    let first := if d.dieOf n.logid then 128 else 0
    match (List.range 128).findSome? (fun i => seatOn s taken n (first + i)) with
    | none => none
    | some x =>
      match seatAll s d (x :: taken) r with
      | some xs => some (x :: xs)
      | none => none

/-- What each strand of a farm needs at granted width code w: new strands, or the saved ones (R89). -/
def Farm.needs (f : Farm) (saved : List Strand) (w : Nat) : List Seat :=
  let seat (logid lanes extents : Nat) : Seat :=
    { logid := logid, core := 0, lane := 0, lanes := lanes, tcmBase := 0,
      tcmLen := (f.fd.tcmkb.toNat + f.fd.stackkb.toNat) * 0x400, ntile := f.fd.ntile.toNat, north := f.fd.north.toNat,
      extents := extents }
  if f.fresh then (List.range f.fd.nstrands.toNat).map (fun i => seat i (widthLanes w) 0)
  else saved.map (fun t => seat t.logid (Nat.max t.lgw (widthLanes w))
    ((t.pins.toList.filter (fun p => p.live && !p.revoked)).map (fun p => p.extents.length)).sum)

/-- The granted width and the seats, trying WIDTH first and then narrower ones down to MINW (R80). -/
def tryWidths (s : State) (taken : List Seat) (f : Farm) (saved : List Strand) : Nat → Option (Nat × List Seat)
  | 0 =>
    if f.fd.minw.toNat = 0 then (seatAll s f.fd taken (f.needs saved 0)).map (fun x => (0, x)) else none
  | w + 1 =>
    if w + 1 < f.fd.minw.toNat then none
    else
      match seatAll s f.fd taken (f.needs saved (w + 1)) with
      | some x => some (w + 1, x)
      | none => tryWidths s taken f saved w

def State.savedOf (s : State) (farm : Nat) : List Strand :=
  (s.farmStrands farm).filter (fun t => t.life == Life.saved)

/-- The page table that the dispatcher gives a strand of a partition (R210). -/
def State.partTable (s : State) (p : BitVec 3) : Word := match s.part? p.toNat with | some q => q.ptbase | none => 0

/-- The walk of a saved strand's live pin meets a stack that its die is handing over: the walk waits (R14, R211). -/
def State.pinsHeld (s : State) (t : Strand) : Bool :=
  let u := { t with ctl := { t.ctl with ptbase := s.partTable t.part } }
  t.pins.toList.any (fun p => p.live && !p.revoked &&
    (match rangeExtents s u p.rights p.base.toNat p.len.toNat with | .error .hold => true | _ => false))

/-- The farm is being stopped (R57). -/
def State.isStopping (s : State) (id : Nat) : Bool :=
  match s.farm? id with
  | some { halting := .stop _, .. } => true
  | _ => false

/-- A strand's seat counts as free: a halt of its farm frees it. The lane group of an ended strand stays with its held lines, but
under a stop, at whose end they drain (R86, R354). -/
def State.freed (s : State) (free : Nat → Bool) (t : Strand) : Bool := free t.farm && (t.placed || s.isStopping t.farm)

/-- Where a farm can be placed now, with the seats of some farms counted as free. A farm whose strands' restore would be held on
the die waits with it. -/
def State.place (s : State) (f : Farm) (free : Nat → Bool) : Option (Nat × List Seat) :=
  if !f.fresh && (s.savedOf f.id).any (fun t => s.saveHeld t || s.pinsHeld t) then none
  else
    tryWidths s (((s.strands.filter (fun t => t.seated && !s.freed free t)).map Strand.seat)) f (s.savedOf f.id) f.fd.width.toNat

/-! ### Launch and resumption (R83, R89, R211) -/

def stackTop (x : Seat) : Word := BitVec.ofNat 64 (windowBase + (x.tcmBase + x.tcmLen) / 16 * 16)

/-- A strand at its start (R83). -/
def newStrand (s : State) (f : Farm) (w : Nat) (lvl : Level) (x : Seat) : Strand :=
  let d := f.fd
  let t := { Strand.blank with
    farm := f.id, logid := x.logid, nstrands := d.nstrands.toNat, part := d.part, die := d.dieOf x.logid,
    core := BitVec.ofNat 7 x.core, lane := BitVec.ofNat 5 x.lane, lgw := widthLanes w, lanes := x.lanes, det := d.det,
    life := .running, level := lvl, pc := d.entry,
    ctl := { Ctl.start with
      srseed := d.srseed, srsalt := d.srsalt.setWidth 64, check := d.check.setWidth 64, ptbase := s.partTable d.part },
    tiles := List.replicate d.ntile.toNat Tile.start, orths := List.replicate d.north.toNat Orth.start,
    tcmBase := x.tcmBase, tcmLen := x.tcmLen, saveVa := d.saveva.toNat }
  ((t.setG 1 d.argptr).setG 30 (stackTop x)).setG 31 (BitVec.ofNat 64 romVa)

/-- Put a strand among those the module holds: it becomes the current one if no strand runs. An ended strand's record stays
as it is (R91, log 52). -/
def State.addStrand (s : State) (t : Strand) : State :=
  if s.cur.life = .running then { s with others := s.others ++ [t] }
  else { s with cur := t, others := if s.cur.life = .unused then s.others else s.others ++ [s.cur] }

/-- A pin of a resuming strand is walked again; it is revoked with STOP 0 unless the same frames and rights are found
(R211 step 3). `old` are the extents it had. A window page has no frame, and its walk finds the strand's rights to it where it
runs now (R162, R171, log 67). No walk is held here: such a farm is not placed. -/
def revalidate (s : State) (t : Strand) (old : List PinExtent) (first : Nat) (p : Pin) : Pin :=
  if !p.live || p.revoked then p
  else
    match rangeExtents s t p.rights p.base.toNat p.len.toNat with
    | .ok xs =>
      if xs = old ∨ windowBase ≤ p.base.toNat then { p with extents := xs, xfirst := BitVec.ofNat 11 first }
      else { p with revoked := true, stop := 0 }
    | .error _ => { p with revoked := true, stop := 0 }

/-- Validate the seven pins in turn, each run directly after the entries in use. -/
def revalidateAll (s : State) (t : Strand) (old : Vector Pin 8) (used : Nat) : Nat → Strand → Strand
  | 0, u => u
  | n + 1, u =>
    let u := revalidateAll s t old used n u
    let k := n + 1
    let p := revalidate s t (old.getD k Pin.idle).extents (used + u.pinEntries) (u.pins.getD k Pin.idle)
    { u with pins := u.pins.setIfInBounds k p }

/-- A saved strand in the seat it has been given (R89, R210). -/
def State.placedFor (s : State) (w : Nat) (x : Seat) (t : Strand) : Strand :=
  { t with
    core := BitVec.ofNat 7 x.core, lane := BitVec.ofNat 5 x.lane, lanes := x.lanes, tcmBase := x.tcmBase, tcmLen := x.tcmLen,
    pendW := if widthLanes w = t.lgw then none else some (widthLanes w), life := .running, stalled := false,
    latch := t.latch ||| 32, haltReq := false, ctl := { t.ctl with ptbase := s.partTable t.part } }

/-- The oldest entry of a queue begins a convoy. -/
def firstConvoy : List VEntry → List VEntry
  | [] => []
  | e :: r => { e with convoy := true } :: r

/-- What the saved strand `t` goes on as, `u` being what its area gave: pins judged again, the entries in the queue. -/
def State.resumed (s : State) (t u : Strand) : Strand :=
  let u := revalidateAll s u t.pins (s.tableUsed u.coreNo) 7 u
  ({ u with
    viq := firstConvoy (u.viq.map u.rejoin),
    shadow := t.shadow.filter (fun e => !u.viq.any (fun v => v.seq == e.seq)) } : Strand).advanceAll

/-- The walks of a resuming strand's pins that meet a mirror mismatch (R15, R211). -/
def State.pinMirrors (s : State) (u : Strand) : List Stop :=
  u.pins.toList.filterMap (fun p =>
    if p.live && !p.revoked then
      (match rangeExtents s u p.rights p.base.toNat p.len.toNat with | .error (.mirror a k) => some (Stop.mirror a k) | _ => none)
    else none)

/-- What the reads of a resuming strand's area meet of stacks that the die does not own, and they and its pins' walks of mirror
mismatches. -/
def State.resumeStops (s : State) : Option Strand → List Stop
  | none => []
  | some u => (s.saveStop u saveProbes).toList ++ s.pinMirrors u

/-- The saved strand `t` runs on as what its area gave. -/
def State.resumeFrom (s : State) (t : Strand) : Option Strand → State
  | none => { s with lost := true }
  | some u =>
    ({ s with
      cur := if s.cur.key = t.key ∧ s.cur.life = Life.saved then { s.cur with life := .unused } else s.cur
      others := s.others.filter (fun v => !(v.key == t.key && v.life == Life.saved)) }.addStrand (s.resumed t u)).giveAll

/-- A saved strand resumes on its seat (R89, R211); a mirror mismatch on the way is its machine check (R15), a stack that the die
does not own its ownership fault (R14, log 16). -/
def State.resumeStrand (s : State) (w : Nat) (x : Seat) (t : Strand) : State :=
  let u := s.restoreStrand (s.placedFor w x t)
  (s.resumeStops u).foldl (fun s x => s.storeFault t.key x) (s.resumeFrom t u)

def State.startAll (s : State) (f : Farm) (w : Nat) (lvl : Level) : List Seat → State
  | [] => s
  | x :: r =>
    let s' : State :=
      if f.fresh then s.addStrand (newStrand s f w lvl x)
      else
        match (s.savedOf f.id).find? (fun t => t.logid == x.logid) with
        | some t => s.resumeStrand w x t
        | none => s
    s'.startAll f w lvl r

/-- The farm no longer waits for its half on die 1 (R81). -/
def State.unreserve (s : State) (id : Nat) : State := { s with reserve := s.reserve.filter (fun n => n != id) }

/-- Launch a farm on its seats; a farm whose region or entry is no longer mapped at its first launch becomes FAULTED (R85,
R370). A farm that has run keeps the region that its launch pinned. -/
def State.launch (s : State) (f : Farm) (w : Nat) (xs : List Seat) : State :=
  let s := s.unreserve f.id
  match (if f.fresh then saveFramesOf s f.fd else some f.frames), (if f.fresh then entryLevel s f.fd else some f.level) with
  | some frames, some lvl =>
    let s := s.modFarm f.id (fun f => { f with
      state := .running, ready := false, grant := BitVec.ofNat 2 w, level := lvl, frames := frames,
      launched := s.nextOrder, fresh := false })
    { s with nextOrder := s.nextOrder + 1 }.startAll f w lvl xs
  | _, _ => s.finishFarm f .faulted

/-! ### Readiness and the launch decision (R77 to R79, R86) -/

/-- Effective priority (R78). -/
def Farm.prio (f : Farm) : Nat := Nat.min 7 (f.fd.prio.toNat + f.aged)

/-- Whether f goes before g in its partition: higher effective priority, then earlier place in the queue, also of a farm that
was pre-empted (R86, log 70). -/
def Farm.goesBefore (f g : Farm) : Bool := decide (g.prio < f.prio) || (f.prio == g.prio && decide (f.order < g.order))

/-- A ready farm rises one level. It joins its new level in order of the time it became ready: directly behind the last farm
there that became ready before it, at the level's front when there is none (R78). -/
def State.rise (s : State) (f : Farm) : State :=
  let level := s.farms.filter (fun g => g.id != f.id && g.ready && g.state == .queued && g.part == f.part &&
    g.fd.owner == f.fd.owner && g.prio == f.prio + 1)
  let before := level.filter (fun g => decide (g.readyAt < f.readyAt))
  let place := if before = [] then level.foldl (fun n g => Nat.min n g.order) s.nextOrder
    else before.foldl (fun n g => Nat.max n (g.order + 1)) 0
  { s with
    farms := s.farms.map (fun g =>
      if g.id = f.id then { g with aged := g.aged + 1, order := place }
      else if place ≤ g.order then { g with order := g.order + 1 } else g)
    nextOrder := s.nextOrder + 1 }

/-- A partition's head on a die (R78). -/
def State.head (s : State) (die : Bool) (p : Nat) : Option Farm :=
  (s.farms.filter (fun f => f.ready && f.state == .queued && f.fd.owner == die && f.part.toNat == p)).foldl
    (fun o f => match o with | none => some f | some g => if f.goesBefore g then some f else some g) none

def State.weight (s : State) (p : Nat) : Int := match s.part? p with | some q => (q.weight.toNat : Int) | none => 0

/-- The partitions of E after adding weights, and the chosen one: largest credit, lower number first (R79). -/
def chooseCredit (c : List (Nat × Int)) : Option Nat :=
  (c.foldl (fun (o : Option (Nat × Int)) x =>
    match o with
    | none => some x
    | some y => if y.2 < x.2 ∨ (y.2 = x.2 ∧ x.1 < y.1) then some x else some y) none).map (fun x => x.1)

/-- A farm that runs, or would run, on a die (R81). -/
def Fdesc.uses (d : Fdesc) (die : Bool) : Bool := d.dies.getLsbD (if die then 1 else 0)

/-- Two farms that share a die. -/
def Fdesc.meets (d e : Fdesc) : Bool := (d.uses false && e.uses false) || (d.uses true && e.uses true)

/-- Farms a priority halt may take, in order: lower effective priority first, most recently launched first (R86). -/
def victimBefore (f g : Farm) : Bool := decide (f.prio < g.prio) || (f.prio == g.prio && decide (g.launched < f.launched))

def insertVictim (f : Farm) : List Farm → List Farm
  | [] => [f]
  | g :: r => if victimBefore f g then f :: g :: r else g :: insertVictim f r

/-- The shortest leading part of the victims whose halting lets the head be placed. -/
def enough (s : State) (h : Farm) : List Farm → List Nat → Option (List Nat)
  | [], _ => none
  | v :: r, acc =>
    let acc := acc ++ [v.id]
    if (s.place h (fun id => acc.contains id)).isSome then some acc else enough s h r acc

/-- Ask the strands of a farm to halt (R87); what becomes of it stands in `halting`. -/
def State.requestHalt (s : State) (id : Nat) (h : Halting) : State :=
  s.modFarm id (fun f => { f with halting := h })

def State.isHalting (s : State) (id : Nat) : Bool :=
  match s.farm? id with
  | some f => f.halting != .no
  | none => false

/-- Whether a running farm stalls at `yield` (R353). -/
def State.yields (s : State) (id : Nat) : Bool :=
  s.strands.any (fun t => t.farm == id && t.life == .running && (match t.pause with | .yielding _ => true | _ => false))

/-- Strands of a farm halted at equal priority because it stalls at `yield` resume after the `yield` (R353). -/
def State.pastYield (s : State) (h : Farm) (id : Nat) : State :=
  match s.farm? id with
  | none => s
  | some f =>
    if f.prio = h.prio then
      s.mapStrands (fun t => match t.pause with
        | .yielding _ => if t.farm = id then { t with pause := .yielded } else t
        | _ => t)
    else s

/-- A priority halt for a head that cannot be placed (R86, R353). -/
def State.priorityHalt (s : State) (h : Farm) : State :=
  let vs := (s.farms.filter (fun f => f.state == .running && f.part == h.part && f.halting == .no && f.fd.meets h.fd &&
    (decide (f.prio < h.prio) || (f.prio == h.prio && s.yields f.id)))).foldr insertVictim []
  let busy := s.farms.filter (fun f => f.halting != .no)
  if (s.place h (fun id => busy.any (fun f => f.id == id))).isSome then s
  else
    match enough s h vs (busy.map (fun f => f.id)) with
    | some ids => ids.foldl (fun s id => if s.isHalting id then s else (s.requestHalt id (.requeue none)).pastYield h id) s
    | none => s

/-- The lane-cycles a partition has used on a die in the quota period: timing, so a free value until the period ends
(log 16). -/
def State.usage (s : State) (die : Bool) (p : Nat) : Nat × State :=
  let k := (if die then 8 else 0) + p
  match sget 0 s.quota k with
  | 0 => let v := Config.free s.free; (v, { s with free := s.free + 1, quota := sset 0 s.quota k (v + 1) })
  | n + 1 => (n, s)

/-- Lanes of a die's enabled cores: 4,096 when none is disabled (R1, R86). -/
def State.lanesOn (s : State) (die : Bool) : Nat :=
  32 * ((List.range 128).filter (fun i => s.coresOn.getLsbD (i + if die then 128 else 0))).length

/-- How far a partition is over its quota: usage × ΣW against W × the die's lanes × 1,100,000 cycles (R86). -/
def State.excess (s : State) (die : Bool) (p : Nat) : Int × State :=
  let act := (List.range 8).filter (fun q => (s.part? q).isSome &&
    s.farms.any (fun f => f.part.toNat == q && f.fd.uses die && (f.state == .running || (f.state == .queued && f.ready))))
  let total := (act.map s.weight).sum
  let (u, s) := s.usage die p
  ((u : Int) * total - s.weight p * s.lanesOn die * 1100000, s)

/-- A partition that quota halts leave alone: a timing-isolated one. -/
def State.isolatedPart (s : State) (q : Nat) : Bool := match s.part? q with | some x => x.isolated | none => true

/-- The partitions other than p whose farms a quota halt may take on a die, with how far they are over quota there (R86). -/
def State.overOn (s : State) (p : Nat) (die : Bool) : List (Bool × Nat × Int) × State :=
  let others := (List.range 8).filter (fun q => q != p && !s.isolatedPart q &&
    s.farms.any (fun f => f.part.toNat == q && f.state == .running && f.halting == .no && f.fd.uses die))
  others.foldl (fun (acc : List (Bool × Nat × Int) × State) q =>
    let (o, s) := acc.2.excess die q
    (if 0 < o then acc.1 ++ [(die, q, o)] else acc.1, s)) ([], s)

/-- How far a farm's partition is over quota on a die that the farm uses, at most; 0 when it is not. -/
def overBy (ranked : List (Bool × Nat × Int)) (f : Farm) : Int :=
  (ranked.filter (fun x => f.fd.uses x.1 && x.2.1 == f.part.toNat)).foldl (fun n x => max n x.2.2) 0

/-- Farms a quota halt may take, in order: the most over-quota partition's first, most recently launched first (R86). -/
def insertOver (how : Farm → Int) (f : Farm) : List Farm → List Farm
  | [] => [f]
  | g :: r =>
    if how g < how f || (how g == how f && decide (g.launched < f.launched)) then f :: g :: r else g :: insertOver how f r

/-- The partition is under quota on each of some dies. -/
def State.underOn (s : State) (p : Nat) (dies : List Bool) : Bool × State :=
  dies.foldl (fun (a : Bool × State) d => let (x, s) := a.2.excess d p; (a.1 && decide (x < 0), s)) (true, s)

/-- A quota halt for the partition R79 would choose, on the dies of its head (R86). Farms that are halting already count as
gone. -/
def State.quotaHalt (s : State) (h : Farm) : State :=
  let p := h.part.toNat
  let busy := (s.farms.filter (fun f => f.halting != .no)).map (fun f => f.id)
  let dies := [false, true].filter h.fd.uses
  if s.isolatedPart p || (s.place h (fun id => busy.contains id)).isSome then s
  else
    let (under, s) := s.underOn p dies
    if !under then s
    else
      let (ranked, s) := dies.foldl (fun (a : List (Bool × Nat × Int) × State) d =>
        let (x, s) := a.2.overOn p d; (a.1 ++ x, s)) ([], s)
      let vs := (s.farms.filter (fun f => f.state == .running && f.halting == .no && decide (0 < overBy ranked f))).foldr
        (insertOver (overBy ranked)) []
      match enough s h vs busy with
      | some ids => ids.foldl (fun s id => if s.isHalting id then s else s.requestHalt id (.requeue none)) s
      | none => s

/-- Die 1 holds a launch back while some two-die farm of higher effective priority waits for its half there (R81). -/
def State.heldBack (s : State) (die : Bool) (h : Farm) : Bool :=
  die && (s.reserve.filterMap s.farm?).any (fun f => f.state == .queued && decide (h.prio < f.prio))

/-- One launch decision of a die's dispatcher (R79): the head it launches, the granted width and the seats, and the credits
charged. Answers none when no partition is eligible. -/
def State.choice (s : State) (die : Bool) : Option (Farm × (Nat × List Seat) × State) :=
  let heads := (List.range 8).filterMap (fun p => (s.head die p).map (fun f => (p, f)))
  let elig := heads.filterMap (fun x =>
    if s.heldBack die x.2 then none else (s.place x.2 (fun _ => false)).map (fun pl => (x.1, x.2, pl)))
  let credits := elig.map (fun x => (x.1, ((s.part? x.1).map (fun q => q.credit)).getD 0 + s.weight x.1))
  match chooseCredit credits with
  | none => none
  | some q =>
    let total := (elig.map (fun x => s.weight x.1)).sum
    let s := credits.foldl (fun s x => s.modPart x.1 (fun p => { p with credit := if x.1 = q then x.2 - total else x.2 })) s
    (elig.find? (fun x => x.1 == q)).map (fun x => (x.2.1, x.2.2, s))

/-- A launch decision is made and carried out. -/
def State.decide1 (s : State) (die : Bool) : Option State :=
  (s.choice die).map (fun x => x.2.2.launch x.1 x.2.1.1 x.2.1.2)

/-- The heads that no decision could place ask for halts (R86). No partition is eligible then: the one that R79 would choose is
taken over all partitions with a head, at the credit that a decision would give each (log 66). -/
def State.askHalts (s : State) (die : Bool) : State :=
  let heads := (List.range 8).filterMap (fun p => s.head die p)
  let s := heads.foldl (fun s h => s.priorityHalt h) s
  match chooseCredit ((heads.map (fun h => (h.part.toNat,
      ((s.part? h.part.toNat).map (fun q => q.credit)).getD 0 + s.weight h.part.toNat)))) with
  | some q => match s.head die q with | some h => s.quotaHalt h | none => s
  | none => s

/-- Repeat the decision until no partition is eligible (R79). -/
def State.decideLoop (s : State) (die : Bool) : Nat → State
  | 0 => s
  | n + 1 =>
    match s.decide1 die with
    | some s' => s'.decideLoop die n
    | none => s.askHalts die

/-- A waiting farm whose waits are all satisfied becomes ready (R77). -/
def State.readyFarms (s : State) : List Farm → State
  | [] => s
  | f :: r =>
    let s' : State :=
      if f.state = .queued ∧ !f.ready ∧ f.fd.waits.all s.waitMet then
        { s.modFarm f.id (fun f => { f with ready := true, order := s.nextOrder, readyAt := s.nextOrder }) with
          nextOrder := s.nextOrder + 1 }
      else s
    s'.readyFarms r

/-- The first two-die farm that die 0's decisions, at most n of them, choose: the one for which it asks die 1 to reserve a half. -/
def State.firstAsk (s : State) : Nat → Option Farm
  | 0 => none
  | n + 1 =>
    match s.choice false with
    | none => none
    | some (f, pl, t) => if f.fd.dies = 3 then some f else (t.launch f pl.1 pl.2).firstAsk n

/-- Die 0 asks die 1 to reserve what it has read there, in `old`, as free: where the groups are used by now, the reservation
fails and die 1 holds back its launches of lower effective priority (R81). A decision that ends so charges no credit (log 56). -/
def State.reserveHalf (s old : State) (n : Nat) : State :=
  match old.firstAsk n with
  | some h =>
    if (s.place h (fun _ => false)).isNone && !s.reserve.contains h.id then { s with reserve := s.reserve ++ [h.id] } else s
  | none => s

/-- A two-die farm and a farm of die 1 compete for die 1's lane groups. -/
def State.halvesMeet (s : State) : Bool :=
  (List.range 8).any (fun p => match s.head false p with | some h => h.fd.dies == 3 | none => false) &&
  (List.range 8).any (fun p => (s.head true p).isSome)

/-- Where a two-die farm competes with a farm of die 1, a free value says whether die 1 decides between die 0's reading and
its reservation (R81). -/
def State.raceHalf (s : State) (n : Nat) : State :=
  if s.halvesMeet then
    let (d, s) := s.draw
    if d % 2 = 0 then s else (s.decideLoop true n).reserveHalf s n
  else s

/-- The dispatchers look at every waiting farm and make their launch decisions (R77, R79). -/
def State.poll (s : State) : State :=
  if s.farms.any (fun f => f.state == .queued) then
    let s := s.readyFarms s.farms
    let n := s.farms.length + 1
    (s.raceHalf n).decideLoop false n |>.decideLoop true n
  else s

/-! ### Barrier operations that a farm may wait on -/

/-- One arrival, and what it lets start. Answers true when it was refused. -/
def State.arrive (s : State) (die : Bool) (idx : Nat) : State × Bool :=
  let r := s.arriveRaw die idx
  (r.1.poll, r.2)

def State.deliver (s : State) (die : Bool) (idx n : Nat) : State := (s.deliverBytes die idx n).poll

/-! ### Queuing (R76, R85, R370) -/

/-- Lane groups of a width on the enabled cores of a descriptor's dies (R76). -/
def State.groupsFor (s : State) (d : Fdesc) (w : Nat) : Nat :=
  ((List.range 256).filter (fun c => s.coresOn.getLsbD c &&
    (if c < 128 then d.dies.getLsbD 0 else d.dies.getLsbD 1))).length * (32 / widthLanes w)

/-- The status a descriptor is refused with; none when it may be queued (R52, R76, R85, R370). -/
def State.judge (s : State) (d : Fdesc) (part : BitVec 3) (user : Bool) : Option Nat :=
  if !d.ok || d.part != part then some 2
  else if (s.part? d.part.toNat).isNone then some 3
  else if s.groupsFor d d.minw.toNat < d.nstrands.toNat then some 10
  else
    match entryLevel s d, saveFramesOf s d with
    | some lvl, some _ => if user && lvl == .kernel then some 2 else none
    | _, _ => some 10

/-- Queue a descriptor; answers its FARMID (R76, R77). Until a width is granted QUERY_FARM shows WIDTH as the granted one:
R54 speaks of a grant only (log 53). -/
def State.queueFarm (s : State) (d : Fdesc) (notify : Option CmdRec) : State × Nat :=
  let id := s.nextFarm
  let f : Farm :=
    { id := id, part := d.part, fd := d, state := .queued, ready := false, order := 0, readyAt := 0, aged := 0,
      grant := d.width, notify := notify, level := .user, frames := [], strips := 0, nextStrip := 0, res2 := 0, trapped := false,
      launched := 0, halting := .no, fresh := true, vfDone := 0 }
  ({ s with farms := s.farms ++ [f], nextFarm := id + 1 }.poll, id)

/-! ### The end of a strand and of a farm (R91, R92, R354) -/

/-- The command that asked for a halt is answered: PREEMPT with the number of strands saved, STOP_FARM with STOPPED. -/
def State.answerHalt (s : State) (h : Halting) (saved : Nat) : State :=
  match h with
  | .requeue (some r) => s.respond r 0 saved 0 0
  | .hold r => s.respond r 0 saved 0 0
  | .stop (some r) => s.respond r 0 4 0 0
  | _ => s

/-- The farm has no strand left that runs, halts or is saved. -/
def State.farmEmpty (s : State) (id : Nat) : Bool := !s.strands.any (fun t => t.farm == id && t.exists_)

/-- A farm whose last strand has ended becomes DONE or FAULTED; a DONE farm sends its arrival after the drain (R91). A farm
that is being stopped becomes STOPPED and sends none (R57). -/
def State.endFarm (s : State) (id : Nat) : State :=
  match s.farm? id with
  | none => s
  | some f =>
    if f.state = .running ∧ s.farmEmpty id then
      let s := (s.drainFarm id (fun _ => true)).answerHalt f.halting 0
      let stopping := match f.halting with | .stop _ => true | _ => false
      let s := s.finishFarm f (if stopping then .stopped else if f.trapped then .faulted else .done)
      if !stopping ∧ !f.trapped ∧ barV f.fd.done then (s.arriveRaw (barDie f.fd.done) (barIdx f.fd.done)).1 else s
    else s

/-- A transfer that the strand started has neither delivered nor stopped: a BTE command, a row gather or a collective
command (R173, R310, R314). A collective command that has failed moves nothing more. -/
def State.transfers (s : State) (key : Nat) : Bool :=
  s.bte.any (fun c => c.key == key) || s.colls.any (fun c => c.key == key && decide (c.stage < 3))

/-- A strand ends (R91, R201, R213): what its VIQ still holds goes, buffered stores are performed, its pins are unpinned.
Registers and accumulators stand as they are. `res2` is QUERY_FARM's RES2 when a trap ended it. -/
def State.endStrand (s : State) (key : Nat) (res2 : Option Nat) : State :=
  match s.strand? key with
  | none => s
  | some t =>
    let s := s.modStrand key (fun t => { t with viq := [], rq := [], frozen := 0, shadow := [] })
    let s := ((s.flushStores key (t.sbuf.length)).unpinAll key).modStrand key (fun t => { t with
      life := .ended, sbuf := [], stalled := false, pause := .none })
    let s := match res2 with
      | none => s
      | some r => s.modFarm t.farm (fun f => { f with res2 := r, trapped := true })
    let s := if t.det then s.closeEpoch t.farm else s
    (s.endFarm t.farm).poll

end

end Sys2Proof.Machine
end

