-- ==== Sys2Proof/Machine/Ops.lean ====
section
/-! DEFINITION. Taking a trap and returning from one (R197 to R204), and the scalar accesses to memory (R184, R187, R255
to R258, R268). -/

namespace Sys2Proof.Machine

noncomputable section

/-! ### Instruction bytes -/

/-- The keys of a parcel, as a fetch finds them (R161 to R167, R215). -/
def fetchKeys (s : State) (va : Word) : Except Stop (List Nat) := scalarKeys s s.cur .fetch 2 va

/-- A parcel as it stands in memory; a parcel that cannot be fetched counts as zero. -/
def peekParcel (s : State) (va : Word) : BitVec 16 :=
  match fetchKeys s va with
  | .ok ks => BitVec.ofNat 16 (leNat (memReadList (s.cur.view s.mem) ks))
  | .error _ => 0

/-- The first 32 bits at the pc: TINFO of ILLEGAL and PRIV (R197). -/
def firstWord (s : State) : Nat := (peekParcel s s.cur.pc).toNat + 2 ^ 16 * (peekParcel s (s.cur.pc + 2)).toNat

/-! ### Taking a trap -/

/-- TCAUSE as a trap writes it: VEC in bit 8 (R135). -/
def TrapInfo.tcause (i : TrapInfo) : Nat := (if i.vec then 0x100 else 0) + i.cause.toNat

/-- The trap a recorded fault is taken as (R107, R197). -/
def vectorTrap (e : VEntry) (f : VFault) : TrapInfo :=
  { cause := f.cause, vec := true, seq := e.seq, elem := f.elem, addr := f.addr, info := f.info }

/-- The cause chosen at a boundary: a machine check, a recorded vector fault, else what the instruction raises (R199). -/
def chooseTrap (t : Strand) (i : TrapInfo) : TrapInfo :=
  match t.mcheck with
  | some m => m
  | none =>
    match t.dueFault with
    | some (e, f) => vectorTrap e f
    | none => i

/-- The record of the trap taken is cleared from its entry (R199). -/
def Strand.clearFault (t : Strand) (i : TrapInfo) : Strand :=
  if i.vec then t.modEntry i.seq (fun e => { e with fault := none }) else { t with mcheck := none }

/-- Every entry still in the VIQ is written to the frozen area and leaves the queue; the registers take their
architectural values; pending marks go (R200). -/
def State.freeze (s : State) : State :=
  let t := s.cur
  let u := t.architectural
  (s.putRecords t 0x7000 t.viq).modCur (fun t => { t with
    g := u.g, v := u.v, p := u.p, badRows := u.badRows, opBuf := t.settledOps, frozen := t.viq.length, shadow := t.viq, viq := [], rq := [] })

/-- RES2 of a strand that ends on a trap due inside a handler (R201, R54): TCAUSE of the trap being handled, DOUBLE, the
cause not delivered. -/
def doubleRes2 (tcause : Word) (i : TrapInfo) : Nat := tcause.toNat % 0x200 + 0x1F * 2 ^ 16 + i.cause.toNat * 2 ^ 24

/-- TINFO as a trap writes it: PLEV in bit 63 (R135). -/
def TrapInfo.tinfo (i : TrapInfo) (l : Level) : Word := BitVec.ofNat 64 ((if l == .kernel then 2 ^ 63 else 0) + i.info.toNat)

/-- Fill the trap record, enter kernel level at TRAPVEC (R135, R200). -/
def State.enterHandler (s : State) (i : TrapInfo) : State :=
  s.modCur (fun t => { t with
    ctl := { t.ctl with
      tcause := BitVec.ofNat 64 i.tcause, tpc := t.pc, tviq := i.seq.setWidth 64, telem := BitVec.ofNat 64 i.elem,
      taddr := i.addr, tinfo := i.tinfo t.level }
    trapNow := BitVec.ofNat 64 i.tcause, trapInfo := i.tinfo t.level
    level := .kernel, inHandler := true, pc := t.ctl.trapvec, stalled := false, pause := .none })

/-- Taking a trap: the issued micro-operations complete, the cause is chosen, and the trap is delivered, or ends the
strand when a handler is already running (R199 to R201); the strand's end waits for its transfers (R310). While the frozen
area lies on a stack that the die is handing over, the entries' records are held and the trap with them (R14). -/
def State.takeTrap (s : State) (i : TrapInfo) : State :=
  let s := s.drainStrand s.cur.key
  let i := chooseTrap s.cur i
  if s.cur.inHandler then
    if s.transfers s.cur.key then s.modCur (fun t => { t with mcheck := some i, stalled := true })
    else s.endStrand s.cur.key (some (doubleRes2 s.cur.trapNow i))
  else if s.cur.viq != [] && s.saveHeld s.cur then s.stall
  else ((s.modCur (fun t => t.clearFault i)).freeze).enterHandler i

/-- A trap of the instruction at the pc. -/
def State.trap (s : State) (cause : BitVec 8) (addr info : Nat) : Res := .next (s.takeTrap (scalarTrap cause addr info))

/-- ILLEGAL (R197, R229). -/
def State.illegal (s : State) : Res := s.trap cILLEGAL 0 (firstWord s)

/-- PRIV (R128, R197). -/
def State.priv (s : State) : Res := s.trap cPRIV 0 (firstWord s)

/-- An access that does not go ahead: held, the instruction waits; else its trap. A mirror mismatch is recorded by the base
die and counted with the machine check that it raises (R15, R133). -/
def State.stopped (s : State) (x : Stop) : Res :=
  match x with
  | .hold => .next s.stall
  | .trap c a i => s.trap c a i
  | .mirror a _ => ((s.mirror x).modCur Strand.countCheck).trap cMCHECK a 2

/-- A kernel operation: PRIV at user level (R349). -/
def kernelOnly (s : State) (k : State → Res) : Res := if s.cur.level = .kernel then k s else s.priv

/-- An encoding check made at commit: ILLEGAL when it fails (R229). -/
def checked (ok : Bool) (s : State) (k : State → Res) : Res := if ok then k s else s.illegal

/-! ### Returning (R204, R351) -/

/-- A frozen entry as it is reposted: its SKIP element is inactive on this replay, the fault of an incomplete entry is
dropped (R199, R204). -/
def repost (tviq : Word) (telem : Word) (skip : Bool) (e : VEntry) : VEntry :=
  { e with
    fault := if e.complete then e.fault else none
    skip := if skip ∧ e.seq.setWidth 64 = tviq then some telem.toNat else none }

/-- The read-queue slots of reposted entries (R204): a value that was delivered before the trap has none. -/
def repostSlots (es : List VEntry) : List RqSlot :=
  (es.filter (fun e => !e.complete || e.value.isSome)).filterMap (fun e => (rqDest e.instr).map (fun d =>
    { seq := e.seq, dest := d, value := if e.complete then e.value else none }))

/-- A handler's buffered store once the handler has returned: it comes before the reposted entries (R184, R200). -/
def BufferedStore.afterHandler (es : List VEntry) (b : BufferedStore) : BufferedStore :=
  if b.handler then { b with handler := false, after := (es.head?.map (fun e => e.seq)).getD b.after } else b

/-- The instruction after TPC, for TRAP and BRK (R197, R214). -/
def afterTpc (s : State) (tpc : Word) : Word := tpc + BitVec.ofNat 64 (parcelLength (peekParcel s tpc))

/-- What stops the read of the frozen area: `tret` is the requesting instruction (R14, R15, R180). -/
def State.frozenStop (s : State) : Option Stop :=
  if s.cur.frozen = 0 then none else s.saveStop s.cur [0x7000, 0x7000 + 128 * s.cur.frozen - 1]

/-- The effect of `tret` once the handler's entries have completed (R204, R351). -/
def State.returnFromTrap (s : State) : Res :=
  let c := s.cur.ctl
  if c.tpc.getLsbD 0 then s.trap cTARGET c.tpc.toNat 0
  else if s.cur.frozen != 0 && s.saveHeld s.cur then .next s.stall
  else
    match s.frozenStop, readRecords s s.cur s.cur.frozen 0x7000 with
    | some x, _ => s.stopped x
    | none, none => .fault .recordLost
    | none, some es =>
      let es := es.map (fun e => s.cur.rejoin (repost c.tviq c.telem (c.tinfo.getLsbD 62) e))
      let es := match es with | [] => [] | e :: r => { e with convoy := true } :: r
      let cause := c.tcause.toNat % 0x100
      let again := cause ≠ cTRAP.toNat ∧ cause ≠ cBRK.toNat
      .next (s.modCur (fun t => { t with
        viq := es, rq := repostSlots es, sbuf := t.sbuf.map (BufferedStore.afterHandler es), frozen := 0, shadow := [], cvy := if es = [] then true else t.cvy
        level := if c.tinfo.getLsbD 63 then .kernel else .user, inHandler := false
        ctl := { t.ctl with tinfo := c.tinfo &&& ~~~(BitVec.twoPow 64 62) }
        pc := if again then c.tpc else afterTpc s c.tpc }.advanceAll))

/-! ### Waits of scalar accesses on vector entries (R184 to R188) -/

/-- An incomplete entry that writes memory through a pin whose range the access touches (R184). -/
def Strand.loadWaits (t : Strand) (va n : Nat) : Bool :=
  t.viq.any (fun e => !e.complete && (t.memUse e).writes && (t.memUse e).pins.any (fun k => t.inPin k va n))

/-- The same for a store or atomic: any incomplete memory entry (R184). -/
def Strand.storeWaits (t : Strand) (va n : Nat) : Bool :=
  t.viq.any (fun e => !e.complete && (t.memUse e).pins.any (fun k => t.inPin k va n))

/-- An incomplete entry that accesses memory (R185). -/
def Strand.memBusy (t : Strand) : Bool := t.viq.any (fun e => !e.complete && ((t.memUse e).reads || (t.memUse e).writes))

/-- An incomplete entry that loads from off-core memory (R188). -/
def Strand.offCoreLoads (t : Strand) : Bool := t.viq.any t.loadsOffCore

/-- A release waits until earlier memory entries have completed and earlier scalar stores are performed (R185). In a handler
one that stands behind a frozen entry's loads holds it back as well (log 31). -/
def Strand.releaseWaits (t : Strand) : Bool := t.memBusy || t.sbuf != []

/-! ### Scalar accesses -/

/-- A fence holds accesses of a kind back behind a buffered store: 0 scalar loads, 1 scalar stores, 2 vector loads,
3 vector stores, 4 engines (R186, R315). -/
def Strand.fenced (t : Strand) (kind : Nat) : Bool := t.sbuf.any (fun b => b.fence.getLsbD kind)

/-- Fill the TLB for the pages of an access. -/
def State.touch (s : State) (kind : AKind) (va : Word) (n : Nat) : State :=
  let s1 := s.fillTlb s.cur kind va.toNat
  s1.fillTlb s1.cur kind (va + BitVec.ofNat 64 (n - 1)).toNat

/-- POISON for an access that reads, once the strand's own earlier stores into its lines are performed: they may rewrite a
line whole (R20, R184). -/
def afterPoison (s : State) (va : Word) (ks : List Nat) (k : Res) : Res :=
  match poisonStop s va ks with
  | none => k
  | some x =>
    let ls := linesOf ks
    if s.cur.sbuf.any (fun b => b.keys.any (fun y => ls.contains (lineOf y))) then .next s.stall
    else s.stopped x

/-- A scalar load of n bytes at va, whose lines enter the core's L1 (R168); `k` receives the bytes as a number (R255, R256). -/
def scalarLoad (s : State) (va : Word) (n : Nat) (k : State → Nat → Res) : Res :=
  match checkBytes s s.cur .read none n va with
  | .error x => s.stopped x
  | .ok ks =>
    if s.cur.fenced 0 || s.cur.loadWaits va.toNat n then .next s.stall
    else afterPoison s va ks (k ((s.touch .read va n).takeLines s.cur.coreNo false ks)
      (leNat (memReadList (s.cur.view s.mem) ks)))

/-- A store to off-core memory enters the store buffer; one to a window is performed at once (R189, R257). -/
def State.commitStore (s : State) (va : Nat) (ks : List Nat) (n x : Nat) : State :=
  if ks.all offCore then
    s.modCur (fun t => { t with sbuf := t.sbuf ++
      [{ va := va, keys := ks, val := x % 2 ^ (8 * n), after := t.nextSeq, fence := 0, handler := t.inHandler,
         rewalk := false }] })
  else s.performStore s.cur.key s.cur.coreNo ks (leBytes n x)

/-- A scalar store of the low n bytes of x (R255, R256). -/
def scalarStore (s : State) (va : Word) (n x : Nat) (k : State → Res) : Res :=
  match scalarKeys s s.cur .write n va with
  | .error e => s.stopped e
  | .ok ks =>
    if (s.cur.fenced 1 && !ks.all offCore) || s.cur.storeWaits va.toNat n then .next s.stall
    else k ((s.touch .write va n).commitStore va.toNat ks n x)

/-- What an atomic waits for: entries and stores to the same bytes, earlier off-core loads, and under release every
earlier access (R184, R185, R188). -/
def Strand.atomicWaits (t : Strand) (va n : Nat) (ks : List Nat) (release : Bool) : Bool :=
  t.fenced 0 || t.fenced 1 || t.storeWaits va n ||
  t.sbuf.any (fun b => b.keys.any (fun k => ks.contains k)) ||
  (ks.all offCore && t.offCoreLoads) || (release && t.releaseWaits)

/-- An atomic performed at its home: `f` gives the new value for the old one, none to write nothing (R187, R268). It reads
what the strand holds back there. -/
def scalarAtomic (s : State) (va : Word) (n : Nat) (release : Bool) (f : Nat → Option Nat)
    (k : State → Nat → Res) : Res :=
  if va.toNat % n ≠ 0 then s.trap cMISALIGN va.toNat 4
  else
    match checkBytes s s.cur .atomic none n va with
    | .error e => s.stopped e
    | .ok ks =>
      if s.cur.atomicWaits va.toNat n ks release then .next s.stall
      else afterPoison s va ks (
        let s := (s.touch .atomic va n).filterLines false (linesOf ks)
        let old := leNat (memReadList (s.cur.view s.mem) ks)
        match f old with
        | none => k s old
        | some x =>
          k (((s.settleHeld s.cur.key ks).addStale s.cur.coreNo ks).storeBytes ks (leBytes n x)) old)

end

end Sys2Proof.Machine
end

