-- ==== Sys2Proof/Machine/Scalar.lean ====
section
/-! DEFINITION. Scalar integer instructions: majors 0x01 ALU, 0x02 MDB, the immediate forms, shifts, upper immediates
(R247 to R254), and their compressed and IMM-prefixed forms (R219, R223, R224). -/

namespace Sys2Proof.Machine

noncomputable section

/-! ### Shapes -/

/-- g[d] := f(g[a], g[b]) (R247). -/
def alu (d a b : Reg) (f : Word → Word → Word) (s : State) : Res :=
  withRegs [d, a, b] s (fun s => .next (s.retire d (f (s.g a) (s.g b)) 4))

/-- g[d] := f(g[a]). -/
def alu1 (d a : Reg) (f : Word → Word) (s : State) : Res :=
  withRegs [d, a] s (fun s => .next (s.retire d (f (s.g a)) 4))

/-- g[d] := f(g[a], imm), the instruction taking `len` bytes (R252). -/
def aluImm (d a : Reg) (imm : Word) (f : Word → Word → Word) (len : Nat) (s : State) : Res :=
  withRegs [d, a] s (fun s => .next (s.retire d (f (s.g a) imm) len))

/-! ### Functions of words (R249 to R251) -/

/-- The shift amount g[b][5:0]. -/
def shamt (b : Word) : Nat := b.toNat % 64

def wSll (a b : Word) : Word := a <<< shamt b
def wSrl (a b : Word) : Word := a >>> shamt b
def wSra (a b : Word) : Word := a.sshiftRight (shamt b)
def wRol (a b : Word) : Word := a.rotateLeft (shamt b)
def wRor (a b : Word) : Word := a.rotateRight (shamt b)
def wSlt (a b : Word) : Word := if a.slt b then 1 else 0
def wSltu (a b : Word) : Word := if a.ult b then 1 else 0
def wMin (a b : Word) : Word := if a.slt b then a else b
def wMax (a b : Word) : Word := if a.slt b then b else a
def wMinu (a b : Word) : Word := if a.ult b then a else b
def wMaxu (a b : Word) : Word := if a.ult b then b else a

/-- sext of the low 32 bits. -/
def wSext32 (a : Word) : Word := (a.setWidth 32).signExtend 64

def wMulh (a b : Word) : Word := BitVec.ofInt 64 (a.toInt * b.toInt / (2 : Int) ^ 64)
def wMulhu (a b : Word) : Word := wNat (a.toNat * b.toNat / 2 ^ 64)
def wMulhsu (a b : Word) : Word := BitVec.ofInt 64 (a.toInt * (b.toNat : Int) / (2 : Int) ^ 64)

/-- Division never traps: R251 fixes a zero divisor and −2^63 ÷ −1. -/
def wDiv (a b : Word) : Word := if b = 0 then BitVec.allOnes 64 else BitVec.ofInt 64 (a.toInt.tdiv b.toInt)
def wDivu (a b : Word) : Word := if b = 0 then BitVec.allOnes 64 else wNat (a.toNat / b.toNat)
def wRem (a b : Word) : Word := if b = 0 then a else BitVec.ofInt 64 (a.toInt.tmod b.toInt)
def wRemu (a b : Word) : Word := if b = 0 then a else wNat (a.toNat % b.toNat)

/-- Length of the run of zero bits from bit i upward. -/
def zerosUp (a : Word) : Nat → Nat → Nat
  | 0, _ => 0
  | n + 1, i => if a.getLsbD i then 0 else zerosUp a n (i + 1) + 1

/-- Length of the run of zero bits below bit n. -/
def zerosDown (a : Word) : Nat → Nat
  | 0 => 0
  | n + 1 => if a.getLsbD n then 0 else zerosDown a n + 1

def wClz (a : Word) : Word := wNat (zerosDown a 64)
def wCtz (a : Word) : Word := wNat (zerosUp a 64 0)
def wPopc (a : Word) : Word := wNat ((List.range 64).countP (fun i => a.getLsbD i))

/-! ### ALU (R249) -/

/-- ALU 00: g[a] + g[b]. -/
def execAdd (d a b : Reg) (s : State) : Res := alu d a b (fun a b => a + b) s

/-- ALU 01: g[a] − g[b]. -/
def execSub (d a b : Reg) (s : State) : Res := alu d a b (fun a b => a - b) s

/-- ALU 02: g[a] and g[b]. -/
def execAnd (d a b : Reg) (s : State) : Res := alu d a b (fun a b => a &&& b) s

/-- ALU 03: g[a] or g[b]. -/
def execOr (d a b : Reg) (s : State) : Res := alu d a b (fun a b => a ||| b) s

/-- ALU 04: g[a] xor g[b]. -/
def execXor (d a b : Reg) (s : State) : Res := alu d a b (fun a b => a ^^^ b) s

/-- ALU 05: g[a] and not g[b]. -/
def execAndn (d a b : Reg) (s : State) : Res := alu d a b (fun a b => a &&& ~~~b) s

/-- ALU 06: shift left. -/
def execSll (d a b : Reg) (s : State) : Res := alu d a b wSll s

/-- ALU 07: shift right, zeros entering. -/
def execSrl (d a b : Reg) (s : State) : Res := alu d a b wSrl s

/-- ALU 08: shift right, sign entering. -/
def execSra (d a b : Reg) (s : State) : Res := alu d a b wSra s

/-- ALU 09: rotate left. -/
def execRol (d a b : Reg) (s : State) : Res := alu d a b wRol s

/-- ALU 0A: rotate right. -/
def execRor (d a b : Reg) (s : State) : Res := alu d a b wRor s

/-- ALU 0B: signed less than. -/
def execSlt (d a b : Reg) (s : State) : Res := alu d a b wSlt s

/-- ALU 0C: unsigned less than. -/
def execSltu (d a b : Reg) (s : State) : Res := alu d a b wSltu s

/-- ALU 0D: signed minimum. -/
def execMin (d a b : Reg) (s : State) : Res := alu d a b wMin s

/-- ALU 0E: signed maximum. -/
def execMax (d a b : Reg) (s : State) : Res := alu d a b wMax s

/-- ALU 0F: unsigned minimum. -/
def execMinu (d a b : Reg) (s : State) : Res := alu d a b wMinu s

/-- ALU 10: unsigned maximum. -/
def execMaxu (d a b : Reg) (s : State) : Res := alu d a b wMaxu s

/-- ALU 11: 32-bit sum, sign-extended. -/
def execAddw (d a b : Reg) (s : State) : Res := alu d a b (fun a b => wSext32 (a + b)) s

/-- ALU 12: 32-bit difference, sign-extended. -/
def execSubw (d a b : Reg) (s : State) : Res := alu d a b (fun a b => wSext32 (a - b)) s

/-! ### MDB (R250, R251) -/

/-- MDB 00: low product. -/
def execMul (d a b : Reg) (s : State) : Res := alu d a b (fun a b => a * b) s

/-- MDB 01: high product, signed. -/
def execMulh (d a b : Reg) (s : State) : Res := alu d a b wMulh s

/-- MDB 02: high product, unsigned. -/
def execMulhu (d a b : Reg) (s : State) : Res := alu d a b wMulhu s

/-- MDB 03: high product, signed by unsigned. -/
def execMulhsu (d a b : Reg) (s : State) : Res := alu d a b wMulhsu s

/-- MDB 04: signed quotient. -/
def execDiv (d a b : Reg) (s : State) : Res := alu d a b wDiv s

/-- MDB 05: unsigned quotient. -/
def execDivu (d a b : Reg) (s : State) : Res := alu d a b wDivu s

/-- MDB 06: signed remainder. -/
def execRem (d a b : Reg) (s : State) : Res := alu d a b wRem s

/-- MDB 07: unsigned remainder. -/
def execRemu (d a b : Reg) (s : State) : Res := alu d a b wRemu s

/-- MDB 08: leading zeros. -/
def execClz (d a : Reg) (s : State) : Res := alu1 d a wClz s

/-- MDB 09: trailing zeros. -/
def execCtz (d a : Reg) (s : State) : Res := alu1 d a wCtz s

/-- MDB 0A: one bits. -/
def execPopc (d a : Reg) (s : State) : Res := alu1 d a wPopc s

/-- MDB 0B: sign-extend from bit 7. -/
def execSextb (d a : Reg) (s : State) : Res := alu1 d a (fun a => (a.setWidth 8).signExtend 64) s

/-- MDB 0C: sign-extend from bit 15. -/
def execSexth (d a : Reg) (s : State) : Res := alu1 d a (fun a => (a.setWidth 16).signExtend 64) s

/-- MDB 0D: sign-extend from bit 31. -/
def execSextw (d a : Reg) (s : State) : Res := alu1 d a wSext32 s

/-- MDB 0E: zero-extend from bit 15. -/
def execZexth (d a : Reg) (s : State) : Res := alu1 d a (fun a => a &&& 0xFFFF) s

/-- MDB 0F: zero-extend from bit 31. -/
def execZextw (d a : Reg) (s : State) : Res := alu1 d a (fun a => a &&& 0xFFFFFFFF) s

/-! ### Immediate forms (R252, R223) -/

/-- add with the sign-extended imm14. -/
def execAddi (d a : Reg) (imm : BitVec 14) (s : State) : Res := aluImm d a (sext64 imm) (fun a b => a + b) 4 s

/-- and with the sign-extended imm14. -/
def execAndi (d a : Reg) (imm : BitVec 14) (s : State) : Res := aluImm d a (sext64 imm) (fun a b => a &&& b) 4 s

/-- or with the sign-extended imm14. -/
def execOri (d a : Reg) (imm : BitVec 14) (s : State) : Res := aluImm d a (sext64 imm) (fun a b => a ||| b) 4 s

/-- xor with the sign-extended imm14. -/
def execXori (d a : Reg) (imm : BitVec 14) (s : State) : Res := aluImm d a (sext64 imm) (fun a b => a ^^^ b) 4 s

/-- signed less than with the sign-extended imm14. -/
def execSlti (d a : Reg) (imm : BitVec 14) (s : State) : Res := aluImm d a (sext64 imm) wSlt 4 s

/-- unsigned less than with the sign-extended imm14. -/
def execSltiu (d a : Reg) (imm : BitVec 14) (s : State) : Res := aluImm d a (sext64 imm) wSltu 4 s

/-- add with the sign-extended imm38 of an IMM prefix. -/
def execAddiImm (d a : Reg) (imm : BitVec 38) (s : State) : Res := aluImm d a (sext64 imm) (fun a b => a + b) 8 s

/-- and with the sign-extended imm38 of an IMM prefix. -/
def execAndiImm (d a : Reg) (imm : BitVec 38) (s : State) : Res := aluImm d a (sext64 imm) (fun a b => a &&& b) 8 s

/-- or with the sign-extended imm38 of an IMM prefix. -/
def execOriImm (d a : Reg) (imm : BitVec 38) (s : State) : Res := aluImm d a (sext64 imm) (fun a b => a ||| b) 8 s

/-- xor with the sign-extended imm38 of an IMM prefix. -/
def execXoriImm (d a : Reg) (imm : BitVec 38) (s : State) : Res := aluImm d a (sext64 imm) (fun a b => a ^^^ b) 8 s

/-- signed less than with the sign-extended imm38 of an IMM prefix. -/
def execSltiImm (d a : Reg) (imm : BitVec 38) (s : State) : Res := aluImm d a (sext64 imm) wSlt 8 s

/-- unsigned less than with the sign-extended imm38 of an IMM prefix. -/
def execSltiuImm (d a : Reg) (imm : BitVec 38) (s : State) : Res := aluImm d a (sext64 imm) wSltu 8 s

/-! ### Shifts by a constant (R253) -/

def execSlli (d a : Reg) (sh : BitVec 6) (s : State) : Res := aluImm d a (zext64 sh) wSll 4 s

def execSrli (d a : Reg) (sh : BitVec 6) (s : State) : Res := aluImm d a (zext64 sh) wSrl 4 s

def execSrai (d a : Reg) (sh : BitVec 6) (s : State) : Res := aluImm d a (zext64 sh) wSra 4 s

def execRoli (d a : Reg) (sh : BitVec 6) (s : State) : Res := aluImm d a (zext64 sh) wRol 4 s

/-! ### Upper immediates (R217, R254) -/

/-- sext(imm19 << 13). -/
def hi19 (imm : BitVec 19) : Word := sext64 (imm ++ 0#13)

def execLuim (d : Reg) (imm : BitVec 19) (s : State) : Res :=
  withRegs [d] s (fun s => .next (s.retire d (hi19 imm) 4))

def execApc (d : Reg) (imm : BitVec 19) (s : State) : Res :=
  withRegs [d] s (fun s => .next (s.retire d (s.cur.pc + hi19 imm) 4))

/-! ### Compressed forms (R224) -/

/-- The register a three-bit field names: g8 to g15. -/
def cReg (r : BitVec 3) : Reg := 8 + r.setWidth 5

/-- `addi` of a sign-extended imm8. -/
def execCAddi (d : BitVec 3) (imm : BitVec 8) (s : State) : Res :=
  aluImm (cReg d) (cReg d) (sext64 imm) (fun a b => a + b) 2 s

/-- `add` of d and a into d. -/
def execCAdd (d a : BitVec 3) (s : State) : Res :=
  withRegs [cReg d, cReg a] s (fun s => .next (s.retire (cReg d) (s.g (cReg d) + s.g (cReg a)) 2))

/-- Copy a to d. -/
def execCMov (d a : BitVec 3) (s : State) : Res :=
  withRegs [cReg d, cReg a] s (fun s => .next (s.retire (cReg d) (s.g (cReg a)) 2))

/-- No effect. -/
def execCNop (s : State) : Res := .next (s.advance 2)

end

end Sys2Proof.Machine
end

