-- ==== Sys2Proof/Machine/Branch.lean ====
section
/-! DEFINITION. Branches and jumps (R215, R224, R259 to R262). -/

namespace Sys2Proof.Machine

noncomputable section

/-- pc + sext(off) × 2. -/
def target {n : Nat} (s : State) (off : BitVec n) : Word := s.cur.pc + 2 * sext64 off

/-- Branch by `off` when the registers meet the condition, else go on after `len` bytes (R259). -/
def branch {n : Nat} (a b : Reg) (off : BitVec n) (c : Word → Word → Bool) (len : Nat) (s : State) : Res :=
  withRegs [a, b] s (fun s => .next (if c (s.g a) (s.g b) then s.setPc (target s off) else s.advance len))

/-! ### Branches (R259) -/

/-- Taken when g[a] = g[b]. -/
def execBeq (a b : Reg) (off : BitVec 14) (s : State) : Res := branch a b off (fun x y => x == y) 4 s

/-- Taken when g[a] ≠ g[b]. -/
def execBne (a b : Reg) (off : BitVec 14) (s : State) : Res := branch a b off (fun x y => x != y) 4 s

/-- Taken when g[a] < g[b], signed. -/
def execBlt (a b : Reg) (off : BitVec 14) (s : State) : Res := branch a b off (fun x y => x.slt y) 4 s

/-- Taken when g[a] ≥ g[b], signed. -/
def execBge (a b : Reg) (off : BitVec 14) (s : State) : Res := branch a b off (fun x y => y.sle x) 4 s

/-- Taken when g[a] < g[b], unsigned. -/
def execBltu (a b : Reg) (off : BitVec 14) (s : State) : Res := branch a b off (fun x y => x.ult y) 4 s

/-- Taken when g[a] ≥ g[b], unsigned. -/
def execBgeu (a b : Reg) (off : BitVec 14) (s : State) : Res := branch a b off (fun x y => y.ule x) 4 s

/-- `beq a, g0` (R224). -/
def execCBeqz (a : BitVec 3) (off : BitVec 8) (s : State) : Res := branch (cReg a) 0 off (fun x y => x == y) 2 s

/-- `bne a, g0` (R224). -/
def execCBnez (a : BitVec 3) (off : BitVec 8) (s : State) : Res := branch (cReg a) 0 off (fun x y => x != y) 2 s

/-! ### Jumps (R260, R261) -/

/-- The link register lk is g31 (R119). -/
def lk : Reg := 31

def execJ (off : BitVec 24) (s : State) : Res := .next (s.setPc (target s off))

/-- The link is written before the jump (R260, R262). -/
def execJl (off : BitVec 24) (s : State) : Res :=
  withRegs [lk] s (fun s => .next ((s.setG lk (s.cur.pc + 4)).setPc (target s off)))

def execCJ (off : BitVec 11) (s : State) : Res := .next (s.setPc (target s off))

/-- An odd target takes TARGET and changes nothing (R261). -/
def jumpTo (t : Word) (s : State) (k : State → State) : Res :=
  if t.getLsbD 0 then s.trap cTARGET t.toNat 0 else .next ((k s).setPc t)

def execJr (a : Reg) (s : State) : Res := withRegs [a] s (fun s => jumpTo (s.g a) s (fun s => s))

def execJlr (d a : Reg) (s : State) : Res :=
  withRegs [d, a] s (fun s => jumpTo (s.g a) s (fun s => s.setG d (s.cur.pc + 4)))

end

end Sys2Proof.Machine
end

