-- ==== Sys2Proof/Machine/Fence.lean ====
section
/-! DEFINITION. Fences and barrier instructions: major 0x1B (R34 to R38, R186, R190, R193, R315 to R320, R378). -/

namespace Sys2Proof.Machine

noncomputable section

/-! ### Fences (R186, R315, R316) -/

/-- An incomplete entry of a vector kind in the mask: bit 2 loads, bit 3 stores. -/
def Strand.fenceWaits (t : Strand) (kinds : BitVec 5) : Bool :=
  t.viq.any (fun e => !e.complete &&
    ((kinds.getLsbD 2 && (t.memUse e).reads) || (kinds.getLsbD 3 && (t.memUse e).writes)))

/-- Buffered scalar stores hold back later accesses of the kinds in the mask when the mask names scalar stores. In a handler
the frozen entries' replay is later too, but for a store that waits for their loads: it comes behind these (R188, log 31). -/
def Strand.fenceStores (t : Strand) (kinds : BitVec 5) : Strand :=
  if kinds.getLsbD 1 then
    { t with sbuf := t.sbuf.map (fun b =>
        { b with fence := b.fence ||| kinds, handler := b.handler || (t.inHandler && !t.storeFrozen b) }) }
  else t

def execFence (kinds : Reg) (scope : BitVec 3) (s : State) : Res :=
  checked (kinds != 0 && decide (scope.toNat ≤ 5)) s (fun s =>
    if s.cur.fenceWaits kinds then .next s.stall
    else .next ((s.modCur (fun t => t.fenceStores kinds)).advance 4))

/-- The current strand's counted `vfence` has its drain (R193). -/
def State.epochDrained (s : State) : Bool :=
  match s.farm? s.cur.farm with
  | some f => s.cur.vfences == BitVec.ofNat 32 f.vfDone
  | none => true

/-- The end of a counted `vfence`: on when the drain is performed, else wait. -/
def State.afterCount (s : State) : Res :=
  if s.epochDrained then .next ((s.modCur (fun t => { t with pause := .none })).advance 4)
  else .next (s.modCur (fun t => { t with pause := .counted })).stall

/-- Outside deterministic mode the entries' stores are at their homes when they complete. -/
def execVfence (s : State) : Res :=
  if s.cur.pause = .counted then s.afterCount
  else if !s.cur.viqDone then .next s.stall
  else if !s.cur.det then .next (s.advance 4)
  else ((s.modCur (fun t => { t with vfences := t.vfences + 1 })).closeEpoch s.cur.farm).poll.afterCount

/-! ### Barrier instructions (R317, R318) -/

/-- A barrier form that an instruction accepts: V set, bit 13 and bits [63:16] clear. -/
def barFormGood (x : Word) : Bool := decide (x.toNat < 2 ^ 16) && x.getLsbD 15 && !x.getLsbD 13

/-- Statuses of R317. -/
def bOK : Word := 0
def bBADFORM : Word := 1
def bREFUSED : Word := 2

/-- An instruction on the barrier that g[a] names; a bad form answers `bad`. -/
def onBarrier (rs : List Reg) (d a : Reg) (bad : Word) (s : State) (k : State → Bool → Nat → BitVec 16 → Res) : Res :=
  withRegs (d :: a :: rs) s (fun s =>
    let x := s.g a
    if barFormGood x then
      let f : BitVec 16 := x.setWidth 16
      k s (barDie f) (barIdx f) f
    else .next (s.retire d bad 4))

/-- A configuration word that R319 allows. -/
def barConfigOk (x : Word) : Bool := decide (x.toNat < 2 ^ 49) && decide (fld x.toNat 16 3 ≤ 5) && decide (fld x.toNat 0 16 ≠ 0)

/-- The entry that `bar.init` leaves: PHASE kept, FAULT cleared (R318, R319). -/
def Barrier.init (b : Barrier) (x : Word) : Barrier :=
  { b with
    expected := x.setWidth 16, scope := BitVec.ofNat 3 (fld x.toNat 16 3), parv := x.getLsbD 19, pardie := x.getLsbD 20,
    paridx := BitVec.ofNat 12 (fld x.toNat 21 12), parpkg := BitVec.ofNat 16 (fld x.toNat 33 16), fault := false }

def execBarInit (d a b : Reg) (s : State) : Res :=
  onBarrier [b] d a bBADFORM s (fun s die idx _ =>
    let e := s.bar (barKey die idx)
    if !barConfigOk (s.g b) then .next (s.retire d bBADFORM 4)
    else if e.arrived ≠ 0 ∨ e.pending ≠ 0 then .next (s.retire d bREFUSED 4)
    else .next ((s.setBar (barKey die idx) (e.init (s.g b))).retire d bOK 4))

/-- What an instruction that releases waits for (R185, R190). -/
def released (s : State) (k : State → Res) : Res := if s.cur.releaseWaits then .next s.stall else k s

def execBarArrive (d a : Reg) (s : State) : Res :=
  onBarrier [] d a bBADFORM s (fun s die idx _ => released s (fun s =>
    let refused := (s.arriveRaw die idx).2
    .next ((s.retire d (if refused then bREFUSED else bOK) 4).arrive die idx).1))

def execBarWait (d a : Reg) (s : State) : Res :=
  onBarrier [] d a bBADFORM s (fun s _ _ f => if s.waitMet f then .next (s.retire d bOK 4) else .next s.stall)

def execBarPost (d a b : Reg) (s : State) : Res :=
  onBarrier [b] d a bBADFORM s (fun s die idx _ =>
    match s.announce die idx (s.g b).toNat with
    | none => .next (s.retire d bREFUSED 4)
    | some s' => .next (s'.retire d bOK 4))

def execBarDone (d a b : Reg) (s : State) : Res :=
  onBarrier [b] d a bBADFORM s (fun s die idx _ => released s (fun s =>
    let n := (s.g b).toNat
    if (s.bar (barKey die idx)).pending.toNat < n then .next (s.retire d bREFUSED 4)
    else .next ((s.retire d bOK 4).deliver die idx n)))

/-- The wait part: until PHASE differs from the value recorded at the arrival (R361). -/
def State.afterArrival (s : State) (d : Reg) (f : BitVec 16) (phase : Bool) : Res :=
  if (s.bar (barKey (barDie f) (barIdx f))).phase != phase then
    .next ((s.modCur (fun t => { t with pause := .none })).retire d bOK 4)
  else .next (s.modCur (fun t => { t with pause := .arrived f phase })).stall

def execBarArrwait (d a : Reg) (s : State) : Res :=
  match s.cur.pause with
  | .arrived f phase => withRegs [d, a] s (fun s => s.afterArrival d f phase)
  | _ =>
    onBarrier [] d a bBADFORM s (fun s die idx f => released s (fun s =>
      let phase := (s.bar (barKey die idx)).phase
      let r := (s.modCur (fun t => { t with pause := .arrived f phase })).arrive die idx
      if r.2 then .next (((s.retire d bREFUSED 4).arrive die idx).1)
      else r.1.afterArrival d f phase))

/-- FAULT, PHASE, ARRIVED and PENDING of an entry. -/
def Barrier.query (b : Barrier) : Word :=
  wNat (2 ^ 57 * (if b.fault then 1 else 0) + 2 ^ 56 * (if b.phase then 1 else 0) + 2 ^ 40 * b.arrived.toNat + b.pending.toNat)

def execBarQuery (d a : Reg) (s : State) : Res :=
  onBarrier [] d a (BitVec.allOnes 64) s (fun s die idx _ => .next (s.retire d (s.bar (barKey die idx)).query 4))

/-- BARRIER_ARRIVAL: an arrival reaches an entry, from a child barrier of this package or as a farm's own (R35, R38). -/
def execBarrierArrival (die : Bool) (idx : BitVec 12) (s : State) : Res := .next (s.arrive die idx.toNat).1

end

end Sys2Proof.Machine
end

