-- ==== Sys2Proof/Machine/FpScalar.lean ====
section
/-! DEFINITION. Scalar floating point: majors 0x17 FPS and 0x18 FMAS (R263 to R267). -/

namespace Sys2Proof.Machine

noncomputable section

/-- The rounding mode of an m field: 0 to 4, and 5 for RMODE (R263); 6 and 7 are illegal (R264). -/
def scalarRm (s : State) (m : BitVec 3) : Option Rm :=
  if m.toNat ≤ 4 then some { code := m.toNat, r := 0 }
  else if m = 5 then some { code := s.cur.ctl.rmode.toNat % 8, r := 0 }
  else none

/-- Write a result, OR its flags into FSTAT, go on (R145, R263). -/
def State.fpRetire (s : State) (d : Reg) (r : Nat × BitVec 5) : State :=
  (s.modCur (fun t => t.orFlags r.2 0)).retire d (wNat r.1) 4

/-- An operation that rounds. -/
def fpRound (rs : List Reg) (d : Reg) (m : BitVec 3) (s : State) (f : State → Rm → Nat × BitVec 5) : Res :=
  match scalarRm s m with
  | none => s.illegal
  | some rm => withRegs (d :: rs) s (fun s => .next (s.fpRetire d (f s rm)))

/-- An operation that does not round. -/
def fpPlain (rs : List Reg) (d : Reg) (s : State) (f : State → Nat × BitVec 5) : Res :=
  withRegs (d :: rs) s (fun s => .next (s.fpRetire d (f s)))

/-- An operand of a format: the low bits of its register (R263). -/
def fpOpd (s : State) (f : Fmt) (r : Reg) : Nat := (s.g r).toNat % 2 ^ f.width

def fp2 (f : Fmt) (g : Fmt → Rm → Nat → Nat → Nat × BitVec 5) (d a b : Reg) (m : BitVec 3) (s : State) : Res :=
  fpRound [a, b] d m s (fun s rm => g f rm (fpOpd s f a) (fpOpd s f b))

def fp1 (f : Fmt) (g : Fmt → Rm → Nat → Nat × BitVec 5) (d a : Reg) (m : BitVec 3) (s : State) : Res :=
  fpRound [a] d m s (fun s rm => g f rm (fpOpd s f a))

/-- A compare writes 1 or 0 (R265). -/
def fpCmpS (c : Cmp) (f : Fmt) (d a b : Reg) (s : State) : Res :=
  fpPlain [a, b] d s (fun s => let r := fcmpN c f (fpOpd s f a) (fpOpd s f b); (if r.1 then 1 else 0, r.2))

def fpMin (f : Fmt) (d a b : Reg) (s : State) : Res := fpPlain [a, b] d s (fun s => fminN f (fpOpd s f a) (fpOpd s f b))
def fpMax (f : Fmt) (d a b : Reg) (s : State) : Res := fpPlain [a, b] d s (fun s => fmaxN f (fpOpd s f a) (fpOpd s f b))

/-- The class word raises no flag (R265). -/
def fpClassS (f : Fmt) (d a : Reg) (s : State) : Res := fpPlain [a] d s (fun s => (fpClass f (fpOpd s f a), 0))

/-- A signed 64-bit integer to a format (R266). -/
def fpFromInt (f : Fmt) (d a : Reg) (m : BitVec 3) (s : State) : Res :=
  fpRound [a] d m s (fun s rm => roundArith f rm (Exact.ofInt (s.g a).toInt))

/-- A format to a signed 64-bit integer (R266). -/
def fpToInt64 (f : Fmt) (d a : Reg) (m : BitVec 3) (s : State) : Res :=
  fpRound [a] d m s (fun s rm =>
    let r := fpToInt rm (-(2 : Int) ^ 63) ((2 : Int) ^ 63 - 1) (f.decode (fpOpd s f a))
    (ofInt 64 r.1, r.2.1))

/-- A fused multiply-add; g[d] is the addend too (R267). -/
def fma (f : Fmt) (np nc : Bool) (d a b : Reg) (m : BitVec 3) (s : State) : Res :=
  fpRound [a, b] d m s (fun s rm => ffmaN f rm np nc (fpOpd s f a) (fpOpd s f b) (fpOpd s f d))

/-! ### FP32 -/

/-- FPS 00 (R264). -/
def execFaddS (d a b : Reg) (m : BitVec 3) (s : State) : Res := fp2 .fp32 faddN d a b m s

/-- FPS 01 (R264). -/
def execFsubS (d a b : Reg) (m : BitVec 3) (s : State) : Res := fp2 .fp32 fsubN d a b m s

/-- FPS 02 (R264). -/
def execFmulS (d a b : Reg) (m : BitVec 3) (s : State) : Res := fp2 .fp32 fmulN d a b m s

/-- FPS 03 (R264). -/
def execFdivS (d a b : Reg) (m : BitVec 3) (s : State) : Res := fp2 .fp32 fdivN d a b m s

/-- FPS 04 (R264). -/
def execFsqrtS (d a : Reg) (m : BitVec 3) (s : State) : Res := fp1 .fp32 fsqrtN d a m s

/-- FPS 05 (R146, R264). -/
def execFminS (d a b : Reg) (s : State) : Res := fpMin .fp32 d a b s

/-- FPS 06 (R146, R264). -/
def execFmaxS (d a b : Reg) (s : State) : Res := fpMax .fp32 d a b s

/-- FPS 07 (R265). -/
def execFeqS (d a b : Reg) (s : State) : Res := fpCmpS .eq .fp32 d a b s

/-- FPS 08 (R265). -/
def execFltS (d a b : Reg) (s : State) : Res := fpCmpS .lt .fp32 d a b s

/-- FPS 09 (R265). -/
def execFleS (d a b : Reg) (s : State) : Res := fpCmpS .le .fp32 d a b s

/-- FPS 0A (R266). -/
def execFcvtSL (d a : Reg) (m : BitVec 3) (s : State) : Res := fpFromInt .fp32 d a m s

/-- FPS 0B (R266). -/
def execFcvtLS (d a : Reg) (m : BitVec 3) (s : State) : Res := fpToInt64 .fp32 d a m s

/-- FPS 0C (R265). -/
def execFclassS (d a : Reg) (s : State) : Res := fpClassS .fp32 d a s

/-- FMAS 00 (R267). -/
def execFmaddS (d a b : Reg) (m : BitVec 3) (s : State) : Res := fma .fp32 false false d a b m s

/-- FMAS 01 (R267). -/
def execFmsubS (d a b : Reg) (m : BitVec 3) (s : State) : Res := fma .fp32 false true d a b m s

/-- FMAS 02 (R267). -/
def execFnmaddS (d a b : Reg) (m : BitVec 3) (s : State) : Res := fma .fp32 true true d a b m s

/-- FMAS 03 (R267). -/
def execFnmsubS (d a b : Reg) (m : BitVec 3) (s : State) : Res := fma .fp32 true false d a b m s

/-! ### FP64 -/

/-- FPS 10 (R264). -/
def execFaddD (d a b : Reg) (m : BitVec 3) (s : State) : Res := fp2 .fp64 faddN d a b m s

/-- FPS 11 (R264). -/
def execFsubD (d a b : Reg) (m : BitVec 3) (s : State) : Res := fp2 .fp64 fsubN d a b m s

/-- FPS 12 (R264). -/
def execFmulD (d a b : Reg) (m : BitVec 3) (s : State) : Res := fp2 .fp64 fmulN d a b m s

/-- FPS 13 (R264). -/
def execFdivD (d a b : Reg) (m : BitVec 3) (s : State) : Res := fp2 .fp64 fdivN d a b m s

/-- FPS 14 (R264). -/
def execFsqrtD (d a : Reg) (m : BitVec 3) (s : State) : Res := fp1 .fp64 fsqrtN d a m s

/-- FPS 15 (R146, R264). -/
def execFminD (d a b : Reg) (s : State) : Res := fpMin .fp64 d a b s

/-- FPS 16 (R146, R264). -/
def execFmaxD (d a b : Reg) (s : State) : Res := fpMax .fp64 d a b s

/-- FPS 17 (R265). -/
def execFeqD (d a b : Reg) (s : State) : Res := fpCmpS .eq .fp64 d a b s

/-- FPS 18 (R265). -/
def execFltD (d a b : Reg) (s : State) : Res := fpCmpS .lt .fp64 d a b s

/-- FPS 19 (R265). -/
def execFleD (d a b : Reg) (s : State) : Res := fpCmpS .le .fp64 d a b s

/-- FPS 1A (R266). -/
def execFcvtDL (d a : Reg) (m : BitVec 3) (s : State) : Res := fpFromInt .fp64 d a m s

/-- FPS 1B (R266). -/
def execFcvtLD (d a : Reg) (m : BitVec 3) (s : State) : Res := fpToInt64 .fp64 d a m s

/-- FPS 1C (R265). -/
def execFclassD (d a : Reg) (s : State) : Res := fpClassS .fp64 d a s

/-- FMAS 10 (R267). -/
def execFmaddD (d a b : Reg) (m : BitVec 3) (s : State) : Res := fma .fp64 false false d a b m s

/-- FMAS 11 (R267). -/
def execFmsubD (d a b : Reg) (m : BitVec 3) (s : State) : Res := fma .fp64 false true d a b m s

/-- FMAS 12 (R267). -/
def execFnmaddD (d a b : Reg) (m : BitVec 3) (s : State) : Res := fma .fp64 true true d a b m s

/-- FMAS 13 (R267). -/
def execFnmsubD (d a b : Reg) (m : BitVec 3) (s : State) : Res := fma .fp64 true false d a b m s

end

end Sys2Proof.Machine
end

