-- ==== Sys2Proof/Machine/LoadStore.lean ====
section
/-! DEFINITION. Scalar loads, stores and atomics (R223, R224, R255 to R257, R268, R269). -/

namespace Sys2Proof.Machine

noncomputable section

/-- Bytes of a width field. -/
def widthOf (w : BitVec 2) : Nat := 2 ^ w.toNat

/-- A loaded number as a register takes it. -/
def extend (u : Bool) (n x : Nat) : Word := if u then wNat x else sextN (8 * n) x

/-- Load from g[a] + off; u = 1 with w = 3 is illegal (R255). -/
def load (d a : Reg) (w : BitVec 2) (u : Bool) (off : Word) (len : Nat) (s : State) : Res :=
  checked (!(u && w == 3)) s (fun s => withRegs [d, a] s (fun s =>
    scalarLoad s (s.g a + off) (widthOf w) (fun s x => .next (s.retire d (extend u (widthOf w) x) len))))

/-- Store the low bytes of g[r] at g[a] + off (R255). -/
def store (r a : Reg) (w : BitVec 2) (off : Word) (len : Nat) (s : State) : Res :=
  withRegs [r, a] s (fun s =>
    scalarStore s (s.g a + off) (widthOf w) (s.g r).toNat (fun s => .next (s.advance len)))

def execLd (d a : Reg) (w : BitVec 2) (u : Bool) (imm : BitVec 11) (s : State) : Res := load d a w u (sext64 imm) 4 s
def execSt (r a : Reg) (w : BitVec 2) (imm : BitVec 11) (s : State) : Res := store r a w (sext64 imm) 4 s
def execLdImm (d a : Reg) (w : BitVec 2) (u : Bool) (imm : BitVec 35) (s : State) : Res := load d a w u (sext64 imm) 8 s
def execStImm (r a : Reg) (w : BitVec 2) (imm : BitVec 35) (s : State) : Res := store r a w (sext64 imm) 8 s

/-- The stack pointer sp is g30 (R119). -/
def sp : Reg := 30

/-- `ld.d` at sp + uimm8 × 8 (R224). -/
def execCLd (d : BitVec 3) (imm : BitVec 8) (s : State) : Res := load (cReg d) sp 3 false (zext64 imm * 8) 2 s

/-- `st.d` at sp + uimm8 × 8 (R224). -/
def execCSt (r : BitVec 3) (imm : BitVec 8) (s : State) : Res := store (cReg r) sp 3 (zext64 imm * 8) 2 s

/-! ### Atomics (R268) -/

/-- Order 2 or 3 includes a release. -/
def isRelease (order : BitVec 2) : Bool := order.getLsbD 1

/-- An atomic at g[a]: `f` gives the new value from the old one, g[b] and g[d], each of n bytes; none writes nothing.
Scopes 6 and 7 are illegal. Acquire and scope order what one core that runs in order cannot show (log 19). -/
def amo (d a b : Reg) (order : BitVec 2) (word : Bool) (scope : BitVec 3) (f : Nat → Nat → Nat → Nat → Option Nat)
    (s : State) : Res :=
  let n := if word then 4 else 8
  checked (decide (scope.toNat ≤ 5)) s (fun s => withRegs [d, a, b] s (fun s =>
    let v := (s.g b).toNat % 2 ^ (8 * n)
    let c := (s.g d).toNat % 2 ^ (8 * n)
    scalarAtomic s (s.g a) n (isRelease order) (fun old => f (8 * n) old v c)
      (fun s old => .next (s.retire d (sextN (8 * n) old) 4))))

/-- AMO: add. -/
def execAmoadd (d a b : Reg) (order : BitVec 2) (word : Bool) (scope : BitVec 3) (s : State) : Res :=
  amo d a b order word scope (fun w old v _ => some ((old + v) % 2 ^ w)) s

/-- AMO: swap. -/
def execAmoswap (d a b : Reg) (order : BitVec 2) (word : Bool) (scope : BitVec 3) (s : State) : Res :=
  amo d a b order word scope (fun _ _ v _ => some v) s

/-- AMO: and. -/
def execAmoand (d a b : Reg) (order : BitVec 2) (word : Bool) (scope : BitVec 3) (s : State) : Res :=
  amo d a b order word scope (fun _ old v _ => some (old &&& v)) s

/-- AMO: or. -/
def execAmoor (d a b : Reg) (order : BitVec 2) (word : Bool) (scope : BitVec 3) (s : State) : Res :=
  amo d a b order word scope (fun _ old v _ => some (old ||| v)) s

/-- AMO: signed min. -/
def execAmomin (d a b : Reg) (order : BitVec 2) (word : Bool) (scope : BitVec 3) (s : State) : Res :=
  amo d a b order word scope (fun w old v _ => some (sminN w old v)) s

/-- AMO: signed max. -/
def execAmomax (d a b : Reg) (order : BitVec 2) (word : Bool) (scope : BitVec 3) (s : State) : Res :=
  amo d a b order word scope (fun w old v _ => some (smaxN w old v)) s

/-- AMO: compare and swap. -/
def execAmocas (d a b : Reg) (order : BitVec 2) (word : Bool) (scope : BitVec 3) (s : State) : Res :=
  amo d a b order word scope (fun _ old v c => if old = c then some v else none) s

/-- AMO: xor. -/
def execAmoxor (d a b : Reg) (order : BitVec 2) (word : Bool) (scope : BitVec 3) (s : State) : Res :=
  amo d a b order word scope (fun _ old v _ => some (old ^^^ v)) s

end

end Sys2Proof.Machine
end

