-- ==== Sys2Proof/Machine/HostMem.lean ====
section
/-! DEFINITION. The host's accesses to memory through CXL.mem, and the ones that a port holds (R14, R15, R45, R46, R178,
R195). -/

namespace Sys2Proof.Machine

noncomputable section

/-- How a port meets an address of the host-managed range. -/
inductive HostAccess where
  | served
  | refused
  | waits
  | mirror
  | nothing
  deriving DecidableEq, Repr

def State.hostAccess (s : State) (port : Bool) (k : Nat) : HostAccess :=
  if s.mode = .off ∨ s.mode = .tripped then .nothing
  else
    match region k with
    | .hbm st =>
      match ((s.stack st).right port).state with
      | .owned => if (s.stack st).owner = port then .served else .mirror
      | .handing => .waits
      | .absent => .refused
    | .tier2 _ => .served
    | _ => .nothing

/-- The bytes of an access, within the line of its first byte. -/
def hostKeys (pa n : Nat) : List Nat := keysFrom pa (Nat.min n (64 - pa % 64))

/-- An OWNHOST record: the stack, and the port's die (R46, R64). -/
def State.ownHost (s : State) (port : Bool) (k : Nat) : State :=
  s.addError 8 (k / 2 ^ 36 + (if port then 2 ^ 8 else 0)) 0 0 k

/-- A host read that its port does not hold. A mirror mismatch gives poisoned data, whose bytes are free values,
and raises no machine check: R15 does not say which agent takes it for a host request (log 60). -/
def State.hostLoad (s : State) (port : Bool) (pa n : Nat) : State :=
  let ks := hostKeys pa n
  match s.hostAccess port pa with
  | .served => { s with hostRead := memReadList s.mem ks, hostPoison := s.poisoned (lineOf pa) }
  | .refused => { s.ownHost port pa with hostRead := ks.map (fun _ => 0xFF), hostPoison := true }
  | .mirror =>
    { s.addError 4 (errSource pa) 0 0 pa with hostRead := ks.map (fun k => Config.lostByte s.free k), hostPoison := true }
  | _ => s

/-- A host write that its port does not hold; a mirror mismatch discards it (R15). -/
def State.hostStore (s : State) (port : Bool) (pa : Nat) (data : List Byte) : State :=
  match s.hostAccess port pa with
  | .served => s.homeWrite (hostKeys pa data.length) data
  | .refused => s.ownHost port pa
  | .mirror => s.addError 4 (errSource pa) 0 0 pa
  | _ => s

def HostReq.pa : HostReq → Nat
  | .read pa _ => pa
  | .write pa _ => pa

def State.hostPerform (s : State) (port : Bool) : HostReq → State
  | .read pa n => s.hostLoad port pa n
  | .write pa data => s.hostStore port pa data

/-- A port serves its accesses in the order received: one for a stack that the die is handing over is held, and every later
one of the port behind it (R178, R195). -/
def State.hostAsk (s : State) (port : Bool) (q : HostReq) : State :=
  if s.hostHeld.any (fun x => x.1 == port) || s.hostAccess port q.pa == .waits then
    { s with hostHeld := s.hostHeld ++ [(port, q)] }
  else s.hostPerform port q

def State.askAll (s : State) : List (Bool × HostReq) → State
  | [] => s
  | (port, q) :: r => (s.hostAsk port q).askAll r

/-- What the ports hold goes on once a hand-over has ended, each port's accesses in order (R178). -/
def State.hostGoOn (s : State) : State := { s with hostHeld := [] }.askAll s.hostHeld

end

end Sys2Proof.Machine
end

