-- ==== Sys2Proof/Machine/Bte.lean ====
section
/-! DEFINITION. Engine ports and the block-transfer engine: major 0x1D, BTE_COMMAND_TAKE and BTE_BEAT (R126, R303 to R312,
R175 step 5). -/

namespace Sys2Proof.Machine

noncomputable section

/-! ### Port instructions (R126, R306) -/

def isPushPort (p : Reg) : Bool := p == 0 || p == 2
def isPopPort (p : Reg) : Bool := p == 1 || p == 3 || decide (16 ≤ p.toNat)

/-- Words a command on e0 has, by its first word; an invalid OP consumes only that word (R308, R309). -/
def bteWords (w0 : Word) : Nat :=
  match w0.toNat % 16 with
  | 1 => 4
  | 2 => 6
  | 3 => 4
  | 4 => 4
  | _ => 1

/-- The words at the head of a push port form a whole command. -/
def portFull (p : Reg) (ws : List Word) : Bool :=
  match ws with
  | [] => false
  | w :: _ => decide ((if p = 0 then bteWords w else 4) ≤ ws.length)

def Strand.setPort (t : Strand) (p : Reg) (ws : List Word) : Strand := { t with ports := t.ports.setWords p.toNat ws }

/-- The push retires when the engine has taken the command it completes. -/
def execEpush (d a : Reg) (s : State) : Res :=
  checked (isPushPort d) s (fun s => withRegs [a] s (fun s =>
    let ws := s.cur.ports.words d.toNat
    if s.cur.pause = .pushed ∨ s.cur.releaseWaits = true ∨ 32 ≤ ws.length then .next s.stall
    else
      let s := s.modCur (fun t => t.setPort d (ws ++ [t.getG a]))
      if portFull d (ws ++ [s.g a]) then .next (s.modCur (fun t => { t with pause := .pushed })).stall
      else .next (s.advance 4)))

/-- A stream port's items. -/
def Strand.stream (t : Strand) (p : Reg) : List StreamItem := sget [] t.ports.streams p.toNat

def Strand.setStream (t : Strand) (p : Reg) (xs : List StreamItem) : Strand :=
  { t with ports := { t.ports with streams := sset [] t.ports.streams p.toNat xs } }

/-- Waiting words of a pop port. A stream port's words are eight bytes each, before its first end mark (log 14). -/
def Strand.waiting (t : Strand) (p : Reg) : Nat :=
  if p.toNat < 16 then (t.ports.words p.toNat).length else (streamHead (t.stream p)).1.length / 8

/-- The oldest word of a pop port, and the strand without it. -/
def Strand.pop (t : Strand) (p : Reg) : Option (Word × Strand) :=
  if p.toNat < 16 then
    match t.ports.words p.toNat with
    | [] => none
    | w :: r => some (w, t.setPort p r)
  else if t.waiting p = 0 then none
  else some (wNat (leNat ((streamHead (t.stream p)).1.take 8)), t.setStream p ((t.stream p).drop 8))

def execEpop (d b : Reg) (s : State) : Res :=
  checked (isPopPort b) s (fun s => withRegs [d] s (fun s =>
    match s.cur.pop b with
    | none => .next s.stall
    | some (w, t) => .next ((s.modCur (fun _ => t)).retire d w 4).giveAll))

def execEavail (d b : Reg) (s : State) : Res :=
  checked (isPushPort b || isPopPort b) s (fun s => withRegs [d] s (fun s =>
    .next (s.retire d (wNat (if isPushPort b then 32 - (s.cur.ports.words b.toNat).length else s.cur.waiting b)) 4)))

/-! ### Commands (R307 to R309) -/

/-- The engine takes the words: the push retires, and the strand can see that a word left (R306, R352). -/
def Strand.taken (t : Strand) (p : Reg) (n : Nat) : Strand :=
  { t.setPort p ((t.ports.words p.toNat).drop n) with
    pause := .none, stalled := false, pc := t.pc + 4, latch := t.latch ||| 8 }

/-- Sign-extend the low 32 bits. -/
def sext32 (x : Nat) : Word := (BitVec.ofNat 32 x).signExtend 64

/-- The command that the words ask for. A one-row form has one row of `count` bytes. -/
def bteCmdOf (t : Strand) (id : Nat) (w : List Word) : BteCmd :=
  let n (i : Nat) : Nat := (w.getD i 0).toNat
  let w0 := n 0
  let two := decide (w0 % 16 = 2)
  let count := fld (n 3) 0 40
  { id := id, key := t.key, seq := t.nextSeq, cluster := t.cluster, row := false, op := BitVec.ofNat 4 w0,
    spin := BitVec.ofNat 3 (fld w0 5 3), dpin := BitVec.ofNat 3 (fld w0 8 3), port := BitVec.ofNat 5 (fld w0 11 5),
    endMark := w0.testBit 4, bar := BitVec.ofNat 16 (fld w0 16 16), tag := BitVec.ofNat 16 (fld w0 32 16),
    pad := BitVec.ofNat 8 (fld w0 56 8), src := w.getD 1 0, dst := w.getD 2 0,
    rb := if two then fld (n 3) 0 20 else count, nr := if two then fld (n 3) 20 20 else 1,
    sstride := if two then sext32 (fld (n 4) 0 32) else 0, dstride := if two then sext32 (fld (n 4) 32 32) else 0,
    vr := if two then fld (n 5) 0 32 else 1, vb := if two then fld (n 5) 32 32 else count,
    delivered := 0, padded := false, readAny := false }

/-- Bytes a command moves. -/
def BteCmd.total (c : BteCmd) : Nat := c.nr * c.rb

/-- Whether the command reads memory through SPIN (R312). -/
def BteCmd.usesSrc (c : BteCmd) : Bool := c.op != 3 && !(c.op == 2 && (c.vr == 0 || c.vb == 0))

/-- Whether it writes memory through DPIN. -/
def BteCmd.usesDst (c : BteCmd) : Bool := c.op != 4

def pinUsable (t : Strand) (k : BitVec 3) : Bool :=
  k != 0 && (t.pins.getD k.toNat Pin.idle).live && !(t.pins.getD k.toNat Pin.idle).revoked

/-- The checks that complete with BADCMD: OP, reserved and excluded fields, and the pins. -/
def bteGood (t : Strand) (w : List Word) (c : BteCmd) : Bool :=
  let n (i : Nat) : Nat := (w.getD i 0).toNat
  decide (1 ≤ c.op.toNat) && decide (c.op.toNat ≤ 4) && fld (n 0) 48 8 == 0 && barFormOk c.bar &&
  (c.op == 2 || c.pad == 0) && (if c.op = 4 then decide (16 ≤ c.port.toNat) else c.port == 0 && !c.endMark) &&
  fld (n 3) 40 24 == 0 && (c.op != 4 || n 2 == 0) && (c.op != 3 || c.spin == 0) && (c.op != 4 || c.dpin == 0) &&
  (!c.usesSrc || pinUsable t c.spin) && (!c.usesDst || pinUsable t c.dpin)

/-- The cause of R172 that n bytes at va meet through pin k. -/
def pinReach (t : Strand) (k : BitVec 3) (kind : AKind) (va : Word) (n : Nat) : Option (BitVec 8) :=
  let p := t.pins.getD k.toNat Pin.idle
  if va.toNat < p.base.toNat ∨ p.base.toNat + p.len.toNat < va.toNat + n then some cPINRANGE
  else if !p.rights.getLsbD kind.right then some cPINRIGHTS
  else none

/-- `rows` rows of n bytes each: strides are below 2^31 bytes and rows below 2^20, so that the first and the last row
bound all others. -/
def rowsReach (t : Strand) (k : BitVec 3) (kind : AKind) (va stride : Word) (rows n : Nat) : Option (BitVec 8) :=
  if rows = 0 ∨ n = 0 then none
  else (pinReach t k kind va n).or (pinReach t k kind (va + wNat (rows - 1) * stride) n)

/-- The checks that complete with RANGE: source, then destination. -/
def bteRange (t : Strand) (c : BteCmd) : Option (BitVec 8) :=
  (if c.usesSrc then rowsReach t c.spin .read c.src c.sstride (Nat.min c.vr c.nr) (Nat.min c.vb c.rb) else none).or
  (if c.usesDst then rowsReach t c.dpin .write c.dst c.dstride c.nr c.rb else none)

/-! ### Completion (R311) -/

/-- Statuses of R311. -/
def xOK : Nat := 0
def xSTOPPED : Nat := 1
def xBADCMD : Nat := 2
def xOVERFLOW : Nat := 3
def xRANGE : Nat := 4
def xBADCOUNT : Nat := 5
def xLINKDOWN : Nat := 6

def doneWord (tag : BitVec 16) (reason flags status : Nat) : Word :=
  wNat (tag.toNat * 2 ^ 32 + reason * 2 ^ 16 + flags * 2 ^ 8 + status)

/-- A command leaves the engine, with its completion words unless it is a row. -/
def State.endBte (s : State) (c : BteCmd) (status reason : Nat) : State :=
  let s := { s with bte := s.bte.filter (fun x => x.id != c.id) }
  if c.row then s
  else
    let flags := (if c.padded then 1 else 0) + (if c.readAny then 0 else 2)
    let d : EngineDone :=
      { key := c.key, coll := false, w0 := doneWord c.tag reason flags status, w1 := wNat c.delivered }
    { s with engineDone := s.engineDone ++ [d] }.giveAll

/-- An end mark enters a stream port. -/
def State.putMark (s : State) (c : BteCmd) : State :=
  s.modStrand c.key (fun t => { t.setStream c.port (t.stream c.port ++ [.endMark]) with latch := t.latch ||| 4 })

/-- A command stops at a byte boundary: FAULT on its barrier, an end mark after a stream's bytes (R36, R305). -/
def State.stopBte (s : State) (c : BteCmd) (cause : BitVec 8) : State :=
  let s := if barV c.bar then s.faultBar (barDie c.bar) (barIdx c.bar) else s
  (if c.op = 4 then s.putMark c else s).endBte c xSTOPPED cause.toNat

/-- BTE_COMMAND_TAKE: the command at the head of a strand's e0, checked and announced (R309). -/
def State.takeBte (s : State) (key : Nat) : State :=
  match s.strand? key with
  | none => s
  | some t =>
    if t.life ≠ .running ∨ !portFull 0 t.ports.e0 then s
    else
      let n := bteWords (t.ports.e0.headD 0)
      let w := t.ports.e0.take n
      let c := bteCmdOf t s.nextBte w
      let s := { s.modStrand key (fun t => t.taken 0 n) with nextBte := s.nextBte + 1 }
      if !bteGood t w c then s.endBte c xBADCMD 0
      else
        match bteRange t c with
        | some cause => s.endBte c xRANGE cause.toNat
        | none =>
          match (if barV c.bar then s.announce (barDie c.bar) (barIdx c.bar) c.total else some s) with
          | none => s.endBte c xOVERFLOW 0
          | some s => { s with bte := s.bte ++ [c] }

def execBteCommandTake (key : Nat) (s : State) : Res := .next (s.takeBte key)

/-! ### Beats (R310, R312) -/

/-- One byte that is read at its home through a pin. -/
def pinByte (s : State) (t : Strand) (k : BitVec 3) (va : Word) : Except Stop Byte :=
  match pinAccess s t k .read va 1 with
  | .error x => .error x
  | .ok ks => .ok (memRead s.mem (ks.headD 0))

/-- Byte i of a command lies in row i / RB. -/
def BteCmd.srcVa (c : BteCmd) (i : Nat) : Word := c.src + wNat (i / c.rb) * c.sstride + wNat (i % c.rb)
def BteCmd.dstVa (c : BteCmd) (i : Nat) : Word := c.dst + wNat (i / c.rb) * c.dstride + wNat (i % c.rb)

/-- Whether byte i is read from the source. -/
def BteCmd.inside (c : BteCmd) (i : Nat) : Bool :=
  c.op != 3 && decide (i / c.rb < c.vr) && decide (i % c.rb < c.vb)

/-- The value of byte i: read, the pattern's, or PAD. -/
def BteCmd.value (c : BteCmd) (s : State) (t : Strand) (i : Nat) : Except Stop Byte :=
  if c.op = 3 then .ok (BitVec.ofNat 8 (c.src.toNat / 2 ^ (8 * (i % 8))))
  else if c.inside i then pinByte s t c.spin (c.srcVa i)
  else .ok c.pad

/-- The key byte i is written to; none in a stream port. -/
def BteCmd.place (c : BteCmd) (s : State) (t : Strand) (i : Nat) : Except Stop (List Nat) :=
  if c.row then .ok [c.dst.toNat + i]
  else if c.op = 4 then .ok []
  else pinAccess s t c.dpin .write (c.dstVa i) 1

/-- What a beat gathers: keys, bytes, whether PAD was written and the source read, and why it stopped early. -/
structure Beat where
  keys : List Nat
  bytes : List Byte
  pad : Bool
  read : Bool
  stop : Option Stop
  deriving DecidableEq, Repr

/-- The next n bytes from byte i, up to the first that cannot be delivered. -/
def BteCmd.gather (c : BteCmd) (s : State) (t : Strand) : Nat → Nat → Beat
  | 0, _ => { keys := [], bytes := [], pad := false, read := false, stop := none }
  | n + 1, i =>
    match c.value s t i with
    | .error x => { keys := [], bytes := [], pad := false, read := false, stop := some x }
    | .ok b =>
      match c.place s t i with
      | .error x => { keys := [], bytes := [], pad := false, read := false, stop := some x }
      | .ok ks =>
        let r := c.gather s t n (i + 1)
        { r with keys := ks ++ r.keys, bytes := b :: r.bytes, pad := r.pad || (c.op != 3 && !c.inside i),
                 read := r.read || c.inside i }

/-- The cause that a transfer stops with; none while its request is held on the die (R14, R310). -/
def Stop.cause : Stop → Option (BitVec 8)
  | .hold => none
  | .trap c _ _ => some c
  | .mirror _ _ => some cMCHECK

/-- Bytes that a stream port has room for: 64 words (R126). A strand that does not run receives none. -/
def streamRoom (t : Strand) (p : Reg) : Nat :=
  if t.life = .running then 512 - ((t.stream p).filter (fun x => x != .endMark)).length else 0

/-- The bytes are written at their homes, or enter the stream port. -/
def State.putBeat (s : State) (c : BteCmd) (b : Beat) : State :=
  if c.op = 4 then
    if b.bytes = [] then s
    else s.modStrand c.key (fun t =>
      { t.setStream c.port (t.stream c.port ++ b.bytes.map StreamItem.byte) with latch := t.latch ||| 4 })
  else s.homeWrite b.keys b.bytes

/-- PENDING falls by delivered bytes. -/
def State.landed (s : State) (bar : BitVec 16) (n : Nat) : State :=
  if barV bar ∧ n ≠ 0 then s.deliver (barDie bar) (barIdx bar) n else s

/-- The commands, up to eight, that a cluster runs (R310); rows run beside them. -/
def State.running8 (s : State) (cluster : Nat) : List BteCmd := (s.bte.filter (fun x => x.cluster == cluster && !x.row)).take 8

/-- A command has nothing to do in a beat: its next byte is held on the die, its stream port is full, or its strand has gone. -/
def State.beatWaits (s : State) (c : BteCmd) : Bool :=
  match s.strand? c.key with
  | none => true
  | some t =>
    decide (c.delivered < c.total) &&
    ((c.op == 4 && streamRoom t c.port == 0) ||
      (match (c.gather s t 1 c.delivered).stop with | some .hold => true | _ => false))

/-- The beat is a command's: its cluster serves the commands that it runs round-robin, those that wait left out (R310). -/
def State.runsNow (s : State) (c : BteCmd) : Bool :=
  let run := s.running8 c.cluster
  let last := sget (0 : Nat) s.bteTurn c.cluster
  let ready := run.filter (fun x => x.id == c.id || !s.beatWaits x)
  c.row || (run.any (fun x => x.id == c.id) &&
    (((ready.find? (fun x => decide (last ≤ x.id))).or ready.head?).map (fun x => x.id) == some c.id))

/-- The cluster's turn passes on. -/
def State.servedBeat (s : State) (c : BteCmd) : State :=
  if c.row then s else { s with bteTurn := sset (0 : Nat) s.bteTurn c.cluster (c.id + 1) }

/-- BTE_BEAT: up to 256 bytes of a command. -/
def State.beat (s : State) (id : Nat) : State :=
  match s.bte.find? (fun c => c.id == id) with
  | none => s
  | some c =>
    match s.strand? c.key with
    | none => s
    | some t =>
      if !s.runsNow c then s
      else
        let s := if s.beatWaits c then s else s.servedBeat c
        let left := Nat.min 256 (c.total - c.delivered)
        let n := if c.op = 4 then Nat.min left (streamRoom t c.port) else left
        let b := c.gather s t n c.delivered
        let c' := { c with delivered := c.delivered + b.bytes.length, padded := c.padded || b.pad,
                           readAny := c.readAny || b.read }
        let s := s.putBeat c b
        let s := { s with bte := s.bte.map (fun (x : BteCmd) => if x.id = id then c' else x) }.landed c.bar b.bytes.length
        match b.stop with
        | some x =>
          (match x.cause with
            | some cause => (s.mirrorCheck c.key x).stopBte c' cause
            | none => s)
        | none =>
          if c'.total ≤ c'.delivered then
            (if c.op = 4 ∧ c.endMark = true then s.putMark c' else s).endBte c' xOK 0
          else s

def execBteBeat (cmd : Nat) (s : State) : Res := .next (s.beat cmd)

end

end Sys2Proof.Machine
end

