-- ==== Sys2Proof/Machine/Coll.lean ====
section
/-! DEFINITION. The collective engine: COLLECTIVE_COMMAND_TAKE and what its messages do (R25, R31 to R33, R313, R314). The
layout of data payloads is the model's (log 20). -/

namespace Sys2Proof.Machine

noncomputable section

/-! ### Communicators (R63) -/

/-- The members of a communicator as a die's table lists them. -/
def State.commOf (s : State) (die : Bool) (comm : BitVec 16) : List Member :=
  s.members.filter (fun m => m.die == die && m.comm == comm)

/-- The die's own rank. -/
def State.ownRank (s : State) (die : Bool) (comm : BitVec 16) : Option (BitVec 16) :=
  ((s.commOf die comm).find? (fun m => m.pkg == s.pkgNum && m.mdie == die)).map (fun m => m.rank)

def commKey (die : Bool) (comm : BitVec 16) : Nat := (if die then 65536 else 0) + comm.toNat

/-! ### Elements and operations (R31, R32) -/

/-- Bytes of an element of a TYPE. -/
def collSize (type : Nat) : Nat :=
  match type with
  | 0 => 8
  | 1 => 4
  | 2 => 2
  | 3 => 2
  | 4 => 4
  | _ => 8

/-- x ⊕ y, and its flags. -/
def combine (type opr : Nat) (x y : Nat) : Nat × BitVec 5 :=
  let w := 8 * collSize type
  if type ≤ 3 then
    match Fmt.ofCode type with
    | none => (x, 0)
    | some f =>
      let r := if opr = 0 then (fpAdd Rm.rne (f.decode x) (f.decode y)).round f Rm.rne false else fpMinMax f (opr == 2) x y
      (r.bits, r.fl)
  else
    match opr with
    | 0 => ((x + y) % 2 ^ w, 0)
    | 1 => (if toSigned w x ≤ toSigned w y then x else y, 0)
    | _ => (if toSigned w x ≤ toSigned w y then y else x, 0)

/-- Elements of size n from bytes. -/
def elemsOf (n : Nat) : Nat → List Byte → List Nat
  | 0, _ => []
  | c + 1, bs => leNat (bs.take n) :: elemsOf n c (bs.drop n)

/-- One element of the result: contributions in ascending rank order, one rounding each (R31). -/
def reduce1 (type opr : Nat) : List Nat → Nat × BitVec 5
  | [] => (0, 0)
  | x :: r => r.foldl (fun a y => let z := combine type opr a.1 y; (z.1, a.2 ||| z.2)) (x, 0)

/-- The reduction of whole contributions, element by element. -/
def reduceAll (type opr : Nat) : Nat → List (List Nat) → List (Nat × BitVec 5)
  | 0, _ => []
  | c + 1, xs => reduce1 type opr (xs.map (fun x => x.headD 0)) :: reduceAll type opr c (xs.map (fun x => x.drop 1))

/-! ### Commands (R313) -/

/-- Elements of the source and of the bytes written here, for n ranks. -/
def CollCmd.srcCount (c : CollCmd) (n : Nat) : Nat :=
  match c.op.toNat with
  | 1 => c.count.toNat
  | 2 => c.count.toNat
  | 3 => c.count.toNat / n
  | _ => 0

def CollCmd.dstCount (c : CollCmd) (n : Nat) : Nat :=
  match c.op.toNat with
  | 1 => c.count.toNat
  | 2 => c.count.toNat / n
  | 3 => c.count.toNat
  | _ => 0

def CollCmd.size (c : CollCmd) : Nat := collSize c.type.toNat

/-- The command in the four words. -/
def collCmdOf (t : Strand) (id : Nat) (rank : BitVec 16) (k : BitVec 32) (w : List Word) : CollCmd :=
  let n (i : Nat) : Nat := (w.getD i 0).toNat
  let w0 := n 0
  { id := id, die := t.die, key := t.key, seq := t.nextSeq, comm := BitVec.ofNat 16 (fld w0 48 16), k := k, rank := rank,
    tag := BitVec.ofNat 16 (fld w0 32 16), bar := BitVec.ofNat 16 (fld w0 16 16), dpin := BitVec.ofNat 3 (fld w0 13 3),
    spin := BitVec.ofNat 3 (fld w0 10 3), type := BitVec.ofNat 4 (fld w0 6 4), opr := BitVec.ofNat 2 (fld w0 4 2),
    op := BitVec.ofNat 4 w0, src := w.getD 1 0, dst := w.getD 2 0, count := BitVec.ofNat 40 (n 3), seen := [],
    ended := [], data := [], stage := 0, status := 0, reason := 0, fl := 0, delivered := 0 }

/-- OP, reserved and excluded fields, pins (R309, R313). -/
def collGood (t : Strand) (w : List Word) (c : CollCmd) : Bool :=
  let n (i : Nat) : Nat := (w.getD i 0).toNat
  barFormOk c.bar && decide (1 ≤ c.op.toNat) && decide (c.op.toNat ≤ 4) &&
  (if c.op = 4 then n 1 == 0 && n 2 == 0 && n 3 == 0 && c.type == 0 && c.opr == 0 && c.spin == 0 && c.dpin == 0
    else fld (n 3) 40 24 == 0 && decide (c.type.toNat ≤ 5) && c.opr != 3 && pinUsable t c.spin && pinUsable t c.dpin)

/-- The checks that complete with RANGE. -/
def collRange (t : Strand) (n : Nat) (c : CollCmd) : Option (BitVec 8) :=
  (rowsReach t c.spin .read c.src 0 1 (c.srcCount n * c.size)).or (rowsReach t c.dpin .write c.dst 0 1 (c.dstCount n * c.size))

/-! ### Messages (R25, log 20) -/

/-- The control record as a payload. -/
def ctlBytes (r : CtlRec) : List Byte :=
  leBytes 2 r.comm.toNat ++ leBytes 4 r.k.toNat ++ leBytes 2 r.rank.toNat ++ leBytes 1 r.kind.toNat ++
  leBytes 1 (r.op.toNat + 16 * r.opr.toNat) ++ leBytes 1 r.type.toNat ++ leBytes 1 r.status.toNat ++ leBytes 5 r.count.toNat

/-- A payload read as a control record. -/
def ctlOf (p : List Byte) : CtlRec :=
  let x := leNat (p.take 17)
  { comm := BitVec.ofNat 16 x, k := BitVec.ofNat 32 (fld x 16 32), rank := BitVec.ofNat 16 (fld x 48 16),
    kind := BitVec.ofNat 8 (fld x 64 8), op := BitVec.ofNat 4 (fld x 72 4), opr := BitVec.ofNat 2 (fld x 76 2),
    type := BitVec.ofNat 8 (fld x 80 8), status := BitVec.ofNat 8 (fld x 88 8), count := BitVec.ofNat 40 (fld x 96 40) }

/-- The record a rank sends about its command. -/
def CollCmd.ctl (c : CollCmd) (kind status : Nat) : CtlRec :=
  { comm := c.comm, k := c.k, rank := c.rank, kind := BitVec.ofNat 8 kind, op := c.op, opr := c.opr,
    type := c.type.setWidth 8, status := BitVec.ofNat 8 status, count := c.count }

/-- Bytes of a contribution in one data payload: 232, after sixteen bytes that name it. -/
def chunkBytes : Nat := 232

/-- The data payloads of a contribution: communicator, k, rank, first byte, bytes. -/
def dataPayloads (c : CollCmd) : Nat → Nat → List Byte → List (List Byte)
  | 0, _, _ => []
  | n + 1, at_, bs =>
    (leBytes 2 c.comm.toNat ++ leBytes 4 c.k.toNat ++ leBytes 2 c.rank.toNat ++ leBytes 8 at_ ++ bs.take chunkBytes)
      :: dataPayloads c n (at_ + chunkBytes) (bs.drop chunkBytes)

/-- Send payloads of a rank to every other rank; false when a flow is FAILED or missing (R28). -/
def State.sendRanks (s : State) (die : Bool) (comm rank : BitVec 16) (kind : BitVec 4) (ps : List (List Byte)) :
    State × Bool :=
  ((s.commOf die comm).filter (fun m => m.rank != rank)).foldl (fun a m =>
    ps.foldl (fun a p => let r := a.1.sendFlit die (flowLabel m.pkg.toNat m.mdie) kind p; (r.1, a.2 && r.2)) a) (s, true)

/-- A status that ends the command on every rank (log 20). -/
def failing (status : BitVec 8) : Bool := status != 0 && status.toNat != xBADCOUNT

/-- A record that names a failing status. -/
def CtlRec.failed (r : CtlRec) : Bool := r.kind == 2 && failing r.status

/-! ### Completion -/

def CollCmd.same (c : CollCmd) (die : Bool) (comm : BitVec 16) (k : BitVec 32) : Bool :=
  c.die == die && c.comm == comm && c.k == k

def State.coll? (s : State) (die : Bool) (comm : BitVec 16) (k : BitVec 32) : Option CollCmd :=
  s.colls.find? (fun c => c.same die comm k)

def State.modColl (s : State) (c : CollCmd) : State :=
  { s with colls := s.colls.map (fun x => if x.same c.die c.comm c.k then c else x) }

/-- The command's words go to e3. -/
def State.endColl (s : State) (c : CollCmd) (status reason : Nat) : State :=
  let d : EngineDone :=
    { key := c.key, coll := true, w0 := doneWord c.tag reason c.fl.toNat status, w1 := wNat c.delivered }
  { s with
    colls := s.colls.filter (fun x => !x.same c.die c.comm c.k)
    engineDone := s.engineDone ++ [d] }.giveAll

/-- Bytes of the result that this rank writes: what it has announced, for n ranks. -/
def CollCmd.announced (c : CollCmd) (n : Nat) : Nat := c.dstCount n * c.size

/-- A stopped command sets FAULT where it had announced bytes (R36). -/
def stops (status : Nat) : Bool := status == xSTOPPED || status == xLINKDOWN

/-- What a failed command leaves at its barrier, once: FAULT where a rank stopped or a flow failed, also where this rank has
delivered all its own bytes; else PENDING falls by what was announced and not delivered (R36, log 20). A command that this
rank's checks turned down had announced nothing (R309). -/
def State.settleColl (s : State) (c : CollCmd) (status : Nat) : State :=
  if !barV c.bar || c.op == 4 || c.stage == 4 || stops c.status.toNat then s
  else if stops status then s.faultBar (barDie c.bar) (barIdx c.bar)
  else s.deliver (barDie c.bar) (barIdx c.bar) (c.announced (s.commOf c.die c.comm).length - c.delivered)

/-- The command ends with a failing status. -/
def State.failColl (s : State) (c : CollCmd) (status reason : Nat) : State :=
  (s.settleColl c status).endColl c status reason

/-- This rank's status is told to the others (R25); false when a flow is FAILED or missing. -/
def State.tell (s : State) (c : CollCmd) (status : Nat) : State × Bool :=
  s.sendRanks c.die c.comm c.rank 4 [ctlBytes (c.ctl 2 status)]

/-- A flow of the command is FAILED: LINKDOWN on every rank that can still be told (R25, R28). -/
def State.linkFail (s : State) (c : CollCmd) : State := ((s.failColl c xLINKDOWN 0).tell c xLINKDOWN).1

/-- The first status of each rank counts. -/
def noteStatus (l : List (BitVec 16 × BitVec 8)) (rank : BitVec 16) (status : BitVec 8) : List (BitVec 16 × BitVec 8) :=
  if l.any (fun e => e.1 == rank) then l else l ++ [(rank, status)]

/-- The one status of all ranks: the failing status of the lowest rank that failed, else OK (R25, log 20). -/
def CollCmd.verdict (c : CollCmd) : BitVec 8 :=
  match (c.ended.filter (fun e => failing e.2)).foldl (fun o e =>
      match o with
      | none => some e
      | some f => if e.1.toNat < f.1.toNat then some e else some f) none with
  | some e => e.2
  | none => 0

/-- With the statuses of all ranks the command completes, on each with the same one. -/
def State.judgeColl (s : State) (c : CollCmd) : State :=
  if c.ended.length < (s.commOf c.die c.comm).length then s
  else if c.verdict = 0 then s.endColl c xOK 0
  else s.failColl c c.verdict.toNat (if c.verdict = c.status then c.reason.toNat else 0)

/-- A command fails here, or answers another rank's failure: nothing more is moved, this rank's status goes to the others, and
the command completes once all have told theirs. -/
def State.rankFail (s : State) (c : CollCmd) (status reason : Nat) : State :=
  let s := if stops status then s.settleColl c status else s
  let st := BitVec.ofNat 8 status
  let c := { c with stage := if c.stage = 4 then 4 else 3, status := st, reason := BitVec.ofNat 8 reason,
                    ended := noteStatus c.ended c.rank st }
  let z := (s.modColl c).tell c status
  if z.2 = true ∧ status ≠ xLINKDOWN then z.1.judgeColl c else z.1.linkFail c

/-- A command stops here at a byte boundary: STOPPED (R305, R314). -/
def State.stopColl (s : State) (c : CollCmd) (cause : BitVec 8) : State := s.rankFail c xSTOPPED cause.toNat

/-! ### Progress -/

/-- Read bytes through a pin at their homes. -/
def readBytes (s : State) (t : Strand) (k : BitVec 3) : Nat → Word → Except Stop (List Byte)
  | 0, _ => .ok []
  | n + 1, va =>
    match pinByte s t k va with
    | .error x => .error x
    | .ok b =>
      match readBytes s t k n (va + 1) with
      | .error x => .error x
      | .ok bs => .ok (b :: bs)

/-- The keys of bytes written through a pin, up to the first that cannot be. -/
def writeKeys (s : State) (t : Strand) (k : BitVec 3) : Nat → Word → List Nat × Option Stop
  | 0, _ => ([], none)
  | n + 1, va =>
    match pinAccess s t k .write va 1 with
    | .error x => ([], some x)
    | .ok ks => let r := writeKeys s t k n (va + 1); (ks ++ r.1, r.2)

/-- Every rank has announced its command, and all agree with rank 0's (R314). -/
def CollCmd.agreed (c : CollCmd) : Bool :=
  match c.seen.find? (fun r => r.rank == 0) with
  | none => false
  | some z => c.seen.all (fun r => r.op == z.op && r.opr == z.opr && r.type == z.type && r.count == z.count)

/-- The contribution of this rank is read and sent to the others. -/
def State.collSend (s : State) (t : Strand) (n : Nat) (c : CollCmd) : State :=
  let bytes := c.srcCount n * c.size
  match readBytes s t c.spin bytes c.src with
  | .error x =>
    (match x.cause with
      | some cause => (s.mirrorCheck c.key x).stopColl c cause
      | none => s)
  | .ok bs =>
    let c := { c with data := sset [] c.data c.rank.toNat bs, stage := 1 }
    let r := (s.modColl c).sendRanks c.die c.comm c.rank 3 (dataPayloads c (ceilDiv bytes chunkBytes) 0 bs)
    if r.2 then r.1 else r.1.linkFail c

/-- The bytes this rank writes: the result, its segment, or the gathered blocks (R33), with the flags of the elements that it
writes (log 20). -/
def CollCmd.result (c : CollCmd) (n : Nat) : List Byte × BitVec 5 :=
  let parts := (List.range n).map (fun r => sget [] c.data r)
  if c.op = 3 then (parts.flatten, 0)
  else
    let from_ := if c.op = 2 then c.rank.toNat * c.dstCount n * c.size else 0
    let m := c.dstCount n
    let r := reduceAll c.type.toNat c.opr.toNat m (parts.map (fun p => elemsOf c.size m (p.drop from_)))
    ((r.map (fun x => leBytes c.size x.1)).flatten, r.foldl (fun a x => a ||| x.2) 0)

/-- The result is written at its homes, and this rank's status sent; with a FAILED flow in the way no rank is told OK. -/
def State.collWrite (s : State) (t : Strand) (n : Nat) (c : CollCmd) : State :=
  let r := c.result n
  match writeKeys s t c.dpin r.1.length c.dst with
  | (_, some .hold) => s
  | (ks, stop) =>
    let c := { c with delivered := ks.length, fl := r.2, stage := 2 }
    let s := (((s.modColl c).homeWrite ks r.1).landed c.bar ks.length)
    match stop.bind (fun x => x.cause.map (fun cause => (x, cause))) with
    | some (x, cause) => (s.mirrorCheck c.key x).stopColl c cause
    | none =>
      let c := { c with ended := noteStatus c.ended c.rank 0 }
      let z := (s.modColl c).tell c xOK
      if z.2 then z.1 else s.linkFail c

/-- One stage of a command, if it can go on. -/
def State.collStage (s : State) (die : Bool) (comm : BitVec 16) (k : BitVec 32) : State :=
  match s.coll? die comm k with
  | none => s
  | some c =>
    match s.strand? c.key with
    | none => s
    | some t =>
      let n := (s.commOf die comm).length
      match c.stage with
      | 0 =>
        if c.seen.length < n then s
        else if !c.agreed then s.rankFail c xBADCMD 0
        else if c.op = 4 then
          let s := if barV c.bar then (s.arrive (barDie c.bar) (barIdx c.bar)).1 else s
          s.endColl c xOK 0
        else s.collSend t n c
      | 1 =>
        if (List.range n).all (fun r => (sget [] c.data r).length == c.srcCount n * c.size) then s.collWrite t n c else s
      | _ => s.judgeColl c

/-- A command goes as far as it can. -/
def State.collGo (s : State) (die : Bool) (comm : BitVec 16) (k : BitVec 32) : State :=
  ((s.collStage die comm k).collStage die comm k).collStage die comm k

/-! ### Messages received -/

/-- A control record for a command that this die has taken. -/
def State.collCtl (s : State) (c : CollCmd) (r : CtlRec) : State :=
  if r.kind = 2 then
    if r.status.toNat = xLINKDOWN then s.linkFail c
    else
      let c := { c with ended := noteStatus c.ended r.rank r.status }
      let s := s.modColl c
      if failing r.status ∧ c.stage < 2 then s.rankFail c r.status.toNat 0 else s.collGo c.die c.comm c.k
  else
    (s.modColl { c with seen := if c.seen.any (fun x => x.rank == r.rank) then c.seen else c.seen ++ [r] }).collGo
      c.die c.comm c.k

/-- A data payload for a command that this die has taken: the next bytes of a rank's contribution. -/
def State.collData (s : State) (c : CollCmd) (p : List Byte) : State :=
  let rank := leNat ((p.drop 6).take 2)
  let have_ := sget [] c.data rank
  let n := (s.commOf c.die c.comm).length
  let want := Nat.min chunkBytes (c.srcCount n * c.size - have_.length)
  if leNat ((p.drop 8).take 8) = have_.length then
    (s.modColl { c with data := sset [] c.data rank (have_ ++ (p.drop 16).take want) }).collGo c.die c.comm c.k
  else s

/-- A kept payload is for the command. -/
def EarlyMsg.isFor (m : EarlyMsg) (die : Bool) (comm : BitVec 16) (k : BitVec 32) : Bool :=
  m.die == die && (ctlOf m.payload).comm == comm && (ctlOf m.payload).k == k

/-- The first failing status kept for a command: this rank has answered the others with it. -/
def answered (l : List EarlyMsg) (die : Bool) (comm : BitVec 16) (k : BitVec 32) : Option (BitVec 8) :=
  (l.find? (fun m => m.isFor die comm k && m.kind == 4 && (ctlOf m.payload).failed)).map (fun m => (ctlOf m.payload).status)

/-- A payload for a command not yet taken is kept. The first failing status among them is this rank's own too: the others are
told at once, so that no rank waits for a command that is not pushed (log 20). -/
def State.keepEarly (s : State) (m : EarlyMsg) : State :=
  let r := ctlOf m.payload
  let t := { s with collEarly := s.collEarly ++ [m] }
  if m.kind = 4 ∧ r.failed = true ∧ answered s.collEarly m.die r.comm r.k = none then
    match s.ownRank m.die r.comm with
    | some rank => (t.sendRanks m.die r.comm rank 4 [ctlBytes { r with rank := rank }]).1
    | none => t
  else t

/-- A payload of KIND 3 or 4 delivered in order. One for a command not yet taken waits; one for a command that has ended
has no effect. -/
def State.collReceive (s : State) (die : Bool) (kind : BitVec 4) (p : List Byte) : State :=
  let comm := BitVec.ofNat 16 (leNat (p.take 2))
  let k := BitVec.ofNat 32 (leNat ((p.drop 2).take 4))
  match s.coll? die comm k with
  | some c => if kind = 4 then s.collCtl c (ctlOf p) else s.collData c p
  | none =>
    let next := sget 0 s.collCount (commKey die comm)
    if next = k ∨ seqLt next k then s.keepEarly { die := die, kind := kind, payload := p } else s

/-! ### COLLECTIVE_COMMAND_TAKE -/

def State.replayEarly (s : State) : List EarlyMsg → State
  | [] => s
  | m :: r => (s.collReceive m.die m.kind m.payload).replayEarly r

/-- What came early for a command takes its effect. -/
def State.heardColl (s : State) (c : CollCmd) : State :=
  let early := s.collEarly.filter (fun m => m.isFor c.die c.comm c.k)
  (({ s with collEarly := s.collEarly.filter (fun m => !m.isFor c.die c.comm c.k) }).replayEarly early).collGo c.die c.comm c.k

/-- A command joins the engine: announced to the other ranks, then what came early. -/
def State.joinColl (s : State) (c : CollCmd) : State :=
  let kind := if c.op = 4 then 3 else 1
  let z := { s with colls := s.colls ++ [{ c with seen := [c.ctl kind 0] }] }.sendRanks c.die c.comm c.rank 4
    [ctlBytes (c.ctl kind 0)]
  if z.2 then z.1.heardColl c else z.1.linkFail c

/-- A command that a check of this rank turns down: nothing is announced or moved (R309), and the other ranks are told. Where
this rank has answered them already, what it answered stands. -/
def State.turnDown (s : State) (c : CollCmd) (status reason : Nat) : State :=
  let told := (answered s.collEarly c.die c.comm c.k).getD (BitVec.ofNat 8 status)
  let c := { c with stage := 4 }
  ({ s with colls := s.colls ++ [c] }.rankFail c told.toNat (if told.toNat = status then reason else 0)).heardColl c

/-- The command at the head of a strand's e2. A bad count completes at once and is announced all the same, so that ranks whose
count differs complete BADCMD (R33, R314, log 20). -/
def State.takeColl (s : State) (key : Nat) (t : Strand) : State :=
  let w := t.ports.e2.take 4
  let comm := BitVec.ofNat 16 (fld (w.getD 0 0).toNat 48 16)
  let ck := commKey t.die comm
  let k := sget 0 s.collCount ck
  let id := s.nextBte
  let s := { s.modStrand key (fun t => t.taken 2 4) with nextBte := id + 1 }
  match s.ownRank t.die comm with
  | none => s.endColl (collCmdOf t id 0 k w) xBADCMD 0
  | some rank =>
    let c := collCmdOf t id rank k w
    let n := (s.commOf t.die comm).length
    let s := { s with collCount := sset 0 s.collCount ck (k + 1) }
    if !collGood t w c then s.turnDown c xBADCMD 0
    else if (c.op = 2 ∨ c.op = 3) ∧ c.count.toNat % n ≠ 0 then
      (((s.sendRanks c.die c.comm c.rank 4 [ctlBytes (c.ctl 1 0), ctlBytes (c.ctl 2 xBADCOUNT)]).1).endColl c xBADCOUNT
        0).heardColl c
    else
      match (if c.op = 4 then none else collRange t n c) with
      | some cause => s.turnDown c xRANGE cause.toNat
      | none =>
        match (if barV c.bar ∧ c.op ≠ 4 then s.announce (barDie c.bar) (barIdx c.bar) (c.announced n) else some s) with
        | none => s.turnDown c xOVERFLOW 0
        | some s => s.joinColl c

/-- A whole command is taken; without one, a command of the strand that had to wait for its memory goes on. -/
def execCollectiveCommandTake (key : Nat) (s : State) : Res :=
  match s.strand? key with
  | none => .next s
  | some t =>
    if t.life = .running ∧ portFull 2 t.ports.e2 = true then .next (s.takeColl key t)
    else .next ((s.colls.filter (fun c => c.key == key)).foldl (fun s c => s.collGo c.die c.comm c.k) s)

end

end Sys2Proof.Machine
end

