-- ==== Sys2Proof/Machine/Revoke.lean ====
section
/-! DEFINITION. Revoking pins (R61, R175, R203, R305). -/

namespace Sys2Proof.Machine

noncomputable section

/-! ### What an entry would access next (R175 step 6) -/

/-- The first element of a vector entry that acts and is not complete: what TELEM reports. -/
def VEntry.firstLeft (e : VEntry) (op : VOp) (v : VEnv) : Option Nat :=
  (List.range (e.caps.vl.toNat - e.prog)).findSome? (fun i => if op.acts v (e.prog + i) then some (e.prog + i) else none)

/-- What a multiply would access next through pin k: of A or u where k serves both operands (log 68). -/
def mulStop (x : MulArgs) (v : VEnv) (e : VEntry) (k : BitVec 3) : Word :=
  let ks := x.block v e.prog
  if x.form ≠ .vector ∧ x.ka = k then (x.aAddrs v e.rowprog ks).headD (v.c.ga + wNat e.rowprog * strideLo v.c.gd)
  else if x.kb = k then v.c.gb + wNat (ks.headD (32 * e.prog)) * strideHi v.c.gd
  else v.c.mxsa

/-- The lowest address of pin k's operand that the stopped row of a tile entry would have accessed: of a transposed `tst` with a
negative stride that of the last column. A pin that serves both operands of a `tcon` has its first one's (log 68). -/
def tileStop (v : VEnv) (e : VEntry) (k : BitVec 3) : Word :=
  let row := wNat e.rowprog
  match e.instr with
  | .tmma acc ra _ _ ms fa fb mk ka kb ck => mulStop (mulArgs .dense acc ra ms fa fb mk ka kb ck) v e k
  | .tmmaV acc ra _ _ ms fa fb mk ka kb ck => mulStop (mulArgs .vector acc ra ms fa fb mk ka kb ck) v e k
  | .tmmas acc ra _ _ ms fa fb mk ka kb ck => mulStop (mulArgs .sparse acc ra ms fa fb mk ka kb ck) v e k
  | .tst acc _ _ ms fa _ =>
    if ms.getLsbD 1 then
      let down := if (strideLo v.c.gd).getLsbD 63 then wNat ((v.t.tile acc).n.toNat - 1) * strideLo v.c.gd else 0
      v.c.ga + row * wNat (if ms.getLsbD 0 then 8 else fmtBytes fa) + down
    else v.c.ga + row * strideLo v.c.gd
  | .tcon _ _ _ ms fa _ ka _ =>
    if ka = k then v.c.ga + wNat (conIndex ms e.rowprog 0 * fmtBytes fa) else v.c.gb
  | .tsave _ _ _ => v.c.ga + row * 512
  | .trest _ _ _ => v.c.ga + row * 512
  | _ => v.c.ga + row * strideLo v.c.gd

/-- The first element of the line, log record or image that the stopped step of an orthogonal entry would have accessed. -/
def orthStop (v : VEnv) (o : Orth) (e : VEntry) (k : BitVec 3) : Word :=
  let line (m : BitVec 3) : Word := if m = k then v.c.ga + wNat e.prog * strideLo v.c.gb else o.targetBase e.prog
  match e.instr with
  | .oqapl _ _ _ m _ => line m
  | .oqapr _ _ _ m _ => line m
  | .oqsave _ _ _ => v.c.ga
  | .oqrest _ _ _ => v.c.ga
  | _ => if o.lpin = k ∧ o.lmax ≠ 0 ∧ (o.bpin ≠ k ∨ e.logged = false) then o.logBase else o.targetBase e.prog

/-- Where an incomplete entry on pin k stops: the element that TELEM reports and the address. -/
def Strand.entryStop (t : Strand) (e : VEntry) (k : BitVec 3) : Nat × Word :=
  match vop e.instr with
  | none => (e.prog, 0)
  | some op =>
    let v := t.env e
    match op.run with
    | .mem m => let i := (e.firstLeft op v).getD e.prog; (i, m.addr v i 0)
    | .gscr _ b =>
      let i := (e.firstLeft op v).getD e.prog
      (i, v.c.ga + wNat (v.get b v.sew i * (e.caps.rowbytes.toNat % 2 ^ 17)))
    | .tile => (64 * e.prog + e.rowprog, tileStop v e k)
    | _ => (e.prog, orthStop v (t.orth ((orthAcc e.instr).getD 0)) e k)

/-! ### What a transfer would access next -/

/-- The next source byte that COPY2D reads, from byte i on; none when no in-bounds byte remains. -/
def BteCmd.nextSrc (c : BteCmd) (i : Nat) : Option Word :=
  if c.total ≤ i ∨ !c.usesSrc then none
  else if c.inside i then some (c.srcVa i)
  else
    let r := i / c.rb + 1
    if r < Nat.min c.vr c.nr then some (c.srcVa (r * c.rb)) else none

/-- The first byte not delivered, on the side that pin k serves; of a pin that serves both, on the destination's (log 68). -/
def BteCmd.stopVa (c : BteCmd) (k : BitVec 3) : Option Word :=
  if c.total ≤ c.delivered then none
  else if c.usesDst ∧ !c.row ∧ c.dpin = k then some (c.dstVa c.delivered)
  else c.nextSrc c.delivered

/-- The source is read whole before the first byte is written, and the result written at once: what is done leaves no next
byte. A pin that serves both sides has its destination's (log 68). -/
def CollCmd.stopVa (c : CollCmd) (k : BitVec 3) : Option Word :=
  if c.dpin = k then (if c.stage = 2 then none else some (c.dst + wNat c.delivered))
  else if c.stage = 0 then some c.src
  else none

/-! ### STOP -/

/-- Stopped work in program order: its age, the place of a command among those taken, none for an entry, and its address. -/
structure Stopped where
  seq : BitVec 32
  cmd : Option Nat
  va : Option Word
  deriving DecidableEq, Repr

/-- Earlier in the strand's program order; a command pushed before an entry was posted bears the entry's number. -/
def Stopped.earlier (a b : Stopped) : Bool :=
  seqLt a.seq b.seq || (a.seq == b.seq &&
    (match a.cmd, b.cmd with
      | some m, some n => decide (m < n)
      | some _, none => true
      | none, _ => false))

def oldestStopped (xs : List Stopped) : Option Stopped :=
  xs.foldl (fun o x => match o with | none => some x | some y => if x.earlier y then some x else some y) none

/-- STOP: the offset from BASE, or LEN. -/
def stopOffset (p : Pin) (x : Option Stopped) : BitVec 37 :=
  match x with
  | some { va := some a, .. } =>
    if p.base.toNat ≤ a.toNat ∧ a.toNat < p.base.toNat + p.len.toNat then BitVec.ofNat 37 (a.toNat - p.base.toNat) else p.len
  | _ => p.len

/-- The entries that a strand holds: its queue, and what stands in its save area. -/
def Strand.work (t : Strand) : List VEntry := t.shadow ++ t.viq

/-- The strand's incomplete entries that name pin k, oldest first. -/
def Strand.onPin (t : Strand) (k : BitVec 3) (es : List VEntry) : List VEntry :=
  es.filter (fun e => !e.complete && (t.memUse e).pins.contains k)

/-! ### The save area of a strand that is not running (R203) -/

/-- The fault words of a saved entry, and the pin's record. -/
def State.saveRevoke (s : State) (t : Strand) (k : Nat) (p : Pin) (hit : Option (Nat × VEntry)) : State :=
  let s := s.putWords t (0x480 + 32 * (k - 1)) (pinWords p)
  match hit with
  | some (n, e) =>
    let w := recordWords e
    let base := 0x1000 + 128 * n
    ((s.putSave t (base + 8) 8 (w.getD 1 0)).putSave t (base + 112) 8 (w.getD 14 0)).putSave t (base + 120) 8 (w.getD 15 0)
  | none => s

/-! ### Revocation -/

/-- Record PINREVOKED against the oldest incomplete entry on the pin (R175, R203). -/
def revokeFault (t : Strand) (k : BitVec 3) (p : Pin) (e : VEntry) : VEntry :=
  e.addFault { cause := cPINREVOKED, elem := (t.entryStop e k).1, addr := wNat (p.base.toNat + p.stop.toNat),
               info := BitVec.ofNat 62 k.toNat }

def markFirst (seq : BitVec 32) (f : VEntry → VEntry) (es : List VEntry) : List VEntry :=
  es.map (fun e => if e.seq = seq then f e else e)

/-- A collective command still accesses memory: one that has told the others OK stands only in wait of their statuses, and
nothing stops it (R25). -/
def CollCmd.works (c : CollCmd) : Bool := decide (c.stage < 2)

/-- The block transfers of a strand on its pin k. -/
def State.btesOn (s : State) (key : Nat) (k : BitVec 3) : List BteCmd :=
  s.bte.filter (fun c => c.key == key && (c.spin == k || c.dpin == k))

/-- The collective commands of a strand that are at work on its pin k. -/
def State.collsOn (s : State) (key : Nat) (k : BitVec 3) : List CollCmd :=
  s.colls.filter (fun c => c.key == key && c.works && (c.spin == k || c.dpin == k))

/-- Stop every transfer on pin k of a strand (R175 step 5). -/
def State.stopTransfers (s : State) (key : Nat) (k : BitVec 3) : State :=
  let s := (s.btesOn key k).foldl (fun s c => s.stopBte c cPINREVOKED) s
  (s.collsOn key k).foldl (fun s c => s.stopColl c cPINREVOKED) s

/-- Revoke pin k of a strand, in the order of R175. PINREVOKED is recorded against an incomplete entry that names the pin; where
there is none the strand takes no trap (log 68). -/
def State.revokePin (s : State) (key : Nat) (k : BitVec 3) : State :=
  let s := s.drainStrand key
  match s.strand? key with
  | none => s
  | some t =>
    let p := t.pins.getD k.toNat Pin.idle
    let works : List Stopped :=
      (s.btesOn key k).map (fun c => { seq := c.seq, cmd := some c.id, va := c.stopVa k })
      ++ (s.collsOn key k).map (fun c => { seq := c.seq, cmd := some c.id, va := c.stopVa k })
      ++ (t.onPin k t.work).map (fun e => { seq := e.seq, cmd := none, va := some (t.entryStop e k).2 })
    let p' : Pin := { p with revoked := true, stop := stopOffset p (oldestStopped works), xfirst := 0, extents := [] }
    let es := if t.life = .saved then t.shadow.drop t.frozen else t.viq
    let hit := (t.onPin k es).head?
    let mark (l : List VEntry) : List VEntry :=
      match hit with | some e => markFirst e.seq (revokeFault t k p') l | none => l
    let s := (s.modStrand key (fun t => { t with
      pins := t.pins.setIfInBounds k.toNat p', viq := mark t.viq,
      shadow := if t.life = .saved then mark t.shadow else t.shadow })).freeRun t.coreNo p.xfirst.toNat
        (if t.placed then p.extents.length else 0)
    let s := s.stopTransfers key k
    if t.life = .saved then
      s.saveRevoke t k.toNat p' (hit.map (fun e => (es.findIdx (fun x => x.seq == e.seq), revokeFault t k p' e)))
    else s

/-- Revoke every pin that a test picks out: how many, and the state after. -/
def State.revokeWhere (s : State) (f : Strand → Pin → Bool) : Nat × State :=
  let hits := ((s.strands.filter (fun t => t.exists_)).map (fun t =>
    ([1, 2, 3, 4, 5, 6, 7].filter (fun k => f t (t.pins.getD k Pin.idle))).map (fun k => (t.key, k)))).flatten
  (hits.length, hits.foldl (fun s x => s.revokePin x.1 (BitVec.ofNat 3 x.2)) s)

/-- Revoke every live pin whose extents reach into a range of keys (R43, R178). -/
def State.revokeKeys (s : State) (f : Strand → Bool) (lo hi : Nat) : Nat × State :=
  s.revokeWhere (fun t p => f t && p.covers lo hi)

end

end Sys2Proof.Machine
end

