-- ==== Sys2Proof/Machine/Castle.lean ====
section
/-! DEFINITION. Castling: `castle`, `castq`, CASTLE_STACK and HAND_OVER (R11 to R15, R62, R177 to R179, R362 to R365). -/

namespace Sys2Proof.Machine

noncomputable section

/-! ### Tickets (R363) -/

def kPENDING : Nat := 0
def kDONE : Nat := 1
def kBUSY : Nat := 2
def kDENIED : Nat := 3
def kBADARG : Nat := 4
def kSTALE : Nat := 5

def ticket (status att : Nat) (die : Bool) (stack : Nat) : Word :=
  wNat (status * 2 ^ 60 + att * 2 ^ 32 + (if die then 2 ^ 8 else 0) + stack)

/-- Reserved bits of the operands clear (R362). -/
def castleArgsOk (a b : Word) : Bool :=
  decide (a.toNat < 8) && decide (b.toNat < 2 ^ 32) && fld b.toNat 9 7 == 0 && fld b.toNat 1 7 == 0 && !b.getLsbD 29

/-- Whether R177 lets a strand castle a stack. -/
def State.mayCastle (s : State) (t : Strand) (stack : Nat) : Bool :=
  match s.part? t.part.toNat with
  | some p => p.stackMask.getLsbD stack && (t.level == .kernel || p.userCastle)
  | none => false

/-- R178 step 1: HANDING on the base die and on the owner's side; ATT rises (R363). -/
def State.startHand (s : State) (stack : Nat) (target force : Bool) (bar : BitVec 16) (resp : Option CmdRec) : State :=
  s.modStack stack (fun k =>
    let o := k.owner
    { k.setRight o { k.right o with state := .handing } with
      handing := true, att := k.att + 1
      hand := some { source := o, target := target, force := force, bar := bar, resp := resp } })

def execCastle (d a b : Reg) (s : State) : Res :=
  withRegs [d, a, b] s (fun s =>
    let x := s.g a
    let y := s.g b
    let stack := x.toNat % 8
    let die := y.getLsbD 0
    let k := s.stack stack
    let answer (status att : Nat) (s : State) : Res := .next (s.retire d (ticket status att die stack) 4)
    if !castleArgsOk x y then answer kBADARG 0 s
    else if !s.mayCastle s.cur stack then answer kDENIED 0 s
    else if k.owner = die then answer kDONE 0 s
    else if k.handing then answer kBUSY 0 s
    else if s.cur.viqDone = false ∨ s.cur.sbuf ≠ [] then .next s.stall
    else answer kPENDING (k.att + 1).toNat (s.startHand stack die (y.getLsbD 8) (BitVec.ofNat 16 (fld y.toNat 16 16)) none))

/-- The ownership register (R11). -/
def Stack.register (k : Stack) : Nat := k.gen.toNat * 2 ^ 16 + (if k.handing then 2 ^ 8 else 0) + (if k.owner then 1 else 0)

/-- The status that `castq` gives for a ticket (R365). -/
def ticketStatus (k : Stack) (x : Word) : Nat :=
  let st := x.toNat / 2 ^ 60
  if st ≠ kPENDING then st
  else if fld x.toNat 32 16 = k.att.toNat then (if k.hand.isSome then kPENDING else if k.lastBusy then kBUSY else kDONE)
  else kSTALE

def execCastq (d a : Reg) (s : State) : Res :=
  withRegs [d, a] s (fun s =>
    let x := s.g a
    let k := s.stack (x.toNat % 8)
    .next (s.retire d (wNat (ticketStatus k x * 2 ^ 60 + fld x.toNat 32 16 * 2 ^ 32 + k.register)) 4))

/-! ### HAND_OVER (R178) -/

/-- Keys of a stack's bytes. -/
def stackLo (stack : Nat) : Nat := stack * 2 ^ 36
def stackHi (stack : Nat) : Nat := (stack + 1) * 2 ^ 36

def touches (lo hi : Nat) (ks : List Nat) : Bool := ks.any (fun k => decide (lo ≤ k) && decide (k < hi))

/-- Strands, picked out by a test, with a buffered store to a range. -/
def State.storing (s : State) (p : Strand → Bool) (lo hi : Nat) : List Strand :=
  s.strands.filter (fun t => p t && t.exists_ && t.sbuf.any (fun b => touches lo hi b.keys))

/-- What some strands have in flight is performed: the updates their issued groups have left, and the buffered stores that
may be performed. -/
def State.settleStores (s : State) (p : Strand → Bool) : State :=
  (s.strands.filter (fun t => p t && t.exists_)).foldl
    (fun s t => (s.performLefts t.key t.leftCount).flushStores t.key t.sbuf.length) s

/-- A store to a range waits only for loads that go on. -/
def State.storesGoOn (s : State) (p : Strand → Bool) (lo hi : Nat) : Bool :=
  (s.storing p lo hi).any (fun t => t.sbuf.any (fun b => touches lo hi b.keys && t.loadsGoOn lo hi b))

/-- Held elements in a range drain early, farm by farm (R42, R178). -/
def State.drainRange (s : State) (lo hi : Nat) : State :=
  s.farms.foldl (fun s f => s.drainFarm f.id (fun h => touches lo hi h.keys)) s

/-- The cores of a die that the model has a record of. -/
def State.coresOf (s : State) (die : Bool) : List Nat :=
  (s.cores.map (fun c => c.1)).filter (fun n => decide (128 ≤ n) == die)

def lineIn (lo hi l : Nat) : Bool := decide (lo / 64 ≤ l) && decide (l < hi / 64)

/-- Dirty lines of a range on some cores. -/
def State.dirtyIn (s : State) (cs : List Nat) (lo hi : Nat) : Nat :=
  (cs.map (fun n => ((s.core n).dirty.filter (lineIn lo hi)).length)).sum

/-- Every copy of a range's lines in some cores' L1s is written back and invalidated. -/
def State.cleanIn (s : State) (cs : List Nat) (lo hi : Nat) : State :=
  cs.foldl (fun s n => s.modCore n (Core.giveUp false (lineIn lo hi))) s

/-- Scalar TLB entries that map bytes of a range are dropped on some cores. -/
def State.shootIn (s : State) (cs : List Nat) (lo hi : Nat) : State :=
  cs.foldl (fun s n => s.modCore n (fun c => { c with
    tlb := c.tlb.filter (fun e => !(decide (e.frame < hi) && decide (lo < e.frame + 2 ^ levelShift e.level))) })) s

/-- The answer that CASTLE_STACK owes. -/
def State.handResp (s : State) (h : HandOver) (status gen dirty pins : Nat) : State :=
  match h.resp with
  | some r => s.respond r status gen dirty pins
  | none => s

/-- Step 5 without force, with a pin in the way: the hand-over ends BUSY. -/
def State.handBusy (s : State) (stack : Nat) (h : HandOver) : State :=
  ((s.modStack stack (fun k => { k.setRight h.source { k.right h.source with state := .owned } with
    handing := false, hand := none, lastBusy := true })).handResp h 5 0 0 0).wake 16 (fun _ => true) |>.hostGoOn |>.sendSaves

/-- Steps 7 and 8: the owner bit flips, both dies copy GEN, the ticket completes. -/
def State.handFlip (s : State) (stack : Nat) (h : HandOver) (dirty pins : Nat) : State :=
  let gen := (s.stack stack).gen + 1
  let s := s.modStack stack (fun k =>
    { (k.setRight h.source { state := .absent, gen := gen }).setRight h.target { state := .owned, gen := gen } with
      owner := h.target, gen := gen, handing := false, hand := none, lastBusy := false })
  let s := ((s.handResp h 0 gen.toNat dirty pins).wake 16 (fun _ => true)).hostGoOn.sendSaves
  if barV h.bar then (s.arrive (barDie h.bar) (barIdx h.bar)).1 else s

/-- CASTLE_STACK runs, or waits for the hand-over that is in progress (R53, R62). -/
def State.castleNow (s : State) (r : CmdRec) : State :=
  let stack := r.arg0.toNat % 8
  let die := r.arg0.getLsbD 8
  let k := s.stack stack
  if k.handing then s.modStack stack (fun k => { k with queue := k.queue ++ [r] })
  else if k.owner = die then s.respond r 0 k.gen.toNat 0 0
  else s.startHand stack die (r.arg0.getLsbD 9) 0 (some r)

/-- Commands that waited for a hand-over go on after it. -/
def State.castleQueue (s : State) (stack : Nat) : State :=
  let q := (s.stack stack).queue
  q.foldl (fun s r => s.castleNow r) (s.modStack stack (fun k => { k with queue := [] }))

/-- A live pin of a strand of a die reaches into a range of keys. -/
def State.diePinned (s : State) (die : Bool) (lo hi : Nat) : Bool :=
  s.strands.any (fun t => t.exists_ && t.die == die && t.pins.toList.any (fun p => p.covers lo hi))

/-- A farm that runs on a die has its save region pinned in a range (R85). -/
def State.dieRegion (s : State) (die : Bool) (lo hi : Nat) : Bool :=
  s.farms.any (fun f => f.fd.uses die && f.regionCovers lo hi)

/-- Steps 3 to 8 of R178, once what was in flight is performed. -/
def State.handEnd (s : State) (stack : Nat) (h : HandOver) : State :=
  let lo := stackLo stack
  let hi := stackHi stack
  let s := s.drainRange lo hi
  let cs := s.coresOf h.source
  let dirty := 64 * s.dirtyIn cs lo hi
  let s := s.cleanIn cs lo hi
  if (s.diePinned h.source lo hi || s.dieRegion h.source lo hi) && !h.force then (s.handBusy stack h).castleQueue stack
  else
    let z := s.revokeKeys (fun t => t.die == h.source) lo hi
    ((z.2.shootIn cs lo hi).handFlip stack h dirty z.1).castleQueue stack

/-- Steps 2 to 8 of R178 for the hand-over of a stack that is in progress. It waits for a store whose earlier loads go on; one
whose loads do not stays in its buffer, and is a new request when it leaves it (R14, R188, log 31). -/
def State.handOver (s : State) (stack : Nat) : State :=
  match (s.stack stack).hand with
  | none => s
  | some h =>
    let mine (t : Strand) : Bool := t.die == h.source
    let s := s.settleStores mine
    if s.storesGoOn mine (stackLo stack) (stackHi stack) then s else (s.handEnd stack h).poll

def execHandOver (stack : BitVec 3) (s : State) : Res := .next (s.handOver stack.toNat)

end

end Sys2Proof.Machine
end

