-- ==== Sys2Proof/Machine/Halt.lean ====
section
/-! DEFINITION. Pre-emption and discarding: HALT_REQUEST, STRAND_HALT and STRAND_SAVE, and TAKE_TRAP as a step of its own
(R57, R58, R86 to R93, R199 to R211, R361). -/

namespace Sys2Proof.Machine

noncomputable section

/-! ### Discarding strands (R57, R93) -/

/-- Every transfer of a strand stops at a byte boundary. A collective command that has told the other ranks its status is done:
its completion goes with the strand, and its barrier is settled by that status. -/
def State.stopAll (s : State) (key : Nat) : State :=
  let s := (s.bte.filter (fun c => c.key == key)).foldl (fun s c => s.stopBte c cPINREVOKED) s
  let s := (s.colls.filter (fun c => c.key == key && c.works)).foldl (fun s c => s.stopColl c cPINREVOKED) s
  let mine := s.colls.filter (fun c => c.key == key)
  mine.foldl (fun s c => if failing c.status then s.settleColl c c.status.toNat else s)
    { s with colls := s.colls.filter (fun c => c.key != key) }

/-- A strand is discarded: its transfers stop, its committed stores are performed, its pins are unpinned, its completion words
dropped with it. -/
def State.discard (s : State) (key : Nat) : State :=
  match s.strand? key with
  | none => s
  | some t =>
    let s := (s.stopAll key).modStrand key (fun t => { t with viq := [], rq := [], frozen := 0, shadow := [] })
    ((s.flushStores key t.sbuf.length).unpinAll key).modStrand key (fun t => { t with
      life := .ended, tiles := [], orths := [], stalled := false, pause := .none, held := [], sbuf := [], haltReq := false,
      mcheck := none })

/-- Every strand of a farm is discarded. What strands that had ended before still hold drains then: no strand is left that has not
reached its epoch (R91, R193, R354, log 69). -/
def State.discardFarm (s : State) (id : Nat) : State :=
  ((s.strands.filter (fun t => t.farm == id && t.exists_)).foldl (fun s t => s.discard t.key) s).drainFarm id (fun _ => true)

/-! ### HALT_REQUEST and STRAND_HALT (R87, R361) -/

/-- A strand of a farm that is being halted. -/
def State.mustHalt (s : State) (t : Strand) : Bool := t.life == .running && s.isHalting t.farm

/-- HALT_REQUEST: the request reaches a core. -/
def execHaltRequest (core : BitVec 8) (s : State) : Res :=
  .next (s.mapStrands (fun t => if t.coreNo = core.toNat ∧ s.mustHalt t = true then { t with haltReq := true } else t))

/-- What a halt makes of the instruction at the pc (R353, R361): a stalled instruction executes again, except for an
arrival made, a count made, and a `yield` that resumes behind itself. -/
def Strand.abandon (t : Strand) : Strand :=
  match t.pause with
  | .arrived _ _ => t
  | .counted => t
  | .yielded => { t with pause := .none, pc := t.pc + 4 }
  | .pushed =>
    let p : Reg := if portFull 0 t.ports.e0 then 0 else 2
    { t.setPort p ((t.ports.words p.toNat).dropLast) with pause := .none }
  | _ => { t with pause := .none }

/-- STRAND_HALT: issued micro-operations complete, the buffered stores that may be performed are, and the strand stands at a
boundary. A store that waits for an entry's loads stays in the buffer until the strand runs again (R188, log 31). -/
def State.haltStrand (s : State) (key : Nat) : State :=
  match s.strand? key with
  | none => s
  | some t =>
    if t.life = .running ∧ t.haltReq = true then
      ((s.drainStrand key).flushStores key t.sbuf.length).modStrand key (fun t =>
        { t.abandon with life := .halted, haltReq := false, stalled := false })
    else s

def execStrandHalt (key : Nat) (s : State) : Res := .next (s.haltStrand key)

/-! ### STRAND_SAVE (R88, R92, R93) -/

/-- A halted strand's area is written; the strand keeps what the module holds of it: identity, pins, held lines, registers at
their architectural values. While the area lies on a stack that the die is handing over the core holds the save (R14). -/
def State.saveOne (s : State) (t : Strand) : State :=
  if s.saveHeld t then s
  else
    let a := t.architectural
    ((s.saveStrand t).leaveTable t.key).modStrand t.key (fun t => { t with
      life := .saved, v := a.v, p := a.p, badRows := a.badRows, savedLines := heldLines t.held,
      shadow := t.shadow ++ t.viq.map (fun e => { e with inflight := [], done := if e.complete then e.done else [] }),
      viq := [], rq := [] })

/-- A halted strand is saved; one of a farm that is being stopped waits to be discarded with the others. -/
def State.retireHalted (s : State) (t : Strand) : State :=
  match s.farm? t.farm with
  | some { halting := .stop _, .. } => s
  | _ => s.saveOne t

/-- The farm's strands stand where its request wants them: halted to be discarded (R57), else saved. -/
def State.haltsDone (s : State) (f : Farm) : Bool :=
  match f.halting with
  | .stop _ => !s.strands.any (fun t => t.farm == f.id && t.life == .running)
  | _ => !s.strands.any (fun t => t.farm == f.id && t.placed)

/-- A farm whose halts are finished goes where its request sends it. -/
def State.settleHalt (s : State) (f : Farm) : State :=
  if f.halting = .no ∨ f.state ≠ .running ∨ s.haltsDone f = false then s
  else
    let n := (s.savedOf f.id).length
    (match f.halting with
      | .stop _ => (s.discardFarm f.id).finishFarm f .stopped
      | .hold _ => s.modFarm f.id (fun f => { f with state := .held, ready := false, halting := .no })
      | .requeue _ =>
        { s.modFarm f.id (fun f => { f with state := .queued, ready := true, halting := .no, order := s.nextOrder })
          with nextOrder := s.nextOrder + 1 }
      | .no => s).answerHalt f.halting n

/-- STRAND_SAVE: a core writes the areas of its halted strands; farms whose halts are finished are settled. -/
def execStrandSave (core : BitVec 8) (s : State) : Res :=
  let s := (s.strands.filter (fun t => t.life == .halted && t.coreNo == core.toNat)).foldl (fun s t => s.retireHalted t) s
  .next (s.farms.foldl (fun s f => s.settleHalt f) s).poll

/-! ### TAKE_TRAP (R199, R203) -/

/-- Whether a cause waits for the strand's next boundary; one reached by an instruction that has begun its wait comes
after it. -/
def Strand.trapDue (t : Strand) : Bool :=
  (t.mcheck.isSome || t.dueFault.isSome) &&
  (match t.pause with | .arrived _ _ => false | .counted => false | .pushed => false | _ => true)

/-- In deterministic mode the reported fault does not depend on timing: one recorded against an entry is taken once every
earlier entry is complete and every lower element group of its own (R110, log 55). A machine check is taken at once. -/
def Strand.dueSettled (t : Strand) : Bool :=
  !t.det || t.mcheck.isSome ||
  (match t.dueFault with
    | some (e, f) => f.cause == cMCHECK || ((entriesBefore e.seq t.viq).all (fun x => x.complete) &&
        (e.complete || isTile e.instr || isOrth e.instr || decide (f.elem / e.G * e.G ≤ e.prog)))
    | none => true)

/-- Take the due machine check or vector fault of the current strand. -/
def State.takeDue (s : State) : State := s.takeTrap (scalarTrap 0 0 0)

/-- TAKE_TRAP: a strand's due trap is taken at its boundary, unless a halt request goes first (R199). -/
def execTakeTrap (key : Nat) (s : State) : Res :=
  let s := s.focus key
  .next (if s.cur.key = key ∧ s.cur.life = .running ∧ s.cur.haltReq = false ∧ s.cur.trapDue = true ∧ s.cur.dueSettled = true then s.takeDue else s)

end

end Sys2Proof.Machine
end

