-- ==== Sys2Proof/Machine/Micro.lean ====
section
/-! DEFINITION. Steps of the vector pipes, the matrix engine, the orthogonal unit and the store buffer; timers; soft and
memory errors (R20, R78, R86, R101 to R116, R197, R205, R257, R352, R353). -/

namespace Sys2Proof.Machine

noncomputable section

/-! ### Vector side -/

def execMicroOperationIssue (key : Nat) (seq : BitVec 32) (g : Nat) (s : State) : Res := .next (s.issue key seq g)

def execElementGroupComplete (key : Nat) (seq : BitVec 32) (g : Nat) (s : State) : Res := .next (s.complete key seq g)

def execMatrixEngineStep (key : Nat) (s : State) : Res := .next (s.tileStep key)

def execOrthogonalLineStep (key : Nat) (s : State) : Res := .next (s.orthStep key)

/-! ### The store buffer -/

/-- SCALAR_ACCESS_PERFORMED: the n-th buffered store of a strand is performed at its home, if it may be. -/
def execScalarAccessPerformed (key n : Nat) (s : State) : Res :=
  match s.strand? key with
  | some t => .next (if t.storeReady n then s.performNth key n else s)
  | none => .next s

/-! ### Timers -/

/-- WAIT_TIMEOUT: the limit of a `wait` that has one. -/
def execWaitTimeout (key : Nat) (s : State) : Res :=
  .next (s.modStrand key (fun t => if t.pause = .waiting true then { t with latch := t.latch ||| 1 } else t))

/-- YIELD_EXPIRY. -/
def execYieldExpiry (key : Nat) (s : State) : Res :=
  .next (s.modStrand key (fun t => match t.pause with | .yielding _ => { t with pause := .yielded } | _ => t))

/-- PRIORITY_AGING: another age limit has passed since a farm became ready. One that is ready rises one level; a running one
takes its age along, since a halt returns it with its ready time (R78, R86). -/
def execPriorityAging (farm : Nat) (s : State) : Res :=
  match s.farm? farm with
  | none => .next s
  | some f =>
    match s.part? f.part.toNat with
    | none => .next s
    | some p =>
      if p.ageLimit = 0 ∨ 7 ≤ f.prio then .next s
      else if f.state = .queued ∧ f.ready = true then .next (s.rise f).poll
      else if f.state = .running then .next (s.modFarm farm (fun f => { f with aged := f.aged + 1 }))
      else .next s

/-- QUOTA_PERIOD: lane-cycle accounting starts again on a die (R86). -/
def execQuotaPeriod (die : Bool) (s : State) : Res :=
  .next { s with quota := s.quota.filter (fun x => decide (8 ≤ x.1) != die) }.poll

/-! ### Errors -/

/-- A lane's wrong result is met when its group completes (R113, R114). -/
def Strand.upset (t : Strand) (seq : BitVec 32) (g flip : Nat) (vote : Bool) : Strand :=
  t.modEntry seq (fun e => { e with
    inflight := e.inflight.map (fun r => if r.g = g then { r with flip := some (flip, vote) } else r) })

/-- A line is poisoned (R20). -/
def State.poisonLine (s : State) (line : Nat) : State := { s with poison := sset none s.poison line (some 0) }

/-- The element of an entry at which its next read of a lost row, the strand's only one, would stop it. -/
def Strand.meetsLost (t : Strand) (e : VEntry) : Option Nat :=
  match vop e.instr with
  | none => none
  | some op =>
    let meets (xs : List Span) : Bool := t.badRowsIn e xs != []
    match op.run with
    | .epop _ _ => none
    | .tile => (t.formOf e).bind (fun f => (List.range (64 * f.steps)).find? (fun i =>
        decide (64 * e.prog + e.rowprog ≤ i) && decide (i % 64 < f.rows) &&
        meets (t.engineReads e op (t.rowElems { e with prog := i / 64, rowprog := i % 64 }) [])))
    | .orth => if meets (t.engineReads e op (List.range (Nat.min (orthNeeds t e) (t.env e).top)) []) then some e.prog else none
    | _ => ((List.range e.groups).find? (fun g =>
        !e.issued g && e.acting op (t.env e) g != [] && meets (t.microReads e op g))).map (fun g => g * e.G)

/-- The queued entry that reads a lost version of a row next, nothing before it rewriting the row, and the element. -/
def Strand.concerned (t : Strand) (ver : Option (BitVec 32)) (x : Nat × Nat) : Option (VEntry × Nat) :=
  let clean : Strand := { t with badRows := [], viq := t.viq.map (fun e => { e with bad := [] }) }
  let u := clean.markRow ver x
  t.viq.findSome? (fun e =>
    if e.complete || e.fault.isSome || t.versionOf (some e.seq) x != ver || !t.covered e.seq (t.rowSpan x) then none
    else (u.meetsLost e).map (fun n => (e, n)))

/-- An uncorrectable error in a row of the register file, in its newest version: met when the row is read (R115, R116). At a
halted strand it is recorded at once against the entry that reads the row (R203, log 18). The registers of a saved strand lie in
memory. -/
def Strand.loseRow (t : Strand) (x : Nat × Nat) : Strand :=
  let ver := t.versionOf none x
  if t.isLost ver x || decide (32 ≤ x.1) || decide (8 * t.lgw ≤ x.2) then t
  else
    let u := t.markRow ver x
    match t.life with
    | .running => u
    | .halted =>
      if t.producerHeld ver x then u
      else
        match t.concerned ver x with
        | none => u
        | some (e, n) =>
          (u.modEntry e.seq (fun e => e.addFault { cause := cMCHECK, elem := n, addr := 0, info := 1 })).countCheck
    | _ => t

def execSoftError (e : SoftError) (s : State) : Res :=
  match e with
  | .rowFixable key _ _ =>
    match s.strand? key with
    | some t => .next (s.modCore t.coreNo (fun c => { c with fixed := c.fixed + 1 }))
    | none => .next s
  | .stage _ _ _ => .next s
  | .rowLost key reg g => .next (s.modStrand key (fun t => t.loseRow (reg, g)))
  | .lane key seq g flip vote => .next (s.modStrand key (fun t => t.upset seq g flip vote))
  | .l1Line core line =>
    let i : TrapInfo := { cause := cMCHECK, vec := false, seq := 0, elem := 0, addr := 0, info := 3 }
    .next ((s.poisonLine line).mapStrands (fun t =>
      if t.life = .running ∧ t.coreNo = core.toNat then { t.countCheck with mcheck := some i } else t))

/-- MEMORY_ERROR: a line of HBM or of the second tier is corrected and counted, or poisoned and recorded. COUNT starts at 1
(log 57). -/
def execMemoryError (pa : BitVec 52) (fixable : Bool) (s : State) : Res :=
  let k := pa.toNat
  let note (s : State) : State :=
    if fixable then s.addError 1 (errSource k) 0 1 k else (s.poisonLine (lineOf k)).addError 2 (errSource k) 0 0 k
  match region k with
  | .hbm st => .next (note (if fixable then s.modStack st (fun x => { x with corrected := x.corrected + 1 }) else s))
  | .tier2 _ => .next (note s)
  | _ => .next s

end

end Sys2Proof.Machine
end

