-- ==== Sys2Proof/Machine/Sys.lean ====
section
/-! DEFINITION. System instructions: major 0x1A SYS, `setvl` and `setvtype`, `c.brk` and `cvy` (R100, R108, R118, R121,
R127 to R136, R212, R213, R273, R274, R349 to R361). -/

namespace Sys2Proof.Machine

noncomputable section

/-! ### Traps (R350, R351) -/

def execTrap (code : BitVec 10) (s : State) : Res := s.trap cTRAP 0 code.toNat

def execBrk (code : BitVec 10) (s : State) : Res := s.trap cBRK 0 code.toNat

def execCBrk (code : BitVec 11) (s : State) : Res := s.trap cBRK 0 code.toNat

/-- ILLEGAL outside a handler, else PRIV at user level (R229, R351); it waits for the handler's own entries (R204). -/
def execTret (s : State) : Res :=
  checked s.cur.inHandler s (fun s => kernelOnly s (fun s =>
    if s.cur.viqDone then s.returnFromTrap else .next s.stall))

/-- The next posted entry starts a convoy (R108, R224). -/
def execCvy (s : State) : Res := .next ((s.modCur (fun t => { t with cvy := true })).advance 2)

/-! ### Waiting (R352, R353, R360) -/

/-- Returns the latched events and clears them, or stalls until one occurs. -/
def execWait (d a : Reg) (s : State) : Res :=
  withRegs [d, a] s (fun s =>
    if s.cur.latch = 0 then .next (s.modCur (fun t => { t with pause := .waiting (t.getG a != 0) })).stall
    else
      .next ((s.modCur (fun t => { t with latch := 0, pause := .none })).retire d (s.cur.latch.setWidth 64) 4))

/-- Cycles of a `yield`: min(g[a], 2^20), or 1. -/
def yieldCycles (x : Word) : Nat := if x = 0 then 1 else Nat.min x.toNat (2 ^ 20)

def execYield (a : Reg) (s : State) : Res :=
  withRegs [a] s (fun s =>
    match s.cur.pause with
    | .yielded => .next ((s.modCur (fun t => { t with pause := .none })).advance 4)
    | .yielding _ => .next s.stall
    | _ => .next (s.modCur (fun t => { t with pause := .yielding (yieldCycles (t.getG a)) })).stall.poll)

/-- Waits until every earlier entry has completed and every value has arrived. -/
def execVsync (s : State) : Res :=
  if s.cur.viqDone ∧ s.cur.rq = [] then .next (s.advance 4) else .next s.stall

/-! ### The end (R213, R354) -/

/-- RES2 of a strand that ends by `halt`: the trap being handled, except the exit stub's `trap 1023` (R213). -/
def haltRes2 (t : Strand) : Option Nat :=
  if t.inHandler ∧ !(t.trapNow.toNat % 256 = cTRAP.toNat ∧ t.trapInfo.toNat % 1024 = 1023) then
    some (t.trapNow.toNat % 0x200)
  else none

def execHalt (s : State) : Res :=
  kernelOnly s (fun s =>
    if s.cur.viqDone ∧ !s.transfers s.cur.key then .next (s.endStrand s.cur.key (haltRes2 s.cur)) else .next s.stall)

/-! ### Control registers (R127 to R136, R355) -/

/-- Numbers of R127. -/
def ctlExists (n : Nat) : Bool :=
  n ≤ 0x00D || (0x010 ≤ n && n ≤ 0x014) || (0x018 ≤ n && n ≤ 0x01D) || (0x020 ≤ n && n ≤ 0x026) || (0x030 ≤ n && n ≤ 0x032)

/-- Registers marked R. -/
def ctlReadOnly (n : Nat) : Bool := n = 0x000 || n = 0x002 || n = 0x003 || n = 0x00D || (0x010 ≤ n && n ≤ 0x014)

/-- Registers marked K. -/
def ctlKernel (n : Nat) : Bool := n = 0x020 || (0x030 ≤ n && n ≤ 0x032)

/-- Registers marked KR. -/
def ctlKernelWrite (n : Nat) : Bool := 0x021 ≤ n && n ≤ 0x026

/-- Registers that gather what vector entries raise (R100, R130). -/
def ctlGathers (n : Nat) : Bool := n = 0x008 || n = 0x009 || n = 0x00A || n = 0x00C

/-- What VTYPE may hold (R131). -/
def vtypeOk (x : Word) : Bool :=
  fld x.toNat 0 3 ≤ 3 && fld x.toNat 3 4 ≤ 9 && fld x.toNat 7 3 ≤ 3 && fld x.toNat 10 3 ≤ 5 && x.toNat < 2 ^ 14

/-- A TSHAPE dimension. -/
def dimOk (n : Nat) : Bool := 1 ≤ n && n ≤ 64

/-- What an ERRINJ write asks for (R136): KIND, REG, POS, BIT. -/
structure Inject where
  kind : Nat
  reg : Nat
  pos : Nat
  bit : Nat
  deriving DecidableEq, Repr

def injectOf (x : Word) : Inject :=
  { kind := fld x.toNat 61 3, reg := fld x.toNat 56 5, pos := fld x.toNat 44 12, bit := fld x.toNat 0 6 }

/-- Whether the place exists: an element of one vector register at the present SEW, an element inside a held
accumulator's shape, or a row of the register. -/
def Strand.injectOk (t : Strand) (i : Inject) : Bool :=
  match i.kind with
  | 0 => true
  | 1 => decide (i.pos * vtSew t.ctl.vtype < 8 * t.vbytes) && decide (i.bit < vtSew t.ctl.vtype)
  | 2 =>
    match t.tiles[i.reg]? with
    | some a => decide (i.reg < 8) && decide (i.pos / 64 < a.m.toNat) && decide (i.pos % 64 < a.n.toNat) && decide (i.bit < 48)
    | none => false
  | 3 => decide (i.pos < 8 * t.lgw)
  | _ => false

/-- The fault is injected (R136). -/
def Strand.inject (t : Strand) (i : Inject) : Strand :=
  match i.kind with
  | 1 =>
    let n := i.pos * vtSew t.ctl.vtype + i.bit
    let old := t.v.getD i.reg 0
    { t with v := t.v.setIfInBounds i.reg (old ^^^ BitVec.twoPow 32768 n) }
  | 2 =>
    { t with tiles := t.tiles.modify i.reg (fun a =>
        { a with elems := sset 0 a.elems i.pos (sget 0 a.elems i.pos ^^^ BitVec.twoPow 64 i.bit), ckv := false }) }
  | 3 => t.markRow (t.versionOf none (i.reg, i.pos)) (i.reg, i.pos)
  | _ => t

/-- A value `mtc` may write: no reserved bit, every field in its range (R128). -/
def Strand.mtcOk (t : Strand) (n : Nat) (x : Word) : Bool :=
  let v := x.toNat
  match n with
  | 0x001 => vtypeOk x
  | 0x006 => v < 2 ^ 8
  | 0x007 => v ≤ 4
  | 0x008 => v < 2 ^ 5
  | 0x009 => v < 2 ^ 5
  | 0x00A => v < 2 ^ 16
  | 0x00B => v ≤ 2
  | 0x018 => v < 2 ^ 15 && !x.getLsbD 7 && dimOk (fld v 0 7) && dimOk (fld v 8 7)
  | 0x019 => v < 2 ^ 32
  | 0x01C => v < 2 ^ 16 && !x.getLsbD 13
  | 0x01D => v % 16 = 0 && 16 ≤ v && v ≤ 65536
  | 0x020 => v % 64 = 0
  | 0x021 => v < 2 ^ 9
  | 0x023 => v < 2 ^ 32
  | 0x024 => v < 2 ^ 32
  | 0x030 => v % 0x10000 = 0
  | 0x031 => v = 8 || v = 16 || v = 24 || v = 32
  | 0x032 => fld v 6 38 = 0 && t.injectOk (injectOf x)
  | _ => true

/-- VTYPE is written and VL lowered (R274). -/
def Strand.setVtype (t : Strand) (x : Word) : Strand :=
  { t with ctl := { t.ctl with vtype := x, vl := wNat (Nat.min t.ctl.vl.toNat (vlmaxOf t.lgw x)) } }

/-- The control registers that are words of their own, written (R127). ERRINJ reads back with KIND = 0. -/
def Strand.ctlWrite (t : Strand) (n : Nat) (x : Word) : Strand :=
  let c := t.ctl
  match n with
  | 0x001 => t.setVtype x
  | 0x004 => { t with ctl := { c with stripbase := x } }
  | 0x005 => { t with ctl := { c with srseed := x } }
  | 0x006 => { t with ctl := { c with srsalt := x } }
  | 0x007 => { t with ctl := { c with rmode := x } }
  | 0x008 => { t with ctl := { c with fstat := x }, held := t.held.map (fun h => { h with quiet := true }) }
  | 0x009 => { t with ctl := { c with gstat := x } }
  | 0x00A => { t with ctl := { c with suspect := x } }
  | 0x00B => { t with ctl := { c with check := x } }
  | 0x00C => { t with ctl := { c with chkcnt := x } }
  | 0x018 => { t with ctl := { c with tshape := x } }
  | 0x019 => { t with ctl := { c with tpad := x } }
  | 0x01A => { t with ctl := { c with mxsa := x } }
  | 0x01B => { t with ctl := { c with mxsb := x } }
  | 0x01C => { t with ctl := { c with xferbar := x } }
  | 0x01D => { t with ctl := { c with rowbytes := x } }
  | 0x020 => { t with ctl := { c with trapvec := x } }
  | 0x021 => { t with ctl := { c with tcause := x } }
  | 0x022 => { t with ctl := { c with tpc := x } }
  | 0x023 => { t with ctl := { c with tviq := x } }
  | 0x024 => { t with ctl := { c with telem := x } }
  | 0x025 => { t with ctl := { c with taddr := x } }
  | 0x026 => { t with ctl := { c with tinfo := x } }
  | 0x030 => { t with ctl := { c with ptbase := x } }
  | 0x032 => { t.inject (injectOf x) with ctl := { c with errinj := wNat (x.toNat % 2 ^ 61) } }
  | _ => t

/-- MAXLG of a core: lanes from the old limit up to the new one that no strand has kept powered wake up (R118, R134). -/
def State.setMaxlg (s : State) (core v : Nat) : State :=
  let old := (s.core core).maxlg.toNat
  let kept (l : Nat) : Bool := s.seats.any (fun x => x.core == core && decide (x.lane ≤ l) && decide (l < x.lane + x.lanes))
  let woken := ((List.range 32).filter (fun l => decide (old ≤ l) && decide (l < v) && !kept l))
  s.modCore core (fun c => { c with
    maxlg := BitVec.ofNat 6 v, waking := c.waking.filter (fun l => decide (l < v)) ++ woken })

def execMfc (d : Reg) (cr : BitVec 10) (s : State) : Res :=
  let n := cr.toNat
  if !ctlExists n then s.illegal
  else if ctlKernel n ∧ s.cur.level = .user then s.priv
  else
    withRegs [d] s (fun s =>
      if (ctlGathers n || n == 0x024) && !s.cur.viqDone then .next s.stall
      else .next (s.retire d ((s.cur.ctlRead (s.core s.cur.coreNo).maxlg n).getD 0) 4))

/-- An `mtc` that R100, R130 and R136 hold back until earlier entries have completed. -/
def Strand.mtcWaits (t : Strand) (n : Nat) : Bool :=
  (ctlGathers n || n == 0x032 || ((n == 0x005 || n == 0x006) && vtRm t.ctl.vtype == 5)) && !t.viqDone

/-- The checks of R128 come before the level, as R229 orders them. Whether an injection's place exists is seen once earlier
entries have completed: a `tcfg` among them may change a shape (R136). -/
def execMtc (r : Reg) (cr : BitVec 10) (s : State) : Res :=
  let n := cr.toNat
  if !ctlExists n || ctlReadOnly n then s.illegal
  else
    withRegs [r] s (fun s =>
      if n = 0x032 ∧ s.cur.viqDone = false then .next s.stall
      else if !s.cur.mtcOk n (s.g r) then s.illegal
      else if (ctlKernel n || ctlKernelWrite n) && s.cur.level == .user then s.priv
      else if s.cur.mtcWaits n then .next s.stall
      else if n = 0x031 then .next ((s.setMaxlg s.cur.coreNo (s.g r).toNat).advance 4)
      else .next ((s.modCur (fun t => t.ctlWrite n (t.getG r))).advance 4))

/-- An ERRINJ write of one kind, acting on the current strand (R136). -/
def errinj (i : Inject) (s : State) : Res :=
  if s.cur.life ≠ .running then .next s
  else if s.cur.injectOk i then .next (s.modCur (fun t => t.inject i)) else s.illegal

def execErrinjFlipVectorBit (reg : Reg) (pos : BitVec 12) (bit : BitVec 6) (s : State) : Res :=
  errinj { kind := 1, reg := reg.toNat, pos := pos.toNat, bit := bit.toNat } s

def execErrinjFlipTileBit (reg : Reg) (pos : BitVec 12) (bit : BitVec 6) (s : State) : Res :=
  errinj { kind := 2, reg := reg.toNat, pos := pos.toNat, bit := bit.toNat } s

def execErrinjMarkRow (reg : Reg) (pos : BitVec 12) (s : State) : Res :=
  errinj { kind := 3, reg := reg.toNat, pos := pos.toNat, bit := 0 } s

/-- A write of MAXLG by the current strand (R118). -/
def execMaxlg (v : Word) (s : State) : Res :=
  if s.cur.life ≠ .running then .next s
  else if s.cur.mtcOk 0x031 v then .next (s.setMaxlg s.cur.coreNo v.toNat) else s.illegal

/-- A lane that was powered up again can be used (R118). -/
def execLanePowerUp (core : BitVec 8) (lane : BitVec 5) (s : State) : Res :=
  .next (s.modCore core.toNat (fun c => { c with waking := c.waking.filter (fun l => l != lane.toNat) })).poll

/-! ### The grant (R89, R121, R273, R274) -/

/-- The byte image of `n` registers from register b, as a number. -/
def Strand.image (t : Strand) (b n : Nat) : Nat :=
  ((List.range n).map (fun j => getBytes (t.v.getD (b + j) 0) 0 t.vbytes * 2 ^ (8 * t.vbytes * j))).sum

/-- Adopt width w, keeping elements 0 to m − 1 of every register and predicate (R121). Every row is written anew: a lost row is
read by no micro-operation on the way, and its mark goes; no operand buffer holds what wrote the rows (R115, R136, log 18). -/
def Strand.adopt (t : Strand) (w m : Nat) : Strand :=
  let grp := vtGroup t.ctl.vtype
  let keep := m * vtSew t.ctl.vtype
  let reg (n : Nat) : BitVec 32768 :=
    BitVec.ofNat 32768 (t.image (n / grp * grp) grp % 2 ^ keep / 2 ^ (8 * (128 * w) * (n % grp)) % 2 ^ (8 * (128 * w)))
  { t with
    lgw := w, lanes := w, pendW := none, badRows := [], opBuf := [],
    v := Vector.ofFn (fun i : Fin 32 => reg i.val),
    p := Vector.ofFn (fun i : Fin 64 => BitVec.ofNat 32768 ((t.p.getD i.val 0).toNat % 2 ^ m)) }


/-- A prefixed word is 8 bytes long. -/
def vlen (ext : Bool) : Nat := if ext then 8 else 4

def execSetvl (ext : Bool) (d a : Reg) (s : State) : Res :=
  withRegs [d, a] s (fun s =>
    let t := s.cur
    let w := t.pendW.getD t.lgw
    let n := wNat (Nat.min (s.g a).toNat (vlmaxOf w t.ctl.vtype))
    let done (s : State) : State := (s.modCur (fun t => { t with ctl := { t.ctl with vl := n } })).retire d n (vlen ext)
    if w = t.lgw then .next (done (s.modCur (fun t => { t with pendW := none })))
    else if !t.viqDone then .next s.stall
    else .next (done (s.modCur (fun t => t.adopt w (Nat.min t.ctl.vl.toNat (vlmaxOf w t.ctl.vtype))))).poll)

def execSetvtype (ext : Bool) (d a : Reg) (s : State) : Res :=
  withRegs [d, a] s (fun s =>
    if !vtypeOk (s.g a) then s.illegal
    else
      let s := s.modCur (fun t => t.setVtype (s.g a))
      .next (s.retire d s.cur.ctl.vl (vlen ext)))

/-! ### Farms and strips (R84, R356, R357) -/

/-- The descriptor at 1,024 bits, with ARGPTR replaced. -/
def withArg (d : Fdesc) (x : Option Word) : Fdesc := match x with | some a => { d with argptr := a } | none => d

def execFarm (d a b : Reg) (s : State) : Res :=
  withRegs [d, a, b] s (fun s =>
    if (s.g a).toNat % 8 ≠ 0 then s.trap cMISALIGN (s.g a).toNat 1
    else
      scalarLoad s (s.g a) 128 (fun s x =>
        if s.cur.releaseWaits then .next s.stall
        else
          let fd := withArg (parseFdesc x) (if b = 0 then none else some (s.g b))
          match s.judge fd s.cur.part (s.cur.level == .user) with
          | some st => .next (s.retire d (wNat (2 ^ 63 + st)) 4)
          | none =>
            let s := s.retire d (wNat s.nextFarm) 4
            .next (s.queueFarm fd none).1))

/-- The next strip number of the current strand, and the state with it taken; none when no strip remains (R84). -/
def State.nextStripOf (s : State) : Option (Nat × State) :=
  let t := s.cur
  match s.farm? t.farm with
  | none => none
  | some f =>
    let x := if f.fd.fixed then t.logid + t.strips * t.nstrands else f.nextStrip
    if x < f.fd.stripcnt.toNat then
      some (x, (s.modCur (fun t => { t with
        strips := t.strips + 1, ctl := { t.ctl with stripbase := wNat (x * f.fd.striplen.toNat) } })).modFarm t.farm
          (fun f => { f with strips := f.strips + 1, nextStrip := if f.fd.fixed then f.nextStrip else f.nextStrip + 1 }))
    else none

def execStrip (d : Reg) (s : State) : Res :=
  withRegs [d] s (fun s =>
    match s.nextStripOf with
    | some (x, s) => .next (s.retire d (wNat x) 4)
    | none => .next (s.retire d (BitVec.allOnes 64) 4))

/-! ### Translation and fetch (R174, R358, R359) -/

/-- A live pin of the partition, or a farm's pinned save region, overlaps a range of virtual addresses. -/
def State.pinnedVa (s : State) (part : BitVec 3) (lo hi : Nat) : Bool :=
  s.strands.any (fun t => t.exists_ && t.part == part && t.pins.toList.any (fun p =>
    p.live && !p.revoked && decide (p.base.toNat < hi) && decide (lo < p.base.toNat + p.len.toNat))) ||
  s.farms.any (fun f => f.part == part && f.regionPinned && decide (f.fd.saveva.toNat < hi) &&
    decide (lo < f.fd.saveva.toNat + 0x100000 * f.fd.nstrands.toNat))

/-- Drop the translations of a partition in a range from every core. -/
def State.dropTlb (s : State) (part : BitVec 3) (lo hi : Nat) : State :=
  s.cores.foldl (fun s c => s.modCore c.1 (fun c => { c with
    tlb := c.tlb.filter (fun e => !(e.part == part && decide (e.vpn * 2 ^ levelShift e.level < hi) &&
      decide (lo < (e.vpn + 1) * 2 ^ levelShift e.level))) })) s

/-- A buffered store of a partition's strand writes in a range of virtual addresses. -/
def storesIn (part : BitVec 3) (lo hi : Nat) (t : Strand) (b : BufferedStore) : Bool :=
  t.part == part && decide (b.va < hi) && decide (lo < b.va + b.keys.length)

/-- A buffered store in the range, another strand's, is performed soon: it may be now, or its loads go on by themselves. -/
def State.storesAhead (s : State) (part : BitVec 3) (lo hi : Nat) : Bool :=
  s.others.any (fun t => (List.range t.sbuf.length).any (fun n =>
    match t.sbuf[n]? with
    | some b => storesIn part lo hi t b && (t.storeReady n || t.loadsGoOn 0 0 b)
    | none => false))

/-- The buffered stores in the range that still wait will be translated again (R358, log 62). -/
def State.rewalkStores (s : State) (part : BitVec 3) (lo hi : Nat) : State :=
  s.mapStrands (fun t => { t with sbuf := t.sbuf.map (fun b => if storesIn part lo hi t b then { b with rewalk := true } else b) })

/-- The strand's own stores are performed, other strands' stores in the range that can be, then the translations are dropped:
no access performed later uses one (R358). -/
def execTlbi (d a b : Reg) (s : State) : Res :=
  kernelOnly s (fun s => withRegs [d, a, b] s (fun s =>
    let lo := if s.g b = 0 then 0 else (s.g a).toNat
    let hi := if s.g b = 0 then 2 ^ 64 else (s.g a).toNat + (s.g b).toNat
    if s.pinnedVa s.cur.part lo hi then .next (s.retire d 1 4)
    else if s.cur.sbuf != [] || s.storesAhead s.cur.part lo hi then .next s.stall
    else .next (((s.dropTlb s.cur.part lo hi).rewalkStores s.cur.part lo hi).retire d 0 4)))

/-- Waits until the store buffer is empty, cleans the data L1, invalidates the instruction L1 and forgets fetched bytes. -/
def execSync (s : State) : Res :=
  if s.cur.sbuf ≠ [] then .next s.stall
  else .next ((s.modCore s.cur.coreNo (fun c => { c with dirty := [], ilines := [], stale := [] })).advance 4)

end

end Sys2Proof.Machine
end

