-- ==== Sys2Proof/Machine/PinOps.lean ====
section
/-! DEFINITION. Pin instructions: major 0x1C (R123, R171, R173, R295 to R297). -/

namespace Sys2Proof.Machine

noncomputable section

/-- A pin number that an instruction may name. -/
def pinNoOk (k : Reg) : Bool := decide (1 ≤ k.toNat) && decide (k.toNat ≤ 7)

/-- Step 1 of R171. -/
def pinRangeOk (base len : Nat) : Bool :=
  decide (1 ≤ len) && decide (len ≤ 2 ^ 36) && decide (base + len ≤ 2 ^ 55) &&
  (decide (base + len ≤ windowBase) || decide (windowBase ≤ base)) &&
  !(decide (base < sliceVa + 64) && decide (sliceVa < base + len))

/-- Step 7 of R171. -/
def newPin (m : BitVec 3) (base len first : Nat) (xs : List PinExtent) : Pin :=
  { live := true, revoked := false, rights := m, base := BitVec.ofNat 55 base, len := BitVec.ofNat 37 len,
    xfirst := BitVec.ofNat 11 first, extents := xs, stop := 0 }

/-- PINCAP: the extents needed in twelve bits; of a count that has no place there the spec states no value (log 54). -/
def State.pinCap (s : State) (base n : Nat) : Res :=
  if n < 4096 then s.trap cPINCAP base n
  else
    let (d, s) := s.draw
    s.trap cPINCAP base (d % 4096)

/-- `pin` is precise: it changes nothing unless every step of R171 succeeds. -/
def execPin (k a b : Reg) (m : BitVec 3) (s : State) : Res :=
  checked (pinNoOk k) s (fun s => withRegs [a, b] s (fun s =>
    let base := (s.g a).toNat
    let len := (s.g b).toNat
    let old := s.cur.pins.getD k.toNat Pin.idle
    if m = 0 ∨ !pinRangeOk base len then s.trap cACCESS base m.toNat
    else if old.live ∧ !old.revoked then s.trap cPINSTATE base k.toNat
    else
      match rangeExtents s s.cur m base len with
      | .error x => s.stopped x
      | .ok xs =>
        let used := s.tableUsed s.cur.coreNo
        if tableSize < used + xs.length then s.pinCap base xs.length
        else .next ((s.modCur (fun t => { t with pins := t.pins.setIfInBounds k.toNat (newPin m base len used xs) })).advance 4)))

/-- An incomplete entry that names pin k. -/
def Strand.pinBusy (t : Strand) (k : Nat) : Bool :=
  t.viq.any (fun e => !e.complete && (t.memUse e).pins.any (fun j => j.toNat == k))

/-- A transfer that the strand started on pin k has neither delivered nor stopped. -/
def State.pinMoves (s : State) (key k : Nat) : Bool :=
  s.bte.any (fun c => c.key == key && (c.spin.toNat == k || c.dpin.toNat == k)) ||
  s.colls.any (fun c => c.key == key && decide (c.stage < 3) && (c.spin.toNat == k || c.dpin.toNat == k))

def execUnpin (k : Reg) (s : State) : Res :=
  checked (pinNoOk k) s (fun s =>
    if s.cur.pinBusy k.toNat || s.pinMoves s.cur.key k.toNat then .next s.stall
    else .next ((s.unpinOne s.cur.key k.toNat).advance 4).poll)

/-- The value `pinq` reads (R207, R297). -/
def State.pinQuery (s : State) (k sel : Nat) : Nat :=
  let p := s.cur.pins.getD k Pin.idle
  if sel = 4 then tableSize - s.tableUsed s.cur.coreNo
  else if k = 0 then 0
  else if sel = 3 then p.xfirst.toNat + 2 ^ 16 * p.extents.length
  else (pinWords p).getD sel 0

def execPinq (d k sel : Reg) (s : State) : Res :=
  checked (decide (k.toNat ≤ 7) && decide (sel.toNat ≤ 4)) s (fun s => withRegs [d] s (fun s =>
    .next (s.retire d (wNat (s.pinQuery k.toNat sel.toNat)) 4)))

end

end Sys2Proof.Machine
end

