-- ==== Sys2Proof/Machine/HostPort.lean ====
section
/-! DEFINITION. The host side: command and response ports, CXL.mem, slot service, scrub, clock and heat, extents being
released (R16 to R21, R42, R43, R45 to R51). -/

namespace Sys2Proof.Machine

noncomputable section

/-! ### Ports (R47, R48, R50) -/

/-- Whether the command port takes records (R50). -/
def State.portOpen (s : State) : Bool := s.mode == .ready || s.mode == .failed || s.mode == .tripped

/-- BAR0 answers. -/
def State.barAnswers (s : State) : Bool := s.mode != .off

/-- A field of some bytes: n of them from byte `off`. -/
def byteField (bs : List Byte) (off n : Nat) : Nat := leNat ((bs.drop off).take n)

/-- The record that 64 bytes hold: the header's fields, then ARG0 to ARG6 from byte 8 (R51). -/
def recordOf (bs : List Byte) : CmdRec :=
  let arg (n : Nat) : Word := BitVec.ofNat 64 (byteField bs (8 * (n + 1)) 8)
  { opcode := BitVec.ofNat 16 (byteField bs 0 2), tag := BitVec.ofNat 16 (byteField bs 2 2),
    part := BitVec.ofNat 8 (byteField bs 4 1), flags := BitVec.ofNat 8 (byteField bs 5 1),
    rsvd := BitVec.ofNat 16 (byteField bs 6 2),
    arg0 := arg 0, arg1 := arg 1, arg2 := arg 2, arg3 := arg 3, arg4 := arg 4, arg5 := arg 5, arg6 := arg 6 }

/-- The host writes a whole record to the command port. -/
def State.writeRecord (s : State) (r : CmdRec) : State :=
  if !s.barAnswers then s
  else if s.portOpen ∧ s.cmdPort.length < 256 then { s with cmdPort := s.cmdPort ++ [r] }
  else { s with cmdRefused := s.cmdRefused + 1 }

/-- The host writes bytes at the start of the command port: one record, or a write that is refused for its size (R47). -/
def State.writeBytesToPort (s : State) (bs : List Byte) : State :=
  if bs.length = 64 then s.writeRecord (recordOf bs)
  else if s.barAnswers then { s with cmdBadWrite := s.cmdBadWrite + 1 }
  else s

/-- COMMAND_RECORD_REFUSED: a write that is no aligned 64-byte record is counted in CMDBADWRITE; a record that finds the
port full or closed in CMDREFUSED. -/
def execCommandRecordRefused (off len : Nat) (s : State) : Res :=
  if !s.barAnswers then .next s
  else if off % 64 ≠ 0 ∨ len ≠ 64 then .next { s with cmdBadWrite := s.cmdBadWrite + 1 }
  else if s.portOpen ∧ s.cmdPort.length < 256 then .next s
  else .next { s with cmdRefused := s.cmdRefused + 1 }

/-- The 32 bytes of a response record (R52). -/
def respBytes (r : RespRec) : List Byte :=
  leBytes 8 (r.opcode.toNat + r.tag.toNat * 2 ^ 16 + r.part.toNat * 2 ^ 32 + r.status.toNat * 2 ^ 48) ++
  leBytes 8 r.res0.toNat ++ leBytes 8 r.res1.toNat ++ leBytes 8 r.res2.toNat

/-- RESPONSE_PORT_READ. Of an empty port's answer only OPCODE is given; the rest is free (log 2). -/
def execResponsePortRead (s : State) : Res :=
  if !s.barAnswers then .next s
  else
    match s.respPort with
    | r :: rest => .next { s with respPort := rest, hostRead := respBytes r, hostPoison := false }
    | [] =>
      let (d, s) := s.draw
      .next { s with hostRead := leBytes 32 (0xFFFF + 2 ^ 16 * d), hostPoison := false }

/-- COMPLETION_NOTICE: the oldest waiting notice enters the port once it has room. -/
def execCompletionNotice (s : State) : Res :=
  match s.notices with
  | [] => .next s
  | r :: rest => .next (if s.respPort.length < 256 then { s with notices := rest }.pushResp r else s)

/-! ### The status window (R45, R49, R50) -/

/-- DEVSTATE.STATE. -/
def DevMode.code : DevMode → Nat
  | .off => 0
  | .coldStart => 1
  | .warmStart => 2
  | .ready => 3
  | .failed => 4
  | .tripped => 5

/-- DEVSTATE. -/
def State.devState (s : State) : Nat :=
  s.mode.code + 2 ^ 4 * (if s.patch.isSome then 1 else 0) + 2 ^ 16 * s.startStep + 2 ^ 24 * s.warmFail +
  2 ^ 32 * Config.fwver.toNat

/-- Byte n of OWNERS: OWNER and HANDING of stack n. -/
def State.ownersWord (s : State) : Nat :=
  ((List.range 8).map (fun n =>
    ((if (s.stack n).owner then 1 else 0) + (if (s.stack n).handing then 2 else 0)) * 2 ^ (8 * n))).sum

/-- The register of the status window at a BAR0 offset; none outside the window's registers. -/
def State.statusReg (s : State) (off : Nat) : Option Word :=
  let sensor (n : Nat) : Option Word :=
    let x : Sensor := s.sensors.getD n { temp := 0, limit := 0 }
    some (wNat (x.temp.toNat + 2 ^ 16 * x.limit.toNat))
  match off with
  | 0x2000 => some (wNat (if s.portOpen then 256 - s.cmdPort.length else 0))
  | 0x2008 => some s.cmdRefused
  | 0x2010 => some s.cmdBadWrite
  | 0x2018 => some (wNat s.respPort.length)
  | 0x2020 => some (wNat s.devState)
  | 0x2028 => some (wNat s.ownersWord)
  | 0x2030 => some (wNat s.errors.length)
  | 0x2038 => some (wNat (s.power.toNat + 2 ^ 16 * s.powerCap.toNat))
  | 0x2040 => sensor 0
  | 0x2048 => sensor 1
  | 0x2050 => sensor 2
  | 0x2058 => sensor 3
  | 0x2060 => sensor 4
  | 0x2068 => sensor 5
  | 0x2070 => sensor 6
  | 0x2078 => sensor 7
  | 0x2080 => some (wNat (((List.range 36).map (fun n => if s.linkUp n then 2 ^ n else 0)).sum))
  | _ => none

/-- What an aligned 8-byte read of a die's BAR0 finds in the status window: die 1's function holds a copy. In OFF no BAR0
answers, and while tripped only die 0's does (R21). -/
def State.windowRead (s : State) (die : Bool) (off : Nat) : Option Word :=
  if s.mode = .off ∨ (s.mode = .tripped ∧ die = true) then none else s.statusReg off

/-! ### CXL.mem (R45, R46) -/

def execHostCxlMemRead (port : Bool) (pa : BitVec 52) (n : Nat) (s : State) : Res := .next (s.hostAsk port (.read pa.toNat n))

def execHostCxlMemWrite (port : Bool) (pa : BitVec 52) (data : List Byte) (s : State) : Res :=
  .next (s.hostAsk port (.write pa.toNat data))

/-! ### Slots and scrub (R16 to R19) -/

/-- Every slot assigned to P0. -/
def p0Table : BitVec 256 := 0x8888888888888888888888888888888888888888888888888888888888888888

def Stack.table (k : Stack) (pch : Nat) : BitVec 256 := sget p0Table k.tables pch

/-- owner(i): the partition that slot i names. -/
def slotOwner (x : BitVec 256) (i : Nat) : Option Nat :=
  let e := fld x.toNat (4 * (i % 64)) 4
  if 8 ≤ e then some (e % 8) else none

/-- Who slot i serves, given which partitions have a ready beat (R17). -/
def serveSlot (x : BitVec 256) (donate ready : BitVec 8) (i : Nat) : Option Nat :=
  let gives (p : Nat) : Bool := donate.getLsbD p
  let pass : Option Nat :=
    ((List.range 63).filterMap (fun j => slotOwner x (i + j + 1))).find? (fun c => gives c && ready.getLsbD c)
  match slotOwner x i with
  | some o => if ready.getLsbD o then some o else if gives o then pass else none
  | none => pass

/-- A new table takes effect at the next pass through slot 0. -/
def Stack.newPass (k : Stack) (pch slot : Nat) : Stack :=
  if slot ≠ 0 then k
  else
    { k with
      tables := (k.newTables.filter (fun x => x.1 == pch)).foldl (fun t x => sset p0Table t pch x.2) k.tables
      newTables := k.newTables.filter (fun x => x.1 != pch)
      donate := k.newDonate.getD k.donate, newDonate := none }

/-- A slot of a pseudo-channel passes: whom it serves; an idle one ends STARVED. -/
def Stack.passSlot (k : Stack) (pch slot : Nat) (ready : BitVec 8) : Stack :=
  let k := k.newPass pch slot
  let p := serveSlot (k.table pch) k.donate ready slot
  { k with
    served := p.map (BitVec.ofNat 3)
    starved := if p = none then k.starved &&& ~~~(BitVec.twoPow 32 pch) else k.starved }

/-- The beat of a pseudo-channel that scrub reads next, and the stack once it has: of a pass that SCRUB asked for while one has
beats left, else of the patrol (R19, R54). -/
def Stack.scrubNext (k : Stack) (pch : Nat) : Nat × Stack :=
  match sget ((0, 0) : Nat × Nat) k.pass pch with
  | (n, left + 1) => (n, { k with pass := sset ((0, 0) : Nat × Nat) k.pass pch (if left = 0 then (0, 0) else (n + 1, left)) })
  | (_, 0) => let n := sget (0 : Nat) k.patrol pch; (n, { k with patrol := sset (0 : Nat) k.patrol pch ((n + 1) % beatCount) })

/-- Scrub reads the next 64-byte beat of a pseudo-channel. Whether it corrects an error there is a free value; an error that it
cannot correct is a MEMORY_ERROR step (log 57). -/
def State.patrolBeat (s : State) (stack pch : Nat) : State :=
  let n := ((s.stack stack).scrubNext pch).1
  let (d, s) := s.draw
  let s := s.modStack stack (fun k => (k.scrubNext pch).2)
  if d % 2 = 1 then
    (s.modStack stack (fun k => { k with corrected := k.corrected + 1 })).addError 1 stack 0 1 (beatKey stack pch n)
  else s

/-- SLOT_SERVICE. Only a slot that serves nobody lets the pseudo-channel's scrub go on (R19). -/
def execSlotService (stack : BitVec 3) (pch : Reg) (slot : BitVec 6) (ready : BitVec 8) (s : State) : Res :=
  let s := s.modStack stack.toNat (fun k => k.passSlot pch.toNat slot.toNat ready)
  .next (if (s.stack stack.toNat).served = none then s.patrolBeat stack.toNat pch.toNat else s)

def execScrubStarved (stack : BitVec 3) (pch : Reg) (s : State) : Res :=
  .next (s.modStack stack.toNat (fun k => { k with starved := k.starved ||| BitVec.twoPow 32 pch.toNat }))

/-! ### Clock and heat (R21) -/

def State.clockDown (s : State) (die : Bool) : Nat := if die then s.clockDown1 else s.clockDown0

def State.setClockDown (s : State) (die : Bool) (n : Nat) : State :=
  if die then { s with clockDown1 := n } else { s with clockDown0 := n }

/-- Everything that power holds up, gone: what stays is the fuses, the sensors and the counters of free values. -/
def State.powerDown (s : State) : State :=
  { State.reset with
    mode := s.mode, startStep := s.startStep, msix := s.msix, ownerSlots := s.ownerSlots, slotsRevoked := s.slotsRevoked,
    coresOn := s.coresOn, sensors := s.sensors, power := s.power, turns := s.turns, free := s.free, nextFarm := s.nextFarm,
    nextOrder := s.nextOrder }

/-- Commands that the PSC has taken and not completed, other than those that a farm's halt answers: the castlings and the
releases. -/
def State.openCmds (s : State) : List CmdRec :=
  ((List.range 8).map (fun n =>
    (match (s.stack n).hand with | some h => h.resp.toList | none => []) ++ (s.stack n).queue)).flatten ++
  s.extents.filterMap (fun e => e.releasing.map (fun x => x.1)) ++ s.resetResp.toList

/-- The trip: farms discarded as STOP_FARM does, a THERMAL record, TRIPPED, vector 2, then everything but the PSC powered
down. No response is lost (R48): what the loss of power cuts short completes with FAILED (log 58). -/
def State.trip (s : State) (sensor : BitVec 3) : State :=
  let s := (s.farms.filter (fun f => f.state == .queued || f.state == .running || f.state == .held)).foldl
    (fun s f => ((s.discardFarm f.id).answerHalt f.halting 0).finishFarm f .stopped) s
  let s := s.addError 9 sensor.toNat 0 0 0
  let s := s.openCmds.foldl (fun s r => s.respond r 12 0 0 0) s
  { s.powerDown with
    mode := .tripped, msix := s.msix ++ [2], cmdPort := s.cmdPort, cmdRefused := s.cmdRefused, cmdBadWrite := s.cmdBadWrite,
    respPort := s.respPort, notices := s.notices, errors := s.errors, errDropped := s.errDropped, warmFail := s.warmFail,
    patch := s.patch, powerCap := s.powerCap, clockDown0 := s.clockDown0, clockDown1 := s.clockDown1 }

/-- A sensor has reached its limit. -/
def Sensor.at (x : Sensor) : Bool := decide (x.limit ≤ x.temp)

/-- The module's power is measured: a free value (log 3). -/
def State.measure (s : State) : State := let (d, s) := s.draw; { s with power := BitVec.ofNat 16 d }

/-- THROTTLE: a sensor reads a temperature. At its limit, or with power over the cap, the die's clock falls one step; at
0.55 GHz the module trips if the sensor's limit is exceeded still; power over the cap alone does not trip it (log 3). While
tripped, die 0's sensor 10 °C (160 sixteenths) over its limit removes all power. -/
def execThrottle (die : Bool) (sensor : BitVec 3) (temp : BitVec 16) (s : State) : Res :=
  if s.mode = .off then .next s
  else
    let y : Sensor := s.sensors.getD sensor.toNat { temp := 0, limit := 0 }
    let x : Sensor := { y with temp := temp }
    let s := { s with sensors := s.sensors.setIfInBounds sensor.toNat x }.measure
    if s.mode = .tripped then
      .next (if sensor = 0 ∧ x.limit.toNat + 160 ≤ temp.toNat then { s.powerDown with mode := .off } else s)
    else if !x.at && decide (s.power ≤ s.powerCap) then .next s
    else if s.clockDown die < 8 then .next (s.setClockDown die (s.clockDown die + 1))
    else .next (if x.limit < x.temp then s.trip sensor else s)

/-- CLOCK_STEP_UP. -/
def execClockStepUp (die : Bool) (s : State) : Res :=
  let s := s.measure
  if s.sensors.toList.any Sensor.at || decide (s.powerCap < s.power) || s.clockDown die == 0 then .next s
  else .next (s.setClockDown die (s.clockDown die - 1))

/-! ### EXTENT_RELEASE_COMPLETE (R42, R43) -/

/-- The second-tier lines of a range that the vat holds dirty. -/
def State.vatIn (s : State) (lo hi : Nat) : List Nat := s.vatDirty.filter (lineIn lo hi)

/-- Dirty lines dropped by a forced release: a loss record and an error record. A release that finds no dirty line records
nothing: R43 speaks of the lines it drops (log 59). -/
def State.loseLines (s : State) (e : Extent) : State :=
  let ls := s.vatIn e.base (e.base + e.len)
  if ls = [] then s
  else
    let l : Loss := { die := e.die, base := e.base, lines := ls }
    { s with losses := s.losses ++ [l] }.addError 7 (if e.die then 1 else 0) 0
      ls.length (ls.foldl (fun m l => Nat.min m (l * 64)) (e.base + e.len))

/-- Steps 3 to 7 of R42, once the stores in flight are performed. -/
def State.dropExtent (s : State) (e : Extent) (forced : Bool) : State :=
  let lo := e.base
  let hi := e.base + e.len
  let cs := s.cores.map (fun c => c.1)
  let s := ((s.drainRange lo hi).cleanIn cs lo hi).shootIn cs lo hi
  let s := if forced then s.loseLines e else s
  { s with
    vatDirty := s.vatDirty.filter (fun l => !lineIn lo hi l)
    extents := s.extents.filter (fun x => !(x.die == e.die && x.base == lo)) }

/-- Steps 3 to 7 of R42 for an extent that is RELEASING. It waits for a store whose earlier loads go on; one whose loads do not
is a new access when it leaves its buffer (R188, log 31). -/
def execExtentReleaseComplete (die : Bool) (base : BitVec 52) (s : State) : Res :=
  match s.extents.find? (fun e => e.die == die && e.base == base.toNat) with
  | none => .next s
  | some e =>
    match e.releasing with
    | none => .next s
    | some (r, forced) =>
      let lo := e.base
      let hi := e.base + e.len
      let s := s.settleStores (fun _ => true)
      if s.storesGoOn (fun _ => true) lo hi then .next s
      else .next ((s.dropExtent e forced).respond r 0 0 0 0).poll

end

end Sys2Proof.Machine
end

