-- ==== Sys2Proof/Machine/Links.lean ====
section
/-! DEFINITION. The receiving side of the Barlos links, acknowledgements, retraining (R23 to R30, R38). -/

namespace Sys2Proof.Machine

noncomputable section

/-! ### Which flow a flit belongs to (R24) -/

def linkDie (n : BitVec 6) : Bool := decide (18 ≤ n.toNat)
def linkLocal (n : BitVec 6) : BitVec 5 := BitVec.ofNat 5 (n.toNat % 18)

/-- The links a route may use. -/
def Route.outs (r : Route) : List (BitVec 5) := [r.primary, r.alt1, r.alt2, r.alt3].filter (fun l => l != 31)

/-- The route that put a flit on a link: an acknowledgement goes back along it (log 11). -/
def State.backRoute (s : State) (die : Bool) (link : BitVec 5) (label : BitVec 12) : Option Route :=
  s.routes.find? (fun r => r.die == die && r.outFlow == label && r.outs.contains link)

/-- A flit with another label on the next link. -/
def relabel (f : Flit) (label : BitVec 12) : Flit := let g := { f with flow := label }; { g with crc := flitCrc g }

def State.emit (s : State) (n : Nat) (f : Flit) : State := { s with wire := s.wire ++ [(BitVec.ofNat 6 n, f)] }

/-! ### Flows move between links (R28) -/

/-- Every flow of a die that starts here takes the link its route now picks; one that moves resends what is not
acknowledged. R28 says so of a move to an alternate; of a return to the primary link it is the model's choice (log 11). -/
def State.rerouteFlow (s : State) (x : TxFlow) : State :=
  match s.route? x.die 31 x.flow with
  | none => s
  | some r =>
    let now := s.pickLink x.die r
    if now = x.current then s
    else
      let s := s.modTx x.die x.flow (fun y => { y with current := now })
      if x.failed then s else s.putWire x.die x.flow x.unacked

def State.reroute (s : State) : State := s.txFlows.foldl (fun s x => s.rerouteFlow x) s

/-- Retraining starts. -/
def State.startRetrain (s : State) (n : Nat) : State :=
  if (s.link n).state = .up then
    (s.modLink n (fun l => { l with state := .training, attempts := 0, recentBad := [] })).reroute
  else s

/-- A link is among those that a flow may use. -/
def State.mayUse (s : State) (x : TxFlow) (n : Nat) : Bool :=
  match s.route? x.die 31 x.flow with
  | none => false
  | some r => r.outs.any (fun l => linkNo x.die l.toNat == n)

/-- Links that a flow may use and that are not DOWN. -/
def State.hasHope (s : State) (x : TxFlow) : Bool :=
  match s.route? x.die 31 x.flow with
  | none => false
  | some r => r.outs.any (fun l => (s.link (linkNo x.die l.toNat)).state != .down)

/-- Barrier messages lost on a FAILED flow: one record each, naming the barrier (R28, R64). -/
def State.loseBarriers (s : State) (link : Nat) : List (BitVec 4 × List Byte) → State
  | [] => s
  | (k, p) :: r =>
    (if k = 2 then s.addError 6 link 0 (leNat ((p.drop 1).take 2)) 0 else s).loseBarriers link r

/-- Payloads that waited for room in a die's replay buffer are sent while there is room. -/
def State.sendWaiting (s : State) : List (Bool × BitVec 12 × BitVec 4 × List Byte) → State
  | [] => s
  | (die, flow, kind, p) :: r => ((s.sendFlit die flow kind p).1).sendWaiting r

/-- Room in a replay buffer: the payloads that waited are sent in order. -/
def State.sendOn (s : State) : State := { s with txWait := [] }.sendWaiting s.txWait

/-- What stands for a lost payload: its number, and nothing that has an effect, so that its flow goes on once it is renewed
(R30, log 45). -/
def Flit.emptied (f : Flit) : Flit := makeFlit f.seq f.flow 0 []

/-- A local flow of a die is FAILED: what it carries is lost, its room in the replay buffer free, and commands that wait on it
complete LINKDOWN on every rank that can be told. Only the flow's source sees it so (log 11). -/
def State.failFlow (s : State) (link : Nat) (die : Bool) (flow : BitVec 12) : State :=
  match s.txFlows.find? (fun x => x.die == die && x.flow == flow) with
  | none => s
  | some x =>
    let waiting := s.txWait.filter (fun w => w.1 == die && w.2.1 == flow)
    let s := { s.modTx die flow (fun y => { y with failed := true, unacked := y.unacked.map Flit.emptied }) with
               txWait := s.txWait.filter (fun w => !(w.1 == die && w.2.1 == flow)) }
    let s := (s.loseBarriers link (x.unacked.map (fun f => (f.kind, f.payload)))).loseBarriers link (waiting.map (fun w => w.2.2))
    let s := s.sendOn
    (s.colls.filter (fun c => c.die == die && (s.commOf c.die c.comm).any (fun m =>
      m.rank != c.rank && flowLabel m.pkg.toNat m.mdie == flow))).foldl (fun s c => s.linkFail c) s

/-- A link is DOWN. A flow that had it for its last link is FAILED. -/
def State.linkDown (s : State) (n : Nat) : State :=
  let s := ((s.modLink n (fun l => { l with state := .down })).addError 5 n 0 0 0).reroute
  (s.txFlows.filter (fun x => !x.failed && s.mayUse x n && !s.hasHope x)).foldl (fun s x => s.failFlow n x.die x.flow) s

/-! ### Reception (R23, R27, R29) -/

/-- A flit counted as a CRC error; the eighth among 4,096 starts retraining. -/
def State.badFlit (s : State) (n : Nat) : State :=
  let l := s.link n
  let bad := (l.received :: l.recentBad).filter (fun x => decide (l.received < x + 4096))
  let s := s.modLink n (fun l => { l with crcErrors := l.crcErrors + 1, recentBad := bad })
  if 8 ≤ bad.length then s.startRetrain n else s

/-- A flit whose check, KIND or record type fails. -/
def badCheck (f : Flit) : Bool :=
  f.crc != flitCrc f || f.payload.length != 248 || decide (5 ≤ f.kind.toNat) ||
  (f.kind == 4 && !(let t := (ctlOf f.payload).kind.toNat; decide (1 ≤ t) && decide (t ≤ 3)))

/-- An acknowledgement or NAK goes back on the link the flit came in on; the payload's first byte tells them apart. -/
def State.answer (s : State) (n : Nat) (label : BitVec 12) (seq : BitVec 32) (nak : Bool) : State :=
  s.emit n (makeFlit seq label 1 [if nak then 1 else 0])

/-- A payload delivered in order to its die. R23 names no consumer of KIND 0 data: such a payload has no effect (log 11). -/
def State.deliverPayload (s : State) (die : Bool) (f : Flit) : State :=
  match f.kind.toNat with
  | 2 =>
    let x := leNat ((f.payload.drop 1).take 2) % 4096
    (s.arrive ((f.payload.headD 0) != 0) x).1
  | 3 => s.collReceive die 3 f.payload
  | 4 => s.collReceive die 4 f.payload
  | _ => s

def State.rx (s : State) (die : Bool) (flow : BitVec 12) : RxFlow :=
  (s.rxFlows.find? (fun x => x.die == die && x.flow == flow)).getD { die := die, flow := flow, expected := 0, window := [], bad := false }

def State.setRx (s : State) (x : RxFlow) : State :=
  { s with rxFlows := s.rxFlows.filter (fun y => !(y.die == x.die && y.flow == x.flow)) ++ [x] }

/-- Deliver the flits of the window that are next in order. -/
def State.drainRx (s : State) (die : Bool) (flow : BitVec 12) : Nat → State
  | 0 => s
  | n + 1 =>
    let x := s.rx die flow
    match x.window.find? (fun f => f.seq == x.expected) with
    | none => s
    | some f =>
      ((s.setRx { x with expected := x.expected + 1, window := x.window.filter (fun g => g.seq != f.seq) }).deliverPayload
        die f).drainRx die flow n

/-- Flits held out of order at a die. -/
def State.windowUse (s : State) (die : Bool) : Nat := ((s.rxFlows.filter (fun x => x.die == die)).map (fun x => x.window.length)).sum

/-- A flit of a flow that ends here has failed its check (R27). -/
def State.noteBad (s : State) (link : BitVec 6) (f : Flit) : State :=
  match s.route? (linkDie link) (linkLocal link) f.flow with
  | some r => if r.primary = 31 then s.setRx { s.rx (linkDie link) r.outFlow with bad := true } else s
  | none => s

/-- A good flit at the die where its flow ends (R27, R29). One above the expected SEQ is answered by a NAK when it opens a gap
or follows a flit that failed. -/
def State.arriveFlit (s : State) (n : Nat) (die : Bool) (flow : BitVec 12) (f : Flit) : State :=
  let y := s.rx die flow
  let x := { y with bad := false }
  let s := if y.bad then s.setRx x else s
  let ahead := (f.seq - x.expected).toNat
  let gap (s : State) : State := if x.window = [] ∨ y.bad = true then s.answer n f.flow x.expected true else s
  if 2 ^ 31 ≤ ahead then s.answer n f.flow (x.expected - 1) false
  else if ahead = 0 then
    let s := ((s.setRx { x with window := f :: x.window }).drainRx die flow (x.window.length + 1))
    s.answer n f.flow ((s.rx die flow).expected - 1) false
  else if 4096 < ahead ∨ 32768 ≤ s.windowUse die then (if y.bad then s.answer n f.flow x.expected true else s)
  else if x.window.any (fun g => g.seq == f.seq) then gap s
  else gap (s.setRx { x with window := x.window ++ [f] })

/-- A payload flit is received on a link: checked, then passed on or taken (R24, R27). One for which the die has no route
entry is dropped and counted nowhere: R24 speaks of dies on the flow's path only (log 11). -/
def State.receive (s : State) (link : BitVec 6) (f : Flit) : State :=
  let n := link.toNat
  if (s.link n).state ≠ .up then s
  else
    let s := s.modLink n (fun l => { l with received := l.received + 1 })
    if badCheck f then (s.noteBad link f).badFlit n
    else
      match s.route? (linkDie link) (linkLocal link) f.flow with
      | none => s
      | some r =>
        if r.primary = 31 then s.arriveFlit n (linkDie link) r.outFlow f
        else match s.pickLink (linkDie link) r with | some l => s.emit l.toNat (relabel f r.outFlow) | none => s

def execDataFlit (link : BitVec 6) (f : Flit) (s : State) : Res := .next (if f.kind = 1 then s else s.receive link f)

def execBarrierMessage (link : BitVec 6) (f : Flit) (s : State) : Res := .next (if f.kind = 2 then s.receive link f else s)

def execCollectiveData (link : BitVec 6) (f : Flit) (s : State) : Res := .next (if f.kind = 3 then s.receive link f else s)

/-- The record type of a collective control flit. -/
def recordType (f : Flit) : Nat := if f.kind = 4 then (ctlOf f.payload).kind.toNat else 0

def execCommandAnnouncement (link : BitVec 6) (f : Flit) (s : State) : Res :=
  .next (if recordType f = 1 then s.receive link f else s)

def execCompletionStatus (link : BitVec 6) (f : Flit) (s : State) : Res :=
  .next (if recordType f = 2 then s.receive link f else s)

def execBarrierCommandArrival (link : BitVec 6) (f : Flit) (s : State) : Res :=
  .next (if recordType f = 3 then s.receive link f else s)

/-! ### Acknowledgement and replay (R26) -/

/-- A KIND 1 flit on its way back: to the next link, or at the flow's source. -/
def State.goBack (s : State) (link : BitVec 6) (f : Flit) (k : State → TxFlow → State) : State :=
  let n := link.toNat
  if (s.link n).state ≠ .up then s
  else
    let s := s.modLink n (fun l => { l with received := l.received + 1 })
    if badCheck f then s.badFlit n
    else
      match s.backRoute (linkDie link) (linkLocal link) f.flow with
      | none => s
      | some r =>
        if r.inLink = 31 then
          match s.txFlows.find? (fun x => x.die == linkDie link && x.flow == r.inFlow) with
          | some x => k s x
          | none => s
        else s.emit (linkNo (linkDie link) r.inLink.toNat) (relabel f r.inFlow)

/-- Flits up to a SEQ are acknowledged. -/
def acked (seq : BitVec 32) (f : Flit) : Bool := decide ((seq - f.seq).toNat < 2 ^ 31)

def execAcknowledgement (link : BitVec 6) (f : Flit) (s : State) : Res :=
  .next (if f.kind = 1 then
    s.goBack link f (fun s x =>
      (s.modTx x.die x.flow (fun y => { y with unacked := y.unacked.filter (fun g => !acked f.seq g) })).sendOn)
  else s)

/-- Resend a flow's flits from a SEQ, unless it is FAILED. -/
def execNak (link : BitVec 6) (f : Flit) (s : State) : Res :=
  .next (if f.kind = 1 then
    s.goBack link f (fun s x =>
      if x.failed then s else s.putWire x.die x.flow (x.unacked.filter (fun g => !acked (f.seq - 1) g)))
  else s)

def execReplayTimeout (flow : Nat) (s : State) : Res :=
  match s.txFlows.find? (fun x => x.id == flow) with
  | some x => .next (if x.failed then s else s.putWire x.die x.flow x.unacked)
  | none => .next s

/-! ### Retraining (R28) -/

def execLossOfLock (link : BitVec 6) (s : State) : Res := .next (s.startRetrain link.toNat)

def execRetrainComplete (link : BitVec 6) (s : State) : Res :=
  let n := link.toNat
  .next (if (s.link n).state = .training then (s.modLink n (fun l => { l with state := .up, attempts := 0 })).reroute else s)

def execRetrainFail (link : BitVec 6) (s : State) : Res :=
  let n := link.toNat
  .next (if (s.link n).state = .training then
    if 2 ≤ (s.link n).attempts then s.linkDown n else s.modLink n (fun l => { l with attempts := l.attempts + 1 })
  else s)

end

end Sys2Proof.Machine
end

