-- ==== Sys2Proof/Machine/Psc.lean ====
section
/-! DEFINITION. The commands that the PSC carries out (R51 to R67, R240 to R246). -/

namespace Sys2Proof.Machine

noncomputable section

/-! ### Checks before any effect (R50, R53) -/

/-- Argument words from the n-th on are zero. -/
def zeroFrom (r : CmdRec) (n : Nat) : Bool :=
  ([r.arg0, r.arg1, r.arg2, r.arg3, r.arg4, r.arg5, r.arg6].drop n).all (fun x => x == 0)

/-- Complete with a status and no result: RES0 to RES2 read 0 where R54 names no result, or an error status leaves none (log 53). -/
def State.status (s : State) (r : CmdRec) (n : Nat) : Res := .next (s.respond r n 0 0 0)

/-- The checks common to every command but PARTITION_CREATE: `flags` are the FLAGS bits it may set, `device` says that it
is device-wide, `ok` that its arguments are in range. -/
def pscCmd (r : CmdRec) (flags : Nat) (device ok : Bool) (s : State) (k : State → Res) : Res :=
  match s.mode with
  | .ready =>
    if r.rsvd ≠ 0 ∨ flags < r.flags.toNat ∨ ok = false ∨ (device = true ∧ r.part ≠ 0) then s.status r 2
    else if (s.part? r.part.toNat).isNone then s.status r 3
    else k s
  | .failed => s.status r 12
  | .tripped => s.status r 12
  | _ => .next s

/-- An unknown OPCODE. -/
def State.badOp (s : State) (r : CmdRec) : State :=
  match s.mode with
  | .ready => s.respond r 1 0 0 0
  | .failed => s.respond r 12 0 0 0
  | .tripped => s.respond r 12 0 0 0
  | _ => s

/-- Bytes that lie wholly within HBM or wholly within the second tier. -/
def devRange (lo len : Nat) : Bool :=
  decide (lo + len ≤ 0x8000000000) || (decide (0x10000000000 ≤ lo) && decide (lo + len ≤ 0x20000000000))

/-- Where an address of a partition leads, for the PSC. -/
def pscKey (s : State) (p : BitVec 3) (kind : AKind) (va : Nat) : Option Nat :=
  match partLeaf s.asPsc p va with
  | none => none
  | some e =>
    if kind = .read ∧ !e.rights.getLsbD 1 then none
    else
      match physCheck s.asPsc false kind va (e.frame + va % 2 ^ levelShift e.level) with
      | .ok k => some k
      | .error _ => none

/-! ### IDENTIFY, ATTEST, POWER_CAP, FW_PATCH -/

/-- Bits of a list as a number, the first lowest. -/
def bitsNat : List Bool → Nat
  | [] => 0
  | b :: r => (if b then 1 else 0) + 2 * bitsNat r

def State.enrolled (s : State) : Nat := bitsNat (s.ownerSlots.map (fun x => x.isSome))

def execIdentify (r : CmdRec) (s : State) : Res :=
  pscCmd r 0 true (zeroFrom r 1 && (r.arg0 == 0 || devRange r.arg0.toNat Config.certificate.length)) s (fun s =>
    let s' := if r.arg0 = 0 then s else s.homeWrite (keysFrom r.arg0.toNat Config.certificate.length) Config.certificate
    .next (s'.respond r 0 (0x0F28 + Config.stepping.toNat * 2 ^ 16) Config.serial.toNat
      (((List.range 256).filter (fun i => s.coresOn.getLsbD i)).length + s.enrolled * 2 ^ 16 + s.slotsRevoked.toNat * 2 ^ 20)))

def beBytes (n x : Nat) : List Byte := (leBytes n x).reverse

/-- The images of every partition. R67 gives the report's entries no order: the model lists them by partition and then handle
(log 53). -/
def State.images (s : State) : List (Nat × Nat × Image) :=
  ((List.range 8).map (fun p => match s.part? p with
    | some q => q.images.map (fun x => (p, x.1, x.2))
    | none => [])).flatten

/-- The report before its signature (R67). -/
def State.report (s : State) (r : CmdRec) : List Byte :=
  let xs := s.images
  leBytes 8 1 ++ leBytes 8 r.arg1.toNat ++ leBytes 8 r.arg2.toNat ++ beBytes 64 Config.romHash ++
  (match s.patch with | some p => beBytes 64 p.hash | none => List.replicate 64 0) ++ leBytes 8 xs.length ++
  (xs.map (fun x => leBytes 4 x.1 ++ leBytes 4 x.2.1 ++ beBytes 64 x.2.2.hash)).flatten

/-- The 132 bytes of r and s. -/
def signature (m : List Byte) : List Byte :=
  let x := (Config.sign m).take 132
  x ++ List.replicate (132 - x.length) 0

def execAttest (r : CmdRec) (s : State) : Res :=
  let m := s.report r
  let out := m ++ signature m
  pscCmd r 0 true (zeroFrom r 3 && r.arg0.toNat % 64 == 0 && devRange r.arg0.toNat out.length) s (fun s =>
    .next ((s.homeWrite (keysFrom r.arg0.toNat out.length) out).respond r 0 out.length 0 0))

def execPowerCap (r : CmdRec) (s : State) : Res :=
  pscCmd r 0 true (zeroFrom r 1 && decide (800 ≤ r.arg0.toNat) && decide (r.arg0.toNat ≤ 2400)) s (fun s =>
    .next ({ s with powerCap := r.arg0.setWidth 16 }.respond r 0 s.powerCap.toNat 0 0))

/-- R66. How the patch carries its version, key and signature is the patch's own layout (Config.patchParts). -/
def execFwPatch (r : CmdRec) (s : State) : Res :=
  pscCmd r 0 true (zeroFrom r 2 && devRange r.arg0.toNat r.arg1.toNat) s (fun s =>
    let bytes := memReadList s.mem (keysFrom r.arg0.toNat r.arg1.toNat)
    let x := Config.patchParts bytes
    if Config.sha512 x.2.1 = Config.patchKeyHash ∧ Config.ecdsaOk x.2.1 x.2.2.2.2 x.2.2.1 x.2.2.2.1 = true
      ∧ Config.rollbackFloor ≤ x.1 then
      .next ({ s with patch := some { version := x.1, hash := Config.sha512 bytes } }.respond r 0 0 0 0)
    else s.status r 4)

/-! ### LOAD_IMAGE (R65, R240, R241, R244, R246) -/

/-- A section-table entry. -/
structure Section where
  type : Nat
  va : Nat
  off : Nat
  size : Nat
  nrel : Nat
  reloff : Nat
  deriving DecidableEq, Repr

/-- Section i of an image whose table lies at a key. -/
def parseSection (m : Memory) (k : Nat) : Section :=
  { type := memNat m (k + 4) 2, va := memNat m (k + 8) 8, off := memNat m (k + 16) 8, size := memNat m (k + 24) 8,
    nrel := memNat m (k + 36) 4, reloff := memNat m (k + 40) 8 }

def Section.bits (x : Section) : Bool := x.type != 4 && x.type != 5

def Section.loaded (x : Section) : Bool := x.type == 1 || x.type == 2 || x.type == 3

/-- Two loaded sections of an image share an address. -/
def clash : List Section → Bool
  | [] => false
  | x :: r =>
    r.any (fun y => decide (x.va < y.va + y.size) && decide (y.va < x.va + x.size)) || clash r

/-- The sections of an image, when its header passes the checks made before verification. -/
def imageSections (m : Memory) (pa len : Nat) : Option (List Section) :=
  let nsect := memNat m (pa + 8) 4
  let sectoff := memNat m (pa + 16) 8
  let sigoff := memNat m (pa + 56) 8
  if len < 64 ∨ memNat m pa 4 ≠ 0x00464F47 ∨ memNat m (pa + 6) 2 ≠ 2 ∨ len ≠ sigoff + 273
    ∨ len < sectoff + 48 * nsect ∨ len < memNat m (pa + 24) 8 + 32 * memNat m (pa + 12) 4
    ∨ len < memNat m (pa + 32) 8 + memNat m (pa + 40) 4 ∨ memNat m (pa + sigoff) 4 ≠ 0x47495347 then none
  else
    let xs := (List.range nsect).map (fun i => parseSection m (pa + sectoff + 48 * i))
    if xs.any (fun x => x.nrel != 0 || decide (len < x.reloff) || decide (len < x.off) || (x.bits && decide (len < x.off + x.size))) then none
    else some xs

/-- The FDESCs of an image's farm table; none when the table does not lie in the image. -/
def imageFarms (m : Memory) (pa len : Nat) (xs : List Section) : Option (List Fdesc) :=
  let n := memNat m (pa + 44) 4
  let i := memNat m (pa + 48) 4
  if i = 0xFFFFFFFF then (if n = 0 then some [] else none)
  else
    match xs[i]? with
    | none => none
    | some x =>
      if x.type ≠ 6 ∨ x.size < 128 * n ∨ len < x.off + 128 * n then none
      else some ((List.range n).map (fun j => parseFdesc (memNat m (pa + x.off + 128 * j) 128)))

/-- Whether the image's key is an unrevoked owner's and its signature verifies (R65 steps 1 to 4). -/
def State.imageSigned (s : State) (pa len : Nat) : Bool :=
  let b := pa + len - 273
  let key := memReadList s.mem (keysFrom (b + 8) 133)
  let be (k n : Nat) : Nat := leNat (memReadList s.mem (keysFrom k n)).reverse
  (s.ownerSlots.zip (List.range 4)).any (fun x => x.1 == some (Config.sha512 key) && !s.slotsRevoked.getLsbD x.2) &&
    Config.ecdsaOk key (memReadList s.mem (keysFrom pa (len - 273))) (be (b + 141) 66) (be (b + 207) 66)

/-- No core fetches an older value of a byte (R246). -/
def State.forget (s : State) (k : Nat) : State :=
  (s.cores.map (fun c => c.1)).foldl
    (fun s n => s.modCore n (fun c => { c with stale := c.stale.filter (fun x => x.1 != k) })) s

/-- Write bytes of a section; false when a page is not valid, and then the earlier bytes stay. -/
def State.loadBytes (p : BitVec 3) : List Byte → Nat → State → State × Bool
  | [], _, s => (s, true)
  | b :: r, va, s =>
    match pscKey s p .write va with
    | none => (s, false)
    | some k => State.loadBytes p r (va + 1) ((s.homeWrite [k] [b]).forget k)

def State.loadSections (p : BitVec 3) (pa : Nat) : List Section → State → State × Bool
  | [], s => (s, true)
  | x :: r, s =>
    if x.loaded then
      match s.loadBytes p (memReadList s.mem (keysFrom (pa + x.off) x.size)) x.va with
      | (s, true) => State.loadSections p pa r s
      | (s, false) => (s, false)
    else State.loadSections p pa r s

def freeHandle (xs : Sparse Image) : Option Nat := (List.range 16).find? (fun h => !xs.any (fun x => x.1 == h))

/-- Insert an image under a handle, handles rising. -/
def putImage (h : Nat) (i : Image) : Sparse Image → Sparse Image
  | [] => [(h, i)]
  | x :: r => if h < x.1 then (h, i) :: x :: r else x :: putImage h i r

def State.pageBase (s : State) (p : Nat) : Nat := match s.part? p with | some q => q.ptbase.toNat | none => 0

def execLoadImage (r : CmdRec) (s : State) : Res :=
  let pa := r.arg0.toNat
  let len := r.arg1.toNat
  let p := r.part.setWidth 3
  pscCmd r 0 false (zeroFrom r 2 && devRange pa len) s (fun s =>
    if s.pageBase p.toNat = 0 then s.status r 11
    else
      match imageSections s.mem pa len with
      | none => s.status r 2
      | some xs =>
        if s.imageSigned pa len = false then s.status r 4
        else
          match imageFarms s.mem pa len xs with
          | none => s.status r 2
          | some fs =>
            match freeHandle (match s.part? p.toNat with | some q => q.images | none => []) with
            | none => s.status r 10
            | some h =>
              if clash (xs.filter (fun x => x.loaded && x.size != 0)) then s.status r 2
              else
                let i : Image := { farms := fs, hash := Config.sha512 (memReadList s.mem (keysFrom pa len)) }
                match s.loadSections p pa xs with
                | (s, false) => s.status r 2
                | (s, true) =>
                  .next ((s.modPart p.toNat (fun q => { q with images := putImage h i q.images })).respond r 0 h 0 0))

/-! ### START_FARM (R55, R56, R76) -/

/-- Notices that the PSC owes: one for each live farm with NOTIFY, and those waiting in its queue. -/
def State.owed (s : State) : Nat :=
  (s.farms.filter (fun f => f.notify.isSome && (f.state == .queued || f.state == .running || f.state == .held))).length +
  (s.notices.filter (fun n => n.opcode == 4)).length

/-- Checks of every START_FARM. An argument that belongs to another mode is not looked at: ARG1 without DIRECT or RESUME, the
handle and index with one of them (log 53). -/
def startCmd (r : CmdRec) (s : State) (k : State → Res) : Res :=
  pscCmd r 1 false (zeroFrom r 3 && fld r.arg0.toNat 32 30 == 0 && !(r.arg0.getLsbD 62 && r.arg0.getLsbD 63)) s (fun s =>
    if s.pageBase r.part.toNat = 0 then s.status r 11 else k s)

/-- Notice to give when the farm completes. -/
def noticeOf (r : CmdRec) : Option CmdRec := if r.flags.getLsbD 0 then some r else none

/-- Queue a descriptor, or refuse it. -/
def State.startDesc (s : State) (r : CmdRec) (d : Fdesc) : Res :=
  let d := if r.arg2 = 0 then d else { d with argptr := r.arg2 }
  if (noticeOf r).isSome ∧ 4096 ≤ s.owed then s.status r 10
  else
    match s.judge d (r.part.setWidth 3) false with
    | some st => s.status r st
    | none => .next ((s.respond r 0 s.nextFarm 0 0).queueFarm d (noticeOf r)).1

def execStartFarm (r : CmdRec) (s : State) : Res :=
  startCmd r s (fun s =>
    match (s.part? r.part.toNat).bind (fun q => q.images.find? (fun x => x.1 == fld r.arg0.toNat 0 16)) with
    | none => s.status r 8
    | some (_, i) =>
      match i.farms[fld r.arg0.toNat 16 16]? with
      | none => s.status r 2
      | some d => s.startDesc r d)

/-- The keys of an FDESC that lies in a partition's address space; none when a byte is not mapped readable. -/
def fdescKeys (s : State) (p : BitVec 3) (va : Nat) : Option (List Nat) :=
  ((List.range 128).map (fun i => pscKey s p .read (va + i))).foldr
    (fun k o => match k, o with | some k, some l => some (k :: l) | _, _ => none) (some [])

def execStartFarmDirect (r : CmdRec) (s : State) : Res :=
  startCmd r s (fun s =>
    if r.arg1.toNat % 8 ≠ 0 then s.status r 2
    else
      match fdescKeys s (r.part.setWidth 3) r.arg1.toNat with
      | none => s.status r 2
      | some ks => s.startDesc r (parseFdesc (leNat (memReadList s.mem ks))))

/-- The farm that a command of a partition names; one of another partition is no farm to it (log 53). -/
def State.farmOf (s : State) (r : CmdRec) (id : Nat) : Option Farm :=
  match s.farm? id with
  | some f => if f.part.toNat = r.part.toNat then some f else none
  | none => none

/-- A held farm returns to its launch queue, ready now and of age 0. ARG2 has no effect on a resumption, and a farm that is not
HELD gives NOFARM (log 53). -/
def execStartFarmResume (r : CmdRec) (s : State) : Res :=
  startCmd r s (fun s =>
    match s.farmOf r r.arg1.toNat with
    | none => s.status r 8
    | some f =>
      if f.state ≠ .held then s.status r 8
      else if (noticeOf r).isSome ∧ 4096 ≤ s.owed then s.status r 10
      else
        let s := s.respond r 0 f.id 0 0
        .next ({ s.modFarm f.id (fun f => { f with
          state := .queued, ready := true, order := s.nextOrder, readyAt := s.nextOrder, aged := 0,
          notify := match noticeOf r with | some n => some n | none => f.notify }) with nextOrder := s.nextOrder + 1 }).poll)

/-! ### STOP_FARM, PREEMPT, QUERY_FARM (R56 to R58) -/

def FarmState.live (x : FarmState) : Bool := x == .queued || x == .running || x == .held

/-- Stop a farm: one that runs has its strands halted first. `o` is the command to answer. -/
def State.stopFarm (s : State) (f : Farm) (o : Option CmdRec) : State :=
  let answer (s : State) (st : FarmState) : State := match o with | some r => s.respond r 0 st.code 0 0 | none => s
  match f.state with
  | .running => s.requestHalt f.id (.stop o)
  | .queued => (answer ((s.discardFarm f.id).finishFarm f .stopped) .stopped).poll
  | .held => (answer ((s.discardFarm f.id).finishFarm f .stopped) .stopped).poll
  | st => answer s st

def execStopFarm (r : CmdRec) (s : State) : Res :=
  pscCmd r 0 false (zeroFrom r 1) s (fun s =>
    match s.farmOf r r.arg0.toNat with
    | none => s.status r 8
    | some f => .next (s.stopFarm f (some r)))

/-- A farm that has ended answers as a QUEUED or HELD one does: OK and RES0 = 0 (log 53). -/
def execPreempt (r : CmdRec) (s : State) : Res :=
  pscCmd r 0 false (zeroFrom r 2 && decide (r.arg1.toNat ≤ 1)) s (fun s =>
    match s.farmOf r r.arg0.toNat with
    | none => s.status r 8
    | some f =>
      if f.state = .running then
        .next (s.requestHalt f.id (if r.arg1 = 0 then .requeue (some r) else .hold r))
      else s.status r 0)

def execQueryFarm (r : CmdRec) (s : State) : Res :=
  pscCmd r 0 false (zeroFrom r 1) s (fun s =>
    match s.farmOf r r.arg0.toNat with
    | none => s.status r 8
    | some f =>
      .next (s.respond r 0
        (f.state.code + f.grant.toNat * 2 ^ 4 +
          (s.strands.filter (fun t => t.farm == f.id && t.life == .running)).length * 2 ^ 8) f.strips f.res2))

/-! ### Partitions (R53, R54, R55, R59, R381) -/

def State.setPart (s : State) (p : Nat) (q : Option Part) : State := { s with parts := s.parts.setIfInBounds p q }

def execPartitionCreate (r : CmdRec) (s : State) : Res :=
  match s.mode with
  | .ready =>
    let p := r.part.toNat
    let mask := r.arg2.setWidth 8
    if r.rsvd ≠ 0 ∨ r.flags ≠ 0 ∨ zeroFrom r 3 = false ∨ p = 0 ∨ 7 < p ∨ 2 ^ 32 ≤ r.arg0.toNat ∨ fld r.arg0.toNat 0 16 = 0
      ∨ 4 ≤ r.arg1.toNat ∨ 256 ≤ r.arg2.toNat then s.status r 2
    else if (s.part? p).isSome then s.status r 7
    else
      match s.part? 0 with
      | none => .next s
      | some p0 =>
        if mask &&& ~~~p0.stackMask ≠ 0 then s.status r 11
        else
          let q : Part :=
            { weight := BitVec.ofNat 16 r.arg0.toNat, ageLimit := BitVec.ofNat 16 (r.arg0.toNat / 2 ^ 16),
              userCastle := r.arg1.getLsbD 0, isolated := r.arg1.getLsbD 1, stackMask := mask, ptbase := 0, credit := 0,
              images := [] }
          .next (((s.setPart 0 (some { p0 with stackMask := p0.stackMask &&& ~~~mask })).setPart p (some q)).respond r 0 0 0 0).poll
  | .failed => s.status r 12
  | .tripped => s.status r 12
  | _ => .next s

/-- A slot table without one partition's slots: V becomes 0. -/
def clearSlots (p : Nat) (x : BitVec 256) : BitVec 256 :=
  BitVec.ofNat 256 (((List.range 64).map (fun i => (if slotOwner x i = some p then fld x.toNat (4 * i) 3 else fld x.toNat (4 * i) 4)
    * 2 ^ (4 * i))).sum)

/-- The tables without a destroyed partition's slots. R59 names no moment: they change at once, in mid-pass (log 53). -/
def Stack.dropPart (p : Nat) (k : Stack) : Stack :=
  { k with tables := (List.range 32).foldl (fun t i => sset p0Table t i (clearSlots p (k.table i))) k.tables
           newTables := k.newTables.map (fun x => (x.1, clearSlots p x.2)) }

def State.partFarms (s : State) (p : Nat) : List Farm := s.farms.filter (fun f => f.part.toNat == p && f.state.live)

/-- A partition with no live farm ends. -/
def State.endPart (s : State) (p : Nat) : State :=
  let mask : BitVec 8 := match s.part? p with | some q => q.stackMask | none => 0
  (({ s with hbm := s.hbm.map (Stack.dropPart p) } : State).setPart p none).modPart 0
    (fun q => { q with stackMask := q.stackMask ||| mask })

/-- The partition's farms are stopped; the command waits at the head of the port until their strands have halted. -/
def execPartitionDestroy (r : CmdRec) (s : State) : Res :=
  pscCmd r 0 false (zeroFrom r 0) s (fun s =>
    let p := r.part.toNat
    if p = 0 then s.status r 11
    else
      let s := (s.partFarms p).foldl (fun s f => s.stopFarm f none) s
      if s.partFarms p = [] then .next ((s.endPart p).respond r 0 0 0 0).poll
      else .next { s with cmdPort := r :: s.cmdPort })

/-- Entries that name a partition that does not exist. -/
def State.badSlot (s : State) (x : BitVec 256) : Bool :=
  (List.range 64).any (fun i => match slotOwner x i with | some p => (s.part? p).isNone | none => false)

def execSetSlots (r : CmdRec) (s : State) : Res :=
  let st := fld r.arg0.toNat 0 8
  let pch := fld r.arg0.toNat 8 8
  let x : BitVec 256 := r.arg4 ++ r.arg3 ++ r.arg2 ++ r.arg1
  pscCmd r 0 false (zeroFrom r 5 && decide (r.arg0.toNat < 2 ^ 24) && (decide (st < 8) || st == 0xFF) &&
      (decide (pch < 32) || pch == 0xFF) && !s.badSlot x) s (fun s =>
    let ps := if pch = 0xFF then List.range 32 else [pch]
    let put (k : Stack) : Stack :=
      { k with newTables := k.newTables.filter (fun y => !ps.contains y.1) ++ ps.map (fun i => (i, x))
               newDonate := some (BitVec.ofNat 8 (fld r.arg0.toNat 16 8)) }
    let ss := if st = 0xFF then List.range 8 else [st]
    .next ((ss.foldl (fun s i => s.modStack i put) s).respond r 0 0 0 0))

def execSetPageBase (r : CmdRec) (s : State) : Res :=
  pscCmd r 0 false (zeroFrom r 1 && r.arg0.toNat % 0x10000 == 0 && devRange r.arg0.toNat 0x10000) s (fun s =>
    if s.partFarms r.part.toNat ≠ [] then s.status r 5
    else .next ((s.modPart r.part.toNat (fun q => { q with ptbase := r.arg0 })).respond r 0 0 0 0))

/-! ### PIN_REVOKE, CASTLE_STACK (R61, R62) -/

def execPinRevoke (r : CmdRec) (s : State) : Res :=
  pscCmd r 0 false (zeroFrom r 2) s (fun s =>
    let lo := r.arg0.toNat
    let hi := lo + r.arg1.toNat
    let z := s.revokeWhere (fun t p => t.part.toNat == r.part.toNat && p.live && !p.revoked && decide (lo < hi) &&
      decide (p.base.toNat < hi) && decide (lo < p.base.toNat + p.len.toNat))
    .next (z.2.respond r 0 z.1 0 0))

def execCastleStack (r : CmdRec) (s : State) : Res :=
  pscCmd r 0 false (zeroFrom r 1 && r.arg0 &&& ~~~0x307 == 0) s (fun s => .next (s.castleNow r))

/-! ### READ_ERRORS, SCRUB (R19, R64) -/

/-- The 32 bytes of an error record. -/
def errBytes (e : ErrRec) : List Byte :=
  leBytes 8 (e.cls.toNat + e.source.toNat * 2 ^ 32 + e.step.toNat * 2 ^ 48) ++ leBytes 8 e.count.toNat ++
  leBytes 8 e.addr.toNat ++ leBytes 8 e.time.toNat

/-- READ_ERRORS. What the PSC reads and writes in HBM is judged by no access-right entry and never waits in HANDING: R14 lists no
request of the PSC (log 27). -/
def execReadErrors (r : CmdRec) (s : State) : Res :=
  pscCmd r 0 true (zeroFrom r 3 && decide (r.arg2.toNat ≤ 1) && r.arg0.toNat % 32 == 0 &&
      devRange r.arg0.toNat (32 * r.arg1.toNat)) s (fun s =>
    let out := s.errors.take r.arg1.toNat
    let dropped := s.errDropped
    let bytes := (out.map errBytes).flatten
    let s := if r.arg2 = 1 then { s with errors := s.errors.drop out.length, errDropped := 0 } else s
    let s := s.homeWrite (keysFrom r.arg0.toNat bytes.length) bytes
    .next (s.respond r 0 out.length s.errors.length dropped))

/-- The scrub state of the stacks in a mask. -/
def State.scrubState (s : State) (mask : Nat) : Nat :=
  ((List.range 8).map (fun n =>
    if mask.testBit n then
      ((if (s.stack n).starved = BitVec.allOnes 32 then 0 else 1) + (if (s.stack n).starved = 0 then 0 else 2)) * 4 ^ n
    else 0)).sum

/-- ARG1 and ARG2 belong to mode 2; the others do not look at them (log 53). -/
def scrubOk (r : CmdRec) : Bool := zeroFrom r 3 && decide (r.arg0.toNat < 2 ^ 10) && fld r.arg0.toNat 8 2 != 3

def State.scrubAnswer (s : State) (r : CmdRec) : Res := .next (s.respond r 0 (s.scrubState (fld r.arg0.toNat 0 8)) 0 0)

def execScrubQuery (r : CmdRec) (s : State) : Res := pscCmd r 0 true (scrubOk r) s (fun s => s.scrubAnswer r)

/-- Beats of a pseudo-channel that begin below an offset of its stack. -/
def beatsBelow (pch off : Nat) : Nat := off / 2 ^ 13 * 4 + Nat.min 4 (ceilDiv (off % 2 ^ 13 - pch * 2 ^ 8) 64)

/-- The stacks of a mask begin a pass over the bytes from `lo` to `hi` that they hold: every pseudo-channel over its beats there,
in place of a pass that it was at (R19, R54, log 57). -/
def State.scrubPass (s : State) (mask lo hi : Nat) : State :=
  ((List.range 8).filter (fun n => mask.testBit n)).foldl (fun s n =>
    let off (x : Nat) : Nat := Nat.min (x - n * 2 ^ 36) (2 ^ 36)
    s.modStack n (fun k => { k with pass := (List.range 32).foldl (fun m c =>
      let a := beatsBelow c (off lo / 64 * 64)
      let b := beatsBelow c (off hi)
      if lo < hi ∧ a < b then sset ((0, 0) : Nat × Nat) m c (a, b - a) else m) k.pass })) s

/-- A full pass reads and corrects every beat of the stacks. -/
def execScrubFullPass (r : CmdRec) (s : State) : Res :=
  pscCmd r 0 true (scrubOk r) s (fun s => (s.scrubPass (fld r.arg0.toNat 0 8) 0 (2 ^ 39)).scrubAnswer r)

/-- A pass over the beats of a range. -/
def execScrubRange (r : CmdRec) (s : State) : Res :=
  pscCmd r 0 true (scrubOk r && devRange r.arg1.toNat r.arg2.toNat) s (fun s =>
    (s.scrubPass (fld r.arg0.toNat 0 8) r.arg1.toNat (r.arg1.toNat + r.arg2.toNat)).scrubAnswer r)

/-! ### LINK_CONFIG (R24, R28, R63) -/

def linkOk (n : Nat) : Bool := decide (n < 18) || n == 31

/-- Whether an entry is valid: known KIND, numbers in range, unnamed bits zero. -/
def linkEntryOk (x : Nat) : Bool :=
  match x % 16 with
  | 1 =>
    linkOk (fld x 8 5) && linkOk (fld x 48 5) && linkOk (fld x 56 5) && linkOk (fld x 64 5) && linkOk (fld x 72 5) &&
    fld x 5 3 == 0 && fld x 13 3 == 0 && fld x 28 4 == 0 && fld x 44 4 == 0 && fld x 53 3 == 0 && fld x 61 3 == 0 &&
    fld x 69 3 == 0 && fld x 77 51 == 0
  | 2 => fld x 5 3 == 0 && fld x 57 71 == 0
  | 3 => decide (fld x 8 5 < 18) && fld x 5 3 == 0 && fld x 13 3 == 0 && fld x 17 111 == 0
  | 4 => fld x 4 4 == 0 && fld x 24 104 == 0
  | _ => false

/-- A route. A local source sets its flow up, or renews a FAILED one: that goes on with its next number, the lost payloads
resent as empty ones. A new local destination awaits the flow from its start; one given again forgets what came out of order,
which its sender still keeps (R30, log 45). What a destination holds out of order stays while only the source's entry is given
again. -/
def State.addRoute (s : State) (x : Nat) : State :=
  let die := x.testBit 4
  let r : Route :=
    { die := die, inLink := BitVec.ofNat 5 (fld x 8 5), inFlow := BitVec.ofNat 12 (fld x 16 12),
      outFlow := BitVec.ofNat 12 (fld x 32 12), primary := BitVec.ofNat 5 (fld x 48 5), alt1 := BitVec.ofNat 5 (fld x 56 5),
      alt2 := BitVec.ofNat 5 (fld x 64 5), alt3 := BitVec.ofNat 5 (fld x 72 5) }
  let known := s.routes.any (fun y => y.die == die && y.primary == 31 && y.outFlow == r.outFlow)
  let s := { s with routes := s.routes.filter (fun y => !(y.die == die && y.inLink == r.inLink && y.inFlow == r.inFlow)) ++ [r] }
  let s := if r.primary ≠ 31 then s
    else if known then { s with rxFlows := s.rxFlows.map (fun y => if y.die = die ∧ y.flow = r.outFlow then { y with window := [] } else y) }
    else { s with rxFlows := s.rxFlows.filter (fun y => !(y.die == die && y.flow == r.outFlow)) }
  if r.inLink ≠ 31 then s
  else if s.txFlows.any (fun y => y.die == die && y.flow == r.inFlow) then
    s.modTx die r.inFlow (fun y => { y with
      unacked := y.unacked.map (fun f => relabel f r.outFlow), current := if y.failed then none else y.current, failed := false })
  else
    { s with txFlows := s.txFlows ++
      [{ id := (if die then 4096 else 0) + r.inFlow.toNat, die := die, flow := r.inFlow, next := 0, unacked := [],
         current := s.pickLink die r, failed := false }] }

def State.addMember (s : State) (x : Nat) : State :=
  let m : Member :=
    { die := x.testBit 4, comm := BitVec.ofNat 16 (fld x 8 16), rank := BitVec.ofNat 16 (fld x 24 16),
      pkg := BitVec.ofNat 16 (fld x 40 16), mdie := x.testBit 56 }
  { s with members := s.members.filter (fun y => !(y.die == m.die && y.comm == m.comm && y.rank == m.rank)) ++ [m] }

/-- A link is raised; whether it can train is a free value. -/
def State.raiseLink (s : State) (n : Nat) : State × Bool :=
  if (s.link n).state = .up then (s, true)
  else
    let (d, s) := s.draw
    if d % 2 = 1 then ((s.modLink n (fun l => { l with state := .up, attempts := 0, recentBad := [] })).reroute, true)
    else (s, false)

def State.lowerLink (s : State) (n : Nat) : State := if (s.link n).state = .down then s else s.linkDown n

def State.applyLink (s : State) (x : Nat) : State × Bool :=
  match x % 16 with
  | 1 => ((s.addRoute x).reroute, true)
  | 2 => (s.addMember x, true)
  | 3 =>
    let n := linkNo (x.testBit 4) (fld x 8 5)
    if x.testBit 16 then s.raiseLink n else (s.lowerLink n, true)
  | _ => ({ s with pkgNum := BitVec.ofNat 16 (fld x 8 16) }, true)

/-- Apply entries in order; answers the index of one whose link cannot train. -/
def State.applyLinks : List Nat → Nat → State → State × Option Nat
  | [], _, s => (s, none)
  | x :: r, i, s =>
    match s.applyLink x with
    | (s, true) => State.applyLinks r (i + 1) s
    | (s, false) => (s, some i)

def execLinkConfig (r : CmdRec) (s : State) : Res :=
  let n := r.arg1.toNat
  pscCmd r 0 true (zeroFrom r 2 && decide (1 ≤ n) && decide (n ≤ 65536) && devRange r.arg0.toNat (16 * n)) s (fun s =>
    let xs := (List.range n).map (fun i => memNat s.mem (r.arg0.toNat + 16 * i) 16)
    match xs.findIdx? (fun x => !linkEntryOk x) with
    | some i => .next (s.respond r 2 i 0 0)
    | none =>
      match State.applyLinks xs 0 s with
      | (t, none) => .next (t.respond r 0 0 0 0)
      | (t, some i) => .next ({ s with free := t.free }.respond r 9 i 0 0))

/-! ### Extents (R40, R42 to R44) -/

/-- Bytes from one key up to another as memory that nothing has written. -/
def State.clearKeys (s : State) (lo hi : Nat) : State :=
  { s with mem := s.mem.filter (fun c => !(decide (lo ≤ c.1) && decide (c.1 < hi)))
           poison := s.poison.filter (fun c => !(decide (lo / 64 ≤ c.1) && decide (c.1 < hi / 64))) }

def execDcdAccept (r : CmdRec) (s : State) : Res :=
  let die := r.arg0.getLsbD 0
  let base := r.arg1.toNat
  let len := r.arg2.toNat
  pscCmd r 0 true (zeroFrom r 3 && r.arg0 &&& ~~~0xFFFF0001 == 0 && base % 0x10000 == 0 && len % 0x10000 == 0 && len != 0 &&
      decide (len ≤ 2 ^ 40) && decide (0x4000000000000 ≤ base) && decide (base + len ≤ 0x8000000000000) &&
      decide ((s.extents.filter (fun e => e.die == die)).length < 256)) s (fun s =>
    if s.extents.any (fun e => decide (e.base < base + len) && decide (base < e.base + e.len)) then s.status r 7
    else
      let e : Extent :=
        { die := die, tag := BitVec.ofNat 16 (fld r.arg0.toNat 16 16), base := base, len := len, releasing := none }
      .next (({ s with extents := s.extents ++ [e] }.clearKeys base (base + len)).respond r 0 0 0 0))

/-- Steps 1 and 2 of a release; the rest is EXTENT_RELEASE_COMPLETE. A running transfer has its pin, so a normal release answers
BUSY at step 2, and never waits for it at step 3 as R44's case has it (log 53). -/
def State.release (s : State) (r : CmdRec) (force : Bool) : Res :=
  let die := r.arg0.getLsbD 0
  pscCmd r 0 true (zeroFrom r 2 && r.arg0 &&& ~~~0x101 == 0) s (fun s =>
    match s.extents.find? (fun e => e.die == die && e.base == r.arg1.toNat) with
    | none => s.status r 6
    | some e =>
      if e.releasing.isSome then .next { s with cmdPort := r :: s.cmdPort }
      else if !force ∧ s.pinned e.base (e.base + e.len) then s.status r 5
      else
        let s := { s with extents := s.extents.map (fun x =>
          if x.die = die ∧ x.base = e.base then { x with releasing := some (r, force) } else x) }
        .next (if force then (s.revokeKeys (fun _ => true) e.base (e.base + e.len)).2 else s))

def execDcdRelease (r : CmdRec) (s : State) : Res := s.release r false

def execDcdReleaseForced (r : CmdRec) (s : State) : Res := s.release r true

/-! ### The port (R47, R53) -/

/-- The step that a record asks for; none for an unassigned OPCODE. -/
def pscInstr (r : CmdRec) : Option Instr :=
  match r.opcode.toNat with
  | 0x01 => some (.identify r)
  | 0x02 => some (.attest r)
  | 0x03 => some (.loadImage r)
  | 0x04 =>
    if r.arg0.getLsbD 63 && !r.arg0.getLsbD 62 then some (.startFarmDirect r)
    else if r.arg0.getLsbD 62 && !r.arg0.getLsbD 63 then some (.startFarmResume r)
    else some (.startFarm r)
  | 0x05 => some (.stopFarm r)
  | 0x06 => some (.preempt r)
  | 0x07 => some (.queryFarm r)
  | 0x08 => some (.partitionCreate r)
  | 0x09 => some (.partitionDestroy r)
  | 0x0A => some (.setSlots r)
  | 0x0B => some (.setPageBase r)
  | 0x0C => some (.pinRevoke r)
  | 0x0D => some (.castleStack r)
  | 0x0E => some (.readErrors r)
  | 0x0F =>
    match fld r.arg0.toNat 8 2 with
    | 1 => some (.scrubFullPass r)
    | 2 => some (.scrubRange r)
    | _ => some (.scrubQuery r)
  | 0x10 => some (.linkConfig r)
  | 0x11 => some (.dcdAccept r)
  | 0x12 => some (if r.arg0.getLsbD 8 then .dcdReleaseForced r else .dcdRelease r)
  | 0x13 => some (.powerCap r)
  | 0x14 => some (.fwPatch r)
  | 0x15 => some (.resetWarm r)
  | 0x16 => some (.resetCold r)
  | _ => none

/-- The command that a farm's halt answers. -/
def Farm.owes (f : Farm) : Option CmdRec :=
  match f.halting with
  | .requeue r => r
  | .hold r => some r
  | .stop r => r
  | .no => none

/-- Commands that the PSC has taken and not completed. -/
def State.pending (s : State) : List CmdRec := s.farms.filterMap Farm.owes ++ s.openCmds

/-- Commands that carry a partition, and are not device-wide. -/
def partWide (r : CmdRec) : Bool := decide (3 ≤ r.opcode.toNat) && decide (r.opcode.toNat ≤ 13)

/-- Stacks that a command names. -/
def stacksOf (r : CmdRec) : List Nat :=
  match r.opcode.toNat with
  | 0x0A => if fld r.arg0.toNat 0 8 = 0xFF then List.range 8 else [fld r.arg0.toNat 0 8]
  | 0x0D => [r.arg0.toNat % 8]
  | 0x0F => (List.range 8).filter (fun n => r.arg0.getLsbD n)
  | _ => []

/-- Commands on one object run each to completion before the next: a partition with the farms in it, a stack, an extent that
is being released (R53, R246). A DCD_ACCEPT does not wait for a release at its base: it meets OVERLAP (R44). -/
def State.pscBusy (s : State) (r : CmdRec) : Bool :=
  (partWide r && s.pending.any (fun c => partWide c && c.part == r.part)) ||
  (stacksOf r).any (fun n => s.pending.any (fun c => (stacksOf c).contains n)) ||
  (r.opcode == 0x09 && s.farms.any (fun f => f.part.toNat == r.part.toNat && f.halting != .no)) ||
  (r.opcode == 0x12 && s.extents.any (fun e => e.die == r.arg0.getLsbD 0 && e.base == r.arg1.toNat && e.releasing.isSome))

/-- A write through die 0's port has not reached memory: its port holds it (R68). -/
def State.writeHeld (s : State) : Bool :=
  s.hostHeld.any (fun x => !x.1 && (match x.2 with | .write _ _ => true | .read _ _ => false))

/-- Whether the PSC takes the record at the head of the command port now (R48, R50, R53, R68). -/
def State.pscReady (s : State) : Bool :=
  match s.cmdPort with
  | [] => false
  | r :: _ => s.portOpen && decide (s.respPort.length < 256) && s.notices == [] && !s.pscBusy r && !s.writeHeld

end

end Sys2Proof.Machine
end

