-- ==== Sys2Proof/Machine/Start.lean ====
section
/-! DEFINITION. Starting, resets and power (R13, R50, R55, R69 to R72, R381). -/

namespace Sys2Proof.Machine

noncomputable section

/-- What a start leaves of the memory it began with: HBM and the second tier, with their poison. -/
def State.keepMemory (s : State) (base : State) : State :=
  let stays (k : Nat) : Bool := match region k with | .hbm _ => true | .tier2 _ => true | _ => false
  { base with mem := s.mem.filter (fun c => stays c.1), poison := s.poison.filter (fun c => stays (64 * c.1)) }

/-- The regions of 64 MiB that writes in flight go to: stores that no home has performed yet, the updates that a group has left,
held lines, writes to a save area, and accesses that a host port holds (R71). -/
def State.inFlight (s : State) : List Nat :=
  let ofStrand (t : Strand) : List Nat :=
    (t.sbuf.map (fun b => b.keys)).flatten ++ (t.held.map (fun h => h.live)).flatten ++
    (t.viq.map (fun e => (e.inflight.map (fun r => (r.left.map (fun h => h.keys)).flatten)).flatten)).flatten ++
    (t.pendSave.map (fun x => (keysFrom x.1 x.2.1).map (saveKey (s.saveFrames t) t.saveVa t.logid))).flatten
  let ofHost (r : HostReq) : List Nat := match r with | .write pa bs => keysFrom pa bs.length | .read _ _ => []
  (((s.strands.filter (fun t => t.life != .unused)).map ofStrand).flatten ++ (s.hostHeld.map (fun x => ofHost x.2)).flatten).foldl
    (fun l k => insertNat (k / 2 ^ 26) l) []

/-- The module as a start begins. Farms, partitions, images, extents and commands are gone; fuses, sensors and error
records stay. A warm start keeps the patch and the links. -/
def State.beginStart (s : State) (cold : Bool) (r : Option CmdRec) : State :=
  let base : State := { State.reset with
    mode := if cold then .coldStart else .warmStart, startStep := 0, warmFail := s.warmFail,
    patch := if cold then none else s.patch, resetResp := r, msix := s.msix, errors := s.errors, errDropped := s.errDropped,
    power := s.power, sensors := s.sensors, ownerSlots := s.ownerSlots, slotsRevoked := s.slotsRevoked, coresOn := s.coresOn,
    links := if cold then State.reset.links else s.links, scrubDue := if cold then [] else s.inFlight, turns := s.turns, free := s.free, nextFarm := s.nextFarm,
    nextOrder := s.nextOrder }
  s.keepMemory base

/-- Step 2: every core tests itself; which ones pass, and stay enabled, is a free value (R1, R70). -/
def State.selfTest (s : State) : State := let (d, s) := s.draw; { s with coresOn := BitVec.ofNat 256 d }

/-- Step 5: each link trains, or a trained one is confirmed, as a free value says. -/
def State.trainLinks (s : State) : State :=
  let (d, s) := s.draw
  { s with links := Vector.ofFn (fun (i : Fin 36) => { Link.reset with state := if d.testBit i.val then .up else .down }) }

/-- The 64 MiB regions of which the model holds anything. -/
def State.regions (s : State) : List Nat :=
  (s.poison.map (fun c => 64 * c.1)).foldl (fun l k => insertNat (k / 2 ^ 26) l)
    (s.mem.foldl (fun l c => insertNat (c.1 / 2 ^ 26) l) [])

/-- Step 6 of a warm start: the regions that held a write in flight are scrubbed; a free value says of each other one whether the
management core marks it unknown (R71). -/
def State.warmScrub (s : State) : State :=
  let clear (s : State) (n : Nat) : State := s.clearKeys (n * 2 ^ 26) ((n + 1) * 2 ^ 26)
  let s := { s.scrubDue.foldl clear s with scrubDue := [] }
  s.regions.foldl (fun s n => let (d, s) := s.draw; if d % 2 = 1 then clear s n else s) s

/-- The effect of a start step on what the model holds. -/
def State.stepEffect (s : State) (n : Nat) : State :=
  match n with
  | 2 => s.selfTest
  | 5 => s.trainLinks
  | 6 => if s.mode = .coldStart then { s with mem := [], poison := [] } else s.warmScrub
  | _ => s

/-- Step 9: READY, and the response of the reset that asked for the start. -/
def State.becomeReady (s : State) : State :=
  let t := { s with mode := .ready, startStep := 9, warmFail := 0, msix := s.msix ++ [0], resetResp := none }
  match s.resetResp with
  | some r => t.respond r 0 0 0 0
  | none => t

/-- A start fails at the step that runs (R72). -/
def State.failStart (s : State) : State :=
  let (d, s) := s.draw
  let s := s.addError 10 (d % 2) (s.startStep + 1) 0 0
  match s.mode with
  | .coldStart => { s with mode := .failed, resetResp := none }
  | _ =>
    if 2 ≤ s.warmFail then { s.beginStart true s.resetResp with warmFail := 3 }
    else { s with startStep := 0, warmFail := s.warmFail + 1 }

def State.starting (s : State) : Bool := s.mode == .coldStart || s.mode == .warmStart

/-- START_STEP_COMPLETE: the step that runs ends; `ok` is false when it reports an error. -/
def execStartStepComplete (ok : Bool) (s : State) : Res :=
  if s.starting = false then .next s
  else if ok = false then .next s.failStart
  else
    let n := s.startStep + 1
    .next (if n = 9 then s.becomeReady else { s.stepEffect n with startStep := n })

def execStartStepTimeout (s : State) : Res := .next (if s.starting then s.failStart else s)

def execPowerRestore (s : State) : Res :=
  .next (if s.mode = .off then { s.beginStart true none with mem := [], poison := [], warmFail := 0 } else s)

def execPowerLoss (s : State) : Res := .next { s.powerDown with mode := .off, startStep := 0 }

def execResetWarm (r : CmdRec) (s : State) : Res :=
  pscCmd r 0 true (zeroFrom r 0) s (fun s => .next (s.beginStart false (some r)))

/-- RESET_COLD, which runs in FAILED too, and in TRIPPED while no sensor is above its limit (R21, R50). -/
def execResetCold (r : CmdRec) (s : State) : Res :=
  let go (s : State) : Res :=
    if r.rsvd ≠ 0 ∨ r.flags ≠ 0 ∨ zeroFrom r 0 = false ∨ r.part ≠ 0 then s.status r 2
    else if s.mode = .tripped ∧ s.sensors.toList.any (fun x => decide (x.limit < x.temp)) = true then s.status r 5
    else .next (s.beginStart true (some r))
  match s.mode with
  | .ready => go s
  | .failed => go s
  | .tripped => go s
  | _ => .next s

end

end Sys2Proof.Machine
end

