-- ==== Sys2Proof/Machine/Vector.lean ====
section
/-! DEFINITION. Committing a vector, tile or orthogonal instruction: decode checks, capture and posting into the VIQ
(R98, R99, R226, R227, R229, R302, R303, R323). Each definition says what one instruction posts; its work stands in the
family's file and in Engine.lean. -/

namespace Sys2Proof.Machine

noncomputable section

/-- What a posted entry captures (R98, R129). -/
def Strand.capture (t : Strand) (op : VOp) : Caps :=
  let c := t.ctl
  { ga := t.getG op.ga, gb := t.getG op.gb, gd := t.getG op.gd, vl := c.vl, vtype := c.vtype, stripbase := c.stripbase,
    srseed := c.srseed, srsalt := c.srsalt, check := c.check, tshape := c.tshape, tpad := c.tpad, mxsa := c.mxsa,
    mxsb := c.mxsb, xferbar := c.xferbar, rowbytes := c.rowbytes }

/-- The entry that an instruction posts. -/
def Strand.newEntry (t : Strand) (i : Instr) (op : VOp) : VEntry :=
  { instr := i, seq := t.nextSeq, convoy := t.cvy, caps := t.capture op, prog := 0, rowprog := 0, inflight := [],
    done := [], fault := none, complete := false, value := none, skip := none, partA := [], logged := false, bad := [] }

/-- The slot of the synchronising read queue that it allocates (R99). -/
def Strand.newSlots (t : Strand) (i : Instr) : List RqSlot :=
  match rqDest i with
  | some d => [{ seq := t.nextSeq, dest := d, value := none }]
  | none => []

/-- The shape that a committed `tcfg` records (R323). -/
def Strand.recordShape (t : Strand) (i : Instr) : Strand :=
  match i with
  | .tcfg acc =>
    let x := t.ctl.tshape.toNat
    { t with tiles := t.tiles.modify acc.toNat (fun a =>
        { a with recM := BitVec.ofNat 7 (fld x 0 7), recN := BitVec.ofNat 7 (fld x 8 7) }) }
  | _ => t

/-- The entry joins the queue, and what can be done at once is done. -/
def Strand.post (t : Strand) (i : Instr) (op : VOp) : Strand :=
  ({ t with
      viq := t.viq ++ [t.newEntry i op], rq := t.rq ++ t.newSlots i, nextSeq := t.nextSeq + 1,
      cvy := false }.recordShape i).advanceAll

/-- Entries of the VIQ, and slots of the read queue. -/
def viqSize : Nat := 32
def rqSize : Nat := 8

/-- No room for the instruction's entry or its slot (R98, R99). -/
def Strand.queueFull (t : Strand) (i : Instr) : Bool :=
  decide (viqSize ≤ t.viq.length) || ((rqDest i).isSome && decide (rqSize ≤ t.rq.length))

/-- The first byte of [va, va + n) that the partition's scratchpad slices do not hold (R164, R303): slices are 64 KiB. -/
def scratchStop (s : State) (va n : Nat) : Option Stop :=
  if n = 0 then none
  else
    let first := va / 0x10000
    ((List.range (n / 0x10000 + 2)).map (fun j => if j = 0 then va else (first + j) * 0x10000)).findSome? (fun x =>
      if va + n ≤ x then none
      else if scratchVa ≤ x ∧ x < scratchVa + 0x800000 ∧
          sliceEntry s.mem s.cur.cluster ((x - scratchVa) / 0x10000) = 8 + s.cur.part.toNat then none
      else some (.trap cACCESS x 2))

/-- An access that takes ACCESS precisely at commit: an unaligned base of `vamo`, a `vgscr` target outside the
partition's scratchpad slices (R302, R303). -/
def commitStop (s : State) (i : Instr) : Option Stop :=
  let t := s.cur
  let unaligned (a : Reg) : Option Stop :=
    let x := (t.getG a).toNat
    if x % (vtSew t.ctl.vtype / 8) = 0 then none else some (.trap cACCESS x 4)
  match i with
  | .vamoAdd _ _ _ _ a _ => unaligned a
  | .vamoMin _ _ _ _ a _ => unaligned a
  | .vamoMax _ _ _ _ a _ => unaligned a
  | .vamoSwap _ _ _ _ a _ => unaligned a
  | .vgscr _ _ _ d _ _ => scratchStop s (t.getG d).toNat (t.ctl.vl.toNat * t.ctl.rowbytes.toNat)
  | _ => none

/-- Commit an instruction of `len` bytes. -/
def post (i : Instr) (op : VOp) (len : Nat) (s : State) : Res :=
  checked (op.legal s.cur) s (fun s => withRegs [op.ga, op.gb, op.gd] s (fun s =>
    if s.cur.queueFull i then .next s.stall
    else
      match commitStop s i with
      | some x => s.stopped x
      | none => .next ((s.modCur (fun t => t.post i op)).advance len)))

/-- A word with a prefix takes 8 bytes. -/
def vxLen (x : VX) : Nat := if x.ext then 8 else 4

def execVadd (x : VX) (d : Reg) (a : Reg) (b : Reg) (s : State) : Res := post (.vadd x d a b) (opVadd x d a b) (vxLen x) s
def execVsub (x : VX) (d : Reg) (a : Reg) (b : Reg) (s : State) : Res := post (.vsub x d a b) (opVsub x d a b) (vxLen x) s
def execVmul (x : VX) (d : Reg) (a : Reg) (b : Reg) (s : State) : Res := post (.vmul x d a b) (opVmul x d a b) (vxLen x) s
def execVmulh (x : VX) (d : Reg) (a : Reg) (b : Reg) (s : State) : Res := post (.vmulh x d a b) (opVmulh x d a b) (vxLen x) s
def execVmulhu (x : VX) (d : Reg) (a : Reg) (b : Reg) (s : State) : Res := post (.vmulhu x d a b) (opVmulhu x d a b) (vxLen x) s
def execVand (x : VX) (d : Reg) (a : Reg) (b : Reg) (s : State) : Res := post (.vand x d a b) (opVand x d a b) (vxLen x) s
def execVor (x : VX) (d : Reg) (a : Reg) (b : Reg) (s : State) : Res := post (.vor x d a b) (opVor x d a b) (vxLen x) s
def execVxor (x : VX) (d : Reg) (a : Reg) (b : Reg) (s : State) : Res := post (.vxor x d a b) (opVxor x d a b) (vxLen x) s
def execVsll (x : VX) (d : Reg) (a : Reg) (b : Reg) (s : State) : Res := post (.vsll x d a b) (opVsll x d a b) (vxLen x) s
def execVsrl (x : VX) (d : Reg) (a : Reg) (b : Reg) (s : State) : Res := post (.vsrl x d a b) (opVsrl x d a b) (vxLen x) s
def execVsra (x : VX) (d : Reg) (a : Reg) (b : Reg) (s : State) : Res := post (.vsra x d a b) (opVsra x d a b) (vxLen x) s
def execVmin (x : VX) (d : Reg) (a : Reg) (b : Reg) (s : State) : Res := post (.vmin x d a b) (opVmin x d a b) (vxLen x) s
def execVmax (x : VX) (d : Reg) (a : Reg) (b : Reg) (s : State) : Res := post (.vmax x d a b) (opVmax x d a b) (vxLen x) s
def execVminu (x : VX) (d : Reg) (a : Reg) (b : Reg) (s : State) : Res := post (.vminu x d a b) (opVminu x d a b) (vxLen x) s
def execVmaxu (x : VX) (d : Reg) (a : Reg) (b : Reg) (s : State) : Res := post (.vmaxu x d a b) (opVmaxu x d a b) (vxLen x) s
def execVdiv (x : VX) (d : Reg) (a : Reg) (b : Reg) (s : State) : Res := post (.vdiv x d a b) (opVdiv x d a b) (vxLen x) s
def execVdivu (x : VX) (d : Reg) (a : Reg) (b : Reg) (s : State) : Res := post (.vdivu x d a b) (opVdivu x d a b) (vxLen x) s
def execVrem (x : VX) (d : Reg) (a : Reg) (b : Reg) (s : State) : Res := post (.vrem x d a b) (opVrem x d a b) (vxLen x) s
def execVremu (x : VX) (d : Reg) (a : Reg) (b : Reg) (s : State) : Res := post (.vremu x d a b) (opVremu x d a b) (vxLen x) s
def execVsadd (x : VX) (d : Reg) (a : Reg) (b : Reg) (s : State) : Res := post (.vsadd x d a b) (opVsadd x d a b) (vxLen x) s
def execVssub (x : VX) (d : Reg) (a : Reg) (b : Reg) (s : State) : Res := post (.vssub x d a b) (opVssub x d a b) (vxLen x) s
def execVaddScalar (x : VX) (d : Reg) (a : Reg) (b : Reg) (s : State) : Res := post (.vaddScalar x d a b) (opVaddScalar x d a b) (vxLen x) s
def execVsubScalar (x : VX) (d : Reg) (a : Reg) (b : Reg) (s : State) : Res := post (.vsubScalar x d a b) (opVsubScalar x d a b) (vxLen x) s
def execVmulScalar (x : VX) (d : Reg) (a : Reg) (b : Reg) (s : State) : Res := post (.vmulScalar x d a b) (opVmulScalar x d a b) (vxLen x) s
def execVmulhScalar (x : VX) (d : Reg) (a : Reg) (b : Reg) (s : State) : Res := post (.vmulhScalar x d a b) (opVmulhScalar x d a b) (vxLen x) s
def execVmulhuScalar (x : VX) (d : Reg) (a : Reg) (b : Reg) (s : State) : Res := post (.vmulhuScalar x d a b) (opVmulhuScalar x d a b) (vxLen x) s
def execVandScalar (x : VX) (d : Reg) (a : Reg) (b : Reg) (s : State) : Res := post (.vandScalar x d a b) (opVandScalar x d a b) (vxLen x) s
def execVorScalar (x : VX) (d : Reg) (a : Reg) (b : Reg) (s : State) : Res := post (.vorScalar x d a b) (opVorScalar x d a b) (vxLen x) s
def execVxorScalar (x : VX) (d : Reg) (a : Reg) (b : Reg) (s : State) : Res := post (.vxorScalar x d a b) (opVxorScalar x d a b) (vxLen x) s
def execVsllScalar (x : VX) (d : Reg) (a : Reg) (b : Reg) (s : State) : Res := post (.vsllScalar x d a b) (opVsllScalar x d a b) (vxLen x) s
def execVsrlScalar (x : VX) (d : Reg) (a : Reg) (b : Reg) (s : State) : Res := post (.vsrlScalar x d a b) (opVsrlScalar x d a b) (vxLen x) s
def execVsraScalar (x : VX) (d : Reg) (a : Reg) (b : Reg) (s : State) : Res := post (.vsraScalar x d a b) (opVsraScalar x d a b) (vxLen x) s
def execVminScalar (x : VX) (d : Reg) (a : Reg) (b : Reg) (s : State) : Res := post (.vminScalar x d a b) (opVminScalar x d a b) (vxLen x) s
def execVmaxScalar (x : VX) (d : Reg) (a : Reg) (b : Reg) (s : State) : Res := post (.vmaxScalar x d a b) (opVmaxScalar x d a b) (vxLen x) s
def execVminuScalar (x : VX) (d : Reg) (a : Reg) (b : Reg) (s : State) : Res := post (.vminuScalar x d a b) (opVminuScalar x d a b) (vxLen x) s
def execVmaxuScalar (x : VX) (d : Reg) (a : Reg) (b : Reg) (s : State) : Res := post (.vmaxuScalar x d a b) (opVmaxuScalar x d a b) (vxLen x) s
def execVdivScalar (x : VX) (d : Reg) (a : Reg) (b : Reg) (s : State) : Res := post (.vdivScalar x d a b) (opVdivScalar x d a b) (vxLen x) s
def execVdivuScalar (x : VX) (d : Reg) (a : Reg) (b : Reg) (s : State) : Res := post (.vdivuScalar x d a b) (opVdivuScalar x d a b) (vxLen x) s
def execVremScalar (x : VX) (d : Reg) (a : Reg) (b : Reg) (s : State) : Res := post (.vremScalar x d a b) (opVremScalar x d a b) (vxLen x) s
def execVremuScalar (x : VX) (d : Reg) (a : Reg) (b : Reg) (s : State) : Res := post (.vremuScalar x d a b) (opVremuScalar x d a b) (vxLen x) s
def execVsaddScalar (x : VX) (d : Reg) (a : Reg) (b : Reg) (s : State) : Res := post (.vsaddScalar x d a b) (opVsaddScalar x d a b) (vxLen x) s
def execVssubScalar (x : VX) (d : Reg) (a : Reg) (b : Reg) (s : State) : Res := post (.vssubScalar x d a b) (opVssubScalar x d a b) (vxLen x) s
def execVrsub (x : VX) (d : Reg) (a : Reg) (b : Reg) (s : State) : Res := post (.vrsub x d a b) (opVrsub x d a b) (vxLen x) s
def execVfadd (x : VX) (d : Reg) (a : Reg) (b : Reg) (s : State) : Res := post (.vfadd x d a b) (opVfadd x d a b) (vxLen x) s
def execVfsub (x : VX) (d : Reg) (a : Reg) (b : Reg) (s : State) : Res := post (.vfsub x d a b) (opVfsub x d a b) (vxLen x) s
def execVfmul (x : VX) (d : Reg) (a : Reg) (b : Reg) (s : State) : Res := post (.vfmul x d a b) (opVfmul x d a b) (vxLen x) s
def execVfdiv (x : VX) (d : Reg) (a : Reg) (b : Reg) (s : State) : Res := post (.vfdiv x d a b) (opVfdiv x d a b) (vxLen x) s
def execVfsqrt (x : VX) (d : Reg) (a : Reg) (s : State) : Res := post (.vfsqrt x d a) (opVfsqrt x d a) (vxLen x) s
def execVfmin (x : VX) (d : Reg) (a : Reg) (b : Reg) (s : State) : Res := post (.vfmin x d a b) (opVfmin x d a b) (vxLen x) s
def execVfmax (x : VX) (d : Reg) (a : Reg) (b : Reg) (s : State) : Res := post (.vfmax x d a b) (opVfmax x d a b) (vxLen x) s
def execVfsgnj (x : VX) (d : Reg) (a : Reg) (b : Reg) (s : State) : Res := post (.vfsgnj x d a b) (opVfsgnj x d a b) (vxLen x) s
def execVfsgnjn (x : VX) (d : Reg) (a : Reg) (b : Reg) (s : State) : Res := post (.vfsgnjn x d a b) (opVfsgnjn x d a b) (vxLen x) s
def execVfsgnjx (x : VX) (d : Reg) (a : Reg) (b : Reg) (s : State) : Res := post (.vfsgnjx x d a b) (opVfsgnjx x d a b) (vxLen x) s
def execVfclass (x : VX) (d : Reg) (a : Reg) (s : State) : Res := post (.vfclass x d a) (opVfclass x d a) (vxLen x) s
def execVfaddScalar (x : VX) (d : Reg) (a : Reg) (b : Reg) (s : State) : Res := post (.vfaddScalar x d a b) (opVfaddScalar x d a b) (vxLen x) s
def execVfsubScalar (x : VX) (d : Reg) (a : Reg) (b : Reg) (s : State) : Res := post (.vfsubScalar x d a b) (opVfsubScalar x d a b) (vxLen x) s
def execVfmulScalar (x : VX) (d : Reg) (a : Reg) (b : Reg) (s : State) : Res := post (.vfmulScalar x d a b) (opVfmulScalar x d a b) (vxLen x) s
def execVfdivScalar (x : VX) (d : Reg) (a : Reg) (b : Reg) (s : State) : Res := post (.vfdivScalar x d a b) (opVfdivScalar x d a b) (vxLen x) s
def execVfsqrtScalar (x : VX) (d : Reg) (a : Reg) (s : State) : Res := post (.vfsqrtScalar x d a) (opVfsqrtScalar x d a) (vxLen x) s
def execVfminScalar (x : VX) (d : Reg) (a : Reg) (b : Reg) (s : State) : Res := post (.vfminScalar x d a b) (opVfminScalar x d a b) (vxLen x) s
def execVfmaxScalar (x : VX) (d : Reg) (a : Reg) (b : Reg) (s : State) : Res := post (.vfmaxScalar x d a b) (opVfmaxScalar x d a b) (vxLen x) s
def execVfsgnjScalar (x : VX) (d : Reg) (a : Reg) (b : Reg) (s : State) : Res := post (.vfsgnjScalar x d a b) (opVfsgnjScalar x d a b) (vxLen x) s
def execVfsgnjnScalar (x : VX) (d : Reg) (a : Reg) (b : Reg) (s : State) : Res := post (.vfsgnjnScalar x d a b) (opVfsgnjnScalar x d a b) (vxLen x) s
def execVfsgnjxScalar (x : VX) (d : Reg) (a : Reg) (b : Reg) (s : State) : Res := post (.vfsgnjxScalar x d a b) (opVfsgnjxScalar x d a b) (vxLen x) s
def execVfclassScalar (x : VX) (d : Reg) (a : Reg) (s : State) : Res := post (.vfclassScalar x d a) (opVfclassScalar x d a) (vxLen x) s
def execVfmacc (x : VX) (d : Reg) (a : Reg) (b : Reg) (s : State) : Res := post (.vfmacc x d a b) (opVfmacc x d a b) (vxLen x) s
def execVfmsac (x : VX) (d : Reg) (a : Reg) (b : Reg) (s : State) : Res := post (.vfmsac x d a b) (opVfmsac x d a b) (vxLen x) s
def execVfnmacc (x : VX) (d : Reg) (a : Reg) (b : Reg) (s : State) : Res := post (.vfnmacc x d a b) (opVfnmacc x d a b) (vxLen x) s
def execVfnmsac (x : VX) (d : Reg) (a : Reg) (b : Reg) (s : State) : Res := post (.vfnmsac x d a b) (opVfnmsac x d a b) (vxLen x) s
def execVfmaccScalar (x : VX) (d : Reg) (a : Reg) (b : Reg) (s : State) : Res := post (.vfmaccScalar x d a b) (opVfmaccScalar x d a b) (vxLen x) s
def execVfmsacScalar (x : VX) (d : Reg) (a : Reg) (b : Reg) (s : State) : Res := post (.vfmsacScalar x d a b) (opVfmsacScalar x d a b) (vxLen x) s
def execVfnmaccScalar (x : VX) (d : Reg) (a : Reg) (b : Reg) (s : State) : Res := post (.vfnmaccScalar x d a b) (opVfnmaccScalar x d a b) (vxLen x) s
def execVfnmsacScalar (x : VX) (d : Reg) (a : Reg) (b : Reg) (s : State) : Res := post (.vfnmsacScalar x d a b) (opVfnmsacScalar x d a b) (vxLen x) s
def execVmacc (x : VX) (d : Reg) (a : Reg) (b : Reg) (s : State) : Res := post (.vmacc x d a b) (opVmacc x d a b) (vxLen x) s
def execVmaccScalar (x : VX) (d : Reg) (a : Reg) (b : Reg) (s : State) : Res := post (.vmaccScalar x d a b) (opVmaccScalar x d a b) (vxLen x) s
def execVwmacc (x : VX) (d : Reg) (a : Reg) (b : Reg) (s : State) : Res := post (.vwmacc x d a b) (opVwmacc x d a b) (vxLen x) s
def execVeq (x : VX) (d : PReg) (a : Reg) (b : Reg) (s : State) : Res := post (.veq x d a b) (opVeq x d a b) (vxLen x) s
def execVne (x : VX) (d : PReg) (a : Reg) (b : Reg) (s : State) : Res := post (.vne x d a b) (opVne x d a b) (vxLen x) s
def execVlt (x : VX) (d : PReg) (a : Reg) (b : Reg) (s : State) : Res := post (.vlt x d a b) (opVlt x d a b) (vxLen x) s
def execVle (x : VX) (d : PReg) (a : Reg) (b : Reg) (s : State) : Res := post (.vle x d a b) (opVle x d a b) (vxLen x) s
def execVltu (x : VX) (d : PReg) (a : Reg) (b : Reg) (s : State) : Res := post (.vltu x d a b) (opVltu x d a b) (vxLen x) s
def execVleu (x : VX) (d : PReg) (a : Reg) (b : Reg) (s : State) : Res := post (.vleu x d a b) (opVleu x d a b) (vxLen x) s
def execVfeq (x : VX) (d : PReg) (a : Reg) (b : Reg) (s : State) : Res := post (.vfeq x d a b) (opVfeq x d a b) (vxLen x) s
def execVflt (x : VX) (d : PReg) (a : Reg) (b : Reg) (s : State) : Res := post (.vflt x d a b) (opVflt x d a b) (vxLen x) s
def execVfle (x : VX) (d : PReg) (a : Reg) (b : Reg) (s : State) : Res := post (.vfle x d a b) (opVfle x d a b) (vxLen x) s
def execVfunord (x : VX) (d : PReg) (a : Reg) (b : Reg) (s : State) : Res := post (.vfunord x d a b) (opVfunord x d a b) (vxLen x) s
def execVeqScalar (x : VX) (d : PReg) (a : Reg) (b : Reg) (s : State) : Res := post (.veqScalar x d a b) (opVeqScalar x d a b) (vxLen x) s
def execVneScalar (x : VX) (d : PReg) (a : Reg) (b : Reg) (s : State) : Res := post (.vneScalar x d a b) (opVneScalar x d a b) (vxLen x) s
def execVltScalar (x : VX) (d : PReg) (a : Reg) (b : Reg) (s : State) : Res := post (.vltScalar x d a b) (opVltScalar x d a b) (vxLen x) s
def execVleScalar (x : VX) (d : PReg) (a : Reg) (b : Reg) (s : State) : Res := post (.vleScalar x d a b) (opVleScalar x d a b) (vxLen x) s
def execVltuScalar (x : VX) (d : PReg) (a : Reg) (b : Reg) (s : State) : Res := post (.vltuScalar x d a b) (opVltuScalar x d a b) (vxLen x) s
def execVleuScalar (x : VX) (d : PReg) (a : Reg) (b : Reg) (s : State) : Res := post (.vleuScalar x d a b) (opVleuScalar x d a b) (vxLen x) s
def execVfeqScalar (x : VX) (d : PReg) (a : Reg) (b : Reg) (s : State) : Res := post (.vfeqScalar x d a b) (opVfeqScalar x d a b) (vxLen x) s
def execVfltScalar (x : VX) (d : PReg) (a : Reg) (b : Reg) (s : State) : Res := post (.vfltScalar x d a b) (opVfltScalar x d a b) (vxLen x) s
def execVfleScalar (x : VX) (d : PReg) (a : Reg) (b : Reg) (s : State) : Res := post (.vfleScalar x d a b) (opVfleScalar x d a b) (vxLen x) s
def execVfunordScalar (x : VX) (d : PReg) (a : Reg) (b : Reg) (s : State) : Res := post (.vfunordScalar x d a b) (opVfunordScalar x d a b) (vxLen x) s
def execPand (x : VX) (d : PReg) (a : PReg) (b : PReg) (s : State) : Res := post (.pand x d a b) (opPand x d a b) (vxLen x) s
def execPor (x : VX) (d : PReg) (a : PReg) (b : PReg) (s : State) : Res := post (.por x d a b) (opPor x d a b) (vxLen x) s
def execPxor (x : VX) (d : PReg) (a : PReg) (b : PReg) (s : State) : Res := post (.pxor x d a b) (opPxor x d a b) (vxLen x) s
def execPandn (x : VX) (d : PReg) (a : PReg) (b : PReg) (s : State) : Res := post (.pandn x d a b) (opPandn x d a b) (vxLen x) s
def execPnot (x : VX) (d : PReg) (a : PReg) (s : State) : Res := post (.pnot x d a) (opPnot x d a) (vxLen x) s
def execPset (x : VX) (d : PReg) (a : Reg) (s : State) : Res := post (.pset x d a) (opPset x d a) (vxLen x) s
def execPpop (x : VX) (d : Reg) (a : PReg) (s : State) : Res := post (.ppop x d a) (opPpop x d a) (vxLen x) s
def execPfirst (x : VX) (d : Reg) (a : PReg) (s : State) : Res := post (.pfirst x d a) (opPfirst x d a) (vxLen x) s
def execPscan (x : VX) (d : Reg) (a : PReg) (s : State) : Res := post (.pscan x d a) (opPscan x d a) (vxLen x) s
def execPbefore (x : VX) (d : PReg) (a : PReg) (s : State) : Res := post (.pbefore x d a) (opPbefore x d a) (vxLen x) s
def execPmv (x : VX) (d : Reg) (a : PReg) (s : State) : Res := post (.pmv x d a) (opPmv x d a) (vxLen x) s
def execVslideup (x : VX) (d : Reg) (a : Reg) (b : Reg) (s : State) : Res := post (.vslideup x d a b) (opVslideup x d a b) (vxLen x) s
def execVslidedown (x : VX) (d : Reg) (a : Reg) (b : Reg) (s : State) : Res := post (.vslidedown x d a b) (opVslidedown x d a b) (vxLen x) s
def execVgather (x : VX) (d : Reg) (a : Reg) (b : Reg) (s : State) : Res := post (.vgather x d a b) (opVgather x d a b) (vxLen x) s
def execVcompress (x : VX) (d : Reg) (a : Reg) (s : State) : Res := post (.vcompress x d a) (opVcompress x d a) (vxLen x) s
def execVexpand (x : VX) (d : Reg) (a : Reg) (s : State) : Res := post (.vexpand x d a) (opVexpand x d a) (vxLen x) s
def execVbcast (x : VX) (d : Reg) (a : Reg) (s : State) : Res := post (.vbcast x d a) (opVbcast x d a) (vxLen x) s
def execVmvsv (ext : Bool) (d : Reg) (a : Reg) (b : Reg) (s : State) : Res := post (.vmvsv ext d a b) (opVmvsv ext d a b) (if ext then 8 else 4) s
def execVmvvs (x : VX) (d : Reg) (a : Reg) (b : Reg) (s : State) : Res := post (.vmvvs x d a b) (opVmvvs x d a b) (vxLen x) s
def execViota (x : VX) (d : Reg) (s : State) : Res := post (.viota x d) (opViota x d) (vxLen x) s
def execVmerge (x : VX) (d : Reg) (a : Reg) (b : Reg) (s : State) : Res := post (.vmerge x d a b) (opVmerge x d a b) (vxLen x) s
def execVslide1up (x : VX) (d : Reg) (a : Reg) (b : Reg) (s : State) : Res := post (.vslide1up x d a b) (opVslide1up x d a b) (vxLen x) s
def execVslide1down (x : VX) (d : Reg) (a : Reg) (b : Reg) (s : State) : Res := post (.vslide1down x d a b) (opVslide1down x d a b) (vxLen x) s
def execVredsum (x : VX) (d : Reg) (a : Reg) (s : State) : Res := post (.vredsum x d a) (opVredsum x d a) (vxLen x) s
def execVredmin (x : VX) (d : Reg) (a : Reg) (s : State) : Res := post (.vredmin x d a) (opVredmin x d a) (vxLen x) s
def execVredmax (x : VX) (d : Reg) (a : Reg) (s : State) : Res := post (.vredmax x d a) (opVredmax x d a) (vxLen x) s
def execVredminu (x : VX) (d : Reg) (a : Reg) (s : State) : Res := post (.vredminu x d a) (opVredminu x d a) (vxLen x) s
def execVredmaxu (x : VX) (d : Reg) (a : Reg) (s : State) : Res := post (.vredmaxu x d a) (opVredmaxu x d a) (vxLen x) s
def execVredand (x : VX) (d : Reg) (a : Reg) (s : State) : Res := post (.vredand x d a) (opVredand x d a) (vxLen x) s
def execVredor (x : VX) (d : Reg) (a : Reg) (s : State) : Res := post (.vredor x d a) (opVredor x d a) (vxLen x) s
def execVredxor (x : VX) (d : Reg) (a : Reg) (s : State) : Res := post (.vredxor x d a) (opVredxor x d a) (vxLen x) s
def execVfredsum (x : VX) (d : Reg) (a : Reg) (s : State) : Res := post (.vfredsum x d a) (opVfredsum x d a) (vxLen x) s
def execVfredmin (x : VX) (d : Reg) (a : Reg) (s : State) : Res := post (.vfredmin x d a) (opVfredmin x d a) (vxLen x) s
def execVfredmax (x : VX) (d : Reg) (a : Reg) (s : State) : Res := post (.vfredmax x d a) (opVfredmax x d a) (vxLen x) s
def execVfredsumW (x : VX) (d : Reg) (a : Reg) (s : State) : Res := post (.vfredsumW x d a) (opVfredsumW x d a) (vxLen x) s
def execVcvtFFp64 (x : VX) (d : Reg) (a : Reg) (s : State) : Res := post (.vcvtFFp64 x d a) (opVcvtFFp64 x d a) (vxLen x) s
def execVcvtIFp64 (x : VX) (d : Reg) (a : Reg) (s : State) : Res := post (.vcvtIFp64 x d a) (opVcvtIFp64 x d a) (vxLen x) s
def execVcvtUFp64 (x : VX) (d : Reg) (a : Reg) (s : State) : Res := post (.vcvtUFp64 x d a) (opVcvtUFp64 x d a) (vxLen x) s
def execVcvtFp64I (x : VX) (d : Reg) (a : Reg) (s : State) : Res := post (.vcvtFp64I x d a) (opVcvtFp64I x d a) (vxLen x) s
def execVcvtFFp32 (x : VX) (d : Reg) (a : Reg) (s : State) : Res := post (.vcvtFFp32 x d a) (opVcvtFFp32 x d a) (vxLen x) s
def execVcvtIFp32 (x : VX) (d : Reg) (a : Reg) (s : State) : Res := post (.vcvtIFp32 x d a) (opVcvtIFp32 x d a) (vxLen x) s
def execVcvtUFp32 (x : VX) (d : Reg) (a : Reg) (s : State) : Res := post (.vcvtUFp32 x d a) (opVcvtUFp32 x d a) (vxLen x) s
def execVcvtFp32I (x : VX) (d : Reg) (a : Reg) (s : State) : Res := post (.vcvtFp32I x d a) (opVcvtFp32I x d a) (vxLen x) s
def execVcvtFFp16 (x : VX) (d : Reg) (a : Reg) (s : State) : Res := post (.vcvtFFp16 x d a) (opVcvtFFp16 x d a) (vxLen x) s
def execVcvtIFp16 (x : VX) (d : Reg) (a : Reg) (s : State) : Res := post (.vcvtIFp16 x d a) (opVcvtIFp16 x d a) (vxLen x) s
def execVcvtUFp16 (x : VX) (d : Reg) (a : Reg) (s : State) : Res := post (.vcvtUFp16 x d a) (opVcvtUFp16 x d a) (vxLen x) s
def execVcvtFp16I (x : VX) (d : Reg) (a : Reg) (s : State) : Res := post (.vcvtFp16I x d a) (opVcvtFp16I x d a) (vxLen x) s
def execVcvtFBf16 (x : VX) (d : Reg) (a : Reg) (s : State) : Res := post (.vcvtFBf16 x d a) (opVcvtFBf16 x d a) (vxLen x) s
def execVcvtIBf16 (x : VX) (d : Reg) (a : Reg) (s : State) : Res := post (.vcvtIBf16 x d a) (opVcvtIBf16 x d a) (vxLen x) s
def execVcvtUBf16 (x : VX) (d : Reg) (a : Reg) (s : State) : Res := post (.vcvtUBf16 x d a) (opVcvtUBf16 x d a) (vxLen x) s
def execVcvtBf16I (x : VX) (d : Reg) (a : Reg) (s : State) : Res := post (.vcvtBf16I x d a) (opVcvtBf16I x d a) (vxLen x) s
def execVcvtFE4m3 (x : VX) (d : Reg) (a : Reg) (s : State) : Res := post (.vcvtFE4m3 x d a) (opVcvtFE4m3 x d a) (vxLen x) s
def execVcvtIE4m3 (x : VX) (d : Reg) (a : Reg) (s : State) : Res := post (.vcvtIE4m3 x d a) (opVcvtIE4m3 x d a) (vxLen x) s
def execVcvtUE4m3 (x : VX) (d : Reg) (a : Reg) (s : State) : Res := post (.vcvtUE4m3 x d a) (opVcvtUE4m3 x d a) (vxLen x) s
def execVcvtII8 (x : VX) (d : Reg) (a : Reg) (s : State) : Res := post (.vcvtII8 x d a) (opVcvtII8 x d a) (vxLen x) s
def execVcvtFE5m2 (x : VX) (d : Reg) (a : Reg) (s : State) : Res := post (.vcvtFE5m2 x d a) (opVcvtFE5m2 x d a) (vxLen x) s
def execVcvtIE5m2 (x : VX) (d : Reg) (a : Reg) (s : State) : Res := post (.vcvtIE5m2 x d a) (opVcvtIE5m2 x d a) (vxLen x) s
def execVcvtUE5m2 (x : VX) (d : Reg) (a : Reg) (s : State) : Res := post (.vcvtUE5m2 x d a) (opVcvtUE5m2 x d a) (vxLen x) s
def execVcvtII16 (x : VX) (d : Reg) (a : Reg) (s : State) : Res := post (.vcvtII16 x d a) (opVcvtII16 x d a) (vxLen x) s
def execVcvtFE2m3 (x : VX) (d : Reg) (a : Reg) (s : State) : Res := post (.vcvtFE2m3 x d a) (opVcvtFE2m3 x d a) (vxLen x) s
def execVcvtIE2m3 (x : VX) (d : Reg) (a : Reg) (s : State) : Res := post (.vcvtIE2m3 x d a) (opVcvtIE2m3 x d a) (vxLen x) s
def execVcvtUE2m3 (x : VX) (d : Reg) (a : Reg) (s : State) : Res := post (.vcvtUE2m3 x d a) (opVcvtUE2m3 x d a) (vxLen x) s
def execVcvtII32 (x : VX) (d : Reg) (a : Reg) (s : State) : Res := post (.vcvtII32 x d a) (opVcvtII32 x d a) (vxLen x) s
def execVcvtFE3m2 (x : VX) (d : Reg) (a : Reg) (s : State) : Res := post (.vcvtFE3m2 x d a) (opVcvtFE3m2 x d a) (vxLen x) s
def execVcvtIE3m2 (x : VX) (d : Reg) (a : Reg) (s : State) : Res := post (.vcvtIE3m2 x d a) (opVcvtIE3m2 x d a) (vxLen x) s
def execVcvtUE3m2 (x : VX) (d : Reg) (a : Reg) (s : State) : Res := post (.vcvtUE3m2 x d a) (opVcvtUE3m2 x d a) (vxLen x) s
def execVcvtII64 (x : VX) (d : Reg) (a : Reg) (s : State) : Res := post (.vcvtII64 x d a) (opVcvtII64 x d a) (vxLen x) s
def execVcvtFT8 (x : VX) (d : Reg) (a : Reg) (s : State) : Res := post (.vcvtFT8 x d a) (opVcvtFT8 x d a) (vxLen x) s
def execVcvtIT8 (x : VX) (d : Reg) (a : Reg) (s : State) : Res := post (.vcvtIT8 x d a) (opVcvtIT8 x d a) (vxLen x) s
def execVcvtUT8 (x : VX) (d : Reg) (a : Reg) (s : State) : Res := post (.vcvtUT8 x d a) (opVcvtUT8 x d a) (vxLen x) s
def execVcvtFT6 (x : VX) (d : Reg) (a : Reg) (s : State) : Res := post (.vcvtFT6 x d a) (opVcvtFT6 x d a) (vxLen x) s
def execVcvtIT6 (x : VX) (d : Reg) (a : Reg) (s : State) : Res := post (.vcvtIT6 x d a) (opVcvtIT6 x d a) (vxLen x) s
def execVcvtUT6 (x : VX) (d : Reg) (a : Reg) (s : State) : Res := post (.vcvtUT6 x d a) (opVcvtUT6 x d a) (vxLen x) s
def execVmxpack (x : VX) (d : Reg) (a : Reg) (b : Reg) (s : State) : Res := post (.vmxpack x d a b) (opVmxpack x d a b) (vxLen x) s
def execVmxunpack (x : VX) (d : Reg) (a : Reg) (b : Reg) (s : State) : Res := post (.vmxunpack x d a b) (opVmxunpack x d a b) (vxLen x) s
def execVexp2 (x : VX) (d : Reg) (a : Reg) (s : State) : Res := post (.vexp2 x d a) (opVexp2 x d a) (vxLen x) s
def execVlog2 (x : VX) (d : Reg) (a : Reg) (s : State) : Res := post (.vlog2 x d a) (opVlog2 x d a) (vxLen x) s
def execVrcp (x : VX) (d : Reg) (a : Reg) (s : State) : Res := post (.vrcp x d a) (opVrcp x d a) (vxLen x) s
def execVrsqrt (x : VX) (d : Reg) (a : Reg) (s : State) : Res := post (.vrsqrt x d a) (opVrsqrt x d a) (vxLen x) s
def execVsinpi (x : VX) (d : Reg) (a : Reg) (s : State) : Res := post (.vsinpi x d a) (opVsinpi x d a) (vxLen x) s
def execVcospi (x : VX) (d : Reg) (a : Reg) (s : State) : Res := post (.vcospi x d a) (opVcospi x d a) (vxLen x) s
def execVtanh (x : VX) (d : Reg) (a : Reg) (s : State) : Res := post (.vtanh x d a) (opVtanh x d a) (vxLen x) s
def execVsigm (x : VX) (d : Reg) (a : Reg) (s : State) : Res := post (.vsigm x d a) (opVsigm x d a) (vxLen x) s
def execVgelu (x : VX) (d : Reg) (a : Reg) (s : State) : Res := post (.vgelu x d a) (opVgelu x d a) (vxLen x) s
def execVerf (x : VX) (d : Reg) (a : Reg) (s : State) : Res := post (.verf x d a) (opVerf x d a) (vxLen x) s
def execVconf (x : VX) (d : Reg) (a : Reg) (s : State) : Res := post (.vconf x d a) (opVconf x d a) (vxLen x) s
def execVlead (x : VX) (d : PReg) (a : Reg) (s : State) : Res := post (.vlead x d a) (opVlead x d a) (vxLen x) s
def execVdupsum (x : VX) (d : Reg) (a : Reg) (b : Reg) (s : State) : Res := post (.vdupsum x d a b) (opVdupsum x d a b) (vxLen x) s
def execVld (x : VX) (w : BitVec 2) (k : BitVec 3) (d : Reg) (a : Reg) (s : State) : Res := post (.vld x w k d a) (opVld x w k d a) (vxLen x) s
def execVlds (x : VX) (w : BitVec 2) (k : BitVec 3) (d : Reg) (a : Reg) (b : Reg) (s : State) : Res := post (.vlds x w k d a b) (opVlds x w k d a b) (vxLen x) s
def execVldx (x : VX) (w : BitVec 2) (k : BitVec 3) (d : Reg) (a : Reg) (b : Reg) (s : State) : Res := post (.vldx x w k d a b) (opVldx x w k d a b) (vxLen x) s
def execVldseg (x : VX) (w : BitVec 2) (k : BitVec 3) (d : Reg) (a : Reg) (nf : BitVec 3) (perm : Option (BitVec 5))
    (s : State) : Res :=
  post (.vldseg x w k d a nf perm) (opVldseg x w k d a nf perm) (vxLen x) s
def execVst (x : VX) (o : Bool) (w : BitVec 2) (k : BitVec 3) (d : Reg) (a : Reg) (s : State) : Res := post (.vst x o w k d a) (opVst x o w k d a) (vxLen x) s
def execVsts (x : VX) (o : Bool) (w : BitVec 2) (k : BitVec 3) (d : Reg) (a : Reg) (b : Reg)
    (s : State) : Res :=
  post (.vsts x o w k d a b) (opVsts x o w k d a b) (vxLen x) s
def execVstx (x : VX) (o : Bool) (w : BitVec 2) (k : BitVec 3) (d : Reg) (a : Reg) (b : Reg)
    (s : State) : Res :=
  post (.vstx x o w k d a b) (opVstx x o w k d a b) (vxLen x) s
def execVstseg (x : VX) (o : Bool) (w : BitVec 2) (k : BitVec 3) (d : Reg) (a : Reg) (nf : BitVec 3)
    (s : State) : Res :=
  post (.vstseg x o w k d a nf) (opVstseg x o w k d a nf) (vxLen x) s
def execVamoAdd (x : VX) (o : Bool) (k : BitVec 3) (d : Reg) (a : Reg) (b : Reg) (s : State) : Res := post (.vamoAdd x o k d a b) (opVamoAdd x o k d a b) (vxLen x) s
def execVamoMin (x : VX) (o : Bool) (k : BitVec 3) (d : Reg) (a : Reg) (b : Reg) (s : State) : Res := post (.vamoMin x o k d a b) (opVamoMin x o k d a b) (vxLen x) s
def execVamoMax (x : VX) (o : Bool) (k : BitVec 3) (d : Reg) (a : Reg) (b : Reg) (s : State) : Res := post (.vamoMax x o k d a b) (opVamoMax x o k d a b) (vxLen x) s
def execVamoSwap (x : VX) (o : Bool) (k : BitVec 3) (d : Reg) (a : Reg) (b : Reg) (s : State) : Res := post (.vamoSwap x o k d a b) (opVamoSwap x o k d a b) (vxLen x) s
def execVgscr (x : VX) (w : BitVec 2) (k : BitVec 3) (d : Reg) (a : Reg) (b : Reg) (s : State) : Res := post (.vgscr x w k d a b) (opVgscr x w k d a b) (vxLen x) s
def execVepop (ext : Bool) (w : BitVec 2) (d : Reg) (b : Reg) (s : State) : Res := post (.vepop ext w d b) (opVepop ext w d b) (if ext then 8 else 4) s
def execTcfg (acc : BitVec 3) (s : State) : Res := post (.tcfg acc) (opTcfg acc) 8 s
def execTzero (acc : BitVec 3) (s : State) : Res := post (.tzero acc) (opTzero acc) 8 s
def execTmma (acc : BitVec 3) (ra : Reg) (rb : Reg) (rs : Reg) (ms : BitVec 3) (fa : BitVec 4) (fb : BitVec 4) (mk : PReg) (ka : BitVec 3) (kb : BitVec 3) (ck : Bool)
    (s : State) : Res :=
  post (.tmma acc ra rb rs ms fa fb mk ka kb ck) (opTmma acc ra rb rs ms fa fb mk ka kb ck) 8 s
def execTmmaV (acc : BitVec 3) (ra : Reg) (rb : Reg) (rs : Reg) (ms : BitVec 3) (fa : BitVec 4) (fb : BitVec 4) (mk : PReg) (ka : BitVec 3) (kb : BitVec 3) (ck : Bool)
    (s : State) : Res :=
  post (.tmmaV acc ra rb rs ms fa fb mk ka kb ck) (opTmmaV acc ra rb rs ms fa fb mk ka kb ck) 8 s
def execTmmas (acc : BitVec 3) (ra : Reg) (rb : Reg) (rs : Reg) (ms : BitVec 3) (fa : BitVec 4) (fb : BitVec 4) (mk : PReg) (ka : BitVec 3) (kb : BitVec 3) (ck : Bool)
    (s : State) : Res :=
  post (.tmmas acc ra rb rs ms fa fb mk ka kb ck) (opTmmas acc ra rb rs ms fa fb mk ka kb ck) 8 s
def execTld (acc : BitVec 3) (ra : Reg) (rb : Reg) (rs : Reg) (ms : BitVec 3) (fa : BitVec 4) (ka : BitVec 3)
    (s : State) : Res :=
  post (.tld acc ra rb rs ms fa ka) (opTld acc ra rb rs ms fa ka) 8 s
def execTst (acc : BitVec 3) (ra : Reg) (rs : Reg) (ms : BitVec 3) (fa : BitVec 4) (ka : BitVec 3)
    (s : State) : Res :=
  post (.tst acc ra rs ms fa ka) (opTst acc ra rs ms fa ka) 8 s
def execTrow (acc : BitVec 3) (ra : Reg) (rb : Reg) (ms : BitVec 3) (s : State) : Res := post (.trow acc ra rb ms) (opTrow acc ra rb ms) 8 s
def execTcol (acc : BitVec 3) (ra : Reg) (rb : Reg) (ms : BitVec 3) (s : State) : Res := post (.tcol acc ra rb ms) (opTcol acc ra rb ms) 8 s
def execTchk (acc : BitVec 3) (ra : Reg) (rb : Reg) (mk : PReg) (s : State) : Res := post (.tchk acc ra rb mk) (opTchk acc ra rb mk) 8 s
def execTcon (acc : BitVec 3) (ra : Reg) (rb : Reg) (ms : BitVec 3) (fa : BitVec 4) (fb : BitVec 4) (ka : BitVec 3) (kb : BitVec 3)
    (s : State) : Res :=
  post (.tcon acc ra rb ms fa fb ka kb) (opTcon acc ra rb ms fa fb ka kb) 8 s
def execTsave (acc : BitVec 3) (ra : Reg) (ka : BitVec 3) (s : State) : Res := post (.tsave acc ra ka) (opTsave acc ra ka) 8 s
def execTrest (acc : BitVec 3) (ra : Reg) (ka : BitVec 3) (s : State) : Res := post (.trest acc ra ka) (opTrest acc ra ka) 8 s
def execTstat (acc : BitVec 3) (ra : Reg) (s : State) : Res := post (.tstat acc ra) (opTstat acc ra) 8 s
def execOqinit (q : BitVec 1) (d : Reg) (a : Reg) (b : Reg) (m : BitVec 3) (n : BitVec 14) (cap : BitVec 6) (pol : BitVec 2)
    (s : State) : Res :=
  post (.oqinit q d a b m n cap pol) (opOqinit q d a b m n cap pol) 8 s
def execOqacc (q : BitVec 1) (a : Reg) (b : Reg) (s : State) : Res := post (.oqacc q a b) (opOqacc q a b) 8 s
def execOqhh (q : BitVec 1) (d : Reg) (a : Reg) (b : Reg) (s : State) : Res := post (.oqhh q d a b) (opOqhh q d a b) 8 s
def execOqapl (q : BitVec 1) (a : Reg) (b : Reg) (m : BitVec 3) (tr : Bool) (s : State) : Res := post (.oqapl q a b m tr) (opOqapl q a b m tr) 8 s
def execOqapr (q : BitVec 1) (a : Reg) (b : Reg) (m : BitVec 3) (tr : Bool) (s : State) : Res := post (.oqapr q a b m tr) (opOqapr q a b m tr) 8 s
def execOqapv (q : BitVec 1) (d : Reg) (a : Reg) (tr : Bool) (s : State) : Res := post (.oqapv q d a tr) (opOqapv q d a tr) 8 s
def execOqform (q : BitVec 1) (s : State) : Res := post (.oqform q) (opOqform q) 8 s
def execOqsave (q : BitVec 1) (a : Reg) (m : BitVec 3) (s : State) : Res := post (.oqsave q a m) (opOqsave q a m) 8 s
def execOqrest (q : BitVec 1) (a : Reg) (m : BitVec 3) (s : State) : Res := post (.oqrest q a m) (opOqrest q a m) 8 s
def execOqcnt (q : BitVec 1) (d : Reg) (s : State) : Res := post (.oqcnt q d) (opOqcnt q d) 8 s
def execOqrd (q : BitVec 1) (d : Reg) (b : Reg) (s : State) : Res := post (.oqrd q d b) (opOqrd q d b) 8 s

end

end Sys2Proof.Machine
end

