-- ==== Sys2Proof/Machine/Dispatch.lean ====
section
/-! DEFINITION. The meaning of each instruction and device step: one arm per constructor of Instr, one direct call each. -/

namespace Sys2Proof.Machine

open Host in noncomputable
def exec (i : Instr) (s : State) : Host.Outcome State Fault Refusal :=
  match i with
  | .powerRestore => Sys2Proof.Machine.execPowerRestore s
  | .startStepTimeout => Sys2Proof.Machine.execStartStepTimeout s
  | .throttle die sensor temp => Sys2Proof.Machine.execThrottle die sensor temp s
  | .clockStepUp die => Sys2Proof.Machine.execClockStepUp die s
  | .commandRecordRefused off len => Sys2Proof.Machine.execCommandRecordRefused off len s
  | .responsePortRead => Sys2Proof.Machine.execResponsePortRead s
  | .completionNotice => Sys2Proof.Machine.execCompletionNotice s
  | .hostCxlMemRead port pa n => Sys2Proof.Machine.execHostCxlMemRead port pa n s
  | .hostCxlMemWrite port pa data => Sys2Proof.Machine.execHostCxlMemWrite port pa data s
  | .identify r => Sys2Proof.Machine.execIdentify r s
  | .attest r => Sys2Proof.Machine.execAttest r s
  | .loadImage r => Sys2Proof.Machine.execLoadImage r s
  | .startFarm r => Sys2Proof.Machine.execStartFarm r s
  | .startFarmDirect r => Sys2Proof.Machine.execStartFarmDirect r s
  | .startFarmResume r => Sys2Proof.Machine.execStartFarmResume r s
  | .stopFarm r => Sys2Proof.Machine.execStopFarm r s
  | .preempt r => Sys2Proof.Machine.execPreempt r s
  | .queryFarm r => Sys2Proof.Machine.execQueryFarm r s
  | .partitionCreate r => Sys2Proof.Machine.execPartitionCreate r s
  | .partitionDestroy r => Sys2Proof.Machine.execPartitionDestroy r s
  | .setSlots r => Sys2Proof.Machine.execSetSlots r s
  | .setPageBase r => Sys2Proof.Machine.execSetPageBase r s
  | .pinRevoke r => Sys2Proof.Machine.execPinRevoke r s
  | .castleStack r => Sys2Proof.Machine.execCastleStack r s
  | .readErrors r => Sys2Proof.Machine.execReadErrors r s
  | .scrubQuery r => Sys2Proof.Machine.execScrubQuery r s
  | .scrubFullPass r => Sys2Proof.Machine.execScrubFullPass r s
  | .scrubRange r => Sys2Proof.Machine.execScrubRange r s
  | .linkConfig r => Sys2Proof.Machine.execLinkConfig r s
  | .dcdAccept r => Sys2Proof.Machine.execDcdAccept r s
  | .dcdRelease r => Sys2Proof.Machine.execDcdRelease r s
  | .dcdReleaseForced r => Sys2Proof.Machine.execDcdReleaseForced r s
  | .extentReleaseComplete die base => Sys2Proof.Machine.execExtentReleaseComplete die base s
  | .powerCap r => Sys2Proof.Machine.execPowerCap r s
  | .fwPatch r => Sys2Proof.Machine.execFwPatch r s
  | .resetWarm r => Sys2Proof.Machine.execResetWarm r s
  | .resetCold r => Sys2Proof.Machine.execResetCold r s
  | .slotService stack pch slot ready => Sys2Proof.Machine.execSlotService stack pch slot ready s
  | .scrubStarved stack pch => Sys2Proof.Machine.execScrubStarved stack pch s
  | .dataFlit link f => Sys2Proof.Machine.execDataFlit link f s
  | .acknowledgement link f => Sys2Proof.Machine.execAcknowledgement link f s
  | .nak link f => Sys2Proof.Machine.execNak link f s
  | .barrierMessage link f => Sys2Proof.Machine.execBarrierMessage link f s
  | .collectiveData link f => Sys2Proof.Machine.execCollectiveData link f s
  | .commandAnnouncement link f => Sys2Proof.Machine.execCommandAnnouncement link f s
  | .completionStatus link f => Sys2Proof.Machine.execCompletionStatus link f s
  | .barrierCommandArrival link f => Sys2Proof.Machine.execBarrierCommandArrival link f s
  | .replayTimeout flow => Sys2Proof.Machine.execReplayTimeout flow s
  | .lossOfLock link => Sys2Proof.Machine.execLossOfLock link s
  | .retrainComplete link => Sys2Proof.Machine.execRetrainComplete link s
  | .retrainFail link => Sys2Proof.Machine.execRetrainFail link s
  | .barrierArrival die idx => Sys2Proof.Machine.execBarrierArrival die idx s
  | .priorityAging farm => Sys2Proof.Machine.execPriorityAging farm s
  | .quotaPeriod die => Sys2Proof.Machine.execQuotaPeriod die s
  | .haltRequest core => Sys2Proof.Machine.execHaltRequest core s
  | .strandHalt key => Sys2Proof.Machine.execStrandHalt key s
  | .strandSave core => Sys2Proof.Machine.execStrandSave core s
  | .takeTrap key => Sys2Proof.Machine.execTakeTrap key s
  | .microOperationIssue key seq g => Sys2Proof.Machine.execMicroOperationIssue key seq g s
  | .elementGroupComplete key seq g => Sys2Proof.Machine.execElementGroupComplete key seq g s
  | .bteCommandTake key => Sys2Proof.Machine.execBteCommandTake key s
  | .bteBeat cmd => Sys2Proof.Machine.execBteBeat cmd s
  | .collectiveCommandTake key => Sys2Proof.Machine.execCollectiveCommandTake key s
  | .handOver stack => Sys2Proof.Machine.execHandOver stack s
  | .waitTimeout key => Sys2Proof.Machine.execWaitTimeout key s
  | .yieldExpiry key => Sys2Proof.Machine.execYieldExpiry key s
  | .errinjFlipVectorBit reg pos bit => Sys2Proof.Machine.execErrinjFlipVectorBit reg pos bit s
  | .errinjFlipTileBit reg pos bit => Sys2Proof.Machine.execErrinjFlipTileBit reg pos bit s
  | .errinjMarkRow reg pos => Sys2Proof.Machine.execErrinjMarkRow reg pos s
  | .maxlg v => Sys2Proof.Machine.execMaxlg v s
  | .add d a b => Sys2Proof.Machine.execAdd d a b s
  | .sub d a b => Sys2Proof.Machine.execSub d a b s
  | .and d a b => Sys2Proof.Machine.execAnd d a b s
  | .or d a b => Sys2Proof.Machine.execOr d a b s
  | .xor d a b => Sys2Proof.Machine.execXor d a b s
  | .andn d a b => Sys2Proof.Machine.execAndn d a b s
  | .sll d a b => Sys2Proof.Machine.execSll d a b s
  | .srl d a b => Sys2Proof.Machine.execSrl d a b s
  | .sra d a b => Sys2Proof.Machine.execSra d a b s
  | .rol d a b => Sys2Proof.Machine.execRol d a b s
  | .ror d a b => Sys2Proof.Machine.execRor d a b s
  | .slt d a b => Sys2Proof.Machine.execSlt d a b s
  | .sltu d a b => Sys2Proof.Machine.execSltu d a b s
  | .min d a b => Sys2Proof.Machine.execMin d a b s
  | .max d a b => Sys2Proof.Machine.execMax d a b s
  | .minu d a b => Sys2Proof.Machine.execMinu d a b s
  | .maxu d a b => Sys2Proof.Machine.execMaxu d a b s
  | .addw d a b => Sys2Proof.Machine.execAddw d a b s
  | .subw d a b => Sys2Proof.Machine.execSubw d a b s
  | .mul d a b => Sys2Proof.Machine.execMul d a b s
  | .mulh d a b => Sys2Proof.Machine.execMulh d a b s
  | .mulhu d a b => Sys2Proof.Machine.execMulhu d a b s
  | .mulhsu d a b => Sys2Proof.Machine.execMulhsu d a b s
  | .div d a b => Sys2Proof.Machine.execDiv d a b s
  | .divu d a b => Sys2Proof.Machine.execDivu d a b s
  | .rem d a b => Sys2Proof.Machine.execRem d a b s
  | .remu d a b => Sys2Proof.Machine.execRemu d a b s
  | .clz d a => Sys2Proof.Machine.execClz d a s
  | .ctz d a => Sys2Proof.Machine.execCtz d a s
  | .popc d a => Sys2Proof.Machine.execPopc d a s
  | .sextb d a => Sys2Proof.Machine.execSextb d a s
  | .sexth d a => Sys2Proof.Machine.execSexth d a s
  | .sextw d a => Sys2Proof.Machine.execSextw d a s
  | .zexth d a => Sys2Proof.Machine.execZexth d a s
  | .zextw d a => Sys2Proof.Machine.execZextw d a s
  | .addi d a imm => Sys2Proof.Machine.execAddi d a imm s
  | .andi d a imm => Sys2Proof.Machine.execAndi d a imm s
  | .ori d a imm => Sys2Proof.Machine.execOri d a imm s
  | .xori d a imm => Sys2Proof.Machine.execXori d a imm s
  | .slti d a imm => Sys2Proof.Machine.execSlti d a imm s
  | .sltiu d a imm => Sys2Proof.Machine.execSltiu d a imm s
  | .addiImm d a imm => Sys2Proof.Machine.execAddiImm d a imm s
  | .andiImm d a imm => Sys2Proof.Machine.execAndiImm d a imm s
  | .oriImm d a imm => Sys2Proof.Machine.execOriImm d a imm s
  | .xoriImm d a imm => Sys2Proof.Machine.execXoriImm d a imm s
  | .sltiImm d a imm => Sys2Proof.Machine.execSltiImm d a imm s
  | .sltiuImm d a imm => Sys2Proof.Machine.execSltiuImm d a imm s
  | .slli d a sh => Sys2Proof.Machine.execSlli d a sh s
  | .srli d a sh => Sys2Proof.Machine.execSrli d a sh s
  | .srai d a sh => Sys2Proof.Machine.execSrai d a sh s
  | .roli d a sh => Sys2Proof.Machine.execRoli d a sh s
  | .luim d imm => Sys2Proof.Machine.execLuim d imm s
  | .apc d imm => Sys2Proof.Machine.execApc d imm s
  | .ld d a w u imm => Sys2Proof.Machine.execLd d a w u imm s
  | .st r a w imm => Sys2Proof.Machine.execSt r a w imm s
  | .ldImm d a w u imm => Sys2Proof.Machine.execLdImm d a w u imm s
  | .stImm r a w imm => Sys2Proof.Machine.execStImm r a w imm s
  | .beq a b off => Sys2Proof.Machine.execBeq a b off s
  | .bne a b off => Sys2Proof.Machine.execBne a b off s
  | .blt a b off => Sys2Proof.Machine.execBlt a b off s
  | .bge a b off => Sys2Proof.Machine.execBge a b off s
  | .bltu a b off => Sys2Proof.Machine.execBltu a b off s
  | .bgeu a b off => Sys2Proof.Machine.execBgeu a b off s
  | .j off => Sys2Proof.Machine.execJ off s
  | .jl off => Sys2Proof.Machine.execJl off s
  | .jr a => Sys2Proof.Machine.execJr a s
  | .jlr d a => Sys2Proof.Machine.execJlr d a s
  | .faddS d a b rm => Sys2Proof.Machine.execFaddS d a b rm s
  | .fsubS d a b rm => Sys2Proof.Machine.execFsubS d a b rm s
  | .fmulS d a b rm => Sys2Proof.Machine.execFmulS d a b rm s
  | .fdivS d a b rm => Sys2Proof.Machine.execFdivS d a b rm s
  | .fsqrtS d a rm => Sys2Proof.Machine.execFsqrtS d a rm s
  | .fminS d a b => Sys2Proof.Machine.execFminS d a b s
  | .fmaxS d a b => Sys2Proof.Machine.execFmaxS d a b s
  | .feqS d a b => Sys2Proof.Machine.execFeqS d a b s
  | .fltS d a b => Sys2Proof.Machine.execFltS d a b s
  | .fleS d a b => Sys2Proof.Machine.execFleS d a b s
  | .fcvtSL d a rm => Sys2Proof.Machine.execFcvtSL d a rm s
  | .fcvtLS d a rm => Sys2Proof.Machine.execFcvtLS d a rm s
  | .fclassS d a => Sys2Proof.Machine.execFclassS d a s
  | .faddD d a b rm => Sys2Proof.Machine.execFaddD d a b rm s
  | .fsubD d a b rm => Sys2Proof.Machine.execFsubD d a b rm s
  | .fmulD d a b rm => Sys2Proof.Machine.execFmulD d a b rm s
  | .fdivD d a b rm => Sys2Proof.Machine.execFdivD d a b rm s
  | .fsqrtD d a rm => Sys2Proof.Machine.execFsqrtD d a rm s
  | .fminD d a b => Sys2Proof.Machine.execFminD d a b s
  | .fmaxD d a b => Sys2Proof.Machine.execFmaxD d a b s
  | .feqD d a b => Sys2Proof.Machine.execFeqD d a b s
  | .fltD d a b => Sys2Proof.Machine.execFltD d a b s
  | .fleD d a b => Sys2Proof.Machine.execFleD d a b s
  | .fcvtDL d a rm => Sys2Proof.Machine.execFcvtDL d a rm s
  | .fcvtLD d a rm => Sys2Proof.Machine.execFcvtLD d a rm s
  | .fclassD d a => Sys2Proof.Machine.execFclassD d a s
  | .fmaddS d a b rm => Sys2Proof.Machine.execFmaddS d a b rm s
  | .fmsubS d a b rm => Sys2Proof.Machine.execFmsubS d a b rm s
  | .fnmaddS d a b rm => Sys2Proof.Machine.execFnmaddS d a b rm s
  | .fnmsubS d a b rm => Sys2Proof.Machine.execFnmsubS d a b rm s
  | .fmaddD d a b rm => Sys2Proof.Machine.execFmaddD d a b rm s
  | .fmsubD d a b rm => Sys2Proof.Machine.execFmsubD d a b rm s
  | .fnmaddD d a b rm => Sys2Proof.Machine.execFnmaddD d a b rm s
  | .fnmsubD d a b rm => Sys2Proof.Machine.execFnmsubD d a b rm s
  | .amoadd d a b order word scope => Sys2Proof.Machine.execAmoadd d a b order word scope s
  | .amoswap d a b order word scope => Sys2Proof.Machine.execAmoswap d a b order word scope s
  | .amoand d a b order word scope => Sys2Proof.Machine.execAmoand d a b order word scope s
  | .amoor d a b order word scope => Sys2Proof.Machine.execAmoor d a b order word scope s
  | .amomin d a b order word scope => Sys2Proof.Machine.execAmomin d a b order word scope s
  | .amomax d a b order word scope => Sys2Proof.Machine.execAmomax d a b order word scope s
  | .amocas d a b order word scope => Sys2Proof.Machine.execAmocas d a b order word scope s
  | .amoxor d a b order word scope => Sys2Proof.Machine.execAmoxor d a b order word scope s
  | .trap code => Sys2Proof.Machine.execTrap code s
  | .tret => Sys2Proof.Machine.execTret s
  | .brk code => Sys2Proof.Machine.execBrk code s
  | .wait d a => Sys2Proof.Machine.execWait d a s
  | .yield a => Sys2Proof.Machine.execYield a s
  | .halt => Sys2Proof.Machine.execHalt s
  | .mfc d cr => Sys2Proof.Machine.execMfc d cr s
  | .mtc r cr => Sys2Proof.Machine.execMtc r cr s
  | .farm d a b => Sys2Proof.Machine.execFarm d a b s
  | .strip d => Sys2Proof.Machine.execStrip d s
  | .tlbi d a b => Sys2Proof.Machine.execTlbi d a b s
  | .sync => Sys2Proof.Machine.execSync s
  | .vsync => Sys2Proof.Machine.execVsync s
  | .fence kinds scope => Sys2Proof.Machine.execFence kinds scope s
  | .vfence => Sys2Proof.Machine.execVfence s
  | .barInit d a b => Sys2Proof.Machine.execBarInit d a b s
  | .barArrive d a => Sys2Proof.Machine.execBarArrive d a s
  | .barWait d a => Sys2Proof.Machine.execBarWait d a s
  | .barPost d a b => Sys2Proof.Machine.execBarPost d a b s
  | .barDone d a b => Sys2Proof.Machine.execBarDone d a b s
  | .barArrwait d a => Sys2Proof.Machine.execBarArrwait d a s
  | .barQuery d a => Sys2Proof.Machine.execBarQuery d a s
  | .pin k a b rights => Sys2Proof.Machine.execPin k a b rights s
  | .unpin k => Sys2Proof.Machine.execUnpin k s
  | .pinq d k sel => Sys2Proof.Machine.execPinq d k sel s
  | .epush port a => Sys2Proof.Machine.execEpush port a s
  | .epop d port => Sys2Proof.Machine.execEpop d port s
  | .eavail d port => Sys2Proof.Machine.execEavail d port s
  | .castle d a b => Sys2Proof.Machine.execCastle d a b s
  | .castq d a => Sys2Proof.Machine.execCastq d a s
  | .vadd x d a b => Sys2Proof.Machine.execVadd x d a b s
  | .vsub x d a b => Sys2Proof.Machine.execVsub x d a b s
  | .vmul x d a b => Sys2Proof.Machine.execVmul x d a b s
  | .vmulh x d a b => Sys2Proof.Machine.execVmulh x d a b s
  | .vmulhu x d a b => Sys2Proof.Machine.execVmulhu x d a b s
  | .vand x d a b => Sys2Proof.Machine.execVand x d a b s
  | .vor x d a b => Sys2Proof.Machine.execVor x d a b s
  | .vxor x d a b => Sys2Proof.Machine.execVxor x d a b s
  | .vsll x d a b => Sys2Proof.Machine.execVsll x d a b s
  | .vsrl x d a b => Sys2Proof.Machine.execVsrl x d a b s
  | .vsra x d a b => Sys2Proof.Machine.execVsra x d a b s
  | .vmin x d a b => Sys2Proof.Machine.execVmin x d a b s
  | .vmax x d a b => Sys2Proof.Machine.execVmax x d a b s
  | .vminu x d a b => Sys2Proof.Machine.execVminu x d a b s
  | .vmaxu x d a b => Sys2Proof.Machine.execVmaxu x d a b s
  | .vdiv x d a b => Sys2Proof.Machine.execVdiv x d a b s
  | .vdivu x d a b => Sys2Proof.Machine.execVdivu x d a b s
  | .vrem x d a b => Sys2Proof.Machine.execVrem x d a b s
  | .vremu x d a b => Sys2Proof.Machine.execVremu x d a b s
  | .vsadd x d a b => Sys2Proof.Machine.execVsadd x d a b s
  | .vssub x d a b => Sys2Proof.Machine.execVssub x d a b s
  | .vaddScalar x d a b => Sys2Proof.Machine.execVaddScalar x d a b s
  | .vsubScalar x d a b => Sys2Proof.Machine.execVsubScalar x d a b s
  | .vmulScalar x d a b => Sys2Proof.Machine.execVmulScalar x d a b s
  | .vmulhScalar x d a b => Sys2Proof.Machine.execVmulhScalar x d a b s
  | .vmulhuScalar x d a b => Sys2Proof.Machine.execVmulhuScalar x d a b s
  | .vandScalar x d a b => Sys2Proof.Machine.execVandScalar x d a b s
  | .vorScalar x d a b => Sys2Proof.Machine.execVorScalar x d a b s
  | .vxorScalar x d a b => Sys2Proof.Machine.execVxorScalar x d a b s
  | .vsllScalar x d a b => Sys2Proof.Machine.execVsllScalar x d a b s
  | .vsrlScalar x d a b => Sys2Proof.Machine.execVsrlScalar x d a b s
  | .vsraScalar x d a b => Sys2Proof.Machine.execVsraScalar x d a b s
  | .vminScalar x d a b => Sys2Proof.Machine.execVminScalar x d a b s
  | .vmaxScalar x d a b => Sys2Proof.Machine.execVmaxScalar x d a b s
  | .vminuScalar x d a b => Sys2Proof.Machine.execVminuScalar x d a b s
  | .vmaxuScalar x d a b => Sys2Proof.Machine.execVmaxuScalar x d a b s
  | .vdivScalar x d a b => Sys2Proof.Machine.execVdivScalar x d a b s
  | .vdivuScalar x d a b => Sys2Proof.Machine.execVdivuScalar x d a b s
  | .vremScalar x d a b => Sys2Proof.Machine.execVremScalar x d a b s
  | .vremuScalar x d a b => Sys2Proof.Machine.execVremuScalar x d a b s
  | .vsaddScalar x d a b => Sys2Proof.Machine.execVsaddScalar x d a b s
  | .vssubScalar x d a b => Sys2Proof.Machine.execVssubScalar x d a b s
  | .vrsub x d a b => Sys2Proof.Machine.execVrsub x d a b s
  | .vfadd x d a b => Sys2Proof.Machine.execVfadd x d a b s
  | .vfsub x d a b => Sys2Proof.Machine.execVfsub x d a b s
  | .vfmul x d a b => Sys2Proof.Machine.execVfmul x d a b s
  | .vfdiv x d a b => Sys2Proof.Machine.execVfdiv x d a b s
  | .vfsqrt x d a => Sys2Proof.Machine.execVfsqrt x d a s
  | .vfmin x d a b => Sys2Proof.Machine.execVfmin x d a b s
  | .vfmax x d a b => Sys2Proof.Machine.execVfmax x d a b s
  | .vfsgnj x d a b => Sys2Proof.Machine.execVfsgnj x d a b s
  | .vfsgnjn x d a b => Sys2Proof.Machine.execVfsgnjn x d a b s
  | .vfsgnjx x d a b => Sys2Proof.Machine.execVfsgnjx x d a b s
  | .vfclass x d a => Sys2Proof.Machine.execVfclass x d a s
  | .vfaddScalar x d a b => Sys2Proof.Machine.execVfaddScalar x d a b s
  | .vfsubScalar x d a b => Sys2Proof.Machine.execVfsubScalar x d a b s
  | .vfmulScalar x d a b => Sys2Proof.Machine.execVfmulScalar x d a b s
  | .vfdivScalar x d a b => Sys2Proof.Machine.execVfdivScalar x d a b s
  | .vfsqrtScalar x d a => Sys2Proof.Machine.execVfsqrtScalar x d a s
  | .vfminScalar x d a b => Sys2Proof.Machine.execVfminScalar x d a b s
  | .vfmaxScalar x d a b => Sys2Proof.Machine.execVfmaxScalar x d a b s
  | .vfsgnjScalar x d a b => Sys2Proof.Machine.execVfsgnjScalar x d a b s
  | .vfsgnjnScalar x d a b => Sys2Proof.Machine.execVfsgnjnScalar x d a b s
  | .vfsgnjxScalar x d a b => Sys2Proof.Machine.execVfsgnjxScalar x d a b s
  | .vfclassScalar x d a => Sys2Proof.Machine.execVfclassScalar x d a s
  | .vfmacc x d a b => Sys2Proof.Machine.execVfmacc x d a b s
  | .vfmsac x d a b => Sys2Proof.Machine.execVfmsac x d a b s
  | .vfnmacc x d a b => Sys2Proof.Machine.execVfnmacc x d a b s
  | .vfnmsac x d a b => Sys2Proof.Machine.execVfnmsac x d a b s
  | .vfmaccScalar x d a b => Sys2Proof.Machine.execVfmaccScalar x d a b s
  | .vfmsacScalar x d a b => Sys2Proof.Machine.execVfmsacScalar x d a b s
  | .vfnmaccScalar x d a b => Sys2Proof.Machine.execVfnmaccScalar x d a b s
  | .vfnmsacScalar x d a b => Sys2Proof.Machine.execVfnmsacScalar x d a b s
  | .vmacc x d a b => Sys2Proof.Machine.execVmacc x d a b s
  | .vmaccScalar x d a b => Sys2Proof.Machine.execVmaccScalar x d a b s
  | .vwmacc x d a b => Sys2Proof.Machine.execVwmacc x d a b s
  | .veq x d a b => Sys2Proof.Machine.execVeq x d a b s
  | .vne x d a b => Sys2Proof.Machine.execVne x d a b s
  | .vlt x d a b => Sys2Proof.Machine.execVlt x d a b s
  | .vle x d a b => Sys2Proof.Machine.execVle x d a b s
  | .vltu x d a b => Sys2Proof.Machine.execVltu x d a b s
  | .vleu x d a b => Sys2Proof.Machine.execVleu x d a b s
  | .vfeq x d a b => Sys2Proof.Machine.execVfeq x d a b s
  | .vflt x d a b => Sys2Proof.Machine.execVflt x d a b s
  | .vfle x d a b => Sys2Proof.Machine.execVfle x d a b s
  | .vfunord x d a b => Sys2Proof.Machine.execVfunord x d a b s
  | .veqScalar x d a b => Sys2Proof.Machine.execVeqScalar x d a b s
  | .vneScalar x d a b => Sys2Proof.Machine.execVneScalar x d a b s
  | .vltScalar x d a b => Sys2Proof.Machine.execVltScalar x d a b s
  | .vleScalar x d a b => Sys2Proof.Machine.execVleScalar x d a b s
  | .vltuScalar x d a b => Sys2Proof.Machine.execVltuScalar x d a b s
  | .vleuScalar x d a b => Sys2Proof.Machine.execVleuScalar x d a b s
  | .vfeqScalar x d a b => Sys2Proof.Machine.execVfeqScalar x d a b s
  | .vfltScalar x d a b => Sys2Proof.Machine.execVfltScalar x d a b s
  | .vfleScalar x d a b => Sys2Proof.Machine.execVfleScalar x d a b s
  | .vfunordScalar x d a b => Sys2Proof.Machine.execVfunordScalar x d a b s
  | .pand x d a b => Sys2Proof.Machine.execPand x d a b s
  | .por x d a b => Sys2Proof.Machine.execPor x d a b s
  | .pxor x d a b => Sys2Proof.Machine.execPxor x d a b s
  | .pandn x d a b => Sys2Proof.Machine.execPandn x d a b s
  | .pnot x d a => Sys2Proof.Machine.execPnot x d a s
  | .pset x d a => Sys2Proof.Machine.execPset x d a s
  | .ppop x d a => Sys2Proof.Machine.execPpop x d a s
  | .pfirst x d a => Sys2Proof.Machine.execPfirst x d a s
  | .pscan x d a => Sys2Proof.Machine.execPscan x d a s
  | .pbefore x d a => Sys2Proof.Machine.execPbefore x d a s
  | .pmv x d a => Sys2Proof.Machine.execPmv x d a s
  | .vslideup x d a b => Sys2Proof.Machine.execVslideup x d a b s
  | .vslidedown x d a b => Sys2Proof.Machine.execVslidedown x d a b s
  | .vgather x d a b => Sys2Proof.Machine.execVgather x d a b s
  | .vcompress x d a => Sys2Proof.Machine.execVcompress x d a s
  | .vexpand x d a => Sys2Proof.Machine.execVexpand x d a s
  | .vbcast x d a => Sys2Proof.Machine.execVbcast x d a s
  | .vmvsv ext d a b => Sys2Proof.Machine.execVmvsv ext d a b s
  | .vmvvs x d a b => Sys2Proof.Machine.execVmvvs x d a b s
  | .viota x d => Sys2Proof.Machine.execViota x d s
  | .vmerge x d a b => Sys2Proof.Machine.execVmerge x d a b s
  | .vslide1up x d a b => Sys2Proof.Machine.execVslide1up x d a b s
  | .vslide1down x d a b => Sys2Proof.Machine.execVslide1down x d a b s
  | .vredsum x d a => Sys2Proof.Machine.execVredsum x d a s
  | .vredmin x d a => Sys2Proof.Machine.execVredmin x d a s
  | .vredmax x d a => Sys2Proof.Machine.execVredmax x d a s
  | .vredminu x d a => Sys2Proof.Machine.execVredminu x d a s
  | .vredmaxu x d a => Sys2Proof.Machine.execVredmaxu x d a s
  | .vredand x d a => Sys2Proof.Machine.execVredand x d a s
  | .vredor x d a => Sys2Proof.Machine.execVredor x d a s
  | .vredxor x d a => Sys2Proof.Machine.execVredxor x d a s
  | .vfredsum x d a => Sys2Proof.Machine.execVfredsum x d a s
  | .vfredmin x d a => Sys2Proof.Machine.execVfredmin x d a s
  | .vfredmax x d a => Sys2Proof.Machine.execVfredmax x d a s
  | .vfredsumW x d a => Sys2Proof.Machine.execVfredsumW x d a s
  | .vcvtFFp64 x d a => Sys2Proof.Machine.execVcvtFFp64 x d a s
  | .vcvtIFp64 x d a => Sys2Proof.Machine.execVcvtIFp64 x d a s
  | .vcvtUFp64 x d a => Sys2Proof.Machine.execVcvtUFp64 x d a s
  | .vcvtFp64I x d a => Sys2Proof.Machine.execVcvtFp64I x d a s
  | .vcvtFFp32 x d a => Sys2Proof.Machine.execVcvtFFp32 x d a s
  | .vcvtIFp32 x d a => Sys2Proof.Machine.execVcvtIFp32 x d a s
  | .vcvtUFp32 x d a => Sys2Proof.Machine.execVcvtUFp32 x d a s
  | .vcvtFp32I x d a => Sys2Proof.Machine.execVcvtFp32I x d a s
  | .vcvtFFp16 x d a => Sys2Proof.Machine.execVcvtFFp16 x d a s
  | .vcvtIFp16 x d a => Sys2Proof.Machine.execVcvtIFp16 x d a s
  | .vcvtUFp16 x d a => Sys2Proof.Machine.execVcvtUFp16 x d a s
  | .vcvtFp16I x d a => Sys2Proof.Machine.execVcvtFp16I x d a s
  | .vcvtFBf16 x d a => Sys2Proof.Machine.execVcvtFBf16 x d a s
  | .vcvtIBf16 x d a => Sys2Proof.Machine.execVcvtIBf16 x d a s
  | .vcvtUBf16 x d a => Sys2Proof.Machine.execVcvtUBf16 x d a s
  | .vcvtBf16I x d a => Sys2Proof.Machine.execVcvtBf16I x d a s
  | .vcvtFE4m3 x d a => Sys2Proof.Machine.execVcvtFE4m3 x d a s
  | .vcvtIE4m3 x d a => Sys2Proof.Machine.execVcvtIE4m3 x d a s
  | .vcvtUE4m3 x d a => Sys2Proof.Machine.execVcvtUE4m3 x d a s
  | .vcvtII8 x d a => Sys2Proof.Machine.execVcvtII8 x d a s
  | .vcvtFE5m2 x d a => Sys2Proof.Machine.execVcvtFE5m2 x d a s
  | .vcvtIE5m2 x d a => Sys2Proof.Machine.execVcvtIE5m2 x d a s
  | .vcvtUE5m2 x d a => Sys2Proof.Machine.execVcvtUE5m2 x d a s
  | .vcvtII16 x d a => Sys2Proof.Machine.execVcvtII16 x d a s
  | .vcvtFE2m3 x d a => Sys2Proof.Machine.execVcvtFE2m3 x d a s
  | .vcvtIE2m3 x d a => Sys2Proof.Machine.execVcvtIE2m3 x d a s
  | .vcvtUE2m3 x d a => Sys2Proof.Machine.execVcvtUE2m3 x d a s
  | .vcvtII32 x d a => Sys2Proof.Machine.execVcvtII32 x d a s
  | .vcvtFE3m2 x d a => Sys2Proof.Machine.execVcvtFE3m2 x d a s
  | .vcvtIE3m2 x d a => Sys2Proof.Machine.execVcvtIE3m2 x d a s
  | .vcvtUE3m2 x d a => Sys2Proof.Machine.execVcvtUE3m2 x d a s
  | .vcvtII64 x d a => Sys2Proof.Machine.execVcvtII64 x d a s
  | .vcvtFT8 x d a => Sys2Proof.Machine.execVcvtFT8 x d a s
  | .vcvtIT8 x d a => Sys2Proof.Machine.execVcvtIT8 x d a s
  | .vcvtUT8 x d a => Sys2Proof.Machine.execVcvtUT8 x d a s
  | .vcvtFT6 x d a => Sys2Proof.Machine.execVcvtFT6 x d a s
  | .vcvtIT6 x d a => Sys2Proof.Machine.execVcvtIT6 x d a s
  | .vcvtUT6 x d a => Sys2Proof.Machine.execVcvtUT6 x d a s
  | .vmxpack x d a b => Sys2Proof.Machine.execVmxpack x d a b s
  | .vmxunpack x d a b => Sys2Proof.Machine.execVmxunpack x d a b s
  | .vexp2 x d a => Sys2Proof.Machine.execVexp2 x d a s
  | .vlog2 x d a => Sys2Proof.Machine.execVlog2 x d a s
  | .vrcp x d a => Sys2Proof.Machine.execVrcp x d a s
  | .vrsqrt x d a => Sys2Proof.Machine.execVrsqrt x d a s
  | .vsinpi x d a => Sys2Proof.Machine.execVsinpi x d a s
  | .vcospi x d a => Sys2Proof.Machine.execVcospi x d a s
  | .vtanh x d a => Sys2Proof.Machine.execVtanh x d a s
  | .vsigm x d a => Sys2Proof.Machine.execVsigm x d a s
  | .vgelu x d a => Sys2Proof.Machine.execVgelu x d a s
  | .verf x d a => Sys2Proof.Machine.execVerf x d a s
  | .vconf x d a => Sys2Proof.Machine.execVconf x d a s
  | .vlead x d a => Sys2Proof.Machine.execVlead x d a s
  | .vdupsum x d a b => Sys2Proof.Machine.execVdupsum x d a b s
  | .setvl ext d a => Sys2Proof.Machine.execSetvl ext d a s
  | .setvtype ext d a => Sys2Proof.Machine.execSetvtype ext d a s
  | .vld x w k d a => Sys2Proof.Machine.execVld x w k d a s
  | .vlds x w k d a b => Sys2Proof.Machine.execVlds x w k d a b s
  | .vldx x w k d a b => Sys2Proof.Machine.execVldx x w k d a b s
  | .vldseg x w k d a nf perm => Sys2Proof.Machine.execVldseg x w k d a nf perm s
  | .vst x o w k d a => Sys2Proof.Machine.execVst x o w k d a s
  | .vsts x o w k d a b => Sys2Proof.Machine.execVsts x o w k d a b s
  | .vstx x o w k d a b => Sys2Proof.Machine.execVstx x o w k d a b s
  | .vstseg x o w k d a nf => Sys2Proof.Machine.execVstseg x o w k d a nf s
  | .vamoAdd x o k d a b => Sys2Proof.Machine.execVamoAdd x o k d a b s
  | .vamoMin x o k d a b => Sys2Proof.Machine.execVamoMin x o k d a b s
  | .vamoMax x o k d a b => Sys2Proof.Machine.execVamoMax x o k d a b s
  | .vamoSwap x o k d a b => Sys2Proof.Machine.execVamoSwap x o k d a b s
  | .vgscr x w k d a b => Sys2Proof.Machine.execVgscr x w k d a b s
  | .vepop ext w d b => Sys2Proof.Machine.execVepop ext w d b s
  | .tcfg acc => Sys2Proof.Machine.execTcfg acc s
  | .tzero acc => Sys2Proof.Machine.execTzero acc s
  | .tmma acc ra rb rs ms fa fb mk ka kb ck => Sys2Proof.Machine.execTmma acc ra rb rs ms fa fb mk ka kb ck s
  | .tmmaV acc ra rb rs ms fa fb mk ka kb ck => Sys2Proof.Machine.execTmmaV acc ra rb rs ms fa fb mk ka kb ck s
  | .tmmas acc ra rb rs ms fa fb mk ka kb ck => Sys2Proof.Machine.execTmmas acc ra rb rs ms fa fb mk ka kb ck s
  | .tld acc ra rb rs ms fa ka => Sys2Proof.Machine.execTld acc ra rb rs ms fa ka s
  | .tst acc ra rs ms fa ka => Sys2Proof.Machine.execTst acc ra rs ms fa ka s
  | .trow acc ra rb ms => Sys2Proof.Machine.execTrow acc ra rb ms s
  | .tcol acc ra rb ms => Sys2Proof.Machine.execTcol acc ra rb ms s
  | .tchk acc ra rb mk => Sys2Proof.Machine.execTchk acc ra rb mk s
  | .tcon acc ra rb ms fa fb ka kb => Sys2Proof.Machine.execTcon acc ra rb ms fa fb ka kb s
  | .tsave acc ra ka => Sys2Proof.Machine.execTsave acc ra ka s
  | .trest acc ra ka => Sys2Proof.Machine.execTrest acc ra ka s
  | .tstat acc ra => Sys2Proof.Machine.execTstat acc ra s
  | .oqinit q d a b m n cap pol => Sys2Proof.Machine.execOqinit q d a b m n cap pol s
  | .oqacc q a b => Sys2Proof.Machine.execOqacc q a b s
  | .oqhh q d a b => Sys2Proof.Machine.execOqhh q d a b s
  | .oqapl q a b m tr => Sys2Proof.Machine.execOqapl q a b m tr s
  | .oqapr q a b m tr => Sys2Proof.Machine.execOqapr q a b m tr s
  | .oqapv q d a tr => Sys2Proof.Machine.execOqapv q d a tr s
  | .oqform q => Sys2Proof.Machine.execOqform q s
  | .oqsave q a m => Sys2Proof.Machine.execOqsave q a m s
  | .oqrest q a m => Sys2Proof.Machine.execOqrest q a m s
  | .oqcnt q d => Sys2Proof.Machine.execOqcnt q d s
  | .oqrd q d b => Sys2Proof.Machine.execOqrd q d b s
  | .cAddi d imm => Sys2Proof.Machine.execCAddi d imm s
  | .cAdd d a => Sys2Proof.Machine.execCAdd d a s
  | .cMov d a => Sys2Proof.Machine.execCMov d a s
  | .cLd d imm => Sys2Proof.Machine.execCLd d imm s
  | .cSt r imm => Sys2Proof.Machine.execCSt r imm s
  | .cBeqz a off => Sys2Proof.Machine.execCBeqz a off s
  | .cBnez a off => Sys2Proof.Machine.execCBnez a off s
  | .cJ off => Sys2Proof.Machine.execCJ off s
  | .cNop => Sys2Proof.Machine.execCNop s
  | .cvy => Sys2Proof.Machine.execCvy s
  | .cBrk code => Sys2Proof.Machine.execCBrk code s
  | .startStepComplete ok => Sys2Proof.Machine.execStartStepComplete ok s
  | .powerLoss => Sys2Proof.Machine.execPowerLoss s
  | .memoryError pa fixable => Sys2Proof.Machine.execMemoryError pa fixable s
  | .softError e => Sys2Proof.Machine.execSoftError e s
  | .matrixEngineStep key => Sys2Proof.Machine.execMatrixEngineStep key s
  | .orthogonalLineStep key => Sys2Proof.Machine.execOrthogonalLineStep key s
  | .scalarAccessPerformed key n => Sys2Proof.Machine.execScalarAccessPerformed key n s
  | .lanePowerUp core lane => Sys2Proof.Machine.execLanePowerUp core lane s

end Sys2Proof.Machine
end

