-- ==== Sys2Proof/Machine/Fetch.lean ====
section
/-! DEFINITION. Fetching an instruction's parcels (R214, R215, R258), and placing one where the next fetch finds it. -/

namespace Sys2Proof.Machine

noncomputable section

/-! ### Fetch -/

/-- Memory as a fetch of the strand finds it: its own buffered stores over the homes' contents. -/
def Strand.codeView (t : Strand) (m : Memory) : Memory := t.sbuf.foldl BufferedStore.apply m

/-- The older value of a byte that no `sync` has put in order (R258). -/
def olderByte (c : Core) (m : Memory) (k : Nat) : Byte :=
  match c.stale.find? (fun x => x.1 == k) with
  | some x => x.2
  | none => memRead m k

/-- Whether a fetch may see an older value of a byte. -/
def mayBeOld (c : Core) (t : Strand) (k : Nat) : Bool :=
  c.stale.any (fun x => x.1 == k) || t.sbuf.any (fun b => b.keys.contains k)

/-- One parcel: the new bytes, or as a free value says the old ones where the two may differ (R258). -/
def readParcel (s : State) (ks : List Nat) : BitVec 16 × State :=
  let c := s.core s.cur.coreNo
  let new := BitVec.ofNat 16 (leNat (memReadList (s.cur.codeView s.mem) ks))
  if ks.any (mayBeOld c s.cur) then
    let (d, s) := s.draw
    (if d % 2 = 0 then new else BitVec.ofNat 16 (leNat (ks.map (olderByte c s.mem))), s)
  else (new, s)

/-- A fetch that meets the page table or a missing address takes FETCH at that parcel (R197, R215). -/
def fetchStop (va : Word) (x : Stop) : Stop :=
  match x with
  | .hold => .hold
  | .mirror a k => .mirror a k
  | .trap c a i =>
    if c = cPAGE then .trap cFETCH va.toNat 0
    else if c = cPERM then .trap cFETCH va.toNat 1
    else if c = cACCESS then .trap cFETCH va.toNat 2
    else .trap c a i

/-- n parcels from an address, in order; their lines enter the core's instruction L1 (R168). -/
def fetchParcels : Nat → Word → State → Except Stop (List (BitVec 16) × State)
  | 0, _, s => .ok ([], s)
  | n + 1, va, s =>
    match fetchKeys s va with
    | .error x => .error (fetchStop va x)
    | .ok ks =>
      let r := readParcel ((s.fillTlb s.cur .fetch va.toNat).takeLines s.cur.coreNo true ks) ks
      match fetchParcels n (va + 2) r.2 with
      | .error x => .error x
      | .ok (ps, s) => .ok (r.1 :: ps, s)

/-- The parcels of the instruction at the pc: its first parcel says how many (R214). The sequencer is no longer stalled. -/
def fetchInstr (s : State) : Except Stop (List (BitVec 16) × State) :=
  match fetchParcels 1 s.cur.pc s with
  | .error x => .error x
  | .ok (ps, s') =>
    match fetchParcels (parcelLength (ps.headD 0) / 2 - 1) (s.cur.pc + 2) s' with
    | .error x => .error x
    | .ok (qs, s'') => .ok (ps ++ qs, s''.modCur (fun t => { t with stalled := false }))

/-! ### An instruction placed for the next fetch -/

/-- The bytes of parcels, each little-endian (R214). -/
def parcelBytes (ps : List (BitVec 16)) : List Byte := (ps.map (fun p => leBytes 2 p.toNat)).flatten

/-- Keys of the first eight bytes of a strand's core TCM. -/
def codeKeys (t : Strand) : List Nat := keysFrom (tcmKey t.coreNo 0) 8

/-- A stream pop that has not completed: the sequencer commits nothing behind it (R304). -/
def VEntry.holdsScalar (e : VEntry) : Bool := !e.complete && (match e.instr with | .vepop _ _ _ _ => true | _ => false)

/-- The strand ready to fetch from the start of its core's TCM. -/
def Strand.atCode (t : Strand) : Strand :=
  { t with life := .running, level := .kernel, pc := BitVec.ofNat 64 windowBase, stalled := false, pause := .none,
           haltReq := false, mcheck := none, sbuf := [], viq := (t.viq.filter (fun e => !e.holdsScalar)).map (fun e => { e with fault := none }) }

/-- Four parcels stand at the start of the current strand's TCM, and its fetch comes next: the module is READY (log 22). -/
def State.placeCode (s : State) (ps : List (BitVec 16)) : State :=
  let ks := codeKeys s.cur
  let clean := s.modCore s.cur.coreNo (fun c => { c with stale := c.stale.filter (fun x => !ks.contains x.1) })
  { clean with
    mode := .ready, startStep := 9,
    cur := s.cur.atCode, mem := memWriteList s.mem ks (parcelBytes ps), turns := [], clock := 0, lost := false
    poison := s.poison.filter (fun x => !(ks.map lineOf).contains x.1) }

end

end Sys2Proof.Machine
end

