-- ==== Sys2Proof/Machine/Turns.lean ====
section
/-! DEFINITION. Whose step comes next, and what it is (log 1): a strand's scalar side, the host writing a record, a step of
the device. Every order of whole steps can be had through State.turns; without turns a strand's step and a step of the
device alternate. -/

namespace Sys2Proof.Machine

noncomputable section

/-! ### A strand's scalar step -/

/-- Fetch, decode, execute. -/
def State.fetchRun (s : State) : Res :=
  match fetchInstr s with
  | .error x => s.stopped x
  | .ok (ps, s) =>
    match decodeParcels ps with
    | some i => exec i s
    | none => s.illegal

/-- One step of the current strand's scalar side: a halt request first, then a due trap, else its instruction (R199, R361);
behind a stream pop that has not completed nothing (R304). -/
def State.scalarTurn (s : State) : Res :=
  if s.cur.life ≠ .running then .next s
  else if s.cur.haltReq then .next (s.haltStrand s.cur.key)
  else if s.cur.trapDue then .next (if s.cur.dueSettled then s.takeDue else s.stall)
  else if s.cur.viq.any VEntry.holdsScalar then .next s.stall
  else s.fetchRun

/-! ### Steps that the device's agents may make now -/

/-- The element group that an entry may issue now. -/
def Strand.nextIssue (t : Strand) (e : VEntry) : Option Nat :=
  match vop e.instr with
  | none => none
  | some op =>
    match op.run with
    | .epop _ _ => if e.complete then none else some 0
    | .tile => none
    | .orth => none
    | _ => (List.range (ceilDiv e.caps.vl.toNat e.G)).find? (fun g => t.canIssue e op g)

/-- Steps of one VIQ entry. -/
def entrySteps (t : Strand) (e : VEntry) : List Instr :=
  (match t.nextIssue e with | some g => [.microOperationIssue t.key e.seq g] | none => []) ++
  (match e.inflight with | r :: _ => [.elementGroupComplete t.key e.seq r.g] | [] => []) ++
  (if e.complete then []
    else if isTile e.instr then [.matrixEngineStep t.key]
    else if isOrth e.instr then [.orthogonalLineStep t.key]
    else [])

/-- Steps on behalf of one strand, by the unit that makes them. Its VIQ's steps stand in sequence order, lowest element
group first (R102). -/
def strandSteps (s : State) (t : Strand) : List (List Instr) :=
  [(t.viq.map (entrySteps t)).flatten,
    (match (List.range t.sbuf.length).find? (fun n => t.storeReady n) with
      | some n => [.scalarAccessPerformed t.key n]
      | none => []),
    (if portFull 0 t.ports.e0 then [.bteCommandTake t.key] else []),
    (if portFull 2 t.ports.e2 || s.colls.any (fun c => c.key == t.key) then [.collectiveCommandTake t.key] else []),
    (if s.mustHalt t && !t.haltReq then [.haltRequest (BitVec.ofNat 8 t.coreNo)] else []),
    (if t.life = .halted then [.strandSave (BitVec.ofNat 8 t.coreNo)] else [])]

/-- Steps of the device that serve no strand of their own. -/
def deviceSteps (s : State) : List Instr :=
  (if s.farms.any (fun (f : Farm) => f.halting != Halting.no) then [Instr.strandSave 0] else []) ++
  s.bte.map (fun (c : BteCmd) => Instr.bteBeat c.id) ++
  ((List.range 8).filter (fun n => (s.stack n).hand.isSome)).map (fun n => Instr.handOver (BitVec.ofNat 3 n)) ++
  (s.extents.filter (fun (e : Extent) => e.releasing.isSome)).map
    (fun (e : Extent) => Instr.extentReleaseComplete e.die (BitVec.ofNat 52 e.base)) ++
  (if s.notices = [] then [] else [Instr.completionNotice]) ++
  (if s.starting then [Instr.startStepComplete true] else []) ++
  (s.cores.map (fun (c : Nat × Core) => c.2.waking.map (fun l =>
    Instr.lanePowerUp (BitVec.ofNat 8 c.1) (BitVec.ofNat 5 l)))).flatten

/-- Steps of the device, unit by unit: none stands for the PSC taking the record at the head of the command port. -/
def State.agents (s : State) : List (List (Option Instr)) :=
  ((((s.strands.filter Strand.exists_).map (strandSteps s)).flatten ++ (deviceSteps s).map (fun i => [i])).filter
    (fun xs => xs != [])).map (fun xs => xs.map some) ++ (if s.pscReady then [[none]] else [])

/-- Timers, which run out only when nothing else can go on. -/
def State.timers (s : State) : List (Option Instr) :=
  ((s.strands.filter Strand.exists_).map (fun t =>
    match t.pause with
    | .yielding _ => [some (Instr.yieldExpiry t.key)]
    | .waiting true => [some (Instr.waitTimeout t.key)]
    | _ => [])).flatten

/-- The PSC takes the record at the head of the command port (R48, R53). -/
def State.pscTake (s : State) : Res :=
  match s.cmdPort with
  | [] => .next s
  | r :: rest =>
    let s := { s with cmdPort := rest }
    match pscInstr r with
    | some i => exec i s
    | none => .next (s.badOp r)

/-- What a step of an agent leaves; none when it has no effect. -/
def State.tryAgent (s : State) (a : Option Instr) : Option State :=
  match (match a with | some i => exec i s | none => s.pscTake) with
  | .next t => if t = s then none else some t
  | _ => none

def rotate {α : Type} (n : Nat) (xs : List α) : List α := xs.drop n ++ xs.take n

/-- The next running strand becomes the current one. -/
def State.passOn (s : State) : State :=
  match s.others.find? (fun t => t.life == .running) with
  | some t => s.focus t.key
  | none => s

/-- A step of the device: the first unit that can do something, beginning at a place that moves on from turn to turn. -/
def State.deviceTurn (s : State) : State :=
  let xs := s.agents
  match ((rotate (s.clock / 2 % (xs.length + 1)) xs).flatten ++ s.timers).findSome? s.tryAgent with
  | some t => t.passOn
  | none => s.passOn

/-! ### Turns -/

/-- Whether an instruction is a step of the device, which no word encodes. -/
def isDeviceStep (i : Instr) : Bool := encode i == []

/-- A turn that State.turns names. -/
def State.takeTurn (s : State) (t : Turn) : Res :=
  match t with
  | .strand k => let s := s.focus k; if s.cur.key = k then s.scalarTurn else .next s
  | .record bs => .next (s.writeBytesToPort bs)
  | .event i => if isDeviceStep i then exec i s else .next s

/-- Without turns: the current strand at even clocks, the device at odd ones and when no strand runs. -/
def State.ownTurn (s : State) : Res :=
  let t := { s with clock := s.clock + 1 }
  if s.clock % 2 = 0 ∧ s.cur.life = .running then t.scalarTurn else .next t.deviceTurn

end

end Sys2Proof.Machine
end

