-- ==== Sys2Proof/Machine/Step.lean ====
section
/-! DEFINITION. One step of the module. -/

namespace Sys2Proof.Machine

noncomputable section

/-- One step of the agent whose turn it is. -/
def step (s : State) : Host.Outcome State Fault Refusal :=
  if s.lost then .fault .recordLost
  else
    match s.turns with
    | t :: r => { s with turns := r }.takeTurn t
    | [] => s.ownTurn

/-- The instruction whose low `nbits` bits are `w`, other bits zero, stands where the next step fetches it. -/
def State.withFetchWord (s : State) (nbits w : Nat) : State := s.placeCode (tableParcels nbits w)

end

end Sys2Proof.Machine
end

