-- ==== Sys2Proof/Safety.lean ====
section
/-! DEFINITION. What a safe run is: one that never meets a fault, and whose states keep the invariants that the statements
name. -/

namespace Sys2Proof.Machine

/-- The next state of an outcome. -/
def nextOf (o : Res) : Option State :=
  match o with
  | .next s => some s
  | _ => none

/-- An outcome that is no fault and no refusal. -/
def Runs (o : Res) : Prop := ∃ s, o = .next s

/-- The memory keeps its canonical form. -/
abbrev MemOk (s : State) : Prop := s.mem.wf = true

/-- The forms that data held by key keeps: memory canonical, the recorded cores once each in rising order (log 9). -/
abbrev Canonical (s : State) : Prop := MemOk s ∧ (s.cores.map (fun c => c.1)).Pairwise (· < ·)

/-- States reached in n steps. -/
def Reaches : Nat → State → State → Prop
  | 0, s, t => s = t
  | n + 1, s, t => ∃ u, step s = .next u ∧ Reaches n u t

/-- Every step from a state on answers a next state. -/
def Safe (s : State) : Prop := ∀ n t, Reaches n s t → Runs (step t)

end Sys2Proof.Machine
end

