-- ==== Sys2Proof/WellFormed.lean ====
section
/-! DEFINITION. Which instructions have words: a step of the device has none (R216), and a vector form without a VEXT
prefix reaches p0 to p7 as its governing predicate and p0 to p31 as an operand, and no permutation register (R222,
R225, R301). -/

namespace Sys2Proof

/-- The governing predicate fits where it is encoded. -/
def VX.fits (x : VX) : Bool := x.ext || decide (x.m.toNat < 8)

/-- A predicate operand fits where it is encoded. -/
def VX.fitsP (x : VX) (p : PReg) : Bool := x.ext || decide (p.toNat < 32)

/-- A word of the instruction exists. -/
def Instr.wf : Instr → Bool
  | .powerRestore => false
  | .startStepTimeout => false
  | .throttle _ _ _ => false
  | .clockStepUp _ => false
  | .commandRecordRefused _ _ => false
  | .responsePortRead => false
  | .completionNotice => false
  | .hostCxlMemRead _ _ _ => false
  | .hostCxlMemWrite _ _ _ => false
  | .identify _ => false
  | .attest _ => false
  | .loadImage _ => false
  | .startFarm _ => false
  | .startFarmDirect _ => false
  | .startFarmResume _ => false
  | .stopFarm _ => false
  | .preempt _ => false
  | .queryFarm _ => false
  | .partitionCreate _ => false
  | .partitionDestroy _ => false
  | .setSlots _ => false
  | .setPageBase _ => false
  | .pinRevoke _ => false
  | .castleStack _ => false
  | .readErrors _ => false
  | .scrubQuery _ => false
  | .scrubFullPass _ => false
  | .scrubRange _ => false
  | .linkConfig _ => false
  | .dcdAccept _ => false
  | .dcdRelease _ => false
  | .dcdReleaseForced _ => false
  | .extentReleaseComplete _ _ => false
  | .powerCap _ => false
  | .fwPatch _ => false
  | .resetWarm _ => false
  | .resetCold _ => false
  | .slotService _ _ _ _ => false
  | .scrubStarved _ _ => false
  | .dataFlit _ _ => false
  | .acknowledgement _ _ => false
  | .nak _ _ => false
  | .barrierMessage _ _ => false
  | .collectiveData _ _ => false
  | .commandAnnouncement _ _ => false
  | .completionStatus _ _ => false
  | .barrierCommandArrival _ _ => false
  | .replayTimeout _ => false
  | .lossOfLock _ => false
  | .retrainComplete _ => false
  | .retrainFail _ => false
  | .barrierArrival _ _ => false
  | .priorityAging _ => false
  | .quotaPeriod _ => false
  | .haltRequest _ => false
  | .strandHalt _ => false
  | .strandSave _ => false
  | .takeTrap _ => false
  | .microOperationIssue _ _ _ => false
  | .elementGroupComplete _ _ _ => false
  | .bteCommandTake _ => false
  | .bteBeat _ => false
  | .collectiveCommandTake _ => false
  | .handOver _ => false
  | .waitTimeout _ => false
  | .yieldExpiry _ => false
  | .errinjFlipVectorBit _ _ _ => false
  | .errinjFlipTileBit _ _ _ => false
  | .errinjMarkRow _ _ => false
  | .maxlg _ => false
  | .add _ _ _ => true
  | .sub _ _ _ => true
  | .and _ _ _ => true
  | .or _ _ _ => true
  | .xor _ _ _ => true
  | .andn _ _ _ => true
  | .sll _ _ _ => true
  | .srl _ _ _ => true
  | .sra _ _ _ => true
  | .rol _ _ _ => true
  | .ror _ _ _ => true
  | .slt _ _ _ => true
  | .sltu _ _ _ => true
  | .min _ _ _ => true
  | .max _ _ _ => true
  | .minu _ _ _ => true
  | .maxu _ _ _ => true
  | .addw _ _ _ => true
  | .subw _ _ _ => true
  | .mul _ _ _ => true
  | .mulh _ _ _ => true
  | .mulhu _ _ _ => true
  | .mulhsu _ _ _ => true
  | .div _ _ _ => true
  | .divu _ _ _ => true
  | .rem _ _ _ => true
  | .remu _ _ _ => true
  | .clz _ _ => true
  | .ctz _ _ => true
  | .popc _ _ => true
  | .sextb _ _ => true
  | .sexth _ _ => true
  | .sextw _ _ => true
  | .zexth _ _ => true
  | .zextw _ _ => true
  | .addi _ _ _ => true
  | .andi _ _ _ => true
  | .ori _ _ _ => true
  | .xori _ _ _ => true
  | .slti _ _ _ => true
  | .sltiu _ _ _ => true
  | .addiImm _ _ _ => true
  | .andiImm _ _ _ => true
  | .oriImm _ _ _ => true
  | .xoriImm _ _ _ => true
  | .sltiImm _ _ _ => true
  | .sltiuImm _ _ _ => true
  | .slli _ _ _ => true
  | .srli _ _ _ => true
  | .srai _ _ _ => true
  | .roli _ _ _ => true
  | .luim _ _ => true
  | .apc _ _ => true
  | .ld _ _ _ _ _ => true
  | .st _ _ _ _ => true
  | .ldImm _ _ _ _ _ => true
  | .stImm _ _ _ _ => true
  | .beq _ _ _ => true
  | .bne _ _ _ => true
  | .blt _ _ _ => true
  | .bge _ _ _ => true
  | .bltu _ _ _ => true
  | .bgeu _ _ _ => true
  | .j _ => true
  | .jl _ => true
  | .jr _ => true
  | .jlr _ _ => true
  | .faddS _ _ _ _ => true
  | .fsubS _ _ _ _ => true
  | .fmulS _ _ _ _ => true
  | .fdivS _ _ _ _ => true
  | .fsqrtS _ _ _ => true
  | .fminS _ _ _ => true
  | .fmaxS _ _ _ => true
  | .feqS _ _ _ => true
  | .fltS _ _ _ => true
  | .fleS _ _ _ => true
  | .fcvtSL _ _ _ => true
  | .fcvtLS _ _ _ => true
  | .fclassS _ _ => true
  | .faddD _ _ _ _ => true
  | .fsubD _ _ _ _ => true
  | .fmulD _ _ _ _ => true
  | .fdivD _ _ _ _ => true
  | .fsqrtD _ _ _ => true
  | .fminD _ _ _ => true
  | .fmaxD _ _ _ => true
  | .feqD _ _ _ => true
  | .fltD _ _ _ => true
  | .fleD _ _ _ => true
  | .fcvtDL _ _ _ => true
  | .fcvtLD _ _ _ => true
  | .fclassD _ _ => true
  | .fmaddS _ _ _ _ => true
  | .fmsubS _ _ _ _ => true
  | .fnmaddS _ _ _ _ => true
  | .fnmsubS _ _ _ _ => true
  | .fmaddD _ _ _ _ => true
  | .fmsubD _ _ _ _ => true
  | .fnmaddD _ _ _ _ => true
  | .fnmsubD _ _ _ _ => true
  | .amoadd _ _ _ _ _ _ => true
  | .amoswap _ _ _ _ _ _ => true
  | .amoand _ _ _ _ _ _ => true
  | .amoor _ _ _ _ _ _ => true
  | .amomin _ _ _ _ _ _ => true
  | .amomax _ _ _ _ _ _ => true
  | .amocas _ _ _ _ _ _ => true
  | .amoxor _ _ _ _ _ _ => true
  | .trap _ => true
  | .tret => true
  | .brk _ => true
  | .wait _ _ => true
  | .yield _ => true
  | .halt => true
  | .mfc _ _ => true
  | .mtc _ _ => true
  | .farm _ _ _ => true
  | .strip _ => true
  | .tlbi _ _ _ => true
  | .sync => true
  | .vsync => true
  | .fence _ _ => true
  | .vfence => true
  | .barInit _ _ _ => true
  | .barArrive _ _ => true
  | .barWait _ _ => true
  | .barPost _ _ _ => true
  | .barDone _ _ _ => true
  | .barArrwait _ _ => true
  | .barQuery _ _ => true
  | .pin _ _ _ _ => true
  | .unpin _ => true
  | .pinq _ _ _ => true
  | .epush _ _ => true
  | .epop _ _ => true
  | .eavail _ _ => true
  | .castle _ _ _ => true
  | .castq _ _ => true
  | .vadd x _ _ _ => x.fits
  | .vsub x _ _ _ => x.fits
  | .vmul x _ _ _ => x.fits
  | .vmulh x _ _ _ => x.fits
  | .vmulhu x _ _ _ => x.fits
  | .vand x _ _ _ => x.fits
  | .vor x _ _ _ => x.fits
  | .vxor x _ _ _ => x.fits
  | .vsll x _ _ _ => x.fits
  | .vsrl x _ _ _ => x.fits
  | .vsra x _ _ _ => x.fits
  | .vmin x _ _ _ => x.fits
  | .vmax x _ _ _ => x.fits
  | .vminu x _ _ _ => x.fits
  | .vmaxu x _ _ _ => x.fits
  | .vdiv x _ _ _ => x.fits
  | .vdivu x _ _ _ => x.fits
  | .vrem x _ _ _ => x.fits
  | .vremu x _ _ _ => x.fits
  | .vsadd x _ _ _ => x.fits
  | .vssub x _ _ _ => x.fits
  | .vaddScalar x _ _ _ => x.fits
  | .vsubScalar x _ _ _ => x.fits
  | .vmulScalar x _ _ _ => x.fits
  | .vmulhScalar x _ _ _ => x.fits
  | .vmulhuScalar x _ _ _ => x.fits
  | .vandScalar x _ _ _ => x.fits
  | .vorScalar x _ _ _ => x.fits
  | .vxorScalar x _ _ _ => x.fits
  | .vsllScalar x _ _ _ => x.fits
  | .vsrlScalar x _ _ _ => x.fits
  | .vsraScalar x _ _ _ => x.fits
  | .vminScalar x _ _ _ => x.fits
  | .vmaxScalar x _ _ _ => x.fits
  | .vminuScalar x _ _ _ => x.fits
  | .vmaxuScalar x _ _ _ => x.fits
  | .vdivScalar x _ _ _ => x.fits
  | .vdivuScalar x _ _ _ => x.fits
  | .vremScalar x _ _ _ => x.fits
  | .vremuScalar x _ _ _ => x.fits
  | .vsaddScalar x _ _ _ => x.fits
  | .vssubScalar x _ _ _ => x.fits
  | .vrsub x _ _ _ => x.fits
  | .vfadd x _ _ _ => x.fits
  | .vfsub x _ _ _ => x.fits
  | .vfmul x _ _ _ => x.fits
  | .vfdiv x _ _ _ => x.fits
  | .vfsqrt x _ _ => x.fits
  | .vfmin x _ _ _ => x.fits
  | .vfmax x _ _ _ => x.fits
  | .vfsgnj x _ _ _ => x.fits
  | .vfsgnjn x _ _ _ => x.fits
  | .vfsgnjx x _ _ _ => x.fits
  | .vfclass x _ _ => x.fits
  | .vfaddScalar x _ _ _ => x.fits
  | .vfsubScalar x _ _ _ => x.fits
  | .vfmulScalar x _ _ _ => x.fits
  | .vfdivScalar x _ _ _ => x.fits
  | .vfsqrtScalar x _ _ => x.fits
  | .vfminScalar x _ _ _ => x.fits
  | .vfmaxScalar x _ _ _ => x.fits
  | .vfsgnjScalar x _ _ _ => x.fits
  | .vfsgnjnScalar x _ _ _ => x.fits
  | .vfsgnjxScalar x _ _ _ => x.fits
  | .vfclassScalar x _ _ => x.fits
  | .vfmacc x _ _ _ => x.fits
  | .vfmsac x _ _ _ => x.fits
  | .vfnmacc x _ _ _ => x.fits
  | .vfnmsac x _ _ _ => x.fits
  | .vfmaccScalar x _ _ _ => x.fits
  | .vfmsacScalar x _ _ _ => x.fits
  | .vfnmaccScalar x _ _ _ => x.fits
  | .vfnmsacScalar x _ _ _ => x.fits
  | .vmacc x _ _ _ => x.fits
  | .vmaccScalar x _ _ _ => x.fits
  | .vwmacc x _ _ _ => x.fits
  | .veq x d _ _ => x.fits && x.fitsP d
  | .vne x d _ _ => x.fits && x.fitsP d
  | .vlt x d _ _ => x.fits && x.fitsP d
  | .vle x d _ _ => x.fits && x.fitsP d
  | .vltu x d _ _ => x.fits && x.fitsP d
  | .vleu x d _ _ => x.fits && x.fitsP d
  | .vfeq x d _ _ => x.fits && x.fitsP d
  | .vflt x d _ _ => x.fits && x.fitsP d
  | .vfle x d _ _ => x.fits && x.fitsP d
  | .vfunord x d _ _ => x.fits && x.fitsP d
  | .veqScalar x d _ _ => x.fits && x.fitsP d
  | .vneScalar x d _ _ => x.fits && x.fitsP d
  | .vltScalar x d _ _ => x.fits && x.fitsP d
  | .vleScalar x d _ _ => x.fits && x.fitsP d
  | .vltuScalar x d _ _ => x.fits && x.fitsP d
  | .vleuScalar x d _ _ => x.fits && x.fitsP d
  | .vfeqScalar x d _ _ => x.fits && x.fitsP d
  | .vfltScalar x d _ _ => x.fits && x.fitsP d
  | .vfleScalar x d _ _ => x.fits && x.fitsP d
  | .vfunordScalar x d _ _ => x.fits && x.fitsP d
  | .pand x d a b => x.fits && x.fitsP d && x.fitsP a && x.fitsP b
  | .por x d a b => x.fits && x.fitsP d && x.fitsP a && x.fitsP b
  | .pxor x d a b => x.fits && x.fitsP d && x.fitsP a && x.fitsP b
  | .pandn x d a b => x.fits && x.fitsP d && x.fitsP a && x.fitsP b
  | .pnot x d a => x.fits && x.fitsP d && x.fitsP a
  | .pset x d _ => x.fits && x.fitsP d
  | .ppop x _ a => x.fits && x.fitsP a
  | .pfirst x _ a => x.fits && x.fitsP a
  | .pscan x _ a => x.fits && x.fitsP a
  | .pbefore x d a => x.fits && x.fitsP d && x.fitsP a
  | .pmv x _ a => x.fits && x.fitsP a
  | .vslideup x _ _ _ => x.fits
  | .vslidedown x _ _ _ => x.fits
  | .vgather x _ _ _ => x.fits
  | .vcompress x _ _ => x.fits
  | .vexpand x _ _ => x.fits
  | .vbcast x _ _ => x.fits
  | .vmvsv _ _ _ _ => true
  | .vmvvs x _ _ _ => x.fits
  | .viota x _ => x.fits
  | .vmerge x _ _ _ => x.fits
  | .vslide1up x _ _ _ => x.fits
  | .vslide1down x _ _ _ => x.fits
  | .vredsum x _ _ => x.fits
  | .vredmin x _ _ => x.fits
  | .vredmax x _ _ => x.fits
  | .vredminu x _ _ => x.fits
  | .vredmaxu x _ _ => x.fits
  | .vredand x _ _ => x.fits
  | .vredor x _ _ => x.fits
  | .vredxor x _ _ => x.fits
  | .vfredsum x _ _ => x.fits
  | .vfredmin x _ _ => x.fits
  | .vfredmax x _ _ => x.fits
  | .vfredsumW x _ _ => x.fits
  | .vcvtFFp64 x _ _ => x.fits
  | .vcvtIFp64 x _ _ => x.fits
  | .vcvtUFp64 x _ _ => x.fits
  | .vcvtFp64I x _ _ => x.fits
  | .vcvtFFp32 x _ _ => x.fits
  | .vcvtIFp32 x _ _ => x.fits
  | .vcvtUFp32 x _ _ => x.fits
  | .vcvtFp32I x _ _ => x.fits
  | .vcvtFFp16 x _ _ => x.fits
  | .vcvtIFp16 x _ _ => x.fits
  | .vcvtUFp16 x _ _ => x.fits
  | .vcvtFp16I x _ _ => x.fits
  | .vcvtFBf16 x _ _ => x.fits
  | .vcvtIBf16 x _ _ => x.fits
  | .vcvtUBf16 x _ _ => x.fits
  | .vcvtBf16I x _ _ => x.fits
  | .vcvtFE4m3 x _ _ => x.fits
  | .vcvtIE4m3 x _ _ => x.fits
  | .vcvtUE4m3 x _ _ => x.fits
  | .vcvtII8 x _ _ => x.fits
  | .vcvtFE5m2 x _ _ => x.fits
  | .vcvtIE5m2 x _ _ => x.fits
  | .vcvtUE5m2 x _ _ => x.fits
  | .vcvtII16 x _ _ => x.fits
  | .vcvtFE2m3 x _ _ => x.fits
  | .vcvtIE2m3 x _ _ => x.fits
  | .vcvtUE2m3 x _ _ => x.fits
  | .vcvtII32 x _ _ => x.fits
  | .vcvtFE3m2 x _ _ => x.fits
  | .vcvtIE3m2 x _ _ => x.fits
  | .vcvtUE3m2 x _ _ => x.fits
  | .vcvtII64 x _ _ => x.fits
  | .vcvtFT8 x _ _ => x.fits
  | .vcvtIT8 x _ _ => x.fits
  | .vcvtUT8 x _ _ => x.fits
  | .vcvtFT6 x _ _ => x.fits
  | .vcvtIT6 x _ _ => x.fits
  | .vcvtUT6 x _ _ => x.fits
  | .vmxpack x _ _ _ => x.fits
  | .vmxunpack x _ _ _ => x.fits
  | .vexp2 x _ _ => x.fits
  | .vlog2 x _ _ => x.fits
  | .vrcp x _ _ => x.fits
  | .vrsqrt x _ _ => x.fits
  | .vsinpi x _ _ => x.fits
  | .vcospi x _ _ => x.fits
  | .vtanh x _ _ => x.fits
  | .vsigm x _ _ => x.fits
  | .vgelu x _ _ => x.fits
  | .verf x _ _ => x.fits
  | .vconf x _ _ => x.fits
  | .vlead x d _ => x.fits && x.fitsP d
  | .vdupsum x _ _ _ => x.fits
  | .setvl _ _ _ => true
  | .setvtype _ _ _ => true
  | .vld x _ _ _ _ => x.fits
  | .vlds x _ _ _ _ _ => x.fits
  | .vldx x _ _ _ _ _ => x.fits
  | .vldseg x _ _ _ _ _ perm => x.fits && (x.ext || perm.isNone)
  | .vst x _ _ _ _ _ => x.fits
  | .vsts x _ _ _ _ _ _ => x.fits
  | .vstx x _ _ _ _ _ _ => x.fits
  | .vstseg x _ _ _ _ _ _ => x.fits
  | .vamoAdd x _ _ _ _ _ => x.fits
  | .vamoMin x _ _ _ _ _ => x.fits
  | .vamoMax x _ _ _ _ _ => x.fits
  | .vamoSwap x _ _ _ _ _ => x.fits
  | .vgscr x _ _ _ _ _ => x.fits
  | .vepop _ _ _ _ => true
  | .tcfg _ => true
  | .tzero _ => true
  | .tmma _ _ _ _ _ _ _ _ _ _ _ => true
  | .tmmaV _ _ _ _ _ _ _ _ _ _ _ => true
  | .tmmas _ _ _ _ _ _ _ _ _ _ _ => true
  | .tld _ _ _ _ _ _ _ => true
  | .tst _ _ _ _ _ _ => true
  | .trow _ _ _ _ => true
  | .tcol _ _ _ _ => true
  | .tchk _ _ _ _ => true
  | .tcon _ _ _ _ _ _ _ _ => true
  | .tsave _ _ _ => true
  | .trest _ _ _ => true
  | .tstat _ _ => true
  | .oqinit _ _ _ _ _ _ _ _ => true
  | .oqacc _ _ _ => true
  | .oqhh _ _ _ _ => true
  | .oqapl _ _ _ _ _ => true
  | .oqapr _ _ _ _ _ => true
  | .oqapv _ _ _ _ => true
  | .oqform _ => true
  | .oqsave _ _ _ => true
  | .oqrest _ _ _ => true
  | .oqcnt _ _ => true
  | .oqrd _ _ _ => true
  | .cAddi _ _ => true
  | .cAdd _ _ => true
  | .cMov _ _ => true
  | .cLd _ _ => true
  | .cSt _ _ => true
  | .cBeqz _ _ => true
  | .cBnez _ _ => true
  | .cJ _ => true
  | .cNop => true
  | .cvy => true
  | .cBrk _ => true
  | .startStepComplete _ => false
  | .powerLoss => false
  | .memoryError _ _ => false
  | .softError _ => false
  | .matrixEngineStep _ => false
  | .orthogonalLineStep _ => false
  | .scalarAccessPerformed _ _ => false
  | .lanePowerUp _ _ => false

/-- The instruction is well formed. -/
abbrev WellFormed (i : Instr) : Prop := i.wf = true

end Sys2Proof
end

