-- ==== Sys2Proof/Certificates/Slice0/Obligations.lean ====
section
/-! DEFINITION. The statements for the provers, as propositions, with the tables of the spec's rules they are stated by. -/

namespace Sys2Proof.Claims

open Sys2Proof Sys2Proof.Machine

/-! ### Words used by several statements -/

/-- None of these registers waits for the value of a vector instruction (R99). -/
abbrev Free (s : State) (rs : List Reg) : Prop := ∀ r ∈ rs, s.cur.pendingG r = false

/-- The current strand moved on by the length of an instruction, and nothing else. -/
def moved (s : State) (len : Nat) : State := { s with cur := { s.cur with pc := s.cur.pc + BitVec.ofNat 64 len } }

/-- The current strand at another pc, and nothing else. -/
def wentTo (s : State) (x : Word) : State := { s with cur := { s.cur with pc := x } }

/-- Register d of the current strand written, g0 excepted, the pc moved on, and nothing else. -/
def wrote (s : State) (d : Reg) (x : Word) (len : Nat) : State :=
  { s with cur := { s.cur with
    g := if d = 0 then s.cur.g else s.cur.g.setIfInBounds d.toNat x, pc := s.cur.pc + BitVec.ofNat 64 len } }

/-- The register that a compressed form's three-bit field names (R224). -/
def low8 (x : BitVec 3) : Reg := BitVec.ofNat 5 (8 + x.toNat)

/-- The current strand waits at its instruction, and nothing else. -/
def waits (s : State) : State := { s with cur := { s.cur with stalled := true } }

/-! ### Scalar arithmetic (R247 to R254, R224) -/

/-- R249, R250, R251: destination, sources and the value of each three-register instruction. -/
def threeRegister : Instr → Option (Reg × Reg × Reg × (Word → Word → Word))
  | .add d a b => some (d, a, b, fun x y => x + y)
  | .sub d a b => some (d, a, b, fun x y => x - y)
  | .and d a b => some (d, a, b, fun x y => x &&& y)
  | .or d a b => some (d, a, b, fun x y => x ||| y)
  | .xor d a b => some (d, a, b, fun x y => x ^^^ y)
  | .andn d a b => some (d, a, b, fun x y => x &&& ~~~y)
  | .sll d a b => some (d, a, b, fun x y => BitVec.ofNat 64 (x.toNat * 2 ^ (y.toNat % 64)))
  | .srl d a b => some (d, a, b, fun x y => BitVec.ofNat 64 (x.toNat / 2 ^ (y.toNat % 64)))
  | .sra d a b => some (d, a, b, fun x y => BitVec.ofInt 64 (x.toInt / (2 : Int) ^ (y.toNat % 64)))
  | .rol d a b => some (d, a, b, fun x y => (x <<< (y.toNat % 64)) ||| (x >>> (64 - y.toNat % 64)))
  | .ror d a b => some (d, a, b, fun x y => (x >>> (y.toNat % 64)) ||| (x <<< (64 - y.toNat % 64)))
  | .slt d a b => some (d, a, b, fun x y => if x.toInt < y.toInt then 1 else 0)
  | .sltu d a b => some (d, a, b, fun x y => if x.toNat < y.toNat then 1 else 0)
  | .min d a b => some (d, a, b, fun x y => if x.toInt ≤ y.toInt then x else y)
  | .max d a b => some (d, a, b, fun x y => if x.toInt ≤ y.toInt then y else x)
  | .minu d a b => some (d, a, b, fun x y => if x.toNat ≤ y.toNat then x else y)
  | .maxu d a b => some (d, a, b, fun x y => if x.toNat ≤ y.toNat then y else x)
  | .addw d a b => some (d, a, b, fun x y => ((x.setWidth 32 + y.setWidth 32).signExtend 64))
  | .subw d a b => some (d, a, b, fun x y => ((x.setWidth 32 - y.setWidth 32).signExtend 64))
  | .mul d a b => some (d, a, b, fun x y => BitVec.ofNat 64 (x.toNat * y.toNat))
  | .mulh d a b => some (d, a, b, fun x y => BitVec.ofInt 64 (x.toInt * y.toInt / (2 : Int) ^ 64))
  | .mulhu d a b => some (d, a, b, fun x y => BitVec.ofNat 64 (x.toNat * y.toNat / 2 ^ 64))
  | .mulhsu d a b => some (d, a, b, fun x y => BitVec.ofInt 64 (x.toInt * (y.toNat : Int) / (2 : Int) ^ 64))
  | .div d a b => some (d, a, b, fun x y => if y = 0 then BitVec.allOnes 64 else BitVec.ofInt 64 (x.toInt.tdiv y.toInt))
  | .divu d a b => some (d, a, b, fun x y => if y = 0 then BitVec.allOnes 64 else x / y)
  | .rem d a b => some (d, a, b, fun x y => if y = 0 then x else BitVec.ofInt 64 (x.toInt.tmod y.toInt))
  | .remu d a b => some (d, a, b, fun x y => if y = 0 then x else x % y)
  | _ => none

/-- R224, R250, R252, R253: destination, source, value and length of each instruction that reads one register. -/
def oneRegister : Instr → Option (Reg × Reg × (Word → Word) × Nat)
  | .clz d a => some (d, a, fun x => BitVec.ofNat 64 ((List.range 64).findIdx (fun i => x.getLsbD (63 - i))), 4)
  | .ctz d a => some (d, a, fun x => BitVec.ofNat 64 ((List.range 64).findIdx (fun i => x.getLsbD i)), 4)
  | .popc d a => some (d, a, fun x => BitVec.ofNat 64 ((List.range 64).filter (fun i => x.getLsbD i)).length, 4)
  | .sextb d a => some (d, a, fun x => (x.extractLsb' 0 8).signExtend 64, 4)
  | .sexth d a => some (d, a, fun x => (x.extractLsb' 0 16).signExtend 64, 4)
  | .sextw d a => some (d, a, fun x => (x.extractLsb' 0 32).signExtend 64, 4)
  | .zexth d a => some (d, a, fun x => BitVec.ofNat 64 (x.toNat % 2 ^ 16), 4)
  | .zextw d a => some (d, a, fun x => BitVec.ofNat 64 (x.toNat % 2 ^ 32), 4)
  | .addi d a imm => some (d, a, fun x => x + imm.signExtend 64, 4)
  | .andi d a imm => some (d, a, fun x => x &&& imm.signExtend 64, 4)
  | .ori d a imm => some (d, a, fun x => x ||| imm.signExtend 64, 4)
  | .xori d a imm => some (d, a, fun x => x ^^^ imm.signExtend 64, 4)
  | .slti d a imm => some (d, a, fun x => if x.toInt < imm.toInt then 1 else 0, 4)
  | .sltiu d a imm => some (d, a, fun x => if x.toNat < (imm.signExtend 64).toNat then 1 else 0, 4)
  | .addiImm d a imm => some (d, a, fun x => x + imm.signExtend 64, 8)
  | .andiImm d a imm => some (d, a, fun x => x &&& imm.signExtend 64, 8)
  | .oriImm d a imm => some (d, a, fun x => x ||| imm.signExtend 64, 8)
  | .xoriImm d a imm => some (d, a, fun x => x ^^^ imm.signExtend 64, 8)
  | .sltiImm d a imm => some (d, a, fun x => if x.toInt < imm.toInt then 1 else 0, 8)
  | .sltiuImm d a imm => some (d, a, fun x => if x.toNat < (imm.signExtend 64).toNat then 1 else 0, 8)
  | .slli d a sh => some (d, a, fun x => x <<< sh.toNat, 4)
  | .srli d a sh => some (d, a, fun x => x >>> sh.toNat, 4)
  | .srai d a sh => some (d, a, fun x => BitVec.ofInt 64 (x.toInt / (2 : Int) ^ sh.toNat), 4)
  | .roli d a sh => some (d, a, fun x => (x <<< sh.toNat) ||| (x >>> (64 - sh.toNat)), 4)
  | .cAddi d imm => some (low8 d, low8 d, fun x => x + imm.signExtend 64, 2)
  | .cMov d a => some (low8 d, low8 a, fun x => x, 2)
  | _ => none

end Sys2Proof.Claims

open Sys2Proof Sys2Proof.Machine Sys2Proof.Claims

/-- R249 to R254, R224: three-register, one-register, immediate, shift-immediate, upper-immediate and compressed integer
instructions write the value of their row and go on; nothing else changes. -/
def Obligations.IntegerResults : Prop :=
  (∀ (i : Instr) (d a b : Reg) (f : Word → Word → Word) (s : State),
    threeRegister i = some (d, a, b, f) → Free s [d, a, b] →
    exec i s = .next (wrote s d (f (s.g a) (s.g b)) 4)) ∧
  ((∀ (i : Instr) (d a : Reg) (f : Word → Word) (len : Nat) (s : State),
    oneRegister i = some (d, a, f, len) → Free s [d, a] → exec i s = .next (wrote s d (f (s.g a)) len)) ∧
  (∀ (d a : BitVec 3) (s : State), Free s [low8 d, low8 a] →
    exec (.cAdd d a) s = .next (wrote s (low8 d) (s.g (low8 d) + s.g (low8 a)) 2)) ∧
  (∀ (d : Reg) (imm : BitVec 19) (s : State), Free s [d] →
    exec (.luim d imm) s = .next (wrote s d (BitVec.ofInt 64 (imm.toInt * 8192)) 4) ∧
    exec (.apc d imm) s = .next (wrote s d (s.cur.pc + BitVec.ofInt 64 (imm.toInt * 8192)) 4)) ∧
  (∀ s : State, exec .cNop s = .next (moved s 2)))

/-- R99, R119: a scalar instruction that names a pending register waits at its pc and changes nothing else; g0 reads zero, a write
to it is discarded, and a write to any other register is read back from it and from no other. -/
def Obligations.RegisterRules : Prop :=
  ((∀ (i : Instr) (d a b : Reg) (f : Word → Word → Word) (s : State),
    threeRegister i = some (d, a, b, f) → ¬ Free s [d, a, b] →
    exec i s = .next { s with cur := { s.cur with stalled := true } }) ∧
  (∀ (i : Instr) (d a : Reg) (f : Word → Word) (len : Nat) (s : State),
    oneRegister i = some (d, a, f, len) → ¬ Free s [d, a] →
    exec i s = .next { s with cur := { s.cur with stalled := true } })) ∧
  (∀ (s : State) (d r : Reg) (x : Word) (len : Nat),
    s.g 0 = 0 ∧ (wrote s d x len).g r = (if d ≠ 0 ∧ r = d then x else s.g r) ∧
    (wrote s d x len).cur.pc = s.cur.pc + BitVec.ofNat 64 len)

namespace Sys2Proof.Claims

/-! ### Branches and jumps (R259 to R261, R224) -/

/-- R259, R224: the registers, the condition, the offset in bytes and the length of each branch. -/
def branchRow : Instr → Option (Reg × Reg × (Word → Word → Prop) × Int × Nat)
  | .beq a b off => some (a, b, fun x y => x = y, 2 * off.toInt, 4)
  | .bne a b off => some (a, b, fun x y => x ≠ y, 2 * off.toInt, 4)
  | .blt a b off => some (a, b, fun x y => x.toInt < y.toInt, 2 * off.toInt, 4)
  | .bge a b off => some (a, b, fun x y => y.toInt ≤ x.toInt, 2 * off.toInt, 4)
  | .bltu a b off => some (a, b, fun x y => x.toNat < y.toNat, 2 * off.toInt, 4)
  | .bgeu a b off => some (a, b, fun x y => y.toNat ≤ x.toNat, 2 * off.toInt, 4)
  | .cBeqz a off => some (low8 a, 0, fun x y => x = y, 2 * off.toInt, 2)
  | .cBnez a off => some (low8 a, 0, fun x y => x ≠ y, 2 * off.toInt, 2)
  | _ => none

end Sys2Proof.Claims

open Sys2Proof Sys2Proof.Machine Sys2Proof.Claims

/-- R259, R260, R261: a branch goes to pc + sext(offset) × 2 when its condition holds, else to the next instruction. `j`,
`jl`, `jr` and `jlr` go to their target, link registers take the return address, and an odd register target takes TARGET
from the state before the jump. -/
def Obligations.BranchAndJumpResults : Prop :=
  (∀ (i : Instr) (a b : Reg) (c : Word → Word → Prop) (off : Int) (len : Nat) (s : State),
    branchRow i = some (a, b, c, off, len) → Free s [a, b] →
    (c (s.g a) (s.g b) → exec i s = .next (wentTo s (s.cur.pc + BitVec.ofInt 64 off))) ∧
    (¬ c (s.g a) (s.g b) → exec i s = .next (moved s len))) ∧
  ((∀ (off : BitVec 24) (s : State),
    exec (.j off) s = .next (wentTo s (s.cur.pc + BitVec.ofInt 64 (2 * off.toInt)))) ∧
  (∀ (off : BitVec 11) (s : State),
    exec (.cJ off) s = .next (wentTo s (s.cur.pc + BitVec.ofInt 64 (2 * off.toInt)))) ∧
  (∀ (off : BitVec 24) (s : State), Free s [31] →
    exec (.jl off) s = .next (wentTo (wrote s 31 (s.cur.pc + 4) 0) (s.cur.pc + BitVec.ofInt 64 (2 * off.toInt)))) ∧
  (∀ (a : Reg) (s : State), Free s [a] → (s.g a).getLsbD 0 = false → exec (.jr a) s = .next (wentTo s (s.g a))) ∧
  (∀ (d a : Reg) (s : State), Free s [d, a] → (s.g a).getLsbD 0 = false →
    exec (.jlr d a) s = .next (wentTo (wrote s d (s.cur.pc + 4) 0) (s.g a))) ∧
  (∀ (d a : Reg) (s : State), Free s [d, a] → (s.g a).getLsbD 0 = true →
    exec (.jr a) s = .next (s.takeTrap (scalarTrap cTARGET (s.g a).toNat 0)) ∧
    exec (.jlr d a) s = .next (s.takeTrap (scalarTrap cTARGET (s.g a).toNat 0))))

namespace Sys2Proof.Claims

/-! ### Loads, stores and atomics (R224, R255 to R257, R268) -/

/-- R255, R224: destination, base, bytes, whether the value is zero-extended, offset and length of each load; u = 1 with
w = 3 is no form of it. -/
def loadRow : Instr → Option (Reg × Reg × Nat × Bool × Int × Nat)
  | .ld d a w u imm => if u = true ∧ w = 3 then none else some (d, a, 2 ^ w.toNat, u, imm.toInt, 4)
  | .ldImm d a w u imm => if u = true ∧ w = 3 then none else some (d, a, 2 ^ w.toNat, u, imm.toInt, 8)
  | .cLd d imm => some (low8 d, 30, 8, false, 8 * imm.toNat, 2)
  | _ => none

/-- R255, R224: source, base, bytes, offset and length of each store. -/
def storeRow : Instr → Option (Reg × Reg × Nat × Int × Nat)
  | .st r a w imm => some (r, a, 2 ^ w.toNat, imm.toInt, 4)
  | .stImm r a w imm => some (r, a, 2 ^ w.toNat, imm.toInt, 8)
  | .cSt r imm => some (low8 r, 30, 8, 8 * imm.toNat, 2)
  | _ => none

/-- The effective address (R255). -/
def ea (s : State) (a : Reg) (off : Int) : Word := s.g a + BitVec.ofInt 64 off

/-- A value of n bytes as a register takes it (R255). -/
def extended (u : Bool) (n x : Nat) : Word := if u then BitVec.ofNat 64 x else (BitVec.ofNat (8 * n) x).signExtend 64

/-- R268: destination, address, operand, bytes, whether the order holds a release, scope, and the value written: none
when a compare and swap does not match. -/
def atomicRow : Instr → Option (Reg × Reg × Reg × Nat × Bool × BitVec 3 × (Nat → Nat → Nat → Option Nat))
  | .amoadd d a b o v m => some (d, a, b, size v, 2 ≤ o.toNat, m, fun old x _ => some ((old + x) % 2 ^ (8 * size v)))
  | .amoswap d a b o v m => some (d, a, b, size v, 2 ≤ o.toNat, m, fun _ x _ => some x)
  | .amoand d a b o v m => some (d, a, b, size v, 2 ≤ o.toNat, m, fun old x _ => some (old &&& x))
  | .amoor d a b o v m => some (d, a, b, size v, 2 ≤ o.toNat, m, fun old x _ => some (old ||| x))
  | .amoxor d a b o v m => some (d, a, b, size v, 2 ≤ o.toNat, m, fun old x _ => some (old ^^^ x))
  | .amomin d a b o v m => some (d, a, b, size v, 2 ≤ o.toNat, m,
      fun old x _ => some (if (BitVec.ofNat (8 * size v) old).toInt ≤ (BitVec.ofNat (8 * size v) x).toInt then old else x))
  | .amomax d a b o v m => some (d, a, b, size v, 2 ≤ o.toNat, m,
      fun old x _ => some (if (BitVec.ofNat (8 * size v) old).toInt ≤ (BitVec.ofNat (8 * size v) x).toInt then x else old))
  | .amocas d a b o v m => some (d, a, b, size v, 2 ≤ o.toNat, m, fun old x c => if old = c then some x else none)
  | _ => none
where
  size (v : Bool) : Nat := if v then 4 else 8

/-- The low n bytes of a register. -/
def lowBytes (x : Word) (n : Nat) : Nat := x.toNat % 2 ^ (8 * n)

/-- Before an atomic reads: the pages enter the TLB, and cached copies are written back and invalidated (R167 to R169, R187). -/
def atomicReady (s : State) (va : Word) (n : Nat) (keys : List Nat) : State :=
  (s.touch .atomic va n).filterLines false (linesOf keys)

/-- The value an atomic reads: the home's bytes under what the strand holds back there, in the write-combining buffer and in
stores that wait for a frozen entry's loads (R184, R188, R192). -/
def atomicOld (s : State) (va : Word) (n : Nat) (keys : List Nat) : Nat :=
  leNat (memReadList (s.cur.view s.mem) keys)

/-- What an atomic does at its home to the n bytes at `keys` before its register is written: the new value, if there is
one, is stored, and what the strand held of those bytes leaves its buffers (R187, R258). -/
def atomicAt (s : State) (va : Word) (n : Nat) (keys : List Nat) (f : Nat → Option Nat) : State :=
  let s1 := atomicReady s va n keys
  match f (atomicOld s va n keys) with
  | none => s1
  | some x => ((s1.settleHeld s1.cur.key keys).addStale s1.cur.coreNo keys).storeBytes keys (leBytes n x)

/-- A mirror mismatch: the record that the base die makes (class 4, the stack, the address), the check counted in CHKCNT, and
the machine check (R15, R64, R133). -/
noncomputable def mirrorCheck (s : State) (va pa : Nat) : State :=
  let s1 := s.addError 4 (errSource pa) 0 0 pa
  ({ s1 with cur := s1.cur.countCheck } : State).takeTrap (scalarTrap cMCHECK va 2)

/-- A buffered store of the strand writes into the lines of these bytes (R184, R188). -/
def storesThere (t : Strand) (keys : List Nat) : Bool :=
  t.sbuf.any (fun b => b.keys.any (fun k => (linesOf keys).contains (lineOf k)))

end Sys2Proof.Claims

open Sys2Proof Sys2Proof.Machine Sys2Proof.Claims

/-- R255, R224: a load whose bytes are all accessible, that waits for no fence and no vector store, writes g[d] with the
bytes at its address as the strand sees them, extended, and goes on; besides, its pages enter the TLB and its lines the
core's data L1. A form with u = 1 and w = 3 takes ILLEGAL. That a load is performed in its own step, and which entry makes
room in the TLB and the L1, are read as log entries 32 and 7 say. -/
def Obligations.LoadResults : Prop :=
  (∀ (i : Instr) (d a : Reg) (n : Nat) (u : Bool) (off : Int) (len : Nat) (s : State) (keys : List Nat),
    loadRow i = some (d, a, n, u, off, len) → Free s [d, a] → scalarKeys s s.cur .read n (ea s a off) = .ok keys →
    s.cur.fenced 0 = false → s.cur.loadWaits (ea s a off).toNat n = false →
    exec i s = .next (wrote ((s.touch .read (ea s a off) n).takeLines s.cur.coreNo false keys) d
      (extended u n (leNat (memReadList (s.cur.view s.mem) keys))) len)) ∧
  (∀ (d a : Reg) (imm : BitVec 11) (imm38 : BitVec 35) (s : State),
    exec (.ld d a 3 true imm) s = .next (s.takeTrap (scalarTrap cILLEGAL 0 (firstWord s))) ∧
    exec (.ldImm d a 3 true imm38) s = .next (s.takeTrap (scalarTrap cILLEGAL 0 (firstWord s))))

/-- R255, R256, R257, R188, R189: a store whose bytes are all accessible enters the strand's store buffer when they are
off-core memory, and is performed at once when they lie in a window; either way it goes on.
How held elements give way to a scalar write (log entry 10), older bytes kept for fetches (15), and a handler's store among
those of before its trap (31) are the model's. -/
def Obligations.StoreResults : Prop :=
  ∀ (i : Instr) (r a : Reg) (n : Nat) (off : Int) (len : Nat) (s : State) (keys : List Nat),
    storeRow i = some (r, a, n, off, len) → Free s [r, a] → scalarKeys s s.cur .write n (ea s a off) = .ok keys →
    s.cur.storeWaits (ea s a off).toNat n = false →
    let s1 := s.touch .write (ea s a off) n
    (keys.all offCore = true →
      exec i s = .next (moved { s1 with cur := { s1.cur with sbuf := s1.cur.sbuf ++
        [{ va := (ea s a off).toNat, keys := keys, val := lowBytes (s.g r) n, after := s1.cur.nextSeq, fence := 0,
           handler := s1.cur.inHandler, rewalk := false }] } } len)) ∧
    (keys.all offCore = false → s.cur.fenced 1 = false →
      exec i s = .next (moved (s1.performStore s1.cur.key s1.cur.coreNo keys (leBytes n (s.g r).toNat)) len))

/-- R256, R202, R14, R15, R20: a load or store that a byte stops takes that byte's trap with no effect, waits while the
byte's stack is being handed over, or, where the base die and the access rights disagree, records a MIRROR error and takes
MCHECK. A load of a poisoned line takes POISON at its first poisoned byte, once it waits for no fence, no vector store and
no buffered store of its own into the line. -/
def Obligations.AccessStops : Prop :=
  (∀ (i : Instr) (d a : Reg) (n : Nat) (u : Bool) (off : Int) (len : Nat) (s : State),
    loadRow i = some (d, a, n, u, off, len) → Free s [d, a] →
    (∀ c va info, checkBytes s s.cur .read none n (ea s a off) = .error (.trap c va info) →
      exec i s = .next (s.takeTrap (scalarTrap c va info))) ∧
    (checkBytes s s.cur .read none n (ea s a off) = .error .hold → exec i s = .next (waits s)) ∧
    (∀ va pa, checkBytes s s.cur .read none n (ea s a off) = .error (.mirror va pa) →
      exec i s = .next (mirrorCheck s va pa)) ∧
    (∀ keys j, checkBytes s s.cur .read none n (ea s a off) = .ok keys → s.cur.fenced 0 = false →
      s.cur.loadWaits (ea s a off).toNat n = false →
      keys.findIdx? (fun k => (sget none s.poison (k / 64)).isSome) = some j →
      exec i s = .next (if storesThere s.cur keys then waits s else
        s.takeTrap (scalarTrap cPOISON (ea s a off + BitVec.ofNat 64 j).toNat 0)))) ∧
  (∀ (i : Instr) (r a : Reg) (n : Nat) (off : Int) (len : Nat) (s : State),
    storeRow i = some (r, a, n, off, len) → Free s [r, a] →
    (∀ c va info, checkBytes s s.cur .write none n (ea s a off) = .error (.trap c va info) →
      exec i s = .next (s.takeTrap (scalarTrap c va info))) ∧
    (checkBytes s s.cur .write none n (ea s a off) = .error .hold → exec i s = .next (waits s)) ∧
    (∀ va pa, checkBytes s s.cur .write none n (ea s a off) = .error (.mirror va pa) →
      exec i s = .next (mirrorCheck s va pa)))

/-- R187, R257, R268: an aligned atomic whose bytes are accessible, that waits for nothing, reads the old value and writes the new
one in one step and sign-extends the old one into g[d]; an unaligned one takes MISALIGN, a scope of 6 or 7 ILLEGAL. An atomic or
a store to a window leaves its own bytes holding the value it wrote, and every other byte of memory as it was (nothing held back
in deterministic mode, no buffered store for an atomic, and no slice-table byte).
How held elements give way to a scalar write (log entry 10), older bytes kept for fetches (15), and a handler's store among
those of before its trap (31) are the model's. -/
def Obligations.AtomicResults : Prop :=
  (∀ (i : Instr) (d a b : Reg) (n : Nat) (rel : Bool) (m : BitVec 3) (f : Nat → Nat → Nat → Option Nat) (s : State),
    atomicRow i = some (d, a, b, n, rel, m, f) →
    (5 < m.toNat → exec i s = .next (s.takeTrap (scalarTrap cILLEGAL 0 (firstWord s)))) ∧
    (m.toNat ≤ 5 → Free s [d, a, b] → (s.g a).toNat % n ≠ 0 →
      exec i s = .next (s.takeTrap (scalarTrap cMISALIGN (s.g a).toNat 4))) ∧
    (∀ keys, m.toNat ≤ 5 → Free s [d, a, b] → (s.g a).toNat % n = 0 → scalarKeys s s.cur .atomic n (s.g a) = .ok keys →
      s.cur.atomicWaits (s.g a).toNat n keys rel = false →
      exec i s = .next (wrote
        (atomicAt s (s.g a) n keys (fun old => f old (lowBytes (s.g b) n) (lowBytes (s.g d) n))) d
        ((BitVec.ofNat (8 * n) (atomicOld s (s.g a) n keys)).signExtend 64) 4))) ∧
  ((∀ (s : State) (keys : List Nat) (n x : Nat), MemOk s → s.cur.held = [] → s.cur.exists_ = true → keys.Nodup →
    keys.length = n → (∀ k ∈ keys, isSliceKey k = false) →
    let t := s.performStore s.cur.key s.cur.coreNo keys (leBytes n x)
    memReadList t.mem keys = leBytes n x ∧ (∀ k, k ∉ keys → memRead t.mem k = memRead s.mem k)) ∧
  (∀ (s : State) (va : Word) (keys : List Nat) (n : Nat) (f : Nat → Option Nat), MemOk s →
    s.cur.held = [] → s.cur.sbuf = [] → s.cur.exists_ = true → keys.Nodup → keys.length = n →
    (∀ k ∈ keys, isSliceKey k = false) →
    atomicOld s va n keys = leNat (memReadList s.mem keys) ∧
    (∀ x, f (atomicOld s va n keys) = some x → memReadList (atomicAt s va n keys f).mem keys = leBytes n x) ∧
    (f (atomicOld s va n keys) = none → memReadList (atomicAt s va n keys f).mem keys = memReadList s.mem keys) ∧
    (∀ k, k ∉ keys → memRead (atomicAt s va n keys f).mem k = memRead s.mem k)))

namespace Sys2Proof.Claims

/-! ### Scalar floating point (R263 to R267) -/

/-- Bits and flags of an exact value rounded to a format, with infinities (R144, R263). -/
def roundTo (f : Fmt) (rm : Rm) (x : Exact) : Nat × BitVec 5 := ((x.round f rm false).bits, (x.round f rm false).fl)

/-- An operand of a format: the low bits of its register as a value (R263). -/
def operand (s : State) (f : Fmt) (r : Reg) : FpVal := f.decode ((s.g r).toNat % 2 ^ f.width)

/-- R264, R266, R267: destination, registers read, the m field, and bits and flags of each instruction that rounds. -/
def roundingRow : Instr → Option (Reg × List Reg × BitVec 3 × (State → Rm → Nat × BitVec 5))
  | .faddS d a b m => some (d, [a, b], m, fun s rm => roundTo .fp32 rm (fpAdd rm (operand s .fp32 a) (operand s .fp32 b)))
  | .fsubS d a b m => some (d, [a, b], m, fun s rm => roundTo .fp32 rm (fpAdd rm (operand s .fp32 a) (operand s .fp32 b).neg))
  | .fmulS d a b m => some (d, [a, b], m, fun s rm => roundTo .fp32 rm (fpMul (operand s .fp32 a) (operand s .fp32 b)))
  | .fdivS d a b m => some (d, [a, b], m, fun s rm => roundTo .fp32 rm (fpDiv (operand s .fp32 a) (operand s .fp32 b)))
  | .fsqrtS d a m => some (d, [a], m, fun s rm => roundTo .fp32 rm (fpSqrt (operand s .fp32 a)))
  | .fcvtSL d a m => some (d, [a], m, fun s rm => roundTo .fp32 rm (Exact.ofInt (s.g a).toInt))
  | .fcvtLS d a m => some (d, [a], m, fun s rm => toInt64 rm (operand s .fp32 a))
  | .fmaddS d a b m => some (d, [a, b], m, fun s rm =>
      roundTo .fp32 rm (fpFma rm (operand s .fp32 a) (operand s .fp32 b) (operand s .fp32 d)))
  | .fmsubS d a b m => some (d, [a, b], m, fun s rm =>
      roundTo .fp32 rm (fpFma rm (operand s .fp32 a) (operand s .fp32 b) (operand s .fp32 d).neg))
  | .fnmaddS d a b m => some (d, [a, b], m, fun s rm =>
      roundTo .fp32 rm (fpFma rm (operand s .fp32 a).neg (operand s .fp32 b) (operand s .fp32 d).neg))
  | .fnmsubS d a b m => some (d, [a, b], m, fun s rm =>
      roundTo .fp32 rm (fpFma rm (operand s .fp32 a).neg (operand s .fp32 b) (operand s .fp32 d)))
  | .faddD d a b m => some (d, [a, b], m, fun s rm => roundTo .fp64 rm (fpAdd rm (operand s .fp64 a) (operand s .fp64 b)))
  | .fsubD d a b m => some (d, [a, b], m, fun s rm => roundTo .fp64 rm (fpAdd rm (operand s .fp64 a) (operand s .fp64 b).neg))
  | .fmulD d a b m => some (d, [a, b], m, fun s rm => roundTo .fp64 rm (fpMul (operand s .fp64 a) (operand s .fp64 b)))
  | .fdivD d a b m => some (d, [a, b], m, fun s rm => roundTo .fp64 rm (fpDiv (operand s .fp64 a) (operand s .fp64 b)))
  | .fsqrtD d a m => some (d, [a], m, fun s rm => roundTo .fp64 rm (fpSqrt (operand s .fp64 a)))
  | .fcvtDL d a m => some (d, [a], m, fun s rm => roundTo .fp64 rm (Exact.ofInt (s.g a).toInt))
  | .fcvtLD d a m => some (d, [a], m, fun s rm => toInt64 rm (operand s .fp64 a))
  | .fmaddD d a b m => some (d, [a, b], m, fun s rm =>
      roundTo .fp64 rm (fpFma rm (operand s .fp64 a) (operand s .fp64 b) (operand s .fp64 d)))
  | .fmsubD d a b m => some (d, [a, b], m, fun s rm =>
      roundTo .fp64 rm (fpFma rm (operand s .fp64 a) (operand s .fp64 b) (operand s .fp64 d).neg))
  | .fnmaddD d a b m => some (d, [a, b], m, fun s rm =>
      roundTo .fp64 rm (fpFma rm (operand s .fp64 a).neg (operand s .fp64 b) (operand s .fp64 d).neg))
  | .fnmsubD d a b m => some (d, [a, b], m, fun s rm =>
      roundTo .fp64 rm (fpFma rm (operand s .fp64 a).neg (operand s .fp64 b) (operand s .fp64 d)))
  | _ => none
where
  /-- A signed 64-bit integer in the range of R266, as a word. -/
  toInt64 (rm : Rm) (x : FpVal) : Nat × BitVec 5 :=
    ((BitVec.ofInt 64 (fpToInt rm (-(2 : Int) ^ 63) ((2 : Int) ^ 63 - 1) x).1).toNat,
      (fpToInt rm (-(2 : Int) ^ 63) ((2 : Int) ^ 63 - 1) x).2.1)

/-- R146, R264, R265: destination, registers read, and bits and flags of each instruction that does not round. -/
def plainFpRow : Instr → Option (Reg × List Reg × (State → Nat × BitVec 5))
  | .fminS d a b => some (d, [a, b], fun s => minMax .fp32 false s a b)
  | .fmaxS d a b => some (d, [a, b], fun s => minMax .fp32 true s a b)
  | .feqS d a b => some (d, [a, b], fun s => compare .eq (operand s .fp32 a) (operand s .fp32 b))
  | .fltS d a b => some (d, [a, b], fun s => compare .lt (operand s .fp32 a) (operand s .fp32 b))
  | .fleS d a b => some (d, [a, b], fun s => compare .le (operand s .fp32 a) (operand s .fp32 b))
  | .fclassS d a => some (d, [a], fun s => (fpClass .fp32 ((s.g a).toNat % 2 ^ 32), 0))
  | .fminD d a b => some (d, [a, b], fun s => minMax .fp64 false s a b)
  | .fmaxD d a b => some (d, [a, b], fun s => minMax .fp64 true s a b)
  | .feqD d a b => some (d, [a, b], fun s => compare .eq (operand s .fp64 a) (operand s .fp64 b))
  | .fltD d a b => some (d, [a, b], fun s => compare .lt (operand s .fp64 a) (operand s .fp64 b))
  | .fleD d a b => some (d, [a, b], fun s => compare .le (operand s .fp64 a) (operand s .fp64 b))
  | .fclassD d a => some (d, [a], fun s => (fpClass .fp64 ((s.g a).toNat % 2 ^ 64), 0))
  | _ => none
where
  minMax (f : Fmt) (big : Bool) (s : State) (a b : Reg) : Nat × BitVec 5 :=
    ((fpMinMax f big ((s.g a).toNat % 2 ^ f.width) ((s.g b).toNat % 2 ^ f.width)).bits,
      (fpMinMax f big ((s.g a).toNat % 2 ^ f.width) ((s.g b).toNat % 2 ^ f.width)).fl)
  compare (c : Cmp) (x y : FpVal) : Nat × BitVec 5 := (if (fpCompare c x y).1 then 1 else 0, (fpCompare c x y).2)

/-- A NaN by its bits, for a format of `fb` fraction and `eb` exponent bits (R138). -/
abbrev isNan (fb eb : Nat) (x : Word) : Prop := x.toNat / 2 ^ fb % 2 ^ eb = 2 ^ eb - 1 ∧ x.toNat % 2 ^ fb ≠ 0

/-- A signalling NaN: the top fraction bit is clear (R138). -/
abbrev isSignalling (fb eb : Nat) (x : Word) : Prop := isNan fb eb x ∧ x.toNat / 2 ^ (fb - 1) % 2 = 0

/-- The current strand with flags ORed into FSTAT, and nothing else (R145, R263). -/
def flagged (s : State) (fl : BitVec 5) : State :=
  { s with cur := { s.cur with ctl := { s.cur.ctl with fstat := s.cur.ctl.fstat ||| fl.setWidth 64 } } }

end Sys2Proof.Claims

open Sys2Proof Sys2Proof.Machine Sys2Proof.Claims

/-- R263, R264, R266, R267: an instruction that rounds writes the rounded result, ORs its flags into FSTAT and goes on:
under mode m for m 0 to 4, under RMODE for m = 5; m = 6 and 7 take ILLEGAL. -/
def Obligations.RoundingResults : Prop :=
  ∀ (i : Instr) (d : Reg) (rs : List Reg) (m : BitVec 3) (f : State → Rm → Nat × BitVec 5) (s : State),
    roundingRow i = some (d, rs, m, f) →
    (m.toNat ≤ 4 → Free s (d :: rs) →
      exec i s = .next (wrote (flagged s (f s { code := m.toNat, r := 0 }).2) d
        (BitVec.ofNat 64 (f s { code := m.toNat, r := 0 }).1) 4)) ∧
    (m.toNat = 5 → Free s (d :: rs) →
      exec i s = .next (wrote (flagged s (f s { code := s.cur.ctl.rmode.toNat % 8, r := 0 }).2) d
        (BitVec.ofNat 64 (f s { code := s.cur.ctl.rmode.toNat % 8, r := 0 }).1) 4)) ∧
    (5 < m.toNat → exec i s = .next (s.takeTrap (scalarTrap cILLEGAL 0 (firstWord s))))

/-- R263, R264, R265: minimum, maximum, compares and classes write their result, OR their flags into FSTAT and go on. A NaN
operand makes every compare give 0; only a signalling NaN sets NV in feq, any NaN sets it in flt and fle; −0 equals +0 under
all. -/
def Obligations.PlainFpResults : Prop :=
  (∀ (i : Instr) (d : Reg) (rs : List Reg) (f : State → Nat × BitVec 5) (s : State),
    plainFpRow i = some (d, rs, f) → Free s (d :: rs) →
    exec i s = .next (wrote (flagged s (f s).2) d (BitVec.ofNat 64 (f s).1) 4)) ∧
  ((∀ (d a b : Reg) (s : State), Free s [d, a, b] → isNan 23 8 (s.g a) ∨ isNan 23 8 (s.g b) →
    exec (.feqS d a b) s = .next (wrote
      (flagged s (if isSignalling 23 8 (s.g a) ∨ isSignalling 23 8 (s.g b) then 16 else 0)) d 0 4) ∧
    exec (.fltS d a b) s = .next (wrote (flagged s 16) d 0 4) ∧
    exec (.fleS d a b) s = .next (wrote (flagged s 16) d 0 4)) ∧
  (∀ (d a b : Reg) (s : State), Free s [d, a, b] → isNan 52 11 (s.g a) ∨ isNan 52 11 (s.g b) →
    exec (.feqD d a b) s = .next (wrote
      (flagged s (if isSignalling 52 11 (s.g a) ∨ isSignalling 52 11 (s.g b) then 16 else 0)) d 0 4) ∧
    exec (.fltD d a b) s = .next (wrote (flagged s 16) d 0 4) ∧
    exec (.fleD d a b) s = .next (wrote (flagged s 16) d 0 4)) ∧
  (∀ (d a b : Reg) (s : State), Free s [d, a, b] → (s.g a).toNat % 2 ^ 31 = 0 → (s.g b).toNat % 2 ^ 31 = 0 →
    exec (.feqS d a b) s = .next (wrote (flagged s 0) d 1 4) ∧
    exec (.fltS d a b) s = .next (wrote (flagged s 0) d 0 4) ∧
    exec (.fleS d a b) s = .next (wrote (flagged s 0) d 1 4)) ∧
  (∀ (d a b : Reg) (s : State), Free s [d, a, b] → (s.g a).toNat % 2 ^ 63 = 0 → (s.g b).toNat % 2 ^ 63 = 0 →
    exec (.feqD d a b) s = .next (wrote (flagged s 0) d 1 4) ∧
    exec (.fltD d a b) s = .next (wrote (flagged s 0) d 0 4) ∧
    exec (.fleD d a b) s = .next (wrote (flagged s 0) d 1 4)))

namespace Sys2Proof.Claims

/-! ### Traps, control registers, waiting (R127 to R136, R197 to R204, R349 to R360) -/

/-- The current strand exists and has nothing queued, nothing pending and no machine check. -/
abbrev Quiet (s : State) : Prop :=
  s.cur.exists_ = true ∧ s.cur.viq = [] ∧ s.cur.rq = [] ∧ s.cur.mcheck = none

/-- Every buffered store is performed. -/
abbrev StoresPerformed (s : State) : Prop := s.cur.sbuf = []

/-- An entry of the frozen area as `tret` reposts it (R199, R204): the element that TVIQ and TELEM name is inactive when SKIP
is set, an incomplete entry's fault is dropped, and its registers are read again. -/
def reposted (t : Strand) (e : VEntry) : VEntry :=
  t.rejoin { e with
    fault := if e.complete then e.fault else none
    skip := if t.ctl.tinfo.getLsbD 62 = true ∧ e.seq.setWidth 64 = t.ctl.tviq then some t.ctl.telem.toNat else none }

/-- What stops `tret`'s read of the frozen area, at either end of it: a stack that the strand's die does not own, or a mirror
mismatch (R14, R15). -/
noncomputable def recordsStop (s : State) : Option Stop := s.saveStop s.cur [0x7000, 0x7000 + 128 * s.cur.frozen - 1]

/-- A buffered store of a partition's strand writes in a range of virtual addresses. -/
abbrev writesIn (part : BitVec 3) (lo hi : Nat) (t : Strand) (b : BufferedStore) : Prop :=
  t.part = part ∧ b.va < hi ∧ lo < b.va + b.keys.length

/-- Another strand of the partition has a buffered store in the range that may be performed now, or whose loads go on by
themselves (R188, R358). -/
abbrev StoresSoon (s : State) (lo hi : Nat) : Prop :=
  ∃ t ∈ s.others, ∃ n : Nat, ∃ b : BufferedStore, t.sbuf[n]? = some b ∧ writesIn s.cur.part lo hi t b ∧
    (t.storeReady n = true ∨ t.loadsGoOn 0 0 b = true)

/-- The read-queue slots of reposted entries: one for each value still to be delivered (R99, R204). -/
def repostedSlots (es : List VEntry) : List RqSlot :=
  (es.filter (fun e => !e.complete || e.value.isSome)).filterMap (fun e => (rqDest e.instr).map (fun d =>
    { seq := e.seq, dest := d, value := if e.complete then e.value else none }))

/-- The trap record, the level and the pc that a trap leaves when nothing is queued (R135, R197, R200), and nothing else. -/
def entered (s : State) (cause : Nat) (addr : Word) (info : Nat) : State :=
  { s with cur := { s.cur with
    ctl := { s.cur.ctl with
      tcause := BitVec.ofNat 64 cause, tpc := s.cur.pc, tviq := 0, telem := 0, taddr := addr
      tinfo := BitVec.ofNat 64 ((if s.cur.level = .kernel then 2 ^ 63 else 0) + info) }
    trapNow := BitVec.ofNat 64 cause
    trapInfo := BitVec.ofNat 64 ((if s.cur.level = .kernel then 2 ^ 63 else 0) + info)
    level := .kernel, inHandler := true, pc := s.cur.ctl.trapvec, stalled := false, pause := .none
    frozen := 0, shadow := [] } }

/-- R127: the word a control register's number reads: none when the number is reserved. -/
def controlWord (s : State) (n : Nat) : Option Word :=
  let t := s.cur
  let num (x : Nat) : Option Word := some (BitVec.ofNat 64 x)
  match n with
  | 0x000 => some t.ctl.vl
  | 0x001 => some t.ctl.vtype
  | 0x002 => num (8 * t.lgw * (128 / (8 * 2 ^ (t.ctl.vtype.toNat % 8))) * 2 ^ (t.ctl.vtype.toNat / 128 % 8))
  | 0x003 => num t.lgw
  | 0x004 => some t.ctl.stripbase
  | 0x005 => some t.ctl.srseed
  | 0x006 => some t.ctl.srsalt
  | 0x007 => some t.ctl.rmode
  | 0x008 => some t.ctl.fstat
  | 0x009 => some t.ctl.gstat
  | 0x00A => some t.ctl.suspect
  | 0x00B => some t.ctl.check
  | 0x00C => some t.ctl.chkcnt
  | 0x00D => num (if t.det then 1 else 0)
  | 0x010 => num ((if t.die then 512 else 0) + 4 * t.core.toNat + t.lane.toNat / 8)
  | 0x011 => num t.logid
  | 0x012 => num t.nstrands
  | 0x013 => num t.farm
  | 0x014 => num t.part.toNat
  | 0x018 => some t.ctl.tshape
  | 0x019 => some t.ctl.tpad
  | 0x01A => some t.ctl.mxsa
  | 0x01B => some t.ctl.mxsb
  | 0x01C => some t.ctl.xferbar
  | 0x01D => some t.ctl.rowbytes
  | 0x020 => some t.ctl.trapvec
  | 0x021 => some t.ctl.tcause
  | 0x022 => some t.ctl.tpc
  | 0x023 => some t.ctl.tviq
  | 0x024 => some t.ctl.telem
  | 0x025 => some t.ctl.taddr
  | 0x026 => some t.ctl.tinfo
  | 0x030 => some t.ctl.ptbase
  | 0x031 => num (s.core t.coreNo).maxlg.toNat
  | 0x032 => some t.ctl.errinj
  | _ => none

/-- R127: marked K. -/
def kernelRegs : List Nat := [0x020, 0x030, 0x031, 0x032]

/-- R127: marked R. -/
def readOnlyRegs : List Nat := [0x000, 0x002, 0x003, 0x00D, 0x010, 0x011, 0x012, 0x013, 0x014]

/-- R127: marked KR. -/
def trapRegs : List Nat := [0x021, 0x022, 0x023, 0x024, 0x025, 0x026]

/-- R127, R128, R132 to R135: the plain control registers that `mtc` writes, what each may hold, and the registers after
the write. VTYPE, MAXLG and ERRINJ stand in statements of their own. -/
def controlWrite (c : Ctl) (x : Word) (n : Nat) : Option (Prop × Ctl) :=
  match n with
  | 0x004 => some (True, { c with stripbase := x })
  | 0x005 => some (True, { c with srseed := x })
  | 0x006 => some (x.toNat < 2 ^ 8, { c with srsalt := x })
  | 0x007 => some (x.toNat ≤ 4, { c with rmode := x })
  | 0x008 => some (x.toNat < 2 ^ 5, { c with fstat := x })
  | 0x009 => some (x.toNat < 2 ^ 5, { c with gstat := x })
  | 0x00A => some (x.toNat < 2 ^ 16, { c with suspect := x })
  | 0x00B => some (x.toNat ≤ 2, { c with check := x })
  | 0x00C => some (True, { c with chkcnt := x })
  | 0x018 => some ((∃ m n : Nat, 1 ≤ m ∧ m ≤ 64 ∧ 1 ≤ n ∧ n ≤ 64 ∧ x.toNat = 256 * n + m), { c with tshape := x })
  | 0x019 => some (x.toNat < 2 ^ 32, { c with tpad := x })
  | 0x01A => some (True, { c with mxsa := x })
  | 0x01B => some (True, { c with mxsb := x })
  | 0x01C => some (x.toNat < 2 ^ 16 ∧ x.getLsbD 13 = false, { c with xferbar := x })
  | 0x01D => some ((∃ k : Nat, 1 ≤ k ∧ k ≤ 4096 ∧ x.toNat = 16 * k), { c with rowbytes := x })
  | 0x020 => some (x.toNat % 64 = 0, { c with trapvec := x })
  | 0x021 => some (x.toNat < 2 ^ 9, { c with tcause := x })
  | 0x022 => some (True, { c with tpc := x })
  | 0x023 => some (x.toNat < 2 ^ 32, { c with tviq := x })
  | 0x024 => some (x.toNat < 2 ^ 32, { c with telem := x })
  | 0x025 => some (True, { c with taddr := x })
  | 0x026 => some (True, { c with tinfo := x })
  | 0x030 => some (x.toNat % 65536 = 0, { c with ptbase := x })
  | _ => none

/-- Every earlier VIQ entry has completed (R100, R130). -/
abbrev AllComplete (s : State) : Prop := ∀ e ∈ s.cur.viq, e.complete = true

/-- R131: what VTYPE may hold. -/
def legalVtype (x : Word) : Prop :=
  ∃ sew fmt group rm sat : Nat, sew ≤ 3 ∧ fmt ≤ 9 ∧ group ≤ 3 ∧ rm ≤ 5 ∧ sat ≤ 1 ∧
    x.toNat = sew + 8 * fmt + 128 * group + 1024 * rm + 8192 * sat

/-- Bit q of the elements that register n's group holds, below a bound and zero from it on (R95, R120, R121). -/
def groupBit (t : Strand) (n q bound : Nat) : Bool :=
  let group := 2 ^ (t.ctl.vtype.toNat / 128 % 8)
  decide (q < bound) && (t.v.getD (n / group * group + q / (1024 * t.lgw)) 0).getLsbD (q % (1024 * t.lgw))

/-- R96: VLMAX of a width under a VTYPE. -/
def maxLength (w : Nat) (x : Word) : Nat := 8 * w * (128 / (8 * 2 ^ (x.toNat % 8))) * 2 ^ (x.toNat / 128 % 8)

end Sys2Proof.Claims

open Sys2Proof Sys2Proof.Machine Sys2Proof.Claims

/-- R350, R197, R199, R200, R201, R135: `trap`, `brk` and `c.brk` take the causes 0x18 and 0x19 with their code in TINFO; a
trap of a scalar instruction outside a handler fills the trap record, enters kernel level at TRAPVEC and leaves the rest of
the module alone, when nothing is queued; whatever is queued, it records the chosen cause, empties the VIQ and the read
queue and leaves the registers at their architectural values, once the core can write the frozen area. A trap due while a
handler runs ends the strand, RES2 of its farm holding the trap handled, the DOUBLE code and the cause not delivered; the
end waits for the strand's transfers. That the end waits for transfers is read as log entry 35 says. -/
def Obligations.TrapEntry : Prop :=
  ((∀ (n : BitVec 10) (s : State), Quiet s → s.cur.inHandler = false →
    exec (.trap n) s = .next (entered s 0x18 0 n.toNat) ∧ exec (.brk n) s = .next (entered s 0x19 0 n.toNat)) ∧
  (∀ (n : BitVec 11) (s : State), Quiet s → s.cur.inHandler = false →
    exec (.cBrk n) s = .next (entered s 0x19 0 n.toNat)) ∧
  (∀ (n : BitVec 10) (m : BitVec 11) (s : State),
    exec (.trap n) s = .next (s.takeTrap (scalarTrap 0x18 0 n.toNat)) ∧
    exec (.brk n) s = .next (s.takeTrap (scalarTrap 0x19 0 n.toNat)) ∧
    exec (.cBrk m) s = .next (s.takeTrap (scalarTrap 0x19 0 m.toNat)))) ∧
  (∀ (s : State) (cause : BitVec 8) (addr info : Nat), Quiet s → s.cur.inHandler = false → info < 2 ^ 62 →
    s.takeTrap (scalarTrap cause addr info) = entered s cause.toNat (BitVec.ofNat 64 addr) info) ∧
  (∀ (s : State) (i : TrapInfo),
    let w := s.drainStrand s.cur.key
    let u := w.cur
    let j := chooseTrap u i
    let t := s.takeTrap i
    u.inHandler = false →
    (u.viq ≠ [] → w.saveHeld u = true → t = waits w) ∧
    (u.viq = [] ∨ w.saveHeld u = false →
    t.cur.level = .kernel ∧ t.cur.inHandler = true ∧ t.cur.viq = [] ∧ t.cur.rq = [] ∧ t.cur.frozen = u.viq.length ∧
    t.cur.pc = u.ctl.trapvec ∧ t.cur.ctl.tpc = u.pc ∧ t.cur.ctl.taddr = j.addr ∧
    t.cur.ctl.tcause = BitVec.ofNat 64 ((if j.vec then 256 else 0) + j.cause.toNat) ∧
    t.cur.ctl.tviq = j.seq.setWidth 64 ∧ t.cur.ctl.telem = BitVec.ofNat 64 j.elem ∧
    t.cur.g = (u.clearFault j).architectural.g ∧
    t.cur.v = (u.clearFault j).architectural.v ∧ t.cur.p = (u.clearFault j).architectural.p ∧
    t.cur.trapNow = t.cur.ctl.tcause ∧ t.cur.trapInfo = t.cur.ctl.tinfo ∧
    t.cur.ctl.tinfo = BitVec.ofNat 64 ((if u.level = .kernel then 2 ^ 63 else 0) + j.info.toNat) ∧
    (u.mcheck = none → u.dueFault = none → j = i))) ∧
  (∀ (s : State) (cause : BitVec 8) (addr info : Nat), Quiet s → s.cur.inHandler = true →
    (s.transfers s.cur.key = false → s.takeTrap (scalarTrap cause addr info) =
      s.endStrand s.cur.key (some (s.cur.trapNow.toNat % 512 + 0x1F * 2 ^ 16 + cause.toNat * 2 ^ 24))) ∧
    (s.transfers s.cur.key = true → (s.takeTrap (scalarTrap cause addr info)).cur =
      { s.cur with mcheck := some (scalarTrap cause addr info), stalled := true }))

/-- R204, R351, R349, R128: `tret` returns to TPC, or past it for TRAP and BRK, at the level in TINFO, and clears INHANDLER
and SKIP; an odd TPC takes TARGET; outside a handler it takes ILLEGAL, else at user level PRIV; it waits for the handler's
own entries. Frozen entries are read back from their records and reposted in order, the first one beginning a convoy, the
element that SKIP names inactive, each value still owed with its read-queue slot; the handler's buffered stores come before
them. It waits while their records lie on a stack that is being handed over, takes OWNER where they lie on one that the strand's
die does not own (R14, R180), a mirror mismatch met there is recorded and takes MCHECK (R15), and a record that holds no
instruction stops the machine.
ILLEGAL comes before PRIV as log entry 23 reads R229; what a record does not hold is kept as log entry 13 says. -/
def Obligations.TretResumes : Prop :=
  ∀ s : State,
    (s.cur.level = .user → s.cur.inHandler = true →
      exec .tret s = .next (s.takeTrap (scalarTrap cPRIV 0 (firstWord s)))) ∧
    (s.cur.inHandler = false →
      exec .tret s = .next (s.takeTrap (scalarTrap cILLEGAL 0 (firstWord s)))) ∧
    (s.cur.level = .kernel → s.cur.inHandler = true → ¬ AllComplete s → exec .tret s = .next (waits s)) ∧
    (s.cur.level = .kernel → s.cur.inHandler = true → AllComplete s → s.cur.ctl.tpc.getLsbD 0 = true →
      exec .tret s = .next (s.takeTrap (scalarTrap cTARGET s.cur.ctl.tpc.toNat 0))) ∧
    (s.cur.level = .kernel → s.cur.inHandler = true → s.cur.viq = [] → s.cur.frozen = 0 →
      s.cur.ctl.tpc.getLsbD 0 = false →
      exec .tret s = .next { s with cur := { s.cur with
        viq := [], rq := [], sbuf := s.cur.sbuf.map (fun b => { b with handler := false })
        frozen := 0, shadow := [], cvy := true
        level := if s.cur.ctl.tinfo.getLsbD 63 then .kernel else .user
        inHandler := false
        ctl := { s.cur.ctl with tinfo := s.cur.ctl.tinfo &&& ~~~(BitVec.twoPow 64 62) }
        pc := if s.cur.ctl.tcause.toNat % 256 = 0x18 ∨ s.cur.ctl.tcause.toNat % 256 = 0x19 then
          s.cur.ctl.tpc + BitVec.ofNat 64 (parcelLength (peekParcel s s.cur.ctl.tpc)) else s.cur.ctl.tpc } }) ∧
    (s.cur.level = .kernel → s.cur.inHandler = true → AllComplete s → s.cur.frozen ≠ 0 →
      s.cur.ctl.tpc.getLsbD 0 = false →
      (s.saveHeld s.cur = true → exec .tret s = .next (waits s)) ∧
      (∀ c va info, s.saveHeld s.cur = false → recordsStop s = some (.trap c va info) →
        exec .tret s = .next (s.takeTrap (scalarTrap c va info))) ∧
      (∀ va pa, s.saveHeld s.cur = false → recordsStop s = some (.mirror va pa) →
        exec .tret s = .next (mirrorCheck s va pa)) ∧
      (s.saveHeld s.cur = false → recordsStop s = none →
        (readRecords s s.cur s.cur.frozen 0x7000 = none → exec .tret s = .fault .recordLost) ∧
        (∀ e r, readRecords s s.cur s.cur.frozen 0x7000 = some (e :: r) →
          let es := { reposted s.cur e with convoy := true } :: r.map (reposted s.cur)
          exec .tret s = .next { s with cur := ({ s.cur with
            viq := es, rq := repostedSlots es
            sbuf := s.cur.sbuf.map (fun b => if b.handler = true then { b with handler := false, after := e.seq } else b)
            frozen := 0, shadow := []
            level := if s.cur.ctl.tinfo.getLsbD 63 then .kernel else .user
            inHandler := false
            ctl := { s.cur.ctl with tinfo := s.cur.ctl.tinfo &&& ~~~(BitVec.twoPow 64 62) }
            pc := if s.cur.ctl.tcause.toNat % 256 = 0x18 ∨ s.cur.ctl.tcause.toNat % 256 = 0x19 then
              s.cur.ctl.tpc + BitVec.ofNat 64 (parcelLength (peekParcel s s.cur.ctl.tpc)) else s.cur.ctl.tpc } : Strand).advanceAll })))

/-- R355, R127, R128: `mtc` writes the word to the register that its number names, at a level that may, once R100 and
R130 no longer hold it back; a value that R128 does not allow takes ILLEGAL, an allowed one at a level that may not PRIV.
ILLEGAL comes before PRIV as log entry 23 reads R229. -/
def Obligations.ControlWrites : Prop :=
  ∀ (r : Reg) (n : BitVec 10) (s : State) (ok : Prop) (c : Ctl),
    controlWrite s.cur.ctl (s.g r) n.toNat = some (ok, c) → Free s [r] →
    (¬ ok → exec (.mtc r n) s = .next (s.takeTrap (scalarTrap cILLEGAL 0 (firstWord s)))) ∧
    (ok → n.toNat ∈ kernelRegs ++ trapRegs → s.cur.level = .user →
      exec (.mtc r n) s = .next (s.takeTrap (scalarTrap cPRIV 0 (firstWord s)))) ∧
    (ok → (n.toNat ∈ kernelRegs ++ trapRegs → s.cur.level = .kernel) →
      (n.toNat ∈ [0x008, 0x009, 0x00A, 0x00C] → AllComplete s) →
      (n.toNat ∈ [0x005, 0x006] → s.cur.ctl.vtype.toNat / 1024 % 8 = 5 → AllComplete s) →
      exec (.mtc r n) s = .next (moved { s with cur := { s.cur with ctl := c } } 4))

/-- R355, R127, R128, R100: `mfc` reads the word that its number names; a gathering register waits until every earlier entry has
completed. A reserved number, or an `mtc` of a register marked R, takes ILLEGAL; a user's `mfc` of one marked K takes PRIV. -/
def Obligations.ControlReads : Prop :=
  (∀ (d : Reg) (n : BitVec 10) (x : Word) (s : State), controlWord s n.toNat = some x →
    (n.toNat ∈ kernelRegs → s.cur.level = .kernel) → Free s [d] →
    (n.toNat ∈ [0x008, 0x009, 0x00A, 0x00C, 0x024] → AllComplete s) →
    exec (.mfc d n) s = .next (wrote s d x 4)) ∧
  (∀ (r : Reg) (n : BitVec 10) (s : State),
    (controlWord s n.toNat = none →
      exec (.mfc r n) s = .next (s.takeTrap (scalarTrap cILLEGAL 0 (firstWord s))) ∧
      exec (.mtc r n) s = .next (s.takeTrap (scalarTrap cILLEGAL 0 (firstWord s)))) ∧
    (n.toNat ∈ readOnlyRegs → exec (.mtc r n) s = .next (s.takeTrap (scalarTrap cILLEGAL 0 (firstWord s)))) ∧
    (n.toNat ∈ kernelRegs → s.cur.level = .user →
      exec (.mfc r n) s = .next (s.takeTrap (scalarTrap cPRIV 0 (firstWord s)))))

/-- R134, R136, R118, R229: at kernel level `mtc` of MAXLG sets the core's limit to 8, 16, 24 or 32, any other value takes
ILLEGAL at either level. An `mtc` of ERRINJ waits until earlier entries have completed; a KIND above 3, a reserved bit or a
place that does not exist then takes ILLEGAL, a good value at user level PRIV, and at kernel level KIND 0 to 3 injects its
fault on the strand and reads back with KIND 0. The device's steps have the same effect, and the same ILLEGAL.
ILLEGAL comes before PRIV as log entry 23 reads R229. -/
def Obligations.LaneLimitAndInjection : Prop :=
  (∀ (r : Reg) (s : State), Free s [r] → s.cur.level = .kernel → (s.g r).toNat ∈ [8, 16, 24, 32] →
    exec (.mtc r 0x031) s = .next (moved (s.setMaxlg s.cur.coreNo (s.g r).toNat) 4) ∧
    (s.cur.life = .running → exec (.maxlg (s.g r)) s = .next (s.setMaxlg s.cur.coreNo (s.g r).toNat))) ∧
  (∀ (r : Reg) (s : State), Free s [r] → (s.g r).toNat ∉ [8, 16, 24, 32] →
    exec (.mtc r 0x031) s = .next (s.takeTrap (scalarTrap cILLEGAL 0 (firstWord s))) ∧
    (s.cur.life = .running → exec (.maxlg (s.g r)) s = .next (s.takeTrap (scalarTrap cILLEGAL 0 (firstWord s))))) ∧
  (∀ (r : Reg) (s : State), Free s [r] → s.cur.level = .kernel → AllComplete s →
    (s.g r).toNat / 64 % 2 ^ 38 = 0 → s.cur.injectOk (injectOf (s.g r)) = true →
    ∃ t : Strand, t = s.cur.inject (injectOf (s.g r)) ∧
      exec (.mtc r 0x032) s = .next (moved { s with cur := { t with
        ctl := { s.cur.ctl with errinj := BitVec.ofNat 64 ((s.g r).toNat % 2 ^ 61) } } } 4)) ∧
  (∀ (r : Reg) (s : State), Free s [r] →
    (¬ AllComplete s → exec (.mtc r 0x032) s = .next (waits s)) ∧
    (AllComplete s → (s.g r).toNat / 64 % 2 ^ 38 ≠ 0 ∨ s.cur.injectOk (injectOf (s.g r)) = false →
      exec (.mtc r 0x032) s = .next (s.takeTrap (scalarTrap cILLEGAL 0 (firstWord s)))) ∧
    (AllComplete s → (s.g r).toNat / 64 % 2 ^ 38 = 0 → s.cur.injectOk (injectOf (s.g r)) = true → s.cur.level = .user →
      exec (.mtc r 0x032) s = .next (s.takeTrap (scalarTrap cPRIV 0 (firstWord s))))) ∧
  (∀ (reg : Reg) (pos : BitVec 12) (bit : BitVec 6) (s : State), s.cur.life = .running →
    (1024 * s.cur.lgw ≤ pos.toNat * (8 * 2 ^ (s.cur.ctl.vtype.toNat % 8)) ∨ 8 * 2 ^ (s.cur.ctl.vtype.toNat % 8) ≤ bit.toNat →
      exec (.errinjFlipVectorBit reg pos bit) s = .next (s.takeTrap (scalarTrap cILLEGAL 0 (firstWord s)))) ∧
    (8 ≤ reg.toNat ∨ s.cur.tiles[reg.toNat]? = none ∨ 48 ≤ bit.toNat ∨
        (∃ a, s.cur.tiles[reg.toNat]? = some a ∧ (a.m.toNat ≤ pos.toNat / 64 ∨ a.n.toNat ≤ pos.toNat % 64)) →
      exec (.errinjFlipTileBit reg pos bit) s = .next (s.takeTrap (scalarTrap cILLEGAL 0 (firstWord s)))) ∧
    (8 * s.cur.lgw ≤ pos.toNat →
      exec (.errinjMarkRow reg pos) s = .next (s.takeTrap (scalarTrap cILLEGAL 0 (firstWord s))))) ∧
  (∀ (reg : Reg) (pos : BitVec 12) (bit : BitVec 6) (s : State), s.cur.life = .running →
    (pos.toNat * (8 * 2 ^ (s.cur.ctl.vtype.toNat % 8)) < 1024 * s.cur.lgw → bit.toNat < 8 * 2 ^ (s.cur.ctl.vtype.toNat % 8) →
      exec (.errinjFlipVectorBit reg pos bit) s = .next { s with cur := { s.cur with
        v := s.cur.v.setIfInBounds reg.toNat (s.cur.v.getD reg.toNat 0 ^^^
          BitVec.twoPow 32768 (pos.toNat * (8 * 2 ^ (s.cur.ctl.vtype.toNat % 8)) + bit.toNat)) } }) ∧
    (∀ a : Tile, s.cur.tiles[reg.toNat]? = some a → reg.toNat < 8 → pos.toNat / 64 < a.m.toNat → pos.toNat % 64 < a.n.toNat →
      bit.toNat < 48 → ∃ t : State, exec (.errinjFlipTileBit reg pos bit) s = .next t ∧
        t.cur.tiles[reg.toNat]? = some { a with
          elems := sset 0 a.elems pos.toNat (sget 0 a.elems pos.toNat ^^^ BitVec.twoPow 64 bit.toNat), ckv := false }) ∧
    (pos.toNat < 8 * s.cur.lgw → ∃ t : State, exec (.errinjMarkRow reg pos) s = .next t ∧
      (reg.toNat, pos.toNat) ∈ t.cur.badRows ∧ t.cur.v = s.cur.v))

/-- R273, R274, R131, R89, R100, R121: `setvl` writes min(g[a], VLMAX) to VL and g[d]; under another pending width it first
waits for earlier entries and adopts the width, the first m elements of every register staying; `setvtype` and an `mtc` of
VTYPE write VTYPE and lower VL to the new VLMAX, or take ILLEGAL for a value that R131 does not allow. -/
def Obligations.VectorLengthResults : Prop :=
  ((∀ (ext : Bool) (d a : Reg) (s : State), Free s [d, a] → s.cur.pendW = none ∨ s.cur.pendW = some s.cur.lgw →
    exec (.setvl ext d a) s = .next (wrote
      { s with cur := { s.cur with
        pendW := none
        ctl := { s.cur.ctl with
          vl := BitVec.ofNat 64 (min (s.g a).toNat (maxLength s.cur.lgw s.cur.ctl.vtype)) } } } d
      (BitVec.ofNat 64 (min (s.g a).toNat (maxLength s.cur.lgw s.cur.ctl.vtype))) (if ext then 8 else 4))) ∧
  (∀ (ext : Bool) (d a : Reg) (s : State), Free s [d, a] →
    (legalVtype (s.g a) →
      exec (.setvtype ext d a) s = .next (wrote
        { s with cur := { s.cur with ctl := { s.cur.ctl with vtype := s.g a
                                                             vl := BitVec.ofNat 64 (min s.cur.ctl.vl.toNat (maxLength s.cur.lgw (s.g a))) } } } d
        (BitVec.ofNat 64 (min s.cur.ctl.vl.toNat (maxLength s.cur.lgw (s.g a)))) (if ext then 8 else 4)) ∧
      exec (.mtc a 1) s = .next (moved
        { s with cur := { s.cur with ctl := { s.cur.ctl with vtype := s.g a
                                                             vl := BitVec.ofNat 64 (min s.cur.ctl.vl.toNat (maxLength s.cur.lgw (s.g a))) } } } 4)) ∧
    (¬ legalVtype (s.g a) →
      exec (.setvtype ext d a) s = .next (s.takeTrap (scalarTrap cILLEGAL 0 (firstWord s))) ∧
      exec (.mtc a 1) s = .next (s.takeTrap (scalarTrap cILLEGAL 0 (firstWord s)))))) ∧
  (∀ (ext : Bool) (d a : Reg) (w : Nat) (s : State), Free s [d, a] → s.cur.pendW = some w → w ≠ s.cur.lgw →
    (¬ AllComplete s → exec (.setvl ext d a) s = .next (waits s)) ∧
    (AllComplete s → ∃ t : State, exec (.setvl ext d a) s = .next t.poll ∧
      t.cur.lgw = w ∧ t.cur.pendW = none ∧
      t.cur.ctl.vl = BitVec.ofNat 64 (min (s.g a).toNat (maxLength w s.cur.ctl.vtype)) ∧
      t.cur.pc = s.cur.pc + (if ext then 8 else 4) ∧
      (d ≠ 0 → t.g d = BitVec.ofNat 64 (min (s.g a).toNat (maxLength w s.cur.ctl.vtype))) ∧
      (∀ p i : Nat, p < 64 → i < 32768 → (t.cur.p.getD p 0).getLsbD i =
        ((s.cur.p.getD p 0).getLsbD i && decide (i < min s.cur.ctl.vl.toNat (maxLength w s.cur.ctl.vtype)))) ∧
      (s.cur.ctl.vl.toNat ≤ maxLength s.cur.lgw s.cur.ctl.vtype → ∀ n i : Nat, n < 32 → i < 1024 * w → i < 32768 →
        (t.cur.v.getD n 0).getLsbD i = groupBit s.cur n (n % 2 ^ (s.cur.ctl.vtype.toNat / 128 % 8) * (1024 * w) + i)
          (min s.cur.ctl.vl.toNat (maxLength w s.cur.ctl.vtype) * (8 * 2 ^ (s.cur.ctl.vtype.toNat % 8))))))

/-- R352, R353, R360, R359, R108, R354, R213, R349: `wait` returns the latched events and clears them; `yield` goes on after
its stall; `vsync` once every entry has completed and every value has arrived; `sync` once the store buffer is empty, the
data L1 then clean, the instruction L1 and older bytes gone; `cvy` starts a convoy; until then each stalls at its pc. At
kernel level `halt` waits for entries and transfers and ends the strand, naming in RES2 the trap it handles unless that is
the exit stub's `trap 1023`; at user level it takes PRIV. -/
def Obligations.WaitingResults : Prop :=
  (∀ s : State,
    (∀ d a : Reg, Free s [d, a] → s.cur.latch ≠ 0 → exec (.wait d a) s = .next (wrote
      { s with cur := { s.cur with latch := 0, pause := .none } } d (BitVec.ofNat 64 s.cur.latch.toNat) 4)) ∧
    (∀ d a : Reg, Free s [d, a] → s.cur.latch = 0 → exec (.wait d a) s = .next
      (waits { s with cur := { s.cur with pause := .waiting (s.g a != 0) } })) ∧
    (∀ a : Reg, Free s [a] → s.cur.pause = .yielded →
      exec (.yield a) s = .next (moved { s with cur := { s.cur with pause := .none } } 4)) ∧
    (∀ a : Reg, Free s [a] → s.cur.pause = .none → ∃ n : Nat,
      (s.g a = 0 → n = 1) ∧ (s.g a ≠ 0 → n = min (s.g a).toNat (2 ^ 20)) ∧
      exec (.yield a) s = .next (waits { s with cur := { s.cur with pause := .yielding n } }).poll) ∧
    (AllComplete s → s.cur.rq = [] → exec .vsync s = .next (moved s 4)) ∧
    (¬ (AllComplete s ∧ s.cur.rq = []) → exec .vsync s = .next (waits s)) ∧
    (s.cur.sbuf = [] → exec .sync s = .next (moved
      (s.modCore s.cur.coreNo (fun c => { c with dirty := [], ilines := [], stale := [] })) 4)) ∧
    (s.cur.sbuf ≠ [] → exec .sync s = .next (waits s)) ∧
    (exec .cvy s = .next (moved { s with cur := { s.cur with cvy := true } } 2))) ∧
  (∀ s : State,
    (s.cur.level = .user → exec .halt s = .next (s.takeTrap (scalarTrap cPRIV 0 (firstWord s)))) ∧
    (s.cur.level = .kernel → ¬ (AllComplete s ∧ s.transfers s.cur.key = false) → exec .halt s = .next (waits s)) ∧
    (s.cur.level = .kernel → AllComplete s → s.transfers s.cur.key = false → s.cur.inHandler = false →
      exec .halt s = .next (s.endStrand s.cur.key none)) ∧
    (s.cur.level = .kernel → AllComplete s → s.transfers s.cur.key = false → s.cur.inHandler = true →
      s.cur.trapNow.toNat % 256 = 0x18 → s.cur.trapInfo.toNat % 1024 = 1023 →
      exec .halt s = .next (s.endStrand s.cur.key none)) ∧
    (s.cur.level = .kernel → AllComplete s → s.transfers s.cur.key = false → s.cur.inHandler = true →
      (s.cur.trapNow.toNat % 256 ≠ 0x18 ∨ s.cur.trapInfo.toNat % 1024 ≠ 1023) →
      exec .halt s = .next (s.endStrand s.cur.key (some (s.cur.trapNow.toNat % 512)))))

/-- R356, R52, R84, R357: `farm` on an aligned readable descriptor, every earlier access performed, queues it and answers
its FARMID, or answers bit 63 and the status it is refused with; `strip` delivers the strand's next strip and STRIPBASE,
or −1. -/
def Obligations.FarmAndStripResults : Prop :=
  (∀ (d a b : Reg) (s : State), Free s [d, a, b] → (s.g a).toNat % 8 ≠ 0 →
    exec (.farm d a b) s = .next (s.takeTrap (scalarTrap cMISALIGN (s.g a).toNat 1))) ∧
  (∀ (d a b : Reg) (s : State) (keys : List Nat), Free s [d, a, b] → (s.g a).toNat % 8 = 0 →
    scalarKeys s s.cur .read 128 (s.g a) = .ok keys → s.cur.fenced 0 = false →
    s.cur.loadWaits (s.g a).toNat 128 = false → s.cur.releaseWaits = false →
    let s1 := (s.touch .read (s.g a) 128).takeLines s.cur.coreNo false keys
    let fd := parseFdesc (leNat (memReadList (s.cur.view s.mem) keys))
    let fd := if b = 0 then fd else { fd with argptr := s.g b }
    (∀ st, s1.judge fd s.cur.part (s.cur.level == .user) = some st →
      exec (.farm d a b) s = .next (wrote s1 d (BitVec.ofNat 64 (2 ^ 63 + st)) 4)) ∧
    (s1.judge fd s.cur.part (s.cur.level == .user) = none →
      exec (.farm d a b) s = .next ((wrote s1 d (BitVec.ofNat 64 s.nextFarm) 4).queueFarm fd none).1)) ∧
  (∀ (d : Reg) (s : State) (f : Farm), Free s [d] → s.farm? s.cur.farm = some f →
    let x := if f.fd.fixed then s.cur.logid + s.cur.strips * s.cur.nstrands else f.nextStrip
    (x < f.fd.stripcnt.toNat →
      exec (.strip d) s = .next (wrote
        { s with
          cur := { s.cur with strips := s.cur.strips + 1
                              ctl := { s.cur.ctl with stripbase := BitVec.ofNat 64 (x * f.fd.striplen.toNat) } }
          farms := s.farms.map (fun h => if h.id = s.cur.farm then { h with
            strips := h.strips + 1, nextStrip := if h.fd.fixed then h.nextStrip else h.nextStrip + 1 } else h) } d
        (BitVec.ofNat 64 x) 4)) ∧
    (f.fd.stripcnt.toNat ≤ x → exec (.strip d) s = .next (wrote s d (BitVec.allOnes 64) 4)))

namespace Sys2Proof.Claims

/-! ### Fences, barriers, pins, engine ports, castling (R34 to R37, R171 to R173, R185, R186, R315 to R319, R306, R362 to R365) -/

/-- R317: a barrier form: V set, bit 13 and bits [63:16] clear. -/
abbrev goodForm (x : Word) : Prop := x.toNat / 2 ^ 16 = 0 ∧ x.getLsbD 15 = true ∧ x.getLsbD 13 = false

/-- The die and the index that a barrier form names (R75). -/
def formDie (x : Word) : Bool := x.getLsbD 12
def formIdx (x : Word) : Nat := x.toNat % 4096

/-- The table entry that a barrier form names. -/
def formKey (x : Word) : Nat := (if x.getLsbD 12 then 4096 else 0) + x.toNat % 4096

/-- R319: a configuration word that `bar.init` accepts. -/
abbrev goodConfig (x : Word) : Prop := x.toNat < 2 ^ 49 ∧ x.toNat / 2 ^ 16 % 8 ≤ 5 ∧ x.toNat % 2 ^ 16 ≠ 0

/-- R36, R37: an arrival that is discarded. -/
abbrev refuses (b : Barrier) : Prop :=
  if b.expected = 0 then b.arrived = 0xFFFF else b.expected.toNat ≤ b.arrived.toNat

/-- R319: the entry that `bar.init` leaves. -/
def initialised (b : Barrier) (x : Word) : Barrier :=
  { b with
    expected := BitVec.ofNat 16 (x.toNat % 2 ^ 16), scope := BitVec.ofNat 3 (x.toNat / 2 ^ 16 % 8), parv := x.getLsbD 19
    pardie := x.getLsbD 20, paridx := BitVec.ofNat 12 (x.toNat / 2 ^ 21 % 4096)
    parpkg := BitVec.ofNat 16 (x.toNat / 2 ^ 33 % 2 ^ 16), fault := false }

/-- R318: what `bar.query` reads. -/
def queried (b : Barrier) : Nat :=
  (if b.fault then 2 ^ 57 else 0) + (if b.phase then 2 ^ 56 else 0) + 2 ^ 40 * b.arrived.toNat + b.pending.toNat

/-- Another value of what the instruction at the pc has done already. -/
def paused (s : State) (p : Pause) : State := { s with cur := { s.cur with pause := p } }

end Sys2Proof.Claims

open Sys2Proof Sys2Proof.Machine Sys2Proof.Claims

/-- R186, R193, R315, R316, R358, R174, R349: a `fence` waits for incomplete vector entries of the kinds in its mask and
orders buffered stores before later accesses when the mask names scalar stores; an empty mask or a scope above 5 takes
ILLEGAL; `vfence` waits for earlier entries, in deterministic mode for its epoch's drain. `tlbi` answers 1 and drops nothing
when its range meets a live pin of the partition, else it waits for the strand's own stores and for other strands' stores in
the range that are performed soon, drops the partition's translations of the range from every core (their records standing
once each in rising order, as every step keeps them), has the stores that stay translated again (log entry 62) and answers
0; at user level it takes PRIV. Scopes, ranges, stores held by frozen entries and stores translated again are read as log
entries 19, 31, 37 and 62 say. -/
def Obligations.FenceResults : Prop :=
  (∀ (d a b : Reg) (s : State),
    (s.cur.level = .user → exec (.tlbi d a b) s = .next (s.takeTrap (scalarTrap cPRIV 0 (firstWord s)))) ∧
    (s.cur.level = .kernel → Free s [d, a, b] →
      let lo := if s.g b = 0 then 0 else (s.g a).toNat
      let hi := if s.g b = 0 then 2 ^ 64 else (s.g a).toNat + (s.g b).toNat
      (s.pinnedVa s.cur.part lo hi = true → exec (.tlbi d a b) s = .next (wrote s d 1 4)) ∧
      (s.pinnedVa s.cur.part lo hi = false → ¬ StoresPerformed s ∨ StoresSoon s lo hi → exec (.tlbi d a b) s = .next (waits s)) ∧
      (s.pinnedVa s.cur.part lo hi = false → StoresPerformed s → ¬ StoresSoon s lo hi →
        exec (.tlbi d a b) s = .next (wrote (((s.dropTlb s.cur.part lo hi)).mapStrands (fun t => { t with
          sbuf := t.sbuf.map (fun b => if writesIn s.cur.part lo hi t b then { b with rewalk := true } else b) })) d 0 4) ∧
        ((s.cores.map (fun c => c.1)).Pairwise (· < ·) → ∀ n : Nat, ∀ e ∈ ((s.dropTlb s.cur.part lo hi).core n).tlb, e ∈ (s.core n).tlb ∧
          (e.part = s.cur.part → hi ≤ e.vpn * 2 ^ levelShift e.level ∨ (e.vpn + 1) * 2 ^ levelShift e.level ≤ lo))))) ∧
  ((∀ (kinds : Reg) (m : BitVec 3) (s : State),
    (kinds = 0 ∨ 5 < m.toNat → exec (.fence kinds m) s = .next (s.takeTrap (scalarTrap cILLEGAL 0 (firstWord s)))) ∧
    (kinds ≠ 0 → m.toNat ≤ 5 →
      ((∀ e ∈ s.cur.viq, e.complete = true ∨ ((kinds.getLsbD 2 = true → (s.cur.memUse e).reads = false) ∧
          (kinds.getLsbD 3 = true → (s.cur.memUse e).writes = false))) →
        exec (.fence kinds m) s = .next (moved (if kinds.getLsbD 1 then
          { s with cur := { s.cur with sbuf := s.cur.sbuf.map (fun b =>
            { b with fence := b.fence ||| kinds, handler := b.handler || (s.cur.inHandler && !s.cur.storeFrozen b) }) } }
          else s) 4)) ∧
      ((∃ e ∈ s.cur.viq, e.complete = false ∧ ((kinds.getLsbD 2 = true ∧ (s.cur.memUse e).reads = true) ∨
          (kinds.getLsbD 3 = true ∧ (s.cur.memUse e).writes = true))) → exec (.fence kinds m) s = .next (waits s)))) ∧
  (∀ s : State, s.cur.pause ≠ .counted →
    (¬ AllComplete s → exec .vfence s = .next (waits s)) ∧
    (AllComplete s → s.cur.det = false → exec .vfence s = .next (moved s 4)) ∧
    (AllComplete s → s.cur.det = true →
      let u := (State.closeEpoch { s with cur := { s.cur with vfences := s.cur.vfences + 1 } } s.cur.farm).poll
      (u.epochDrained = true → exec .vfence s = .next (moved (paused u .none) 4)) ∧
      (u.epochDrained = false → exec .vfence s = .next (waits (paused u .counted))))) ∧
  (∀ s : State, s.cur.pause = .counted →
    (s.epochDrained = true → exec .vfence s = .next (moved (paused s .none) 4)) ∧
    (s.epochDrained = false → exec .vfence s = .next (waits (paused s .counted)))))

/-- R317, R318, R319, R361, R35, R36, R352: each barrier instruction with a good form has its row's effect on the entry that
the form names and writes its status: 0 OK, 1 BADFORM, 2 REFUSED. A bad form answers BADFORM, or all ones for `bar.query`.
`bar.arrwait` arrives once: refused, it answers REFUSED; else it goes on when PHASE has changed since the arrival, and until
then waits with the form and the phase it saw. On a configured barrier the arrival that makes ARRIVED = EXPECTED with
PENDING = 0 turns PHASE, clears ARRIVED, wakes the die's strands and sends one arrival to its parent, as a turn (log entry
1) where that is on the package; an earlier one counts, one too many is discarded and sets FAULT; a delivery that brings
PENDING to 0 with every arrival in completes it too. -/
def Obligations.BarrierInstructionResults : Prop :=
  (∀ (d a b : Reg) (s : State), Free s [d, a, b] → goodForm (s.g a) →
    let k := formKey (s.g a)
    let e := s.bar k
    (¬ goodConfig (s.g b) → exec (.barInit d a b) s = .next (wrote s d 1 4)) ∧
    (goodConfig (s.g b) → e.arrived = 0 → e.pending = 0 →
      exec (.barInit d a b) s = .next (wrote (s.setBar k (initialised e (s.g b))) d 0 4)) ∧
    (goodConfig (s.g b) → (e.arrived ≠ 0 ∨ e.pending ≠ 0) → exec (.barInit d a b) s = .next (wrote s d 2 4)) ∧
    (s.cur.releaseWaits = false → refuses e → exec (.barArrive d a) s =
      .next ((wrote s d 2 4).arrive (formDie (s.g a)) (formIdx (s.g a))).1) ∧
    (s.cur.releaseWaits = false → ¬ refuses e → exec (.barArrive d a) s =
      .next ((wrote s d 0 4).arrive (formDie (s.g a)) (formIdx (s.g a))).1) ∧
    (s.cur.releaseWaits = true → exec (.barArrive d a) s = .next (waits s)) ∧
    (e.phase = (s.g a).getLsbD 14 → exec (.barWait d a) s = .next (wrote s d 0 4)) ∧
    (e.phase ≠ (s.g a).getLsbD 14 → exec (.barWait d a) s = .next (waits s)) ∧
    (e.pending.toNat + (s.g b).toNat < 2 ^ 40 → exec (.barPost d a b) s = .next (wrote (s.setBar k
      { e with pending := BitVec.ofNat 40 (e.pending.toNat + (s.g b).toNat) }) d 0 4)) ∧
    (2 ^ 40 ≤ e.pending.toNat + (s.g b).toNat → exec (.barPost d a b) s = .next (wrote s d 2 4)) ∧
    (s.cur.releaseWaits = false → (s.g b).toNat ≤ e.pending.toNat → exec (.barDone d a b) s =
      .next ((wrote s d 0 4).deliver (formDie (s.g a)) (formIdx (s.g a)) (s.g b).toNat)) ∧
    (s.cur.releaseWaits = false → e.pending.toNat < (s.g b).toNat → exec (.barDone d a b) s = .next (wrote s d 2 4)) ∧
    exec (.barQuery d a) s = .next (wrote s d (BitVec.ofNat 64 (queried e)) 4)) ∧
  ((∀ (d a b : Reg) (s : State), Free s [d, a, b] → ¬ goodForm (s.g a) →
    exec (.barInit d a b) s = .next (wrote s d 1 4) ∧ exec (.barArrive d a) s = .next (wrote s d 1 4) ∧
    exec (.barWait d a) s = .next (wrote s d 1 4) ∧ exec (.barPost d a b) s = .next (wrote s d 1 4) ∧
    exec (.barDone d a b) s = .next (wrote s d 1 4) ∧
    ((∀ f p, s.cur.pause ≠ .arrived f p) → exec (.barArrwait d a) s = .next (wrote s d 1 4)) ∧
    exec (.barQuery d a) s = .next (wrote s d (BitVec.allOnes 64) 4)) ∧
  (∀ (d a : Reg) (s : State), Free s [d, a] → goodForm (s.g a) → (∀ f p, s.cur.pause ≠ .arrived f p) →
    s.cur.releaseWaits = false →
    let e := s.bar (formKey (s.g a))
    let f : BitVec 16 := BitVec.ofNat 16 (s.g a).toNat
    let u := ((paused s (.arrived f e.phase)).arrive (formDie (s.g a)) (formIdx (s.g a))).1
    (refuses e → exec (.barArrwait d a) s =
      .next ((wrote s d 2 4).arrive (formDie (s.g a)) (formIdx (s.g a))).1) ∧
    (¬ refuses e → (u.bar (formKey (s.g a))).phase ≠ e.phase →
      exec (.barArrwait d a) s = .next (wrote (paused u .none) d 0 4)) ∧
    (¬ refuses e → (u.bar (formKey (s.g a))).phase = e.phase →
      exec (.barArrwait d a) s = .next (waits (paused u (.arrived f e.phase))))) ∧
  (∀ (d a : Reg) (f : BitVec 16) (phase : Bool) (s : State), Free s [d, a] → s.cur.pause = .arrived f phase →
    let k := (if f.getLsbD 12 then 4096 else 0) + f.toNat % 4096
    ((s.bar k).phase ≠ phase → exec (.barArrwait d a) s = .next (wrote (paused s .none) d 0 4)) ∧
    ((s.bar k).phase = phase → exec (.barArrwait d a) s = .next (waits s)))) ∧
  ((∀ (s : State) (die : Bool) (idx : Nat),
    let k := (if die then 4096 else 0) + idx
    let b := s.bar k
    let t := (s.arriveRaw die idx).1
    b.expected ≠ 0 →
    (b.expected.toNat ≤ b.arrived.toNat → (s.arriveRaw die idx).2 = true ∧ t.bar k = { b with fault := true }) ∧
    (b.arrived.toNat + 1 = b.expected.toNat → b.pending = 0 → (s.arriveRaw die idx).2 = false ∧
      t.bar k = { b with phase := !b.phase, arrived := 0 } ∧
      (s.cur.exists_ = true → s.cur.die = die → t.cur.latch = s.cur.latch ||| 2) ∧ (b.parv = false → t.turns = s.turns) ∧
      (b.parv = true → b.parpkg = s.pkgNum → t.turns = s.turns ++ [.event (.barrierArrival b.pardie b.paridx)])) ∧
    (b.arrived.toNat < b.expected.toNat → (b.arrived.toNat + 1 ≠ b.expected.toNat ∨ b.pending ≠ 0) →
      (s.arriveRaw die idx).2 = false ∧ t.bar k = { b with arrived := b.arrived + 1 }) ∧
    (∀ j, j ≠ k → t.bar j = s.bar j)) ∧
  (∀ (s : State) (die : Bool) (idx n : Nat),
    let k := (if die then 4096 else 0) + idx
    let b := s.bar k
    let t := s.deliverBytes die idx n
    b.expected ≠ 0 →
    (b.arrived = b.expected → b.pending.toNat ≤ n → t.bar k = { b with pending := 0, phase := !b.phase, arrived := 0 }) ∧
    ((b.arrived ≠ b.expected ∨ n < b.pending.toNat) →
      t.bar k = { b with pending := BitVec.ofNat 40 (b.pending.toNat - n) }) ∧
    (∀ j, j ≠ k → t.bar j = s.bar j)) ∧
  (∀ (die : Bool) (idx : BitVec 12) (s : State), exec (.barrierArrival die idx) s = .next (s.arriveRaw die idx.toNat).1.poll))

namespace Sys2Proof.Claims

/-- R171 step 1: a range that a pin may name. -/
abbrev goodRange (base len : Nat) : Prop :=
  1 ≤ len ∧ len ≤ 2 ^ 36 ∧ base + len ≤ 2 ^ 55 ∧ (base + len ≤ windowBase ∨ windowBase ≤ base) ∧
  ¬ (base < sliceVa + 64 ∧ sliceVa < base + len)

/-- R171 step 7: a pin as it becomes live. -/
def livePin (m : BitVec 3) (base len first : Nat) (xs : List PinExtent) : Pin :=
  { live := true, revoked := false, rights := m, base := BitVec.ofNat 55 base, len := BitVec.ofNat 37 len,
    xfirst := BitVec.ofNat 11 first, extents := xs, stop := 0 }

end Sys2Proof.Claims

open Sys2Proof Sys2Proof.Machine Sys2Proof.Claims

/-- R171, R173, R207, R295, R296, R297: `pin` with a good range on an idle or revoked register, its pages good and its
core's table with room, makes the pin live with its extents behind those in use; each step that fails takes its trap and
changes nothing, a page on a stack that is being handed over makes it wait. TINFO of PINCAP has twelve bits: for 4,096
extents and more a free value. `unpin` waits for incomplete entries and transfers on the pin and then frees it; `pinq` reads
the pin's words, or the free entries of the core's table. TINFO of a bad range and of PINCAP are read as log entries 28 and
54 say. -/
def Obligations.PinResults : Prop :=
  (∀ (k a b : Reg) (m : BitVec 3) (s : State),
    (k.toNat = 0 ∨ 7 < k.toNat → exec (.pin k a b m) s = .next (s.takeTrap (scalarTrap cILLEGAL 0 (firstWord s)))) ∧
    (1 ≤ k.toNat → k.toNat ≤ 7 → Free s [a, b] →
      let base := (s.g a).toNat
      let len := (s.g b).toNat
      let old := s.cur.pins.getD k.toNat Pin.idle
      (m = 0 ∨ ¬ goodRange base len →
        exec (.pin k a b m) s = .next (s.takeTrap (scalarTrap cACCESS base m.toNat))) ∧
      (m ≠ 0 → goodRange base len → old.live = true → old.revoked = false →
        exec (.pin k a b m) s = .next (s.takeTrap (scalarTrap cPINSTATE base k.toNat))) ∧
      (∀ c va info, m ≠ 0 → goodRange base len → (old.live = false ∨ old.revoked = true) →
        rangeExtents s s.cur m base len = .error (.trap c va info) →
        exec (.pin k a b m) s = .next (s.takeTrap (scalarTrap c va info))) ∧
      (m ≠ 0 → goodRange base len → (old.live = false ∨ old.revoked = true) →
        rangeExtents s s.cur m base len = .error .hold → exec (.pin k a b m) s = .next (waits s)) ∧
      (∀ va pa, m ≠ 0 → goodRange base len → (old.live = false ∨ old.revoked = true) →
        rangeExtents s s.cur m base len = .error (.mirror va pa) →
        exec (.pin k a b m) s = .next (mirrorCheck s va pa)) ∧
      (∀ xs, m ≠ 0 → goodRange base len → (old.live = false ∨ old.revoked = true) →
        rangeExtents s s.cur m base len = .ok xs →
        (2048 < s.tableUsed s.cur.coreNo + xs.length → xs.length < 4096 →
          exec (.pin k a b m) s = .next (s.takeTrap (scalarTrap cPINCAP base xs.length))) ∧
        (2048 < s.tableUsed s.cur.coreNo + xs.length → 4096 ≤ xs.length →
          exec (.pin k a b m) s = .next
            (({ s with free := s.free + 1 } : State).takeTrap (scalarTrap cPINCAP base (Config.free s.free % 4096)))) ∧
        (s.tableUsed s.cur.coreNo + xs.length ≤ 2048 →
          exec (.pin k a b m) s = .next (moved { s with cur := { s.cur with
            pins := s.cur.pins.setIfInBounds k.toNat (livePin m base len (s.tableUsed s.cur.coreNo) xs) } } 4))))) ∧
  ((∀ (k : Reg) (s : State), (k.toNat = 0 ∨ 7 < k.toNat) →
    exec (.unpin k) s = .next (s.takeTrap (scalarTrap cILLEGAL 0 (firstWord s)))) ∧
  (∀ (k : Reg) (s : State), 1 ≤ k.toNat → k.toNat ≤ 7 →
    (s.cur.pinBusy k.toNat = false → s.pinMoves s.cur.key k.toNat = false →
      exec (.unpin k) s = .next (moved (s.unpinOne s.cur.key k.toNat) 4).poll) ∧
    ((s.cur.pinBusy k.toNat = true ∨ s.pinMoves s.cur.key k.toNat = true) → exec (.unpin k) s = .next (waits s)) ∧
    (s.cur.exists_ = true → ∀ p, s.cur.pins.getD k.toNat Pin.idle = p →
      (s.unpinOne s.cur.key k.toNat).cur.pins.getD k.toNat Pin.idle =
        { p with live := false, revoked := false, xfirst := 0, extents := [] })) ∧
  (∀ (d k sel : Reg) (s : State), (7 < k.toNat ∨ 4 < sel.toNat) →
    exec (.pinq d k sel) s = .next (s.takeTrap (scalarTrap cILLEGAL 0 (firstWord s)))) ∧
  (∀ (d k sel : Reg) (s : State), Free s [d] →
    let p := s.cur.pins.getD k.toNat Pin.idle
    (k.toNat ≤ 7 → sel = 4 →
      exec (.pinq d k sel) s = .next (wrote s d (BitVec.ofNat 64 (2048 - s.tableUsed s.cur.coreNo)) 4)) ∧
    (k = 0 → sel.toNat < 4 → exec (.pinq d k sel) s = .next (wrote s d 0 4)) ∧
    (1 ≤ k.toNat → k.toNat ≤ 7 → sel = 0 → exec (.pinq d k sel) s = .next (wrote s d (BitVec.ofNat 64
      ((if p.live then 2 ^ 63 else 0) + (if p.revoked then 2 ^ 62 else 0) + 2 ^ 59 * p.rights.toNat + p.base.toNat)) 4)) ∧
    (1 ≤ k.toNat → k.toNat ≤ 7 → sel = 1 → exec (.pinq d k sel) s = .next (wrote s d (BitVec.ofNat 64 p.len.toNat) 4)) ∧
    (1 ≤ k.toNat → k.toNat ≤ 7 → sel = 2 → exec (.pinq d k sel) s = .next (wrote s d (BitVec.ofNat 64 p.stop.toNat) 4)) ∧
    (1 ≤ k.toNat → k.toNat ≤ 7 → sel = 3 → exec (.pinq d k sel) s = .next (wrote s d
      (BitVec.ofNat 64 (p.xfirst.toNat + 2 ^ 16 * p.extents.length)) 4))))

/-- R306, R126, R308, R309: `epush` on e0 or e2 appends the word and goes on, or waits for the engine when the word
completes a command or the port is full; `epop` takes the oldest word of e1 or e3, or the next eight bytes before a stream
port's first end mark; `eavail` counts free or waiting words; any other port takes ILLEGAL.
That a stream port's words are eight bytes each, before its first end mark, is read as log entry 14 says. -/
def Obligations.EnginePortResults : Prop :=
  (∀ (p a : Reg) (s : State), p ≠ 0 → p ≠ 2 →
    exec (.epush p a) s = .next (s.takeTrap (scalarTrap cILLEGAL 0 (firstWord s)))) ∧
  (∀ (p a : Reg) (s : State), (p = 0 ∨ p = 2) → Free s [a] → s.cur.releaseWaits = false → s.cur.pause ≠ .pushed →
    let ws := if p = 0 then s.cur.ports.e0 else s.cur.ports.e2
    let need := if p = 0 then bteWords ((ws ++ [s.g a]).headD 0) else 4
    let u : State := { s with cur := { s.cur with ports :=
      if p = 0 then { s.cur.ports with e0 := ws ++ [s.g a] } else { s.cur.ports with e2 := ws ++ [s.g a] } } }
    (32 ≤ ws.length → exec (.epush p a) s = .next (waits s)) ∧
    (ws.length < 32 → ws.length + 1 < need → exec (.epush p a) s = .next (moved u 4)) ∧
    (ws.length < 32 → need ≤ ws.length + 1 → exec (.epush p a) s = .next (waits (paused u .pushed)))) ∧
  (∀ (d p : Reg) (s : State), p ≠ 1 → p ≠ 3 → p.toNat < 16 →
    exec (.epop d p) s = .next (s.takeTrap (scalarTrap cILLEGAL 0 (firstWord s)))) ∧
  (∀ (d p : Reg) (w : Word) (r : List Word) (s : State), Free s [d] →
    (p = 1 → s.cur.ports.e1 = [] → exec (.epop d p) s = .next (waits s)) ∧
    (p = 3 → s.cur.ports.e3 = [] → exec (.epop d p) s = .next (waits s)) ∧
    (p = 1 → s.cur.ports.e1 = w :: r → exec (.epop d p) s = .next
      (wrote { s with cur := { s.cur with ports := { s.cur.ports with e1 := r } } } d w 4).giveAll) ∧
    (p = 3 → s.cur.ports.e3 = w :: r → exec (.epop d p) s = .next
      (wrote { s with cur := { s.cur with ports := { s.cur.ports with e3 := r } } } d w 4).giveAll)) ∧
  (∀ (d p : Reg) (s : State), Free s [d] → 16 ≤ p.toNat →
    let xs := sget [] s.cur.ports.streams p.toNat
    (8 ≤ (streamHead xs).1.length → exec (.epop d p) s = .next
      (wrote { s with cur := { s.cur with ports := { s.cur.ports with
        streams := sset [] s.cur.ports.streams p.toNat (xs.drop 8) } } } d
        (BitVec.ofNat 64 (leNat ((streamHead xs).1.take 8))) 4).giveAll) ∧
    ((streamHead xs).1.length < 8 → exec (.epop d p) s = .next (waits s))) ∧
  (∀ (d p : Reg) (s : State), Free s [d] →
    (p = 0 → exec (.eavail d p) s = .next (wrote s d (BitVec.ofNat 64 (32 - s.cur.ports.e0.length)) 4)) ∧
    (p = 2 → exec (.eavail d p) s = .next (wrote s d (BitVec.ofNat 64 (32 - s.cur.ports.e2.length)) 4)) ∧
    (p = 1 → exec (.eavail d p) s = .next (wrote s d (BitVec.ofNat 64 s.cur.ports.e1.length) 4)) ∧
    (p = 3 → exec (.eavail d p) s = .next (wrote s d (BitVec.ofNat 64 s.cur.ports.e3.length) 4)) ∧
    (16 ≤ p.toNat → exec (.eavail d p) s = .next (wrote s d
      (BitVec.ofNat 64 ((streamHead (sget [] s.cur.ports.streams p.toNat)).1.length / 8)) 4)) ∧
    (4 ≤ p.toNat → p.toNat < 16 →
      exec (.eavail d p) s = .next (s.takeTrap (scalarTrap cILLEGAL 0 (firstWord s)))))

namespace Sys2Proof.Claims

/-- R362: operands of `castle` with every reserved bit clear. -/
abbrev goodCastle (a b : Word) : Prop :=
  a.toNat < 8 ∧ b.toNat < 2 ^ 32 ∧ b.toNat / 2 % 2 ^ 7 = 0 ∧ b.toNat / 2 ^ 9 % 2 ^ 7 = 0 ∧ b.getLsbD 29 = false

/-- R363: a ticket. -/
def ticketWord (status att : Nat) (die : Bool) (stack : Nat) : Word :=
  BitVec.ofNat 64 (2 ^ 60 * status + 2 ^ 32 * att + (if die then 256 else 0) + stack)

end Sys2Proof.Claims

namespace Sys2Proof.Claims

/-! ### Vector, tile and orthogonal instructions (R98, R99, R106, R129, R229, R275 to R281) -/

/-- R98, R99, R129: the strand with the instruction's entry at the tail of its VIQ, holding the instruction, the values of
the g registers it names and the control registers, under the next sequence number, and a read-queue slot for the g
register it returns a value to. -/
def posted (t : Strand) (i : Instr) (op : VOp) : Strand :=
  let c := t.ctl
  { t with
    viq := t.viq ++ [{
      instr := i, seq := t.nextSeq, convoy := t.cvy
      caps := { ga := t.getG op.ga, gb := t.getG op.gb, gd := t.getG op.gd, vl := c.vl, vtype := c.vtype
                stripbase := c.stripbase, srseed := c.srseed, srsalt := c.srsalt, check := c.check, tshape := c.tshape
                tpad := c.tpad, mxsa := c.mxsa, mxsb := c.mxsb, xferbar := c.xferbar, rowbytes := c.rowbytes }
      prog := 0, rowprog := 0, inflight := [], done := [], fault := none, complete := false, value := none, skip := none
      partA := [], logged := false, bad := [] }]
    rq := t.rq ++ (match rqDest i with | some d => [{ seq := t.nextSeq, dest := d, value := none }] | none => [])
    nextSeq := t.nextSeq + 1
    cvy := false }

/-- Room for the entry and its slot (R98, R99). -/
abbrev hasRoom (s : State) (i : Instr) : Prop := s.cur.viq.length < 32 ∧ (rqDest i ≠ none → s.cur.rq.length < 8)

/-- R323: `tcfg` records the shape in TSHAPE at its commit. -/
def shaped (t : Strand) : Instr → Strand
  | .tcfg acc =>
    { t with tiles := t.tiles.modify acc.toNat (fun a => { a with
        recM := BitVec.ofNat 7 (t.ctl.tshape.toNat % 128), recN := BitVec.ofNat 7 (t.ctl.tshape.toNat / 256 % 128) }) }
  | _ => t

/-- R275, R278: predicate, destination, sources (a register group, or a scalar g register captured at the commit) and the
value at SEW bits of each vector integer instruction. -/
def vectorIntegerRow : Instr → Option (PReg × Reg × Reg × Bool × Reg × ((w : Nat) → BitVec w → BitVec w → BitVec w))
  | .vadd x d a b => some (x.m, d, a, false, b, fun _ x y => x + y)
  | .vsub x d a b => some (x.m, d, a, false, b, fun _ x y => x - y)
  | .vmul x d a b => some (x.m, d, a, false, b, fun _ x y => x * y)
  | .vmulh x d a b => some (x.m, d, a, false, b, fun w x y => BitVec.ofInt w (x.toInt * y.toInt / (2 : Int) ^ w))
  | .vmulhu x d a b => some (x.m, d, a, false, b, fun w x y => BitVec.ofNat w (x.toNat * y.toNat / 2 ^ w))
  | .vand x d a b => some (x.m, d, a, false, b, fun _ x y => x &&& y)
  | .vor x d a b => some (x.m, d, a, false, b, fun _ x y => x ||| y)
  | .vxor x d a b => some (x.m, d, a, false, b, fun _ x y => x ^^^ y)
  | .vsll x d a b => some (x.m, d, a, false, b, fun w x y => x <<< (y.toNat % w))
  | .vsrl x d a b => some (x.m, d, a, false, b, fun w x y => x >>> (y.toNat % w))
  | .vsra x d a b => some (x.m, d, a, false, b, fun w x y => BitVec.ofInt w (x.toInt / (2 : Int) ^ (y.toNat % w)))
  | .vmin x d a b => some (x.m, d, a, false, b, fun _ x y => if x.toInt ≤ y.toInt then x else y)
  | .vmax x d a b => some (x.m, d, a, false, b, fun _ x y => if x.toInt ≤ y.toInt then y else x)
  | .vminu x d a b => some (x.m, d, a, false, b, fun _ x y => if x.toNat ≤ y.toNat then x else y)
  | .vmaxu x d a b => some (x.m, d, a, false, b, fun _ x y => if x.toNat ≤ y.toNat then y else x)
  | .vdiv x d a b => some (x.m, d, a, false, b, fun w x y =>
      if y = 0 then BitVec.allOnes w else BitVec.ofInt w (x.toInt.tdiv y.toInt))
  | .vdivu x d a b => some (x.m, d, a, false, b, fun w x y => if y = 0 then BitVec.allOnes w else x / y)
  | .vrem x d a b => some (x.m, d, a, false, b, fun w x y => if y = 0 then x else BitVec.ofInt w (x.toInt.tmod y.toInt))
  | .vremu x d a b => some (x.m, d, a, false, b, fun _ x y => if y = 0 then x else x % y)
  | .vsadd x d a b => some (x.m, d, a, false, b, fun w x y => clamp w (x.toInt + y.toInt))
  | .vssub x d a b => some (x.m, d, a, false, b, fun w x y => clamp w (x.toInt - y.toInt))
  | .vaddScalar x d a b => some (x.m, d, a, true, b, fun _ x y => x + y)
  | .vsubScalar x d a b => some (x.m, d, a, true, b, fun _ x y => x - y)
  | .vmulScalar x d a b => some (x.m, d, a, true, b, fun _ x y => x * y)
  | .vmulhScalar x d a b => some (x.m, d, a, true, b, fun w x y => BitVec.ofInt w (x.toInt * y.toInt / (2 : Int) ^ w))
  | .vmulhuScalar x d a b => some (x.m, d, a, true, b, fun w x y => BitVec.ofNat w (x.toNat * y.toNat / 2 ^ w))
  | .vandScalar x d a b => some (x.m, d, a, true, b, fun _ x y => x &&& y)
  | .vorScalar x d a b => some (x.m, d, a, true, b, fun _ x y => x ||| y)
  | .vxorScalar x d a b => some (x.m, d, a, true, b, fun _ x y => x ^^^ y)
  | .vsllScalar x d a b => some (x.m, d, a, true, b, fun w x y => x <<< (y.toNat % w))
  | .vsrlScalar x d a b => some (x.m, d, a, true, b, fun w x y => x >>> (y.toNat % w))
  | .vsraScalar x d a b => some (x.m, d, a, true, b, fun w x y => BitVec.ofInt w (x.toInt / (2 : Int) ^ (y.toNat % w)))
  | .vminScalar x d a b => some (x.m, d, a, true, b, fun _ x y => if x.toInt ≤ y.toInt then x else y)
  | .vmaxScalar x d a b => some (x.m, d, a, true, b, fun _ x y => if x.toInt ≤ y.toInt then y else x)
  | .vminuScalar x d a b => some (x.m, d, a, true, b, fun _ x y => if x.toNat ≤ y.toNat then x else y)
  | .vmaxuScalar x d a b => some (x.m, d, a, true, b, fun _ x y => if x.toNat ≤ y.toNat then y else x)
  | .vdivScalar x d a b => some (x.m, d, a, true, b, fun w x y =>
      if y = 0 then BitVec.allOnes w else BitVec.ofInt w (x.toInt.tdiv y.toInt))
  | .vdivuScalar x d a b => some (x.m, d, a, true, b, fun w x y => if y = 0 then BitVec.allOnes w else x / y)
  | .vremScalar x d a b => some (x.m, d, a, true, b, fun w x y => if y = 0 then x else BitVec.ofInt w (x.toInt.tmod y.toInt))
  | .vremuScalar x d a b => some (x.m, d, a, true, b, fun _ x y => if y = 0 then x else x % y)
  | .vsaddScalar x d a b => some (x.m, d, a, true, b, fun w x y => clamp w (x.toInt + y.toInt))
  | .vssubScalar x d a b => some (x.m, d, a, true, b, fun w x y => clamp w (x.toInt - y.toInt))
  | .vrsub x d a b => some (x.m, d, a, true, b, fun _ x y => y - x)
  | _ => none
where
  /-- Clamped to the signed range of w bits. -/
  clamp (w : Nat) (x : Int) : BitVec w :=
    BitVec.ofInt w (if x < -((2 : Int) ^ (w - 1)) then -((2 : Int) ^ (w - 1))
      else if (2 : Int) ^ (w - 1) - 1 < x then (2 : Int) ^ (w - 1) - 1 else x)

/-- R276, R278: predicate, destination, sources and the exact value that each rounding vector floating-point instruction
rounds. -/
def vectorFpRow : Instr → Option (PReg × Reg × Reg × Bool × Reg × (Rm → FpVal → FpVal → FpVal → Exact))
  | .vfadd x d a b => some (x.m, d, a, false, b, fun rm x y _ => fpAdd rm x y)
  | .vfsub x d a b => some (x.m, d, a, false, b, fun rm x y _ => fpAdd rm x y.neg)
  | .vfmul x d a b => some (x.m, d, a, false, b, fun _ x y _ => fpMul x y)
  | .vfdiv x d a b => some (x.m, d, a, false, b, fun _ x y _ => fpDiv x y)
  | .vfsqrt x d a => some (x.m, d, a, false, 0, fun _ x _ _ => fpSqrt x)
  | .vfsqrtScalar x d a => some (x.m, d, a, false, 0, fun _ x _ _ => fpSqrt x)
  | .vfmacc x d a b => some (x.m, d, a, false, b, fun rm x y z => fpFma rm x y z)
  | .vfmsac x d a b => some (x.m, d, a, false, b, fun rm x y z => fpFma rm x y z.neg)
  | .vfnmacc x d a b => some (x.m, d, a, false, b, fun rm x y z => fpFma rm x.neg y z.neg)
  | .vfnmsac x d a b => some (x.m, d, a, false, b, fun rm x y z => fpFma rm x.neg y z)
  | .vfaddScalar x d a b => some (x.m, d, a, true, b, fun rm x y _ => fpAdd rm x y)
  | .vfsubScalar x d a b => some (x.m, d, a, true, b, fun rm x y _ => fpAdd rm x y.neg)
  | .vfmulScalar x d a b => some (x.m, d, a, true, b, fun _ x y _ => fpMul x y)
  | .vfdivScalar x d a b => some (x.m, d, a, true, b, fun _ x y _ => fpDiv x y)
  | .vfmaccScalar x d a b => some (x.m, d, a, true, b, fun rm x y z => fpFma rm x y z)
  | .vfmsacScalar x d a b => some (x.m, d, a, true, b, fun rm x y z => fpFma rm x y z.neg)
  | .vfnmaccScalar x d a b => some (x.m, d, a, true, b, fun rm x y z => fpFma rm x.neg y z.neg)
  | .vfnmsacScalar x d a b => some (x.m, d, a, true, b, fun rm x y z => fpFma rm x.neg y z)
  | _ => none

/-- R265, R276, R277: predicate, destination, sources, and bits and flags of each vector floating-point instruction that does
not round. -/
def vectorPlainFpRow : Instr → Option (PReg × Reg × Reg × Bool × Reg × (Fmt → Nat → Nat → Nat × BitVec 5))
  | .vfmin x d a b => some (x.m, d, a, false, b, minMax false)
  | .vfmax x d a b => some (x.m, d, a, false, b, minMax true)
  | .vfsgnj x d a b => some (x.m, d, a, false, b, inject (fun _ t => t))
  | .vfsgnjn x d a b => some (x.m, d, a, false, b, inject (fun _ t => !t))
  | .vfsgnjx x d a b => some (x.m, d, a, false, b, inject (fun s t => s ^^ t))
  | .vfclass x d a => some (x.m, d, a, false, 0, fun f x _ => (fpClass f x, 0))
  | .vfminScalar x d a b => some (x.m, d, a, true, b, minMax false)
  | .vfmaxScalar x d a b => some (x.m, d, a, true, b, minMax true)
  | .vfsgnjScalar x d a b => some (x.m, d, a, true, b, inject (fun _ t => t))
  | .vfsgnjnScalar x d a b => some (x.m, d, a, true, b, inject (fun _ t => !t))
  | .vfsgnjxScalar x d a b => some (x.m, d, a, true, b, inject (fun s t => s ^^ t))
  | .vfclassScalar x d a => some (x.m, d, a, false, 0, fun f x _ => (fpClass f x, 0))
  | _ => none
where
  minMax (big : Bool) (f : Fmt) (x y : Nat) : Nat × BitVec 5 := ((fpMinMax f big x y).bits, (fpMinMax f big x y).fl)
  /-- The magnitude of x under a sign made of both signs; a NaN x gives the canonical NaN. -/
  inject (sg : Bool → Bool → Bool) (f : Fmt) (x y : Nat) : Nat × BitVec 5 :=
    let top := f.width - 1
    (if (f.decode x).isNan = true then f.canonNaN
      else x % 2 ^ top + (if sg (x.testBit top) (y.testBit top) = true then 2 ^ top else 0), 0)

/-- R265, R280: predicate, destination, sources and the condition of each floating-point compare. -/
def vectorFpCompareRow : Instr → Option (PReg × PReg × Reg × Bool × Reg × Cmp)
  | .vfeq x d a b => some (x.m, d, a, false, b, .eq)
  | .vflt x d a b => some (x.m, d, a, false, b, .lt)
  | .vfle x d a b => some (x.m, d, a, false, b, .le)
  | .vfunord x d a b => some (x.m, d, a, false, b, .unord)
  | .vfeqScalar x d a b => some (x.m, d, a, true, b, .eq)
  | .vfltScalar x d a b => some (x.m, d, a, true, b, .lt)
  | .vfleScalar x d a b => some (x.m, d, a, true, b, .le)
  | .vfunordScalar x d a b => some (x.m, d, a, true, b, .unord)
  | _ => none

/-- R278: predicate, destination and sources of each integer multiply-accumulate. -/
def vectorMaccRow : Instr → Option (PReg × Reg × Reg × Bool × Reg)
  | .vmacc x d a b => some (x.m, d, a, false, b)
  | .vmaccScalar x d a b => some (x.m, d, a, true, b)
  | _ => none

/-- R280: predicate, destination, sources and the condition of each integer compare. -/
def vectorCompareRow : Instr → Option (PReg × PReg × Reg × Bool × Reg × ((w : Nat) → BitVec w → BitVec w → Bool))
  | .veq x d a b => some (x.m, d, a, false, b, fun _ x y => x == y)
  | .vne x d a b => some (x.m, d, a, false, b, fun _ x y => x != y)
  | .vlt x d a b => some (x.m, d, a, false, b, fun _ x y => x.slt y)
  | .vle x d a b => some (x.m, d, a, false, b, fun _ x y => x.sle y)
  | .vltu x d a b => some (x.m, d, a, false, b, fun _ x y => x.ult y)
  | .vleu x d a b => some (x.m, d, a, false, b, fun _ x y => x.ule y)
  | .veqScalar x d a b => some (x.m, d, a, true, b, fun _ x y => x == y)
  | .vneScalar x d a b => some (x.m, d, a, true, b, fun _ x y => x != y)
  | .vltScalar x d a b => some (x.m, d, a, true, b, fun _ x y => x.slt y)
  | .vleScalar x d a b => some (x.m, d, a, true, b, fun _ x y => x.sle y)
  | .vltuScalar x d a b => some (x.m, d, a, true, b, fun _ x y => x.ult y)
  | .vleuScalar x d a b => some (x.m, d, a, true, b, fun _ x y => x.ule y)
  | _ => none

/-- Element i of a source at SEW bits: of a register group, or the low bits of the captured scalar (R226, R271, R275). -/
def source (e : VEnv) (scalar : Bool) (r : Reg) (i : Nat) : Nat :=
  if scalar then e.c.gb.toNat % 2 ^ (8 * 2 ^ (e.c.vtype.toNat % 8)) else e.get r (8 * 2 ^ (e.c.vtype.toNat % 8)) i

/-- R106, R204: element i acts: below VL, its predicate bit set, not skipped. -/
abbrev acting (e : VEnv) (m : PReg) (i : Nat) : Prop :=
  i < e.c.vl.toNat ∧ ((m = 0 ∧ i < 32768) ∨ (m ≠ 0 ∧ (e.t.p.getD m.toNat 0).getLsbD i = true)) ∧ e.skip ≠ some i

end Sys2Proof.Claims

open Sys2Proof Sys2Proof.Machine Sys2Proof.Claims

/-- R98, R99, R129, R214, R229, R302, R303: every vector, tile and orthogonal instruction (an instruction with a row in
`vop`) whose decode checks pass, whose g registers are free, with room for its entry and nothing that its commit refuses, is
posted into the VIQ and the pc moves on by its length; only what the entry makes possible at once happens besides. One whose
decode check fails takes ILLEGAL; one that finds the VIQ or the read queue full, or names a pending g register, waits; a
`vamo` with an unaligned base takes ACCESS; and then nothing is posted. -/
def Obligations.VectorCommits : Prop :=
  (∀ (i : Instr) (op : VOp) (s : State), vop i = some op → op.legal s.cur = true → Free s [op.ga, op.gb, op.gd] →
    hasRoom s i → commitStop s i = none →
    exec i s = .next (moved { s with cur := (shaped (posted s.cur i op) i).advanceAll } i.size)) ∧
  (∀ (i : Instr) (op : VOp) (s : State), vop i = some op →
    (op.legal s.cur = false → exec i s = .next (s.takeTrap (scalarTrap cILLEGAL 0 (firstWord s)))) ∧
    (op.legal s.cur = true → ¬ Free s [op.ga, op.gb, op.gd] → exec i s = .next (waits s)) ∧
    (op.legal s.cur = true → ¬ hasRoom s i → exec i s = .next (waits s)) ∧
    (∀ va info, op.legal s.cur = true → Free s [op.ga, op.gb, op.gd] → hasRoom s i →
      commitStop s i = some (.trap cACCESS va info) → exec i s = .next (s.takeTrap (scalarTrap cACCESS va info))))

/-- R275, R278, R251, R106: an active element of a vector integer instruction is written with its row's value of the sources at
SEW bits, `vmacc` with a × b + d, and raises no flag; an inactive one is not written. -/
def Obligations.VectorIntegerElements : Prop :=
  (∀ (i : Instr) (m : PReg) (d a b : Reg) (scalar : Bool) (f : (w : Nat) → BitVec w → BitVec w → BitVec w),
    vectorIntegerRow i = some (m, d, a, scalar, b, f) →
    ∃ (op : VOp) (g : VEnv → Nat → ERes) (fin : VEnv → BitVec 5), vop i = some op ∧ op.run = .elem g fin ∧
      op.gb = (if scalar then b else 0) ∧
      ∀ (e : VEnv) (k : Nat), (op.acts e k = true ↔ acting e m k) ∧ fin e = 0 ∧
        let w := 8 * 2 ^ (e.c.vtype.toNat % 8)
        g e k = { writes := [e.t.elemWrite d.toNat w k
            (f w (BitVec.ofNat w (source e false a k)) (BitVec.ofNat w (source e scalar b k))).toNat], fl := 0, gs := 0 }) ∧
  (∀ (i : Instr) (m : PReg) (d a b : Reg) (scalar : Bool), vectorMaccRow i = some (m, d, a, scalar, b) →
    ∃ (op : VOp) (g : VEnv → Nat → ERes) (fin : VEnv → BitVec 5), vop i = some op ∧ op.run = .elem g fin ∧
      op.gb = (if scalar then b else 0) ∧
      ∀ (e : VEnv) (k : Nat), (op.acts e k = true ↔ acting e m k) ∧ fin e = 0 ∧
        let w := 8 * 2 ^ (e.c.vtype.toNat % 8)
        g e k = { writes := [e.t.elemWrite d.toNat w k (BitVec.ofNat w (source e false a k) *
            BitVec.ofNat w (source e scalar b k) + BitVec.ofNat w (source e false d k)).toNat], fl := 0, gs := 0 })

/-- R276 to R279, R143, R145, R146: an active element of a vector floating-point instruction is its row's exact value rounded
once in the format of VTYPE under VTYPE.RM, with the flags of that rounding; minimum, maximum, sign injection and class give
their row's bits; `vwmacc` rounds a × b + d of 16-bit operands once to FP32. -/
def Obligations.VectorFpElements : Prop :=
  (∀ (i : Instr) (m : PReg) (d a b : Reg) (scalar : Bool) (f : Rm → FpVal → FpVal → FpVal → Exact),
    vectorFpRow i = some (m, d, a, scalar, b, f) →
    ∃ (op : VOp) (g : VEnv → Nat → ERes) (fin : VEnv → BitVec 5), vop i = some op ∧ op.run = .elem g fin ∧
      op.gb = (if scalar then b else 0) ∧
      ∀ (e : VEnv) (k : Nat) (fmt : Fmt), vtFp e.c.vtype = some fmt → (op.acts e k = true ↔ acting e m k) ∧ fin e = 0 ∧
        let x := (f (e.rm k) (fmt.decode (source e false a k)) (fmt.decode (source e scalar b k))
          (fmt.decode (source e false d k))).round fmt (e.rm k) false
        g e k = { writes := [e.t.elemWrite d.toNat (8 * 2 ^ (e.c.vtype.toNat % 8)) k x.bits], fl := x.fl, gs := 0 }) ∧
  (∀ (i : Instr) (m : PReg) (d a b : Reg) (scalar : Bool) (f : Fmt → Nat → Nat → Nat × BitVec 5),
    vectorPlainFpRow i = some (m, d, a, scalar, b, f) →
    ∃ (op : VOp) (g : VEnv → Nat → ERes) (fin : VEnv → BitVec 5), vop i = some op ∧ op.run = .elem g fin ∧
      op.gb = (if scalar then b else 0) ∧
      ∀ (e : VEnv) (k : Nat) (fmt : Fmt), vtFp e.c.vtype = some fmt → (op.acts e k = true ↔ acting e m k) ∧ fin e = 0 ∧
        let x := f fmt (source e false a k) (source e scalar b k)
        g e k = { writes := [e.t.elemWrite d.toNat (8 * 2 ^ (e.c.vtype.toNat % 8)) k x.1], fl := x.2, gs := 0 }) ∧
  (∀ (x : VX) (d a b : Reg), ∃ (op : VOp) (g : VEnv → Nat → ERes) (fin : VEnv → BitVec 5),
    vop (.vwmacc x d a b) = some op ∧ op.run = .elem g fin ∧
    ∀ (e : VEnv) (k : Nat) (fmt : Fmt), vtFp e.c.vtype = some fmt → fmt.width = 16 →
      (op.acts e k = true ↔ acting e x.m k) ∧ fin e = 0 ∧
      let y := (fpFma (e.rm k) (fmt.decode (source e false a k)) (fmt.decode (source e false b k))
        (Fmt.decode .fp32 (e.get d 32 k))).round .fp32 (e.rm k) false
      g e k = { writes := [e.t.elemWrite d.toNat 32 k y.bits], fl := y.fl, gs := 0 })

/-- R280, R265: an active element of a vector compare writes the destination predicate's bit with its row's condition, and no
other bit; a floating-point compare raises the flags of its condition. -/
def Obligations.VectorCompareElements : Prop :=
  (∀ (i : Instr) (m d : PReg) (a b : Reg) (scalar : Bool) (f : (w : Nat) → BitVec w → BitVec w → Bool),
    vectorCompareRow i = some (m, d, a, scalar, b, f) →
    ∃ (op : VOp) (g : VEnv → Nat → ERes) (fin : VEnv → BitVec 5), vop i = some op ∧ op.run = .elem g fin ∧
      op.gb = (if scalar then b else 0) ∧
      ∀ (e : VEnv) (k : Nat), (op.acts e k = true ↔ acting e m k) ∧ fin e = 0 ∧
        let w := 8 * 2 ^ (e.c.vtype.toNat % 8)
        g e k = { writes := [.p d.toNat k
          (f w (BitVec.ofNat w (source e false a k)) (BitVec.ofNat w (source e scalar b k)))], fl := 0, gs := 0 }) ∧
  (∀ (i : Instr) (m d : PReg) (a b : Reg) (scalar : Bool) (c : Cmp), vectorFpCompareRow i = some (m, d, a, scalar, b, c) →
    ∃ (op : VOp) (g : VEnv → Nat → ERes) (fin : VEnv → BitVec 5), vop i = some op ∧ op.run = .elem g fin ∧
      op.gb = (if scalar then b else 0) ∧
      ∀ (e : VEnv) (k : Nat) (fmt : Fmt), vtFp e.c.vtype = some fmt → (op.acts e k = true ↔ acting e m k) ∧ fin e = 0 ∧
        let x := fpCompare c (fmt.decode (source e false a k)) (fmt.decode (source e scalar b k))
        g e k = { writes := [.p d.toNat k x.1], fl := x.2, gs := 0 })

namespace Sys2Proof.Claims

/-! ### Predicates, permutations, reductions, conversions, special functions, tile multiply (R111, R155, R159, R160, R281 to
R291, R326, R327) -/

/-- Bit i of a predicate; p0 reads all ones (R122). -/
def bitOf (e : VEnv) (p : PReg) (i : Nat) : Bool :=
  if p = 0 then decide (i < 32768) else (e.t.p.getD p.toNat 0).getLsbD i

/-- The active elements below n, ascending. -/
def actives (e : VEnv) (m : PReg) (n : Nat) : List Nat := (List.range n).filter (fun j => decide (acting e m j))

/-- The active elements whose bit of a predicate is set, ascending. -/
def setBits (e : VEnv) (m a : PReg) : List Nat := (actives e m e.c.vl.toNat).filter (bitOf e a)

/-- R292: element j is active and has element i's key. -/
abbrev twin (e : VEnv) (m : PReg) (a : Reg) (i j : Nat) : Prop := acting e m j ∧ source e false a j = source e false a i

/-- R281, R292: predicate, destination, captured g register and the bit that an active element writes. -/
def predicateRow : Instr → Option (PReg × PReg × Reg × (VEnv → Nat → Bool))
  | .pand x d a b => some (x.m, d, 0, fun e i => bitOf e a i && bitOf e b i)
  | .por x d a b => some (x.m, d, 0, fun e i => bitOf e a i || bitOf e b i)
  | .pxor x d a b => some (x.m, d, 0, fun e i => bitOf e a i ^^ bitOf e b i)
  | .pandn x d a b => some (x.m, d, 0, fun e i => bitOf e a i && !bitOf e b i)
  | .pnot x d a => some (x.m, d, 0, fun e i => !bitOf e a i)
  | .pset x d a => some (x.m, d, a, fun e i => decide (i < e.c.ga.toNat))
  | .pbefore x d a => some (x.m, d, 0, fun e i => decide (i < (setBits e x.m a).head?.getD e.c.vl.toNat))
  | .vlead x d a => some (x.m, d, 0, fun e i => !decide (∃ j < e.c.vl.toNat, i < j ∧ twin e x.m a i j))
  | _ => none

/-- R281 to R284, R292: destination, captured g registers, which elements are written, the value of each at SEW bits, none where
nothing is written, with its GSTAT flags, and the flags at the end. -/
def permutationRow : Instr → Option (Reg × Reg × Reg × (VEnv → Nat → Prop) × (VEnv → Nat → Option Nat × BitVec 5) ×
    (VEnv → BitVec 5))
  | .pscan x d a => some (d, 0, 0, fun e i => acting e x.m i,
      fun e i => (some ((actives e x.m i).filter (bitOf e a)).length, 0), quiet)
  | .pmv x d a => some (d, 0, 0, fun e i => acting e x.m i, fun e i => (some (if bitOf e a i then 1 else 0), 0), quiet)
  | .vslideup x d a b => some (d, 0, b, fun e i => acting e x.m i,
      fun e i => (if e.c.gb.toNat ≤ i then some (el e a (i - e.c.gb.toNat)) else none, 0), quiet)
  | .vslidedown x d a b => some (d, 0, b, fun e i => acting e x.m i,
      fun e i => (some (if i + e.c.gb.toNat < e.c.vl.toNat then el e a (i + e.c.gb.toNat) else 0), 0), quiet)
  | .vslide1up x d a b => some (d, 0, b, fun e i => acting e x.m i,
      fun e i => (some (match (List.range i).reverse.find? (fun j => decide (acting e x.m j)) with
        | some j => el e a j
        | none => e.c.gb.toNat), 0), quiet)
  | .vslide1down x d a b => some (d, 0, b, fun e i => acting e x.m i,
      fun e i => (some (match (List.range e.c.vl.toNat).find? (fun j => decide (i < j ∧ acting e x.m j)) with
        | some j => el e a j
        | none => e.c.gb.toNat), 0), quiet)
  | .vgather x d a b => some (d, 0, 0, fun e i => acting e x.m i,
      fun e i => (some (taken e a (el e b i)).1, (taken e a (el e b i)).2), quiet)
  | .vcompress x d a => some (d, 0, 0, fun e i => i < (actives e x.m e.c.vl.toNat).length,
      fun e i => ((actives e x.m e.c.vl.toNat)[i]?.map (el e a), 0), quiet)
  | .vexpand x d a => some (d, 0, 0, fun e i => acting e x.m i, fun e i => (some (el e a (actives e x.m i).length), 0), quiet)
  | .vbcast x d a => some (d, a, 0, fun e i => acting e x.m i, fun e _ => (some e.c.ga.toNat, 0), quiet)
  | .vmvvs x d a b => some (d, a, b, fun e i => acting e x.m i,
      fun e i => (if i = e.c.gb.toNat then some e.c.ga.toNat else none, 0),
      fun e => if e.c.gb.toNat < e.c.vl.toNat then 0 else 1)
  | .vconf x d a => some (d, 0, 0, fun e i => acting e x.m i,
      fun e i => (some (((List.range i).reverse.find? (fun j => decide (twin e x.m a i j))).getD
        (2 ^ (8 * 2 ^ (e.c.vtype.toNat % 8)) - 1)), 0), quiet)
  | .viota x d => some (d, 0, 0, fun e i => acting e x.m i, fun _ i => (some i, 0), quiet)
  | .vmerge x d a b => some (d, 0, 0, fun e i => acting e 0 i,
      fun e i => (some (if bitOf e x.m i then el e a i else el e b i), 0), quiet)
  | _ => none
where
  quiet (_ : VEnv) : BitVec 5 := 0
  /-- Element i of a group. -/
  el (e : VEnv) (r : Reg) (i : Nat) : Nat := source e false r i
  /-- R283: the element at an index, 0 beyond the group, with GATHERX at VL and beyond. -/
  taken (e : VEnv) (a : Reg) (x : Nat) : Nat × BitVec 5 :=
    (if x < maxLength e.t.lgw e.c.vtype then source e false a x else 0, if x < e.c.vl.toNat then 0 else 1)

/-- R281, R283: captured g register, and the value delivered to g[d] with its GSTAT flags. -/
def deliveredRow : Instr → Option (Reg × (VEnv → Word × BitVec 5))
  | .ppop x _ a => some (0, fun e => (BitVec.ofNat 64 (setBits e x.m a).length, 0))
  | .pfirst x _ a => some (0, fun e => ((setBits e x.m a).head?.elim (BitVec.allOnes 64) (BitVec.ofNat 64), 0))
  | .vmvsv _ _ a b => some (b, fun e => ((BitVec.ofNat (8 * 2 ^ (e.c.vtype.toNat % 8))
      (permutationRow.taken e a e.c.gb.toNat).1).signExtend 64, (permutationRow.taken e a e.c.gb.toNat).2))
  | _ => none

/-- R285: predicate, source, whether the result is sign-extended, the operation at SEW bits and the result with no active
element of each integer reduction. -/
def integerReductionRow : Instr →
    Option (PReg × Reg × Bool × ((w : Nat) → BitVec w → BitVec w → BitVec w) × ((w : Nat) → BitVec w))
  | .vredsum x _ a => some (x.m, a, true, fun _ x y => x + y, fun _ => 0)
  | .vredmin x _ a => some (x.m, a, true, fun _ x y => if x.toInt ≤ y.toInt then x else y, fun w => BitVec.ofNat w (2 ^ (w - 1) - 1))
  | .vredmax x _ a => some (x.m, a, true, fun _ x y => if x.toInt ≤ y.toInt then y else x, fun w => BitVec.ofNat w (2 ^ (w - 1)))
  | .vredminu x _ a => some (x.m, a, false, fun _ x y => if x.toNat ≤ y.toNat then x else y, fun w => BitVec.allOnes w)
  | .vredmaxu x _ a => some (x.m, a, false, fun _ x y => if x.toNat ≤ y.toNat then y else x, fun _ => 0)
  | .vredand x _ a => some (x.m, a, false, fun _ x y => x &&& y, fun w => BitVec.allOnes w)
  | .vredor x _ a => some (x.m, a, false, fun _ x y => x ||| y, fun _ => 0)
  | .vredxor x _ a => some (x.m, a, false, fun _ x y => x ^^^ y, fun _ => 0)
  | _ => none

/-- A partial result of R111: value, lowest element, flags. -/
abbrev Combined := Option (Nat × Nat × BitVec 5)

/-- R111, R150: a node of the tree over the active elements: partial j at level 0, added in ascending order, each addition
under the counter of the element that it brings in; above, the sum of two nodes under the counter of the lowest element of the
right one; an absent node is skipped. -/
def treeNode (op : Nat → Nat → Nat → Nat × BitVec 5) (get : Nat → Nat) (is : List Nat) : Nat → Nat → Combined
  | 0, j =>
    match is.filter (fun i => i % 16 = j) with
    | [] => none
    | i :: r => some (r.foldl (fun p k => ((op k p.1 (get k)).1, p.2.1, p.2.2 ||| (op k p.1 (get k)).2)) (get i, i, 0))
  | n + 1, j =>
    match treeNode op get is n (2 * j), treeNode op get is n (2 * j + 1) with
    | none, b => b
    | a, none => a
    | some a, some b => some ((op b.2.1 a.1 b.1).1, min a.2.1 b.2.1, a.2.2 ||| b.2.2 ||| (op b.2.1 a.1 b.1).2)

/-- R285, R286: predicate, source, the operation, the value of an element, the bits with no active element, and the bits
delivered of each floating-point reduction under a format. -/
def fpReductionRow (fmt : Fmt) : Instr →
    Option (PReg × Reg × (Rm → Nat → Nat → Nat × BitVec 5) × (Nat → Nat) × Nat × (Nat → Nat))
  | .vfredsum x _ a => some (x.m, a, plus fmt, fun v => v, 0, fun v => v)
  | .vfredmin x _ a => some (x.m, a, fun _ => vectorPlainFpRow.minMax false fmt, fun v => v, (2 ^ fmt.ebits - 1) * 2 ^ fmt.fbits, fun v => v)
  | .vfredmax x _ a => some (x.m, a, fun _ => vectorPlainFpRow.minMax true fmt, fun v => v,
      2 ^ (fmt.width - 1) + (2 ^ fmt.ebits - 1) * 2 ^ fmt.fbits, fun v => v)
  | .vfredsumW x _ a => if fmt.width = 16 then some (x.m, a, plus .fp32, fun v => wideBits (fmt.decode v), 0,
      fun v => if (Fmt.decode .fp32 v).isNan = true then Fmt.canonNaN .fp32 else v) else none
  | _ => none
where
  plus (f : Fmt) (rm : Rm) (x y : Nat) : Nat × BitVec 5 :=
    (((fpAdd rm (f.decode x) (f.decode y)).round f rm false).bits, ((fpAdd rm (f.decode x) (f.decode y)).round f rm false).fl)

/-- R287, R289, R142, R144: predicate, destination, source, the widths of both sides for a SEW, and bits, flags and saturation
of each conversion of element k, the source given. -/
def conversionRow : Instr → Option (PReg × Reg × Reg × (Nat → Nat) × (Nat → Nat) × (VEnv → Nat → Nat → Nat × BitVec 5 × Bool))
  | .vcvtFFp64 x d a => some (x.m, d, a, sew, fun _ => 64, floats .fp64)
  | .vcvtIFp64 x d a => some (x.m, d, a, sew, fun _ => 64, toInteger .fp64 true)
  | .vcvtUFp64 x d a => some (x.m, d, a, sew, fun _ => 64, toInteger .fp64 false)
  | .vcvtFp64I x d a => some (x.m, d, a, fun _ => 64, sew, ofInteger .fp64)
  | .vcvtFFp32 x d a => some (x.m, d, a, sew, fun _ => 32, floats .fp32)
  | .vcvtIFp32 x d a => some (x.m, d, a, sew, fun _ => 32, toInteger .fp32 true)
  | .vcvtUFp32 x d a => some (x.m, d, a, sew, fun _ => 32, toInteger .fp32 false)
  | .vcvtFp32I x d a => some (x.m, d, a, fun _ => 32, sew, ofInteger .fp32)
  | .vcvtFFp16 x d a => some (x.m, d, a, sew, fun _ => 16, floats .fp16)
  | .vcvtIFp16 x d a => some (x.m, d, a, sew, fun _ => 16, toInteger .fp16 true)
  | .vcvtUFp16 x d a => some (x.m, d, a, sew, fun _ => 16, toInteger .fp16 false)
  | .vcvtFp16I x d a => some (x.m, d, a, fun _ => 16, sew, ofInteger .fp16)
  | .vcvtFBf16 x d a => some (x.m, d, a, sew, fun _ => 16, floats .bf16)
  | .vcvtIBf16 x d a => some (x.m, d, a, sew, fun _ => 16, toInteger .bf16 true)
  | .vcvtUBf16 x d a => some (x.m, d, a, sew, fun _ => 16, toInteger .bf16 false)
  | .vcvtBf16I x d a => some (x.m, d, a, fun _ => 16, sew, ofInteger .bf16)
  | .vcvtFE4m3 x d a => some (x.m, d, a, sew, fun _ => 8, floats .e4m3)
  | .vcvtIE4m3 x d a => some (x.m, d, a, sew, fun _ => 8, toInteger .e4m3 true)
  | .vcvtUE4m3 x d a => some (x.m, d, a, sew, fun _ => 8, toInteger .e4m3 false)
  | .vcvtII8 x d a => some (x.m, d, a, sew, fun _ => 8, integers 8)
  | .vcvtFE5m2 x d a => some (x.m, d, a, sew, fun _ => 8, floats .e5m2)
  | .vcvtIE5m2 x d a => some (x.m, d, a, sew, fun _ => 8, toInteger .e5m2 true)
  | .vcvtUE5m2 x d a => some (x.m, d, a, sew, fun _ => 8, toInteger .e5m2 false)
  | .vcvtII16 x d a => some (x.m, d, a, sew, fun _ => 16, integers 16)
  | .vcvtFE2m3 x d a => some (x.m, d, a, sew, fun _ => 8, floats .e2m3)
  | .vcvtIE2m3 x d a => some (x.m, d, a, sew, fun _ => 8, toInteger .e2m3 true)
  | .vcvtUE2m3 x d a => some (x.m, d, a, sew, fun _ => 8, toInteger .e2m3 false)
  | .vcvtII32 x d a => some (x.m, d, a, sew, fun _ => 32, integers 32)
  | .vcvtFE3m2 x d a => some (x.m, d, a, sew, fun _ => 8, floats .e3m2)
  | .vcvtIE3m2 x d a => some (x.m, d, a, sew, fun _ => 8, toInteger .e3m2 true)
  | .vcvtUE3m2 x d a => some (x.m, d, a, sew, fun _ => 8, toInteger .e3m2 false)
  | .vcvtII64 x d a => some (x.m, d, a, sew, fun _ => 64, integers 64)
  | .vcvtFT8 x d a => some (x.m, d, a, sew, fun _ => 8, floats .t8)
  | .vcvtIT8 x d a => some (x.m, d, a, sew, fun _ => 8, toInteger .t8 true)
  | .vcvtUT8 x d a => some (x.m, d, a, sew, fun _ => 8, toInteger .t8 false)
  | .vcvtFT6 x d a => some (x.m, d, a, sew, fun _ => 8, floats .t6)
  | .vcvtIT6 x d a => some (x.m, d, a, sew, fun _ => 8, toInteger .t6 true)
  | .vcvtUT6 x d a => some (x.m, d, a, sew, fun _ => 8, toInteger .t6 false)
  | _ => none
where
  sew (w : Nat) : Nat := w
  /-- Format s into the format of VTYPE. -/
  floats (s : Fmt) (e : VEnv) (k x : Nat) : Nat × BitVec 5 × Bool :=
    let r := (s.decode x).exact.round ((Fmt.ofCode (e.c.vtype.toNat / 8 % 16)).getD .fp32) (e.rm k) (e.c.vtype.getLsbD 13)
    (r.bits, r.fl, r.satx)
  /-- A signed or unsigned integer of SEW bits: rounded, and clamped to its range. -/
  toInteger (s : Fmt) (signed : Bool) (e : VEnv) (k x : Nat) : Nat × BitVec 5 × Bool :=
    let w := 8 * 2 ^ (e.c.vtype.toNat % 8)
    let r := if signed then fpToInt (e.rm k) (-(2 : Int) ^ (w - 1)) ((2 : Int) ^ (w - 1) - 1) (s.decode x)
      else fpToInt (e.rm k) 0 ((2 : Int) ^ w - 1) (s.decode x)
    ((BitVec.ofInt w r.1).toNat, r.2.1, e.c.vtype.getLsbD 13 && r.2.2)
  /-- A signed integer of SEW bits into format s. -/
  ofInteger (s : Fmt) (e : VEnv) (k x : Nat) : Nat × BitVec 5 × Bool :=
    let r := (Exact.ofInt (BitVec.ofNat (8 * 2 ^ (e.c.vtype.toNat % 8)) x).toInt).round s (e.rm k) (e.c.vtype.getLsbD 13)
    (r.bits, r.fl, r.satx)
  /-- A signed integer of n bits into one of SEW bits: wrapped, or under SAT clamped. -/
  integers (n : Nat) (e : VEnv) (_ x : Nat) : Nat × BitVec 5 × Bool :=
    let w := 8 * 2 ^ (e.c.vtype.toNat % 8)
    let y := (BitVec.ofNat n x).toInt
    if n ≤ w ∨ e.c.vtype.getLsbD 13 = false then ((BitVec.ofInt w y).toNat, 0, false)
    else ((vectorIntegerRow.clamp w y).toNat, 0, decide ((vectorIntegerRow.clamp w y).toInt ≠ y))

/-- R153, R290: the scale byte of the block that holds element i. -/
def blockScale (e : VEnv) (m : PReg) (a : Reg) (i : Nat) : Nat :=
  mxScale ((Fmt.ofCode (e.c.vtype.toNat / 8 % 16)).getD .fp32)
    (((List.range' (i / 32 * 32) 32).filter (fun j => decide (acting e m j))).map (fun j => Fmt.decode .fp32 (e.get a 32 j)))

/-- R291: code, predicate, destination and source of each special function. -/
def specialRow : Instr → Option (Nat × PReg × Reg × Reg)
  | .vexp2 x d a => some (0, x.m, d, a)
  | .vlog2 x d a => some (1, x.m, d, a)
  | .vrcp x d a => some (2, x.m, d, a)
  | .vrsqrt x d a => some (3, x.m, d, a)
  | .vsinpi x d a => some (4, x.m, d, a)
  | .vcospi x d a => some (5, x.m, d, a)
  | .vtanh x d a => some (6, x.m, d, a)
  | .vsigm x d a => some (7, x.m, d, a)
  | .vgelu x d a => some (8, x.m, d, a)
  | .verf x d a => some (9, x.m, d, a)
  | _ => none

/-- R160: the result, a NaN or the exact value that rounds to itself, and the flags of each special input. -/
def specialInput (fn : Nat) : FpVal → Option (Exact × BitVec 5)
  | .nan _ => none
  | .inf s =>
    match fn with
    | 0 => some (if s then zero false else inf false, 0)
    | 1 => some (if s then (.nan true, 16) else (inf false, 0))
    | 2 => some (zero s, 0)
    | 3 => some (if s then (.nan true, 16) else (zero false, 0))
    | 4 => some (.nan true, 16)
    | 5 => some (.nan true, 16)
    | 6 => some (one s, 0)
    | 7 => some (if s then zero false else one false, 0)
    | 8 => some (if s then zero true else inf false, 0)
    | 9 => some (one s, 0)
    | _ => none
  | .fin s m e =>
    let whole := 0 ≤ e ∨ m % 2 ^ (-e).toNat = 0
    if m = 0 then
      match fn with
      | 0 => some (one false, 0)
      | 1 => some (inf true, 8)
      | 2 => some (inf s, 8)
      | 3 => some (inf s, 8)
      | 4 => some (zero false, 0)
      | 5 => some (one false, 0)
      | 6 => some (zero s, 0)
      | 7 => some (.fin false 1 (-1) false, 0)
      | 8 => some (zero s, 0)
      | 9 => some (zero s, 0)
      | _ => none
    else
      match fn with
      | 1 => if s then some (.nan true, 16) else if e ≤ 0 ∧ m = 2 ^ (-e).toNat then some (zero false, 0) else none
      | 3 => if s then some (.nan true, 16) else none
      | 4 => if whole then some (zero s, 0) else none
      | 5 => if whole then some (one (decide ((if 0 ≤ e then m * 2 ^ e.toNat else m / 2 ^ (-e).toNat) % 2 = 1)), 0)
        else if m % 2 ^ (-(e + 1)).toNat = 0 then some (zero false, 0) else none
      | _ => none
where
  zero (s : Bool) : Exact := .fin s 0 0 false
  one (s : Bool) : Exact := .fin s 1 0 false
  inf (s : Bool) : Exact := .inf s false

/-- R159: half units in the last place, and the absolute bound that counts if larger in units of 2^-320, of each special
function's error. -/
def errorBound (fn : Nat) (f : Fmt) : Int × Int :=
  if f = .fp32 then ([2, 2, 2, 2, 4, 4, 4, 4, 8, 4].getD fn 0,
    if fn = 1 then (2 : Int) ^ 296 else if fn = 8 then (2 : Int) ^ 298 else 0)
  else ([1, 1, 1, 1, 2, 2, 2, 2, 2, 2].getD fn 0, 0)

/-- R326, R327: accumulator, form, source registers, scaling, formats, K-mask, pins and checksum extension of each multiply
form. -/
def multiplyRow : Instr → Option MulArgs
  | .tmma acc ra _ _ ms fa fb mk ka kb ck => some ⟨.dense, acc, ra, ms, fa, fb, mk, ka, kb, ck⟩
  | .tmmaV acc ra _ _ ms fa fb mk ka kb ck => some ⟨.vector, acc, ra, ms, fa, fb, mk, ka, kb, ck⟩
  | .tmmas acc ra _ _ ms fa fb mk ka kb ck => some ⟨.sparse, acc, ra, ms, fa, fb, mk, ka, kb, ck⟩
  | _ => none

/-- R155, R326: the present positions of K block b. -/
def presentK (e : VEnv) (mk : PReg) (b : Nat) : List Nat :=
  (List.range' (32 * b) 32).filter (fun k => decide (k < e.c.vl.toNat) && (mk == 0 || bitOf e mk k))

/-- R326: bytes of A and of its compressed row, at the present positions, as addresses. -/
def addressesA (e : VEnv) (x : MulArgs) (row : Nat) (ks : List Nat) : List Word :=
  ks.map (fun k => e.c.ga + BitVec.ofNat 64 row * (e.c.gd.extractLsb' 0 32).signExtend 64 +
    BitVec.ofNat 64 ((if x.form = .sparse then
      ((List.range k).filter (fun j => x.msk == 0 || bitOf e x.msk j)).length else k) * fmtBytes x.fa))

/-- R326: the addresses of B, position by position, column by column. -/
def addressesB (e : VEnv) (x : MulArgs) (n : Nat) (ks : List Nat) : List Word :=
  (ks.map (fun k => (List.range n).map (fun j => e.c.gb + BitVec.ofNat 64 k * (e.c.gd.extractLsb' 32 32).signExtend 64 +
    BitVec.ofNat 64 (j * fmtBytes x.fb)))).flatten

/-- R155, R156: an accumulator element after a K block of products. -/
def accumulated (old : Nat) (ps : List Exact) : Nat :=
  let s := (sumExact ps).round .wa Rm.rne false
  ((fpAdd Rm.rne (Fmt.decode .wa old) (Fmt.decode .wa s.bits)).round .wa Rm.rne false).bits

end Sys2Proof.Claims

open Sys2Proof Sys2Proof.Machine Sys2Proof.Claims

/-- R281 to R284, R292, R293: a predicate instruction and `vlead` write the bits of their row, a permutation and `vconf` the
elements of their row at SEW bits with its GSTAT flags; `ppop`, `pfirst` and `vmvsv` deliver their row's value to g[d];
`vdupsum` writes, at the last active element of a key alone, the sum of the key's values in ascending order, each addition
under the counter of the element that it adds, with their flags. -/
def Obligations.PredicatesAndPermutations : Prop :=
  (∀ (i : Instr) (m d : PReg) (ga : Reg) (f : VEnv → Nat → Bool), predicateRow i = some (m, d, ga, f) →
    ∃ (op : VOp) (g : VEnv → Nat → ERes) (fin : VEnv → BitVec 5), vop i = some op ∧ op.run = .elem g fin ∧ op.ga = ga ∧
      ∀ (e : VEnv) (k : Nat), (op.acts e k = true ↔ acting e m k) ∧ fin e = 0 ∧
        g e k = { writes := [.p d.toNat k (f e k)], fl := 0, gs := 0 }) ∧
  (∀ (i : Instr) (d ga gb : Reg) (acts : VEnv → Nat → Prop) (f : VEnv → Nat → Option Nat × BitVec 5) (fl : VEnv → BitVec 5),
    permutationRow i = some (d, ga, gb, acts, f, fl) →
    ∃ (op : VOp) (g : VEnv → Nat → ERes), vop i = some op ∧ op.run = .elem g fl ∧ op.ga = ga ∧ op.gb = gb ∧
      ∀ (e : VEnv) (k : Nat), (op.acts e k = true ↔ acts e k) ∧
        g e k = { writes := (f e k).1.toList.map (fun x => e.t.elemWrite d.toNat (8 * 2 ^ (e.c.vtype.toNat % 8)) k x)
                  fl := 0, gs := (f e k).2 }) ∧
  (∀ (i : Instr) (gb : Reg) (f : VEnv → Word × BitVec 5), deliveredRow i = some (gb, f) →
    ∃ (op : VOp) (g : VEnv → Word × ERes), vop i = some op ∧ op.run = .scalar g ∧ op.gb = gb ∧
      ∀ e : VEnv, g e = ((f e).1, { writes := [], fl := 0, gs := (f e).2 })) ∧
  (∀ (x : VX) (d a b : Reg), ∃ (op : VOp) (g : VEnv → Nat → ERes) (fin : VEnv → BitVec 5),
    vop (.vdupsum x d a b) = some op ∧ op.run = .elem g fin ∧
    ∀ (e : VEnv) (i : Nat) (fmt : Fmt), vtFp e.c.vtype = some fmt → (op.acts e i = true ↔ acting e x.m i) ∧ fin e = 0 ∧
      ((∃ j, i < j ∧ j < e.c.vl.toNat ∧ twin e x.m a i j) → g e i = { writes := [], fl := 0, gs := 0 }) ∧
      (∀ j rest, (∀ j, i < j → j < e.c.vl.toNat → ¬ twin e x.m a i j) →
        (List.range e.c.vl.toNat).filter (fun j => decide (twin e x.m a i j)) = j :: rest →
        let z := rest.foldl (fun (p : Nat × BitVec 5) k =>
          let y := fpReductionRow.plus fmt (e.rm k) p.1 (source e false b k)
          (y.1, p.2 ||| y.2)) (source e false b j, 0)
        g e i = { writes := [e.t.elemWrite d.toNat (8 * 2 ^ (e.c.vtype.toNat % 8)) i z.1], fl := z.2, gs := 0 }))

/-- R285, R286, R111, R150: a reduction delivers to g[d] the combination of the active elements: an integer one of all of them
at SEW bits, extended, a floating-point one through the sixteen partials and the tree of R111, with the union of the flags of
its additions; with no active element it delivers its row's value.
A result that is a NaN of `vfredsum.w` is canonical, and a signalling NaN stays one until its addition. -/
def Obligations.Reductions : Prop :=
  (∀ (i : Instr) (m : PReg) (a : Reg) (signed : Bool) (f : (w : Nat) → BitVec w → BitVec w → BitVec w) (z : (w : Nat) → BitVec w),
    integerReductionRow i = some (m, a, signed, f, z) →
    ∃ (op : VOp) (g : VEnv → Word × ERes), vop i = some op ∧ op.run = .scalar g ∧
      ∀ e : VEnv, let w := 8 * 2 ^ (e.c.vtype.toNat % 8)
        let x := ((actives e m e.c.vl.toNat).map (fun k => BitVec.ofNat w (source e false a k))).foldr (f w) (z w)
        g e = (if signed then x.signExtend 64 else x.setWidth 64, { writes := [], fl := 0, gs := 0 })) ∧
  (∀ (i : Instr) (m : PReg) (a : Reg) (e : VEnv) (fmt : Fmt) (f : Rm → Nat → Nat → Nat × BitVec 5) (get fin : Nat → Nat) (z : Nat),
    vtFp e.c.vtype = some fmt → fpReductionRow fmt i = some (m, a, f, get, z, fin) →
    ∃ (op : VOp) (g : VEnv → Word × ERes), vop i = some op ∧ op.run = .scalar g ∧
      let r := treeNode (fun k => f (e.rm k)) (fun k => get (source e false a k)) (actives e m e.c.vl.toNat) 4 0
      g e = (BitVec.ofNat 64 (fin (r.elim z (fun p => p.1))), { writes := [], fl := r.elim 0 (fun p => p.2.2), gs := 0 }))

/-- R287 to R290, R141, R142, R144, R151, R153: an active element of a conversion is the source element converted, with its
flags and SATX; `vmxunpack` gives each element times its block's scale; `vmxpack` gives each element divided by it, with the
scale byte at the block's last active element, or at its last element below VL when none is active.
That SAT does not govern `vmxunpack` is read as log entry 61 says. -/
def Obligations.Conversions : Prop :=
  (∀ (i : Instr) (m : PReg) (d a : Reg) (dw sw : Nat → Nat) (f : VEnv → Nat → Nat → Nat × BitVec 5 × Bool),
    conversionRow i = some (m, d, a, dw, sw, f) →
    ∃ (op : VOp) (g : VEnv → Nat → ERes) (fin : VEnv → BitVec 5), vop i = some op ∧ op.run = .elem g fin ∧
      ∀ (e : VEnv) (k : Nat), (op.acts e k = true ↔ acting e m k) ∧ fin e = 0 ∧
        let w := 8 * 2 ^ (e.c.vtype.toNat % 8)
        let r := f e k (e.get a (sw w) k)
        g e k = { writes := [e.t.elemWrite d.toNat (dw w) k r.1], fl := r.2.1, gs := if r.2.2 then 2 else 0 }) ∧
  (∀ (x : VX) (d a b : Reg), ∃ (op : VOp) (g : VEnv → Nat → ERes) (fin : VEnv → BitVec 5),
    vop (.vmxunpack x d a b) = some op ∧ op.run = .elem g fin ∧
    ∀ (e : VEnv) (k : Nat) (fmt : Fmt), Fmt.ofCode (e.c.vtype.toNat / 8 % 16) = some fmt →
      (op.acts e k = true ↔ acting e x.m k) ∧ fin e = 0 ∧
      (e.get b 8 (k / 32) = 0xFF →
        g e k = { writes := [e.t.elemWrite d.toNat 32 k (Fmt.canonNaN .fp32)], fl := 16, gs := 0 }) ∧
      (e.get b 8 (k / 32) ≠ 0xFF →
        let r := ((fmt.decode (e.get a 8 k)).scale ((e.get b 8 (k / 32) : Int) - 127)).exact.round .fp32 (e.rm k) false
        g e k = { writes := [e.t.elemWrite d.toNat 32 k r.bits], fl := r.fl, gs := 0 })) ∧
  (∀ (x : VX) (d a b : Reg), ∃ (op : VOp) (g : VEnv → Nat → ERes) (fin : VEnv → BitVec 5),
    vop (.vmxpack x d a b) = some op ∧ op.run = .elem g fin ∧
    ∀ (e : VEnv) (k : Nat) (fmt : Fmt), Fmt.ofCode (e.c.vtype.toNat / 8 % 16) = some fmt → acting e x.m k →
      op.acts e k = true ∧ fin e = 0 ∧
      let last := ((List.range' (k / 32 * 32) 32).filter (fun j => decide (acting e x.m j))).getLast? = some k
      let z := blockScale e x.m a k
      let scale : List EWrite := if last then [e.t.elemWrite b.toNat 8 (k / 32) z] else []
      (z = 0xFF → g e k = { writes := e.t.elemWrite d.toNat 8 k fmt.canonNaN :: scale, fl := 16, gs := 0 }) ∧
      (z ≠ 0xFF →
        let r := ((Fmt.decode .fp32 (e.get a 32 k)).scale (127 - (z : Int))).exact.round fmt (e.rm k) (e.c.vtype.getLsbD 13)
        g e k = { writes := e.t.elemWrite d.toNat 8 k r.bits :: scale, fl := r.fl, gs := if r.satx then 2 else 0 })) ∧
  (∀ (x : VX) (d a b : Reg), ∃ (op : VOp) (g : VEnv → Nat → ERes) (fin : VEnv → BitVec 5),
    vop (.vmxpack x d a b) = some op ∧ op.run = .elem g fin ∧
    ∀ (e : VEnv) (k : Nat), k < e.c.vl.toNat → (∀ j ∈ List.range' (k / 32 * 32) 32, ¬ acting e x.m j) →
      k % 32 = 31 ∨ k + 1 = e.c.vl.toNat →
      op.acts e k = true ∧ g e k = { writes := [e.t.elemWrite b.toNat 8 (k / 32) (blockScale e x.m a k)], fl := 0, gs := 0 })

/-- R159, R160, R291: an active element of a special function is a function of its input and format alone; a NaN gives the
canonical NaN, with NV where it signals, and a special input the result and flags of R160; any other result, those of `vrcp` and
`vrsqrt` among them, is the exact value correctly rounded or lies within the bound of R159, raises only NX beside the OF and UF of
`vexp2`, and is +∞ with OF where 2^x lies beyond the range.
The exact value is computed in fixed point and the bits are free within the bound, as log entry 8 says. -/
def Obligations.SpecialFunctions : Prop :=
  (∀ (i : Instr) (fn : Nat) (m : PReg) (d a : Reg), specialRow i = some (fn, m, d, a) →
    ∃ (op : VOp) (g : VEnv → Nat → ERes) (fin : VEnv → BitVec 5), vop i = some op ∧ op.run = .elem g fin ∧
      ∀ (e : VEnv) (k : Nat) (fmt : Fmt), vtFp e.c.vtype = some fmt → (op.acts e k = true ↔ acting e m k) ∧ fin e = 0 ∧
        let r := sfu fn fmt (source e false a k)
        g e k = { writes := [e.t.elemWrite d.toNat (8 * 2 ^ (e.c.vtype.toNat % 8)) k r.1], fl := r.2, gs := 0 }) ∧
  (∀ (fn : Nat) (f : Fmt) (x : Nat), fn < 10 → f ∈ [Fmt.fp32, Fmt.fp16, Fmt.bf16] →
    (∀ q, f.decode x = .nan q → sfu fn f x = (f.canonNaN, if q then 16 else 0)) ∧
    (∀ z fl, specialInput fn (f.decode x) = some (z, fl) → sfu fn f x = ((z.round f Rm.rne false).bits, fl)) ∧
    (∀ s m e, f.decode x = .fin s m e → specialInput fn (f.decode x) = none →
      (fn ≠ 0 → (sfu fn f x).2 &&& 30 = 0) ∧
      (fn = 0 → (sfu fn f x).2 &&& 24 = 0 ∧
        (f.beyond (fxSpecial 0 s m e) = false → (sfu fn f x).2 &&& 6 = if f.beneath (fxSpecial 0 s m e) then 2 else 0)) ∧
      (fn = 0 → f.beyond (fxSpecial 0 s m e) = true → sfu fn f x = ((Exact.round f Rm.rne false (.inf false false)).bits, 5)) ∧
      (fn = 2 ∨ fn = 3 → f ≠ .fp32 → (sfu fn f x).1 = (sfuRational fn f (f.decode x)).bits) ∧
      (fn = 2 ∨ fn = 3 → f = .fp32 → let v := fxRational fn (f.decode x)
        (f.decode (sfuRational fn f (f.decode x)).bits = .inf s → (sfu fn f x).1 = (sfuRational fn f (f.decode x)).bits) ∧
        (f.decode (sfuRational fn f (f.decode x)).bits ≠ .inf s → (sfu fn f x).1 = (fxRound f v).bits ∨
          ∃ y, fxValue f (sfu fn f x).1 = some y ∧
            ((y - v).natAbs : Int) ≤ max (errorBound fn f).2 ((errorBound fn f).1 * halfUlp f v.natAbs))) ∧
      (fn ≠ 2 → fn ≠ 3 → f.beyond (fxSpecial fn s m e) = false ∨ fn ≠ 0 →
        (sfu fn f x).1 = (fxRound f (fxSpecial fn s m e)).bits ∨
        ∃ y, fxValue f (sfu fn f x).1 = some y ∧ ((y - fxSpecial fn s m e).natAbs : Int) ≤
          max (errorBound fn f).2 ((errorBound fn f).1 * halfUlp f (fxSpecial fn s m e).natAbs))))

/-- R151, R155, R156, R326, R327: a row of a multiply form adds into each accumulator element of the row the WA-rounded exact
sum of the products at the block's present positions, with their scales, and changes no other element and no vector register;
it raises no flag but NV and OF. A block with no present position leaves the accumulator's elements as they are. The elements
are held by key in a canonical form (log entry 9), which a row keeps. -/
def Obligations.TileMultiply : Prop :=
  ∀ (i : Instr) (x : MulArgs) (vl m : Nat), multiplyRow i = some x →
    ∃ f : TileForm, tileForm vl m i = some f ∧ f.acc = x.acc ∧ f.rows = m ∧ f.steps = (vl + 31) / 32 ∧
    ∀ (r : RowEnv) (a : Tile) (z : RowRes), f.row r a = .ok z → a.n.toNat ≤ 64 →
      let ks := presentK r.e x.msk r.step
      z.writes = [] ∧ z.stores = [] ∧ z.fl &&& 11 = 0 ∧
      (ks = [] → z.tile.elems = a.elems) ∧
      (∀ u v, v < 64 → (u ≠ r.row ∨ a.n.toNat ≤ v) → z.tile.at_ u v = a.at_ u v) ∧
      (swf (fun _ => (0 : BitVec 64)) none a.elems = true → swf (fun _ => (0 : BitVec 64)) none z.tile.elems = true) ∧
      (swf (fun _ => (0 : BitVec 64)) none a.elems = true → ks ≠ [] → ∃ as bs sas sbs : List Nat,
        r.read x.kb (fmtBytes x.fb) (addressesB r.e x a.n.toNat ks) = .ok bs ∧
        (x.form ≠ .vector → r.read x.ka (fmtBytes x.fa) (addressesA r.e x r.row ks) = .ok as) ∧
        (x.form = .vector → as = ks.map (fun k => r.e.get x.ra (8 * fmtBytes x.fa) (r.row * r.e.c.vl.toNat + k))) ∧
        (x.ms.getLsbD 0 = true → r.read x.ka 1 ((List.range a.m.toNat).map (fun u =>
          r.e.c.mxsa + BitVec.ofNat 64 (u * ((r.e.c.vl.toNat + 31) / 32) + r.step))) = .ok sas) ∧
        (x.ms.getLsbD 1 = true → r.read x.kb 1 ((List.range a.n.toNat).map (fun v =>
          r.e.c.mxsb + BitVec.ofNat 64 (v * ((r.e.c.vl.toNat + 31) / 32) + r.step))) = .ok sbs) ∧
        ∀ v, v < a.n.toNat → z.tile.at_ r.row v = accumulated (a.at_ r.row v) ((List.range ks.length).map (fun p =>
          fpMul (scaled8 (if x.ms.getLsbD 0 then sas[r.row]? else none) ((fmtOf x.fa).decode (as.getD p 0)))
            (scaled8 (if x.ms.getLsbD 1 then sbs[v]? else none) ((fmtOf x.fb).decode (bs.getD (p * a.n.toNat + v) 0))))) % 2 ^ 64)

namespace Sys2Proof.Claims

/-- What one micro-operation of an element-wise instruction gathers from the elements of its group that act (R106). -/
def groupResult (g : VEnv → Nat → ERes) (v : VEnv) (ks : List Nat) : ERes :=
  ks.foldl (fun a k => { writes := a.writes ++ (g v k).writes, fl := a.fl ||| (g v k).fl, gs := a.gs ||| (g v k).gs })
    { writes := [], fl := 0, gs := 0 }

/-- R102, R101, R115: a micro-operation's group may issue now: the strand runs, the group's sources and orders are met, it
stands in the issue window, its rows can be had and it is its pipe's choice. -/
abbrev MayIssue (s : State) (e : VEntry) (op : VOp) (k : Nat) : Prop :=
  s.cur.life = .running ∧ s.cur.canIssue e op k = true ∧ s.cur.inWindow (s.windowShare s.cur) e op k = true ∧
  s.cur.rowsOk e op k = true ∧ s.cur.pipeTurn e op k = true

/-- R102: a pipe is granted to the strand, and its pointer moves to the slot behind it. -/
def pipeGranted (s : State) (p : Nat) : State :=
  s.modCore s.cur.coreNo (fun c => { c with ptrs := sset 0 c.ptrs p ((s.cur.slot + 1) % 4) })

/-- R115: the strand with the lost rows that an access of an entry reads written again. -/
def mendedReads (t : Strand) (e : VEntry) (xs : List Span) : Strand :=
  t.mend e.seq (t.badRowsIn e xs)

/-- R115: the same for a micro-operation's reads. -/
def mended (t : Strand) (e : VEntry) (op : VOp) (k : Nat) : Strand := mendedReads t e (t.microReads e op k)

/-- R116, R133: a lost row that no operand buffer can write again: the entry takes MCHECK at an element, and CHKCNT counts it. -/
def lostRow (t : Strand) (e : VEntry) (elem : Nat) : Strand :=
  (t.modEntry e.seq (fun x => x.addFault { cause := cMCHECK, elem := elem, addr := 0, info := 1 })).countCheck

/-- R302: the flags of an atomic update, from what its bytes hold. -/
def updateFlags (m : Memory) (h : HeldElem) : BitVec 5 :=
  match h.amo with
  | some (op, vt, w) => (amoCompute op.toNat vt w (leNat (h.keys.map (h.sees m))) h.val).2
  | none => 0

/-- R324: the core's matrix engine serves the current strand's entry. -/
def tileServed (s : State) (e : VEntry) : State :=
  let c := s.core s.cur.coreNo
  (if (s.engineBusy s.cur.coreNo c.tile).isSome then s else pipeGranted s 68).modCore s.cur.coreNo
    (fun c => { c with tile := some (s.cur.key, e.seq) })

/-- R338: the core's orthogonal unit serves the current strand's entry. -/
def orthServed (s : State) (e : VEntry) : State :=
  let c := s.core s.cur.coreNo
  (if (s.engineBusy s.cur.coreNo c.orth).isSome then s else pipeGranted s 69).modCore s.cur.coreNo
    (fun c => { c with orth := some (s.cur.key, e.seq) })

/-- R324: the strand's oldest tile entry may run its next row on the core's engine. -/
abbrev RowRuns (s : State) (e : VEntry) (op : VOp) : Prop :=
  s.cur.exists_ = true ∧ s.cur.life = .running ∧ s.cur.oldest isTile = some e ∧ vop e.instr = some op ∧
  s.cur.tileReady = true ∧
  s.engineTurn s.cur (s.core s.cur.coreNo).tile (sget 0 (s.core s.cur.coreNo).ptrs 68) Strand.tileReady = true

/-- R338: the same of an orthogonal entry's next step. -/
abbrev LineRuns (s : State) (e : VEntry) (op : VOp) : Prop :=
  s.cur.exists_ = true ∧ s.cur.life = .running ∧ s.cur.oldest isOrth = some e ∧ vop e.instr = some op ∧
  s.cur.orthReady = true ∧
  s.engineTurn s.cur (s.core s.cur.coreNo).orth (sget 0 (s.core s.cur.coreNo).ptrs 69) Strand.orthReady = true

/-- R105, R324: what a row of a tile entry reads of the vector file. -/
def rowReads (s : State) (e : VEntry) (op : VOp) (z : RowRes) : List Span :=
  s.cur.engineReads e op (s.cur.rowElems e) z.writes

/-- R105, R338: what a step of an orthogonal entry reads of the vector file: its last step reads the vector source. -/
def lineReads (s : State) (e : VEntry) (op : VOp) (z : OStep) : List Span :=
  s.cur.engineReads e op (if z.last then List.range (min (orthNeeds s.cur e) (vlmaxOf s.cur.lgw e.caps.vtype)) else []) z.writes

/-- R115: every lost row that an access reads can be written again. -/
abbrev Recovers (t : Strand) (e : VEntry) (xs : List Span) : Prop :=
  ∀ x ∈ t.badRowsIn e xs, t.producerHeld (t.versionOf (some e.seq) x) x = true

/-- What a row of a tile entry works on. -/
def rowEnv (s : State) (e : VEntry) : RowEnv :=
  { s := s, t := s.cur, view := heldView s.mem s.cur.held, e := s.cur.env e, partA := e.partA, step := e.prog, row := e.rowprog }

/-- What a step of an orthogonal entry works on. -/
def lineEnv (s : State) (e : VEntry) : OEnv :=
  { s := s, t := s.cur, view := heldView s.mem s.cur.held, e := s.cur.env e, step := e.prog, logged := e.logged }

/-- R324, R333: what stops a row: an image at no multiple of 8, a byte that it may not read, or one that it may not store. -/
abbrev rowStops (u : State) (e : VEntry) (f : TileForm) (x : Stop) : Prop :=
  (∃ kind, e.rowprog = 0 ∧ e.caps.ga.toNat % 8 ≠ 0 ∧ f.image = some kind ∧ x = .trap cACCESS e.caps.ga.toNat kind.code) ∨
  ((e.rowprog ≠ 0 ∨ e.caps.ga.toNat % 8 = 0 ∨ f.image = none) ∧
    (f.row (rowEnv u e) (u.cur.tile f.acc) = .error x ∨ ∃ z i, f.row (rowEnv u e) (u.cur.tile f.acc) = .ok z ∧
      checkStores u u.cur f.pin .write f.bytes [] z.stores = .error (i, x)))

/-- R338: what stops a step of an orthogonal entry: a byte that it may not read, or one that it may not store. -/
abbrev lineStops (u : State) (e : VEntry) (q : BitVec 1) (x : Stop) : Prop :=
  Machine.orthStep (lineEnv u e) (u.cur.orth q) e.instr = .error x ∨
  ∃ z i, Machine.orthStep (lineEnv u e) (u.cur.orth q) e.instr = .ok z ∧
    checkStores u u.cur z.pin .write z.bytes [] z.stores = .error (i, x)

end Sys2Proof.Claims

open Sys2Proof Sys2Proof.Machine Sys2Proof.Claims

/-- R101, R102, R104, R106, R113, R115, R116, R191, R205, R324, R338: MICRO_OPERATION_ISSUE of a group that may issue puts
the group's results into flight and moves its pipe's pointer on; a lost row that it reads is written again while the
micro-operation that wrote it stands in its lane's operand buffer, else the entry takes MCHECK, counted in CHKCNT, and
nothing issues. ELEMENT_GROUP_COMPLETE performs one update that the group has left, whichever a free value picks, or with
none left takes its results out of flight and lets progress go on. SCALAR_ACCESS_PERFORMED performs a buffered store that
may be performed; one that a `tlbi` left is translated again and stays while it cannot be; one whose stack was castled away
or whose extent was released is dropped, its trap pending (log entries 31 and 62). MATRIX_ENGINE_STEP and
ORTHOGONAL_LINE_STEP change nothing without an entry of their kind; with one that may run and that its core's engine serves,
the row or step at its PROGRESS is run: what it stores is checked whole and then performed, the accumulator, flags and
registers that it writes become final and its progress moves on; a row or step that an access stops, or a lost row that
cannot be written again, records the fault at its place, a row leaving ROWPROG there, and does nothing else; one held back
by a hand-over is tried again. Which version of a row is lost, and what stands in a buffer, is read as log entry 18 says;
updates left to a free order are the model's form of R191 (log entry 31). -/
def Obligations.MicroOperations : Prop :=
  ((∀ (s : State) (seq : BitVec 32) (k : Nat) (e : VEntry) (op : VOp) (g : VEnv → Nat → ERes) (fin : VEnv → BitVec 5),
    s.cur.exists_ = true → s.cur.entry? seq = some e → vop e.instr = some op → op.run = .elem g fin →
    MayIssue s e op k →
    let u := pipeGranted s (s.cur.pipe e.instr k)
    (Recovers s.cur e (s.cur.microReads e op k) →
      let t := mended s.cur e op k
      let r := groupResult g (t.env e) (e.acting op (t.env e) k)
      exec (.microOperationIssue s.cur.key seq k) s = .next { u with cur := t.modEntry e.seq (fun x => { x with
        inflight := x.inflight ++ [{ g := k, writes := r.writes, fl := r.fl, gs := r.gs, flip := none, left := [] }] }) }) ∧
    (¬ Recovers s.cur e (s.cur.microReads e op k) →
      exec (.microOperationIssue s.cur.key seq k) s = .next { u with cur := lostRow s.cur e (k * e.G) })) ∧
  (∀ (s : State) (seq : BitVec 32) (k : Nat), s.cur.exists_ = true →
    (∀ e, s.cur.entry? seq = some e → ∀ r ∈ e.inflight, r.g = k → r.left = []) →
    exec (.elementGroupComplete s.cur.key seq k) s = .next { s with cur := (s.cur.finishGroup seq k).advanceAll }) ∧
  (∀ (s : State) (seq : BitVec 32) (k : Nat) (e : VEntry) (r : GroupRes) (h : HeldElem), s.cur.exists_ = true →
    s.cur.entry? seq = some e → e.inflight.find? (fun x => x.g == k && x.left != []) = some r →
    r.left[Config.free s.free % r.left.length]? = some h →
    exec (.elementGroupComplete s.cur.key seq k) s = .next
      { State.performHeld { s with free := s.free + 1 } h with cur := s.cur.modEntry seq (fun x => { x with
        inflight := x.inflight.map (fun y => if y.g = k then { y with
          left := y.left.eraseIdx (Config.free s.free % r.left.length), fl := y.fl ||| updateFlags s.mem h } else y) }) }) ∧
  (∀ (s : State) (seq : BitVec 32) (k : Nat) (e : VEntry) (r : GroupRes), s.cur.entry? seq = some e →
    e.inflight.find? (fun x => x.g == k) = some r → r.flip = none → e.caps.check.toNat % 4 = 0 →
    s.cur.finishGroup seq k = { s.cur with
      viq := s.cur.viq.map (fun x => if x.seq = seq then { x with
        inflight := x.inflight.filter (fun y => y.g != k), done := x.done ++ [r] } else x)
      opBuf := (s.cur.noteOps e r 0).opBuf
      ctl := { s.cur.ctl with fstat := s.cur.ctl.fstat ||| r.fl.setWidth 64, gstat := s.cur.ctl.gstat ||| r.gs.setWidth 64 } }) ∧
  (∀ (s : State) (n : Nat) (b : BufferedStore), s.cur.exists_ = true → s.cur.sbuf[n]? = some b → s.cur.storeReady n = true →
    let u := { s with cur := { s.cur with sbuf := s.cur.sbuf.eraseIdx n } }
    (s.storeKeys s.cur b = none → exec (.scalarAccessPerformed s.cur.key n) s = .next s) ∧
    (∀ ks, s.storeKeys s.cur b = some ks → (∀ j ∈ ks, u.storeStop s.cur.die b.va j = none) →
      exec (.scalarAccessPerformed s.cur.key n) s = .next
        (State.performStore u s.cur.key s.cur.coreNo ks (leBytes ks.length b.val))) ∧
    (∀ ks x, s.storeKeys s.cur b = some ks → ks.findSome? (u.storeStop s.cur.die b.va) = some x →
      exec (.scalarAccessPerformed s.cur.key n) s = .next (u.storeFault s.cur.key x)))) ∧
  ((∀ s : State, s.cur.exists_ = true →
    (s.cur.oldest isTile = none → exec (.matrixEngineStep s.cur.key) s = .next s) ∧
    (s.cur.oldest isOrth = none → exec (.orthogonalLineStep s.cur.key) s = .next s)) ∧
  (∀ (s : State) (e : VEntry) (op : VOp) (f : TileForm), RowRuns s e op → s.cur.formOf e = some f →
    let u := tileServed s e
    (f.steps ≤ e.prog →
      exec (.matrixEngineStep s.cur.key) s = .next { u with cur := (s.cur.finishEntry e.seq none).advanceAll }) ∧
    (e.prog < f.steps → e.rowprog ≠ 0 ∨ e.caps.ga.toNat % 8 = 0 ∨ f.image = none →
      (∀ z, f.row (rowEnv u e) (u.cur.tile f.acc) = .ok z → z.stores = [] → Recovers s.cur e (rowReads s e op z) →
        exec (.matrixEngineStep s.cur.key) s = .next { u.cleanReads u.cur z.reads with
          cur := (mendedReads u.cur e (rowReads s e op z)).rowDone e f z 0 }) ∧
      (∀ z xs, f.row (rowEnv u e) (u.cur.tile f.acc) = .ok z →
        checkStores u u.cur f.pin .write f.bytes [] z.stores = .ok xs → Recovers s.cur e (rowReads s e op z) →
        let a := State.vStores { u.cleanReads u.cur z.reads with cur := mendedReads u.cur e (rowReads s e op z) }
          u.cur.key e.seq xs
        exec (.matrixEngineStep s.cur.key) s = .next (a.1.modStrand u.cur.key (fun t => t.rowDone e f z a.2))) ∧
      (∀ z xs, f.row (rowEnv u e) (u.cur.tile f.acc) = .ok z →
        checkStores u u.cur f.pin .write f.bytes [] z.stores = .ok xs → ¬ Recovers s.cur e (rowReads s e op z) →
        exec (.matrixEngineStep s.cur.key) s = .next { u with
          cur := (lostRow u.cur e (64 * e.prog + e.rowprog)).setTile f.acc
            ({ u.cur.tile f.acc with rowprog := BitVec.ofNat 7 e.rowprog }) })) ∧
    (∀ x, e.prog < f.steps → rowStops u e f x →
      (x = .hold → exec (.matrixEngineStep s.cur.key) s = .next u) ∧
      (∀ c va info, x = .trap c va info →
        let t := u.cur.modEntry e.seq (fun x => x.addFault
          { cause := c, elem := 64 * e.prog + e.rowprog, addr := BitVec.ofNat 64 va, info := BitVec.ofNat 62 info })
        exec (.matrixEngineStep s.cur.key) s = .next { u with
          cur := t.setTile f.acc { u.cur.tile f.acc with rowprog := BitVec.ofNat 7 e.rowprog } }))) ∧
  (∀ (s : State) (e : VEntry) (op : VOp) (q : BitVec 1), LineRuns s e op → orthAcc e.instr = some q →
    let u := orthServed s e
    (∀ z xs, Machine.orthStep (lineEnv u e) (u.cur.orth q) e.instr = .ok z →
      checkStores u u.cur z.pin .write z.bytes [] z.stores = .ok xs →
      (Recovers s.cur e (lineReads s e op z) →
        let a := State.vStores { u.cleanReads u.cur z.reads with cur := mendedReads u.cur e (lineReads s e op z) }
          u.cur.key e.seq xs
        let r : GroupRes := { g := 0, writes := z.writes, fl := 0, gs := 0, flip := none, left := [] }
        exec (.orthogonalLineStep s.cur.key) s = .next (a.1.modStrand u.cur.key (fun t =>
          let t := (((t.setOrth q z.orth).orFlags (z.fl ||| a.2) z.gs).modEntry e.seq (fun x => { x with
            prog := if z.part = .line then x.prog + 1 else x.prog, logged := x.logged || z.part == .log
            done := if z.writes = [] then x.done else x.done ++ [r] }))
          if z.last then (t.finishEntry e.seq none).advanceAll else t))) ∧
      (¬ Recovers s.cur e (lineReads s e op z) →
        exec (.orthogonalLineStep s.cur.key) s = .next { u with cur := lostRow u.cur e e.prog })) ∧
    (∀ x, lineStops u e q x → x = .hold → exec (.orthogonalLineStep s.cur.key) s = .next u) ∧
    (∀ x c va info, lineStops u e q x → x = .trap c va info →
      exec (.orthogonalLineStep s.cur.key) s = .next { u with cur := u.cur.modEntry e.seq (fun x => x.addFault
        { cause := c, elem := e.prog, addr := BitVec.ofNat 64 va, info := BitVec.ofNat 62 info }) })))

namespace Sys2Proof.Claims

/-- R36, R309, R314: PENDING of a barrier with n announced bytes more. -/
def announcing (s : State) (form : BitVec 16) (n : Nat) : State :=
  let k := (if form.getLsbD 12 then 4096 else 0) + form.toNat % 4096
  s.setBar k { s.bar k with pending := BitVec.ofNat 40 ((s.bar k).pending.toNat + n) }

/-- R36: whether PENDING of a barrier has room for n announced bytes more. -/
abbrev announceFits (s : State) (form : BitVec 16) (n : Nat) : Prop :=
  (s.bar ((if form.getLsbD 12 then 4096 else 0) + form.toNat % 4096)).pending.toNat + n < 2 ^ 40

/-- R303: the transfer of one row to the scratchpad, at the place behind the rows of the active elements below i. -/
def rowTransfer (s : State) (e : VEntry) (op : VOp) (k : BitVec 3) (i : Nat) (src : Word) (n : Nat) : BteCmd :=
  { id := s.nextBte, key := s.cur.key, seq := e.seq, cluster := s.cur.cluster, row := true, op := 1, spin := k, dpin := 0, port := 0
    endMark := false, bar := e.caps.xferbar.setWidth 16, tag := 0, pad := 0, src := src
    dst := BitVec.ofNat 64 (scratchKey s.cur.cluster (e.caps.gd.toNat - scratchVa +
      ((List.range i).filter (op.acts (s.cur.env e))).length * n))
    rb := n, nr := 1, sstride := 0, dstride := 0, vr := 1, vb := n, delivered := 0, padded := false, readAny := false }

/-- R304: the bytes that stand in a stream port before its first end mark. -/
def beforeMark (items : List StreamItem) : List Byte :=
  (items.takeWhile (fun x => x != .endMark)).map (fun x => match x with | .byte b => b | .endMark => 0)

end Sys2Proof.Claims

open Sys2Proof Sys2Proof.Machine Sys2Proof.Claims

/-- R298 to R302, R198, R192, R106, R169, R191: the micro-operation of a vector memory entry changes no byte outside the
elements of its group, a load none at all; a load of one element puts into flight the bytes at its address as the strand
sees them and has cached copies of the line written back; a store of one element, ordered or unit-stride and outside
deterministic mode, leaves its bytes holding the element; an unordered atomic of one element outside deterministic mode
leaves its update to be performed before the group completes. A row of `vgscr` whose bytes may be read is announced at
XFERBAR and handed to the BTE; an announcement that R36 refuses sets FAULT and hands nothing, and the entry goes on. `vepop`
waits for VL elements or an end mark; it then delivers the elements before the mark, at most VL, sets VL to their number,
and with fewer than VL takes the mark with it and sets TRIM. That loads are performed at issue is read as log entry 32 says;
updates left are the model's form of R191 (log entry 31). -/
def Obligations.VectorMemoryElements : Prop :=
  (∀ (s : State) (seq : BitVec 32) (k : Nat) (e : VEntry) (op : VOp) (b : Reg) (p : BitVec 3) (i : Nat) (keys : List Nat),
    s.cur.exists_ = true → s.cur.entry? seq = some e → vop e.instr = some op → op.run = .gscr p b →
    MayIssue s e op k → s.cur.badRowsIn e (s.cur.microReads e op k) = [] → e.acting op (s.cur.env e) k = [i] →
    let n := e.caps.rowbytes.toNat % 2 ^ 17
    let src := e.caps.ga + BitVec.ofNat 64 (source (s.cur.env e) false b i * n)
    pinAccess s s.cur p .read src n = .ok keys →
    let form := e.caps.xferbar.setWidth 16
    let u := pipeGranted s (s.cur.pipe e.instr k)
    let t : Strand := s.cur.modEntry e.seq (fun x => { x with
      inflight := x.inflight ++ [{ g := k, writes := [], fl := 0, gs := 0, flip := none, left := [] }] })
    (announceFits u form n → exec (.microOperationIssue s.cur.key seq k) s = .next { announcing u form n with
      bte := s.bte ++ [rowTransfer s e op p i src n], nextBte := s.nextBte + 1, cur := t }) ∧
    (¬ announceFits u form n → exec (.microOperationIssue s.cur.key seq k) s = .next
      { u.faultBar (form.getLsbD 12) (form.toNat % 4096) with cur := t })) ∧
  (∀ (s : State) (seq : BitVec 32) (e : VEntry) (op : VOp) (d b : Reg), s.cur.exists_ = true → s.cur.life = .running →
    s.cur.entry? seq = some e → vop e.instr = some op → op.run = .epop b d → e.complete = false → e.fault = none →
    s.cur.convoyOk e = true → s.cur.rowsOk e op 0 = true → s.cur.lostRows e.seq = [] →
    let w := 8 * 2 ^ (e.caps.vtype.toNat % 8)
    s.cur.destsFree e [Opd.vec e.caps.vtype d w .whole] = true →
    let items := sget [] s.cur.ports.streams b.toNat
    let bytes := beforeMark items
    let c := Nat.min e.caps.vl.toNat (bytes.length / (w / 8))
    (bytes.length / (w / 8) < e.caps.vl.toNat → StreamItem.endMark ∉ items →
      exec (.microOperationIssue s.cur.key seq 0) s = .next s) ∧
    (e.caps.vl.toNat ≤ bytes.length / (w / 8) ∨ StreamItem.endMark ∈ items →
      let writes := (List.range c).map (fun i =>
        (s.cur.env e).t.elemWrite d.toNat w i (leNat ((bytes.drop (i * (w / 8))).take (w / 8))))
      let used := if c < e.caps.vl.toNat then bytes.length + 1 else c * (w / 8)
      let u : Strand := { s.cur with
        ports := { s.cur.ports with streams := sset [] s.cur.ports.streams b.toNat (items.drop used) }
        ctl := { s.cur.ctl with
          vl := BitVec.ofNat 64 c, gstat := s.cur.ctl.gstat ||| (if c < e.caps.vl.toNat then 4 else 0) } }
      exec (.microOperationIssue s.cur.key seq 0) s = .next { s with cur := (u.modEntry e.seq (fun x => { x with
        done := x.done ++ [{ g := 0, writes := writes, fl := 0, gs := 0, flip := none, left := [] }] })).finishEntry e.seq none })) ∧
  (∀ (s : State) (seq : BitVec 32) (k : Nat) (e : VEntry) (op : VOp) (m : MemOp),
    s.cur.exists_ = true → s.cur.entry? seq = some e → vop e.instr = some op → op.run = .mem m →
    MayIssue s e op k → s.cur.badRowsIn e (s.cur.microReads e op k) = [] →
    let v := s.cur.env e
    let n := 2 ^ (e.caps.vtype.toNat % 8)
    let u := pipeGranted s (s.cur.pipe e.instr k)
    (∃ t, exec (.microOperationIssue s.cur.key seq k) s = .next t ∧ (m.kind = .read → t.mem = s.mem) ∧
      (∀ j, (∀ i f keys, i < e.caps.vl.toNat → i / e.G = k → f < m.fields →
        pinAccess s s.cur m.k m.kind (m.addr v i f) n = .ok keys → j ∉ keys) → memRead t.mem j = memRead s.mem j)) ∧
    (∀ i keys, e.acting op v k = [i] → m.fields = 1 → pinAccess s s.cur m.k m.kind (m.addr v i 0) n = .ok keys →
      (m.kind = .read → exec (.microOperationIssue s.cur.key seq k) s = .next
        { u.cleanReads s.cur [(m.k, n, [m.addr v i 0])] with cur := s.cur.modEntry e.seq (fun x =>
        { x with inflight := x.inflight ++ [{
            g := k
            writes := [(s.cur.env e).t.elemWrite m.data.toNat (8 * n) i (leNat (memReadList (heldView s.mem s.cur.held) keys))]
            fl := 0, gs := 0, flip := none, left := [] }] }) }) ∧
      (m.kind = .write → m.amo = none → MemOk s → s.cur.det = false → (m.ordered = true ∨ (unitStride e).isSome = true) →
        keys.Nodup → keys.length = n → ∃ t, exec (.microOperationIssue s.cur.key seq k) s = .next t ∧
          memReadList t.mem keys = leBytes n (v.t.elem m.data.toNat (8 * n) i)) ∧
      (∀ o, m.kind = .atomic → m.amo = some o → s.cur.det = false → m.ordered = false →
        exec (.microOperationIssue s.cur.key seq k) s = .next { u with cur := s.cur.modEntry e.seq (fun x =>
        { x with inflight := x.inflight ++ [{
            g := k, writes := [], fl := 0, gs := 0, flip := none
            left := [{ seq := e.seq, elem := i, va := (m.addr v i 0).toNat, keys := keys
                       val := v.t.elem m.data.toNat (8 * n) i, past := [], quiet := false
                       amo := some (o, e.caps.vtype, if e.caps.vtype.toNat / 1024 % 8 = 5 then
                         srWord e.caps.srseed (srCounter e.caps.srsalt e.caps.stripbase i) else 0) }] }] }) })))

namespace Sys2Proof.Claims

/-! ### Rows of tile instructions and steps of orthogonal instructions (R330 to R348) -/

/-- Elements and checksums in their canonical form (log entry 9). -/
abbrev tileKept (a : Tile) : Prop :=
  swf (fun _ => (0 : BitVec 64)) none a.elems = true ∧ swf (fun _ => (0 : BitVec 32)) none a.ckrow = true ∧
  swf (fun _ => (0 : BitVec 32)) none a.ckcol = true

/-- Flags of the first n of some results, together. -/
def flagsTo {α : Type} (n : Nat) (f : Nat → α × BitVec 5) : BitVec 5 :=
  (List.range n).foldl (fun x j => x ||| (f j).2) 0

/-- R226, R330: a signed 32-bit stride in the low half of a word. -/
def stride (x : Word) : Word := (x.extractLsb' 0 32).signExtend 64

/-- R330: a value of a format widened to WA; the rounding of FP64 alone raises OF, UF and NX. -/
def widened (f : Fmt) (x : Nat) : Nat × BitVec 5 :=
  let r := (f.decode x).exact.round .wa Rm.rne false
  (r.bits, if f = .fp64 then r.fl else r.fl &&& 16)

/-- R157, R331: container x read out to a format as element i: bits and flags, and SATX. -/
def readTo (e : VEnv) (f : Fmt) (i x : Nat) : (Nat × BitVec 5) × BitVec 5 :=
  let r := (Fmt.decode .wa x).exact.round f (e.rm i) (e.c.vtype.getLsbD 13)
  ((r.bits, r.fl), if r.satx then 2 else 0)

/-- R335: an exact sum of containers less a checksum, rounded once to FP32. -/
def residueOf (xs : List Nat) (ck : BitVec 32) : Nat :=
  ((((xs.map (fun x => (Fmt.decode .wa x).exact)) ++ [(Fmt.decode .fp32 ck.toNat).neg.exact]).foldl
    ExactSum.add ExactSum.empty).result.round .fp32 Rm.rne false).bits

/-- R335: residue i of an accumulator: 64 of rows, then 64 of columns. -/
def residueAt (a : Tile) (i : Nat) : Nat :=
  if i < a.m.toNat then residueOf ((List.range a.n.toNat).map (a.at_ i)) (sget 0 a.ckrow i)
  else if 64 ≤ i ∧ i - 64 < a.n.toNat then
    residueOf ((List.range a.m.toNat).map (fun u => a.at_ u (i - 64))) (sget 0 a.ckcol (i - 64))
  else 0

/-- R335: a residue that is a NaN or larger in magnitude than tol. -/
def residueHigh (tol x : Nat) : Bool :=
  (Fmt.decode .fp32 (x % 2 ^ 31)).isNan || fpCmp (Fmt.decode .fp32 tol) (Fmt.decode .fp32 (x % 2 ^ 31)) == some .lt

/-- R333: the words of the image that row m of `tsave` and `trest` moves: index and content. -/
def imageOf (a : Tile) (m : Nat) : List (Nat × Nat) :=
  (List.range 64).map (fun n => (64 * m + n, a.at_ m n)) ++
  (if m = 63 then
    (List.range 32).map (fun j => (4096 + j, (sget 0 a.ckrow (2 * j)).toNat + 2 ^ 32 * (sget 0 a.ckrow (2 * j + 1)).toNat)) ++
    (List.range 32).map (fun j => (4128 + j, (sget 0 a.ckcol (2 * j)).toNat + 2 ^ 32 * (sget 0 a.ckcol (2 * j + 1)).toNat)) ++
    [(4160, a.m.toNat + 2 ^ 8 * a.n.toNat + (if a.ckv then 2 ^ 24 else 0))]
  else [])

/-- A row whose form needs one step of n rows, and its form. -/
abbrev rowsOf (i : Instr) (vl m : Nat) (acc : BitVec 3) (n : Nat) (P : TileForm → RowEnv → Tile → RowRes → Prop) : Prop :=
  ∃ f, tileForm vl m i = some f ∧ f.acc = acc ∧ f.steps = 1 ∧ f.rows = n ∧
    ∀ r a z, f.row r a = .ok z → r.row < 64 → a.m.toNat ≤ 64 → a.n.toNat ≤ 64 → tileKept a → P f r a z

/-- Nothing stored, no register written. -/
abbrev inside (z : RowRes) : Prop := z.stores = [] ∧ z.writes = []

/-- Row `row` of an accumulator holds n new containers; all else but CKV stays, which goes to 0. -/
abbrev rowSet (a b : Tile) (row n : Nat) (f : Nat → Nat) : Prop :=
  b = { a with elems := b.elems, ckv := false } ∧
  (∀ u v, v < 64 → b.at_ u v = if u = row ∧ v < n then f v % 2 ^ 64 else a.at_ u v)

/-! #### The orthogonal unit -/

/-- R338: from one format to another under RNE. -/
def carried (f g : Fmt) (x : Nat) : Nat × BitVec 5 :=
  if f = g then (x, 0) else (((f.decode x).exact.round g Rm.rne false).bits, ((f.decode x).exact.round g Rm.rne false).fl)

/-- R338: element i of a vector in the accumulator's format; at and above the group's count +0. -/
def lineIn (e : VEnv) (o : Orth) (a : Reg) (i : Nat) : Nat × BitVec 5 :=
  if i < maxLength e.t.lgw e.c.vtype then carried e.fmt o.fmt (source e false a i) else (0, 0)

/-- R338: values written to elements of a vector in its format, those at and above the group's count dropped. -/
def lineOut (e : VEnv) (o : Orth) (d : Reg) (is : List Nat) (f : Nat → Nat) : List EWrite :=
  (is.filter (fun i => decide (i < maxLength e.t.lgw e.c.vtype))).map (fun i =>
    e.t.elemWrite d.toNat (8 * 2 ^ (e.c.vtype.toNat % 8)) i (carried o.fmt e.fmt (f i)).1)

/-- R343, R344: elements of a vector that another takes over unchanged. -/
def lineSame (e : VEnv) (d a : Reg) (is : List Nat) : List EWrite :=
  (is.filter (fun i => decide (i < maxLength e.t.lgw e.c.vtype))).map (fun i =>
    e.t.elemWrite d.toNat (8 * 2 ^ (e.c.vtype.toNat % 8)) i (source e false a i))

/-- R339: p := fma(±x, y, p). -/
def fused (f : Fmt) (neg : Bool) (x y : Nat) (p : Nat × BitVec 5) : Nat × BitVec 5 :=
  ((ffmaN f Rm.rne neg false x y p.1).1, p.2 ||| (ffmaN f Rm.rne neg false x y p.1).2)

/-- R339: a node of the tree of a dot product over an index set; an absent partial is skipped. -/
def dotNode (f : Fmt) (x y : Nat → Nat) (is : List Nat) : Nat → Nat → Option (Nat × BitVec 5)
  | 0, j => if is.filter (fun i => i % 16 == j) = [] then none
    else some ((is.filter (fun i => i % 16 == j)).foldl (fun p r => fused f false (x r) (y r) p) (0, 0))
  | n + 1, j =>
    match dotNode f x y is n (2 * j), dotNode f x y is n (2 * j + 1) with
    | none, b => b
    | a, none => a
    | some a, some b => some ((faddN f Rm.rne a.1 b.1).1, a.2 ||| b.2 ||| (faddN f Rm.rne a.1 b.1).2)

/-- R339: dot(x, y); an empty set gives +0. -/
def dotOf (f : Fmt) (x y : Nat → Nat) (is : List Nat) : Nat × BitVec 5 := (dotNode f x y is 4 0).getD (0, 0)

/-- R341, R345: w[i], the dot product of V's column i with a line. -/
def onColumn (o : Orth) (x : Nat → Nat) (i : Nat) : Nat × BitVec 5 := dotOf o.fmt (o.vAt i) x (List.range o.n.toNat)

/-- R339: Fwd(w)[i], or Tra(w)[i]. -/
def triangular (o : Orth) (tra : Bool) (w : Nat → Nat) (i : Nat) : Nat × BitVec 5 :=
  ((List.range o.k.toNat).filter (fun l => if tra then decide (l ≤ i) else decide (i ≤ l))).foldl
    (fun p l => fused o.fmt false (if tra then o.tAt l i else o.tAt i l) (w l) p) (0, 0)

/-- R345: y[i] of a line. -/
def turned (o : Orth) (tra : Bool) (x : Nat → Nat) : Nat → Nat × BitVec 5 := triangular o tra (fun l => (onColumn o x l).1)

/-- R345: element r of a transformed line. -/
def transformed (o : Orth) (tra : Bool) (x : Nat → Nat) (r : Nat) : Nat × BitVec 5 :=
  (List.range o.k.toNat).foldl (fun p i => fused o.fmt true (o.vAt i r) (turned o tra x i).1 p) (x r, 0)

/-- The flags of a transformed line. -/
def lineFlags (o : Orth) (tra : Bool) (x : Nat → Nat) : BitVec 5 :=
  flagsTo o.k.toNat (onColumn o x) ||| flagsTo o.k.toNat (turned o tra x) ||| flagsTo o.n.toNat (transformed o tra x)

/-- R341: −τ × z[i], column K of the new T above its diagonal. -/
def coupling (o : Orth) (v : Nat → Nat) (tau i : Nat) : Nat × BitVec 5 :=
  fmulN o.fmt Rm.rne (tau ^^^ 2 ^ (o.fmt.width - 1)) (turned o false v i).1

/-- R341: the accumulator with a reflector appended: column K of V and of T, K one more, nothing else. -/
abbrev appended (o : Orth) (v : Nat → Nat) (tau : Nat) (b : Orth) : Prop :=
  b = { o with v := b.v, t := b.t, k := o.k + 1 } ∧
  (o.k.toNat < 32 → o.n.toNat ≤ 512 → swf (fun _ => (0 : Word)) none o.v = true → swf (fun _ => (0 : Word)) none o.t = true →
    (∀ c r, r < 512 → b.vAt c r = if c = o.k.toNat ∧ r < o.n.toNat then v r % 2 ^ 64 else o.vAt c r) ∧
    (∀ i j, j < 32 → b.tAt i j = if j = o.k.toNat ∧ i < j then (coupling o v tau i).1 % 2 ^ 64
      else if i = o.k.toNat ∧ j = i then tau % 2 ^ 64 else o.tAt i j))

/-- The flags of an append. -/
def appendFlags (o : Orth) (v : Nat → Nat) (tau : Nat) : BitVec 5 :=
  flagsTo o.k.toNat (onColumn o v) ||| flagsTo o.k.toNat (turned o false v) ||| flagsTo o.k.toNat (coupling o v tau)

/-- The last step of an instruction: nothing is stored or read. -/
abbrev lastStep (z : OStep) : Prop := z.last = true ∧ z.stores = [] ∧ z.part = .none

/-- R342: V's first K columns and T's first K rows and columns, in the order of a log record. -/
def bodyOf (o : Orth) : List Nat :=
  let k := o.k.toNat
  ((List.range k).map (fun c => (List.range o.n.toNat).map (o.vAt c))).flatten ++
  ((List.range k).map (fun i => (List.range k).map (o.tAt i))).flatten

/-- Words stored one after another from an address up. -/
def storesAt (step : Nat) (base : Word) (ws : List Nat) : List (Nat × Word × Nat) :=
  (List.range ws.length).map (fun j => (65536 * step + j, base + BitVec.ofNat 64 (8 * j), ws.getD j 0))

/-- R342 step 1: the block is written as log record LCOUNT, and LCOUNT goes up. -/
abbrev recorded (r : OEnv) (o : Orth) (z : OStep) : Prop :=
  z.orth = { o with lcount := o.lcount + 1 } ∧ z.pin = o.lpin ∧ z.bytes = 8 ∧ z.part = .log ∧ z.last = false ∧
  z.writes = [] ∧ z.fl = 0 ∧ z.gs = 0 ∧
  z.stores = storesAt r.step
    (o.lva.setWidth 64 + BitVec.ofNat 64 (o.lcount.toNat * (64 + 8 * o.cap.toNat * (o.n.toNat + o.cap.toNat))))
    ([o.n.toNat + 2 ^ 16 * o.k.toNat + (if o.fp64 then 2 ^ 24 else 0), o.lcount.toNat, 0, 0, 0, 0, 0, 0] ++ bodyOf o)

/-- R344, R345: a line of N elements from `base` up is read through pin k, transformed and stored whole; one that cannot be read
stops the step. -/
abbrev lineMoves (r : OEnv) (o : Orth) (i : Instr) (k : BitVec 3) (base : Word) (tra last : Bool) : Prop :=
  let n := if o.fp64 then 8 else 4
  let vas := (List.range o.n.toNat).map (fun j => base + BitVec.ofNat 64 (j * n))
  (∀ x, vReads r.s r.t r.view k n vas = .error x → Machine.orthStep r o i = .error x) ∧
  (∀ xs, vReads r.s r.t r.view k n vas = .ok xs → ∃ z, Machine.orthStep r o i = .ok z ∧ z.orth = o ∧ z.pin = k ∧
    z.bytes = n ∧ z.part = .line ∧ z.last = last ∧ z.writes = [] ∧ z.gs = 0 ∧
    z.fl = lineFlags o tra (fun j => xs.getD j 0) ∧
    z.stores = (List.range o.n.toNat).map (fun j => (65536 * r.step + j, base + BitVec.ofNat 64 (j * n),
      (transformed o tra (fun j => xs.getD j 0) j).1)))

/-- R340: lines of the bound target; BSIDE 3, BPIN 0 or BCOLS 0 means none. -/
def targetCount (o : Orth) : Nat := if o.bside = 3 ∨ o.bpin = 0 then 0 else o.bcols.toNat

/-- R342 step 2, R345: the next line of the target is transformed. -/
abbrev targetMoves (r : OEnv) (o : Orth) (i : Instr) : Prop :=
  lineMoves r o i o.bpin (o.bva.setWidth 64 + BitVec.ofNat 64 r.step * o.bstride.signExtend 64) (o.bside != 0) false

/-- R341, R342: an append below CAP, or its traps, or the steps of a retirement in their order. -/
abbrev capacity (r : OEnv) (q : BitVec 1) (o : Orth) (i : Instr) (formed : Orth → OStep → Prop) : Prop :=
  (r.logged = false →
    (o.k ≠ o.cap → ∃ z, Machine.orthStep r o i = .ok z ∧ formed o z ∧ z.gs = 0) ∧
    (o.k = o.cap → o.pol = 0 → Machine.orthStep r o i = .error (.trap cOQCAP 0 q.toNat)) ∧
    (o.k = o.cap → o.pol ≠ 0 → o.lcount = o.lmax → Machine.orthStep r o i = .error (.trap cOQCAP 0 (q.toNat + 2))) ∧
    (o.k = o.cap → o.pol ≠ 0 → o.lcount ≠ o.lmax → ∃ z, Machine.orthStep r o i = .ok z ∧ recorded r o z)) ∧
  (r.logged = true →
    (r.step < targetCount o → targetMoves r o i) ∧
    (targetCount o ≤ r.step → ∃ z, Machine.orthStep r o i = .ok z ∧ formed { o with k := 0, v := [], t := [] } z ∧ z.gs = 8))

/-- R146, R343: −copysign(x, α) of a number; a NaN stays as it was produced. -/
def oppositeSign (f : Fmt) (x alpha : Nat) : Nat :=
  if (f.decode x).isNan then x else x % 2 ^ (f.width - 1) +
    (if alpha.testBit (f.width - 1) = true ∧ alpha % 2 ^ (f.width - 1) ≠ 0 then 0 else 2 ^ (f.width - 1))

/-- R343: the last step of an `oqhh` with a pivot below N. -/
abbrev householder (e : VEnv) (d a : Reg) (p : Nat) (o : Orth) (z : OStep) : Prop :=
  let f := o.fmt
  let n := o.n.toNat
  let x (i : Nat) : Nat := (lineIn e o a i).1
  let one := ((2 ^ (f.ebits - 1) - 1) * 2 ^ f.fbits)
  let s := dotOf f x x ((List.range n).filter (fun i => decide (p < i)))
  lastStep z ∧
  (s.1 % 2 ^ (f.width - 1) = 0 →
    let v (i : Nat) : Nat := if i < p then 0 else if i = p then one else x i
    appended o v 0 z.orth ∧ z.writes = lineSame e d a (List.range n) ∧
    z.fl = flagsTo n (lineIn e o a) ||| s.2 ||| appendFlags o v 0) ∧
  (s.1 % 2 ^ (f.width - 1) ≠ 0 →
    let sq := ffmaN f Rm.rne false false (x p) (x p) s.1
    let root := fsqrtN f Rm.rne sq.1
    let beta := oppositeSign f root.1 (x p)
    let top := fsubN f Rm.rne beta (x p)
    let tau := fdivN f Rm.rne top.1 beta
    let c := fsubN f Rm.rne (x p) beta
    let v (i : Nat) : Nat × BitVec 5 := if i < p then (0, 0) else if i = p then (one, 0) else fdivN f Rm.rne (x i) c.1
    let out (i : Nat) : Nat := if i = p then beta else (v i).1
    appended o (fun i => (v i).1) tau.1 z.orth ∧
    z.writes = lineSame e d a (List.range p) ++ lineOut e o d ((List.range n).drop p) out ∧
    z.fl = flagsTo n (lineIn e o a) ||| s.2 ||| sq.2 ||| root.2 ||| top.2 ||| tau.2 ||| c.2 ||| flagsTo n v |||
      appendFlags o (fun i => (v i).1) tau.1 ||| flagsTo (n - p) (fun j => carried f e.fmt (out (p + j))))

/-- R207, R347: the words of an image. -/
def imageWordsOf (o : Orth) : List Nat :=
  [o.n.toNat + (if o.fp64 then 2 ^ 16 else 0) + 2 ^ 24 * o.k.toNat + 2 ^ 32 * o.cap.toNat + 2 ^ 40 * o.pol.toNat,
    o.bva.toNat, o.bstride.toNat + 2 ^ 32 * o.bcols.toNat + 2 ^ 48 * o.bpin.toNat + 2 ^ 56 * o.bside.toNat, o.lva.toNat,
    o.lpin.toNat + 2 ^ 16 * o.lcount.toNat + 2 ^ 32 * o.lmax.toNat, 0, 0, 0] ++ bodyOf o

/-- R207, R347: the fields that an image gives, from its words. -/
abbrev headOf (w : Nat → Nat) (b : Orth) : Prop :=
  b.n.toNat = w 0 % 2 ^ 10 ∧ b.fp64 = (w 0).testBit 16 ∧ b.k.toNat = w 0 / 2 ^ 24 % 2 ^ 6 ∧
  b.cap.toNat = w 0 / 2 ^ 32 % 2 ^ 6 ∧ b.pol.toNat = w 0 / 2 ^ 40 % 2 ^ 2 ∧ b.bva.toNat = w 1 % 2 ^ 55 ∧
  b.bstride.toNat = w 2 % 2 ^ 32 ∧ b.bcols.toNat = w 2 / 2 ^ 32 % 2 ^ 16 ∧ b.bpin.toNat = w 2 / 2 ^ 48 % 2 ^ 3 ∧
  b.bside.toNat = w 2 / 2 ^ 56 % 2 ^ 2 ∧ b.lva.toNat = w 3 % 2 ^ 55 ∧ b.lpin.toNat = w 4 % 2 ^ 3 ∧
  b.lcount.toNat = w 4 / 2 ^ 16 % 2 ^ 16 ∧ b.lmax.toNat = w 4 / 2 ^ 32 % 2 ^ 16

/-- R347: an image that `oqrest` refuses. -/
abbrev imageBad (w : Nat → Nat) : Prop :=
  let n := w 0 % 2 ^ 10
  let k := w 0 / 2 ^ 24 % 2 ^ 6
  let cap := w 0 / 2 ^ 32 % 2 ^ 6
  n = 0 ∨ 512 < n ∨ cap = 0 ∨ 32 < cap ∨ cap < k ∨ 1 < w 0 / 2 ^ 40 % 2 ^ 2 ∨ w 4 / 2 ^ 32 % 2 ^ 16 < w 4 / 2 ^ 16 % 2 ^ 16

end Sys2Proof.Claims

open Sys2Proof Sys2Proof.Machine Sys2Proof.Claims

/-- R330 to R336, R155, R157: a row of `tld` holds the valid elements that it read, widened, and TPAD elsewhere; a row of `tst`
stores the elements read out at their addresses; `trow` and `tcol` move a line either way, an index beyond the shape giving
zeros, or nothing, with GATHERX; `tchk` writes the residues and their bits and sets CKV where none is high; a row of `tcon` adds
the contracted products; `tsave` stores the words of its row of the image and `trest` takes them back, without the shape;
`tstat` writes its word. What is not named stays. The elements are held in a canonical form (log entry 9); with which row an
image's last words move, and that a container outside the shape stays zero, is the model's reading (log entry 71). -/
def Obligations.TileResults : Prop :=
  ∀ (acc : BitVec 3) (ra rb rs : Reg) (ms : BitVec 3) (fa fb : BitVec 4) (mk : PReg) (ka kb : BitVec 3) (vl m : Nat),
  rowsOf (.tld acc ra rb rs ms fa ka) vl m acc m (fun _ r a z =>
    let size := if ms = 1 then 8 else fmtBytes fa
    let vr := r.e.c.gb.toNat % 2 ^ 32
    let vc := r.e.c.gb.toNat / 2 ^ 32
    let cols := if r.row < vr then min vc a.n.toNat else 0
    let wide (x : Nat) : Nat × BitVec 5 := if ms = 1 then (x, 0) else widened (fmtOf fa) x
    inside z ∧ z.gs = (if vr = 0 ∨ vc = 0 then 16 else 0) ∧ ∃ xs,
      r.read ka size ((List.range cols).map (fun v =>
        r.e.c.ga + BitVec.ofNat 64 r.row * stride r.e.c.gd + BitVec.ofNat 64 (v * size))) = .ok xs ∧
      z.fl = flagsTo cols (fun v => wide (xs.getD v 0)) ∧
      rowSet a z.tile r.row a.n.toNat (fun v =>
        if v < cols then (wide (xs.getD v 0)).1 else (widened .fp32 r.e.c.tpad.toNat).1)) ∧
  rowsOf (.tst acc ra rs ms fa ka) vl m acc m (fun f r a z =>
    let size := if ms.getLsbD 0 then 8 else fmtBytes fa
    let at_ (v : Nat) : Word :=
      if ms.getLsbD 1 then r.e.c.ga + BitVec.ofNat 64 v * stride r.e.c.gd + BitVec.ofNat 64 (r.row * size)
      else r.e.c.ga + BitVec.ofNat 64 r.row * stride r.e.c.gd + BitVec.ofNat 64 (v * size)
    let out (v : Nat) : (Nat × BitVec 5) × BitVec 5 :=
      if ms.getLsbD 0 then ((a.at_ r.row v, 0), 0) else readTo r.e (fmtOf fa) (64 * r.row + v) (a.at_ r.row v)
    f.pin = ka ∧ f.bytes = size ∧ z.tile = a ∧ z.writes = [] ∧
      z.stores = (List.range a.n.toNat).map (fun v => (64 * r.row + v, at_ v, (out v).1.1)) ∧
      z.fl = flagsTo a.n.toNat (fun v => (out v).1) ∧ z.gs = flagsTo a.n.toNat out) ∧
  (∀ (col : Bool), rowsOf (if col then .tcol acc ra rb ms else .trow acc ra rb ms) vl m acc 1 (fun _ r a z =>
    let x := r.e.c.gb.toNat
    let len := if col then a.m.toNat else a.n.toNat
    let there : Prop := x < if col then a.n.toNat else a.m.toNat
    let w := 8 * 2 ^ (r.e.c.vtype.toNat % 8)
    let cell (t : Tile) (j : Nat) : Nat := if col then t.at_ j x else t.at_ x j
    let read (j : Nat) : (Nat × BitVec 5) × BitVec 5 :=
      if ms.getLsbD 1 then ((cell a j, 0), 0) else readTo r.e r.e.fmt j (cell a j)
    let wide (j : Nat) : Nat × BitVec 5 :=
      if ms.getLsbD 1 then (source r.e false ra j, 0) else widened r.e.fmt (source r.e false ra j)
    z.stores = [] ∧
    (¬ there → z.tile = a ∧ z.fl = 0 ∧ z.gs = 1 ∧ z.writes = if ms.getLsbD 0 then []
      else (List.range len).map (fun j => r.e.t.elemWrite ra.toNat w j 0)) ∧
    (there → ms.getLsbD 0 = false → z.tile = a ∧ z.fl = flagsTo len (fun j => (read j).1) ∧ z.gs = flagsTo len read ∧
      z.writes = (List.range len).map (fun j => r.e.t.elemWrite ra.toNat w j (read j).1.1)) ∧
    (there → ms.getLsbD 0 = true → z.writes = [] ∧ z.gs = 0 ∧ z.fl = flagsTo len wide ∧
      z.tile = { a with elems := z.tile.elems, ckv := false } ∧
      ∀ u v, u < 64 → v < 64 → z.tile.at_ u v =
        if (if col then v else u) = x ∧ (if col then u else v) < len then (wide (if col then u else v)).1 % 2 ^ 64
        else a.at_ u v))) ∧
  rowsOf (.tchk acc ra rb mk) vl m acc 1 (fun _ r a z =>
    let tol := r.e.c.gb.toNat % 2 ^ 32
    z.stores = [] ∧ z.fl = 0 ∧ z.gs = 0 ∧
    z.tile = { a with ckv := (List.range 128).all (fun i => !residueHigh tol (residueAt a i)) } ∧
    z.writes = ((List.range 128).map (fun i => [r.e.t.elemWrite ra.toNat 32 i (residueAt a i),
      .p mk.toNat i (residueHigh tol (residueAt a i))])).flatten) ∧
  rowsOf (.tcon acc ra rb ms fa fb ka kb) vl m acc 64 (fun _ r a z =>
    let size := fmtBytes fa
    let h := r.row / 8
    let o := r.row % 8
    let place (l : Nat) : Nat := if ms = 0 then 64 * l + 8 * h + o else if ms = 1 then 64 * h + 8 * l + o else 64 * h + 8 * o + l
    inside z ∧ z.gs = 0 ∧ z.fl &&& 11 = 0 ∧ ∃ ds us,
      r.read kb size ((List.range 64).map (fun j => r.e.c.gb + BitVec.ofNat 64 (j * size))) = .ok ds ∧
      r.read ka size ((List.range 8).map (fun l => r.e.c.ga + BitVec.ofNat 64 (place l * size))) = .ok us ∧
      rowSet a z.tile r.row 8 (fun v => accumulated (a.at_ r.row v) ((List.range 8).map (fun l =>
        fpMul ((fmtOf fa).decode (ds.getD (8 * v + l) 0)) ((fmtOf fa).decode (us.getD l 0)))))) ∧
  rowsOf (.tsave acc ra ka) vl m acc 64 (fun f r a z =>
    f.image = some .write ∧ f.pin = ka ∧ f.bytes = 8 ∧ z.tile = a ∧ z.writes = [] ∧ z.fl = 0 ∧ z.gs = 0 ∧
    z.stores = (imageOf a r.row).map (fun p => (p.1, r.e.c.ga + BitVec.ofNat 64 (8 * p.1), p.2))) ∧
  rowsOf (.trest acc ra ka) vl m acc 64 (fun f r a z =>
    f.image = some .read ∧ inside z ∧ z.fl = 0 ∧ z.gs = 0 ∧ ∃ xs,
      r.read ka 8 ((imageOf a r.row).map (fun p => r.e.c.ga + BitVec.ofNat 64 (8 * p.1))) = .ok xs ∧
      z.tile = { a with elems := z.tile.elems, ckrow := z.tile.ckrow, ckcol := z.tile.ckcol, ckv := z.tile.ckv } ∧
      (∀ u v, v < 64 → z.tile.at_ u v = if u ≠ r.row then a.at_ u v
        else if u < a.m.toNat ∧ v < a.n.toNat then xs.getD v 0 % 2 ^ 64 else 0) ∧
      (r.row ≠ 63 → z.tile.ckrow = a.ckrow ∧ z.tile.ckcol = a.ckcol ∧ z.tile.ckv = a.ckv) ∧
      (r.row = 63 → z.tile.ckv = (xs.getD 128 0).testBit 24 ∧ ∀ j, j < 64 →
        (sget 0 z.tile.ckrow j).toNat = xs.getD (64 + j / 2) 0 / 2 ^ (32 * (j % 2)) % 2 ^ 32 ∧
        (sget 0 z.tile.ckcol j).toNat = xs.getD (96 + j / 2) 0 / 2 ^ (32 * (j % 2)) % 2 ^ 32)) ∧
  rowsOf (.tstat acc ra) vl m acc 1 (fun _ r a z =>
    let some_ (P : FpVal → Bool) : Prop := ∃ u < 64, ∃ v < 64, P (Fmt.decode .wa (a.at_ u v)) = true
    z.stores = [] ∧ z.tile = a ∧ z.fl = 0 ∧ z.gs = 0 ∧ ∃ w, z.writes = [r.e.t.elemWrite ra.toNat 64 0 w] ∧
      w % 2 ^ 24 = a.m.toNat + 2 ^ 8 * a.n.toNat + 2 ^ 16 * a.rowprog.toNat ∧ w < 2 ^ 28 ∧ w.testBit 24 = a.ckv ∧
      w.testBit 25 = r.t.ctl.suspect.getLsbD acc.toNat ∧ (w.testBit 26 = true ↔ some_ FpVal.isNan) ∧
      (w.testBit 27 = true ↔ some_ (fun v => match v with | .inf _ => true | _ => false)))

/-- R338 to R348, R125, R207: the next step of each orthogonal instruction. `oqacc` and `oqhh` append their reflector below
CAP, trap at CAP under TRAP or with a full log, or retire the block: log record, target lines, emptying with RETIRED,
append; an `oqhh` whose pivot is at or above N raises NV and hands its vector on. A line of `oqapl`, `oqapr` or a target is
read, transformed and stored whole; `oqapv` writes the transformed line. `oqform` retires without an append. `oqsave` stores
its image, and `oqrest` takes one back or refuses it with NV and K = 0; an address at no multiple of 8 takes ACCESS. `oqcnt`
and `oqrd` write their word, column V or column T. V and T are held in a canonical form (log entry 9). -/
def Obligations.OrthogonalResults : Prop :=
  ∀ (r : OEnv) (o : Orth) (q : BitVec 1) (d a b : Reg) (k : BitVec 3) (tr : Bool),
  let n := o.n.toNat
  capacity r q o (.oqacc q a b) (fun o z =>
    let v := lineIn r.e o a
    let tau := carried r.e.fmt o.fmt (source r.e true b 0)
    lastStep z ∧ z.writes = [] ∧ appended o (fun i => (v i).1) tau.1 z.orth ∧
    z.fl = flagsTo n v ||| tau.2 ||| appendFlags o (fun i => (v i).1) tau.1) ∧
  (r.e.c.gb.toNat < n → capacity r q o (.oqhh q d a b) (householder r.e d a r.e.c.gb.toNat)) ∧
  (n ≤ r.e.c.gb.toNat → ∃ z, Machine.orthStep r o (.oqhh q d a b) = .ok z ∧ lastStep z ∧ z.orth = o ∧ z.fl = 16 ∧ z.gs = 0 ∧
    z.writes = lineSame r.e d a (List.range n)) ∧
  (let count := r.e.c.gb.toNat / 2 ^ 32 % 2 ^ 16
   ∀ i tra, i = .oqapl q a b k tr ∧ tra = tr ∨ i = .oqapr q a b k tr ∧ tra = !tr →
    (o.k = 0 ∨ count ≤ r.step → ∃ z, Machine.orthStep r o i = .ok z ∧ lastStep z ∧ z.orth = o ∧ z.fl = 0 ∧ z.gs = 0 ∧
      z.writes = []) ∧
    (o.k ≠ 0 → r.step < count → lineMoves r o i k (r.e.c.ga + BitVec.ofNat 64 r.step * stride r.e.c.gb) tra
      (decide (count ≤ r.step + 1)))) ∧
  (∃ z, Machine.orthStep r o (.oqapv q d a tr) = .ok z ∧ lastStep z ∧ z.orth = o ∧ z.gs = 0 ∧
    (o.k = 0 → z.fl = 0 ∧ z.writes = lineSame r.e d a (List.range n)) ∧
    (o.k ≠ 0 →
      let y := transformed o tr (fun i => (lineIn r.e o a i).1)
      z.writes = lineOut r.e o d (List.range n) (fun i => (y i).1) ∧
      z.fl = flagsTo n (lineIn r.e o a) ||| lineFlags o tr (fun i => (lineIn r.e o a i).1) |||
        flagsTo n (fun i => carried o.fmt r.e.fmt (y i).1))) ∧
  (r.logged = false → o.k = 0 → ∃ z, Machine.orthStep r o (.oqform q) = .ok z ∧ lastStep z ∧ z.orth = o ∧ z.fl = 0 ∧
    z.gs = 0 ∧ z.writes = []) ∧
  (r.logged = false → o.k ≠ 0 → o.lmax ≠ 0 →
    (o.lmax ≤ o.lcount → Machine.orthStep r o (.oqform q) = .error (.trap cOQCAP 0 (q.toNat + 2))) ∧
    (o.lcount < o.lmax → ∃ z, Machine.orthStep r o (.oqform q) = .ok z ∧ recorded r o z)) ∧
  (r.logged = true ∨ o.k ≠ 0 ∧ o.lmax = 0 →
    (r.step < targetCount o → targetMoves r o (.oqform q)) ∧
    (targetCount o ≤ r.step → ∃ z, Machine.orthStep r o (.oqform q) = .ok z ∧ lastStep z ∧ z.writes = [] ∧ z.fl = 0 ∧
      z.gs = 8 ∧ z.orth = { o with k := 0, v := [], t := [] })) ∧
  (r.e.c.ga.toNat % 8 ≠ 0 →
    Machine.orthStep r o (.oqsave q a k) = .error (.trap cACCESS r.e.c.ga.toNat AKind.write.code) ∧
    Machine.orthStep r o (.oqrest q a k) = .error (.trap cACCESS r.e.c.ga.toNat AKind.read.code)) ∧
  (r.e.c.ga.toNat % 8 = 0 → ∃ z, Machine.orthStep r o (.oqsave q a k) = .ok z ∧ z.last = true ∧ z.part = .none ∧ z.orth = o ∧
    z.fl = 0 ∧ z.gs = 0 ∧ z.writes = [] ∧ z.pin = k ∧ z.bytes = 8 ∧ z.stores = storesAt 0 r.e.c.ga (imageWordsOf o)) ∧
  (r.e.c.ga.toNat % 8 = 0 →
    let words (from_ len : Nat) := vReads r.s r.t r.view k 8
      ((List.range len).map (fun i => r.e.c.ga + BitVec.ofNat 64 (8 * (from_ + i))))
    (∀ x, words 0 8 = .error x → Machine.orthStep r o (.oqrest q a k) = .error x) ∧
    (∀ ws, words 0 8 = .ok ws →
      let w (i : Nat) : Nat := ws.getD i 0
      (imageBad w → ∃ z, Machine.orthStep r o (.oqrest q a k) = .ok z ∧ lastStep z ∧ z.writes = [] ∧ z.gs = 0 ∧ z.fl = 16 ∧
        z.orth = { o with k := 0, v := [], t := [] }) ∧
      (¬ imageBad w →
        let kk := w 0 / 2 ^ 24 % 2 ^ 6
        let nn := w 0 % 2 ^ 10
        (∀ x, words 8 (kk * (nn + kk)) = .error x → Machine.orthStep r o (.oqrest q a k) = .error x) ∧
        (∀ xs, words 8 (kk * (nn + kk)) = .ok xs → ∃ z, Machine.orthStep r o (.oqrest q a k) = .ok z ∧ lastStep z ∧
          z.writes = [] ∧ z.gs = 0 ∧ z.fl = 0 ∧ headOf w z.orth ∧
          (∀ c j, j < 512 → z.orth.vAt c j = if c < kk ∧ j < nn then xs.getD (nn * c + j) 0 % 2 ^ 64 else 0) ∧
          (∀ i j, j < 32 → z.orth.tAt i j = if i ≤ j ∧ j < kk then xs.getD (kk * nn + kk * i + j) 0 % 2 ^ 64 else 0))))) ∧
  (∃ z, Machine.orthStep r o (.oqcnt q d) = .ok z ∧ lastStep z ∧ z.orth = o ∧ z.fl = 0 ∧ z.gs = 0 ∧
    z.writes = [r.e.t.elemWrite d.toNat 64 0 (o.k.toNat + 2 ^ 8 * o.cap.toNat + 2 ^ 16 * o.pol.toNat +
      (if o.fp64 then 2 ^ 18 else 0) + 2 ^ 32 * n + 2 ^ 48 * o.lcount.toNat)]) ∧
  (∃ z, Machine.orthStep r o (.oqrd q d b) = .ok z ∧ lastStep z ∧ z.orth = o ∧ z.gs = 0 ∧
    let c := r.e.c.gb.toNat % 64
    let ofT := (r.e.c.gb.toNat).testBit 8
    let x (i : Nat) : Nat := if o.k.toNat ≤ c then 0 else if ofT then o.tAt i c else o.vAt c i
    let len := if ofT then 32 else n
    z.writes = lineOut r.e o d (List.range len) x ∧ z.fl = flagsTo len (fun i => carried o.fmt r.e.fmt (x i)))

namespace Sys2Proof.Claims

/-! ### Engines (R175, R307 to R314), the PSC's commands (R50 to R67) -/

/-- The strand after an engine took n words from a push port: the push retires and the strand can see that words left. -/
def wordsTaken (t : Strand) (e0 e2 : List Word) : Strand :=
  { t with ports := { t.ports with e0 := e0, e2 := e2 }, pause := .none, stalled := false, pc := t.pc + 4, latch := t.latch ||| 8 }

/-- R308, R312: byte i of a command: the pattern of a FILL in turn, the source's byte where row i / RB and byte i mod RB of it
lie within VR and VB, else PAD. -/
def beatByte (s : State) (c : BteCmd) (i : Nat) : Except Stop Byte :=
  if c.op = 3 then .ok (BitVec.ofNat 8 (c.src.toNat / 2 ^ (8 * (i % 8))))
  else if i / c.rb < c.vr ∧ i % c.rb < c.vb then
    match pinAccess s s.cur c.spin .read (c.src + BitVec.ofNat 64 (i / c.rb) * c.sstride + BitVec.ofNat 64 (i % c.rb)) 1 with
    | .ok ks => .ok (memRead s.mem (ks.headD 0))
    | .error x => .error x
  else .ok c.pad

/-- R303, R308, R312: where byte i is written: a scratchpad byte of a row, nowhere for a STREAM, else through DPIN. -/
def beatPlace (s : State) (c : BteCmd) (i : Nat) : Except Stop (List Nat) :=
  if c.row then .ok [c.dst.toNat + i]
  else if c.op = 4 then .ok []
  else pinAccess s s.cur c.dpin .write (c.dst + BitVec.ofNat 64 (i / c.rb) * c.dstride + BitVec.ofNat 64 (i % c.rb)) 1

/-- R310, R312, R126: bytes of a command's next beat: at most 256, and for a STREAM at most the port's room of 64 words. -/
def beatLength (s : State) (c : BteCmd) : Nat :=
  let left := Nat.min 256 (c.nr * c.rb - c.delivered)
  if c.op = 4 then Nat.min left (if s.cur.life = .running then
    512 - ((sget [] s.cur.ports.streams c.port.toNat).filter (fun x => x != .endMark)).length else 0)
  else left

/-- The first m bytes of the beat are these and go to these keys. -/
abbrev beatReads (s : State) (c : BteCmd) (bytes : List Byte) (keys : List (List Nat)) : Prop :=
  bytes.length = keys.length ∧
  ∀ j, j < bytes.length → beatByte s c (c.delivered + j) = .ok (bytes.getD j 0) ∧
    beatPlace s c (c.delivered + j) = .ok (keys.getD j [])

/-- The command after m bytes of a beat: what it has delivered, and whether PAD was written and the source read (R311). -/
def beatMoved (c : BteCmd) (m : Nat) : BteCmd :=
  { c with
    delivered := c.delivered + m
    padded := c.padded || (List.range m).any (fun j => c.op != 3 && !c.inside (c.delivered + j))
    readAny := c.readAny || (List.range m).any (fun j => c.inside (c.delivered + j)) }

/-- The module after the bytes of a beat: written at their homes or at the tail of the stream port, and PENDING of the
command's barrier lower by their number. -/
noncomputable def beatDone (s : State) (c : BteCmd) (bytes : List Byte) (keys : List (List Nat)) : State :=
  let u : State :=
    if c.op = 4 then
      if bytes = [] then s
      else
        let items := sget [] s.cur.ports.streams c.port.toNat ++ bytes.map StreamItem.byte
        let ports := { s.cur.ports with streams := sset [] s.cur.ports.streams c.port.toNat items }
        { s with cur := { s.cur with ports := ports, latch := s.cur.latch ||| 4 } }
    else s.homeWrite keys.flatten bytes
  let v : State := { u with bte := u.bte.map (fun x => if x.id = c.id then beatMoved c bytes.length else x) }
  if c.bar.getLsbD 15 = true ∧ bytes ≠ [] then v.deliver (c.bar.getLsbD 12) (c.bar.toNat % 4096) bytes.length else v

/-- A command of the current strand that has the beat: a row, or the next in turn of the eight that its cluster runs, those that
wait left out (R310). -/
abbrev Beats (s : State) (c : BteCmd) : Prop :=
  s.cur.exists_ = true ∧ c.key = s.cur.key ∧ s.bte.find? (fun x => x.id == c.id) = some c ∧ s.runsNow c = true

/-- R310: the cluster's turn passes behind a command that is served; one that finds its next byte held, or no room in its stream
port, leaves the turn. -/
noncomputable def turnPassed (s : State) (c : BteCmd) : State :=
  if c.row = true ∨ s.beatWaits c = true then s else { s with bteTurn := sset 0 s.bteTurn c.cluster (c.id + 1) }

/-- R25, R314: a rank's record of its own command: its arrival for a BARRIER, else its announcement. -/
def collRecord (c : CollCmd) : CtlRec :=
  { comm := c.comm, k := c.k, rank := c.rank, kind := if c.op = 4 then 3 else 1, op := c.op, opr := c.opr
    type := c.type.setWidth 8, status := 0, count := c.count }

/-- R25: the record that tells a rank's status. -/
def statusRecord (c : CollCmd) (st : Nat) : CtlRec := { c.ctl 2 st with kind := 2, status := BitVec.ofNat 8 st }

/-- R25, R309, R314: a command that a check turns down: alone in its communicator it completes at once, else its status goes
to the other ranks and it waits for theirs. -/
abbrev TurnsDown (s v : State) (c : CollCmd) (n st : Nat) (reason : BitVec 8) : Prop :=
  Machine.exec (.collectiveCommandTake s.cur.key) s = .next (v.turnDown c st reason.toNat) ∧
  (s.collEarly = [] → (∀ x ∈ s.colls, x.same c.die c.comm c.k = false) →
    (n = 1 → Machine.exec (.collectiveCommandTake s.cur.key) s = .next (v.endColl c st reason.toNat)) ∧
    (2 ≤ n →
      let t : CollCmd := { c with
        stage := 4, status := BitVec.ofNat 8 st, reason := reason, ended := [(c.rank, BitVec.ofNat 8 st)] }
      let z := State.sendRanks { v with colls := s.colls ++ [t] } c.die c.comm c.rank 4 [ctlBytes (statusRecord c st)]
      z.2 = true → Machine.exec (.collectiveCommandTake s.cur.key) s = .next z.1))

/-- R51, R53: the record, the FLAGS it may set, whether it is device-wide, and how many argument words it uses, of each
command that has R53's common checks. -/
def pscRow : Instr → Option (CmdRec × Nat × Bool × Nat)
  | .identify r => some (r, 0, true, 1)
  | .attest r => some (r, 0, true, 3)
  | .loadImage r => some (r, 0, false, 2)
  | .startFarm r => some (r, 1, false, 3)
  | .startFarmDirect r => some (r, 1, false, 3)
  | .startFarmResume r => some (r, 1, false, 3)
  | .stopFarm r => some (r, 0, false, 1)
  | .preempt r => some (r, 0, false, 2)
  | .queryFarm r => some (r, 0, false, 1)
  | .partitionDestroy r => some (r, 0, false, 0)
  | .setSlots r => some (r, 0, false, 5)
  | .setPageBase r => some (r, 0, false, 1)
  | .pinRevoke r => some (r, 0, false, 2)
  | .castleStack r => some (r, 0, false, 1)
  | .readErrors r => some (r, 0, true, 3)
  | .scrubQuery r => some (r, 0, true, 3)
  | .scrubFullPass r => some (r, 0, true, 3)
  | .scrubRange r => some (r, 0, true, 3)
  | .linkConfig r => some (r, 0, true, 2)
  | .dcdAccept r => some (r, 0, true, 3)
  | .dcdRelease r => some (r, 0, true, 2)
  | .dcdReleaseForced r => some (r, 0, true, 2)
  | .powerCap r => some (r, 0, true, 1)
  | .fwPatch r => some (r, 0, true, 2)
  | .resetWarm r => some (r, 0, true, 0)
  | _ => none

/-- The argument words of a record. -/
def words (r : CmdRec) : List Word := [r.arg0, r.arg1, r.arg2, r.arg3, r.arg4, r.arg5, r.arg6]

/-- R50, R53: the PSC may carry the command out: READY, header good, unused words zero, the partition exists. -/
abbrev Accepts (s : State) (i : Instr) : Prop :=
  ∃ r flags device n, pscRow i = some (r, flags, device, n) ∧ s.mode = .ready ∧ r.rsvd = 0 ∧ r.flags.toNat ≤ flags ∧
    (device = true → r.part = 0) ∧ (∀ w ∈ (words r).drop n, w = 0) ∧ (s.part? r.part.toNat).isSome = true

/-- A range of bytes that lies wholly in HBM or wholly in the second tier (R161). -/
abbrev goodBytes (lo len : Nat) : Prop := lo + len ≤ 0x8000000000 ∨ (0x10000000000 ≤ lo ∧ lo + len ≤ 0x20000000000)

/-- The answer to a command. -/
def answered (s : State) (r : CmdRec) (status r0 r1 r2 : Nat) : Host.Outcome State Fault Refusal :=
  .next (s.respond r status r0 r1 r2)

end Sys2Proof.Claims

open Sys2Proof Sys2Proof.Machine Sys2Proof.Claims

/-- R303, R307 to R314, R25, R36, R126: BTE_COMMAND_TAKE takes a whole command from e0: one that fails its checks completes
BADCMD or RANGE, one whose bytes overflow the barrier OVERFLOW, any other runs with its bytes announced.
COLLECTIVE_COMMAND_TAKE takes four words from e2: a bad count completes BADCOUNT at once; a command that fails another check
has the status BADCMD, RANGE or OVERFLOW, which the other ranks are told, and completes once they have told theirs; a good
one announces its bytes and itself and joins the engine. BTE_BEAT of no command, or out of its cluster's turn, has no
effect; a beat of COPY, COPY2D, FILL, STREAM or of a row moves the next bytes of its command, each read at its home, taken
from the pattern or PAD, to its place, and PENDING falls by their number; with its last byte the command completes OK. A
byte that cannot be delivered ends the beat before it: the command stops STOPPED with its cause, or goes on later where the
die is handing the stack over. A FILL of eight bytes writes its pattern there and nowhere else. That the source is checked
before the destination is read as log entry 38 says; that a BADCOUNT command is announced, that RANGE and OVERFLOW are told,
and which rank's status counts, is the model's choice (log entry 20). -/
def Obligations.EngineCommands : Prop :=
  ((∀ (s : State) (c : BteCmd) (bytes : List Byte) (keys : List (List Nat)), Beats s c → bytes.length = beatLength s c →
    beatReads s c bytes keys →
    let u := beatDone (turnPassed s c) c bytes keys
    let c' := beatMoved c bytes.length
    (c'.delivered < c.nr * c.rb → exec (.bteBeat c.id) s = .next u) ∧
    (c.nr * c.rb ≤ c'.delivered → exec (.bteBeat c.id) s = .next
      ((if c.op = 4 ∧ c.endMark = true then u.putMark c' else u).endBte c' 0 0))) ∧
  (∀ (s : State) (c : BteCmd) (bytes : List Byte) (keys : List (List Nat)) (x : Stop), Beats s c →
    bytes.length < beatLength s c → beatReads s c bytes keys →
    (beatByte s c (c.delivered + bytes.length) = .error x ∨
      ((∃ b, beatByte s c (c.delivered + bytes.length) = .ok b) ∧ beatPlace s c (c.delivered + bytes.length) = .error x)) →
    (x = .hold → exec (.bteBeat c.id) s = .next (beatDone (turnPassed s c) c bytes keys)) ∧
    (∀ cause va info, x = .trap cause va info →
      let u := beatDone (turnPassed s c) c bytes keys
      let c' := beatMoved c bytes.length
      let v := if c.bar.getLsbD 15 then u.faultBar (c.bar.getLsbD 12) (c.bar.toNat % 4096) else u
      exec (.bteBeat c.id) s = .next ((if c.op = 4 then v.putMark c' else v).endBte c' 1 cause.toNat))) ∧
  (∀ (s : State) (c : BteCmd), s.bte.find? (fun x => x.id == c.id) = some c → s.runsNow c = false →
    exec (.bteBeat c.id) s = .next s)) ∧
  ((∀ (s : State), s.cur.exists_ = true → s.cur.life = .running → portFull 0 s.cur.ports.e0 = true →
    let n := bteWords (s.cur.ports.e0.headD 0)
    let w := s.cur.ports.e0.take n
    let c := bteCmdOf s.cur s.nextBte w
    let u : State := { s with cur := wordsTaken s.cur (s.cur.ports.e0.drop n) s.cur.ports.e2, nextBte := s.nextBte + 1 }
    (bteGood s.cur w c = false → exec (.bteCommandTake s.cur.key) s = .next (u.endBte c 2 0)) ∧
    (∀ cause, bteGood s.cur w c = true → bteRange s.cur c = some cause →
      exec (.bteCommandTake s.cur.key) s = .next (u.endBte c 4 cause.toNat)) ∧
    (bteGood s.cur w c = true → bteRange s.cur c = none → c.bar.getLsbD 15 = false →
      exec (.bteCommandTake s.cur.key) s = .next { u with bte := s.bte ++ [c] }) ∧
    (∀ b, bteGood s.cur w c = true → bteRange s.cur c = none → c.bar.getLsbD 15 = true →
      s.bar ((if c.bar.getLsbD 12 then 4096 else 0) + c.bar.toNat % 4096) = b →
      (b.pending.toNat + c.nr * c.rb < 2 ^ 40 →
        let b' : Barrier := { b with pending := BitVec.ofNat 40 (b.pending.toNat + c.nr * c.rb) }
        exec (.bteCommandTake s.cur.key) s = .next
          { u.setBar ((if c.bar.getLsbD 12 then 4096 else 0) + c.bar.toNat % 4096) b' with bte := s.bte ++ [c] }) ∧
      (2 ^ 40 ≤ b.pending.toNat + c.nr * c.rb → exec (.bteCommandTake s.cur.key) s = .next (u.endBte c 3 0)))) ∧
  (∀ (s : State) (id : Nat), (∀ c ∈ s.bte, c.id ≠ id) → exec (.bteBeat id) s = .next s) ∧
  (∀ (s : State), s.cur.exists_ = true → s.cur.life = .running → 4 ≤ s.cur.ports.e2.length →
    let w := s.cur.ports.e2.take 4
    let comm : BitVec 16 := BitVec.ofNat 16 ((w.headD 0).toNat / 2 ^ 48)
    let place := (if s.cur.die then 65536 else 0) + comm.toNat
    let k := sget 0 s.collCount place
    let u : State := { s with cur := wordsTaken s.cur s.cur.ports.e0 (s.cur.ports.e2.drop 4), nextBte := s.nextBte + 1 }
    (s.ownRank s.cur.die comm = none → exec (.collectiveCommandTake s.cur.key) s = .next
      (u.endColl (collCmdOf s.cur s.nextBte 0 k w) 2 0)) ∧
    (∀ rank, s.ownRank s.cur.die comm = some rank →
      let c := collCmdOf s.cur s.nextBte rank k w
      let n := (s.commOf s.cur.die comm).length
      let v : State := { u with collCount := sset 0 s.collCount place (k + 1) }
      let uneven : Prop := (c.op = 2 ∨ c.op = 3) ∧ c.count.toNat % n ≠ 0
      (collGood s.cur w c = false → TurnsDown s v c n 2 0) ∧
      (collGood s.cur w c = true → uneven → s.collEarly = [] → (∀ x ∈ s.colls, x.same c.die c.comm c.k = false) →
        exec (.collectiveCommandTake s.cur.key) s = .next
          ((v.sendRanks c.die c.comm c.rank 4 [ctlBytes (collRecord c), ctlBytes (statusRecord c 5)]).1.endColl c 5 0)) ∧
      (∀ cause, collGood s.cur w c = true → ¬ uneven → c.op ≠ 4 → collRange s.cur n c = some cause →
        TurnsDown s v c n 4 cause) ∧
      (collGood s.cur w c = true → ¬ uneven → c.op ≠ 4 → collRange s.cur n c = none → c.bar.getLsbD 15 = true →
        (announceFits s c.bar (c.announced n) →
          exec (.collectiveCommandTake s.cur.key) s = .next ((announcing v c.bar (c.announced n)).joinColl c)) ∧
        (¬ announceFits s c.bar (c.announced n) → TurnsDown s v c n 3 0)) ∧
      (collGood s.cur w c = true → ¬ uneven → (c.op = 4 ∨ (collRange s.cur n c = none ∧ c.bar.getLsbD 15 = false)) →
        exec (.collectiveCommandTake s.cur.key) s = .next (v.joinColl c) ∧
        (2 ≤ n → s.collEarly = [] → (∀ x ∈ s.colls, x.same c.die c.comm c.k = false) →
          let z := State.sendRanks { v with colls := s.colls ++ [{ c with seen := [collRecord c] }] } c.die c.comm c.rank 4
            [ctlBytes (collRecord c)]
          z.2 = true → exec (.collectiveCommandTake s.cur.key) s = .next z.1) ∧
        (n = 1 → rank = 0 → s.collEarly = [] → c.op = 4 → (∀ x ∈ s.colls, x.same c.die c.comm c.k = false) →
          let y : State := { v with colls := s.colls ++ [{ c with seen := [collRecord c] }] }
          let z : State := if c.bar.getLsbD 15 then (y.arrive (c.bar.getLsbD 12) (c.bar.toNat % 4096)).1 else y
          exec (.collectiveCommandTake s.cur.key) s = .next (z.endColl c 0 0))))) ∧
  (∀ s : State, s.cur.exists_ = true → s.cur.ports.e2.length < 4 → (∀ c ∈ s.colls, c.key ≠ s.cur.key) →
    exec (.collectiveCommandTake s.cur.key) s = .next s)) ∧
  (∀ (s : State) (c : BteCmd) (keys : List Nat), MemOk s → s.bte = [c] → s.cur.exists_ = true → c.key = s.cur.key → c.row = false →
    c.op = 3 → c.nr = 1 → c.bar.getLsbD 15 = false → c.delivered = 0 → c.rb = 8 → c.dstride = 0 → keys.Nodup →
    keys.length = 8 →
    (∀ n, n < 8 → pinAccess s s.cur c.dpin .write (c.dst + BitVec.ofNat 64 n) 1 = .ok [keys.getD n 0]) →
    ∃ t, exec (.bteBeat c.id) s = .next t ∧ memReadList t.mem keys = leBytes 8 c.src.toNat ∧
      (∀ k, k ∉ keys → memRead t.mem k = memRead s.mem k) ∧ t.bte = [])

/-- R50, R53, R64, R66, R67, R19, R21, R52: the PSC turns a command down with FAILED in FAILED and TRIPPED, with BADARG when
a reserved field, FLAGS bit or unused word is set or a device-wide command names a partition, with BADPART for a partition
that does not exist; outside READY, FAILED and TRIPPED it carries none out. What IDENTIFY, ATTEST, POWER_CAP, FW_PATCH,
READ_ERRORS and SCRUB do and answer when they are accepted; a full pass or a range leaves every beat that it covers to the
scrub of its pseudo-channel. The order of checks and the scrub state are read as log entries 29 and 44 say; that a pass
replaces one in progress, as log entry 57 says; that a query and a full pass take any ARG1 and ARG2, and the order of the
report's images, as log entry 53 says. -/
def Obligations.DeviceCommands : Prop :=
  ((∀ (i : Instr) (r : CmdRec) (flags n : Nat) (device : Bool) (s : State), pscRow i = some (r, flags, device, n) →
    (s.mode = .failed ∨ s.mode = .tripped → exec i s = answered s r 12 0 0 0) ∧
    (s.mode = .ready → (r.rsvd ≠ 0 ∨ flags < r.flags.toNat ∨ (device = true ∧ r.part ≠ 0) ∨ ∃ w ∈ (words r).drop n, w ≠ 0) →
      exec i s = answered s r 2 0 0 0) ∧
    (s.mode = .off ∨ s.mode = .coldStart ∨ s.mode = .warmStart → exec i s = .next s)) ∧
  (∀ (r : CmdRec) (s : State), s.mode = .ready → r.rsvd = 0 → r.flags = 0 → s.part? r.part.toNat = none →
    (∀ w ∈ words r, w = 0) →
    exec (.stopFarm r) s = answered s r 3 0 0 0 ∧ exec (.queryFarm r) s = answered s r 3 0 0 0 ∧
    exec (.preempt r) s = answered s r 3 0 0 0 ∧ exec (.partitionDestroy r) s = answered s r 3 0 0 0 ∧
    exec (.pinRevoke r) s = answered s r 3 0 0 0 ∧ exec (.castleStack r) s = answered s r 3 0 0 0)) ∧
  (∀ (s : State) (r : CmdRec),
    (Accepts s (.identify r) → r.arg0 = 0 → exec (.identify r) s = answered s r 0
      (0x0F28 + 65536 * Config.stepping.toNat) Config.serial.toNat
      (((List.range 256).filter (fun i => s.coresOn.getLsbD i)).length + 65536 * s.enrolled + 2 ^ 20 * s.slotsRevoked.toNat)) ∧
    (Accepts s (.identify r) → r.arg0 ≠ 0 → goodBytes r.arg0.toNat Config.certificate.length → ∃ u : State,
      u = s.homeWrite (keysFrom r.arg0.toNat Config.certificate.length) Config.certificate ∧
      exec (.identify r) s = answered u r 0 (0x0F28 + 65536 * Config.stepping.toNat) Config.serial.toNat
      (((List.range 256).filter (fun i => s.coresOn.getLsbD i)).length + 65536 * s.enrolled + 2 ^ 20 * s.slotsRevoked.toNat)) ∧
    (Accepts s (.attest r) → r.arg0.toNat % 64 = 0 →
      let out := s.report r ++ signature (s.report r)
      goodBytes r.arg0.toNat out.length →
      exec (.attest r) s = answered (s.homeWrite (keysFrom r.arg0.toNat out.length) out) r 0 out.length 0 0) ∧
    (Accepts s (.powerCap r) → 800 ≤ r.arg0.toNat → r.arg0.toNat ≤ 2400 → exec (.powerCap r) s =
      answered { s with powerCap := BitVec.ofNat 16 r.arg0.toNat } r 0 s.powerCap.toNat 0 0) ∧
    (Accepts s (.powerCap r) → (r.arg0.toNat < 800 ∨ 2400 < r.arg0.toNat) → exec (.powerCap r) s = answered s r 2 0 0 0) ∧
    (Accepts s (.fwPatch r) → goodBytes r.arg0.toNat r.arg1.toNat →
      let bytes := memReadList s.mem (keysFrom r.arg0.toNat r.arg1.toNat)
      let x := Config.patchParts bytes
      let good := Config.sha512 x.2.1 = Config.patchKeyHash ∧ Config.ecdsaOk x.2.1 x.2.2.2.2 x.2.2.1 x.2.2.2.1 = true ∧
        Config.rollbackFloor ≤ x.1
      (good → exec (.fwPatch r) s = answered { s with patch := some { version := x.1, hash := Config.sha512 bytes } } r 0 0 0 0) ∧
      (¬ good → exec (.fwPatch r) s = answered s r 4 0 0 0)) ∧
    (Accepts s (.readErrors r) → r.arg2.toNat ≤ 1 → r.arg0.toNat % 32 = 0 → goodBytes r.arg0.toNat (32 * r.arg1.toNat) →
      let out := s.errors.take r.arg1.toNat
      let bytes := (out.map errBytes).flatten
      (∀ u : State, r.arg2 = 0 → u = s.homeWrite (keysFrom r.arg0.toNat bytes.length) bytes →
        exec (.readErrors r) s = answered u r 0 out.length u.errors.length s.errDropped) ∧
      (∀ u : State, r.arg2 = 1 → u = State.homeWrite { s with errors := s.errors.drop out.length, errDropped := 0 }
          (keysFrom r.arg0.toNat bytes.length) bytes →
        exec (.readErrors r) s = answered u r 0 out.length u.errors.length s.errDropped)) ∧
    (Accepts s (.scrubQuery r) → r.arg0.toNat < 768 →
      exec (.scrubQuery r) s = answered s r 0 (s.scrubState (r.arg0.toNat % 256)) 0 0) ∧
    (∀ (i : Instr) (lo hi : Nat), Accepts s i → r.arg0.toNat < 768 →
      (i = .scrubFullPass r ∧ lo = 0 ∧ hi = 2 ^ 39 ∨
        i = .scrubRange r ∧ goodBytes r.arg1.toNat r.arg2.toNat ∧ lo = r.arg1.toNat ∧ hi = lo + r.arg2.toNat) →
      ∃ u : State, exec i s = answered u r 0 (s.scrubState (r.arg0.toNat % 256)) 0 0 ∧ u.mem = s.mem ∧ u.cur = s.cur ∧
        ∀ n c : Nat, n < 8 → c < 32 → swf (fun _ => ((0, 0) : Nat × Nat)) none (s.stack n).pass = true →
          let x := sget (0, 0) (u.stack n).pass c
          let start (j : Nat) : Nat := n * 2 ^ 36 + j / 4 * 2 ^ 13 + c * 2 ^ 8 + j % 4 * 64
          let met (j : Nat) : Prop := lo < hi ∧ j < 2 ^ 25 ∧ lo < start j + 64 ∧ start j < hi
          (r.arg0.toNat.testBit n = false ∨ (∀ j, ¬ met j) → x = sget (0, 0) (s.stack n).pass c) ∧
          (r.arg0.toNat.testBit n = true → ∀ k, met k → ∀ j, met j ↔ x.1 ≤ j ∧ j < x.1 + x.2)))

/-- R54 to R58, R65, R76, R52, R240, R241, R246: START_FARM in its three forms, STOP_FARM, PREEMPT and QUERY_FARM, accepted:
a farm that does not exist or belongs to another partition is NOFARM, one to be resumed that is not HELD too; a handle
without an image is NOFARM, an index or an address that gives no descriptor BADARG, one notice too many NORES; a descriptor
is judged and queued, or refused with its status; a running farm is asked to halt; a PREEMPT of a farm that has ended
answers OK. LOAD_IMAGE of a header that R65 allows, signed by an unrevoked enrolled key, with a free handle and no overlap,
writes every loaded section and answers the handle; without a page base it is DENIED, else BADARG, BADSIG or NORES as the
first check that fails says. The order of checks and effects is read as log entries 29, 42 and 43 say; NOFARM for those
farms and the OK are the model's choice (log entry 53). -/
def Obligations.FarmCommands : Prop :=
  (∀ (s : State) (r : CmdRec),
    (Accepts s (.startFarm r) → r.arg0.toNat < 2 ^ 32 → s.pageBase r.part.toNat = 0 →
      exec (.startFarm r) s = answered s r 11 0 0 0) ∧
    (∀ q : Part, s.part? r.part.toNat = some q → q.ptbase ≠ 0 →
      let image := q.images.find? (fun x => x.1 == r.arg0.toNat % 2 ^ 16)
      (Accepts s (.startFarm r) → r.arg0.toNat < 2 ^ 32 → image = none → exec (.startFarm r) s = answered s r 8 0 0 0) ∧
      (∀ h im, Accepts s (.startFarm r) → r.arg0.toNat < 2 ^ 32 → image = some (h, im) →
        im.farms[r.arg0.toNat / 2 ^ 16]? = none → exec (.startFarm r) s = answered s r 2 0 0 0) ∧
      (∀ h im d, Accepts s (.startFarm r) → r.arg0.toNat < 2 ^ 32 → image = some (h, im) →
        im.farms[r.arg0.toNat / 2 ^ 16]? = some d → noticeOf r ≠ none → 4096 ≤ s.owed →
        exec (.startFarm r) s = answered s r 10 0 0 0) ∧
      (Accepts s (.startFarmDirect r) → r.arg0.toNat = 2 ^ 63 →
        r.arg1.toNat % 8 ≠ 0 ∨ fdescKeys s (r.part.setWidth 3) r.arg1.toNat = none →
        exec (.startFarmDirect r) s = answered s r 2 0 0 0)) ∧
    (Accepts s (.startFarmDirect r) → r.arg0.getLsbD 62 = true → r.arg0.getLsbD 63 = true →
      exec (.startFarmDirect r) s = answered s r 2 0 0 0) ∧
    (∀ (q : Part) (h : Nat) (im : Image) (d : Fdesc), Accepts s (.startFarm r) → r.arg0.toNat < 2 ^ 32 →
      s.part? r.part.toNat = some q → q.ptbase ≠ 0 → q.images.find? (fun x => x.1 == r.arg0.toNat % 2 ^ 16) = some (h, im) →
      im.farms[r.arg0.toNat / 2 ^ 16]? = some d → (noticeOf r ≠ none → s.owed < 4096) →
      let d' := if r.arg2 = 0 then d else { d with argptr := r.arg2 }
      (∀ st, s.judge d' (r.part.setWidth 3) false = some st → exec (.startFarm r) s = answered s r st 0 0 0) ∧
      (s.judge d' (r.part.setWidth 3) false = none →
        exec (.startFarm r) s = .next ((s.respond r 0 s.nextFarm 0 0).queueFarm d' (noticeOf r)).1)) ∧
    (∀ (q : Part) (keys : List Nat), Accepts s (.startFarmDirect r) → r.arg0.toNat = 2 ^ 63 → s.part? r.part.toNat = some q →
      q.ptbase ≠ 0 → r.arg1.toNat % 8 = 0 → fdescKeys s (r.part.setWidth 3) r.arg1.toNat = some keys →
      (noticeOf r ≠ none → s.owed < 4096) →
      let d := parseFdesc (leNat (memReadList s.mem keys))
      let d' := if r.arg2 = 0 then d else { d with argptr := r.arg2 }
      (∀ st, s.judge d' (r.part.setWidth 3) false = some st → exec (.startFarmDirect r) s = answered s r st 0 0 0) ∧
      (s.judge d' (r.part.setWidth 3) false = none →
        exec (.startFarmDirect r) s = .next ((s.respond r 0 s.nextFarm 0 0).queueFarm d' (noticeOf r)).1)) ∧
    (∀ (q : Part) (f : Farm), Accepts s (.startFarmResume r) → r.arg0.toNat = 2 ^ 62 → s.part? r.part.toNat = some q →
      q.ptbase ≠ 0 → s.farm? r.arg1.toNat = some f → f.part.toNat = r.part.toNat →
      (noticeOf r ≠ none → s.owed < 4096) →
      (f.state ≠ .held → exec (.startFarmResume r) s = answered s r 8 0 0 0) ∧
      (f.state = .held → ∃ u : State, exec (.startFarmResume r) s = .next u.poll ∧
        u.farms = s.farms.map (fun x => if x.id = f.id then { x with
          state := .queued, ready := true, order := s.nextOrder, readyAt := s.nextOrder, aged := 0
          notify := match noticeOf r with | some n => some n | none => x.notify } else x) ∧
        u.nextOrder = s.nextOrder + 1 ∧ u.mem = s.mem ∧ u.cur = s.cur)) ∧
    (∀ f, s.farm? r.arg0.toNat = some f → f.part.toNat = r.part.toNat →
      (Accepts s (.stopFarm r) → f.state = .running → exec (.stopFarm r) s = .next { s with
        farms := s.farms.map (fun x => if x.id = f.id then { x with halting := .stop (some r) } else x) }) ∧
      (Accepts s (.stopFarm r) → (f.state = .queued ∨ f.state = .held) → exec (.stopFarm r) s =
        .next (((s.discardFarm f.id).finishFarm f .stopped).respond r 0 4 0 0).poll) ∧
      (Accepts s (.stopFarm r) → (f.state = .done ∨ f.state = .stopped ∨ f.state = .faulted) →
        exec (.stopFarm r) s = answered s r 0 f.state.code 0 0) ∧
      (Accepts s (.preempt r) → r.arg1.toNat ≤ 1 → f.state = .running → exec (.preempt r) s = .next { s with
        farms := s.farms.map (fun x => if x.id = f.id then { x with
          halting := if r.arg1 = 0 then .requeue (some r) else .hold r } else x) }) ∧
      (Accepts s (.preempt r) → r.arg1.toNat ≤ 1 → f.state ≠ .running → exec (.preempt r) s = answered s r 0 0 0 0) ∧
      (Accepts s (.queryFarm r) → exec (.queryFarm r) s = answered s r 0 (f.state.code + 16 * f.grant.toNat +
        256 * (s.strands.filter (fun t => t.farm == f.id && t.life == .running)).length) f.strips f.res2)) ∧
    ((s.farm? r.arg0.toNat = none ∨ ∃ f, s.farm? r.arg0.toNat = some f ∧ f.part.toNat ≠ r.part.toNat) →
      (Accepts s (.stopFarm r) → exec (.stopFarm r) s = answered s r 8 0 0 0) ∧
      (Accepts s (.queryFarm r) → exec (.queryFarm r) s = answered s r 8 0 0 0) ∧
      (Accepts s (.preempt r) → r.arg1.toNat ≤ 1 → exec (.preempt r) s = answered s r 8 0 0 0))) ∧
  (∀ (s : State) (r : CmdRec), Accepts s (.loadImage r) → goodBytes r.arg0.toNat r.arg1.toNat →
    (s.pageBase r.part.toNat = 0 → exec (.loadImage r) s = answered s r 11 0 0 0) ∧
    (∀ q : Part, s.part? r.part.toNat = some q → q.ptbase ≠ 0 → imageSections s.mem r.arg0.toNat r.arg1.toNat = none →
      exec (.loadImage r) s = answered s r 2 0 0 0) ∧
    (∀ (q : Part) (xs : List Section), s.part? r.part.toNat = some q → q.ptbase ≠ 0 →
      imageSections s.mem r.arg0.toNat r.arg1.toNat = some xs →
      let farms := imageFarms s.mem r.arg0.toNat r.arg1.toNat xs
      (s.imageSigned r.arg0.toNat r.arg1.toNat = false → exec (.loadImage r) s = answered s r 4 0 0 0) ∧
      (s.imageSigned r.arg0.toNat r.arg1.toNat = true → farms = none → exec (.loadImage r) s = answered s r 2 0 0 0) ∧
      (s.imageSigned r.arg0.toNat r.arg1.toNat = true → farms ≠ none → freeHandle q.images = none →
        exec (.loadImage r) s = answered s r 10 0 0 0) ∧
      (∀ h, s.imageSigned r.arg0.toNat r.arg1.toNat = true → farms ≠ none → freeHandle q.images = some h →
        clash (xs.filter (fun x => x.loaded && x.size != 0)) = true → exec (.loadImage r) s = answered s r 2 0 0 0) ∧
      (∀ h u, s.imageSigned r.arg0.toNat r.arg1.toNat = true → farms ≠ none → freeHandle q.images = some h →
        clash (xs.filter (fun x => x.loaded && x.size != 0)) = false →
        State.loadSections (r.part.setWidth 3) r.arg0.toNat xs s = (u, false) → exec (.loadImage r) s = answered u r 2 0 0 0) ∧
      (∀ h u fs, s.imageSigned r.arg0.toNat r.arg1.toNat = true → farms = some fs → freeHandle q.images = some h →
        clash (xs.filter (fun x => x.loaded && x.size != 0)) = false →
        State.loadSections (r.part.setWidth 3) r.arg0.toNat xs s = (u, true) →
        let im : Image := { farms := fs, hash := Config.sha512 (memReadList s.mem (keysFrom r.arg0.toNat r.arg1.toNat)) }
        exec (.loadImage r) s = answered
          (u.modPart r.part.toNat (fun p => { p with images := putImage h im p.images })) r 0 h 0 0)))

namespace Sys2Proof.Claims

/-- R61: the live pins of the partition's strands that overlap [ARG0, ARG0 + ARG1), each by its strand's key and its number. -/
def pinHits (s : State) (r : CmdRec) : List (Nat × Nat) :=
  ((s.strands.filter (fun t => t.exists_)).map (fun t =>
    ([1, 2, 3, 4, 5, 6, 7].filter (fun k =>
      let p := t.pins.getD k Pin.idle
      t.part.toNat == r.part.toNat && p.live && !p.revoked && decide (0 < r.arg1.toNat) &&
        decide (p.base.toNat < r.arg0.toNat + r.arg1.toNat) && decide (r.arg0.toNat < p.base.toNat + p.len.toNat))).map
      (fun k => (t.key, k)))).flatten

/-- R16: slot i's four bits of a table: V, then the partition. -/
def slotNibble (x : BitVec 256) (i : Nat) : Nat := x.toNat / 16 ^ i % 16

/-- R175: a pin that has been revoked: LIVE stays, its extents are freed, STOP says where its oldest work stopped. -/
def revokedPin (p : Pin) (stop : BitVec 37) : Pin := { p with revoked := true, stop := stop, xfirst := 0, extents := [] }

/-- R171, R175: the pins of a strand once pin k is revoked: later runs of the core's table move down over the freed one. -/
def pinsRevoked (t : Strand) (k : BitVec 3) (stop : BitVec 37) : Vector Pin 8 :=
  let p := t.pins.getD k.toNat Pin.idle
  (t.pins.setIfInBounds k.toNat (revokedPin p stop)).map (fun q =>
    if p.xfirst.toNat < q.xfirst.toNat ∧ q.extents ≠ [] then { q with xfirst := q.xfirst - BitVec.ofNat 11 p.extents.length } else q)

/-- R175 step 6: the offset from BASE of an address, or LEN when it lies outside the pin. -/
def stopAt (p : Pin) (a : Word) : BitVec 37 :=
  if p.base.toNat ≤ a.toNat ∧ a.toNat < p.base.toNat + p.len.toNat then BitVec.ofNat 37 (a.toNat - p.base.toNat) else p.len

/-- No transfer and no collective command of the strand names the pin. -/
abbrev Idle (s : State) (k : BitVec 3) : Prop :=
  (∀ c ∈ s.bte, ¬ (c.key = s.cur.key ∧ (c.spin = k ∨ c.dpin = k))) ∧
  (∀ c ∈ s.colls, ¬ (c.key = s.cur.key ∧ (c.spin = k ∨ c.dpin = k)))

/-- The current strand is the only one, runs on its core outside a handler, and nothing that it has issued is under way. -/
abbrev Settled (s : State) : Prop :=
  s.others = [] ∧ s.cur.life = .running ∧ s.cur.shadow = [] ∧ s.drainStrand s.cur.key = s

/-- No strand has a store, an entry, a held element or a write to its save area left. -/
abbrev AtRest (s : State) : Prop := ∀ t ∈ s.strands, t.sbuf = [] ∧ t.viq = [] ∧ t.held = [] ∧ t.pendSave = []

/-- R178, R62: bytes of a stack in dirty lines of the scalar L1s of a die. -/
def dirtyBytes (s : State) (die : Bool) (n : Nat) : Nat :=
  64 * (((s.cores.map (fun c => c.1)).filter (fun c => decide (128 ≤ c) == die)).map (fun c =>
    ((s.core c).dirty.filter (fun l => decide (n * 2 ^ 30 ≤ l) && decide (l < (n + 1) * 2 ^ 30))).length)).sum

/-- The record of CASTLE_STACK's answer joins the response port when no notice waits and the port has room (R48, R62). -/
abbrev handAnswered (s t : State) (h : HandOver) (status gen dirty pins : Nat) : Prop :=
  (h.resp = none → t.respPort = s.respPort ∧ t.notices = s.notices) ∧
  (∀ r, h.resp = some r → s.notices = [] → s.respPort.length < 256 → t.respPort = s.respPort ++
    [{ status := BitVec.ofNat 16 status, part := r.part, tag := r.tag, opcode := r.opcode, res0 := BitVec.ofNat 64 gen
       res1 := BitVec.ofNat 64 dirty, res2 := BitVec.ofNat 64 pins }])

end Sys2Proof.Claims

open Sys2Proof Sys2Proof.Machine Sys2Proof.Claims

/-- R18, R55, R59 to R62, R175, R203: PARTITION_CREATE makes the partition with its stacks taken from P0, and the
dispatchers look again; PARTITION_DESTROY of one without live farms gives its stacks to P0, sets V = 0 in its slots and
drops its images with it, with one that runs it asks for its halt and waits; SET_SLOTS leaves a new table for the next pass;
SET_PAGE_BASE waits for no live farm; CASTLE_STACK answers at once for a stack the die owns, else starts the hand-over or
waits for the one in progress. PIN_REVOKE revokes every live pin of the partition that its range meets and answers their
number: a pin that is revoked stays LIVE, is REVOKED and has no extents, its strand's other pins keep their ranges, and no
transfer stays on it, nor a collective command that has not written its result; with no work on the pin STOP is LEN; with
entries on it the oldest records PINREVOKED at its first element, row or line that is not complete, and STOP is the offset
of that address. The order of checks, when DONATE acts, that no TLB is emptied and that a destroyed partition's slots go at
once are read as log entries 29, 39, 41 and 53 say; that a pin with no entry on it gives no trap is the model's choice (log
entry 68). -/
def Obligations.PartitionCommands : Prop :=
  ((∀ (s : State) (k : BitVec 3), s.cur.exists_ = true → k ≠ 0 → ∃ (t : Strand) (x : BitVec 37),
    (s.revokePin s.cur.key k).strand? s.cur.key = some t ∧
    t.pins.getD k.toNat Pin.idle = revokedPin (s.cur.pins.getD k.toNat Pin.idle) x ∧
    (∀ j, j < 8 → j ≠ k.toNat → ∃ f, t.pins.getD j Pin.idle = { s.cur.pins.getD j Pin.idle with xfirst := f }) ∧
    (∀ c ∈ (s.revokePin s.cur.key k).bte, ¬ (c.key = s.cur.key ∧ (c.spin = k ∨ c.dpin = k))) ∧
    (∀ c ∈ (s.revokePin s.cur.key k).colls, c.key = s.cur.key → c.spin = k ∨ c.dpin = k → 2 ≤ c.stage)) ∧
  (∀ (s : State) (k : BitVec 3), Settled s → Idle s k → k ≠ 0 → s.cur.viq = [] → s.revokePin s.cur.key k =
    { s with cur := { s.cur with pins := pinsRevoked s.cur k (s.cur.pins.getD k.toNat Pin.idle).len } }) ∧
  (∀ (s : State) (k : BitVec 3) (e : VEntry) (rest : List VEntry), Settled s → Idle s k → k ≠ 0 →
    s.cur.viq.filter (fun x => !x.complete && (s.cur.memUse x).pins.contains k) = e :: rest →
    (∀ x ∈ rest, seqLt x.seq e.seq = false) →
    let p := s.cur.pins.getD k.toNat Pin.idle
    let stop := stopAt p (s.cur.entryStop e k).2
    s.revokePin s.cur.key k = { s with cur := { s.cur with
      pins := pinsRevoked s.cur k stop
      viq := s.cur.viq.map (fun x => if x.seq = e.seq then x.addFault
        { cause := 0x10, elem := (s.cur.entryStop x k).1, addr := BitVec.ofNat 64 (p.base.toNat + stop.toNat)
          info := BitVec.ofNat 62 k.toNat } else x) } })) ∧
  ((∀ (s : State) (r : CmdRec) (p0 : Part), s.mode = .ready → r.rsvd = 0 → r.flags = 0 → (∀ w ∈ (words r).drop 3, w = 0) →
    1 ≤ r.part.toNat → r.part.toNat ≤ 7 → r.arg0.toNat < 2 ^ 32 → r.arg0.toNat % 2 ^ 16 ≠ 0 → r.arg1.toNat < 4 →
    r.arg2.toNat < 256 → s.part? 0 = some p0 →
    ((s.part? r.part.toNat).isSome = true → exec (.partitionCreate r) s = answered s r 7 0 0 0) ∧
    (s.part? r.part.toNat = none → BitVec.setWidth 8 r.arg2 &&& ~~~p0.stackMask ≠ 0 →
      exec (.partitionCreate r) s = answered s r 11 0 0 0) ∧
    (s.part? r.part.toNat = none → BitVec.setWidth 8 r.arg2 &&& ~~~p0.stackMask = 0 → ∃ u : State,
      exec (.partitionCreate r) s = .next (u.respond r 0 0 0 0).poll ∧ u.mem = s.mem ∧ u.cur = s.cur ∧
      u.part? r.part.toNat = some
        { weight := BitVec.ofNat 16 (r.arg0.toNat % 2 ^ 16), ageLimit := BitVec.ofNat 16 (r.arg0.toNat / 2 ^ 16)
          userCastle := r.arg1.getLsbD 0, isolated := r.arg1.getLsbD 1, stackMask := BitVec.setWidth 8 r.arg2, ptbase := 0
          credit := 0, images := [] } ∧
      u.part? 0 = some { p0 with stackMask := p0.stackMask &&& ~~~(BitVec.setWidth 8 r.arg2) })) ∧
  (∀ (s : State) (r : CmdRec), Accepts s (.partitionDestroy r) →
    (r.part = 0 → exec (.partitionDestroy r) s = answered s r 11 0 0 0) ∧
    (r.part ≠ 0 → s.partFarms r.part.toNat = [] →
      exec (.partitionDestroy r) s = .next ((s.endPart r.part.toNat).respond r 0 0 0 0).poll) ∧
    (∀ p0 q : Part, 1 ≤ r.part.toNat → r.part.toNat ≤ 7 → s.part? 0 = some p0 → s.part? r.part.toNat = some q →
      let u := s.endPart r.part.toNat
      u.mem = s.mem ∧ u.cur = s.cur ∧ u.part? r.part.toNat = none ∧
      u.part? 0 = some { p0 with stackMask := p0.stackMask ||| q.stackMask } ∧
      (∀ j, j ≠ 0 → j ≠ r.part.toNat → u.part? j = s.part? j) ∧
      (∀ n c i, n < 8 → c < 32 → i < 64 → slotNibble ((u.stack n).table c) i =
        if slotNibble ((s.stack n).table c) i = 8 + r.part.toNat then r.part.toNat else slotNibble ((s.stack n).table c) i)) ∧
    (∀ f, r.part ≠ 0 → s.partFarms r.part.toNat = [f] → f.state = .running →
      exec (.partitionDestroy r) s = .next { s with
        farms := s.farms.map (fun x => if x.id = f.id then { x with halting := .stop none } else x)
        cmdPort := r :: s.cmdPort })) ∧
  (∀ (s : State) (r : CmdRec) (n j : Nat), Accepts s (.setSlots r) → (n < 8 ∨ n = 255) → (j < 32 ∨ j = 255) →
    r.arg0.toNat = n + 256 * j + 65536 * (r.arg0.toNat / 65536) → r.arg0.toNat < 2 ^ 24 →
    s.badSlot (r.arg4 ++ r.arg3 ++ r.arg2 ++ r.arg1) = false → ∃ u : State,
      exec (.setSlots r) s = answered u r 0 0 0 0 ∧
      (∀ m, m < 8 → (n = m ∨ n = 255) →
        let ps := if j = 255 then List.range 32 else [j]
        (u.stack m).newTables = (s.stack m).newTables.filter (fun y => !ps.contains y.1) ++
          ps.map (fun i => (i, r.arg4 ++ r.arg3 ++ r.arg2 ++ r.arg1)) ∧
        (u.stack m).newDonate = some (BitVec.ofNat 8 (r.arg0.toNat / 65536)) ∧
        (u.stack m).tables = (s.stack m).tables ∧ (u.stack m).donate = (s.stack m).donate) ∧
      (∀ m, n ≠ m → n ≠ 255 → u.stack m = s.stack m)) ∧
  (∀ (s : State) (r : CmdRec) (q : Part), Accepts s (.setPageBase r) → r.arg0.toNat % 65536 = 0 →
    goodBytes r.arg0.toNat 65536 → s.part? r.part.toNat = some q →
    (s.partFarms r.part.toNat ≠ [] → exec (.setPageBase r) s = answered s r 5 0 0 0) ∧
    (s.partFarms r.part.toNat = [] → ∃ u : State, exec (.setPageBase r) s = answered u r 0 0 0 0 ∧
      u.part? r.part.toNat = some { q with ptbase := r.arg0 } ∧ u.mem = s.mem ∧ u.cur = s.cur)) ∧
  (∀ (s : State) (r : CmdRec), Accepts s (.pinRevoke r) →
    exec (.pinRevoke r) s = .next (((pinHits s r).foldl (fun u x => u.revokePin x.1 (BitVec.ofNat 3 x.2)) s).respond r 0
      (pinHits s r).length 0 0)) ∧
  (∀ (s : State) (r : CmdRec), Accepts s (.castleStack r) → r.arg0 &&& ~~~(0x307 : Word) = 0 →
    let n := r.arg0.toNat % 8
    ((s.stack n).handing = false → (s.stack n).owner = r.arg0.getLsbD 8 →
      exec (.castleStack r) s = answered s r 0 (s.stack n).gen.toNat 0 0) ∧
    ((s.stack n).handing = false → (s.stack n).owner ≠ r.arg0.getLsbD 8 →
      exec (.castleStack r) s = .next (s.startHand n (r.arg0.getLsbD 8) (r.arg0.getLsbD 9) 0 (some r))) ∧
    ((s.stack n).handing = true →
      exec (.castleStack r) s = .next (s.modStack n (fun k => { k with queue := k.queue ++ [r] })))))

/-- R362 to R365, R11, R12, R177, R178: `castle` answers BADARG, DENIED, DONE or BUSY with attempt 0, or starts the
hand-over, which sets HANDING and raises ATT, and answers PENDING with the attempt number. `castq` copies a status that is
not PENDING; for a PENDING ticket it gives PENDING while its attempt runs, LASTSTAT when it has ended and STALE otherwise,
with the ticket's ATT and the ownership register. HAND_OVER of a stack in hand, with no store or entry left, no farm and no
other command waiting, gives it to the target: owner and generation change on the base die and in both access-right entries,
HANDING ends, and a waiting CASTLE_STACK is answered OK with the generation, the dirty bytes and the pins revoked; with a
live pin in the way it is answered BUSY, unless it is forced: then the pins are revoked. No byte of memory changes. Stores
held by frozen entries and a hand-over that does not wait for them are the model's choice (log entry 31). -/
def Obligations.CastleResults : Prop :=
  (∀ (d a b : Reg) (s : State), Free s [d, a, b] →
    let n := (s.g a).toNat % 8
    let die := (s.g b).getLsbD 0
    (¬ goodCastle (s.g a) (s.g b) → exec (.castle d a b) s = .next (wrote s d (ticketWord 4 0 die n) 4)) ∧
    (goodCastle (s.g a) (s.g b) → s.mayCastle s.cur n = false →
      exec (.castle d a b) s = .next (wrote s d (ticketWord 3 0 die n) 4)) ∧
    (goodCastle (s.g a) (s.g b) → s.mayCastle s.cur n = true → (s.stack n).owner = die →
      exec (.castle d a b) s = .next (wrote s d (ticketWord 1 0 die n) 4)) ∧
    (goodCastle (s.g a) (s.g b) → s.mayCastle s.cur n = true → (s.stack n).owner ≠ die → (s.stack n).handing = true →
      exec (.castle d a b) s = .next (wrote s d (ticketWord 2 0 die n) 4)) ∧
    (goodCastle (s.g a) (s.g b) → s.mayCastle s.cur n = true → (s.stack n).owner ≠ die → (s.stack n).handing = false →
      AllComplete s → StoresPerformed s → ∃ u : State,
        exec (.castle d a b) s = .next (wrote u d (ticketWord 0 ((s.stack n).att + 1).toNat die n) 4) ∧
        u.cur = s.cur ∧ u.mem = s.mem ∧ (u.stack n).handing = true ∧ (u.stack n).att = (s.stack n).att + 1 ∧
        (u.stack n).owner = (s.stack n).owner ∧ ((u.stack n).right (s.stack n).owner).state = .handing ∧
        (∀ j, j ≠ n → u.stack j = s.stack j)) ∧
    (goodCastle (s.g a) (s.g b) → s.mayCastle s.cur n = true → (s.stack n).owner ≠ die → (s.stack n).handing = false →
      ¬ (AllComplete s ∧ StoresPerformed s) → exec (.castle d a b) s = .next (waits s))) ∧
  (∀ (d a : Reg) (s : State), Free s [d, a] →
    let x := (s.g a).toNat
    let k := s.stack (x % 8)
    let answer (status : Nat) : State := wrote s d (BitVec.ofNat 64 (2 ^ 60 * status + 2 ^ 32 * (x / 2 ^ 32 % 2 ^ 16) +
      2 ^ 16 * k.gen.toNat + (if k.handing then 256 else 0) + (if k.owner then 1 else 0))) 4
    (x / 2 ^ 60 ≠ 0 → exec (.castq d a) s = .next (answer (x / 2 ^ 60))) ∧
    (x / 2 ^ 60 = 0 → x / 2 ^ 32 % 2 ^ 16 ≠ k.att.toNat → exec (.castq d a) s = .next (answer 5)) ∧
    (x / 2 ^ 60 = 0 → x / 2 ^ 32 % 2 ^ 16 = k.att.toNat → k.hand ≠ none → exec (.castq d a) s = .next (answer 0)) ∧
    (x / 2 ^ 60 = 0 → x / 2 ^ 32 % 2 ^ 16 = k.att.toNat → k.hand = none → k.lastBusy = true →
      exec (.castq d a) s = .next (answer 2)) ∧
    (x / 2 ^ 60 = 0 → x / 2 ^ 32 % 2 ^ 16 = k.att.toNat → k.hand = none → k.lastBusy = false →
      exec (.castq d a) s = .next (answer 1))) ∧
  (∀ (s : State) (n : BitVec 3) (h : HandOver), (s.stack n.toNat).hand = some h → (s.stack n.toNat).queue = [] →
    h.bar.getLsbD 15 = false → h.source ≠ h.target → AtRest s → s.farms = [] → s.hostHeld = [] →
    let pinned (t : Strand) : Prop := t.exists_ = true ∧ t.die = h.source ∧
      ∃ p ∈ t.pins.toList, p.covers (n.toNat * 2 ^ 36) ((n.toNat + 1) * 2 ^ 36) = true
    let given (t : State) : Prop := t.mem = s.mem ∧ (t.stack n.toNat).owner = h.target ∧
      (t.stack n.toNat).gen = (s.stack n.toNat).gen + 1 ∧ (t.stack n.toNat).handing = false ∧
      (t.stack n.toNat).hand = none ∧ (t.stack n.toNat).lastBusy = false ∧
      ((t.stack n.toNat).right h.source) = { state := .absent, gen := (s.stack n.toNat).gen + 1 } ∧
      ((t.stack n.toNat).right h.target) = { state := .owned, gen := (s.stack n.toNat).gen + 1 } ∧
      (∀ m, m ≠ n.toNat → t.stack m = s.stack m)
    ((∀ t ∈ s.strands, ¬ pinned t) → ∃ t : State, exec (.handOver n) s = .next t ∧ given t ∧
      handAnswered s t h 0 ((s.stack n.toNat).gen + 1).toNat (dirtyBytes s h.source n.toNat) 0) ∧
    ((∃ t ∈ s.strands, pinned t) → h.force = false → ∃ t : State, exec (.handOver n) s = .next t ∧ t.mem = s.mem ∧
      (t.stack n.toNat).owner = (s.stack n.toNat).owner ∧ (t.stack n.toNat).gen = (s.stack n.toNat).gen ∧
      (t.stack n.toNat).handing = false ∧ (t.stack n.toNat).hand = none ∧ (t.stack n.toNat).lastBusy = true ∧
      ((t.stack n.toNat).right h.source).state = .owned ∧ (∀ m, m ≠ n.toNat → t.stack m = s.stack m) ∧
      handAnswered s t h 5 0 0 0) ∧
    (pinned s.cur → s.others = [] → s.cur.life = .running → s.bte = [] → s.colls = [] → h.force = true →
      ∃ t : State, exec (.handOver n) s = .next t ∧ given t ∧
      (∀ k, 1 ≤ k → k < 8 → (t.cur.pins.getD k Pin.idle).covers (n.toNat * 2 ^ 36) ((n.toNat + 1) * 2 ^ 36) = false) ∧
      handAnswered s t h 0 ((s.stack n.toNat).gen + 1).toNat (dirtyBytes s h.source n.toNat)
        (([1, 2, 3, 4, 5, 6, 7].filter (fun k =>
          (s.cur.pins.getD k Pin.idle).covers (n.toNat * 2 ^ 36) ((n.toNat + 1) * 2 ^ 36))).length)))

/-- R40, R42 to R44, R52: DCD_ACCEPT of an aligned extent that meets no other adds it, its bytes reading zero and unpoisoned;
one that meets another is OVERLAP. DCD_RELEASE of a pinned extent is BUSY, of an unpinned one starts the release; the forced
form starts it and revokes every pin that covers the extent; of an unknown extent either is NOEXTENT, of one that is being
released it waits. EXTENT_RELEASE_COMPLETE writes back the L1 lines of the extent, drops its TLB entries and vat lines,
removes it and answers its command; forced, the dirty vat lines that it drops stand in a loss record and in an error record
with their number and the first address.
That a new extent reads zero, and that a release which finds no dirty line records nothing, are the model's choices (log
entries 4 and 59). -/
def Obligations.ExtentCommands : Prop :=
  (∀ (s : State) (r : CmdRec), Accepts s (.dcdAccept r) → r.arg0 &&& ~~~(0xFFFF0001 : Word) = 0 → r.arg1.toNat % 65536 = 0 →
    r.arg2.toNat % 65536 = 0 → 0 < r.arg2.toNat → r.arg2.toNat ≤ 2 ^ 40 → 2 ^ 50 ≤ r.arg1.toNat →
    r.arg1.toNat + r.arg2.toNat ≤ 2 ^ 51 → (s.extents.filter (fun e => e.die == r.arg0.getLsbD 0)).length < 256 →
    ((∃ e ∈ s.extents, e.base < r.arg1.toNat + r.arg2.toNat ∧ r.arg1.toNat < e.base + e.len) →
      exec (.dcdAccept r) s = answered s r 7 0 0 0) ∧
    ((∀ e ∈ s.extents, r.arg1.toNat + r.arg2.toNat ≤ e.base ∨ e.base + e.len ≤ r.arg1.toNat) → ∃ u : State,
      exec (.dcdAccept r) s = .next (u.respond r 0 0 0 0) ∧
      u.extents = s.extents ++ [{ die := r.arg0.getLsbD 0, tag := BitVec.ofNat 16 (r.arg0.toNat / 65536 % 65536)
                                  base := r.arg1.toNat, len := r.arg2.toNat, releasing := none }] ∧
      u.cur = s.cur ∧ (∀ k, k < r.arg1.toNat ∨ r.arg1.toNat + r.arg2.toNat ≤ k → memRead u.mem k = memRead s.mem k) ∧
      (∀ k, r.arg1.toNat ≤ k → k < r.arg1.toNat + r.arg2.toNat → memRead u.mem k = 0) ∧
      (∀ l, r.arg1.toNat / 64 ≤ l → l < (r.arg1.toNat + r.arg2.toNat) / 64 → u.poisoned l = false))) ∧
  (∀ (s : State) (r : CmdRec), Accepts s (.dcdRelease r) → r.arg0 &&& ~~~(0x101 : Word) = 0 →
    ((∀ e ∈ s.extents, e.die ≠ r.arg0.getLsbD 0 ∨ e.base ≠ r.arg1.toNat) →
      exec (.dcdRelease r) s = answered s r 6 0 0 0 ∧ exec (.dcdReleaseForced r) s = answered s r 6 0 0 0) ∧
    (∀ e, s.extents.find? (fun x => x.die == r.arg0.getLsbD 0 && x.base == r.arg1.toNat) = some e →
      let u (force : Bool) : State := { s with extents := s.extents.map (fun x =>
        if x.die = e.die ∧ x.base = e.base then { x with releasing := some (r, force) } else x) }
      (e.releasing ≠ none → exec (.dcdRelease r) s = .next { s with cmdPort := r :: s.cmdPort } ∧
        exec (.dcdReleaseForced r) s = .next { s with cmdPort := r :: s.cmdPort }) ∧
      (e.releasing = none → s.pinned e.base (e.base + e.len) = true → exec (.dcdRelease r) s = .next (s.respond r 5 0 0 0)) ∧
      (e.releasing = none → s.pinned e.base (e.base + e.len) = false → exec (.dcdRelease r) s = .next (u false) ∧
        exec (.dcdReleaseForced r) s = .next (u true)) ∧
      (e.releasing = none → s.others = [] → s.cur.exists_ = true → ∃ t : State,
        exec (.dcdReleaseForced r) s = .next t ∧ t.extents = (u true).extents ∧
        (∀ k, 1 ≤ k → k < 8 → let p := s.cur.pins.getD k Pin.idle
          (t.cur.pins.getD k Pin.idle).covers e.base (e.base + e.len) = false ∧
          (p.covers e.base (e.base + e.len) = true → ∃ x, t.cur.pins.getD k Pin.idle = revokedPin p x))))) ∧
  (∀ (s : State) (e : Extent) (r : CmdRec) (force : Bool), Canonical s → AtRest s → e.base < 2 ^ 52 →
    s.extents.find? (fun x => x.die == e.die && x.base == e.base) = some e → e.releasing = some (r, force) →
    let inside (l : Nat) : Bool := decide (e.base / 64 ≤ l) && decide (l < (e.base + e.len) / 64)
    let lost := s.vatDirty.filter inside
    ∃ u : State, exec (.extentReleaseComplete e.die (BitVec.ofNat 52 e.base)) s = .next (u.respond r 0 0 0 0).poll ∧
      u.extents = s.extents.filter (fun x => !(x.die == e.die && x.base == e.base)) ∧
      u.vatDirty = s.vatDirty.filter (fun l => !inside l) ∧ u.mem = s.mem ∧ u.cur = s.cur ∧
      (∀ n, (u.core n).dirty = (s.core n).dirty.filter (fun l => !inside l) ∧
        (u.core n).tlb = (s.core n).tlb.filter (fun x =>
          decide (e.base + e.len ≤ x.frame) || decide (x.frame + 2 ^ (16 + 13 * x.level) ≤ e.base))) ∧
      (force = false ∨ lost = [] → u.losses = s.losses ∧ u.errors = s.errors) ∧
      (force = true → lost ≠ [] → u.losses = s.losses ++ [{ die := e.die, base := e.base, lines := lost }] ∧
        (s.errors.length < 4096 → ∃ x l, u.errors = s.errors ++ [x] ∧ x.cls = 7 ∧ x.source = (if e.die then 1 else 0) ∧
          x.count = BitVec.ofNat 64 lost.length ∧ l ∈ lost ∧ (∀ m ∈ lost, l ≤ m) ∧ x.addr = BitVec.ofNat 64 (64 * l))))

/-- R47, R48, R50, R51, R52: a record written to an open port with room joins its tail; one that finds the port full or closed
counts in CMDREFUSED and a misaligned or short write in CMDBADWRITE; the 64 bytes of a write are the record of R51; a read of
the response port takes its oldest record; a response joins the port, and vector 0 is signalled when the port was empty; behind
waiting notices, or with the port full, it waits in their order (log entry 33). -/
def Obligations.HostPorts : Prop :=
  (∀ (s : State) (r : CmdRec), (s.mode = .ready ∨ s.mode = .failed ∨ s.mode = .tripped) → s.cmdPort.length < 256 →
    s.writeRecord r = { s with cmdPort := s.cmdPort ++ [r] }) ∧
  (∀ (s : State) (r : CmdRec), s.mode ≠ .off → (s.mode = .coldStart ∨ s.mode = .warmStart ∨ 256 ≤ s.cmdPort.length) →
    s.writeRecord r = { s with cmdRefused := s.cmdRefused + 1 }) ∧
  (∀ (s : State) (off len : Nat), s.mode ≠ .off →
    (off % 64 ≠ 0 ∨ len ≠ 64 → exec (.commandRecordRefused off len) s = .next { s with cmdBadWrite := s.cmdBadWrite + 1 }) ∧
    (off % 64 = 0 → len = 64 → (s.mode = .coldStart ∨ s.mode = .warmStart ∨ 256 ≤ s.cmdPort.length) →
      exec (.commandRecordRefused off len) s = .next { s with cmdRefused := s.cmdRefused + 1 })) ∧
  (∀ (s : State) (r : RespRec) (rest : List RespRec), s.mode ≠ .off → s.respPort = r :: rest →
    exec .responsePortRead s = .next { s with
      respPort := rest, hostPoison := false
      hostRead := leBytes 2 r.opcode.toNat ++ leBytes 2 r.tag.toNat ++ leBytes 1 r.part.toNat ++ leBytes 1 0 ++
        leBytes 2 r.status.toNat ++ leBytes 8 r.res0.toNat ++ leBytes 8 r.res1.toNat ++ leBytes 8 r.res2.toNat }) ∧
  (∀ s : State, s.mode ≠ .off → s.respPort = [] → ∃ t, exec .responsePortRead s = .next t ∧ t.respPort = [] ∧
    t.hostRead.take 2 = [0xFF, 0xFF] ∧ t.hostRead.length = 32) ∧
  (∀ (s : State) (r : RespRec) (rest : List RespRec), s.notices = r :: rest →
    (s.respPort.length < 256 → exec .completionNotice s = .next { s with
      notices := rest, respPort := s.respPort ++ [r], msix := if s.respPort = [] then s.msix ++ [0] else s.msix }) ∧
    (256 ≤ s.respPort.length → exec .completionNotice s = .next s)) ∧
  (∀ (s : State) (c : CmdRec) (st a b d : Nat),
    let r : RespRec := { status := BitVec.ofNat 16 st, part := c.part, tag := c.tag, opcode := c.opcode
                         res0 := BitVec.ofNat 64 a, res1 := BitVec.ofNat 64 b, res2 := BitVec.ofNat 64 d }
    (s.notices = [] → s.respPort.length < 256 → s.respond c st a b d = { s with
      respPort := s.respPort ++ [r], msix := if s.respPort = [] then s.msix ++ [0] else s.msix }) ∧
    (s.notices ≠ [] ∨ 256 ≤ s.respPort.length → s.respond c st a b d = { s with notices := s.notices ++ [r] })) ∧
  (∀ (s : State) (rest : List Turn) (bs : List Byte), s.lost = false → s.turns = .record bs :: rest →
    let u : State := { s with turns := rest }
    (bs.length = 64 → step s = .next (u.writeRecord (recordOf bs))) ∧
    (bs.length ≠ 64 → s.mode ≠ .off → step s = .next { u with cmdBadWrite := s.cmdBadWrite + 1 }) ∧
    (s.mode = .off → step s = .next u)) ∧
  (∀ r : CmdRec, recordOf (leBytes 2 r.opcode.toNat ++ leBytes 2 r.tag.toNat ++ leBytes 1 r.part.toNat ++
    leBytes 1 r.flags.toNat ++ leBytes 2 r.rsvd.toNat ++ leBytes 8 r.arg0.toNat ++ leBytes 8 r.arg1.toNat ++
    leBytes 8 r.arg2.toNat ++ leBytes 8 r.arg3.toNat ++ leBytes 8 r.arg4.toNat ++ leBytes 8 r.arg5.toNat ++
    leBytes 8 r.arg6.toNat) = r)

namespace Sys2Proof.Claims

/-- R12, R14, R45, R46: the port serves an access at once: the stack is its die's, by its own entry and the base die's register,
or the byte lies in the second tier. -/
abbrev hostServes (s : State) (port : Bool) (pa : Nat) : Prop :=
  (pa < 2 ^ 39 ∧ ((s.stack (pa / 2 ^ 36)).right port).state = .owned ∧ (s.stack (pa / 2 ^ 36)).owner = port) ∨
  (2 ^ 40 ≤ pa ∧ pa < 2 ^ 41)

/-- R14, R15: the port's die holds the stack's entry OWNED while the base die names the other die. -/
abbrev hostMirror (s : State) (port : Bool) (pa : Nat) : Prop :=
  pa < 2 ^ 39 ∧ ((s.stack (pa / 2 ^ 36)).right port).state = .owned ∧ (s.stack (pa / 2 ^ 36)).owner ≠ port

/-- R14, R178: the port holds an access: its die is handing the stack over, or the port holds an earlier one. -/
abbrev hostHolds (s : State) (port : Bool) (pa : Nat) : Prop :=
  (∃ x ∈ s.hostHeld, x.1 = port) ∨ (pa < 2 ^ 39 ∧ ((s.stack (pa / 2 ^ 36)).right port).state = .handing)

end Sys2Proof.Claims

open Sys2Proof Sys2Proof.Machine Sys2Proof.Claims

/-- R45, R46, R12, R14, R15, R178, R195: a host read or write of a stack that the port's die owns, or of the second tier,
reaches the line's bytes; of a stack that it does not own a read answers all ones with poison and a write is dropped, and
either leaves an OWNHOST record; a mirror mismatch poisons the read, whose bytes are free values, or discards the write, and
is recorded (that it raises no machine check is log entry 60). While the stack is handed over, or the port holds an earlier
access, it is held, and is served in order when the hand-over has ended. -/
def Obligations.HostMemoryAccess : Prop :=
  (∀ (s : State) (port : Bool) (pa : BitVec 52) (n : Nat), s.mode ≠ .off → s.mode ≠ .tripped →
    1 ≤ n → pa.toNat % 64 + n ≤ 64 →
    let st := pa.toNat / 2 ^ 36
    let keys := (List.range n).map (fun i => pa.toNat + i)
    (hostHolds s port pa.toNat → exec (.hostCxlMemRead port pa n) s =
      .next { s with hostHeld := s.hostHeld ++ [(port, .read pa.toNat n)] }) ∧
    (¬ hostHolds s port pa.toNat →
      (hostServes s port pa.toNat → exec (.hostCxlMemRead port pa n) s = .next { s with
        hostRead := keys.map (fun k => memRead s.mem k), hostPoison := s.poisoned (pa.toNat / 64) }) ∧
      (pa.toNat < 2 ^ 39 → ((s.stack st).right port).state = .absent → ∃ t, exec (.hostCxlMemRead port pa n) s = .next t ∧
        t.hostPoison = true ∧ t.hostRead = keys.map (fun _ => 0xFF) ∧ t.mem = s.mem ∧
        (s.errors.length < 4096 → ∃ e, t.errors = s.errors ++ [e] ∧ e.cls = 8)) ∧
      (hostMirror s port pa.toNat → ∃ t, exec (.hostCxlMemRead port pa n) s = .next t ∧ t.hostPoison = true ∧
        t.hostRead = keys.map (fun k => Config.lostByte s.free k) ∧ t.mem = s.mem ∧
        (s.errors.length < 4096 → ∃ e, t.errors = s.errors ++ [e] ∧ e.cls = 4 ∧ e.source.toNat = st ∧
          e.addr.toNat = pa.toNat))) ∧
    (∀ data : List Byte, data.length = n →
      (hostHolds s port pa.toNat → exec (.hostCxlMemWrite port pa data) s =
        .next { s with hostHeld := s.hostHeld ++ [(port, .write pa.toNat data)] }) ∧
      (¬ hostHolds s port pa.toNat →
        (hostServes s port pa.toNat → MemOk s → ∃ t, exec (.hostCxlMemWrite port pa data) s = .next t ∧
          memReadList t.mem keys = data ∧ (∀ k, k ∉ keys → memRead t.mem k = memRead s.mem k)) ∧
        (pa.toNat < 2 ^ 39 → ((s.stack st).right port).state = .absent → ∃ t,
          exec (.hostCxlMemWrite port pa data) s = .next t ∧
          t.mem = s.mem ∧ (s.errors.length < 4096 → ∃ e, t.errors = s.errors ++ [e] ∧ e.cls = 8)) ∧
        (hostMirror s port pa.toNat → ∃ t, exec (.hostCxlMemWrite port pa data) s = .next t ∧ t.mem = s.mem ∧
          (s.errors.length < 4096 → ∃ e, t.errors = s.errors ++ [e] ∧ e.cls = 4 ∧ e.source.toNat = st ∧
            e.addr.toNat = pa.toNat))))) ∧
  (∀ (s : State) (port : Bool) (pa n : Nat), s.mode = .ready → s.hostHeld = [(port, .read pa n)] → 1 ≤ n →
    pa % 64 + n ≤ 64 → hostServes s port pa → s.hostGoOn = { s with
      hostHeld := [], hostRead := (List.range n).map (fun i => memRead s.mem (pa + i)), hostPoison := s.poisoned (pa / 64) })

/-- R70 to R72, R69, R50, R1: a power restore begins a cold start; steps 1 to 8 count up, step 2 leaving the cores enabled that
pass their self-test, a free value; step 6 clears HBM and the second tier, in a warm start the parts that are scrubbed, among
them every 64 MiB region with a store not performed at the reset; step 9 answers the reset that asked
for the start and opens READY with vector 0; a step that fails in a cold start leaves FAILED, in a warm start tries again
and after three times begins a cold start; a power loss leaves OFF.
What a start keeps and clears beyond R69 to R72 is the model's choice (log entry 40). -/
def Obligations.StartAndPower : Prop :=
  (∀ s : State, s.mode = .off → ∃ t, exec .powerRestore s = .next t ∧ t.mode = .coldStart ∧ t.startStep = 0 ∧ t.mem = [] ∧
    t.poison = [] ∧ t.farms = []) ∧
  (∀ s : State, s.mode ≠ .off → exec .powerRestore s = .next s) ∧
  (∀ s : State, ∃ t, exec .powerLoss s = .next t ∧ t.mode = .off ∧ t.farms = [] ∧ t.mem = []) ∧
  (∀ (s : State) (n : Nat), (s.mode = .coldStart ∨ s.mode = .warmStart) → s.startStep = n → n < 8 → n ≠ 1 → n ≠ 4 →
    n ≠ 5 → exec (.startStepComplete true) s = .next { s with startStep := n + 1 }) ∧
  (∀ s : State, (s.mode = .coldStart ∨ s.mode = .warmStart) → s.startStep = 1 → exec (.startStepComplete true) s =
    .next { s with startStep := 2, coresOn := BitVec.ofNat 256 (Config.free s.free), free := s.free + 1 }) ∧
  (∀ s : State, s.mode = .coldStart → s.startStep = 5 →
    exec (.startStepComplete true) s = .next { s with startStep := 6, mem := [], poison := [] }) ∧
  (∀ s : State, s.mode = .warmStart → s.startStep = 5 → MemOk s → ∃ t, exec (.startStepComplete true) s = .next t ∧
    t.startStep = 6 ∧ t.mode = .warmStart ∧
    (∀ k, k < 2 ^ 41 → memRead t.mem k = memRead s.mem k ∨ memRead t.mem k = 0) ∧
    (∀ k, k < 2 ^ 41 → k / 2 ^ 26 ∈ s.scrubDue → memRead t.mem k = 0)) ∧
  (∀ s : State, (s.mode = .coldStart ∨ s.mode = .warmStart) → s.startStep = 4 →
    ∃ t, exec (.startStepComplete true) s = .next t ∧ t.startStep = 5 ∧ t.mem = s.mem ∧ t.mode = s.mode) ∧
  (∀ s : State, (s.mode = .coldStart ∨ s.mode = .warmStart) → s.startStep = 8 → s.resetResp = none →
    exec (.startStepComplete true) s = .next { s with mode := .ready, startStep := 9, warmFail := 0, msix := s.msix ++ [0] }) ∧
  (∀ (s : State) (r : CmdRec), (s.mode = .coldStart ∨ s.mode = .warmStart) → s.startStep = 8 → s.resetResp = some r →
    exec (.startStepComplete true) s = answered { s with
      mode := .ready, startStep := 9, warmFail := 0, msix := s.msix ++ [0], resetResp := none } r 0 0 0 0) ∧
  (∀ s : State, s.mode = .coldStart → ∃ t, exec .startStepTimeout s = .next t ∧ exec (.startStepComplete false) s = .next t ∧
    t.mode = .failed) ∧
  (∀ s : State, s.mode = .warmStart → s.warmFail < 2 → ∃ t, exec .startStepTimeout s = .next t ∧
    exec (.startStepComplete false) s = .next t ∧ t.mode = .warmStart ∧ t.startStep = 0 ∧ t.warmFail = s.warmFail + 1) ∧
  (∀ s : State, s.mode = .warmStart → 2 ≤ s.warmFail → ∃ t, exec .startStepTimeout s = .next t ∧
    exec (.startStepComplete false) s = .next t ∧ t.mode = .coldStart ∧ t.startStep = 0) ∧
  (∀ (s : State) (r : CmdRec), Accepts s (.resetWarm r) → ∃ t, exec (.resetWarm r) s = .next t ∧ t.mode = .warmStart ∧
    t.startStep = 0 ∧ t.resetResp = some r ∧ t.farms = [] ∧ t.patch = s.patch ∧
    (∀ u ∈ s.strands, u.life ≠ .unused → ∀ b ∈ u.sbuf, ∀ k ∈ b.keys, k / 2 ^ 26 ∈ t.scrubDue)) ∧
  (∀ (s : State) (r : CmdRec), (s.mode = .ready ∨ s.mode = .failed) → r.rsvd = 0 → r.flags = 0 → r.part = 0 →
    (∀ w ∈ words r, w = 0) → ∃ t, exec (.resetCold r) s = .next t ∧ t.mode = .coldStart ∧ t.startStep = 0 ∧
    t.resetResp = some r ∧ t.farms = [] ∧ t.patch = none)

/-- R16, R17, R19, R21: a slot serves its owner when that is ready, else, when the owner donates or the slot has none, the
next ready donor in table order, else nobody; a new table and DONATE take effect at the pass of slot 0;
only an idle slot lets scrub read a beat, the next one of a pass that SCRUB asked for or else the patrol's, and ends STARVED; a
starved scrub is recorded. The power measured is a
free value: a sensor at its limit or power over the cap lowers the die's clock one step; at the lowest step the module trips if
the limit is exceeded; the clock rises when neither holds.
Free power, a trip at the lowest step for a sensor alone, and the patrol's draw are the model's (log entries 3 and 57); that
DONATE takes effect at the pass of slot 0 is read as log entry 39 says. -/
def Obligations.SlotsAndClock : Prop :=
  (∀ (s : State) (n : BitVec 3) (pch : Reg) (slot : BitVec 6) (ready : BitVec 8),
    (slot = 0 → (s.stack n.toNat).newDonate = none ∧ ∀ x ∈ (s.stack n.toNat).newTables, x.1 ≠ pch.toNat) → ∃ t,
    exec (.slotService n pch slot ready) s = .next t ∧
    (∀ o, slotOwner ((s.stack n.toNat).table pch.toNat) slot.toNat = some o → ready.getLsbD o = true →
      (t.stack n.toNat).served = some (BitVec.ofNat 3 o)) ∧
    (∀ o, slotOwner ((s.stack n.toNat).table pch.toNat) slot.toNat = some o → ready.getLsbD o = false →
      (s.stack n.toNat).donate.getLsbD o = false → (t.stack n.toNat).served = none) ∧
    (∀ j c : Nat, 1 ≤ j → j ≤ 63 → slotOwner ((s.stack n.toNat).table pch.toNat) (slot.toNat + j) = some c →
      (s.stack n.toNat).donate.getLsbD c = true → ready.getLsbD c = true →
      (∀ i a : Nat, 1 ≤ i → i < j → slotOwner ((s.stack n.toNat).table pch.toNat) (slot.toNat + i) = some a →
        (s.stack n.toNat).donate.getLsbD a = false ∨ ready.getLsbD a = false) →
      (∀ o, slotOwner ((s.stack n.toNat).table pch.toNat) slot.toNat = some o →
        ready.getLsbD o = false ∧ (s.stack n.toNat).donate.getLsbD o = true) →
      (t.stack n.toNat).served = some (BitVec.ofNat 3 c)) ∧
    ((∀ o, slotOwner ((s.stack n.toNat).table pch.toNat) slot.toNat = some o → ready.getLsbD o = false) →
      (∀ j c : Nat, 1 ≤ j → j ≤ 63 → slotOwner ((s.stack n.toNat).table pch.toNat) (slot.toNat + j) = some c →
        (s.stack n.toNat).donate.getLsbD c = false ∨ ready.getLsbD c = false) → (t.stack n.toNat).served = none) ∧
    (ready = 0 → (t.stack n.toNat).served = none) ∧ (∀ m, m ≠ n.toNat → t.stack m = s.stack m) ∧ t.mem = s.mem ∧
    ((t.stack n.toNat).served ≠ none → t = s.modStack n.toNat (fun k => { k with served := (t.stack n.toNat).served })) ∧
    (let k := s.stack n.toNat
     let x := sget (0, 0) k.pass pch.toNat
     (t.stack n.toNat).served = none → (t.stack n.toNat).starved.getLsbD pch.toNat = false ∧
      (x.2 = 0 → (t.stack n.toNat).pass = k.pass ∧ (swf (fun _ => (0 : Nat)) none k.patrol = true →
        sget 0 (t.stack n.toNat).patrol pch.toNat = (sget 0 k.patrol pch.toNat + 1) % 2 ^ 25)) ∧
      (x.2 ≠ 0 → (t.stack n.toNat).patrol = k.patrol ∧ (swf (fun _ => ((0, 0) : Nat × Nat)) none k.pass = true →
        sget (0, 0) (t.stack n.toNat).pass pch.toNat = if x.2 = 1 then (0, 0) else (x.1 + 1, x.2 - 1))))) ∧
  (∀ (s : State) (n : BitVec 3) (pch : Reg) (x : BitVec 256) (d : BitVec 8), (s.stack n.toNat).tables = [] →
    (s.stack n.toNat).newTables = [(pch.toNat, x)] → (s.stack n.toNat).newDonate = some d → ∃ t,
    exec (.slotService n pch 0 0) s = .next t ∧ (t.stack n.toNat).table pch.toNat = x ∧ (t.stack n.toNat).donate = d ∧
    (t.stack n.toNat).newTables = [] ∧ (t.stack n.toNat).newDonate = none) ∧
  (∀ (s : State) (n : BitVec 3) (pch : Reg), ∃ t, exec (.scrubStarved n pch) s = .next t ∧
    (t.stack n.toNat).starved.getLsbD pch.toNat = true ∧ (t.stack n.toNat).owner = (s.stack n.toNat).owner) ∧
  (∀ (s : State) (die : Bool) (sensor : BitVec 3) (temp : BitVec 16), s.mode = .ready →
    ((s.sensors.getD sensor.toNat { temp := 0, limit := 0 }).limit.toNat ≤ temp.toNat ∨
      s.powerCap.toNat < Config.free s.free % 2 ^ 16) →
    s.clockDown die < 8 → ∃ t, exec (.throttle die sensor temp) s = .next t ∧ t.clockDown die = s.clockDown die + 1 ∧
      t.clockDown (!die) = s.clockDown (!die) ∧ t.mode = .ready) ∧
  (∀ (s : State) (die : Bool) (sensor : BitVec 3) (temp : BitVec 16), s.mode = .ready →
    temp.toNat < (s.sensors.getD sensor.toNat { temp := 0, limit := 0 }).limit.toNat →
    Config.free s.free % 2 ^ 16 ≤ s.powerCap.toNat →
    ∃ t, exec (.throttle die sensor temp) s = .next t ∧ t.clockDown die = s.clockDown die ∧ t.mode = .ready) ∧
  (∀ (s : State) (die : Bool) (sensor : BitVec 3) (temp : BitVec 16), s.mode = .ready →
    8 ≤ s.clockDown die →
    ((s.sensors.getD sensor.toNat { temp := 0, limit := 0 }).limit.toNat < temp.toNat →
      ∃ t, exec (.throttle die sensor temp) s = .next t ∧ t.mode = .tripped ∧ t.farms = []) ∧
    (temp.toNat ≤ (s.sensors.getD sensor.toNat { temp := 0, limit := 0 }).limit.toNat →
      ∃ t, exec (.throttle die sensor temp) s = .next t ∧ t.mode = .ready ∧ t.clockDown die = s.clockDown die)) ∧
  (∀ (s : State) (die : Bool), (∀ x ∈ s.sensors.toList, x.temp.toNat < x.limit.toNat) →
    Config.free s.free % 2 ^ 16 ≤ s.powerCap.toNat →
    0 < s.clockDown die → ∃ t, exec (.clockStepUp die) s = .next t ∧ t.clockDown die = s.clockDown die - 1)

namespace Sys2Proof.Claims

/-! ### Accumulators, halts, timers, errors, links, reset, decoding and steps -/

/-- R325: a cleared accumulator: every element, CKROW and CKCOL +0, CKV 1, ROWPROG 64. -/
def cleared (a : Tile) : Tile := { a with elems := [], ckrow := [], ckcol := [], ckv := true, rowprog := 64 }

end Sys2Proof.Claims

open Sys2Proof Sys2Proof.Machine Sys2Proof.Claims

/-- R325, R340: the step of a `tcfg` clears its accumulator and gives it the captured shape, of a `tzero` clears it and
keeps its shape, of an `oqinit` fills every field of its accumulator; memory, SUSPECT and the other accumulators stay. -/
def Obligations.AccumulatorSteps : Prop :=
  (∀ (s : State) (e : VEntry) (op : VOp) (acc : BitVec 3) (a : Tile), RowRuns s e op →
    e.prog = 0 → e.rowprog = 0 → s.cur.tiles[acc.toNat]? = some a →
    e.instr = .tcfg acc ∨ e.instr = .tzero acc → ∃ t, exec (.matrixEngineStep s.cur.key) s = .next t ∧
      (e.instr = .tcfg acc → t.cur.tiles[acc.toNat]? = some { cleared a with
        m := BitVec.ofNat 7 (e.caps.tshape.toNat % 128), n := BitVec.ofNat 7 (e.caps.tshape.toNat / 256 % 128) }) ∧
      (e.instr = .tzero acc → t.cur.tiles[acc.toNat]? = some (cleared a)) ∧
      (∀ j, j ≠ acc.toNat → t.cur.tiles[j]? = s.cur.tiles[j]?) ∧ t.cur.ctl.suspect = s.cur.ctl.suspect ∧
      t.mem = s.mem ∧ t.cur.orths = s.cur.orths) ∧
  (∀ (s : State) (e : VEntry) (op : VOp) (q : BitVec 1) (d a b : Reg) (m : BitVec 3) (n : BitVec 14) (cap : BitVec 6)
      (pol : BitVec 2), LineRuns s e op → e.prog = 0 → q.toNat < s.cur.orths.length → e.instr = .oqinit q d a b m n cap pol →
    ∃ t, exec (.orthogonalLineStep s.cur.key) s = .next t ∧ t.mem = s.mem ∧ t.cur.tiles = s.cur.tiles ∧
      (∀ j, j ≠ q.toNat → t.cur.orths[j]? = s.cur.orths[j]?) ∧
      t.cur.orths[q.toNat]? = some {
        n := BitVec.ofNat 10 n.toNat, fp64 := decide (e.caps.vtype.toNat / 8 % 16 = 0), k := 0
        cap := if cap = 0 then 32 else cap, pol := pol, v := [], t := [], bva := BitVec.ofNat 55 e.caps.ga.toNat
        bstride := BitVec.ofNat 32 e.caps.gb.toNat, bcols := BitVec.ofNat 16 (e.caps.gb.toNat / 2 ^ 32)
        bpin := BitVec.ofNat 3 (e.caps.gb.toNat / 2 ^ 48), bside := BitVec.ofNat 2 (e.caps.gb.toNat / 2 ^ 56)
        lva := BitVec.ofNat 55 (e.caps.gd.toNat % 2 ^ 48), lpin := m, lcount := 0
        lmax := if m = 0 then 0 else BitVec.ofNat 16 (e.caps.gd.toNat / 2 ^ 48) })

/-- R87, R199, R352, R353, R361: HALT_REQUEST marks a running strand of a halting farm on its core; STRAND_HALT stops a marked
strand at its pc, or past a `yield` whose stall is over; TAKE_TRAP takes a due trap unless a halt
request goes first; in deterministic mode it waits until every earlier result is known; WAIT_TIMEOUT and YIELD_EXPIRY end the
wait they belong to; each leaves the module alone when it has nothing to do.
A `yield` halted and the trap that waits are read as log entries 36 and 55 say. -/
def Obligations.HaltAndWaitSteps : Prop :=
  (∀ (s : State) (core : BitVec 8), s.others = [] →
    (s.cur.coreNo = core.toNat → s.mustHalt s.cur = true →
      exec (.haltRequest core) s = .next { s with cur := { s.cur with haltReq := true } }) ∧
    (s.cur.coreNo ≠ core.toNat ∨ s.mustHalt s.cur = false → exec (.haltRequest core) s = .next s)) ∧
  (∀ s : State, s.cur.life = .running → s.cur.haltReq = true → Quiet s → s.cur.sbuf = [] →
    (s.cur.pause = .none → exec (.strandHalt s.cur.key) s = .next { s with cur := { s.cur with
      life := .halted, haltReq := false, stalled := false } }) ∧
    (s.cur.pause = .yielded → exec (.strandHalt s.cur.key) s = .next { s with cur := { s.cur with
      life := .halted, haltReq := false, stalled := false, pause := .none, pc := s.cur.pc + 4 } }) ∧
    (∀ f p, s.cur.pause = .arrived f p → exec (.strandHalt s.cur.key) s = .next { s with cur := { s.cur with
      life := .halted, haltReq := false, stalled := false } })) ∧
  (∀ s : State, s.cur.exists_ = true → s.cur.haltReq = false → exec (.strandHalt s.cur.key) s = .next s) ∧
  (∀ s : State, s.cur.life = .running →
    (s.cur.trapDue = true → s.cur.haltReq = false → s.cur.dueSettled = true →
      exec (.takeTrap s.cur.key) s = .next (s.takeTrap (scalarTrap 0 0 0))) ∧
    (s.cur.trapDue = false ∨ s.cur.haltReq = true ∨ s.cur.dueSettled = false → exec (.takeTrap s.cur.key) s = .next s)) ∧
  (∀ s : State, s.cur.exists_ = true →
    (s.cur.pause = .waiting true →
      exec (.waitTimeout s.cur.key) s = .next { s with cur := { s.cur with latch := s.cur.latch ||| 1 } }) ∧
    (s.cur.pause ≠ .waiting true → exec (.waitTimeout s.cur.key) s = .next s) ∧
    (∀ n, s.cur.pause = .yielding n →
      exec (.yieldExpiry s.cur.key) s = .next { s with cur := { s.cur with pause := .yielded } }) ∧
    ((∀ n, s.cur.pause ≠ .yielding n) → exec (.yieldExpiry s.cur.key) s = .next s))

namespace Sys2Proof.Claims

/-- R85, R206: the key of a byte of the current strand's save area. -/
def areaKey (s : State) (f : Farm) (off : Nat) : Nat :=
  let x := s.cur.saveVa % 2 ^ 16 + s.cur.logid * 2 ^ 20 + off
  f.frames.getD (x / 2 ^ 16) 0 + x % 2 ^ 16

/-- n bytes of the area, as a number. -/
def areaNat (s : State) (f : Farm) (m : Memory) (off n : Nat) : Nat :=
  leNat (memReadList m ((List.range n).map (fun i => areaKey s f (off + i))))

/-- R85, R209: the area's bytes are its own, and the core's writes reach them. -/
abbrev areaReached (s : State) (f : Farm) : Prop :=
  (∀ off, off < 2 ^ 20 → s.saveCheck s.cur .write off = .ok (areaKey s f off)) ∧
  (∀ a b, a < 2 ^ 20 → b < 2 ^ 20 → areaKey s f a = areaKey s f b → a = b)

/-- R98, R120, R125, R127: the strand holds no more than its parts can, so that its area holds it. -/
abbrev areaFits (t : Strand) : Prop :=
  t.lgw ≤ 32 ∧ t.ctl.vl.toNat ≤ 32768 ∧ t.viq.length ≤ 32 ∧ ∀ o ∈ t.orths, o.k.toNat ≤ 32 ∧ o.n.toNat ≤ 512

/-- R206: the header of an area. -/
def areaHeader (t : Strand) : Nat :=
  1 + 2 ^ 8 * (if t.lgw ≤ 8 then 0 else if t.lgw ≤ 16 then 1 else 2) + 2 ^ 10 * (if t.level = .kernel then 1 else 0) +
  2 ^ 11 * (if t.inHandler then 1 else 0) + 2 ^ 12 * t.viq.length + 2 ^ 18 * t.frozen + 2 ^ 24 * t.rq.length +
  2 ^ 28 * (if t.pause = .counted then 1 else 0) +
  2 ^ 29 * (match t.pause with | .arrived _ _ => 1 | _ => 0) + 2 ^ 32 * t.farm

/-- R78: a farm stands at the level that another rises to: ready, of its partition and owner die. -/
abbrev agesWith (f g : Farm) : Prop :=
  g.ready = true ∧ g.state = .queued ∧ g.part = f.part ∧ g.fd.owner = f.fd.owner ∧ g.prio = f.prio + 1

/-- R206: bytes of vector register n that the area holds: those below VL elements of its group. -/
def areaBytes (t : Strand) (n : Nat) : Nat :=
  Nat.min (128 * t.lgw) (t.ctl.vl.toNat * vtSew t.ctl.vtype / 8 - (n % vtGroup t.ctl.vtype) * (128 * t.lgw))

end Sys2Proof.Claims

open Sys2Proof Sys2Proof.Machine Sys2Proof.Claims

/-- R14, R78, R86, R88, R92, R118, R206 to R208: STRAND_SAVE of a halted strand whose farm is to be HELD writes its area:
header, pc, g registers, vector registers at their architectural values and a record for each VIQ entry, and no byte outside
the area; the strand is saved with its registers and pins, the farm HELD, and the command answered with one strand saved.
While part of the area lies on a stack that the die is handing over it waits; without a halted strand it changes nothing.
PRIORITY_AGING raises a ready queued farm of a partition with an age limit by one level, behind those there that became
ready before it, and counts the age of a running one; QUOTA_PERIOD starts a die's accounting again; LANE_POWER_UP makes a
lane ready; then the dispatchers look for a farm to launch. That use of a quota is a free value, and what is kept beside the
area, are read as log entries 13 and 16 say. -/
def Obligations.DispatcherSteps : Prop :=
  ((∀ (s : State) (core : BitVec 8) (f : Farm) (r : CmdRec), s.others = [] → s.farms = [f] → f.id = s.cur.farm →
    f.state = .running → f.halting = .hold r → s.cur.life = .halted → s.cur.coreNo = core.toNat →
    (s.saveHeld s.cur = true → exec (.strandSave core) s = .next s) ∧
    (areaReached s f → areaFits s.cur → MemOk s → ∃ u : State,
      exec (.strandSave core) s = .next (u.respond r 0 1 0 0) ∧ u.farms = [{ f with
        state := .held, ready := false, halting := .no }] ∧ u.others = [] ∧ u.cur.life = .saved ∧ u.cur.viq = [] ∧
      u.cur.rq = [] ∧ u.cur.g = s.cur.g ∧ u.cur.pc = s.cur.pc ∧
      (∀ k, 1 ≤ k → k < 8 → u.cur.pins.getD k Pin.idle = { s.cur.pins.getD k Pin.idle with xfirst := 0 }) ∧
      areaNat s f u.mem 0 8 = areaHeader s.cur % 2 ^ 64 ∧ areaNat s f u.mem 8 8 = s.cur.pc.toNat ∧
      (∀ n, 1 ≤ n → n < 32 → areaNat s f u.mem (0x10 + 8 * (n - 1)) 8 = (s.cur.getG (BitVec.ofNat 5 n)).toNat) ∧
      (∀ n, n < 32 → areaNat s f u.mem (0x20000 + 4096 * n) (areaBytes s.cur n) =
        (s.cur.architectural.v.getD n 0).toNat % 2 ^ (8 * areaBytes s.cur n)) ∧
      (∀ n e k, s.cur.viq[n]? = some e → k < 16 →
        areaNat s f u.mem (0x1000 + 128 * n + 8 * k) 8 = (recordWords e).getD k 0 % 2 ^ 64) ∧
      (∀ j, (∀ off, off < 2 ^ 20 → areaKey s f off ≠ j) → memRead u.mem j = memRead s.mem j)))) ∧
  ((∀ (s : State) (core : BitVec 8), s.others = [] → s.farms = [] →
    (s.cur.life ≠ .halted ∨ s.cur.coreNo ≠ core.toNat → exec (.strandSave core) s = .next s)) ∧
  (∀ (s : State) (n : Nat) (f : Farm) (p : Part), s.farm? n = some f → s.part? f.part.toNat = some p →
    (f.state = .queued → f.ready = true → p.ageLimit ≠ 0 → f.prio < 7 → ∃ u : State,
      exec (.priorityAging n) s = .next u.poll ∧ u.cur = s.cur ∧ u.mem = s.mem ∧
      (∀ g, g ∈ s.farms → g.id ≠ n → ∃ o, { g with order := o } ∈ u.farms ∧ (o = g.order ∨ o = g.order + 1)) ∧
      (∀ f', u.farm? n = some f' → f' = { f with aged := f.aged + 1, order := f'.order } ∧
        ∀ g ∈ u.farms, g.id ≠ n → agesWith f g → (g.readyAt < f.readyAt → g.order < f'.order) ∧
          ((∀ h ∈ s.farms, h.id ≠ n → agesWith f h → f.readyAt ≤ h.readyAt) → f'.order < g.order))) ∧
    (f.state = .running → p.ageLimit ≠ 0 → f.prio < 7 → exec (.priorityAging n) s = .next { s with
      farms := s.farms.map (fun x => if x.id = n then { x with aged := x.aged + 1 } else x) }) ∧
    ((f.state ≠ .queued ∨ f.ready = false) ∧ f.state ≠ .running ∨ p.ageLimit = 0 ∨ 7 ≤ f.prio →
      exec (.priorityAging n) s = .next s)) ∧
  (∀ (s : State) (die : Bool), exec (.quotaPeriod die) s = .next (State.poll { s with
    quota := s.quota.filter (fun x => decide (8 ≤ x.1) != die) })) ∧
  (∀ (s : State) (core : BitVec 8) (lane : BitVec 5), exec (.lanePowerUp core lane) s = .next (State.poll { s with
    cores := sset Core.reset s.cores core.toNat { s.core core.toNat with
      waking := (s.core core.toNat).waking.filter (fun l => l != lane.toNat) } })) ∧
  (∀ s : State, s.farms = [] → s.poll = s))

/-- R20, R64, R113, R115, R133, R197: MEMORY_ERROR in HBM or the second tier leaves a CORRECTED record, or a poisoned line and an
UNCORRECTABLE record; SOFT_ERROR of a fixable row is counted, of a stage has no effect, of a lost row marks its newest version,
in the register file or at the queued entry that has written it, and of one that a halted strand's entry reads next records its
machine check there (R203), of an L1 line poisons it and makes a machine check due on the core's running strands, which CHKCNT
counts.
Versions of rows are read as log entry 18 says; that COUNT of a new record is 1 is the model's choice (log entry 57). -/
def Obligations.ErrorSteps : Prop :=
  (∀ (s : State) (pa : BitVec 52), s.errors.length < 4096 →
    (pa.toNat < 2 ^ 39 ∨ (0x10000000000 ≤ pa.toNat ∧ pa.toNat < 0x20000000000)) →
    (∃ t e, exec (.memoryError pa true) s = .next t ∧ t.mem = s.mem ∧ t.poison = s.poison ∧ t.errors = s.errors ++ [e] ∧
      e.cls = 1 ∧ e.addr.toNat = pa.toNat ∧ e.count = 1 ∧ t.cur = s.cur ∧
      (pa.toNat < 2 ^ 39 → e.source.toNat = pa.toNat / 2 ^ 36 ∧
        (t.stack (pa.toNat / 2 ^ 36)).corrected = (s.stack (pa.toNat / 2 ^ 36)).corrected + 1)) ∧
    (∃ t e, exec (.memoryError pa false) s = .next t ∧ t.mem = s.mem ∧ t.poisoned (pa.toNat / 64) = true ∧
      t.errors = s.errors ++ [e] ∧ e.cls = 2 ∧ e.addr.toNat = pa.toNat ∧ t.cur = s.cur ∧
      (∀ l, l ≠ pa.toNat / 64 → t.poisoned l = s.poisoned l))) ∧
  (∀ (s : State) (key g : Nat) (seq : BitVec 32), exec (.softError (.stage key seq g)) s = .next s) ∧
  (∀ (s : State) (row g : Nat), s.cur.exists_ = true → Canonical s → ∃ t,
    exec (.softError (.rowFixable s.cur.key row g)) s = .next t ∧ t.cur = s.cur ∧ t.mem = s.mem ∧
    (t.core s.cur.coreNo).fixed = (s.core s.cur.coreNo).fixed + 1 ∧ (∀ n, n ≠ s.cur.coreNo → t.core n = s.core n)) ∧
  (∀ (s : State) (reg g : Nat), s.cur.exists_ = true → reg < 32 → g < 8 * s.cur.lgw →
    s.cur.versionOf none (reg, g) = none → (reg, g) ∉ s.cur.badRows →
    let u : Strand := { s.cur with badRows := (reg, g) :: s.cur.badRows }
    (s.cur.life = .running → exec (.softError (.rowLost s.cur.key reg g)) s = .next { s with cur := u }) ∧
    (s.cur.life = .halted → s.cur.producerHeld none (reg, g) = true ∨ s.cur.concerned none (reg, g) = none →
      exec (.softError (.rowLost s.cur.key reg g)) s = .next { s with cur := u }) ∧
    (∀ e n, s.cur.life = .halted → s.cur.producerHeld none (reg, g) = false → s.cur.concerned none (reg, g) = some (e, n) →
      exec (.softError (.rowLost s.cur.key reg g)) s = .next { s with cur := (u.modEntry e.seq (fun x =>
        x.addFault { cause := 0x12, elem := n, addr := 0, info := 1 })).countCheck }) ∧
    (s.cur.life = .saved → exec (.softError (.rowLost s.cur.key reg g)) s = .next s)) ∧
  (∀ (s : State) (reg g : Nat) (q : BitVec 32), s.cur.exists_ = true → reg < 32 → g < 8 * s.cur.lgw → s.cur.life = .running →
    s.cur.versionOf none (reg, g) = some q → (∀ e ∈ s.cur.viq, e.seq = q → (reg, g) ∉ e.bad) →
    exec (.softError (.rowLost s.cur.key reg g)) s = .next { s with cur := { s.cur with
      viq := s.cur.viq.map (fun e => if e.seq = q then { e with bad := (reg, g) :: e.bad } else e) } }) ∧
  (∀ (s : State) (seq : BitVec 32) (g flip : Nat) (vote : Bool), s.cur.exists_ = true →
    exec (.softError (.lane s.cur.key seq g flip vote)) s = .next { s with cur := { s.cur with
      viq := s.cur.viq.map (fun e => if e.seq = seq then { e with
        inflight := e.inflight.map (fun r => if r.g = g then { r with flip := some (flip, vote) } else r) } else e) } }) ∧
  (∀ (s : State) (core : BitVec 8) (line : Nat), s.cur.life = .running → s.cur.coreNo = core.toNat →
    ∃ t, exec (.softError (.l1Line core line)) s = .next t ∧ t.mem = s.mem ∧ t.poisoned line = true ∧
      t.cur = { s.cur.countCheck with mcheck := some { cause := 0x12, vec := false, seq := 0, elem := 0, addr := 0, info := 3 } })

namespace Sys2Proof.Claims

/-- The link with one more flit received. -/
def heard (s : State) (n : BitVec 6) : State :=
  { s with links := s.links.setIfInBounds n.toNat { s.link n.toNat with received := (s.link n.toNat).received + 1 } }

/-- R24, R25: a KIND 1 flit, or a flit that one of the receiving steps takes. -/
abbrev takes (f : Flit) : (BitVec 6 → Flit → Instr) → Prop := fun c =>
  (c = Instr.dataFlit ∧ f.kind ≠ 1) ∨ (c = Instr.barrierMessage ∧ f.kind = 2) ∨ (c = Instr.collectiveData ∧ f.kind = 3) ∨
  (c = Instr.commandAnnouncement ∧ f.kind = 4 ∧ (ctlOf f.payload).kind = 1) ∨
  (c = Instr.completionStatus ∧ f.kind = 4 ∧ (ctlOf f.payload).kind = 2) ∨
  (c = Instr.barrierCommandArrival ∧ f.kind = 4 ∧ (ctlOf f.payload).kind = 3)

/-- A flit as another link carries it: another label, the check made anew, SEQ and payload as they were (R24). -/
def onward (f : Flit) (label : BitVec 12) : Flit := { f with flow := label, crc := flitCrc { f with flow := label } }

/-- The flow that ends at the die of a link, for a flit that came in on it, when its route leads there (R24). -/
abbrev endsHere (s : State) (link : BitVec 6) (f : Flit) (r : Route) : Prop :=
  s.route? (decide (18 ≤ link.toNat)) (BitVec.ofNat 5 (link.toNat % 18)) f.flow = some r ∧ r.primary = 31

/-- A flit in order for a flow, by SEQ (R29). -/
def aheadBy (s : State) (link : BitVec 6) (f : Flit) (r : Route) : Nat :=
  (f.seq - (s.rx (decide (18 ≤ link.toNat)) r.outFlow).expected).toNat

end Sys2Proof.Claims

namespace Sys2Proof.Claims

/-- R27, R29: the module once a flit is the next of its flow: the flow expects the one after it. -/
def inOrder (s : State) (link : BitVec 6) (r : Route) : State :=
  let die := decide (18 ≤ link.toNat)
  { heard s link with rxFlows := s.rxFlows.filter (fun y => !(y.die == die && y.flow == r.outFlow)) ++
      [{ s.rx die r.outFlow with expected := (s.rx die r.outFlow).expected + 1, bad := false }] }

/-- R26: its acknowledgement goes back on its link, up to the last SEQ delivered. -/
def acknowledging (u : State) (link : BitVec 6) (f : Flit) (r : Route) : State :=
  { u with wire := u.wire ++ [(link, makeFlit ((u.rx (decide (18 ≤ link.toNat)) r.outFlow).expected - 1) f.flow 1 [0])] }

/-- A good flit, next in order of a flow that ends at the die, none of which is held out of order. -/
abbrev nextInOrder (s : State) (link : BitVec 6) (f : Flit) (r : Route) : Prop :=
  (s.link link.toNat).state = .up ∧ badCheck f = false ∧ endsHere s link f r ∧ aheadBy s link f r = 0 ∧
  (s.rx (decide (18 ≤ link.toNat)) r.outFlow).window = []

/-- R25: communicator, command number and rank at the head of a collective payload. -/
def payloadComm (p : List Byte) : BitVec 16 := BitVec.ofNat 16 (leNat (p.take 2))
def payloadK (p : List Byte) : BitVec 32 := BitVec.ofNat 32 (leNat ((p.drop 2).take 4))
def payloadRank (p : List Byte) : Nat := leNat ((p.drop 6).take 2)

/-- The die has taken the command that a payload speaks of. -/
abbrev Taken (s : State) (die : Bool) (p : List Byte) (c : CollCmd) : Prop :=
  s.colls.find? (fun x => x.die == die && x.comm == payloadComm p && x.k == payloadK p) = some c

/-- The command with news of it. -/
def renewed (s : State) (c : CollCmd) : State :=
  { s with colls := s.colls.map (fun x => if x.die == c.die && x.comm == c.comm && x.k == c.k then c else x) }

end Sys2Proof.Claims

open Sys2Proof Sys2Proof.Machine Sys2Proof.Claims

/-- R24 to R27, R29, R36, R38, R314: a flit on a link that is not up is lost; one whose check fails counts against its link,
is not delivered and is remembered where its flow ends; a good one on the way goes out on the route's link under the route's
label; at its die one delivered before is acknowledged again, one more than 4,096 ahead is dropped, one ahead is kept, and
answered with a NAK when it opens a gap or follows a failed flit; one in order is delivered and acknowledged. A barrier
message arrives at its barrier. Collective data joins its rank's contribution; an announcement or a barrier arrival joins
the records seen: once all are there and agree a BARRIER completes OK with one arrival at its own barrier, and ranks that
differ fail BADCMD. A status joins those of the ranks; a failing one that meets a command still at work is this rank's own
too, told to the others; with the statuses of all ranks the command ends OK, or with the failing one of the lowest rank, and
LINKDOWN ends it at once. A payload for a command not yet taken waits, and the first failing status among them is answered;
one for a command that has ended has no effect. The acknowledgement's form and the layout of data payloads, and the way the
ranks agree, are the model's (log entries 11 and 20). -/
def Obligations.LinkReceive : Prop :=
  ((∀ (s : State) (link : BitVec 6) (f : Flit) (c : BitVec 6 → Flit → Instr), takes f c →
    ((s.link link.toNat).state ≠ .up → exec (c link f) s = .next s) ∧
    ((s.link link.toNat).state = .up → f.crc ≠ flitCrc f → ∃ t, exec (c link f) s = .next t ∧ t.mem = s.mem ∧
      t.barriers = s.barriers ∧ (∀ die flow, (t.rx die flow).expected = (s.rx die flow).expected ∧
        (t.rx die flow).window = (s.rx die flow).window) ∧
      (∀ r, endsHere s link f r → (t.rx (decide (18 ≤ link.toNat)) r.outFlow).bad = true) ∧
      (link.toNat < 36 → (t.link link.toNat).crcErrors = (s.link link.toNat).crcErrors + 1)) ∧
    ((s.link link.toNat).state = .up → badCheck f = false →
      (∀ r l, s.route? (decide (18 ≤ link.toNat)) (BitVec.ofNat 5 (link.toNat % 18)) f.flow = some r → r.primary ≠ 31 →
        s.pickLink (decide (18 ≤ link.toNat)) r = some l → exec (c link f) s =
          .next { heard s link with wire := s.wire ++ [(l, onward f r.outFlow)] }) ∧
      (∀ r, endsHere s link f r → (s.rx (decide (18 ≤ link.toNat)) r.outFlow).bad = false →
        2 ^ 31 ≤ aheadBy s link f r → exec (c link f) s =
        .next { heard s link with wire := s.wire ++ [(link, makeFlit
          ((s.rx (decide (18 ≤ link.toNat)) r.outFlow).expected - 1) f.flow 1 [0])] }) ∧
      (∀ r, endsHere s link f r → (s.rx (decide (18 ≤ link.toNat)) r.outFlow).bad = false →
        aheadBy s link f r < 2 ^ 31 → 4096 < aheadBy s link f r →
        exec (c link f) s = .next (heard s link)) ∧
      (∀ r, endsHere s link f r → 1 ≤ aheadBy s link f r → aheadBy s link f r ≤ 4096 →
        s.windowUse (decide (18 ≤ link.toNat)) < 32768 →
        (∀ g ∈ (s.rx (decide (18 ≤ link.toNat)) r.outFlow).window, g.seq ≠ f.seq) →
        let x := s.rx (decide (18 ≤ link.toNat)) r.outFlow
        ∃ t, exec (c link f) s = .next t ∧ t.mem = s.mem ∧ t.barriers = s.barriers ∧
          t.rx (decide (18 ≤ link.toNat)) r.outFlow = { x with window := x.window ++ [f], bad := false } ∧
          t.wire = s.wire ++ (if x.window = [] ∨ x.bad = true then [(link, makeFlit x.expected f.flow 1 [1])] else [])) ∧
      (∀ r, endsHere s link f r → aheadBy s link f r = 0 → f.kind = 0 →
        (s.rx (decide (18 ≤ link.toNat)) r.outFlow).window = [] → ∃ t, exec (c link f) s = .next t ∧ t.mem = s.mem ∧
          t.rx (decide (18 ≤ link.toNat)) r.outFlow =
            { s.rx (decide (18 ≤ link.toNat)) r.outFlow with expected := f.seq + 1, bad := false } ∧
          t.wire = s.wire ++ [(link, makeFlit f.seq f.flow 1 [0])]))) ∧
  (∀ (s : State) (link : BitVec 6) (f : Flit), f.kind = 1 → exec (.dataFlit link f) s = .next s)) ∧
  ((∀ (s : State) (link : BitVec 6) (f : Flit) (r : Route), nextInOrder s link f r →
    let die := decide (18 ≤ link.toNat)
    let u := inOrder s link r
    (f.kind = 2 → exec (.barrierMessage link f) s = .next (acknowledging
      (u.arrive (decide (f.payload.headD 0 ≠ 0)) (leNat ((f.payload.drop 1).take 2) % 4096)).1 link f r)) ∧
    (f.kind = 3 → exec (.collectiveData link f) s = .next (acknowledging (u.collReceive die 3 f.payload) link f r)) ∧
    (f.kind = 4 → (ctlOf f.payload).kind = 1 →
      exec (.commandAnnouncement link f) s = .next (acknowledging (u.collReceive die 4 f.payload) link f r)) ∧
    (f.kind = 4 → (ctlOf f.payload).kind = 2 →
      exec (.completionStatus link f) s = .next (acknowledging (u.collReceive die 4 f.payload) link f r)) ∧
    (f.kind = 4 → (ctlOf f.payload).kind = 3 →
      exec (.barrierCommandArrival link f) s = .next (acknowledging (u.collReceive die 4 f.payload) link f r))) ∧
  (∀ (s : State) (die : Bool) (kind : BitVec 4) (p : List Byte), (∀ c, ¬ Taken s die p c) →
    let next := sget 0 s.collCount ((if die then 65536 else 0) + (payloadComm p).toNat)
    let kept : State := { s with collEarly := s.collEarly ++ [{ die := die, kind := kind, payload := p }] }
    let a := ctlOf p
    (next = payloadK p ∨ seqLt next (payloadK p) = true →
      (kind ≠ 4 ∨ a.kind ≠ 2 ∨ a.status = 0 ∨ a.status = 5 → s.collReceive die kind p = kept) ∧
      (∀ rank, kind = 4 → a.kind = 2 → a.status ≠ 0 → a.status ≠ 5 → s.collEarly = [] → s.ownRank die a.comm = some rank →
        s.collReceive die kind p = (kept.sendRanks die a.comm rank 4 [ctlBytes { a with rank := rank }]).1)) ∧
    (next ≠ payloadK p → seqLt next (payloadK p) = false → s.collReceive die kind p = s)) ∧
  (∀ (s : State) (die : Bool) (p : List Byte) (c : CollCmd), Taken s die p c →
    let n := (s.commOf die c.comm).length
    let a := ctlOf p
    let c1 : CollCmd := { c with seen := if c.seen.any (fun x => x.rank == a.rank) then c.seen else c.seen ++ [a] }
    (a.kind ≠ 2 → c.stage = 0 → c1.seen.length < n → s.collReceive die 4 p = renewed s c1) ∧
    (a.kind ≠ 2 → c.stage = 0 → n ≤ c1.seen.length → s.cur.exists_ = true → c.key = s.cur.key → c.op = 4 → c1.agreed = true →
      let v := renewed s c1
      s.collReceive die 4 p = (if c.bar.getLsbD 15 then (v.arrive (c.bar.getLsbD 12) (c.bar.toNat % 4096)).1 else v).endColl
        c1 0 0) ∧
    (a.kind ≠ 2 → c.stage = 0 → n ≤ c1.seen.length → s.cur.exists_ = true → c.key = s.cur.key → c1.agreed = false →
      c.ended = [] → 2 ≤ n →
      let z := State.sendRanks (renewed s { c1 with stage := 3, status := 2, reason := 0, ended := [(c.rank, 2)] }) c.die c.comm
        c.rank 4 [ctlBytes (statusRecord c 2)]
      z.2 = true → s.collReceive die 4 p = z.1) ∧
    (a.kind = 2 → a.status ≠ 6 → let c2 : CollCmd := { c with
        ended := if c.ended.any (fun x => x.1 == a.rank) then c.ended else c.ended ++ [(a.rank, a.status)] }
      (c.stage = 0 → c.seen.length < n → a.status = 0 ∨ a.status = 5 → s.collReceive die 4 p = renewed s c2) ∧
      (2 ≤ c.stage → c2.ended.length < n → s.collReceive die 4 p = renewed s c2) ∧
      (2 ≤ c.stage → n ≤ c2.ended.length → s.cur.exists_ = true → c.key = s.cur.key →
        ((∀ x ∈ c2.ended, x.2 = 0 ∨ x.2 = 5) → s.collReceive die 4 p = (renewed s c2).endColl c2 0 0) ∧
        (∀ x ∈ c2.ended, x.2 ≠ 0 → x.2 ≠ 5 → (∀ y ∈ c2.ended, y = x ∨ y.2 = 0 ∨ y.2 = 5 ∨ x.1.toNat < y.1.toNat) →
          s.collReceive die 4 p = (renewed s c2).failColl c2 x.2.toNat (if x.2 = c.status then c.reason.toNat else 0))) ∧
      (c.stage < 2 → a.status ≠ 0 → a.status ≠ 5 → c.ended = [] → a.rank ≠ c.rank → 2 ≤ n →
        let u := renewed s c2
        let v := if a.status = 1 ∧ c.bar.getLsbD 15 = true ∧ c.op ≠ 4 ∧ c.status ≠ 1 ∧ c.status ≠ 6 then
          u.faultBar (c.bar.getLsbD 12) (c.bar.toNat % 4096) else u
        let c3 : CollCmd := { c2 with stage := 3, status := a.status, reason := 0, ended := [(a.rank, a.status), (c.rank, a.status)] }
        let z := State.sendRanks (renewed v c3) c.die c.comm c.rank 4 [ctlBytes (statusRecord c a.status.toNat)]
        (2 < n → z.2 = true → s.collReceive die 4 p = z.1) ∧
        (n = 2 → z.2 = true → s.collReceive die 4 p = z.1.failColl c3 a.status.toNat 0))) ∧
    (a.kind = 2 → a.status = 6 → s.collReceive die 4 p =
      ((s.failColl c 6 0).sendRanks c.die c.comm c.rank 4 [ctlBytes (statusRecord c 6)]).1) ∧
    (let old := sget [] c.data (payloadRank p)
     let total := c.srcCount n * c.size
     let at_ := leNat ((p.drop 8).take 8)
     (at_ ≠ old.length → s.collReceive die 3 p = s) ∧
     (at_ = old.length → c.stage = 0 → c.seen.length < n → s.collReceive die 3 p = renewed s { c with
       data := sset [] c.data (payloadRank p) (old ++ (p.drop 16).take (Nat.min 232 (total - old.length))) }))))

/-- R24, R26, R28, R63: LINK_CONFIG checks every entry before it applies any and names the first bad one; a package, a
member and a route entry are stored; a link that is raised comes up or, as a free value says, cannot train: LINKDOWN, with
nothing changed. An acknowledgement at a flow's source frees the flits up to its SEQ, a NAK or a time-out resends from its
SEQ or the oldest; loss of lock starts retraining of a link that is up, which ends UP or, at the third failure, DOWN with a
LINKDOWN record. Free training, flit forms and the undoing of a failed command are the model's (log entries 11, 40 and 45).
-/
def Obligations.LinkControl : Prop :=
  (∀ (s : State) (r : CmdRec), Accepts s (.linkConfig r) → 1 ≤ r.arg1.toNat → r.arg1.toNat ≤ 65536 →
    goodBytes r.arg0.toNat (16 * r.arg1.toNat) →
    let xs := (List.range r.arg1.toNat).map (fun i => memNat s.mem (r.arg0.toNat + 16 * i) 16)
    (∀ i x, xs[i]? = some x → linkEntryOk x = false → (∀ j y, j < i → xs[j]? = some y → linkEntryOk y = true) →
      exec (.linkConfig r) s = answered s r 2 i 0 0) ∧
    (∀ x, xs = [x] → linkEntryOk x = true → x % 16 = 4 →
      exec (.linkConfig r) s = answered { s with pkgNum := BitVec.ofNat 16 (x / 256 % 65536) } r 0 0 0 0) ∧
    (∀ x, xs = [x] → linkEntryOk x = true → x % 16 = 2 → ∃ u : State,
      exec (.linkConfig r) s = answered u r 0 0 0 0 ∧
      ({ die := x.testBit 4, comm := BitVec.ofNat 16 (x / 2 ^ 8), rank := BitVec.ofNat 16 (x / 2 ^ 24)
         pkg := BitVec.ofNat 16 (x / 2 ^ 40), mdie := x.testBit 56 } : Member) ∈ u.members) ∧
    (∀ x, xs = [x] → linkEntryOk x = true → x % 16 = 1 → ∃ u : State, exec (.linkConfig r) s = answered u r 0 0 0 0 ∧
      ({ die := x.testBit 4, inLink := BitVec.ofNat 5 (x / 2 ^ 8), inFlow := BitVec.ofNat 12 (x / 2 ^ 16)
         outFlow := BitVec.ofNat 12 (x / 2 ^ 32), primary := BitVec.ofNat 5 (x / 2 ^ 48), alt1 := BitVec.ofNat 5 (x / 2 ^ 56)
         alt2 := BitVec.ofNat 5 (x / 2 ^ 64), alt3 := BitVec.ofNat 5 (x / 2 ^ 72) } : Route) ∈ u.routes) ∧
    (∀ x, xs = [x] → linkEntryOk x = true → x % 16 = 3 → x.testBit 16 = true →
      let n := (if x.testBit 4 then 18 else 0) + x / 2 ^ 8 % 2 ^ 5
      ((s.link n).state = .up → exec (.linkConfig r) s = answered s r 0 0 0 0) ∧
      ((s.link n).state ≠ .up → Config.free s.free % 2 = 1 → ∃ u : State, exec (.linkConfig r) s = answered u r 0 0 0 0 ∧
        (u.link n).state = .up) ∧
      ((s.link n).state ≠ .up → Config.free s.free % 2 = 0 →
        exec (.linkConfig r) s = answered { s with free := s.free + 1 } r 9 0 0 0))) ∧
  ((∀ (s : State) (link : BitVec 6) (f : Flit) (r : Route) (x : TxFlow), (s.link link.toNat).state = .up → f.kind = 1 →
    badCheck f = false → s.txWait = [] →
    s.backRoute (decide (18 ≤ link.toNat)) (BitVec.ofNat 5 (link.toNat % 18)) f.flow = some r → r.inLink = 31 →
    s.txFlows.find? (fun y => y.die == decide (18 ≤ link.toNat) && y.flow == r.inFlow) = some x →
    exec (.acknowledgement link f) s = .next { heard s link with
      txFlows := s.txFlows.map (fun y => if y.die = x.die ∧ y.flow = x.flow then
        { y with unacked := y.unacked.filter (fun g => decide (2 ^ 31 ≤ (f.seq - g.seq).toNat)) } else y) } ∧
    (∀ l, x.current = some l → exec (.nak link f) s = .next { heard s link with
      wire := s.wire ++ (x.unacked.filter (fun g => decide (2 ^ 31 ≤ (f.seq - 1 - g.seq).toNat))).map (fun g => (l, g)) })) ∧
  (∀ (s : State) (link : BitVec 6) (f : Flit), (s.link link.toNat).state ≠ .up ∨ f.kind ≠ 1 →
    exec (.acknowledgement link f) s = .next s ∧ exec (.nak link f) s = .next s) ∧
  (∀ (s : State) (x : TxFlow) (l : BitVec 6), s.txFlows = [x] → x.current = some l →
    exec (.replayTimeout x.id) s = .next { s with wire := s.wire ++ x.unacked.map (fun g => (l, g)) }) ∧
  (∀ (s : State) (link : BitVec 6),
    ((s.link link.toNat).state = .up → ∃ t, exec (.lossOfLock link) s = .next t ∧ t.mem = s.mem ∧
      (t.link link.toNat).state = .training ∧ (t.link link.toNat).attempts = 0 ∧
      (∀ m, m ≠ link.toNat → t.link m = s.link m)) ∧
    ((s.link link.toNat).state ≠ .up → exec (.lossOfLock link) s = .next s) ∧
    ((s.link link.toNat).state = .training → ∃ t, exec (.retrainComplete link) s = .next t ∧ t.mem = s.mem ∧
      (t.link link.toNat).state = .up ∧ (∀ m, m ≠ link.toNat → t.link m = s.link m)) ∧
    ((s.link link.toNat).state = .training → (s.link link.toNat).attempts < 2 → ∃ t,
      exec (.retrainFail link) s = .next t ∧ (t.link link.toNat).state = .training ∧
      (t.link link.toNat).attempts = (s.link link.toNat).attempts + 1 ∧ t.errors = s.errors) ∧
    ((s.link link.toNat).state = .training → 2 ≤ (s.link link.toNat).attempts → ∃ t,
      exec (.retrainFail link) s = .next t ∧ (t.link link.toNat).state = .down ∧
      (s.errors.length < 4096 → ∃ e ∈ t.errors, e.cls = 5 ∧ e.source.toNat = link.toNat)) ∧
    ((s.link link.toNat).state ≠ .training →
      exec (.retrainComplete link) s = .next s ∧ exec (.retrainFail link) s = .next s)))

/-- R83, R127, R212, R119: the state in which a strand of a descriptor starts on its seat. -/
def Obligations.StrandStart : Prop :=
  ∀ (s : State) (f : Farm) (w : Nat) (lvl : Level) (x : Seat),
    let t := newStrand s f w lvl x
    t.logid = x.logid ∧ t.nstrands = f.fd.nstrands.toNat ∧ t.farm = f.id ∧ t.part = f.fd.part ∧
    t.core = BitVec.ofNat 7 x.core ∧ t.lane = BitVec.ofNat 5 x.lane ∧ t.latch = 0 ∧
    t.pc = f.fd.entry ∧ t.level = lvl ∧ t.life = .running ∧ t.inHandler = false ∧ t.getG 1 = f.fd.argptr ∧
    t.getG 30 = BitVec.ofNat 64 (windowBase + (x.tcmBase + x.tcmLen) / 16 * 16) ∧ (t.getG 30).toNat % 16 = 0 ∧
    t.getG 31 = 0x7FFFF003000000 ∧ (∀ r : Reg, r ≠ 1 → r ≠ 30 → r ≠ 31 → t.getG r = 0) ∧
    (∀ n, n < 32 → t.v.getD n 0 = 0) ∧ (∀ n, 1 ≤ n → n < 64 → t.getP n = 0) ∧ t.getP 0 = BitVec.allOnes 32768 ∧
    (∀ k, k < 8 → (t.pins.getD k Pin.idle).live = false) ∧ t.viq = [] ∧ t.rq = [] ∧
    t.ctl.trapvec = 0x7FFFF003000040 ∧ t.ctl.vl = 0 ∧ t.ctl.stripbase = 0 ∧ t.ctl.vtype = 0x0A ∧ t.ctl.rmode = 0 ∧
    t.ctl.fstat = 0 ∧ t.ctl.gstat = 0 ∧ t.ctl.suspect = 0 ∧ t.ctl.chkcnt = 0 ∧ t.ctl.check = f.fd.check.setWidth 64 ∧
    t.ctl.srseed = f.fd.srseed ∧ t.ctl.srsalt = f.fd.srsalt.setWidth 64 ∧ t.ctl.tshape = 0x4040 ∧ t.ctl.tpad = 0 ∧
    t.ctl.xferbar = 0 ∧ t.ctl.rowbytes = 16 ∧ t.ctl.mxsa = 0 ∧ t.ctl.mxsb = 0 ∧ t.ctl.tcause = 0 ∧ t.ctl.tpc = 0 ∧
    t.ctl.tviq = 0 ∧ t.ctl.telem = 0 ∧ t.ctl.taddr = 0 ∧ t.ctl.tinfo = 0 ∧ t.ctl.errinj = 0 ∧ t.det = f.fd.det ∧
    t.tiles = List.replicate f.fd.ntile.toNat { elems := [], m := 64, n := 64, rowprog := 64, ckrow := [], ckcol := []
                                                ckv := true, recM := 64, recN := 64 } ∧
    t.orths = List.replicate f.fd.north.toNat { n := 1, fp64 := false, k := 0, cap := 32, pol := 0, v := [], t := [], bva := 0
                                                bstride := 0, bcols := 0, bpin := 0, bside := 0, lva := 0, lpin := 0
                                                lcount := 0, lmax := 0 }

/-- R13, R18, R37, R50, R70, R118, R381: after a start stacks 0 to 3 belong to die 0 and stacks 4 to 7 to die 1, with GEN 0
and no hand-over, every slot to P0, and every partition donates; after reset STATE reads 1 and STEP 0, the cold start's
first step, and nothing is signalled; HBM and the second tier read zero with no line poisoned, P0 alone exists with its
attributes, no barrier is configured and every core's limit is 32 lanes. -/
def Obligations.ResetValues : Prop :=
  ((∀ (s : State) (r : CmdRec) (n : Nat), Accepts s (.resetWarm r) → n < 8 → ∃ t, exec (.resetWarm r) s = .next t ∧
    (t.stack n).owner = decide (4 ≤ n) ∧ (t.stack n).gen = 0 ∧ (t.stack n).handing = false ∧ (t.stack n).hand = none ∧
    (t.stack n).donate = 0xFF ∧ ∀ j i : Nat, i < 64 → slotOwner ((t.stack n).table j) i = some 0) ∧
  (∀ (s : State) (r : CmdRec) (n : Nat), (s.mode = .ready ∨ s.mode = .failed) → r.rsvd = 0 → r.flags = 0 → r.part = 0 →
    (∀ w ∈ words r, w = 0) → n < 8 → ∃ t, exec (.resetCold r) s = .next t ∧
    (t.stack n).owner = decide (4 ≤ n) ∧ (t.stack n).gen = 0 ∧ (t.stack n).handing = false ∧ (t.stack n).hand = none ∧
    (t.stack n).donate = 0xFF ∧ ∀ j i : Nat, i < 64 → slotOwner ((t.stack n).table j) i = some 0) ∧
  (∀ (s : State) (n : Nat), s.mode = .off → n < 8 → ∃ t, exec .powerRestore s = .next t ∧
    (t.stack n).owner = decide (4 ≤ n) ∧ (t.stack n).gen = 0 ∧ (t.stack n).handing = false ∧ (t.stack n).hand = none ∧
    (t.stack n).donate = 0xFF ∧ ∀ j i : Nat, i < 64 → slotOwner ((t.stack n).table j) i = some 0) ∧
  (∀ n : Nat, n < 8 → (State.reset.stack n).owner = decide (4 ≤ n) ∧ (State.reset.stack n).gen = 0 ∧
    (State.reset.stack n).handing = false ∧ (State.reset.stack n).donate = 0xFF ∧
    ∀ j i : Nat, i < 64 → slotOwner ((State.reset.stack n).table j) i = some 0)) ∧
  (State.reset.mode = .coldStart ∧ State.reset.startStep = 0 ∧ State.reset.msix = [] ∧
  (∀ k, k < 2 ^ 39 ∨ (0x10000000000 ≤ k ∧ k < 0x20000000000) → memRead State.reset.mem k = 0) ∧
  (∀ l, State.reset.poisoned l = false) ∧
  State.reset.part? 0 = some { weight := 1, ageLimit := 0, userCastle := false, isolated := false, stackMask := 0xFF
                               ptbase := 0, credit := 0, images := [] } ∧
  (∀ p, 1 ≤ p → p < 8 → State.reset.part? p = none) ∧ (∀ k, (State.reset.bar k).expected = 0) ∧
  (∀ n, (State.reset.core n).maxlg = 32) ∧ State.reset.farms = [] ∧ State.reset.extents = [])

/-- R214 to R228 and the encodings they give: these words, written out from the spec's tables, decode to the instructions
they stand for: `add g3, g4, g5`, `srai g8, g9, 63`, `ld.h.u g9, [g8-2]`, `blt g8, g9, .-16`, `fclass.s g10, g11`,
`amocas.d.acq.die g5, [g6], g7`, `mtc VTYPE, g5`, `bar.wait g8, g7`, `pin k2, g5, g6, rw`, `castle g8, g9, g10`,
`vfmacc v4, v1, v2, ?p1`, `vflt p9, v1, g10`, `vstx.w.o v4, [g6], v7, k2, ?p1`, `c.addi g9, -3` and a `tmma`. -/
def Obligations.DecodeWords : Prop :=
  decodeTableWord 32 0x00148304 = some (.add 3 4 5) ∧ decodeTableWord 32 0x80FD281C = some (.srai 8 9 63) ∧
  decodeTableWord 32 0xFFD50930 = some (.ld 9 8 1 true (-2)) ∧ decodeTableWord 32 0xFFE12840 = some (.blt 8 9 (-8)) ∧
  decodeTableWord 32 0x30016A5C = some (.fclassS 10 11) ∧ decodeTableWord 32 0x599CC564 = some (.amocas 5 6 7 1 false 3) ∧
  decodeTableWord 32 0x1C002568 = some (.mtc 5 1) ∧ decodeTableWord 32 0x1000E86C = some (.barWait 8 7) ∧
  decodeTableWord 32 0x0198A270 = some (.pin 2 5 6 3) ∧ decodeTableWord 32 0x00292878 = some (.castle 8 9 10) ∧
  decodeTableWord 32 0x00882490 = some (.vfmacc { ext := false, m := 1 } 4 1 2) ∧
  decodeTableWord 32 0x5C282994 = some (.vfltScalar { ext := false, m := 0 } 9 1 10) ∧
  decodeTableWord 32 0xC89CC4D8 = some (.vstx { ext := false, m := 1 } true 2 2 4 6 7) ∧
  decodeTableWord 16 0xFD21 = some (.cAddi 1 (-3)) ∧
  decodeTableWord 64 0x081CC4FCA2019807 = some (.tmma 0 4 6 7 0 3 3 0 1 2 true)

/-- Decoding what the encoder writes for a well-formed instruction gives the instruction back, with every operand. -/
def Obligations.DecodeEncode : Prop := ∀ i : Instr, i.wf = true → decodeParcels (encode i) = some i

/-- The state after reset is canonical.
The canonical form is the model's own (log entry 9). -/
def Obligations.ResetCanonical : Prop := Canonical State.reset

/-- Every step keeps the canonical form, whoever moves. -/
def Obligations.StepKeepsCanonical : Prop := ∀ s t : State, Canonical s → step s = .next t → Canonical t

/-- No instruction and no step is refused; only `tret` may fault, and a step only after a lost record or where the instruction
that it fetches is a `tret` that faults.
The one fault is the model's (log entry 13). -/
def Obligations.NothingRefused : Prop :=
  (∀ (i : Instr) (s : State), (∃ t, exec i s = .next t) ∨ (i = .tret ∧ exec i s = .fault .recordLost)) ∧
  (∀ s : State, (∃ t, step s = .next t) ∨ (step s = .fault .recordLost ∧ (s.lost = true ∨
    ∃ (v : State) (ps : List (BitVec 16)), ((s.turns = [] ∧ fetchInstr { s with clock := s.clock + 1 } = .ok (ps, v)) ∨
        ∃ k rest, s.turns = .strand k :: rest ∧ fetchInstr (State.focus { s with turns := rest } k) = .ok (ps, v)) ∧
      decodeParcels ps = some .tret ∧ exec .tret v = .fault .recordLost)))

/-- R214, R199, R304, R361: a step of the current strand, when nothing else is due and no stream pop of it is incomplete,
fetches at its pc and is exec of the instruction that the parcels there decode to, or takes ILLEGAL when they decode to
none; a turn named in State.turns is that strand's step, the host's record or that step of the device. Turns are the model's
own (log entry 1). -/
def Obligations.StepRunsDecoded : Prop :=
  (∀ (s u : State) (ps : List (BitVec 16)), s.lost = false → s.turns = [] → s.clock % 2 = 0 → s.cur.life = .running →
    s.cur.haltReq = false → s.cur.trapDue = false → (∀ e ∈ s.cur.viq, e.holdsScalar = false) →
    fetchInstr { s with clock := s.clock + 1 } = .ok (ps, u) →
    (∀ i, decodeParcels ps = some i → step s = exec i u) ∧
    (decodeParcels ps = none → step s = .next (u.takeTrap (scalarTrap cILLEGAL 0 (firstWord u))))) ∧
  (∀ (s u : State) (rest : List Turn) (ps : List (BitVec 16)) (i : Instr), s.lost = false →
    s.turns = .strand s.cur.key :: rest → s.cur.life = .running → s.cur.haltReq = false → s.cur.trapDue = false →
    (∀ e ∈ s.cur.viq, e.holdsScalar = false) → fetchInstr { s with turns := rest } = .ok (ps, u) → decodeParcels ps = some i → step s = exec i u) ∧
  (∀ (s : State) (rest : List Turn) (i : Instr), s.lost = false → s.turns = .event i :: rest → encode i = [] →
    step s = exec i { s with turns := rest }) ∧
  (∀ (s : State) (rest : List Turn) (bs : List Byte), s.lost = false → s.turns = .record bs :: rest → bs.length = 64 →
    step s = .next (State.writeRecord { s with turns := rest } (recordOf bs)))

namespace Sys2Proof.Claims

/-- The destination of an instruction that names general registers only, none for one that is ILLEGAL. -/
def destination (i : Instr) : Option Reg :=
  match i with
  | .luim d _ => some d
  | .apc d _ => some d
  | .cAdd d _ => some (low8 d)
  | i => ((threeRegister i).map (fun x => x.1)).or (((oneRegister i).map (fun x => x.1)).or (((plainFpRow i).map (fun x => x.1)).or
      (((roundingRow i).bind (fun x => if x.2.2.1.toNat ≤ 5 then some x.1 else none)).or ((branchRow i).map (fun _ => 0)))))

end Sys2Proof.Claims

open Sys2Proof Sys2Proof.Machine Sys2Proof.Claims

/-- R119, R247 to R254, R259, R263 to R267: an instruction that names general registers only leaves every register but its
destination, and with the flags of FSTAT and the pc excepted all of the module, memory too, as it was; a branch leaves
every register. -/
def Obligations.ScalarFrame : Prop :=
  ∀ (i : Instr) (d : Reg) (s t : State), destination i = some d → exec i s = .next t →
    t = { s with cur := { s.cur with g := t.cur.g, pc := t.cur.pc, stalled := t.cur.stalled
                                     ctl := { s.cur.ctl with fstat := t.cur.ctl.fstat } } } ∧
    (∀ r, r ≠ d → t.g r = s.g r) ∧ (plainFpRow i = none → roundingRow i = none → t.cur.ctl.fstat = s.cur.ctl.fstat) ∧
    (∀ k, memRead t.mem k = memRead s.mem k)

/-- R98, R104, R274: a vector, tile or orthogonal instruction changes at its commit no memory and no strand but its own, and of
its own nothing but the queue, the sequence number and convoy mark, what earlier entries make final, and for `tcfg` the
recorded shape; with an empty VIQ the vector and predicate registers stay as they were. -/
def Obligations.VectorCommitFrame : Prop :=
  ∀ (i : Instr) (op : VOp) (s t : State), vop i = some op → op.legal s.cur = true → Free s [op.ga, op.gb, op.gd] →
    hasRoom s i → commitStop s i = none → exec i s = .next t →
    t = { s with cur := { s.cur with
      g := t.cur.g, v := t.cur.v, p := t.cur.p, badRows := t.cur.badRows, viq := t.cur.viq, rq := t.cur.rq
      nextSeq := s.cur.nextSeq + 1, cvy := false, pc := s.cur.pc + BitVec.ofNat 64 i.size
      tiles := (shaped s.cur i).tiles
      ctl := { s.cur.ctl with fstat := t.cur.ctl.fstat, gstat := t.cur.ctl.gstat } } } ∧
    (∀ k, memRead t.mem k = memRead s.mem k) ∧
    (s.cur.viq = [] → t.cur.v = s.cur.v ∧ t.cur.p = s.cur.p)
end

