-- ==== Sys2Proof/Laws/Memory.lean ====
section
/-! SUPPORT. Laws of data held by key and of memory: read after write, and that every write keeps the canonical form. -/

namespace Sys2Proof.Machine

/-! ### Data by key -/

section Keyed

variable {α : Type} [DecidableEq α] (d : Nat → α)

/-- Above a bound: what the canonical form asks of the first key. -/
def aboveLo (lo : Option Nat) (k : Nat) : Bool := match lo with | none => true | some l => decide (l < k)

theorem swf_cons (lo : Option Nat) (k : Nat) (v : α) (r : Sparse α) :
    swf d lo ((k, v) :: r) = (aboveLo lo k && decide (v ≠ d k) && swf d (some k) r) := rfl

/-- A smaller bound holds too. -/
theorem swf_weaken {lo : Option Nat} {k : Nat} {l : Sparse α} (hk : aboveLo lo k = true) (h : swf d (some k) l = true) :
    swf d lo l = true := by
  cases l with
  | nil => rfl
  | cons x r =>
    obtain ⟨j, v⟩ := x
    rw [swf_cons] at h ⊢
    simp only [Bool.and_eq_true, aboveLo, decide_eq_true_eq] at h ⊢
    refine ⟨⟨?_, h.1.2⟩, h.2⟩
    cases lo with
    | none => rfl
    | some b => simp only [aboveLo, decide_eq_true_eq] at hk ⊢; omega

/-- No key of a canonical list lies at or below its bound. -/
theorem sget_below {lo k : Nat} (h : lo ≤ k) {l : Sparse α} (hl : swf d (some k) l = true) :
    sget (d lo) l lo = d lo := by
  induction l generalizing k with
  | nil => rfl
  | cons x r ih =>
    obtain ⟨j, v⟩ := x
    rw [swf_cons] at hl
    simp only [Bool.and_eq_true, aboveLo, decide_eq_true_eq] at hl
    unfold sget
    rw [if_neg (by omega)]
    exact ih (by omega) hl.2

/-- Reading another key than the one written. -/
theorem sget_sset_other {e x : α} {k j : Nat} (h : j ≠ k) (l : Sparse α) (v : α) : sget x (sset e l k v) j = sget x l j := by
  induction l with
  | nil =>
    unfold sset
    split
    · rfl
    · simp only [sget]; rw [if_neg (Ne.symm h)]
  | cons y r ih =>
    obtain ⟨i, w⟩ := y
    unfold sset
    split
    · split
      · rfl
      · rw [sget, if_neg (Ne.symm h)]
    · split
      · rename_i hik
        subst hik
        split
        · rw [sget, if_neg (Ne.symm h)]
        · rw [sget, sget, if_neg (Ne.symm h), if_neg (Ne.symm h)]
      · rw [sget, sget, ih]

/-- Reading the key written. -/
theorem sget_sset_same {lo : Option Nat} {l : Sparse α} (hl : swf d lo l = true) (k : Nat) (v : α) :
    sget (d k) (sset (d k) l k v) k = v := by
  induction l generalizing lo with
  | nil =>
    unfold sset
    split
    · rename_i h; rw [h]; rfl
    · simp [sget]
  | cons y r ih =>
    obtain ⟨i, w⟩ := y
    rw [swf_cons] at hl
    simp only [Bool.and_eq_true] at hl
    unfold sset
    split
    · rename_i hki
      split
      · rename_i hv
        rw [hv]
        unfold sget
        rw [if_neg (by omega)]
        exact sget_below d (by omega) hl.2
      · simp [sget]
    · split
      · rename_i hik
        subst hik
        split
        · rename_i hv
          rw [hv]
          exact sget_below d (Nat.le_refl _) hl.2
        · simp [sget]
      · rename_i hik
        unfold sget
        rw [if_neg (by omega)]
        exact ih hl.2

/-- A write keeps the canonical form. -/
theorem swf_sset {lo : Option Nat} {l : Sparse α} (hl : swf d lo l = true) {k : Nat} (hk : aboveLo lo k = true) (v : α) :
    swf d lo (sset (d k) l k v) = true := by
  induction l generalizing lo with
  | nil =>
    unfold sset
    split
    · rfl
    · rename_i hv
      rw [swf_cons]
      simp [hk, hv, swf]
  | cons y r ih =>
    obtain ⟨i, w⟩ := y
    have hl' := hl
    rw [swf_cons] at hl'
    simp only [Bool.and_eq_true] at hl'
    unfold sset
    split
    · rename_i hki
      split
      · exact hl
      · rename_i hv
        rw [swf_cons, swf_cons]
        simp only [Bool.and_eq_true, aboveLo, decide_eq_true_eq]
        exact ⟨⟨by simpa [aboveLo] using hk, by simpa using hv⟩, ⟨hki, by simpa using hl'.1.2⟩, hl'.2⟩
    · split
      · rename_i hik
        subst hik
        split
        · exact swf_weaken d hl'.1.1 hl'.2
        · rename_i hv
          rw [swf_cons]
          simp [hl'.1.1, hv, hl'.2]
      · rename_i h1 h2
        rw [swf_cons]
        simp only [Bool.and_eq_true]
        exact ⟨hl'.1, ih hl'.2 (by simp only [aboveLo, decide_eq_true_eq]; omega)⟩

/-- Dropping entries keeps the canonical form. -/
theorem swf_filter (p : Nat × α → Bool) {lo : Option Nat} {l : Sparse α} (hl : swf d lo l = true) :
    swf d lo (l.filter p) = true := by
  induction l generalizing lo with
  | nil => rfl
  | cons y r ih =>
    obtain ⟨i, w⟩ := y
    rw [swf_cons] at hl
    simp only [Bool.and_eq_true] at hl
    rw [List.filter_cons]
    split
    · rw [swf_cons]
      simp only [Bool.and_eq_true]
      exact ⟨hl.1, ih hl.2⟩
    · exact swf_weaken d hl.1.1 (ih hl.2)

end Keyed

/-! ### Memory -/

/-- A read after a write to the same byte gives the value written. -/
theorem memRead_memWrite_same {m : Memory} (h : m.wf = true) (k : Nat) (b : Byte) : memRead (memWrite m k b) k = b :=
  sget_sset_same memDefault h k b

/-- A write leaves every other byte alone. -/
theorem memRead_memWrite_other (m : Memory) {j k : Nat} (h : j ≠ k) (b : Byte) : memRead (memWrite m k b) j = memRead m j :=
  sget_sset_other h m b

theorem memWrite_wf {m : Memory} (h : m.wf = true) (k : Nat) (b : Byte) : (memWrite m k b).wf = true :=
  swf_sset memDefault h rfl b

theorem memWriteList_wf {m : Memory} (h : m.wf = true) (ks : List Nat) (bs : List Byte) : (memWriteList m ks bs).wf = true := by
  induction ks generalizing m bs with
  | nil => simpa [memWriteList] using h
  | cons k r ih =>
    cases bs with
    | nil => simpa [memWriteList] using h
    | cons b bs => exact ih (memWrite_wf h k b) bs

theorem memSetNat_wf {m : Memory} (h : m.wf = true) (k n x : Nat) : (memSetNat m k n x).wf = true := memWriteList_wf h _ _

/-- Bytes outside the keys written keep their values. -/
theorem memRead_memWriteList_other (m : Memory) {j : Nat} (ks : List Nat) (bs : List Byte) (h : j ∉ ks) :
    memRead (memWriteList m ks bs) j = memRead m j := by
  induction ks generalizing m bs with
  | nil => simp [memWriteList]
  | cons k r ih =>
    cases bs with
    | nil => simp [memWriteList]
    | cons b bs =>
      simp only [List.mem_cons, not_or] at h
      simp only [memWriteList]
      rw [ih (memWrite m k b) bs h.2, memRead_memWrite_other m h.1 b]

/-- Dropping entries keeps the form. -/
theorem mem_filter_wf {m : Memory} (h : m.wf = true) (p : Nat × Byte → Bool) : Memory.wf (m.filter p) = true :=
  swf_filter memDefault p h

/-- Memory with nothing listed, as after reset, has the form. -/
theorem mem_nil_wf : Memory.wf ([] : Memory) = true := rfl

/-! ### Writes at a home (R20, R41, R169) -/

@[simp] theorem addError_mem (s : State) (a b c d e : Nat) : (s.addError a b c d e).mem = s.mem := by
  unfold State.addError
  dsimp only
  split
  · rfl
  · split <;> rfl

@[simp] theorem unpoison_mem (s : State) (k : Nat) : (s.unpoison k).mem = s.mem := by
  unfold State.unpoison
  split
  · rfl
  · split
    · rfl
    · dsimp only
      split
      · simp
      · rfl

@[simp] theorem markVat_mem (s : State) (k : Nat) : (s.markVat k).mem = s.mem := by
  unfold State.markVat
  split <;> rfl

theorem modCores_mem (f : Nat × Core → State → State) (hf : ∀ c t, (f c t).mem = t.mem) (l : List (Nat × Core)) (s : State) :
    (l.foldl (fun t c => f c t) s).mem = s.mem := by
  induction l generalizing s with
  | nil => rfl
  | cons c r ih => rw [List.foldl_cons, ih, hf]

@[simp] theorem filterLines_mem (s : State) (keep : Bool) (ls : List Nat) : (s.filterLines keep ls).mem = s.mem := by
  unfold State.filterLines
  split
  · dsimp only
    exact modCores_mem (fun c t => t.modCore c.1 _) (fun _ _ => rfl) _ _
  · rfl

/-- One byte at its home: memory changes there and nowhere else. -/
@[simp] theorem writeByte_mem (s : State) (k : Nat) (b : Byte) : (s.writeByte k b).mem = memWrite s.mem k b := by
  unfold State.writeByte
  simp

theorem writeBytes_mem (s : State) (ks : List Nat) (bs : List Byte) : (s.writeBytes ks bs).mem = memWriteList s.mem ks bs := by
  induction ks generalizing s bs with
  | nil => simp [State.writeBytes, memWriteList]
  | cons k r ih =>
    cases bs with
    | nil => simp [State.writeBytes, memWriteList]
    | cons b bs =>
      simp only [State.writeBytes, memWriteList]
      rw [ih, writeByte_mem]

/-- A write at its home, by an agent other than a scalar store. -/
theorem homeWrite_mem (s : State) (ks : List Nat) (bs : List Byte) : (s.homeWrite ks bs).mem = memWriteList s.mem ks bs := by
  unfold State.homeWrite
  rw [writeBytes_mem, filterLines_mem]

theorem homeWrite_wf {s : State} (h : s.mem.wf = true) (ks : List Nat) (bs : List Byte) : (s.homeWrite ks bs).mem.wf = true := by
  rw [homeWrite_mem]
  exact memWriteList_wf h ks bs

end Sys2Proof.Machine
end

