-- ==== Sys2Proof/Laws/State.lean ====
section
/-! SUPPORT. What each small update of the state leaves: one lemma for each field and update, so that no proof unfolds a
record update. -/

namespace Sys2Proof.Machine

/-! ### State.modCur -/

@[simp] theorem modCur_mode (s : State) (f : Strand → Strand) : (s.modCur f).mode = s.mode := rfl
@[simp] theorem modCur_startStep (s : State) (f : Strand → Strand) : (s.modCur f).startStep = s.startStep := rfl
@[simp] theorem modCur_warmFail (s : State) (f : Strand → Strand) : (s.modCur f).warmFail = s.warmFail := rfl
@[simp] theorem modCur_patch (s : State) (f : Strand → Strand) : (s.modCur f).patch = s.patch := rfl
@[simp] theorem modCur_resetResp (s : State) (f : Strand → Strand) : (s.modCur f).resetResp = s.resetResp := rfl
@[simp] theorem modCur_cmdPort (s : State) (f : Strand → Strand) : (s.modCur f).cmdPort = s.cmdPort := rfl
@[simp] theorem modCur_cmdRefused (s : State) (f : Strand → Strand) : (s.modCur f).cmdRefused = s.cmdRefused := rfl
@[simp] theorem modCur_cmdBadWrite (s : State) (f : Strand → Strand) : (s.modCur f).cmdBadWrite = s.cmdBadWrite := rfl
@[simp] theorem modCur_respPort (s : State) (f : Strand → Strand) : (s.modCur f).respPort = s.respPort := rfl
@[simp] theorem modCur_notices (s : State) (f : Strand → Strand) : (s.modCur f).notices = s.notices := rfl
@[simp] theorem modCur_msix (s : State) (f : Strand → Strand) : (s.modCur f).msix = s.msix := rfl
@[simp] theorem modCur_hostRead (s : State) (f : Strand → Strand) : (s.modCur f).hostRead = s.hostRead := rfl
@[simp] theorem modCur_hostPoison (s : State) (f : Strand → Strand) : (s.modCur f).hostPoison = s.hostPoison := rfl
@[simp] theorem modCur_hostHeld (s : State) (f : Strand → Strand) : (s.modCur f).hostHeld = s.hostHeld := rfl
@[simp] theorem modCur_errors (s : State) (f : Strand → Strand) : (s.modCur f).errors = s.errors := rfl
@[simp] theorem modCur_errDropped (s : State) (f : Strand → Strand) : (s.modCur f).errDropped = s.errDropped := rfl
@[simp] theorem modCur_power (s : State) (f : Strand → Strand) : (s.modCur f).power = s.power := rfl
@[simp] theorem modCur_powerCap (s : State) (f : Strand → Strand) : (s.modCur f).powerCap = s.powerCap := rfl
@[simp] theorem modCur_sensors (s : State) (f : Strand → Strand) : (s.modCur f).sensors = s.sensors := rfl
@[simp] theorem modCur_clockDown0 (s : State) (f : Strand → Strand) : (s.modCur f).clockDown0 = s.clockDown0 := rfl
@[simp] theorem modCur_clockDown1 (s : State) (f : Strand → Strand) : (s.modCur f).clockDown1 = s.clockDown1 := rfl
@[simp] theorem modCur_ownerSlots (s : State) (f : Strand → Strand) : (s.modCur f).ownerSlots = s.ownerSlots := rfl
@[simp] theorem modCur_slotsRevoked (s : State) (f : Strand → Strand) : (s.modCur f).slotsRevoked = s.slotsRevoked := rfl
@[simp] theorem modCur_coresOn (s : State) (f : Strand → Strand) : (s.modCur f).coresOn = s.coresOn := rfl
@[simp] theorem modCur_pkgNum (s : State) (f : Strand → Strand) : (s.modCur f).pkgNum = s.pkgNum := rfl
@[simp] theorem modCur_parts (s : State) (f : Strand → Strand) : (s.modCur f).parts = s.parts := rfl
@[simp] theorem modCur_hbm (s : State) (f : Strand → Strand) : (s.modCur f).hbm = s.hbm := rfl
@[simp] theorem modCur_mem (s : State) (f : Strand → Strand) : (s.modCur f).mem = s.mem := rfl
@[simp] theorem modCur_poison (s : State) (f : Strand → Strand) : (s.modCur f).poison = s.poison := rfl
@[simp] theorem modCur_scrubDue (s : State) (f : Strand → Strand) : (s.modCur f).scrubDue = s.scrubDue := rfl
@[simp] theorem modCur_vatDirty (s : State) (f : Strand → Strand) : (s.modCur f).vatDirty = s.vatDirty := rfl
@[simp] theorem modCur_extents (s : State) (f : Strand → Strand) : (s.modCur f).extents = s.extents := rfl
@[simp] theorem modCur_losses (s : State) (f : Strand → Strand) : (s.modCur f).losses = s.losses := rfl
@[simp] theorem modCur_cores (s : State) (f : Strand → Strand) : (s.modCur f).cores = s.cores := rfl
@[simp] theorem modCur_barriers (s : State) (f : Strand → Strand) : (s.modCur f).barriers = s.barriers := rfl
@[simp] theorem modCur_bte (s : State) (f : Strand → Strand) : (s.modCur f).bte = s.bte := rfl
@[simp] theorem modCur_nextBte (s : State) (f : Strand → Strand) : (s.modCur f).nextBte = s.nextBte := rfl
@[simp] theorem modCur_bteTurn (s : State) (f : Strand → Strand) : (s.modCur f).bteTurn = s.bteTurn := rfl
@[simp] theorem modCur_engineDone (s : State) (f : Strand → Strand) : (s.modCur f).engineDone = s.engineDone := rfl
@[simp] theorem modCur_members (s : State) (f : Strand → Strand) : (s.modCur f).members = s.members := rfl
@[simp] theorem modCur_collCount (s : State) (f : Strand → Strand) : (s.modCur f).collCount = s.collCount := rfl
@[simp] theorem modCur_colls (s : State) (f : Strand → Strand) : (s.modCur f).colls = s.colls := rfl
@[simp] theorem modCur_collEarly (s : State) (f : Strand → Strand) : (s.modCur f).collEarly = s.collEarly := rfl
@[simp] theorem modCur_links (s : State) (f : Strand → Strand) : (s.modCur f).links = s.links := rfl
@[simp] theorem modCur_routes (s : State) (f : Strand → Strand) : (s.modCur f).routes = s.routes := rfl
@[simp] theorem modCur_txFlows (s : State) (f : Strand → Strand) : (s.modCur f).txFlows = s.txFlows := rfl
@[simp] theorem modCur_rxFlows (s : State) (f : Strand → Strand) : (s.modCur f).rxFlows = s.rxFlows := rfl
@[simp] theorem modCur_wire (s : State) (f : Strand → Strand) : (s.modCur f).wire = s.wire := rfl
@[simp] theorem modCur_txWait (s : State) (f : Strand → Strand) : (s.modCur f).txWait = s.txWait := rfl
@[simp] theorem modCur_farms (s : State) (f : Strand → Strand) : (s.modCur f).farms = s.farms := rfl
@[simp] theorem modCur_nextFarm (s : State) (f : Strand → Strand) : (s.modCur f).nextFarm = s.nextFarm := rfl
@[simp] theorem modCur_nextOrder (s : State) (f : Strand → Strand) : (s.modCur f).nextOrder = s.nextOrder := rfl
@[simp] theorem modCur_quota (s : State) (f : Strand → Strand) : (s.modCur f).quota = s.quota := rfl
@[simp] theorem modCur_reserve (s : State) (f : Strand → Strand) : (s.modCur f).reserve = s.reserve := rfl
@[simp] theorem modCur_others (s : State) (f : Strand → Strand) : (s.modCur f).others = s.others := rfl
@[simp] theorem modCur_turns (s : State) (f : Strand → Strand) : (s.modCur f).turns = s.turns := rfl
@[simp] theorem modCur_clock (s : State) (f : Strand → Strand) : (s.modCur f).clock = s.clock := rfl
@[simp] theorem modCur_free (s : State) (f : Strand → Strand) : (s.modCur f).free = s.free := rfl
@[simp] theorem modCur_lost (s : State) (f : Strand → Strand) : (s.modCur f).lost = s.lost := rfl

/-! ### State.setG -/

@[simp] theorem setG_mode (s : State) (r : Reg) (x : Word) : (s.setG r x).mode = s.mode := rfl
@[simp] theorem setG_startStep (s : State) (r : Reg) (x : Word) : (s.setG r x).startStep = s.startStep := rfl
@[simp] theorem setG_warmFail (s : State) (r : Reg) (x : Word) : (s.setG r x).warmFail = s.warmFail := rfl
@[simp] theorem setG_patch (s : State) (r : Reg) (x : Word) : (s.setG r x).patch = s.patch := rfl
@[simp] theorem setG_resetResp (s : State) (r : Reg) (x : Word) : (s.setG r x).resetResp = s.resetResp := rfl
@[simp] theorem setG_cmdPort (s : State) (r : Reg) (x : Word) : (s.setG r x).cmdPort = s.cmdPort := rfl
@[simp] theorem setG_cmdRefused (s : State) (r : Reg) (x : Word) : (s.setG r x).cmdRefused = s.cmdRefused := rfl
@[simp] theorem setG_cmdBadWrite (s : State) (r : Reg) (x : Word) : (s.setG r x).cmdBadWrite = s.cmdBadWrite := rfl
@[simp] theorem setG_respPort (s : State) (r : Reg) (x : Word) : (s.setG r x).respPort = s.respPort := rfl
@[simp] theorem setG_notices (s : State) (r : Reg) (x : Word) : (s.setG r x).notices = s.notices := rfl
@[simp] theorem setG_msix (s : State) (r : Reg) (x : Word) : (s.setG r x).msix = s.msix := rfl
@[simp] theorem setG_hostRead (s : State) (r : Reg) (x : Word) : (s.setG r x).hostRead = s.hostRead := rfl
@[simp] theorem setG_hostPoison (s : State) (r : Reg) (x : Word) : (s.setG r x).hostPoison = s.hostPoison := rfl
@[simp] theorem setG_hostHeld (s : State) (r : Reg) (x : Word) : (s.setG r x).hostHeld = s.hostHeld := rfl
@[simp] theorem setG_errors (s : State) (r : Reg) (x : Word) : (s.setG r x).errors = s.errors := rfl
@[simp] theorem setG_errDropped (s : State) (r : Reg) (x : Word) : (s.setG r x).errDropped = s.errDropped := rfl
@[simp] theorem setG_power (s : State) (r : Reg) (x : Word) : (s.setG r x).power = s.power := rfl
@[simp] theorem setG_powerCap (s : State) (r : Reg) (x : Word) : (s.setG r x).powerCap = s.powerCap := rfl
@[simp] theorem setG_sensors (s : State) (r : Reg) (x : Word) : (s.setG r x).sensors = s.sensors := rfl
@[simp] theorem setG_clockDown0 (s : State) (r : Reg) (x : Word) : (s.setG r x).clockDown0 = s.clockDown0 := rfl
@[simp] theorem setG_clockDown1 (s : State) (r : Reg) (x : Word) : (s.setG r x).clockDown1 = s.clockDown1 := rfl
@[simp] theorem setG_ownerSlots (s : State) (r : Reg) (x : Word) : (s.setG r x).ownerSlots = s.ownerSlots := rfl
@[simp] theorem setG_slotsRevoked (s : State) (r : Reg) (x : Word) : (s.setG r x).slotsRevoked = s.slotsRevoked := rfl
@[simp] theorem setG_coresOn (s : State) (r : Reg) (x : Word) : (s.setG r x).coresOn = s.coresOn := rfl
@[simp] theorem setG_pkgNum (s : State) (r : Reg) (x : Word) : (s.setG r x).pkgNum = s.pkgNum := rfl
@[simp] theorem setG_parts (s : State) (r : Reg) (x : Word) : (s.setG r x).parts = s.parts := rfl
@[simp] theorem setG_hbm (s : State) (r : Reg) (x : Word) : (s.setG r x).hbm = s.hbm := rfl
@[simp] theorem setG_mem (s : State) (r : Reg) (x : Word) : (s.setG r x).mem = s.mem := rfl
@[simp] theorem setG_poison (s : State) (r : Reg) (x : Word) : (s.setG r x).poison = s.poison := rfl
@[simp] theorem setG_scrubDue (s : State) (r : Reg) (x : Word) : (s.setG r x).scrubDue = s.scrubDue := rfl
@[simp] theorem setG_vatDirty (s : State) (r : Reg) (x : Word) : (s.setG r x).vatDirty = s.vatDirty := rfl
@[simp] theorem setG_extents (s : State) (r : Reg) (x : Word) : (s.setG r x).extents = s.extents := rfl
@[simp] theorem setG_losses (s : State) (r : Reg) (x : Word) : (s.setG r x).losses = s.losses := rfl
@[simp] theorem setG_cores (s : State) (r : Reg) (x : Word) : (s.setG r x).cores = s.cores := rfl
@[simp] theorem setG_barriers (s : State) (r : Reg) (x : Word) : (s.setG r x).barriers = s.barriers := rfl
@[simp] theorem setG_bte (s : State) (r : Reg) (x : Word) : (s.setG r x).bte = s.bte := rfl
@[simp] theorem setG_nextBte (s : State) (r : Reg) (x : Word) : (s.setG r x).nextBte = s.nextBte := rfl
@[simp] theorem setG_bteTurn (s : State) (r : Reg) (x : Word) : (s.setG r x).bteTurn = s.bteTurn := rfl
@[simp] theorem setG_engineDone (s : State) (r : Reg) (x : Word) : (s.setG r x).engineDone = s.engineDone := rfl
@[simp] theorem setG_members (s : State) (r : Reg) (x : Word) : (s.setG r x).members = s.members := rfl
@[simp] theorem setG_collCount (s : State) (r : Reg) (x : Word) : (s.setG r x).collCount = s.collCount := rfl
@[simp] theorem setG_colls (s : State) (r : Reg) (x : Word) : (s.setG r x).colls = s.colls := rfl
@[simp] theorem setG_collEarly (s : State) (r : Reg) (x : Word) : (s.setG r x).collEarly = s.collEarly := rfl
@[simp] theorem setG_links (s : State) (r : Reg) (x : Word) : (s.setG r x).links = s.links := rfl
@[simp] theorem setG_routes (s : State) (r : Reg) (x : Word) : (s.setG r x).routes = s.routes := rfl
@[simp] theorem setG_txFlows (s : State) (r : Reg) (x : Word) : (s.setG r x).txFlows = s.txFlows := rfl
@[simp] theorem setG_rxFlows (s : State) (r : Reg) (x : Word) : (s.setG r x).rxFlows = s.rxFlows := rfl
@[simp] theorem setG_wire (s : State) (r : Reg) (x : Word) : (s.setG r x).wire = s.wire := rfl
@[simp] theorem setG_txWait (s : State) (r : Reg) (x : Word) : (s.setG r x).txWait = s.txWait := rfl
@[simp] theorem setG_farms (s : State) (r : Reg) (x : Word) : (s.setG r x).farms = s.farms := rfl
@[simp] theorem setG_nextFarm (s : State) (r : Reg) (x : Word) : (s.setG r x).nextFarm = s.nextFarm := rfl
@[simp] theorem setG_nextOrder (s : State) (r : Reg) (x : Word) : (s.setG r x).nextOrder = s.nextOrder := rfl
@[simp] theorem setG_quota (s : State) (r : Reg) (x : Word) : (s.setG r x).quota = s.quota := rfl
@[simp] theorem setG_reserve (s : State) (r : Reg) (x : Word) : (s.setG r x).reserve = s.reserve := rfl
@[simp] theorem setG_others (s : State) (r : Reg) (x : Word) : (s.setG r x).others = s.others := rfl
@[simp] theorem setG_turns (s : State) (r : Reg) (x : Word) : (s.setG r x).turns = s.turns := rfl
@[simp] theorem setG_clock (s : State) (r : Reg) (x : Word) : (s.setG r x).clock = s.clock := rfl
@[simp] theorem setG_free (s : State) (r : Reg) (x : Word) : (s.setG r x).free = s.free := rfl
@[simp] theorem setG_lost (s : State) (r : Reg) (x : Word) : (s.setG r x).lost = s.lost := rfl

/-! ### State.setPc -/

@[simp] theorem setPc_mode (s : State) (x : Word) : (s.setPc x).mode = s.mode := rfl
@[simp] theorem setPc_startStep (s : State) (x : Word) : (s.setPc x).startStep = s.startStep := rfl
@[simp] theorem setPc_warmFail (s : State) (x : Word) : (s.setPc x).warmFail = s.warmFail := rfl
@[simp] theorem setPc_patch (s : State) (x : Word) : (s.setPc x).patch = s.patch := rfl
@[simp] theorem setPc_resetResp (s : State) (x : Word) : (s.setPc x).resetResp = s.resetResp := rfl
@[simp] theorem setPc_cmdPort (s : State) (x : Word) : (s.setPc x).cmdPort = s.cmdPort := rfl
@[simp] theorem setPc_cmdRefused (s : State) (x : Word) : (s.setPc x).cmdRefused = s.cmdRefused := rfl
@[simp] theorem setPc_cmdBadWrite (s : State) (x : Word) : (s.setPc x).cmdBadWrite = s.cmdBadWrite := rfl
@[simp] theorem setPc_respPort (s : State) (x : Word) : (s.setPc x).respPort = s.respPort := rfl
@[simp] theorem setPc_notices (s : State) (x : Word) : (s.setPc x).notices = s.notices := rfl
@[simp] theorem setPc_msix (s : State) (x : Word) : (s.setPc x).msix = s.msix := rfl
@[simp] theorem setPc_hostRead (s : State) (x : Word) : (s.setPc x).hostRead = s.hostRead := rfl
@[simp] theorem setPc_hostPoison (s : State) (x : Word) : (s.setPc x).hostPoison = s.hostPoison := rfl
@[simp] theorem setPc_hostHeld (s : State) (x : Word) : (s.setPc x).hostHeld = s.hostHeld := rfl
@[simp] theorem setPc_errors (s : State) (x : Word) : (s.setPc x).errors = s.errors := rfl
@[simp] theorem setPc_errDropped (s : State) (x : Word) : (s.setPc x).errDropped = s.errDropped := rfl
@[simp] theorem setPc_power (s : State) (x : Word) : (s.setPc x).power = s.power := rfl
@[simp] theorem setPc_powerCap (s : State) (x : Word) : (s.setPc x).powerCap = s.powerCap := rfl
@[simp] theorem setPc_sensors (s : State) (x : Word) : (s.setPc x).sensors = s.sensors := rfl
@[simp] theorem setPc_clockDown0 (s : State) (x : Word) : (s.setPc x).clockDown0 = s.clockDown0 := rfl
@[simp] theorem setPc_clockDown1 (s : State) (x : Word) : (s.setPc x).clockDown1 = s.clockDown1 := rfl
@[simp] theorem setPc_ownerSlots (s : State) (x : Word) : (s.setPc x).ownerSlots = s.ownerSlots := rfl
@[simp] theorem setPc_slotsRevoked (s : State) (x : Word) : (s.setPc x).slotsRevoked = s.slotsRevoked := rfl
@[simp] theorem setPc_coresOn (s : State) (x : Word) : (s.setPc x).coresOn = s.coresOn := rfl
@[simp] theorem setPc_pkgNum (s : State) (x : Word) : (s.setPc x).pkgNum = s.pkgNum := rfl
@[simp] theorem setPc_parts (s : State) (x : Word) : (s.setPc x).parts = s.parts := rfl
@[simp] theorem setPc_hbm (s : State) (x : Word) : (s.setPc x).hbm = s.hbm := rfl
@[simp] theorem setPc_mem (s : State) (x : Word) : (s.setPc x).mem = s.mem := rfl
@[simp] theorem setPc_poison (s : State) (x : Word) : (s.setPc x).poison = s.poison := rfl
@[simp] theorem setPc_scrubDue (s : State) (x : Word) : (s.setPc x).scrubDue = s.scrubDue := rfl
@[simp] theorem setPc_vatDirty (s : State) (x : Word) : (s.setPc x).vatDirty = s.vatDirty := rfl
@[simp] theorem setPc_extents (s : State) (x : Word) : (s.setPc x).extents = s.extents := rfl
@[simp] theorem setPc_losses (s : State) (x : Word) : (s.setPc x).losses = s.losses := rfl
@[simp] theorem setPc_cores (s : State) (x : Word) : (s.setPc x).cores = s.cores := rfl
@[simp] theorem setPc_barriers (s : State) (x : Word) : (s.setPc x).barriers = s.barriers := rfl
@[simp] theorem setPc_bte (s : State) (x : Word) : (s.setPc x).bte = s.bte := rfl
@[simp] theorem setPc_nextBte (s : State) (x : Word) : (s.setPc x).nextBte = s.nextBte := rfl
@[simp] theorem setPc_bteTurn (s : State) (x : Word) : (s.setPc x).bteTurn = s.bteTurn := rfl
@[simp] theorem setPc_engineDone (s : State) (x : Word) : (s.setPc x).engineDone = s.engineDone := rfl
@[simp] theorem setPc_members (s : State) (x : Word) : (s.setPc x).members = s.members := rfl
@[simp] theorem setPc_collCount (s : State) (x : Word) : (s.setPc x).collCount = s.collCount := rfl
@[simp] theorem setPc_colls (s : State) (x : Word) : (s.setPc x).colls = s.colls := rfl
@[simp] theorem setPc_collEarly (s : State) (x : Word) : (s.setPc x).collEarly = s.collEarly := rfl
@[simp] theorem setPc_links (s : State) (x : Word) : (s.setPc x).links = s.links := rfl
@[simp] theorem setPc_routes (s : State) (x : Word) : (s.setPc x).routes = s.routes := rfl
@[simp] theorem setPc_txFlows (s : State) (x : Word) : (s.setPc x).txFlows = s.txFlows := rfl
@[simp] theorem setPc_rxFlows (s : State) (x : Word) : (s.setPc x).rxFlows = s.rxFlows := rfl
@[simp] theorem setPc_wire (s : State) (x : Word) : (s.setPc x).wire = s.wire := rfl
@[simp] theorem setPc_txWait (s : State) (x : Word) : (s.setPc x).txWait = s.txWait := rfl
@[simp] theorem setPc_farms (s : State) (x : Word) : (s.setPc x).farms = s.farms := rfl
@[simp] theorem setPc_nextFarm (s : State) (x : Word) : (s.setPc x).nextFarm = s.nextFarm := rfl
@[simp] theorem setPc_nextOrder (s : State) (x : Word) : (s.setPc x).nextOrder = s.nextOrder := rfl
@[simp] theorem setPc_quota (s : State) (x : Word) : (s.setPc x).quota = s.quota := rfl
@[simp] theorem setPc_reserve (s : State) (x : Word) : (s.setPc x).reserve = s.reserve := rfl
@[simp] theorem setPc_others (s : State) (x : Word) : (s.setPc x).others = s.others := rfl
@[simp] theorem setPc_turns (s : State) (x : Word) : (s.setPc x).turns = s.turns := rfl
@[simp] theorem setPc_clock (s : State) (x : Word) : (s.setPc x).clock = s.clock := rfl
@[simp] theorem setPc_free (s : State) (x : Word) : (s.setPc x).free = s.free := rfl
@[simp] theorem setPc_lost (s : State) (x : Word) : (s.setPc x).lost = s.lost := rfl

/-! ### State.advance -/

@[simp] theorem advance_mode (s : State) (n : Nat) : (s.advance n).mode = s.mode := rfl
@[simp] theorem advance_startStep (s : State) (n : Nat) : (s.advance n).startStep = s.startStep := rfl
@[simp] theorem advance_warmFail (s : State) (n : Nat) : (s.advance n).warmFail = s.warmFail := rfl
@[simp] theorem advance_patch (s : State) (n : Nat) : (s.advance n).patch = s.patch := rfl
@[simp] theorem advance_resetResp (s : State) (n : Nat) : (s.advance n).resetResp = s.resetResp := rfl
@[simp] theorem advance_cmdPort (s : State) (n : Nat) : (s.advance n).cmdPort = s.cmdPort := rfl
@[simp] theorem advance_cmdRefused (s : State) (n : Nat) : (s.advance n).cmdRefused = s.cmdRefused := rfl
@[simp] theorem advance_cmdBadWrite (s : State) (n : Nat) : (s.advance n).cmdBadWrite = s.cmdBadWrite := rfl
@[simp] theorem advance_respPort (s : State) (n : Nat) : (s.advance n).respPort = s.respPort := rfl
@[simp] theorem advance_notices (s : State) (n : Nat) : (s.advance n).notices = s.notices := rfl
@[simp] theorem advance_msix (s : State) (n : Nat) : (s.advance n).msix = s.msix := rfl
@[simp] theorem advance_hostRead (s : State) (n : Nat) : (s.advance n).hostRead = s.hostRead := rfl
@[simp] theorem advance_hostPoison (s : State) (n : Nat) : (s.advance n).hostPoison = s.hostPoison := rfl
@[simp] theorem advance_hostHeld (s : State) (n : Nat) : (s.advance n).hostHeld = s.hostHeld := rfl
@[simp] theorem advance_errors (s : State) (n : Nat) : (s.advance n).errors = s.errors := rfl
@[simp] theorem advance_errDropped (s : State) (n : Nat) : (s.advance n).errDropped = s.errDropped := rfl
@[simp] theorem advance_power (s : State) (n : Nat) : (s.advance n).power = s.power := rfl
@[simp] theorem advance_powerCap (s : State) (n : Nat) : (s.advance n).powerCap = s.powerCap := rfl
@[simp] theorem advance_sensors (s : State) (n : Nat) : (s.advance n).sensors = s.sensors := rfl
@[simp] theorem advance_clockDown0 (s : State) (n : Nat) : (s.advance n).clockDown0 = s.clockDown0 := rfl
@[simp] theorem advance_clockDown1 (s : State) (n : Nat) : (s.advance n).clockDown1 = s.clockDown1 := rfl
@[simp] theorem advance_ownerSlots (s : State) (n : Nat) : (s.advance n).ownerSlots = s.ownerSlots := rfl
@[simp] theorem advance_slotsRevoked (s : State) (n : Nat) : (s.advance n).slotsRevoked = s.slotsRevoked := rfl
@[simp] theorem advance_coresOn (s : State) (n : Nat) : (s.advance n).coresOn = s.coresOn := rfl
@[simp] theorem advance_pkgNum (s : State) (n : Nat) : (s.advance n).pkgNum = s.pkgNum := rfl
@[simp] theorem advance_parts (s : State) (n : Nat) : (s.advance n).parts = s.parts := rfl
@[simp] theorem advance_hbm (s : State) (n : Nat) : (s.advance n).hbm = s.hbm := rfl
@[simp] theorem advance_mem (s : State) (n : Nat) : (s.advance n).mem = s.mem := rfl
@[simp] theorem advance_poison (s : State) (n : Nat) : (s.advance n).poison = s.poison := rfl
@[simp] theorem advance_scrubDue (s : State) (n : Nat) : (s.advance n).scrubDue = s.scrubDue := rfl
@[simp] theorem advance_vatDirty (s : State) (n : Nat) : (s.advance n).vatDirty = s.vatDirty := rfl
@[simp] theorem advance_extents (s : State) (n : Nat) : (s.advance n).extents = s.extents := rfl
@[simp] theorem advance_losses (s : State) (n : Nat) : (s.advance n).losses = s.losses := rfl
@[simp] theorem advance_cores (s : State) (n : Nat) : (s.advance n).cores = s.cores := rfl
@[simp] theorem advance_barriers (s : State) (n : Nat) : (s.advance n).barriers = s.barriers := rfl
@[simp] theorem advance_bte (s : State) (n : Nat) : (s.advance n).bte = s.bte := rfl
@[simp] theorem advance_nextBte (s : State) (n : Nat) : (s.advance n).nextBte = s.nextBte := rfl
@[simp] theorem advance_bteTurn (s : State) (n : Nat) : (s.advance n).bteTurn = s.bteTurn := rfl
@[simp] theorem advance_engineDone (s : State) (n : Nat) : (s.advance n).engineDone = s.engineDone := rfl
@[simp] theorem advance_members (s : State) (n : Nat) : (s.advance n).members = s.members := rfl
@[simp] theorem advance_collCount (s : State) (n : Nat) : (s.advance n).collCount = s.collCount := rfl
@[simp] theorem advance_colls (s : State) (n : Nat) : (s.advance n).colls = s.colls := rfl
@[simp] theorem advance_collEarly (s : State) (n : Nat) : (s.advance n).collEarly = s.collEarly := rfl
@[simp] theorem advance_links (s : State) (n : Nat) : (s.advance n).links = s.links := rfl
@[simp] theorem advance_routes (s : State) (n : Nat) : (s.advance n).routes = s.routes := rfl
@[simp] theorem advance_txFlows (s : State) (n : Nat) : (s.advance n).txFlows = s.txFlows := rfl
@[simp] theorem advance_rxFlows (s : State) (n : Nat) : (s.advance n).rxFlows = s.rxFlows := rfl
@[simp] theorem advance_wire (s : State) (n : Nat) : (s.advance n).wire = s.wire := rfl
@[simp] theorem advance_txWait (s : State) (n : Nat) : (s.advance n).txWait = s.txWait := rfl
@[simp] theorem advance_farms (s : State) (n : Nat) : (s.advance n).farms = s.farms := rfl
@[simp] theorem advance_nextFarm (s : State) (n : Nat) : (s.advance n).nextFarm = s.nextFarm := rfl
@[simp] theorem advance_nextOrder (s : State) (n : Nat) : (s.advance n).nextOrder = s.nextOrder := rfl
@[simp] theorem advance_quota (s : State) (n : Nat) : (s.advance n).quota = s.quota := rfl
@[simp] theorem advance_reserve (s : State) (n : Nat) : (s.advance n).reserve = s.reserve := rfl
@[simp] theorem advance_others (s : State) (n : Nat) : (s.advance n).others = s.others := rfl
@[simp] theorem advance_turns (s : State) (n : Nat) : (s.advance n).turns = s.turns := rfl
@[simp] theorem advance_clock (s : State) (n : Nat) : (s.advance n).clock = s.clock := rfl
@[simp] theorem advance_free (s : State) (n : Nat) : (s.advance n).free = s.free := rfl
@[simp] theorem advance_lost (s : State) (n : Nat) : (s.advance n).lost = s.lost := rfl

/-! ### State.retire -/

@[simp] theorem retire_mode (s : State) (d : Reg) (x : Word) (n : Nat) : (s.retire d x n).mode = s.mode := rfl
@[simp] theorem retire_startStep (s : State) (d : Reg) (x : Word) (n : Nat) : (s.retire d x n).startStep = s.startStep := rfl
@[simp] theorem retire_warmFail (s : State) (d : Reg) (x : Word) (n : Nat) : (s.retire d x n).warmFail = s.warmFail := rfl
@[simp] theorem retire_patch (s : State) (d : Reg) (x : Word) (n : Nat) : (s.retire d x n).patch = s.patch := rfl
@[simp] theorem retire_resetResp (s : State) (d : Reg) (x : Word) (n : Nat) : (s.retire d x n).resetResp = s.resetResp := rfl
@[simp] theorem retire_cmdPort (s : State) (d : Reg) (x : Word) (n : Nat) : (s.retire d x n).cmdPort = s.cmdPort := rfl
@[simp] theorem retire_cmdRefused (s : State) (d : Reg) (x : Word) (n : Nat) : (s.retire d x n).cmdRefused = s.cmdRefused := rfl
@[simp] theorem retire_cmdBadWrite (s : State) (d : Reg) (x : Word) (n : Nat) : (s.retire d x n).cmdBadWrite = s.cmdBadWrite := rfl
@[simp] theorem retire_respPort (s : State) (d : Reg) (x : Word) (n : Nat) : (s.retire d x n).respPort = s.respPort := rfl
@[simp] theorem retire_notices (s : State) (d : Reg) (x : Word) (n : Nat) : (s.retire d x n).notices = s.notices := rfl
@[simp] theorem retire_msix (s : State) (d : Reg) (x : Word) (n : Nat) : (s.retire d x n).msix = s.msix := rfl
@[simp] theorem retire_hostRead (s : State) (d : Reg) (x : Word) (n : Nat) : (s.retire d x n).hostRead = s.hostRead := rfl
@[simp] theorem retire_hostPoison (s : State) (d : Reg) (x : Word) (n : Nat) : (s.retire d x n).hostPoison = s.hostPoison := rfl
@[simp] theorem retire_hostHeld (s : State) (d : Reg) (x : Word) (n : Nat) : (s.retire d x n).hostHeld = s.hostHeld := rfl
@[simp] theorem retire_errors (s : State) (d : Reg) (x : Word) (n : Nat) : (s.retire d x n).errors = s.errors := rfl
@[simp] theorem retire_errDropped (s : State) (d : Reg) (x : Word) (n : Nat) : (s.retire d x n).errDropped = s.errDropped := rfl
@[simp] theorem retire_power (s : State) (d : Reg) (x : Word) (n : Nat) : (s.retire d x n).power = s.power := rfl
@[simp] theorem retire_powerCap (s : State) (d : Reg) (x : Word) (n : Nat) : (s.retire d x n).powerCap = s.powerCap := rfl
@[simp] theorem retire_sensors (s : State) (d : Reg) (x : Word) (n : Nat) : (s.retire d x n).sensors = s.sensors := rfl
@[simp] theorem retire_clockDown0 (s : State) (d : Reg) (x : Word) (n : Nat) : (s.retire d x n).clockDown0 = s.clockDown0 := rfl
@[simp] theorem retire_clockDown1 (s : State) (d : Reg) (x : Word) (n : Nat) : (s.retire d x n).clockDown1 = s.clockDown1 := rfl
@[simp] theorem retire_ownerSlots (s : State) (d : Reg) (x : Word) (n : Nat) : (s.retire d x n).ownerSlots = s.ownerSlots := rfl
@[simp] theorem retire_slotsRevoked (s : State) (d : Reg) (x : Word) (n : Nat) : (s.retire d x n).slotsRevoked = s.slotsRevoked := rfl
@[simp] theorem retire_coresOn (s : State) (d : Reg) (x : Word) (n : Nat) : (s.retire d x n).coresOn = s.coresOn := rfl
@[simp] theorem retire_pkgNum (s : State) (d : Reg) (x : Word) (n : Nat) : (s.retire d x n).pkgNum = s.pkgNum := rfl
@[simp] theorem retire_parts (s : State) (d : Reg) (x : Word) (n : Nat) : (s.retire d x n).parts = s.parts := rfl
@[simp] theorem retire_hbm (s : State) (d : Reg) (x : Word) (n : Nat) : (s.retire d x n).hbm = s.hbm := rfl
@[simp] theorem retire_mem (s : State) (d : Reg) (x : Word) (n : Nat) : (s.retire d x n).mem = s.mem := rfl
@[simp] theorem retire_poison (s : State) (d : Reg) (x : Word) (n : Nat) : (s.retire d x n).poison = s.poison := rfl
@[simp] theorem retire_scrubDue (s : State) (d : Reg) (x : Word) (n : Nat) : (s.retire d x n).scrubDue = s.scrubDue := rfl
@[simp] theorem retire_vatDirty (s : State) (d : Reg) (x : Word) (n : Nat) : (s.retire d x n).vatDirty = s.vatDirty := rfl
@[simp] theorem retire_extents (s : State) (d : Reg) (x : Word) (n : Nat) : (s.retire d x n).extents = s.extents := rfl
@[simp] theorem retire_losses (s : State) (d : Reg) (x : Word) (n : Nat) : (s.retire d x n).losses = s.losses := rfl
@[simp] theorem retire_cores (s : State) (d : Reg) (x : Word) (n : Nat) : (s.retire d x n).cores = s.cores := rfl
@[simp] theorem retire_barriers (s : State) (d : Reg) (x : Word) (n : Nat) : (s.retire d x n).barriers = s.barriers := rfl
@[simp] theorem retire_bte (s : State) (d : Reg) (x : Word) (n : Nat) : (s.retire d x n).bte = s.bte := rfl
@[simp] theorem retire_nextBte (s : State) (d : Reg) (x : Word) (n : Nat) : (s.retire d x n).nextBte = s.nextBte := rfl
@[simp] theorem retire_bteTurn (s : State) (d : Reg) (x : Word) (n : Nat) : (s.retire d x n).bteTurn = s.bteTurn := rfl
@[simp] theorem retire_engineDone (s : State) (d : Reg) (x : Word) (n : Nat) : (s.retire d x n).engineDone = s.engineDone := rfl
@[simp] theorem retire_members (s : State) (d : Reg) (x : Word) (n : Nat) : (s.retire d x n).members = s.members := rfl
@[simp] theorem retire_collCount (s : State) (d : Reg) (x : Word) (n : Nat) : (s.retire d x n).collCount = s.collCount := rfl
@[simp] theorem retire_colls (s : State) (d : Reg) (x : Word) (n : Nat) : (s.retire d x n).colls = s.colls := rfl
@[simp] theorem retire_collEarly (s : State) (d : Reg) (x : Word) (n : Nat) : (s.retire d x n).collEarly = s.collEarly := rfl
@[simp] theorem retire_links (s : State) (d : Reg) (x : Word) (n : Nat) : (s.retire d x n).links = s.links := rfl
@[simp] theorem retire_routes (s : State) (d : Reg) (x : Word) (n : Nat) : (s.retire d x n).routes = s.routes := rfl
@[simp] theorem retire_txFlows (s : State) (d : Reg) (x : Word) (n : Nat) : (s.retire d x n).txFlows = s.txFlows := rfl
@[simp] theorem retire_rxFlows (s : State) (d : Reg) (x : Word) (n : Nat) : (s.retire d x n).rxFlows = s.rxFlows := rfl
@[simp] theorem retire_wire (s : State) (d : Reg) (x : Word) (n : Nat) : (s.retire d x n).wire = s.wire := rfl
@[simp] theorem retire_txWait (s : State) (d : Reg) (x : Word) (n : Nat) : (s.retire d x n).txWait = s.txWait := rfl
@[simp] theorem retire_farms (s : State) (d : Reg) (x : Word) (n : Nat) : (s.retire d x n).farms = s.farms := rfl
@[simp] theorem retire_nextFarm (s : State) (d : Reg) (x : Word) (n : Nat) : (s.retire d x n).nextFarm = s.nextFarm := rfl
@[simp] theorem retire_nextOrder (s : State) (d : Reg) (x : Word) (n : Nat) : (s.retire d x n).nextOrder = s.nextOrder := rfl
@[simp] theorem retire_quota (s : State) (d : Reg) (x : Word) (n : Nat) : (s.retire d x n).quota = s.quota := rfl
@[simp] theorem retire_reserve (s : State) (d : Reg) (x : Word) (n : Nat) : (s.retire d x n).reserve = s.reserve := rfl
@[simp] theorem retire_others (s : State) (d : Reg) (x : Word) (n : Nat) : (s.retire d x n).others = s.others := rfl
@[simp] theorem retire_turns (s : State) (d : Reg) (x : Word) (n : Nat) : (s.retire d x n).turns = s.turns := rfl
@[simp] theorem retire_clock (s : State) (d : Reg) (x : Word) (n : Nat) : (s.retire d x n).clock = s.clock := rfl
@[simp] theorem retire_free (s : State) (d : Reg) (x : Word) (n : Nat) : (s.retire d x n).free = s.free := rfl
@[simp] theorem retire_lost (s : State) (d : Reg) (x : Word) (n : Nat) : (s.retire d x n).lost = s.lost := rfl

/-! ### State.stall -/

@[simp] theorem stall_mode (s : State) : (s.stall).mode = s.mode := rfl
@[simp] theorem stall_startStep (s : State) : (s.stall).startStep = s.startStep := rfl
@[simp] theorem stall_warmFail (s : State) : (s.stall).warmFail = s.warmFail := rfl
@[simp] theorem stall_patch (s : State) : (s.stall).patch = s.patch := rfl
@[simp] theorem stall_resetResp (s : State) : (s.stall).resetResp = s.resetResp := rfl
@[simp] theorem stall_cmdPort (s : State) : (s.stall).cmdPort = s.cmdPort := rfl
@[simp] theorem stall_cmdRefused (s : State) : (s.stall).cmdRefused = s.cmdRefused := rfl
@[simp] theorem stall_cmdBadWrite (s : State) : (s.stall).cmdBadWrite = s.cmdBadWrite := rfl
@[simp] theorem stall_respPort (s : State) : (s.stall).respPort = s.respPort := rfl
@[simp] theorem stall_notices (s : State) : (s.stall).notices = s.notices := rfl
@[simp] theorem stall_msix (s : State) : (s.stall).msix = s.msix := rfl
@[simp] theorem stall_hostRead (s : State) : (s.stall).hostRead = s.hostRead := rfl
@[simp] theorem stall_hostPoison (s : State) : (s.stall).hostPoison = s.hostPoison := rfl
@[simp] theorem stall_hostHeld (s : State) : (s.stall).hostHeld = s.hostHeld := rfl
@[simp] theorem stall_errors (s : State) : (s.stall).errors = s.errors := rfl
@[simp] theorem stall_errDropped (s : State) : (s.stall).errDropped = s.errDropped := rfl
@[simp] theorem stall_power (s : State) : (s.stall).power = s.power := rfl
@[simp] theorem stall_powerCap (s : State) : (s.stall).powerCap = s.powerCap := rfl
@[simp] theorem stall_sensors (s : State) : (s.stall).sensors = s.sensors := rfl
@[simp] theorem stall_clockDown0 (s : State) : (s.stall).clockDown0 = s.clockDown0 := rfl
@[simp] theorem stall_clockDown1 (s : State) : (s.stall).clockDown1 = s.clockDown1 := rfl
@[simp] theorem stall_ownerSlots (s : State) : (s.stall).ownerSlots = s.ownerSlots := rfl
@[simp] theorem stall_slotsRevoked (s : State) : (s.stall).slotsRevoked = s.slotsRevoked := rfl
@[simp] theorem stall_coresOn (s : State) : (s.stall).coresOn = s.coresOn := rfl
@[simp] theorem stall_pkgNum (s : State) : (s.stall).pkgNum = s.pkgNum := rfl
@[simp] theorem stall_parts (s : State) : (s.stall).parts = s.parts := rfl
@[simp] theorem stall_hbm (s : State) : (s.stall).hbm = s.hbm := rfl
@[simp] theorem stall_mem (s : State) : (s.stall).mem = s.mem := rfl
@[simp] theorem stall_poison (s : State) : (s.stall).poison = s.poison := rfl
@[simp] theorem stall_scrubDue (s : State) : (s.stall).scrubDue = s.scrubDue := rfl
@[simp] theorem stall_vatDirty (s : State) : (s.stall).vatDirty = s.vatDirty := rfl
@[simp] theorem stall_extents (s : State) : (s.stall).extents = s.extents := rfl
@[simp] theorem stall_losses (s : State) : (s.stall).losses = s.losses := rfl
@[simp] theorem stall_cores (s : State) : (s.stall).cores = s.cores := rfl
@[simp] theorem stall_barriers (s : State) : (s.stall).barriers = s.barriers := rfl
@[simp] theorem stall_bte (s : State) : (s.stall).bte = s.bte := rfl
@[simp] theorem stall_nextBte (s : State) : (s.stall).nextBte = s.nextBte := rfl
@[simp] theorem stall_bteTurn (s : State) : (s.stall).bteTurn = s.bteTurn := rfl
@[simp] theorem stall_engineDone (s : State) : (s.stall).engineDone = s.engineDone := rfl
@[simp] theorem stall_members (s : State) : (s.stall).members = s.members := rfl
@[simp] theorem stall_collCount (s : State) : (s.stall).collCount = s.collCount := rfl
@[simp] theorem stall_colls (s : State) : (s.stall).colls = s.colls := rfl
@[simp] theorem stall_collEarly (s : State) : (s.stall).collEarly = s.collEarly := rfl
@[simp] theorem stall_links (s : State) : (s.stall).links = s.links := rfl
@[simp] theorem stall_routes (s : State) : (s.stall).routes = s.routes := rfl
@[simp] theorem stall_txFlows (s : State) : (s.stall).txFlows = s.txFlows := rfl
@[simp] theorem stall_rxFlows (s : State) : (s.stall).rxFlows = s.rxFlows := rfl
@[simp] theorem stall_wire (s : State) : (s.stall).wire = s.wire := rfl
@[simp] theorem stall_txWait (s : State) : (s.stall).txWait = s.txWait := rfl
@[simp] theorem stall_farms (s : State) : (s.stall).farms = s.farms := rfl
@[simp] theorem stall_nextFarm (s : State) : (s.stall).nextFarm = s.nextFarm := rfl
@[simp] theorem stall_nextOrder (s : State) : (s.stall).nextOrder = s.nextOrder := rfl
@[simp] theorem stall_quota (s : State) : (s.stall).quota = s.quota := rfl
@[simp] theorem stall_reserve (s : State) : (s.stall).reserve = s.reserve := rfl
@[simp] theorem stall_others (s : State) : (s.stall).others = s.others := rfl
@[simp] theorem stall_turns (s : State) : (s.stall).turns = s.turns := rfl
@[simp] theorem stall_clock (s : State) : (s.stall).clock = s.clock := rfl
@[simp] theorem stall_free (s : State) : (s.stall).free = s.free := rfl
@[simp] theorem stall_lost (s : State) : (s.stall).lost = s.lost := rfl

/-! ### State.modCore -/

@[simp] theorem modCore_mode (s : State) (n : Nat) (f : Core → Core) : (s.modCore n f).mode = s.mode := rfl
@[simp] theorem modCore_startStep (s : State) (n : Nat) (f : Core → Core) : (s.modCore n f).startStep = s.startStep := rfl
@[simp] theorem modCore_warmFail (s : State) (n : Nat) (f : Core → Core) : (s.modCore n f).warmFail = s.warmFail := rfl
@[simp] theorem modCore_patch (s : State) (n : Nat) (f : Core → Core) : (s.modCore n f).patch = s.patch := rfl
@[simp] theorem modCore_resetResp (s : State) (n : Nat) (f : Core → Core) : (s.modCore n f).resetResp = s.resetResp := rfl
@[simp] theorem modCore_cmdPort (s : State) (n : Nat) (f : Core → Core) : (s.modCore n f).cmdPort = s.cmdPort := rfl
@[simp] theorem modCore_cmdRefused (s : State) (n : Nat) (f : Core → Core) : (s.modCore n f).cmdRefused = s.cmdRefused := rfl
@[simp] theorem modCore_cmdBadWrite (s : State) (n : Nat) (f : Core → Core) : (s.modCore n f).cmdBadWrite = s.cmdBadWrite := rfl
@[simp] theorem modCore_respPort (s : State) (n : Nat) (f : Core → Core) : (s.modCore n f).respPort = s.respPort := rfl
@[simp] theorem modCore_notices (s : State) (n : Nat) (f : Core → Core) : (s.modCore n f).notices = s.notices := rfl
@[simp] theorem modCore_msix (s : State) (n : Nat) (f : Core → Core) : (s.modCore n f).msix = s.msix := rfl
@[simp] theorem modCore_hostRead (s : State) (n : Nat) (f : Core → Core) : (s.modCore n f).hostRead = s.hostRead := rfl
@[simp] theorem modCore_hostPoison (s : State) (n : Nat) (f : Core → Core) : (s.modCore n f).hostPoison = s.hostPoison := rfl
@[simp] theorem modCore_hostHeld (s : State) (n : Nat) (f : Core → Core) : (s.modCore n f).hostHeld = s.hostHeld := rfl
@[simp] theorem modCore_errors (s : State) (n : Nat) (f : Core → Core) : (s.modCore n f).errors = s.errors := rfl
@[simp] theorem modCore_errDropped (s : State) (n : Nat) (f : Core → Core) : (s.modCore n f).errDropped = s.errDropped := rfl
@[simp] theorem modCore_power (s : State) (n : Nat) (f : Core → Core) : (s.modCore n f).power = s.power := rfl
@[simp] theorem modCore_powerCap (s : State) (n : Nat) (f : Core → Core) : (s.modCore n f).powerCap = s.powerCap := rfl
@[simp] theorem modCore_sensors (s : State) (n : Nat) (f : Core → Core) : (s.modCore n f).sensors = s.sensors := rfl
@[simp] theorem modCore_clockDown0 (s : State) (n : Nat) (f : Core → Core) : (s.modCore n f).clockDown0 = s.clockDown0 := rfl
@[simp] theorem modCore_clockDown1 (s : State) (n : Nat) (f : Core → Core) : (s.modCore n f).clockDown1 = s.clockDown1 := rfl
@[simp] theorem modCore_ownerSlots (s : State) (n : Nat) (f : Core → Core) : (s.modCore n f).ownerSlots = s.ownerSlots := rfl
@[simp] theorem modCore_slotsRevoked (s : State) (n : Nat) (f : Core → Core) : (s.modCore n f).slotsRevoked = s.slotsRevoked := rfl
@[simp] theorem modCore_coresOn (s : State) (n : Nat) (f : Core → Core) : (s.modCore n f).coresOn = s.coresOn := rfl
@[simp] theorem modCore_pkgNum (s : State) (n : Nat) (f : Core → Core) : (s.modCore n f).pkgNum = s.pkgNum := rfl
@[simp] theorem modCore_parts (s : State) (n : Nat) (f : Core → Core) : (s.modCore n f).parts = s.parts := rfl
@[simp] theorem modCore_hbm (s : State) (n : Nat) (f : Core → Core) : (s.modCore n f).hbm = s.hbm := rfl
@[simp] theorem modCore_mem (s : State) (n : Nat) (f : Core → Core) : (s.modCore n f).mem = s.mem := rfl
@[simp] theorem modCore_poison (s : State) (n : Nat) (f : Core → Core) : (s.modCore n f).poison = s.poison := rfl
@[simp] theorem modCore_scrubDue (s : State) (n : Nat) (f : Core → Core) : (s.modCore n f).scrubDue = s.scrubDue := rfl
@[simp] theorem modCore_vatDirty (s : State) (n : Nat) (f : Core → Core) : (s.modCore n f).vatDirty = s.vatDirty := rfl
@[simp] theorem modCore_extents (s : State) (n : Nat) (f : Core → Core) : (s.modCore n f).extents = s.extents := rfl
@[simp] theorem modCore_losses (s : State) (n : Nat) (f : Core → Core) : (s.modCore n f).losses = s.losses := rfl
@[simp] theorem modCore_barriers (s : State) (n : Nat) (f : Core → Core) : (s.modCore n f).barriers = s.barriers := rfl
@[simp] theorem modCore_bte (s : State) (n : Nat) (f : Core → Core) : (s.modCore n f).bte = s.bte := rfl
@[simp] theorem modCore_nextBte (s : State) (n : Nat) (f : Core → Core) : (s.modCore n f).nextBte = s.nextBte := rfl
@[simp] theorem modCore_bteTurn (s : State) (n : Nat) (f : Core → Core) : (s.modCore n f).bteTurn = s.bteTurn := rfl
@[simp] theorem modCore_engineDone (s : State) (n : Nat) (f : Core → Core) : (s.modCore n f).engineDone = s.engineDone := rfl
@[simp] theorem modCore_members (s : State) (n : Nat) (f : Core → Core) : (s.modCore n f).members = s.members := rfl
@[simp] theorem modCore_collCount (s : State) (n : Nat) (f : Core → Core) : (s.modCore n f).collCount = s.collCount := rfl
@[simp] theorem modCore_colls (s : State) (n : Nat) (f : Core → Core) : (s.modCore n f).colls = s.colls := rfl
@[simp] theorem modCore_collEarly (s : State) (n : Nat) (f : Core → Core) : (s.modCore n f).collEarly = s.collEarly := rfl
@[simp] theorem modCore_links (s : State) (n : Nat) (f : Core → Core) : (s.modCore n f).links = s.links := rfl
@[simp] theorem modCore_routes (s : State) (n : Nat) (f : Core → Core) : (s.modCore n f).routes = s.routes := rfl
@[simp] theorem modCore_txFlows (s : State) (n : Nat) (f : Core → Core) : (s.modCore n f).txFlows = s.txFlows := rfl
@[simp] theorem modCore_rxFlows (s : State) (n : Nat) (f : Core → Core) : (s.modCore n f).rxFlows = s.rxFlows := rfl
@[simp] theorem modCore_wire (s : State) (n : Nat) (f : Core → Core) : (s.modCore n f).wire = s.wire := rfl
@[simp] theorem modCore_txWait (s : State) (n : Nat) (f : Core → Core) : (s.modCore n f).txWait = s.txWait := rfl
@[simp] theorem modCore_farms (s : State) (n : Nat) (f : Core → Core) : (s.modCore n f).farms = s.farms := rfl
@[simp] theorem modCore_nextFarm (s : State) (n : Nat) (f : Core → Core) : (s.modCore n f).nextFarm = s.nextFarm := rfl
@[simp] theorem modCore_nextOrder (s : State) (n : Nat) (f : Core → Core) : (s.modCore n f).nextOrder = s.nextOrder := rfl
@[simp] theorem modCore_quota (s : State) (n : Nat) (f : Core → Core) : (s.modCore n f).quota = s.quota := rfl
@[simp] theorem modCore_reserve (s : State) (n : Nat) (f : Core → Core) : (s.modCore n f).reserve = s.reserve := rfl
@[simp] theorem modCore_cur (s : State) (n : Nat) (f : Core → Core) : (s.modCore n f).cur = s.cur := rfl
@[simp] theorem modCore_others (s : State) (n : Nat) (f : Core → Core) : (s.modCore n f).others = s.others := rfl
@[simp] theorem modCore_turns (s : State) (n : Nat) (f : Core → Core) : (s.modCore n f).turns = s.turns := rfl
@[simp] theorem modCore_clock (s : State) (n : Nat) (f : Core → Core) : (s.modCore n f).clock = s.clock := rfl
@[simp] theorem modCore_free (s : State) (n : Nat) (f : Core → Core) : (s.modCore n f).free = s.free := rfl
@[simp] theorem modCore_lost (s : State) (n : Nat) (f : Core → Core) : (s.modCore n f).lost = s.lost := rfl

/-! ### State.modStack -/

@[simp] theorem modStack_mode (s : State) (n : Nat) (f : Stack → Stack) : (s.modStack n f).mode = s.mode := rfl
@[simp] theorem modStack_startStep (s : State) (n : Nat) (f : Stack → Stack) : (s.modStack n f).startStep = s.startStep := rfl
@[simp] theorem modStack_warmFail (s : State) (n : Nat) (f : Stack → Stack) : (s.modStack n f).warmFail = s.warmFail := rfl
@[simp] theorem modStack_patch (s : State) (n : Nat) (f : Stack → Stack) : (s.modStack n f).patch = s.patch := rfl
@[simp] theorem modStack_resetResp (s : State) (n : Nat) (f : Stack → Stack) : (s.modStack n f).resetResp = s.resetResp := rfl
@[simp] theorem modStack_cmdPort (s : State) (n : Nat) (f : Stack → Stack) : (s.modStack n f).cmdPort = s.cmdPort := rfl
@[simp] theorem modStack_cmdRefused (s : State) (n : Nat) (f : Stack → Stack) : (s.modStack n f).cmdRefused = s.cmdRefused := rfl
@[simp] theorem modStack_cmdBadWrite (s : State) (n : Nat) (f : Stack → Stack) : (s.modStack n f).cmdBadWrite = s.cmdBadWrite := rfl
@[simp] theorem modStack_respPort (s : State) (n : Nat) (f : Stack → Stack) : (s.modStack n f).respPort = s.respPort := rfl
@[simp] theorem modStack_notices (s : State) (n : Nat) (f : Stack → Stack) : (s.modStack n f).notices = s.notices := rfl
@[simp] theorem modStack_msix (s : State) (n : Nat) (f : Stack → Stack) : (s.modStack n f).msix = s.msix := rfl
@[simp] theorem modStack_hostRead (s : State) (n : Nat) (f : Stack → Stack) : (s.modStack n f).hostRead = s.hostRead := rfl
@[simp] theorem modStack_hostPoison (s : State) (n : Nat) (f : Stack → Stack) : (s.modStack n f).hostPoison = s.hostPoison := rfl
@[simp] theorem modStack_hostHeld (s : State) (n : Nat) (f : Stack → Stack) : (s.modStack n f).hostHeld = s.hostHeld := rfl
@[simp] theorem modStack_errors (s : State) (n : Nat) (f : Stack → Stack) : (s.modStack n f).errors = s.errors := rfl
@[simp] theorem modStack_errDropped (s : State) (n : Nat) (f : Stack → Stack) : (s.modStack n f).errDropped = s.errDropped := rfl
@[simp] theorem modStack_power (s : State) (n : Nat) (f : Stack → Stack) : (s.modStack n f).power = s.power := rfl
@[simp] theorem modStack_powerCap (s : State) (n : Nat) (f : Stack → Stack) : (s.modStack n f).powerCap = s.powerCap := rfl
@[simp] theorem modStack_sensors (s : State) (n : Nat) (f : Stack → Stack) : (s.modStack n f).sensors = s.sensors := rfl
@[simp] theorem modStack_clockDown0 (s : State) (n : Nat) (f : Stack → Stack) : (s.modStack n f).clockDown0 = s.clockDown0 := rfl
@[simp] theorem modStack_clockDown1 (s : State) (n : Nat) (f : Stack → Stack) : (s.modStack n f).clockDown1 = s.clockDown1 := rfl
@[simp] theorem modStack_ownerSlots (s : State) (n : Nat) (f : Stack → Stack) : (s.modStack n f).ownerSlots = s.ownerSlots := rfl
@[simp] theorem modStack_slotsRevoked (s : State) (n : Nat) (f : Stack → Stack) : (s.modStack n f).slotsRevoked = s.slotsRevoked := rfl
@[simp] theorem modStack_coresOn (s : State) (n : Nat) (f : Stack → Stack) : (s.modStack n f).coresOn = s.coresOn := rfl
@[simp] theorem modStack_pkgNum (s : State) (n : Nat) (f : Stack → Stack) : (s.modStack n f).pkgNum = s.pkgNum := rfl
@[simp] theorem modStack_parts (s : State) (n : Nat) (f : Stack → Stack) : (s.modStack n f).parts = s.parts := rfl
@[simp] theorem modStack_mem (s : State) (n : Nat) (f : Stack → Stack) : (s.modStack n f).mem = s.mem := rfl
@[simp] theorem modStack_poison (s : State) (n : Nat) (f : Stack → Stack) : (s.modStack n f).poison = s.poison := rfl
@[simp] theorem modStack_scrubDue (s : State) (n : Nat) (f : Stack → Stack) : (s.modStack n f).scrubDue = s.scrubDue := rfl
@[simp] theorem modStack_vatDirty (s : State) (n : Nat) (f : Stack → Stack) : (s.modStack n f).vatDirty = s.vatDirty := rfl
@[simp] theorem modStack_extents (s : State) (n : Nat) (f : Stack → Stack) : (s.modStack n f).extents = s.extents := rfl
@[simp] theorem modStack_losses (s : State) (n : Nat) (f : Stack → Stack) : (s.modStack n f).losses = s.losses := rfl
@[simp] theorem modStack_cores (s : State) (n : Nat) (f : Stack → Stack) : (s.modStack n f).cores = s.cores := rfl
@[simp] theorem modStack_barriers (s : State) (n : Nat) (f : Stack → Stack) : (s.modStack n f).barriers = s.barriers := rfl
@[simp] theorem modStack_bte (s : State) (n : Nat) (f : Stack → Stack) : (s.modStack n f).bte = s.bte := rfl
@[simp] theorem modStack_nextBte (s : State) (n : Nat) (f : Stack → Stack) : (s.modStack n f).nextBte = s.nextBte := rfl
@[simp] theorem modStack_bteTurn (s : State) (n : Nat) (f : Stack → Stack) : (s.modStack n f).bteTurn = s.bteTurn := rfl
@[simp] theorem modStack_engineDone (s : State) (n : Nat) (f : Stack → Stack) : (s.modStack n f).engineDone = s.engineDone := rfl
@[simp] theorem modStack_members (s : State) (n : Nat) (f : Stack → Stack) : (s.modStack n f).members = s.members := rfl
@[simp] theorem modStack_collCount (s : State) (n : Nat) (f : Stack → Stack) : (s.modStack n f).collCount = s.collCount := rfl
@[simp] theorem modStack_colls (s : State) (n : Nat) (f : Stack → Stack) : (s.modStack n f).colls = s.colls := rfl
@[simp] theorem modStack_collEarly (s : State) (n : Nat) (f : Stack → Stack) : (s.modStack n f).collEarly = s.collEarly := rfl
@[simp] theorem modStack_links (s : State) (n : Nat) (f : Stack → Stack) : (s.modStack n f).links = s.links := rfl
@[simp] theorem modStack_routes (s : State) (n : Nat) (f : Stack → Stack) : (s.modStack n f).routes = s.routes := rfl
@[simp] theorem modStack_txFlows (s : State) (n : Nat) (f : Stack → Stack) : (s.modStack n f).txFlows = s.txFlows := rfl
@[simp] theorem modStack_rxFlows (s : State) (n : Nat) (f : Stack → Stack) : (s.modStack n f).rxFlows = s.rxFlows := rfl
@[simp] theorem modStack_wire (s : State) (n : Nat) (f : Stack → Stack) : (s.modStack n f).wire = s.wire := rfl
@[simp] theorem modStack_txWait (s : State) (n : Nat) (f : Stack → Stack) : (s.modStack n f).txWait = s.txWait := rfl
@[simp] theorem modStack_farms (s : State) (n : Nat) (f : Stack → Stack) : (s.modStack n f).farms = s.farms := rfl
@[simp] theorem modStack_nextFarm (s : State) (n : Nat) (f : Stack → Stack) : (s.modStack n f).nextFarm = s.nextFarm := rfl
@[simp] theorem modStack_nextOrder (s : State) (n : Nat) (f : Stack → Stack) : (s.modStack n f).nextOrder = s.nextOrder := rfl
@[simp] theorem modStack_quota (s : State) (n : Nat) (f : Stack → Stack) : (s.modStack n f).quota = s.quota := rfl
@[simp] theorem modStack_reserve (s : State) (n : Nat) (f : Stack → Stack) : (s.modStack n f).reserve = s.reserve := rfl
@[simp] theorem modStack_cur (s : State) (n : Nat) (f : Stack → Stack) : (s.modStack n f).cur = s.cur := rfl
@[simp] theorem modStack_others (s : State) (n : Nat) (f : Stack → Stack) : (s.modStack n f).others = s.others := rfl
@[simp] theorem modStack_turns (s : State) (n : Nat) (f : Stack → Stack) : (s.modStack n f).turns = s.turns := rfl
@[simp] theorem modStack_clock (s : State) (n : Nat) (f : Stack → Stack) : (s.modStack n f).clock = s.clock := rfl
@[simp] theorem modStack_free (s : State) (n : Nat) (f : Stack → Stack) : (s.modStack n f).free = s.free := rfl
@[simp] theorem modStack_lost (s : State) (n : Nat) (f : Stack → Stack) : (s.modStack n f).lost = s.lost := rfl

/-! ### State.setBar -/

@[simp] theorem setBar_mode (s : State) (k : Nat) (b : Barrier) : (s.setBar k b).mode = s.mode := rfl
@[simp] theorem setBar_startStep (s : State) (k : Nat) (b : Barrier) : (s.setBar k b).startStep = s.startStep := rfl
@[simp] theorem setBar_warmFail (s : State) (k : Nat) (b : Barrier) : (s.setBar k b).warmFail = s.warmFail := rfl
@[simp] theorem setBar_patch (s : State) (k : Nat) (b : Barrier) : (s.setBar k b).patch = s.patch := rfl
@[simp] theorem setBar_resetResp (s : State) (k : Nat) (b : Barrier) : (s.setBar k b).resetResp = s.resetResp := rfl
@[simp] theorem setBar_cmdPort (s : State) (k : Nat) (b : Barrier) : (s.setBar k b).cmdPort = s.cmdPort := rfl
@[simp] theorem setBar_cmdRefused (s : State) (k : Nat) (b : Barrier) : (s.setBar k b).cmdRefused = s.cmdRefused := rfl
@[simp] theorem setBar_cmdBadWrite (s : State) (k : Nat) (b : Barrier) : (s.setBar k b).cmdBadWrite = s.cmdBadWrite := rfl
@[simp] theorem setBar_respPort (s : State) (k : Nat) (b : Barrier) : (s.setBar k b).respPort = s.respPort := rfl
@[simp] theorem setBar_notices (s : State) (k : Nat) (b : Barrier) : (s.setBar k b).notices = s.notices := rfl
@[simp] theorem setBar_msix (s : State) (k : Nat) (b : Barrier) : (s.setBar k b).msix = s.msix := rfl
@[simp] theorem setBar_hostRead (s : State) (k : Nat) (b : Barrier) : (s.setBar k b).hostRead = s.hostRead := rfl
@[simp] theorem setBar_hostPoison (s : State) (k : Nat) (b : Barrier) : (s.setBar k b).hostPoison = s.hostPoison := rfl
@[simp] theorem setBar_hostHeld (s : State) (k : Nat) (b : Barrier) : (s.setBar k b).hostHeld = s.hostHeld := rfl
@[simp] theorem setBar_errors (s : State) (k : Nat) (b : Barrier) : (s.setBar k b).errors = s.errors := rfl
@[simp] theorem setBar_errDropped (s : State) (k : Nat) (b : Barrier) : (s.setBar k b).errDropped = s.errDropped := rfl
@[simp] theorem setBar_power (s : State) (k : Nat) (b : Barrier) : (s.setBar k b).power = s.power := rfl
@[simp] theorem setBar_powerCap (s : State) (k : Nat) (b : Barrier) : (s.setBar k b).powerCap = s.powerCap := rfl
@[simp] theorem setBar_sensors (s : State) (k : Nat) (b : Barrier) : (s.setBar k b).sensors = s.sensors := rfl
@[simp] theorem setBar_clockDown0 (s : State) (k : Nat) (b : Barrier) : (s.setBar k b).clockDown0 = s.clockDown0 := rfl
@[simp] theorem setBar_clockDown1 (s : State) (k : Nat) (b : Barrier) : (s.setBar k b).clockDown1 = s.clockDown1 := rfl
@[simp] theorem setBar_ownerSlots (s : State) (k : Nat) (b : Barrier) : (s.setBar k b).ownerSlots = s.ownerSlots := rfl
@[simp] theorem setBar_slotsRevoked (s : State) (k : Nat) (b : Barrier) : (s.setBar k b).slotsRevoked = s.slotsRevoked := rfl
@[simp] theorem setBar_coresOn (s : State) (k : Nat) (b : Barrier) : (s.setBar k b).coresOn = s.coresOn := rfl
@[simp] theorem setBar_pkgNum (s : State) (k : Nat) (b : Barrier) : (s.setBar k b).pkgNum = s.pkgNum := rfl
@[simp] theorem setBar_parts (s : State) (k : Nat) (b : Barrier) : (s.setBar k b).parts = s.parts := rfl
@[simp] theorem setBar_hbm (s : State) (k : Nat) (b : Barrier) : (s.setBar k b).hbm = s.hbm := rfl
@[simp] theorem setBar_mem (s : State) (k : Nat) (b : Barrier) : (s.setBar k b).mem = s.mem := rfl
@[simp] theorem setBar_poison (s : State) (k : Nat) (b : Barrier) : (s.setBar k b).poison = s.poison := rfl
@[simp] theorem setBar_scrubDue (s : State) (k : Nat) (b : Barrier) : (s.setBar k b).scrubDue = s.scrubDue := rfl
@[simp] theorem setBar_vatDirty (s : State) (k : Nat) (b : Barrier) : (s.setBar k b).vatDirty = s.vatDirty := rfl
@[simp] theorem setBar_extents (s : State) (k : Nat) (b : Barrier) : (s.setBar k b).extents = s.extents := rfl
@[simp] theorem setBar_losses (s : State) (k : Nat) (b : Barrier) : (s.setBar k b).losses = s.losses := rfl
@[simp] theorem setBar_cores (s : State) (k : Nat) (b : Barrier) : (s.setBar k b).cores = s.cores := rfl
@[simp] theorem setBar_bte (s : State) (k : Nat) (b : Barrier) : (s.setBar k b).bte = s.bte := rfl
@[simp] theorem setBar_nextBte (s : State) (k : Nat) (b : Barrier) : (s.setBar k b).nextBte = s.nextBte := rfl
@[simp] theorem setBar_bteTurn (s : State) (k : Nat) (b : Barrier) : (s.setBar k b).bteTurn = s.bteTurn := rfl
@[simp] theorem setBar_engineDone (s : State) (k : Nat) (b : Barrier) : (s.setBar k b).engineDone = s.engineDone := rfl
@[simp] theorem setBar_members (s : State) (k : Nat) (b : Barrier) : (s.setBar k b).members = s.members := rfl
@[simp] theorem setBar_collCount (s : State) (k : Nat) (b : Barrier) : (s.setBar k b).collCount = s.collCount := rfl
@[simp] theorem setBar_colls (s : State) (k : Nat) (b : Barrier) : (s.setBar k b).colls = s.colls := rfl
@[simp] theorem setBar_collEarly (s : State) (k : Nat) (b : Barrier) : (s.setBar k b).collEarly = s.collEarly := rfl
@[simp] theorem setBar_links (s : State) (k : Nat) (b : Barrier) : (s.setBar k b).links = s.links := rfl
@[simp] theorem setBar_routes (s : State) (k : Nat) (b : Barrier) : (s.setBar k b).routes = s.routes := rfl
@[simp] theorem setBar_txFlows (s : State) (k : Nat) (b : Barrier) : (s.setBar k b).txFlows = s.txFlows := rfl
@[simp] theorem setBar_rxFlows (s : State) (k : Nat) (b : Barrier) : (s.setBar k b).rxFlows = s.rxFlows := rfl
@[simp] theorem setBar_wire (s : State) (k : Nat) (b : Barrier) : (s.setBar k b).wire = s.wire := rfl
@[simp] theorem setBar_txWait (s : State) (k : Nat) (b : Barrier) : (s.setBar k b).txWait = s.txWait := rfl
@[simp] theorem setBar_farms (s : State) (k : Nat) (b : Barrier) : (s.setBar k b).farms = s.farms := rfl
@[simp] theorem setBar_nextFarm (s : State) (k : Nat) (b : Barrier) : (s.setBar k b).nextFarm = s.nextFarm := rfl
@[simp] theorem setBar_nextOrder (s : State) (k : Nat) (b : Barrier) : (s.setBar k b).nextOrder = s.nextOrder := rfl
@[simp] theorem setBar_quota (s : State) (k : Nat) (b : Barrier) : (s.setBar k b).quota = s.quota := rfl
@[simp] theorem setBar_reserve (s : State) (k : Nat) (b : Barrier) : (s.setBar k b).reserve = s.reserve := rfl
@[simp] theorem setBar_cur (s : State) (k : Nat) (b : Barrier) : (s.setBar k b).cur = s.cur := rfl
@[simp] theorem setBar_others (s : State) (k : Nat) (b : Barrier) : (s.setBar k b).others = s.others := rfl
@[simp] theorem setBar_turns (s : State) (k : Nat) (b : Barrier) : (s.setBar k b).turns = s.turns := rfl
@[simp] theorem setBar_clock (s : State) (k : Nat) (b : Barrier) : (s.setBar k b).clock = s.clock := rfl
@[simp] theorem setBar_free (s : State) (k : Nat) (b : Barrier) : (s.setBar k b).free = s.free := rfl
@[simp] theorem setBar_lost (s : State) (k : Nat) (b : Barrier) : (s.setBar k b).lost = s.lost := rfl

/-! ### State.modFarm -/

@[simp] theorem modFarm_mode (s : State) (id : Nat) (f : Farm → Farm) : (s.modFarm id f).mode = s.mode := rfl
@[simp] theorem modFarm_startStep (s : State) (id : Nat) (f : Farm → Farm) : (s.modFarm id f).startStep = s.startStep := rfl
@[simp] theorem modFarm_warmFail (s : State) (id : Nat) (f : Farm → Farm) : (s.modFarm id f).warmFail = s.warmFail := rfl
@[simp] theorem modFarm_patch (s : State) (id : Nat) (f : Farm → Farm) : (s.modFarm id f).patch = s.patch := rfl
@[simp] theorem modFarm_resetResp (s : State) (id : Nat) (f : Farm → Farm) : (s.modFarm id f).resetResp = s.resetResp := rfl
@[simp] theorem modFarm_cmdPort (s : State) (id : Nat) (f : Farm → Farm) : (s.modFarm id f).cmdPort = s.cmdPort := rfl
@[simp] theorem modFarm_cmdRefused (s : State) (id : Nat) (f : Farm → Farm) : (s.modFarm id f).cmdRefused = s.cmdRefused := rfl
@[simp] theorem modFarm_cmdBadWrite (s : State) (id : Nat) (f : Farm → Farm) : (s.modFarm id f).cmdBadWrite = s.cmdBadWrite := rfl
@[simp] theorem modFarm_respPort (s : State) (id : Nat) (f : Farm → Farm) : (s.modFarm id f).respPort = s.respPort := rfl
@[simp] theorem modFarm_notices (s : State) (id : Nat) (f : Farm → Farm) : (s.modFarm id f).notices = s.notices := rfl
@[simp] theorem modFarm_msix (s : State) (id : Nat) (f : Farm → Farm) : (s.modFarm id f).msix = s.msix := rfl
@[simp] theorem modFarm_hostRead (s : State) (id : Nat) (f : Farm → Farm) : (s.modFarm id f).hostRead = s.hostRead := rfl
@[simp] theorem modFarm_hostPoison (s : State) (id : Nat) (f : Farm → Farm) : (s.modFarm id f).hostPoison = s.hostPoison := rfl
@[simp] theorem modFarm_hostHeld (s : State) (id : Nat) (f : Farm → Farm) : (s.modFarm id f).hostHeld = s.hostHeld := rfl
@[simp] theorem modFarm_errors (s : State) (id : Nat) (f : Farm → Farm) : (s.modFarm id f).errors = s.errors := rfl
@[simp] theorem modFarm_errDropped (s : State) (id : Nat) (f : Farm → Farm) : (s.modFarm id f).errDropped = s.errDropped := rfl
@[simp] theorem modFarm_power (s : State) (id : Nat) (f : Farm → Farm) : (s.modFarm id f).power = s.power := rfl
@[simp] theorem modFarm_powerCap (s : State) (id : Nat) (f : Farm → Farm) : (s.modFarm id f).powerCap = s.powerCap := rfl
@[simp] theorem modFarm_sensors (s : State) (id : Nat) (f : Farm → Farm) : (s.modFarm id f).sensors = s.sensors := rfl
@[simp] theorem modFarm_clockDown0 (s : State) (id : Nat) (f : Farm → Farm) : (s.modFarm id f).clockDown0 = s.clockDown0 := rfl
@[simp] theorem modFarm_clockDown1 (s : State) (id : Nat) (f : Farm → Farm) : (s.modFarm id f).clockDown1 = s.clockDown1 := rfl
@[simp] theorem modFarm_ownerSlots (s : State) (id : Nat) (f : Farm → Farm) : (s.modFarm id f).ownerSlots = s.ownerSlots := rfl
@[simp] theorem modFarm_slotsRevoked (s : State) (id : Nat) (f : Farm → Farm) : (s.modFarm id f).slotsRevoked = s.slotsRevoked := rfl
@[simp] theorem modFarm_coresOn (s : State) (id : Nat) (f : Farm → Farm) : (s.modFarm id f).coresOn = s.coresOn := rfl
@[simp] theorem modFarm_pkgNum (s : State) (id : Nat) (f : Farm → Farm) : (s.modFarm id f).pkgNum = s.pkgNum := rfl
@[simp] theorem modFarm_parts (s : State) (id : Nat) (f : Farm → Farm) : (s.modFarm id f).parts = s.parts := rfl
@[simp] theorem modFarm_hbm (s : State) (id : Nat) (f : Farm → Farm) : (s.modFarm id f).hbm = s.hbm := rfl
@[simp] theorem modFarm_mem (s : State) (id : Nat) (f : Farm → Farm) : (s.modFarm id f).mem = s.mem := rfl
@[simp] theorem modFarm_poison (s : State) (id : Nat) (f : Farm → Farm) : (s.modFarm id f).poison = s.poison := rfl
@[simp] theorem modFarm_scrubDue (s : State) (id : Nat) (f : Farm → Farm) : (s.modFarm id f).scrubDue = s.scrubDue := rfl
@[simp] theorem modFarm_vatDirty (s : State) (id : Nat) (f : Farm → Farm) : (s.modFarm id f).vatDirty = s.vatDirty := rfl
@[simp] theorem modFarm_extents (s : State) (id : Nat) (f : Farm → Farm) : (s.modFarm id f).extents = s.extents := rfl
@[simp] theorem modFarm_losses (s : State) (id : Nat) (f : Farm → Farm) : (s.modFarm id f).losses = s.losses := rfl
@[simp] theorem modFarm_cores (s : State) (id : Nat) (f : Farm → Farm) : (s.modFarm id f).cores = s.cores := rfl
@[simp] theorem modFarm_barriers (s : State) (id : Nat) (f : Farm → Farm) : (s.modFarm id f).barriers = s.barriers := rfl
@[simp] theorem modFarm_bte (s : State) (id : Nat) (f : Farm → Farm) : (s.modFarm id f).bte = s.bte := rfl
@[simp] theorem modFarm_nextBte (s : State) (id : Nat) (f : Farm → Farm) : (s.modFarm id f).nextBte = s.nextBte := rfl
@[simp] theorem modFarm_bteTurn (s : State) (id : Nat) (f : Farm → Farm) : (s.modFarm id f).bteTurn = s.bteTurn := rfl
@[simp] theorem modFarm_engineDone (s : State) (id : Nat) (f : Farm → Farm) : (s.modFarm id f).engineDone = s.engineDone := rfl
@[simp] theorem modFarm_members (s : State) (id : Nat) (f : Farm → Farm) : (s.modFarm id f).members = s.members := rfl
@[simp] theorem modFarm_collCount (s : State) (id : Nat) (f : Farm → Farm) : (s.modFarm id f).collCount = s.collCount := rfl
@[simp] theorem modFarm_colls (s : State) (id : Nat) (f : Farm → Farm) : (s.modFarm id f).colls = s.colls := rfl
@[simp] theorem modFarm_collEarly (s : State) (id : Nat) (f : Farm → Farm) : (s.modFarm id f).collEarly = s.collEarly := rfl
@[simp] theorem modFarm_links (s : State) (id : Nat) (f : Farm → Farm) : (s.modFarm id f).links = s.links := rfl
@[simp] theorem modFarm_routes (s : State) (id : Nat) (f : Farm → Farm) : (s.modFarm id f).routes = s.routes := rfl
@[simp] theorem modFarm_txFlows (s : State) (id : Nat) (f : Farm → Farm) : (s.modFarm id f).txFlows = s.txFlows := rfl
@[simp] theorem modFarm_rxFlows (s : State) (id : Nat) (f : Farm → Farm) : (s.modFarm id f).rxFlows = s.rxFlows := rfl
@[simp] theorem modFarm_wire (s : State) (id : Nat) (f : Farm → Farm) : (s.modFarm id f).wire = s.wire := rfl
@[simp] theorem modFarm_txWait (s : State) (id : Nat) (f : Farm → Farm) : (s.modFarm id f).txWait = s.txWait := rfl
@[simp] theorem modFarm_nextFarm (s : State) (id : Nat) (f : Farm → Farm) : (s.modFarm id f).nextFarm = s.nextFarm := rfl
@[simp] theorem modFarm_nextOrder (s : State) (id : Nat) (f : Farm → Farm) : (s.modFarm id f).nextOrder = s.nextOrder := rfl
@[simp] theorem modFarm_quota (s : State) (id : Nat) (f : Farm → Farm) : (s.modFarm id f).quota = s.quota := rfl
@[simp] theorem modFarm_reserve (s : State) (id : Nat) (f : Farm → Farm) : (s.modFarm id f).reserve = s.reserve := rfl
@[simp] theorem modFarm_cur (s : State) (id : Nat) (f : Farm → Farm) : (s.modFarm id f).cur = s.cur := rfl
@[simp] theorem modFarm_others (s : State) (id : Nat) (f : Farm → Farm) : (s.modFarm id f).others = s.others := rfl
@[simp] theorem modFarm_turns (s : State) (id : Nat) (f : Farm → Farm) : (s.modFarm id f).turns = s.turns := rfl
@[simp] theorem modFarm_clock (s : State) (id : Nat) (f : Farm → Farm) : (s.modFarm id f).clock = s.clock := rfl
@[simp] theorem modFarm_free (s : State) (id : Nat) (f : Farm → Farm) : (s.modFarm id f).free = s.free := rfl
@[simp] theorem modFarm_lost (s : State) (id : Nat) (f : Farm → Farm) : (s.modFarm id f).lost = s.lost := rfl

/-! ### State.modPart -/

@[simp] theorem modPart_mode (s : State) (p : Nat) (f : Part → Part) : (s.modPart p f).mode = s.mode := rfl
@[simp] theorem modPart_startStep (s : State) (p : Nat) (f : Part → Part) : (s.modPart p f).startStep = s.startStep := rfl
@[simp] theorem modPart_warmFail (s : State) (p : Nat) (f : Part → Part) : (s.modPart p f).warmFail = s.warmFail := rfl
@[simp] theorem modPart_patch (s : State) (p : Nat) (f : Part → Part) : (s.modPart p f).patch = s.patch := rfl
@[simp] theorem modPart_resetResp (s : State) (p : Nat) (f : Part → Part) : (s.modPart p f).resetResp = s.resetResp := rfl
@[simp] theorem modPart_cmdPort (s : State) (p : Nat) (f : Part → Part) : (s.modPart p f).cmdPort = s.cmdPort := rfl
@[simp] theorem modPart_cmdRefused (s : State) (p : Nat) (f : Part → Part) : (s.modPart p f).cmdRefused = s.cmdRefused := rfl
@[simp] theorem modPart_cmdBadWrite (s : State) (p : Nat) (f : Part → Part) : (s.modPart p f).cmdBadWrite = s.cmdBadWrite := rfl
@[simp] theorem modPart_respPort (s : State) (p : Nat) (f : Part → Part) : (s.modPart p f).respPort = s.respPort := rfl
@[simp] theorem modPart_notices (s : State) (p : Nat) (f : Part → Part) : (s.modPart p f).notices = s.notices := rfl
@[simp] theorem modPart_msix (s : State) (p : Nat) (f : Part → Part) : (s.modPart p f).msix = s.msix := rfl
@[simp] theorem modPart_hostRead (s : State) (p : Nat) (f : Part → Part) : (s.modPart p f).hostRead = s.hostRead := rfl
@[simp] theorem modPart_hostPoison (s : State) (p : Nat) (f : Part → Part) : (s.modPart p f).hostPoison = s.hostPoison := rfl
@[simp] theorem modPart_hostHeld (s : State) (p : Nat) (f : Part → Part) : (s.modPart p f).hostHeld = s.hostHeld := rfl
@[simp] theorem modPart_errors (s : State) (p : Nat) (f : Part → Part) : (s.modPart p f).errors = s.errors := rfl
@[simp] theorem modPart_errDropped (s : State) (p : Nat) (f : Part → Part) : (s.modPart p f).errDropped = s.errDropped := rfl
@[simp] theorem modPart_power (s : State) (p : Nat) (f : Part → Part) : (s.modPart p f).power = s.power := rfl
@[simp] theorem modPart_powerCap (s : State) (p : Nat) (f : Part → Part) : (s.modPart p f).powerCap = s.powerCap := rfl
@[simp] theorem modPart_sensors (s : State) (p : Nat) (f : Part → Part) : (s.modPart p f).sensors = s.sensors := rfl
@[simp] theorem modPart_clockDown0 (s : State) (p : Nat) (f : Part → Part) : (s.modPart p f).clockDown0 = s.clockDown0 := rfl
@[simp] theorem modPart_clockDown1 (s : State) (p : Nat) (f : Part → Part) : (s.modPart p f).clockDown1 = s.clockDown1 := rfl
@[simp] theorem modPart_ownerSlots (s : State) (p : Nat) (f : Part → Part) : (s.modPart p f).ownerSlots = s.ownerSlots := rfl
@[simp] theorem modPart_slotsRevoked (s : State) (p : Nat) (f : Part → Part) : (s.modPart p f).slotsRevoked = s.slotsRevoked := rfl
@[simp] theorem modPart_coresOn (s : State) (p : Nat) (f : Part → Part) : (s.modPart p f).coresOn = s.coresOn := rfl
@[simp] theorem modPart_pkgNum (s : State) (p : Nat) (f : Part → Part) : (s.modPart p f).pkgNum = s.pkgNum := rfl
@[simp] theorem modPart_hbm (s : State) (p : Nat) (f : Part → Part) : (s.modPart p f).hbm = s.hbm := rfl
@[simp] theorem modPart_mem (s : State) (p : Nat) (f : Part → Part) : (s.modPart p f).mem = s.mem := rfl
@[simp] theorem modPart_poison (s : State) (p : Nat) (f : Part → Part) : (s.modPart p f).poison = s.poison := rfl
@[simp] theorem modPart_scrubDue (s : State) (p : Nat) (f : Part → Part) : (s.modPart p f).scrubDue = s.scrubDue := rfl
@[simp] theorem modPart_vatDirty (s : State) (p : Nat) (f : Part → Part) : (s.modPart p f).vatDirty = s.vatDirty := rfl
@[simp] theorem modPart_extents (s : State) (p : Nat) (f : Part → Part) : (s.modPart p f).extents = s.extents := rfl
@[simp] theorem modPart_losses (s : State) (p : Nat) (f : Part → Part) : (s.modPart p f).losses = s.losses := rfl
@[simp] theorem modPart_cores (s : State) (p : Nat) (f : Part → Part) : (s.modPart p f).cores = s.cores := rfl
@[simp] theorem modPart_barriers (s : State) (p : Nat) (f : Part → Part) : (s.modPart p f).barriers = s.barriers := rfl
@[simp] theorem modPart_bte (s : State) (p : Nat) (f : Part → Part) : (s.modPart p f).bte = s.bte := rfl
@[simp] theorem modPart_nextBte (s : State) (p : Nat) (f : Part → Part) : (s.modPart p f).nextBte = s.nextBte := rfl
@[simp] theorem modPart_bteTurn (s : State) (p : Nat) (f : Part → Part) : (s.modPart p f).bteTurn = s.bteTurn := rfl
@[simp] theorem modPart_engineDone (s : State) (p : Nat) (f : Part → Part) : (s.modPart p f).engineDone = s.engineDone := rfl
@[simp] theorem modPart_members (s : State) (p : Nat) (f : Part → Part) : (s.modPart p f).members = s.members := rfl
@[simp] theorem modPart_collCount (s : State) (p : Nat) (f : Part → Part) : (s.modPart p f).collCount = s.collCount := rfl
@[simp] theorem modPart_colls (s : State) (p : Nat) (f : Part → Part) : (s.modPart p f).colls = s.colls := rfl
@[simp] theorem modPart_collEarly (s : State) (p : Nat) (f : Part → Part) : (s.modPart p f).collEarly = s.collEarly := rfl
@[simp] theorem modPart_links (s : State) (p : Nat) (f : Part → Part) : (s.modPart p f).links = s.links := rfl
@[simp] theorem modPart_routes (s : State) (p : Nat) (f : Part → Part) : (s.modPart p f).routes = s.routes := rfl
@[simp] theorem modPart_txFlows (s : State) (p : Nat) (f : Part → Part) : (s.modPart p f).txFlows = s.txFlows := rfl
@[simp] theorem modPart_rxFlows (s : State) (p : Nat) (f : Part → Part) : (s.modPart p f).rxFlows = s.rxFlows := rfl
@[simp] theorem modPart_wire (s : State) (p : Nat) (f : Part → Part) : (s.modPart p f).wire = s.wire := rfl
@[simp] theorem modPart_txWait (s : State) (p : Nat) (f : Part → Part) : (s.modPart p f).txWait = s.txWait := rfl
@[simp] theorem modPart_farms (s : State) (p : Nat) (f : Part → Part) : (s.modPart p f).farms = s.farms := rfl
@[simp] theorem modPart_nextFarm (s : State) (p : Nat) (f : Part → Part) : (s.modPart p f).nextFarm = s.nextFarm := rfl
@[simp] theorem modPart_nextOrder (s : State) (p : Nat) (f : Part → Part) : (s.modPart p f).nextOrder = s.nextOrder := rfl
@[simp] theorem modPart_quota (s : State) (p : Nat) (f : Part → Part) : (s.modPart p f).quota = s.quota := rfl
@[simp] theorem modPart_reserve (s : State) (p : Nat) (f : Part → Part) : (s.modPart p f).reserve = s.reserve := rfl
@[simp] theorem modPart_cur (s : State) (p : Nat) (f : Part → Part) : (s.modPart p f).cur = s.cur := rfl
@[simp] theorem modPart_others (s : State) (p : Nat) (f : Part → Part) : (s.modPart p f).others = s.others := rfl
@[simp] theorem modPart_turns (s : State) (p : Nat) (f : Part → Part) : (s.modPart p f).turns = s.turns := rfl
@[simp] theorem modPart_clock (s : State) (p : Nat) (f : Part → Part) : (s.modPart p f).clock = s.clock := rfl
@[simp] theorem modPart_free (s : State) (p : Nat) (f : Part → Part) : (s.modPart p f).free = s.free := rfl
@[simp] theorem modPart_lost (s : State) (p : Nat) (f : Part → Part) : (s.modPart p f).lost = s.lost := rfl

/-! ### What the updates of the current strand are -/

@[simp] theorem modCur_cur (s : State) (f : Strand → Strand) : (s.modCur f).cur = f s.cur := rfl
@[simp] theorem setG_cur (s : State) (r : Reg) (x : Word) : (s.setG r x).cur = s.cur.setG r x := rfl
@[simp] theorem setPc_cur (s : State) (x : Word) : (s.setPc x).cur = { s.cur with pc := x } := rfl
@[simp] theorem advance_cur (s : State) (n : Nat) :
    (s.advance n).cur = { s.cur with pc := s.cur.pc + BitVec.ofNat 64 n } := rfl
@[simp] theorem stall_cur (s : State) : s.stall.cur = { s.cur with stalled := true } := rfl
@[simp] theorem retire_cur (s : State) (d : Reg) (x : Word) (n : Nat) :
    (s.retire d x n).cur = { s.cur.setG d x with pc := (s.cur.setG d x).pc + BitVec.ofNat 64 n } := rfl

/-! ### Strand.setG -/

@[simp] theorem strand_setG_farm (t : Strand) (r : Reg) (x : Word) : (t.setG r x).farm = t.farm := by
  unfold Strand.setG; split <;> rfl
@[simp] theorem strand_setG_logid (t : Strand) (r : Reg) (x : Word) : (t.setG r x).logid = t.logid := by
  unfold Strand.setG; split <;> rfl
@[simp] theorem strand_setG_nstrands (t : Strand) (r : Reg) (x : Word) : (t.setG r x).nstrands = t.nstrands := by
  unfold Strand.setG; split <;> rfl
@[simp] theorem strand_setG_part (t : Strand) (r : Reg) (x : Word) : (t.setG r x).part = t.part := by
  unfold Strand.setG; split <;> rfl
@[simp] theorem strand_setG_die (t : Strand) (r : Reg) (x : Word) : (t.setG r x).die = t.die := by
  unfold Strand.setG; split <;> rfl
@[simp] theorem strand_setG_core (t : Strand) (r : Reg) (x : Word) : (t.setG r x).core = t.core := by
  unfold Strand.setG; split <;> rfl
@[simp] theorem strand_setG_lane (t : Strand) (r : Reg) (x : Word) : (t.setG r x).lane = t.lane := by
  unfold Strand.setG; split <;> rfl
@[simp] theorem strand_setG_lgw (t : Strand) (r : Reg) (x : Word) : (t.setG r x).lgw = t.lgw := by
  unfold Strand.setG; split <;> rfl
@[simp] theorem strand_setG_lanes (t : Strand) (r : Reg) (x : Word) : (t.setG r x).lanes = t.lanes := by
  unfold Strand.setG; split <;> rfl
@[simp] theorem strand_setG_pendW (t : Strand) (r : Reg) (x : Word) : (t.setG r x).pendW = t.pendW := by
  unfold Strand.setG; split <;> rfl
@[simp] theorem strand_setG_det (t : Strand) (r : Reg) (x : Word) : (t.setG r x).det = t.det := by
  unfold Strand.setG; split <;> rfl
@[simp] theorem strand_setG_life (t : Strand) (r : Reg) (x : Word) : (t.setG r x).life = t.life := by
  unfold Strand.setG; split <;> rfl
@[simp] theorem strand_setG_level (t : Strand) (r : Reg) (x : Word) : (t.setG r x).level = t.level := by
  unfold Strand.setG; split <;> rfl
@[simp] theorem strand_setG_inHandler (t : Strand) (r : Reg) (x : Word) : (t.setG r x).inHandler = t.inHandler := by
  unfold Strand.setG; split <;> rfl
@[simp] theorem strand_setG_trapNow (t : Strand) (r : Reg) (x : Word) : (t.setG r x).trapNow = t.trapNow := by
  unfold Strand.setG; split <;> rfl
@[simp] theorem strand_setG_trapInfo (t : Strand) (r : Reg) (x : Word) : (t.setG r x).trapInfo = t.trapInfo := by
  unfold Strand.setG; split <;> rfl
@[simp] theorem strand_setG_pc (t : Strand) (r : Reg) (x : Word) : (t.setG r x).pc = t.pc := by
  unfold Strand.setG; split <;> rfl
@[simp] theorem strand_setG_v (t : Strand) (r : Reg) (x : Word) : (t.setG r x).v = t.v := by
  unfold Strand.setG; split <;> rfl
@[simp] theorem strand_setG_p (t : Strand) (r : Reg) (x : Word) : (t.setG r x).p = t.p := by
  unfold Strand.setG; split <;> rfl
@[simp] theorem strand_setG_badRows (t : Strand) (r : Reg) (x : Word) : (t.setG r x).badRows = t.badRows := by
  unfold Strand.setG; split <;> rfl
@[simp] theorem strand_setG_opBuf (t : Strand) (r : Reg) (x : Word) : (t.setG r x).opBuf = t.opBuf := by
  unfold Strand.setG; split <;> rfl
@[simp] theorem strand_setG_ctl (t : Strand) (r : Reg) (x : Word) : (t.setG r x).ctl = t.ctl := by
  unfold Strand.setG; split <;> rfl
@[simp] theorem strand_setG_pins (t : Strand) (r : Reg) (x : Word) : (t.setG r x).pins = t.pins := by
  unfold Strand.setG; split <;> rfl
@[simp] theorem strand_setG_tiles (t : Strand) (r : Reg) (x : Word) : (t.setG r x).tiles = t.tiles := by
  unfold Strand.setG; split <;> rfl
@[simp] theorem strand_setG_orths (t : Strand) (r : Reg) (x : Word) : (t.setG r x).orths = t.orths := by
  unfold Strand.setG; split <;> rfl
@[simp] theorem strand_setG_ports (t : Strand) (r : Reg) (x : Word) : (t.setG r x).ports = t.ports := by
  unfold Strand.setG; split <;> rfl
@[simp] theorem strand_setG_viq (t : Strand) (r : Reg) (x : Word) : (t.setG r x).viq = t.viq := by
  unfold Strand.setG; split <;> rfl
@[simp] theorem strand_setG_nextSeq (t : Strand) (r : Reg) (x : Word) : (t.setG r x).nextSeq = t.nextSeq := by
  unfold Strand.setG; split <;> rfl
@[simp] theorem strand_setG_cvy (t : Strand) (r : Reg) (x : Word) : (t.setG r x).cvy = t.cvy := by
  unfold Strand.setG; split <;> rfl
@[simp] theorem strand_setG_rq (t : Strand) (r : Reg) (x : Word) : (t.setG r x).rq = t.rq := by
  unfold Strand.setG; split <;> rfl
@[simp] theorem strand_setG_frozen (t : Strand) (r : Reg) (x : Word) : (t.setG r x).frozen = t.frozen := by
  unfold Strand.setG; split <;> rfl
@[simp] theorem strand_setG_shadow (t : Strand) (r : Reg) (x : Word) : (t.setG r x).shadow = t.shadow := by
  unfold Strand.setG; split <;> rfl
@[simp] theorem strand_setG_latch (t : Strand) (r : Reg) (x : Word) : (t.setG r x).latch = t.latch := by
  unfold Strand.setG; split <;> rfl
@[simp] theorem strand_setG_stalled (t : Strand) (r : Reg) (x : Word) : (t.setG r x).stalled = t.stalled := by
  unfold Strand.setG; split <;> rfl
@[simp] theorem strand_setG_pause (t : Strand) (r : Reg) (x : Word) : (t.setG r x).pause = t.pause := by
  unfold Strand.setG; split <;> rfl
@[simp] theorem strand_setG_vfences (t : Strand) (r : Reg) (x : Word) : (t.setG r x).vfences = t.vfences := by
  unfold Strand.setG; split <;> rfl
@[simp] theorem strand_setG_held (t : Strand) (r : Reg) (x : Word) : (t.setG r x).held = t.held := by
  unfold Strand.setG; split <;> rfl
@[simp] theorem strand_setG_epochLines (t : Strand) (r : Reg) (x : Word) : (t.setG r x).epochLines = t.epochLines := by
  unfold Strand.setG; split <;> rfl
@[simp] theorem strand_setG_sbuf (t : Strand) (r : Reg) (x : Word) : (t.setG r x).sbuf = t.sbuf := by
  unfold Strand.setG; split <;> rfl
@[simp] theorem strand_setG_tcmBase (t : Strand) (r : Reg) (x : Word) : (t.setG r x).tcmBase = t.tcmBase := by
  unfold Strand.setG; split <;> rfl
@[simp] theorem strand_setG_tcmLen (t : Strand) (r : Reg) (x : Word) : (t.setG r x).tcmLen = t.tcmLen := by
  unfold Strand.setG; split <;> rfl
@[simp] theorem strand_setG_saveVa (t : Strand) (r : Reg) (x : Word) : (t.setG r x).saveVa = t.saveVa := by
  unfold Strand.setG; split <;> rfl
@[simp] theorem strand_setG_haltReq (t : Strand) (r : Reg) (x : Word) : (t.setG r x).haltReq = t.haltReq := by
  unfold Strand.setG; split <;> rfl
@[simp] theorem strand_setG_strips (t : Strand) (r : Reg) (x : Word) : (t.setG r x).strips = t.strips := by
  unfold Strand.setG; split <;> rfl
@[simp] theorem strand_setG_mcheck (t : Strand) (r : Reg) (x : Word) : (t.setG r x).mcheck = t.mcheck := by
  unfold Strand.setG; split <;> rfl
@[simp] theorem strand_setG_pendSave (t : Strand) (r : Reg) (x : Word) : (t.setG r x).pendSave = t.pendSave := by
  unfold Strand.setG; split <;> rfl
@[simp] theorem strand_setG_savedLines (t : Strand) (r : Reg) (x : Word) : (t.setG r x).savedLines = t.savedLines := by
  unfold Strand.setG; split <;> rfl
@[simp] theorem strand_setG_checks (t : Strand) (r : Reg) (x : Word) : (t.setG r x).checks = t.checks := by
  unfold Strand.setG; split <;> rfl
@[simp] theorem strand_setG_drained (t : Strand) (r : Reg) (x : Word) : (t.setG r x).drained = t.drained := by
  unfold Strand.setG; split <;> rfl

/-- A write to g0 is discarded (R119). -/
@[simp] theorem strand_setG_zero (t : Strand) (x : Word) : t.setG 0 x = t := rfl

/-- g0 reads zero (R119). -/
@[simp] theorem strand_getG_zero (t : Strand) : t.getG 0 = 0 := rfl

/-- A register other than g0 reads what was written to it. -/
theorem strand_getG_setG_same (t : Strand) {r : Reg} (x : Word) (h : r ≠ 0) : (t.setG r x).getG r = x := by
  have hr : r.toNat < 32 := r.isLt
  unfold Strand.getG Strand.setG
  rw [if_neg h, if_neg h]
  simp [Vector.getD, hr]

/-- Every other register keeps its value. -/
theorem strand_getG_setG_other (t : Strand) {r q : Reg} (x : Word) (h : q ≠ r) : (t.setG r x).getG q = t.getG q := by
  unfold Strand.getG Strand.setG
  split
  · rfl
  · split
    · rfl
    · have hq : q.toNat < 32 := q.isLt
      have hne : r.toNat ≠ q.toNat := fun e => h (BitVec.eq_of_toNat_eq e.symm)
      simp [Vector.getD, hq, hne]

/-! ### Stacks and cores -/

@[simp] theorem right_setRight (k : Stack) (die : Bool) (r : Right) : (k.setRight die r).right die = r := by
  cases die <;> rfl

@[simp] theorem right_setRight_other (k : Stack) (die : Bool) (r : Right) : (k.setRight (!die) r).right die = k.right die := by
  cases die <;> rfl

/-- Drawing a free value changes only the counter. -/
theorem draw_state (s : State) : s.draw.2 = { s with free := s.free + 1 } := rfl

end Sys2Proof.Machine
end

