-- ==== Sys2Proof/Laws/Canon.lean ====
section
/-! SUPPORT. The operations that write memory or a core's record keep the canonical forms (log 9). Every other write of
the state leaves both alone: `canonical_of_eq`. -/

namespace Sys2Proof.Machine

/-- Neither memory nor the cores' records changed. -/
theorem canonical_of_eq {s t : State} (h : Canonical s) (hm : t.mem = s.mem) (hc : t.cores = s.cores) : Canonical t := by
  unfold Canonical MemOk at *
  rwa [hm, hc]

theorem canonical_either {p : Prop} [Decidable p] {a b : State} (ha : Canonical a) (hb : Canonical b) :
    Canonical (if p then a else b) := by
  split
  · exact ha
  · exact hb

/-- Keys of data after one write: the key written, or a key from before. -/
theorem mem_keys_sset {α : Type} [DecidableEq α] (d : α) (l : Sparse α) (k : Nat) (v : α) :
    ∀ x ∈ sset d l k v, x.1 = k ∨ x ∈ l := by
  induction l with
  | nil => intro x hx; unfold sset at hx; split at hx <;> simp_all
  | cons y r ih =>
    obtain ⟨j, w⟩ := y
    intro x hx
    unfold sset at hx
    split at hx
    · split at hx
      · exact .inr hx
      · rcases List.mem_cons.1 hx with rfl | h
        · exact .inl rfl
        · exact .inr h
    · split at hx
      · split at hx
        · exact .inr (List.mem_cons_of_mem _ hx)
        · rcases List.mem_cons.1 hx with rfl | h
          · exact .inl rfl
          · exact .inr (List.mem_cons_of_mem _ h)
      · rcases List.mem_cons.1 hx with rfl | h
        · exact .inr (List.mem_cons_self ..)
        · rcases ih x h with h | h
          · exact .inl h
          · exact .inr (List.mem_cons_of_mem _ h)

/-- One write keeps the keys rising. -/
theorem pairwise_sset {α : Type} [DecidableEq α] (d : α) {l : Sparse α} (h : (l.map (fun c => c.1)).Pairwise (· < ·))
    (k : Nat) (v : α) : ((sset d l k v).map (fun c => c.1)).Pairwise (· < ·) := by
  induction l with
  | nil => unfold sset; split <;> simp
  | cons y r ih =>
    obtain ⟨j, w⟩ := y
    have hr := (List.pairwise_cons.1 h).2
    have hj := (List.pairwise_cons.1 h).1
    unfold sset
    split
    · rename_i hkj
      split
      · exact h
      · refine List.pairwise_cons.2 ⟨fun x hx => ?_, h⟩
        rcases List.mem_cons.1 hx with rfl | hx
        · exact hkj
        · exact Nat.lt_trans hkj (hj x hx)
    · split
      · rename_i hkj
        subst hkj
        split
        · exact hr
        · exact List.pairwise_cons.2 ⟨hj, hr⟩
      · rename_i h1 h2
        refine List.pairwise_cons.2 ⟨fun x hx => ?_, ih hr⟩
        obtain ⟨c, hc, rfl⟩ := List.mem_map.1 hx
        rcases mem_keys_sset d r k v c hc with e | hm
        · show j < c.1; omega
        · exact hj _ (List.mem_map_of_mem hm)

theorem canonical_modCore {s : State} (h : Canonical s) (n : Nat) (f : Core → Core) : Canonical (s.modCore n f) :=
  ⟨h.1, pairwise_sset _ h.2 n _⟩

/-- A write of cores one after another keeps the forms. -/
theorem canonical_foldl {α : Type} (f : State → α → State) (hf : ∀ s a, Canonical s → Canonical (f s a)) (l : List α) {s : State}
    (h : Canonical s) : Canonical (l.foldl f s) := by
  induction l generalizing s with
  | nil => exact h
  | cons a r ih => exact ih (hf s a h)

theorem canonical_modCur {s : State} (h : Canonical s) (f : Strand → Strand) : Canonical (s.modCur f) := h

theorem canonical_modStrand {s : State} (h : Canonical s) (k : Nat) (f : Strand → Strand) : Canonical (s.modStrand k f) := by
  unfold State.modStrand
  split <;> exact h

theorem canonical_mapStrands {s : State} (h : Canonical s) (f : Strand → Strand) : Canonical (s.mapStrands f) := h

theorem canonical_focus {s : State} (h : Canonical s) (k : Nat) : Canonical (s.focus k) := by
  unfold State.focus
  split
  · exact h
  · split <;> exact h

theorem canonical_addError {s : State} (h : Canonical s) (a b c d e : Nat) : Canonical (s.addError a b c d e) := by
  unfold State.addError
  dsimp only
  split
  · exact h
  · split <;> exact h

theorem canonical_unpoison {s : State} (h : Canonical s) (k : Nat) : Canonical (s.unpoison k) := by
  unfold State.unpoison
  split
  · exact h
  · split
    · exact h
    · dsimp only
      split
      · refine canonical_addError ?_ _ _ _ _ _
        exact h
      · exact h

theorem canonical_markVat {s : State} (h : Canonical s) (k : Nat) : Canonical (s.markVat k) := by
  unfold State.markVat
  split <;> exact h

theorem canonical_filterLines {s : State} (h : Canonical s) (keep : Bool) (ls : List Nat) : Canonical (s.filterLines keep ls) := by
  unfold State.filterLines
  split
  · exact canonical_foldl _ (fun _ c ht => canonical_modCore ht c.1 _) _ h
  · exact h

theorem canonical_mirror {s : State} (h : Canonical s) (x : Stop) : Canonical (s.mirror x) := by
  unfold State.mirror
  split
  · exact canonical_addError h _ _ _ _ _
  · exact h

theorem canonical_takeLine {s : State} (h : Canonical s) (core : Nat) (ins : Bool) (l : Nat) : Canonical (s.takeLine core ins l) := by
  unfold State.takeLine
  exact canonical_either h (canonical_either (canonical_filterLines (canonical_modCore h _ _) _ _) (canonical_modCore h _ _))

theorem canonical_takeLines {s : State} (h : Canonical s) (core : Nat) (ins : Bool) (ks : List Nat) :
    Canonical (s.takeLines core ins ks) :=
  canonical_foldl _ (fun _ l ht => canonical_takeLine ht core ins l) _ h

theorem canonical_dirtyLine {s : State} (h : Canonical s) (core l : Nat) : Canonical (s.dirtyLine core l) :=
  canonical_modCore (canonical_takeLine h core false l) _ _

theorem canonical_mirrorCheck {s : State} (h : Canonical s) (key : Nat) (x : Stop) : Canonical (s.mirrorCheck key x) := by
  unfold State.mirrorCheck
  split
  · exact canonical_modStrand (canonical_mirror h _) _ _
  · exact h

/-- One byte written at its home. -/
theorem canonical_writeByte {s : State} (h : Canonical s) (k : Nat) (b : Byte) : Canonical (s.writeByte k b) :=
  canonical_unpoison (canonical_markVat (s := { s with mem := memWrite s.mem k b }) ⟨memWrite_wf h.1 k b, h.2⟩ k) k

theorem canonical_writeBytes {s : State} (h : Canonical s) (ks : List Nat) (bs : List Byte) : Canonical (s.writeBytes ks bs) := by
  induction ks generalizing s bs with
  | nil => simpa [State.writeBytes] using h
  | cons k r ih =>
    cases bs with
    | nil => simpa [State.writeBytes] using h
    | cons b bs => exact ih (canonical_writeByte h k b) bs

theorem canonical_homeWrite {s : State} (h : Canonical s) (ks : List Nat) (bs : List Byte) : Canonical (s.homeWrite ks bs) :=
  canonical_writeBytes (canonical_filterLines h _ _) ks bs

/-! ### Stores (R164, R192, R193, R257, R258) -/

theorem canonical_writeSlice {s : State} (h : Canonical s) (k : Nat) (b : Byte) : Canonical (s.writeSlice k b) :=
  ⟨memWrite_wf h.1 _ _, h.2⟩

theorem canonical_storeBytes {s : State} (h : Canonical s) (ks : List Nat) (bs : List Byte) : Canonical (s.storeBytes ks bs) := by
  induction ks generalizing s bs with
  | nil => simpa [State.storeBytes] using h
  | cons k r ih =>
    cases bs with
    | nil => simpa [State.storeBytes] using h
    | cons b bs =>
      unfold State.storeBytes
      split
      · exact ih (canonical_writeSlice h k b) bs
      · exact ih (canonical_writeByte h k b) bs

theorem canonical_performHeld {s : State} (h : Canonical s) (x : HeldElem) : Canonical (s.performHeld x) :=
  canonical_homeWrite h _ _

theorem canonical_performHelds {s : State} (h : Canonical s) (l : List HeldElem) : Canonical (s.performHelds l) := by
  induction l generalizing s with
  | nil => exact h
  | cons x r ih => exact ih (canonical_performHeld h x)

theorem canonical_settleHeld {s : State} (h : Canonical s) (key : Nat) (ks : List Nat) : Canonical (s.settleHeld key ks) := by
  unfold State.settleHeld
  split
  · exact h
  · split
    · exact canonical_modStrand h _ _
    · exact h

theorem canonical_addStale {s : State} (h : Canonical s) (core : Nat) (ks : List Nat) : Canonical (s.addStale core ks) :=
  canonical_modCore (canonical_foldl _ (fun _ n ht => canonical_modCore ht n _) _ h) _ _

/-- A scalar store performed at its home. -/
theorem canonical_performStore {s : State} (h : Canonical s) (key core : Nat) (ks : List Nat) (bs : List Byte) :
    Canonical (s.performStore key core ks bs) :=
  canonical_storeBytes (canonical_foldl _ (fun _ l ht => canonical_dirtyLine ht core l) _
    (canonical_addStale (canonical_settleHeld h key ks) core ks)) ks bs

theorem canonical_storeFault {s : State} (h : Canonical s) (key : Nat) (x : Stop) : Canonical (s.storeFault key x) := by
  unfold State.storeFault
  split
  · exact h
  · exact canonical_mirrorCheck h _ _
  · exact canonical_modStrand h _ _

theorem canonical_performNth {s : State} (h : Canonical s) (key n : Nat) : Canonical (s.performNth key n) := by
  unfold State.performNth
  split
  · exact h
  · split
    · exact h
    · split
      · exact h
      · dsimp only
        split
        · exact canonical_performStore (canonical_modStrand h _ _) _ _ _ _
        · exact canonical_storeFault (canonical_modStrand h _ _) _ _

theorem canonical_flushStores {s : State} (h : Canonical s) (key n : Nat) : Canonical (s.flushStores key n) := by
  induction n generalizing s with
  | zero => exact h
  | succ n ih =>
    unfold State.flushStores
    split
    · exact h
    · split
      · exact h
      · exact ih (canonical_performNth h key _)

theorem canonical_drainHeld {s : State} (h : Canonical s) (p : HeldElem → Bool) (t : Strand) : Canonical (s.drainHeld p t) := by
  unfold State.drainHeld
  exact canonical_mapStrands (canonical_performHelds h _) _

theorem canonical_drainFarm {s : State} (h : Canonical s) (farm : Nat) (p : HeldElem → Bool) : Canonical (s.drainFarm farm p) := by
  unfold State.drainFarm
  generalize s.farmStrands farm = l
  induction l generalizing s with
  | nil => exact h
  | cons t r ih => exact ih (canonical_drainHeld h p t)

theorem canonical_newEpoch {s : State} (h : Canonical s) (farm : Nat) : Canonical (s.newEpoch farm) :=
  canonical_mapStrands h _

theorem canonical_modFarm {s : State} (h : Canonical s) (id : Nat) (f : Farm → Farm) : Canonical (s.modFarm id f) := h

theorem canonical_closeEpoch {s : State} (h : Canonical s) (farm : Nat) : Canonical (s.closeEpoch farm) := by
  unfold State.closeEpoch
  split
  · exact h
  · split
    · exact canonical_modFarm (canonical_newEpoch (canonical_drainFarm h farm _) farm) _ _
    · exact h

/-! ### Save areas and frozen records (R200, R206) -/

theorem canonical_putSave {s : State} (h : Canonical s) (t : Strand) (off n x : Nat) : Canonical (s.putSave t off n x) := by
  unfold State.putSave
  dsimp only
  split
  · exact canonical_modStrand h _ _
  · refine canonical_homeWrite ?_ _ _
    split
    · exact canonical_storeFault h _ _
    · exact h

theorem canonical_putWords {s : State} (h : Canonical s) (t : Strand) (off : Nat) (ws : List Nat) :
    Canonical (s.putWords t off ws) := by
  induction ws generalizing s off with
  | nil => exact h
  | cons w r ih =>
    rw [State.putWords]
    exact ih (canonical_putSave h t off 8 w) _

theorem canonical_putRecords {s : State} (h : Canonical s) (t : Strand) (base : Nat) (es : List VEntry) :
    Canonical (s.putRecords t base es) := by
  induction es generalizing s base with
  | nil => exact h
  | cons e r ih =>
    rw [State.putRecords]
    exact ih (canonical_putWords h t base _) _

theorem canonical_putMany {s : State} (h : Canonical s) (t : Strand) (l : List (Nat × Nat × Nat)) : Canonical (s.putMany t l) := by
  induction l generalizing s with
  | nil => exact h
  | cons x r ih =>
    rw [State.putMany]
    exact ih (canonical_putSave h t _ _ _)

theorem canonical_saveStrand {s : State} (h : Canonical s) (t : Strand) : Canonical (s.saveStrand t) :=
  canonical_putRecords (canonical_putMany h _ _) _ _ _

theorem canonical_freeze {s : State} (h : Canonical s) : Canonical s.freeze := canonical_putRecords h _ _ _

/-! ### Scalar accesses (R255 to R258) -/

theorem canonical_fillTlb {s : State} (h : Canonical s) (t : Strand) (kind : AKind) (va : Nat) : Canonical (s.fillTlb t kind va) := by
  unfold State.fillTlb
  split
  · exact h
  · split
    · exact h
    · split
      · exact canonical_modCore h _ _
      · exact h

theorem canonical_touch {s : State} (h : Canonical s) (kind : AKind) (va : Word) (n : Nat) : Canonical (s.touch kind va n) :=
  canonical_fillTlb (canonical_fillTlb h _ _ _) _ _ _

theorem canonical_commitStore {s : State} (h : Canonical s) (va : Nat) (ks : List Nat) (n x : Nat) :
    Canonical (s.commitStore va ks n x) := by
  unfold State.commitStore
  split
  · exact h
  · exact canonical_performStore h _ _ _ _

end Sys2Proof.Machine
end

