-- ==== Sys2Proof/Laws/Commit.lean ====
section
/-! SUPPORT. What every vector, tile and orthogonal instruction does at the scalar side: one shared commit, `post`, of its
own row of the table `vop`, with its own length (R98, R99, R129, R214). -/

namespace Sys2Proof.Machine

theorem exec_vadd (x : VX) (d : Reg) (a : Reg) (b : Reg) (s : State) :
    exec (.vadd x d a b) s = post (.vadd x d a b) (opVadd x d a b) (vxLen x) s := rfl

theorem exec_vsub (x : VX) (d : Reg) (a : Reg) (b : Reg) (s : State) :
    exec (.vsub x d a b) s = post (.vsub x d a b) (opVsub x d a b) (vxLen x) s := rfl

theorem exec_vmul (x : VX) (d : Reg) (a : Reg) (b : Reg) (s : State) :
    exec (.vmul x d a b) s = post (.vmul x d a b) (opVmul x d a b) (vxLen x) s := rfl

theorem exec_vmulh (x : VX) (d : Reg) (a : Reg) (b : Reg) (s : State) :
    exec (.vmulh x d a b) s = post (.vmulh x d a b) (opVmulh x d a b) (vxLen x) s := rfl

theorem exec_vmulhu (x : VX) (d : Reg) (a : Reg) (b : Reg) (s : State) :
    exec (.vmulhu x d a b) s = post (.vmulhu x d a b) (opVmulhu x d a b) (vxLen x) s := rfl

theorem exec_vand (x : VX) (d : Reg) (a : Reg) (b : Reg) (s : State) :
    exec (.vand x d a b) s = post (.vand x d a b) (opVand x d a b) (vxLen x) s := rfl

theorem exec_vor (x : VX) (d : Reg) (a : Reg) (b : Reg) (s : State) :
    exec (.vor x d a b) s = post (.vor x d a b) (opVor x d a b) (vxLen x) s := rfl

theorem exec_vxor (x : VX) (d : Reg) (a : Reg) (b : Reg) (s : State) :
    exec (.vxor x d a b) s = post (.vxor x d a b) (opVxor x d a b) (vxLen x) s := rfl

theorem exec_vsll (x : VX) (d : Reg) (a : Reg) (b : Reg) (s : State) :
    exec (.vsll x d a b) s = post (.vsll x d a b) (opVsll x d a b) (vxLen x) s := rfl

theorem exec_vsrl (x : VX) (d : Reg) (a : Reg) (b : Reg) (s : State) :
    exec (.vsrl x d a b) s = post (.vsrl x d a b) (opVsrl x d a b) (vxLen x) s := rfl

theorem exec_vsra (x : VX) (d : Reg) (a : Reg) (b : Reg) (s : State) :
    exec (.vsra x d a b) s = post (.vsra x d a b) (opVsra x d a b) (vxLen x) s := rfl

theorem exec_vmin (x : VX) (d : Reg) (a : Reg) (b : Reg) (s : State) :
    exec (.vmin x d a b) s = post (.vmin x d a b) (opVmin x d a b) (vxLen x) s := rfl

theorem exec_vmax (x : VX) (d : Reg) (a : Reg) (b : Reg) (s : State) :
    exec (.vmax x d a b) s = post (.vmax x d a b) (opVmax x d a b) (vxLen x) s := rfl

theorem exec_vminu (x : VX) (d : Reg) (a : Reg) (b : Reg) (s : State) :
    exec (.vminu x d a b) s = post (.vminu x d a b) (opVminu x d a b) (vxLen x) s := rfl

theorem exec_vmaxu (x : VX) (d : Reg) (a : Reg) (b : Reg) (s : State) :
    exec (.vmaxu x d a b) s = post (.vmaxu x d a b) (opVmaxu x d a b) (vxLen x) s := rfl

theorem exec_vdiv (x : VX) (d : Reg) (a : Reg) (b : Reg) (s : State) :
    exec (.vdiv x d a b) s = post (.vdiv x d a b) (opVdiv x d a b) (vxLen x) s := rfl

theorem exec_vdivu (x : VX) (d : Reg) (a : Reg) (b : Reg) (s : State) :
    exec (.vdivu x d a b) s = post (.vdivu x d a b) (opVdivu x d a b) (vxLen x) s := rfl

theorem exec_vrem (x : VX) (d : Reg) (a : Reg) (b : Reg) (s : State) :
    exec (.vrem x d a b) s = post (.vrem x d a b) (opVrem x d a b) (vxLen x) s := rfl

theorem exec_vremu (x : VX) (d : Reg) (a : Reg) (b : Reg) (s : State) :
    exec (.vremu x d a b) s = post (.vremu x d a b) (opVremu x d a b) (vxLen x) s := rfl

theorem exec_vsadd (x : VX) (d : Reg) (a : Reg) (b : Reg) (s : State) :
    exec (.vsadd x d a b) s = post (.vsadd x d a b) (opVsadd x d a b) (vxLen x) s := rfl

theorem exec_vssub (x : VX) (d : Reg) (a : Reg) (b : Reg) (s : State) :
    exec (.vssub x d a b) s = post (.vssub x d a b) (opVssub x d a b) (vxLen x) s := rfl

theorem exec_vaddScalar (x : VX) (d : Reg) (a : Reg) (b : Reg) (s : State) :
    exec (.vaddScalar x d a b) s = post (.vaddScalar x d a b) (opVaddScalar x d a b) (vxLen x) s := rfl

theorem exec_vsubScalar (x : VX) (d : Reg) (a : Reg) (b : Reg) (s : State) :
    exec (.vsubScalar x d a b) s = post (.vsubScalar x d a b) (opVsubScalar x d a b) (vxLen x) s := rfl

theorem exec_vmulScalar (x : VX) (d : Reg) (a : Reg) (b : Reg) (s : State) :
    exec (.vmulScalar x d a b) s = post (.vmulScalar x d a b) (opVmulScalar x d a b) (vxLen x) s := rfl

theorem exec_vmulhScalar (x : VX) (d : Reg) (a : Reg) (b : Reg) (s : State) :
    exec (.vmulhScalar x d a b) s = post (.vmulhScalar x d a b) (opVmulhScalar x d a b) (vxLen x) s := rfl

theorem exec_vmulhuScalar (x : VX) (d : Reg) (a : Reg) (b : Reg) (s : State) :
    exec (.vmulhuScalar x d a b) s = post (.vmulhuScalar x d a b) (opVmulhuScalar x d a b) (vxLen x) s := rfl

theorem exec_vandScalar (x : VX) (d : Reg) (a : Reg) (b : Reg) (s : State) :
    exec (.vandScalar x d a b) s = post (.vandScalar x d a b) (opVandScalar x d a b) (vxLen x) s := rfl

theorem exec_vorScalar (x : VX) (d : Reg) (a : Reg) (b : Reg) (s : State) :
    exec (.vorScalar x d a b) s = post (.vorScalar x d a b) (opVorScalar x d a b) (vxLen x) s := rfl

theorem exec_vxorScalar (x : VX) (d : Reg) (a : Reg) (b : Reg) (s : State) :
    exec (.vxorScalar x d a b) s = post (.vxorScalar x d a b) (opVxorScalar x d a b) (vxLen x) s := rfl

theorem exec_vsllScalar (x : VX) (d : Reg) (a : Reg) (b : Reg) (s : State) :
    exec (.vsllScalar x d a b) s = post (.vsllScalar x d a b) (opVsllScalar x d a b) (vxLen x) s := rfl

theorem exec_vsrlScalar (x : VX) (d : Reg) (a : Reg) (b : Reg) (s : State) :
    exec (.vsrlScalar x d a b) s = post (.vsrlScalar x d a b) (opVsrlScalar x d a b) (vxLen x) s := rfl

theorem exec_vsraScalar (x : VX) (d : Reg) (a : Reg) (b : Reg) (s : State) :
    exec (.vsraScalar x d a b) s = post (.vsraScalar x d a b) (opVsraScalar x d a b) (vxLen x) s := rfl

theorem exec_vminScalar (x : VX) (d : Reg) (a : Reg) (b : Reg) (s : State) :
    exec (.vminScalar x d a b) s = post (.vminScalar x d a b) (opVminScalar x d a b) (vxLen x) s := rfl

theorem exec_vmaxScalar (x : VX) (d : Reg) (a : Reg) (b : Reg) (s : State) :
    exec (.vmaxScalar x d a b) s = post (.vmaxScalar x d a b) (opVmaxScalar x d a b) (vxLen x) s := rfl

theorem exec_vminuScalar (x : VX) (d : Reg) (a : Reg) (b : Reg) (s : State) :
    exec (.vminuScalar x d a b) s = post (.vminuScalar x d a b) (opVminuScalar x d a b) (vxLen x) s := rfl

theorem exec_vmaxuScalar (x : VX) (d : Reg) (a : Reg) (b : Reg) (s : State) :
    exec (.vmaxuScalar x d a b) s = post (.vmaxuScalar x d a b) (opVmaxuScalar x d a b) (vxLen x) s := rfl

theorem exec_vdivScalar (x : VX) (d : Reg) (a : Reg) (b : Reg) (s : State) :
    exec (.vdivScalar x d a b) s = post (.vdivScalar x d a b) (opVdivScalar x d a b) (vxLen x) s := rfl

theorem exec_vdivuScalar (x : VX) (d : Reg) (a : Reg) (b : Reg) (s : State) :
    exec (.vdivuScalar x d a b) s = post (.vdivuScalar x d a b) (opVdivuScalar x d a b) (vxLen x) s := rfl

theorem exec_vremScalar (x : VX) (d : Reg) (a : Reg) (b : Reg) (s : State) :
    exec (.vremScalar x d a b) s = post (.vremScalar x d a b) (opVremScalar x d a b) (vxLen x) s := rfl

theorem exec_vremuScalar (x : VX) (d : Reg) (a : Reg) (b : Reg) (s : State) :
    exec (.vremuScalar x d a b) s = post (.vremuScalar x d a b) (opVremuScalar x d a b) (vxLen x) s := rfl

theorem exec_vsaddScalar (x : VX) (d : Reg) (a : Reg) (b : Reg) (s : State) :
    exec (.vsaddScalar x d a b) s = post (.vsaddScalar x d a b) (opVsaddScalar x d a b) (vxLen x) s := rfl

theorem exec_vssubScalar (x : VX) (d : Reg) (a : Reg) (b : Reg) (s : State) :
    exec (.vssubScalar x d a b) s = post (.vssubScalar x d a b) (opVssubScalar x d a b) (vxLen x) s := rfl

theorem exec_vrsub (x : VX) (d : Reg) (a : Reg) (b : Reg) (s : State) :
    exec (.vrsub x d a b) s = post (.vrsub x d a b) (opVrsub x d a b) (vxLen x) s := rfl

theorem exec_vfadd (x : VX) (d : Reg) (a : Reg) (b : Reg) (s : State) :
    exec (.vfadd x d a b) s = post (.vfadd x d a b) (opVfadd x d a b) (vxLen x) s := rfl

theorem exec_vfsub (x : VX) (d : Reg) (a : Reg) (b : Reg) (s : State) :
    exec (.vfsub x d a b) s = post (.vfsub x d a b) (opVfsub x d a b) (vxLen x) s := rfl

theorem exec_vfmul (x : VX) (d : Reg) (a : Reg) (b : Reg) (s : State) :
    exec (.vfmul x d a b) s = post (.vfmul x d a b) (opVfmul x d a b) (vxLen x) s := rfl

theorem exec_vfdiv (x : VX) (d : Reg) (a : Reg) (b : Reg) (s : State) :
    exec (.vfdiv x d a b) s = post (.vfdiv x d a b) (opVfdiv x d a b) (vxLen x) s := rfl

theorem exec_vfsqrt (x : VX) (d : Reg) (a : Reg) (s : State) :
    exec (.vfsqrt x d a) s = post (.vfsqrt x d a) (opVfsqrt x d a) (vxLen x) s := rfl

theorem exec_vfmin (x : VX) (d : Reg) (a : Reg) (b : Reg) (s : State) :
    exec (.vfmin x d a b) s = post (.vfmin x d a b) (opVfmin x d a b) (vxLen x) s := rfl

theorem exec_vfmax (x : VX) (d : Reg) (a : Reg) (b : Reg) (s : State) :
    exec (.vfmax x d a b) s = post (.vfmax x d a b) (opVfmax x d a b) (vxLen x) s := rfl

theorem exec_vfsgnj (x : VX) (d : Reg) (a : Reg) (b : Reg) (s : State) :
    exec (.vfsgnj x d a b) s = post (.vfsgnj x d a b) (opVfsgnj x d a b) (vxLen x) s := rfl

theorem exec_vfsgnjn (x : VX) (d : Reg) (a : Reg) (b : Reg) (s : State) :
    exec (.vfsgnjn x d a b) s = post (.vfsgnjn x d a b) (opVfsgnjn x d a b) (vxLen x) s := rfl

theorem exec_vfsgnjx (x : VX) (d : Reg) (a : Reg) (b : Reg) (s : State) :
    exec (.vfsgnjx x d a b) s = post (.vfsgnjx x d a b) (opVfsgnjx x d a b) (vxLen x) s := rfl

theorem exec_vfclass (x : VX) (d : Reg) (a : Reg) (s : State) :
    exec (.vfclass x d a) s = post (.vfclass x d a) (opVfclass x d a) (vxLen x) s := rfl

theorem exec_vfaddScalar (x : VX) (d : Reg) (a : Reg) (b : Reg) (s : State) :
    exec (.vfaddScalar x d a b) s = post (.vfaddScalar x d a b) (opVfaddScalar x d a b) (vxLen x) s := rfl

theorem exec_vfsubScalar (x : VX) (d : Reg) (a : Reg) (b : Reg) (s : State) :
    exec (.vfsubScalar x d a b) s = post (.vfsubScalar x d a b) (opVfsubScalar x d a b) (vxLen x) s := rfl

theorem exec_vfmulScalar (x : VX) (d : Reg) (a : Reg) (b : Reg) (s : State) :
    exec (.vfmulScalar x d a b) s = post (.vfmulScalar x d a b) (opVfmulScalar x d a b) (vxLen x) s := rfl

theorem exec_vfdivScalar (x : VX) (d : Reg) (a : Reg) (b : Reg) (s : State) :
    exec (.vfdivScalar x d a b) s = post (.vfdivScalar x d a b) (opVfdivScalar x d a b) (vxLen x) s := rfl

theorem exec_vfsqrtScalar (x : VX) (d : Reg) (a : Reg) (s : State) :
    exec (.vfsqrtScalar x d a) s = post (.vfsqrtScalar x d a) (opVfsqrtScalar x d a) (vxLen x) s := rfl

theorem exec_vfminScalar (x : VX) (d : Reg) (a : Reg) (b : Reg) (s : State) :
    exec (.vfminScalar x d a b) s = post (.vfminScalar x d a b) (opVfminScalar x d a b) (vxLen x) s := rfl

theorem exec_vfmaxScalar (x : VX) (d : Reg) (a : Reg) (b : Reg) (s : State) :
    exec (.vfmaxScalar x d a b) s = post (.vfmaxScalar x d a b) (opVfmaxScalar x d a b) (vxLen x) s := rfl

theorem exec_vfsgnjScalar (x : VX) (d : Reg) (a : Reg) (b : Reg) (s : State) :
    exec (.vfsgnjScalar x d a b) s = post (.vfsgnjScalar x d a b) (opVfsgnjScalar x d a b) (vxLen x) s := rfl

theorem exec_vfsgnjnScalar (x : VX) (d : Reg) (a : Reg) (b : Reg) (s : State) :
    exec (.vfsgnjnScalar x d a b) s = post (.vfsgnjnScalar x d a b) (opVfsgnjnScalar x d a b) (vxLen x) s := rfl

theorem exec_vfsgnjxScalar (x : VX) (d : Reg) (a : Reg) (b : Reg) (s : State) :
    exec (.vfsgnjxScalar x d a b) s = post (.vfsgnjxScalar x d a b) (opVfsgnjxScalar x d a b) (vxLen x) s := rfl

theorem exec_vfclassScalar (x : VX) (d : Reg) (a : Reg) (s : State) :
    exec (.vfclassScalar x d a) s = post (.vfclassScalar x d a) (opVfclassScalar x d a) (vxLen x) s := rfl

theorem exec_vfmacc (x : VX) (d : Reg) (a : Reg) (b : Reg) (s : State) :
    exec (.vfmacc x d a b) s = post (.vfmacc x d a b) (opVfmacc x d a b) (vxLen x) s := rfl

theorem exec_vfmsac (x : VX) (d : Reg) (a : Reg) (b : Reg) (s : State) :
    exec (.vfmsac x d a b) s = post (.vfmsac x d a b) (opVfmsac x d a b) (vxLen x) s := rfl

theorem exec_vfnmacc (x : VX) (d : Reg) (a : Reg) (b : Reg) (s : State) :
    exec (.vfnmacc x d a b) s = post (.vfnmacc x d a b) (opVfnmacc x d a b) (vxLen x) s := rfl

theorem exec_vfnmsac (x : VX) (d : Reg) (a : Reg) (b : Reg) (s : State) :
    exec (.vfnmsac x d a b) s = post (.vfnmsac x d a b) (opVfnmsac x d a b) (vxLen x) s := rfl

theorem exec_vfmaccScalar (x : VX) (d : Reg) (a : Reg) (b : Reg) (s : State) :
    exec (.vfmaccScalar x d a b) s = post (.vfmaccScalar x d a b) (opVfmaccScalar x d a b) (vxLen x) s := rfl

theorem exec_vfmsacScalar (x : VX) (d : Reg) (a : Reg) (b : Reg) (s : State) :
    exec (.vfmsacScalar x d a b) s = post (.vfmsacScalar x d a b) (opVfmsacScalar x d a b) (vxLen x) s := rfl

theorem exec_vfnmaccScalar (x : VX) (d : Reg) (a : Reg) (b : Reg) (s : State) :
    exec (.vfnmaccScalar x d a b) s = post (.vfnmaccScalar x d a b) (opVfnmaccScalar x d a b) (vxLen x) s := rfl

theorem exec_vfnmsacScalar (x : VX) (d : Reg) (a : Reg) (b : Reg) (s : State) :
    exec (.vfnmsacScalar x d a b) s = post (.vfnmsacScalar x d a b) (opVfnmsacScalar x d a b) (vxLen x) s := rfl

theorem exec_vmacc (x : VX) (d : Reg) (a : Reg) (b : Reg) (s : State) :
    exec (.vmacc x d a b) s = post (.vmacc x d a b) (opVmacc x d a b) (vxLen x) s := rfl

theorem exec_vmaccScalar (x : VX) (d : Reg) (a : Reg) (b : Reg) (s : State) :
    exec (.vmaccScalar x d a b) s = post (.vmaccScalar x d a b) (opVmaccScalar x d a b) (vxLen x) s := rfl

theorem exec_vwmacc (x : VX) (d : Reg) (a : Reg) (b : Reg) (s : State) :
    exec (.vwmacc x d a b) s = post (.vwmacc x d a b) (opVwmacc x d a b) (vxLen x) s := rfl

theorem exec_veq (x : VX) (d : PReg) (a : Reg) (b : Reg) (s : State) :
    exec (.veq x d a b) s = post (.veq x d a b) (opVeq x d a b) (vxLen x) s := rfl

theorem exec_vne (x : VX) (d : PReg) (a : Reg) (b : Reg) (s : State) :
    exec (.vne x d a b) s = post (.vne x d a b) (opVne x d a b) (vxLen x) s := rfl

theorem exec_vlt (x : VX) (d : PReg) (a : Reg) (b : Reg) (s : State) :
    exec (.vlt x d a b) s = post (.vlt x d a b) (opVlt x d a b) (vxLen x) s := rfl

theorem exec_vle (x : VX) (d : PReg) (a : Reg) (b : Reg) (s : State) :
    exec (.vle x d a b) s = post (.vle x d a b) (opVle x d a b) (vxLen x) s := rfl

theorem exec_vltu (x : VX) (d : PReg) (a : Reg) (b : Reg) (s : State) :
    exec (.vltu x d a b) s = post (.vltu x d a b) (opVltu x d a b) (vxLen x) s := rfl

theorem exec_vleu (x : VX) (d : PReg) (a : Reg) (b : Reg) (s : State) :
    exec (.vleu x d a b) s = post (.vleu x d a b) (opVleu x d a b) (vxLen x) s := rfl

theorem exec_vfeq (x : VX) (d : PReg) (a : Reg) (b : Reg) (s : State) :
    exec (.vfeq x d a b) s = post (.vfeq x d a b) (opVfeq x d a b) (vxLen x) s := rfl

theorem exec_vflt (x : VX) (d : PReg) (a : Reg) (b : Reg) (s : State) :
    exec (.vflt x d a b) s = post (.vflt x d a b) (opVflt x d a b) (vxLen x) s := rfl

theorem exec_vfle (x : VX) (d : PReg) (a : Reg) (b : Reg) (s : State) :
    exec (.vfle x d a b) s = post (.vfle x d a b) (opVfle x d a b) (vxLen x) s := rfl

theorem exec_vfunord (x : VX) (d : PReg) (a : Reg) (b : Reg) (s : State) :
    exec (.vfunord x d a b) s = post (.vfunord x d a b) (opVfunord x d a b) (vxLen x) s := rfl

theorem exec_veqScalar (x : VX) (d : PReg) (a : Reg) (b : Reg) (s : State) :
    exec (.veqScalar x d a b) s = post (.veqScalar x d a b) (opVeqScalar x d a b) (vxLen x) s := rfl

theorem exec_vneScalar (x : VX) (d : PReg) (a : Reg) (b : Reg) (s : State) :
    exec (.vneScalar x d a b) s = post (.vneScalar x d a b) (opVneScalar x d a b) (vxLen x) s := rfl

theorem exec_vltScalar (x : VX) (d : PReg) (a : Reg) (b : Reg) (s : State) :
    exec (.vltScalar x d a b) s = post (.vltScalar x d a b) (opVltScalar x d a b) (vxLen x) s := rfl

theorem exec_vleScalar (x : VX) (d : PReg) (a : Reg) (b : Reg) (s : State) :
    exec (.vleScalar x d a b) s = post (.vleScalar x d a b) (opVleScalar x d a b) (vxLen x) s := rfl

theorem exec_vltuScalar (x : VX) (d : PReg) (a : Reg) (b : Reg) (s : State) :
    exec (.vltuScalar x d a b) s = post (.vltuScalar x d a b) (opVltuScalar x d a b) (vxLen x) s := rfl

theorem exec_vleuScalar (x : VX) (d : PReg) (a : Reg) (b : Reg) (s : State) :
    exec (.vleuScalar x d a b) s = post (.vleuScalar x d a b) (opVleuScalar x d a b) (vxLen x) s := rfl

theorem exec_vfeqScalar (x : VX) (d : PReg) (a : Reg) (b : Reg) (s : State) :
    exec (.vfeqScalar x d a b) s = post (.vfeqScalar x d a b) (opVfeqScalar x d a b) (vxLen x) s := rfl

theorem exec_vfltScalar (x : VX) (d : PReg) (a : Reg) (b : Reg) (s : State) :
    exec (.vfltScalar x d a b) s = post (.vfltScalar x d a b) (opVfltScalar x d a b) (vxLen x) s := rfl

theorem exec_vfleScalar (x : VX) (d : PReg) (a : Reg) (b : Reg) (s : State) :
    exec (.vfleScalar x d a b) s = post (.vfleScalar x d a b) (opVfleScalar x d a b) (vxLen x) s := rfl

theorem exec_vfunordScalar (x : VX) (d : PReg) (a : Reg) (b : Reg) (s : State) :
    exec (.vfunordScalar x d a b) s = post (.vfunordScalar x d a b) (opVfunordScalar x d a b) (vxLen x) s := rfl

theorem exec_pand (x : VX) (d : PReg) (a : PReg) (b : PReg) (s : State) :
    exec (.pand x d a b) s = post (.pand x d a b) (opPand x d a b) (vxLen x) s := rfl

theorem exec_por (x : VX) (d : PReg) (a : PReg) (b : PReg) (s : State) :
    exec (.por x d a b) s = post (.por x d a b) (opPor x d a b) (vxLen x) s := rfl

theorem exec_pxor (x : VX) (d : PReg) (a : PReg) (b : PReg) (s : State) :
    exec (.pxor x d a b) s = post (.pxor x d a b) (opPxor x d a b) (vxLen x) s := rfl

theorem exec_pandn (x : VX) (d : PReg) (a : PReg) (b : PReg) (s : State) :
    exec (.pandn x d a b) s = post (.pandn x d a b) (opPandn x d a b) (vxLen x) s := rfl

theorem exec_pnot (x : VX) (d : PReg) (a : PReg) (s : State) :
    exec (.pnot x d a) s = post (.pnot x d a) (opPnot x d a) (vxLen x) s := rfl

theorem exec_pset (x : VX) (d : PReg) (a : Reg) (s : State) :
    exec (.pset x d a) s = post (.pset x d a) (opPset x d a) (vxLen x) s := rfl

theorem exec_ppop (x : VX) (d : Reg) (a : PReg) (s : State) :
    exec (.ppop x d a) s = post (.ppop x d a) (opPpop x d a) (vxLen x) s := rfl

theorem exec_pfirst (x : VX) (d : Reg) (a : PReg) (s : State) :
    exec (.pfirst x d a) s = post (.pfirst x d a) (opPfirst x d a) (vxLen x) s := rfl

theorem exec_pscan (x : VX) (d : Reg) (a : PReg) (s : State) :
    exec (.pscan x d a) s = post (.pscan x d a) (opPscan x d a) (vxLen x) s := rfl

theorem exec_pbefore (x : VX) (d : PReg) (a : PReg) (s : State) :
    exec (.pbefore x d a) s = post (.pbefore x d a) (opPbefore x d a) (vxLen x) s := rfl

theorem exec_pmv (x : VX) (d : Reg) (a : PReg) (s : State) :
    exec (.pmv x d a) s = post (.pmv x d a) (opPmv x d a) (vxLen x) s := rfl

theorem exec_vslideup (x : VX) (d : Reg) (a : Reg) (b : Reg) (s : State) :
    exec (.vslideup x d a b) s = post (.vslideup x d a b) (opVslideup x d a b) (vxLen x) s := rfl

theorem exec_vslidedown (x : VX) (d : Reg) (a : Reg) (b : Reg) (s : State) :
    exec (.vslidedown x d a b) s = post (.vslidedown x d a b) (opVslidedown x d a b) (vxLen x) s := rfl

theorem exec_vgather (x : VX) (d : Reg) (a : Reg) (b : Reg) (s : State) :
    exec (.vgather x d a b) s = post (.vgather x d a b) (opVgather x d a b) (vxLen x) s := rfl

theorem exec_vcompress (x : VX) (d : Reg) (a : Reg) (s : State) :
    exec (.vcompress x d a) s = post (.vcompress x d a) (opVcompress x d a) (vxLen x) s := rfl

theorem exec_vexpand (x : VX) (d : Reg) (a : Reg) (s : State) :
    exec (.vexpand x d a) s = post (.vexpand x d a) (opVexpand x d a) (vxLen x) s := rfl

theorem exec_vbcast (x : VX) (d : Reg) (a : Reg) (s : State) :
    exec (.vbcast x d a) s = post (.vbcast x d a) (opVbcast x d a) (vxLen x) s := rfl

theorem exec_vmvsv (ext : Bool) (d : Reg) (a : Reg) (b : Reg) (s : State) :
    exec (.vmvsv ext d a b) s = post (.vmvsv ext d a b) (opVmvsv ext d a b) (if ext then 8 else 4) s := rfl

theorem exec_vmvvs (x : VX) (d : Reg) (a : Reg) (b : Reg) (s : State) :
    exec (.vmvvs x d a b) s = post (.vmvvs x d a b) (opVmvvs x d a b) (vxLen x) s := rfl

theorem exec_viota (x : VX) (d : Reg) (s : State) :
    exec (.viota x d) s = post (.viota x d) (opViota x d) (vxLen x) s := rfl

theorem exec_vmerge (x : VX) (d : Reg) (a : Reg) (b : Reg) (s : State) :
    exec (.vmerge x d a b) s = post (.vmerge x d a b) (opVmerge x d a b) (vxLen x) s := rfl

theorem exec_vslide1up (x : VX) (d : Reg) (a : Reg) (b : Reg) (s : State) :
    exec (.vslide1up x d a b) s = post (.vslide1up x d a b) (opVslide1up x d a b) (vxLen x) s := rfl

theorem exec_vslide1down (x : VX) (d : Reg) (a : Reg) (b : Reg) (s : State) :
    exec (.vslide1down x d a b) s = post (.vslide1down x d a b) (opVslide1down x d a b) (vxLen x) s := rfl

theorem exec_vredsum (x : VX) (d : Reg) (a : Reg) (s : State) :
    exec (.vredsum x d a) s = post (.vredsum x d a) (opVredsum x d a) (vxLen x) s := rfl

theorem exec_vredmin (x : VX) (d : Reg) (a : Reg) (s : State) :
    exec (.vredmin x d a) s = post (.vredmin x d a) (opVredmin x d a) (vxLen x) s := rfl

theorem exec_vredmax (x : VX) (d : Reg) (a : Reg) (s : State) :
    exec (.vredmax x d a) s = post (.vredmax x d a) (opVredmax x d a) (vxLen x) s := rfl

theorem exec_vredminu (x : VX) (d : Reg) (a : Reg) (s : State) :
    exec (.vredminu x d a) s = post (.vredminu x d a) (opVredminu x d a) (vxLen x) s := rfl

theorem exec_vredmaxu (x : VX) (d : Reg) (a : Reg) (s : State) :
    exec (.vredmaxu x d a) s = post (.vredmaxu x d a) (opVredmaxu x d a) (vxLen x) s := rfl

theorem exec_vredand (x : VX) (d : Reg) (a : Reg) (s : State) :
    exec (.vredand x d a) s = post (.vredand x d a) (opVredand x d a) (vxLen x) s := rfl

theorem exec_vredor (x : VX) (d : Reg) (a : Reg) (s : State) :
    exec (.vredor x d a) s = post (.vredor x d a) (opVredor x d a) (vxLen x) s := rfl

theorem exec_vredxor (x : VX) (d : Reg) (a : Reg) (s : State) :
    exec (.vredxor x d a) s = post (.vredxor x d a) (opVredxor x d a) (vxLen x) s := rfl

theorem exec_vfredsum (x : VX) (d : Reg) (a : Reg) (s : State) :
    exec (.vfredsum x d a) s = post (.vfredsum x d a) (opVfredsum x d a) (vxLen x) s := rfl

theorem exec_vfredmin (x : VX) (d : Reg) (a : Reg) (s : State) :
    exec (.vfredmin x d a) s = post (.vfredmin x d a) (opVfredmin x d a) (vxLen x) s := rfl

theorem exec_vfredmax (x : VX) (d : Reg) (a : Reg) (s : State) :
    exec (.vfredmax x d a) s = post (.vfredmax x d a) (opVfredmax x d a) (vxLen x) s := rfl

theorem exec_vfredsumW (x : VX) (d : Reg) (a : Reg) (s : State) :
    exec (.vfredsumW x d a) s = post (.vfredsumW x d a) (opVfredsumW x d a) (vxLen x) s := rfl

theorem exec_vcvtFFp64 (x : VX) (d : Reg) (a : Reg) (s : State) :
    exec (.vcvtFFp64 x d a) s = post (.vcvtFFp64 x d a) (opVcvtFFp64 x d a) (vxLen x) s := rfl

theorem exec_vcvtIFp64 (x : VX) (d : Reg) (a : Reg) (s : State) :
    exec (.vcvtIFp64 x d a) s = post (.vcvtIFp64 x d a) (opVcvtIFp64 x d a) (vxLen x) s := rfl

theorem exec_vcvtUFp64 (x : VX) (d : Reg) (a : Reg) (s : State) :
    exec (.vcvtUFp64 x d a) s = post (.vcvtUFp64 x d a) (opVcvtUFp64 x d a) (vxLen x) s := rfl

theorem exec_vcvtFp64I (x : VX) (d : Reg) (a : Reg) (s : State) :
    exec (.vcvtFp64I x d a) s = post (.vcvtFp64I x d a) (opVcvtFp64I x d a) (vxLen x) s := rfl

theorem exec_vcvtFFp32 (x : VX) (d : Reg) (a : Reg) (s : State) :
    exec (.vcvtFFp32 x d a) s = post (.vcvtFFp32 x d a) (opVcvtFFp32 x d a) (vxLen x) s := rfl

theorem exec_vcvtIFp32 (x : VX) (d : Reg) (a : Reg) (s : State) :
    exec (.vcvtIFp32 x d a) s = post (.vcvtIFp32 x d a) (opVcvtIFp32 x d a) (vxLen x) s := rfl

theorem exec_vcvtUFp32 (x : VX) (d : Reg) (a : Reg) (s : State) :
    exec (.vcvtUFp32 x d a) s = post (.vcvtUFp32 x d a) (opVcvtUFp32 x d a) (vxLen x) s := rfl

theorem exec_vcvtFp32I (x : VX) (d : Reg) (a : Reg) (s : State) :
    exec (.vcvtFp32I x d a) s = post (.vcvtFp32I x d a) (opVcvtFp32I x d a) (vxLen x) s := rfl

theorem exec_vcvtFFp16 (x : VX) (d : Reg) (a : Reg) (s : State) :
    exec (.vcvtFFp16 x d a) s = post (.vcvtFFp16 x d a) (opVcvtFFp16 x d a) (vxLen x) s := rfl

theorem exec_vcvtIFp16 (x : VX) (d : Reg) (a : Reg) (s : State) :
    exec (.vcvtIFp16 x d a) s = post (.vcvtIFp16 x d a) (opVcvtIFp16 x d a) (vxLen x) s := rfl

theorem exec_vcvtUFp16 (x : VX) (d : Reg) (a : Reg) (s : State) :
    exec (.vcvtUFp16 x d a) s = post (.vcvtUFp16 x d a) (opVcvtUFp16 x d a) (vxLen x) s := rfl

theorem exec_vcvtFp16I (x : VX) (d : Reg) (a : Reg) (s : State) :
    exec (.vcvtFp16I x d a) s = post (.vcvtFp16I x d a) (opVcvtFp16I x d a) (vxLen x) s := rfl

theorem exec_vcvtFBf16 (x : VX) (d : Reg) (a : Reg) (s : State) :
    exec (.vcvtFBf16 x d a) s = post (.vcvtFBf16 x d a) (opVcvtFBf16 x d a) (vxLen x) s := rfl

theorem exec_vcvtIBf16 (x : VX) (d : Reg) (a : Reg) (s : State) :
    exec (.vcvtIBf16 x d a) s = post (.vcvtIBf16 x d a) (opVcvtIBf16 x d a) (vxLen x) s := rfl

theorem exec_vcvtUBf16 (x : VX) (d : Reg) (a : Reg) (s : State) :
    exec (.vcvtUBf16 x d a) s = post (.vcvtUBf16 x d a) (opVcvtUBf16 x d a) (vxLen x) s := rfl

theorem exec_vcvtBf16I (x : VX) (d : Reg) (a : Reg) (s : State) :
    exec (.vcvtBf16I x d a) s = post (.vcvtBf16I x d a) (opVcvtBf16I x d a) (vxLen x) s := rfl

theorem exec_vcvtFE4m3 (x : VX) (d : Reg) (a : Reg) (s : State) :
    exec (.vcvtFE4m3 x d a) s = post (.vcvtFE4m3 x d a) (opVcvtFE4m3 x d a) (vxLen x) s := rfl

theorem exec_vcvtIE4m3 (x : VX) (d : Reg) (a : Reg) (s : State) :
    exec (.vcvtIE4m3 x d a) s = post (.vcvtIE4m3 x d a) (opVcvtIE4m3 x d a) (vxLen x) s := rfl

theorem exec_vcvtUE4m3 (x : VX) (d : Reg) (a : Reg) (s : State) :
    exec (.vcvtUE4m3 x d a) s = post (.vcvtUE4m3 x d a) (opVcvtUE4m3 x d a) (vxLen x) s := rfl

theorem exec_vcvtII8 (x : VX) (d : Reg) (a : Reg) (s : State) :
    exec (.vcvtII8 x d a) s = post (.vcvtII8 x d a) (opVcvtII8 x d a) (vxLen x) s := rfl

theorem exec_vcvtFE5m2 (x : VX) (d : Reg) (a : Reg) (s : State) :
    exec (.vcvtFE5m2 x d a) s = post (.vcvtFE5m2 x d a) (opVcvtFE5m2 x d a) (vxLen x) s := rfl

theorem exec_vcvtIE5m2 (x : VX) (d : Reg) (a : Reg) (s : State) :
    exec (.vcvtIE5m2 x d a) s = post (.vcvtIE5m2 x d a) (opVcvtIE5m2 x d a) (vxLen x) s := rfl

theorem exec_vcvtUE5m2 (x : VX) (d : Reg) (a : Reg) (s : State) :
    exec (.vcvtUE5m2 x d a) s = post (.vcvtUE5m2 x d a) (opVcvtUE5m2 x d a) (vxLen x) s := rfl

theorem exec_vcvtII16 (x : VX) (d : Reg) (a : Reg) (s : State) :
    exec (.vcvtII16 x d a) s = post (.vcvtII16 x d a) (opVcvtII16 x d a) (vxLen x) s := rfl

theorem exec_vcvtFE2m3 (x : VX) (d : Reg) (a : Reg) (s : State) :
    exec (.vcvtFE2m3 x d a) s = post (.vcvtFE2m3 x d a) (opVcvtFE2m3 x d a) (vxLen x) s := rfl

theorem exec_vcvtIE2m3 (x : VX) (d : Reg) (a : Reg) (s : State) :
    exec (.vcvtIE2m3 x d a) s = post (.vcvtIE2m3 x d a) (opVcvtIE2m3 x d a) (vxLen x) s := rfl

theorem exec_vcvtUE2m3 (x : VX) (d : Reg) (a : Reg) (s : State) :
    exec (.vcvtUE2m3 x d a) s = post (.vcvtUE2m3 x d a) (opVcvtUE2m3 x d a) (vxLen x) s := rfl

theorem exec_vcvtII32 (x : VX) (d : Reg) (a : Reg) (s : State) :
    exec (.vcvtII32 x d a) s = post (.vcvtII32 x d a) (opVcvtII32 x d a) (vxLen x) s := rfl

theorem exec_vcvtFE3m2 (x : VX) (d : Reg) (a : Reg) (s : State) :
    exec (.vcvtFE3m2 x d a) s = post (.vcvtFE3m2 x d a) (opVcvtFE3m2 x d a) (vxLen x) s := rfl

theorem exec_vcvtIE3m2 (x : VX) (d : Reg) (a : Reg) (s : State) :
    exec (.vcvtIE3m2 x d a) s = post (.vcvtIE3m2 x d a) (opVcvtIE3m2 x d a) (vxLen x) s := rfl

theorem exec_vcvtUE3m2 (x : VX) (d : Reg) (a : Reg) (s : State) :
    exec (.vcvtUE3m2 x d a) s = post (.vcvtUE3m2 x d a) (opVcvtUE3m2 x d a) (vxLen x) s := rfl

theorem exec_vcvtII64 (x : VX) (d : Reg) (a : Reg) (s : State) :
    exec (.vcvtII64 x d a) s = post (.vcvtII64 x d a) (opVcvtII64 x d a) (vxLen x) s := rfl

theorem exec_vcvtFT8 (x : VX) (d : Reg) (a : Reg) (s : State) :
    exec (.vcvtFT8 x d a) s = post (.vcvtFT8 x d a) (opVcvtFT8 x d a) (vxLen x) s := rfl

theorem exec_vcvtIT8 (x : VX) (d : Reg) (a : Reg) (s : State) :
    exec (.vcvtIT8 x d a) s = post (.vcvtIT8 x d a) (opVcvtIT8 x d a) (vxLen x) s := rfl

theorem exec_vcvtUT8 (x : VX) (d : Reg) (a : Reg) (s : State) :
    exec (.vcvtUT8 x d a) s = post (.vcvtUT8 x d a) (opVcvtUT8 x d a) (vxLen x) s := rfl

theorem exec_vcvtFT6 (x : VX) (d : Reg) (a : Reg) (s : State) :
    exec (.vcvtFT6 x d a) s = post (.vcvtFT6 x d a) (opVcvtFT6 x d a) (vxLen x) s := rfl

theorem exec_vcvtIT6 (x : VX) (d : Reg) (a : Reg) (s : State) :
    exec (.vcvtIT6 x d a) s = post (.vcvtIT6 x d a) (opVcvtIT6 x d a) (vxLen x) s := rfl

theorem exec_vcvtUT6 (x : VX) (d : Reg) (a : Reg) (s : State) :
    exec (.vcvtUT6 x d a) s = post (.vcvtUT6 x d a) (opVcvtUT6 x d a) (vxLen x) s := rfl

theorem exec_vmxpack (x : VX) (d : Reg) (a : Reg) (b : Reg) (s : State) :
    exec (.vmxpack x d a b) s = post (.vmxpack x d a b) (opVmxpack x d a b) (vxLen x) s := rfl

theorem exec_vmxunpack (x : VX) (d : Reg) (a : Reg) (b : Reg) (s : State) :
    exec (.vmxunpack x d a b) s = post (.vmxunpack x d a b) (opVmxunpack x d a b) (vxLen x) s := rfl

theorem exec_vexp2 (x : VX) (d : Reg) (a : Reg) (s : State) :
    exec (.vexp2 x d a) s = post (.vexp2 x d a) (opVexp2 x d a) (vxLen x) s := rfl

theorem exec_vlog2 (x : VX) (d : Reg) (a : Reg) (s : State) :
    exec (.vlog2 x d a) s = post (.vlog2 x d a) (opVlog2 x d a) (vxLen x) s := rfl

theorem exec_vrcp (x : VX) (d : Reg) (a : Reg) (s : State) :
    exec (.vrcp x d a) s = post (.vrcp x d a) (opVrcp x d a) (vxLen x) s := rfl

theorem exec_vrsqrt (x : VX) (d : Reg) (a : Reg) (s : State) :
    exec (.vrsqrt x d a) s = post (.vrsqrt x d a) (opVrsqrt x d a) (vxLen x) s := rfl

theorem exec_vsinpi (x : VX) (d : Reg) (a : Reg) (s : State) :
    exec (.vsinpi x d a) s = post (.vsinpi x d a) (opVsinpi x d a) (vxLen x) s := rfl

theorem exec_vcospi (x : VX) (d : Reg) (a : Reg) (s : State) :
    exec (.vcospi x d a) s = post (.vcospi x d a) (opVcospi x d a) (vxLen x) s := rfl

theorem exec_vtanh (x : VX) (d : Reg) (a : Reg) (s : State) :
    exec (.vtanh x d a) s = post (.vtanh x d a) (opVtanh x d a) (vxLen x) s := rfl

theorem exec_vsigm (x : VX) (d : Reg) (a : Reg) (s : State) :
    exec (.vsigm x d a) s = post (.vsigm x d a) (opVsigm x d a) (vxLen x) s := rfl

theorem exec_vgelu (x : VX) (d : Reg) (a : Reg) (s : State) :
    exec (.vgelu x d a) s = post (.vgelu x d a) (opVgelu x d a) (vxLen x) s := rfl

theorem exec_verf (x : VX) (d : Reg) (a : Reg) (s : State) :
    exec (.verf x d a) s = post (.verf x d a) (opVerf x d a) (vxLen x) s := rfl

theorem exec_vconf (x : VX) (d : Reg) (a : Reg) (s : State) :
    exec (.vconf x d a) s = post (.vconf x d a) (opVconf x d a) (vxLen x) s := rfl

theorem exec_vlead (x : VX) (d : PReg) (a : Reg) (s : State) :
    exec (.vlead x d a) s = post (.vlead x d a) (opVlead x d a) (vxLen x) s := rfl

theorem exec_vdupsum (x : VX) (d : Reg) (a : Reg) (b : Reg) (s : State) :
    exec (.vdupsum x d a b) s = post (.vdupsum x d a b) (opVdupsum x d a b) (vxLen x) s := rfl

theorem exec_vld (x : VX) (w : BitVec 2) (k : BitVec 3) (d : Reg) (a : Reg) (s : State) :
    exec (.vld x w k d a) s = post (.vld x w k d a) (opVld x w k d a) (vxLen x) s := rfl

theorem exec_vlds (x : VX) (w : BitVec 2) (k : BitVec 3) (d : Reg) (a : Reg) (b : Reg) (s : State) :
    exec (.vlds x w k d a b) s = post (.vlds x w k d a b) (opVlds x w k d a b) (vxLen x) s := rfl

theorem exec_vldx (x : VX) (w : BitVec 2) (k : BitVec 3) (d : Reg) (a : Reg) (b : Reg) (s : State) :
    exec (.vldx x w k d a b) s = post (.vldx x w k d a b) (opVldx x w k d a b) (vxLen x) s := rfl

theorem exec_vldseg (x : VX) (w : BitVec 2) (k : BitVec 3) (d : Reg) (a : Reg) (nf : BitVec 3) (perm : Option (BitVec 5)) (s : State) :
    exec (.vldseg x w k d a nf perm) s = post (.vldseg x w k d a nf perm) (opVldseg x w k d a nf perm) (vxLen x) s := rfl

theorem exec_vst (x : VX) (o : Bool) (w : BitVec 2) (k : BitVec 3) (d : Reg) (a : Reg) (s : State) :
    exec (.vst x o w k d a) s = post (.vst x o w k d a) (opVst x o w k d a) (vxLen x) s := rfl

theorem exec_vsts (x : VX) (o : Bool) (w : BitVec 2) (k : BitVec 3) (d : Reg) (a : Reg) (b : Reg) (s : State) :
    exec (.vsts x o w k d a b) s = post (.vsts x o w k d a b) (opVsts x o w k d a b) (vxLen x) s := rfl

theorem exec_vstx (x : VX) (o : Bool) (w : BitVec 2) (k : BitVec 3) (d : Reg) (a : Reg) (b : Reg) (s : State) :
    exec (.vstx x o w k d a b) s = post (.vstx x o w k d a b) (opVstx x o w k d a b) (vxLen x) s := rfl

theorem exec_vstseg (x : VX) (o : Bool) (w : BitVec 2) (k : BitVec 3) (d : Reg) (a : Reg) (nf : BitVec 3) (s : State) :
    exec (.vstseg x o w k d a nf) s = post (.vstseg x o w k d a nf) (opVstseg x o w k d a nf) (vxLen x) s := rfl

theorem exec_vamoAdd (x : VX) (o : Bool) (k : BitVec 3) (d : Reg) (a : Reg) (b : Reg) (s : State) :
    exec (.vamoAdd x o k d a b) s = post (.vamoAdd x o k d a b) (opVamoAdd x o k d a b) (vxLen x) s := rfl

theorem exec_vamoMin (x : VX) (o : Bool) (k : BitVec 3) (d : Reg) (a : Reg) (b : Reg) (s : State) :
    exec (.vamoMin x o k d a b) s = post (.vamoMin x o k d a b) (opVamoMin x o k d a b) (vxLen x) s := rfl

theorem exec_vamoMax (x : VX) (o : Bool) (k : BitVec 3) (d : Reg) (a : Reg) (b : Reg) (s : State) :
    exec (.vamoMax x o k d a b) s = post (.vamoMax x o k d a b) (opVamoMax x o k d a b) (vxLen x) s := rfl

theorem exec_vamoSwap (x : VX) (o : Bool) (k : BitVec 3) (d : Reg) (a : Reg) (b : Reg) (s : State) :
    exec (.vamoSwap x o k d a b) s = post (.vamoSwap x o k d a b) (opVamoSwap x o k d a b) (vxLen x) s := rfl

theorem exec_vgscr (x : VX) (w : BitVec 2) (k : BitVec 3) (d : Reg) (a : Reg) (b : Reg) (s : State) :
    exec (.vgscr x w k d a b) s = post (.vgscr x w k d a b) (opVgscr x w k d a b) (vxLen x) s := rfl

theorem exec_vepop (ext : Bool) (w : BitVec 2) (d : Reg) (b : Reg) (s : State) :
    exec (.vepop ext w d b) s = post (.vepop ext w d b) (opVepop ext w d b) (if ext then 8 else 4) s := rfl

theorem exec_tcfg (acc : BitVec 3) (s : State) :
    exec (.tcfg acc) s = post (.tcfg acc) (opTcfg acc) 8 s := rfl

theorem exec_tzero (acc : BitVec 3) (s : State) :
    exec (.tzero acc) s = post (.tzero acc) (opTzero acc) 8 s := rfl

theorem exec_tmma (acc : BitVec 3) (ra : Reg) (rb : Reg) (rs : Reg) (ms : BitVec 3) (fa : BitVec 4) (fb : BitVec 4) (mk : PReg) (ka : BitVec 3) (kb : BitVec 3) (ck : Bool) (s : State) :
    exec (.tmma acc ra rb rs ms fa fb mk ka kb ck) s = post (.tmma acc ra rb rs ms fa fb mk ka kb ck) (opTmma acc ra rb rs ms fa fb mk ka kb ck) 8 s := rfl

theorem exec_tmmaV (acc : BitVec 3) (ra : Reg) (rb : Reg) (rs : Reg) (ms : BitVec 3) (fa : BitVec 4) (fb : BitVec 4) (mk : PReg) (ka : BitVec 3) (kb : BitVec 3) (ck : Bool) (s : State) :
    exec (.tmmaV acc ra rb rs ms fa fb mk ka kb ck) s = post (.tmmaV acc ra rb rs ms fa fb mk ka kb ck) (opTmmaV acc ra rb rs ms fa fb mk ka kb ck) 8 s := rfl

theorem exec_tmmas (acc : BitVec 3) (ra : Reg) (rb : Reg) (rs : Reg) (ms : BitVec 3) (fa : BitVec 4) (fb : BitVec 4) (mk : PReg) (ka : BitVec 3) (kb : BitVec 3) (ck : Bool) (s : State) :
    exec (.tmmas acc ra rb rs ms fa fb mk ka kb ck) s = post (.tmmas acc ra rb rs ms fa fb mk ka kb ck) (opTmmas acc ra rb rs ms fa fb mk ka kb ck) 8 s := rfl

theorem exec_tld (acc : BitVec 3) (ra : Reg) (rb : Reg) (rs : Reg) (ms : BitVec 3) (fa : BitVec 4) (ka : BitVec 3) (s : State) :
    exec (.tld acc ra rb rs ms fa ka) s = post (.tld acc ra rb rs ms fa ka) (opTld acc ra rb rs ms fa ka) 8 s := rfl

theorem exec_tst (acc : BitVec 3) (ra : Reg) (rs : Reg) (ms : BitVec 3) (fa : BitVec 4) (ka : BitVec 3) (s : State) :
    exec (.tst acc ra rs ms fa ka) s = post (.tst acc ra rs ms fa ka) (opTst acc ra rs ms fa ka) 8 s := rfl

theorem exec_trow (acc : BitVec 3) (ra : Reg) (rb : Reg) (ms : BitVec 3) (s : State) :
    exec (.trow acc ra rb ms) s = post (.trow acc ra rb ms) (opTrow acc ra rb ms) 8 s := rfl

theorem exec_tcol (acc : BitVec 3) (ra : Reg) (rb : Reg) (ms : BitVec 3) (s : State) :
    exec (.tcol acc ra rb ms) s = post (.tcol acc ra rb ms) (opTcol acc ra rb ms) 8 s := rfl

theorem exec_tchk (acc : BitVec 3) (ra : Reg) (rb : Reg) (mk : PReg) (s : State) :
    exec (.tchk acc ra rb mk) s = post (.tchk acc ra rb mk) (opTchk acc ra rb mk) 8 s := rfl

theorem exec_tcon (acc : BitVec 3) (ra : Reg) (rb : Reg) (ms : BitVec 3) (fa : BitVec 4) (fb : BitVec 4) (ka : BitVec 3) (kb : BitVec 3) (s : State) :
    exec (.tcon acc ra rb ms fa fb ka kb) s = post (.tcon acc ra rb ms fa fb ka kb) (opTcon acc ra rb ms fa fb ka kb) 8 s := rfl

theorem exec_tsave (acc : BitVec 3) (ra : Reg) (ka : BitVec 3) (s : State) :
    exec (.tsave acc ra ka) s = post (.tsave acc ra ka) (opTsave acc ra ka) 8 s := rfl

theorem exec_trest (acc : BitVec 3) (ra : Reg) (ka : BitVec 3) (s : State) :
    exec (.trest acc ra ka) s = post (.trest acc ra ka) (opTrest acc ra ka) 8 s := rfl

theorem exec_tstat (acc : BitVec 3) (ra : Reg) (s : State) :
    exec (.tstat acc ra) s = post (.tstat acc ra) (opTstat acc ra) 8 s := rfl

theorem exec_oqinit (q : BitVec 1) (d : Reg) (a : Reg) (b : Reg) (m : BitVec 3) (n : BitVec 14) (cap : BitVec 6) (pol : BitVec 2) (s : State) :
    exec (.oqinit q d a b m n cap pol) s = post (.oqinit q d a b m n cap pol) (opOqinit q d a b m n cap pol) 8 s := rfl

theorem exec_oqacc (q : BitVec 1) (a : Reg) (b : Reg) (s : State) :
    exec (.oqacc q a b) s = post (.oqacc q a b) (opOqacc q a b) 8 s := rfl

theorem exec_oqhh (q : BitVec 1) (d : Reg) (a : Reg) (b : Reg) (s : State) :
    exec (.oqhh q d a b) s = post (.oqhh q d a b) (opOqhh q d a b) 8 s := rfl

theorem exec_oqapl (q : BitVec 1) (a : Reg) (b : Reg) (m : BitVec 3) (tr : Bool) (s : State) :
    exec (.oqapl q a b m tr) s = post (.oqapl q a b m tr) (opOqapl q a b m tr) 8 s := rfl

theorem exec_oqapr (q : BitVec 1) (a : Reg) (b : Reg) (m : BitVec 3) (tr : Bool) (s : State) :
    exec (.oqapr q a b m tr) s = post (.oqapr q a b m tr) (opOqapr q a b m tr) 8 s := rfl

theorem exec_oqapv (q : BitVec 1) (d : Reg) (a : Reg) (tr : Bool) (s : State) :
    exec (.oqapv q d a tr) s = post (.oqapv q d a tr) (opOqapv q d a tr) 8 s := rfl

theorem exec_oqform (q : BitVec 1) (s : State) :
    exec (.oqform q) s = post (.oqform q) (opOqform q) 8 s := rfl

theorem exec_oqsave (q : BitVec 1) (a : Reg) (m : BitVec 3) (s : State) :
    exec (.oqsave q a m) s = post (.oqsave q a m) (opOqsave q a m) 8 s := rfl

theorem exec_oqrest (q : BitVec 1) (a : Reg) (m : BitVec 3) (s : State) :
    exec (.oqrest q a m) s = post (.oqrest q a m) (opOqrest q a m) 8 s := rfl

theorem exec_oqcnt (q : BitVec 1) (d : Reg) (s : State) :
    exec (.oqcnt q d) s = post (.oqcnt q d) (opOqcnt q d) 8 s := rfl

theorem exec_oqrd (q : BitVec 1) (d : Reg) (b : Reg) (s : State) :
    exec (.oqrd q d b) s = post (.oqrd q d b) (opOqrd q d b) 8 s := rfl

end Sys2Proof.Machine
end

