-- ==== Sys2Proof/Laws/Encoding.lean ====
section
/-! SUPPORT. Reading back the fields of an encoded word, format by format: the round trips of PerInstr.lean cite
these. -/

set_option linter.unusedSimpArgs false

namespace Sys2Proof.Laws

/-! ### Fields of joined bit vectors -/

theorem ext_high {n m : Nat} (x : BitVec n) (y : BitVec m) (lo len : Nat) (h : m ≤ lo) :
    (x ++ y).extractLsb' lo len = x.extractLsb' (lo - m) len := by
  apply BitVec.eq_of_getLsbD_eq
  intro i hi
  have : ¬ lo + i < m := by omega
  simp [BitVec.getLsbD_append, this, Nat.sub_add_comm h]

theorem ext_low {n m : Nat} (x : BitVec n) (y : BitVec m) (lo len : Nat) (h : lo + len ≤ m) :
    (x ++ y).extractLsb' lo len = y.extractLsb' lo len := by
  apply BitVec.eq_of_getLsbD_eq
  intro i hi
  have : lo + i < m := by omega
  simp [BitVec.getLsbD_append, this]

theorem ext_self {n : Nat} (x : BitVec n) : x.extractLsb' 0 n = x := by
  simp

theorem ext_ext {n : Nat} (x : BitVec n) (l1 n1 l2 n2 : Nat) (h : l2 + n2 ≤ n1) :
    (x.extractLsb' l1 n1).extractLsb' l2 n2 = x.extractLsb' (l1 + l2) n2 := by
  apply BitVec.eq_of_getLsbD_eq
  intro i hi
  have : l2 + i < n1 := by omega
  simp [this, hi, Nat.add_assoc]

theorem get_high {n m : Nat} (x : BitVec n) (y : BitVec m) (i : Nat) (h : m ≤ i) :
    (x ++ y).getLsbD i = x.getLsbD (i - m) := by
  simp [BitVec.getLsbD_append, Nat.not_lt.mpr h]

theorem get_low {n m : Nat} (x : BitVec n) (y : BitVec m) (i : Nat) (h : i < m) :
    (x ++ y).getLsbD i = y.getLsbD i := by
  simp [BitVec.getLsbD_append, h]

theorem get_ofBool (b : Bool) : (BitVec.ofBool b).getLsbD 0 = b := by
  cases b <;> rfl

/-! ### Words and parcels -/

theorem join_split (w : BitVec 32) : joinParcels (w.extractLsb' 0 16) (w.extractLsb' 16 16) = w := by
  apply BitVec.eq_of_getLsbD_eq
  intro i hi
  unfold joinParcels
  rw [BitVec.getLsbD_append]
  split <;> rename_i h
  · simp [h]
  · have h2 : i - 16 < 16 := by omega
    have h3 : 16 + (i - 16) = i := by omega
    simp [h2, h3]

/-- A word whose low two bits are 0 is decoded as a base word. -/
theorem decode_base (w : BitVec 32) (t : List (BitVec 16)) (h : bits w 0 2 = 0#2) :
    decodeParcels (splitWord w ++ t) = decodeBase w := by
  have h1 : parcelLength (w.extractLsb' 0 16) = 4 := by
    unfold parcelLength
    rw [ext_ext _ _ _ _ _ (by decide)]
    unfold bits at h
    rw [Nat.zero_add, h]
    rfl
  unfold splitWord
  show decodeParcels (w.extractLsb' 0 16 :: w.extractLsb' 16 16 :: t) = _
  rw [decodeParcels, h1]
  show decodeBase (joinParcels (w.extractLsb' 0 16) (w.extractLsb' 16 16)) = _
  rw [join_split]

/-- A word whose low two bits are 3 and a base word are decoded as a pair. -/
theorem decode_pair (p w : BitVec 32) (t : List (BitVec 16)) (hp : bits p 0 2 = 3#2) (h : bits w 0 2 = 0#2) :
    decodeParcels (splitWord p ++ splitWord w ++ t) = decodePair p w := by
  have h1 : parcelLength (p.extractLsb' 0 16) = 8 := by
    unfold parcelLength
    rw [ext_ext _ _ _ _ _ (by decide)]
    unfold bits at hp
    rw [Nat.zero_add, hp]
    rfl
  have h2 : parcelLength (w.extractLsb' 0 16) = 4 := by
    unfold parcelLength
    rw [ext_ext _ _ _ _ _ (by decide)]
    unfold bits at h
    rw [Nat.zero_add, h]
    rfl
  unfold splitWord
  show decodeParcels (p.extractLsb' 0 16 :: p.extractLsb' 16 16 :: w.extractLsb' 0 16 :: w.extractLsb' 16 16 :: t) = _
  rw [decodeParcels, h1]
  show (if parcelLength (w.extractLsb' 0 16) = 4 then
    decodePair (joinParcels (p.extractLsb' 0 16) (p.extractLsb' 16 16))
      (joinParcels (w.extractLsb' 0 16) (w.extractLsb' 16 16)) else none) = _
  rw [h2, join_split, join_split]
  rfl

/-! ### The formats: each word's fields -/

/-- R format (R216). -/
def wordR (M F : Nat) (m : BitVec 3) (b a d : Reg) : BitVec 32 :=
  BitVec.ofNat 6 F ++ m ++ b ++ a ++ d ++ BitVec.ofNat 6 M ++ 0#2

theorem low_R (M F : Nat) (m : BitVec 3) (b a d : Reg) : bits (wordR M F m b a d) 0 2 = 0#2 := by
  show BitVec.extractLsb' (n := 6+3+5+5+5+6+2) 0 2 _ = _
  unfold wordR
  simp (discharger := decide) only [ext_high, ext_low, ext_self, Nat.reduceSub]

theorem major_R (M F : Nat) (m : BitVec 3) (b a d : Reg) : fldMajor (wordR M F m b a d) = BitVec.ofNat 6 M := by
  show BitVec.extractLsb' (n := 6+3+5+5+5+6+2) 2 6 _ = _
  unfold wordR
  simp (discharger := decide) only [ext_high, ext_low, ext_self, Nat.reduceSub]

theorem d_R (M F : Nat) (m : BitVec 3) (b a d : Reg) : fldD (wordR M F m b a d) = d := by
  show BitVec.extractLsb' (n := 6+3+5+5+5+6+2) 8 5 _ = _
  unfold wordR
  simp (discharger := decide) only [ext_high, ext_low, ext_self, Nat.reduceSub]

theorem a_R (M F : Nat) (m : BitVec 3) (b a d : Reg) : fldA (wordR M F m b a d) = a := by
  show BitVec.extractLsb' (n := 6+3+5+5+5+6+2) 13 5 _ = _
  unfold wordR
  simp (discharger := decide) only [ext_high, ext_low, ext_self, Nat.reduceSub]

theorem b_R (M F : Nat) (m : BitVec 3) (b a d : Reg) : fldB (wordR M F m b a d) = b := by
  show BitVec.extractLsb' (n := 6+3+5+5+5+6+2) 18 5 _ = _
  unfold wordR
  simp (discharger := decide) only [ext_high, ext_low, ext_self, Nat.reduceSub]

theorem m_R (M F : Nat) (m : BitVec 3) (b a d : Reg) : fldM (wordR M F m b a d) = m := by
  show BitVec.extractLsb' (n := 6+3+5+5+5+6+2) 23 3 _ = _
  unfold wordR
  simp (discharger := decide) only [ext_high, ext_low, ext_self, Nat.reduceSub]

theorem fn_R (M F : Nat) (m : BitVec 3) (b a d : Reg) : fldFn (wordR M F m b a d) = BitVec.ofNat 6 F := by
  show BitVec.extractLsb' (n := 6+3+5+5+5+6+2) 26 6 _ = _
  unfold wordR
  simp (discharger := decide) only [ext_high, ext_low, ext_self, Nat.reduceSub]

/-- I format (R216). -/
def wordI (M : Nat) (i : BitVec 14) (a d : Reg) : BitVec 32 :=
  i ++ a ++ d ++ BitVec.ofNat 6 M ++ 0#2

theorem low_I (M : Nat) (i : BitVec 14) (a d : Reg) : bits (wordI M i a d) 0 2 = 0#2 := by
  show BitVec.extractLsb' (n := 14+5+5+6+2) 0 2 _ = _
  unfold wordI
  simp (discharger := decide) only [ext_high, ext_low, ext_self, Nat.reduceSub]

theorem major_I (M : Nat) (i : BitVec 14) (a d : Reg) : fldMajor (wordI M i a d) = BitVec.ofNat 6 M := by
  show BitVec.extractLsb' (n := 14+5+5+6+2) 2 6 _ = _
  unfold wordI
  simp (discharger := decide) only [ext_high, ext_low, ext_self, Nat.reduceSub]

theorem d_I (M : Nat) (i : BitVec 14) (a d : Reg) : fldD (wordI M i a d) = d := by
  show BitVec.extractLsb' (n := 14+5+5+6+2) 8 5 _ = _
  unfold wordI
  simp (discharger := decide) only [ext_high, ext_low, ext_self, Nat.reduceSub]

theorem a_I (M : Nat) (i : BitVec 14) (a d : Reg) : fldA (wordI M i a d) = a := by
  show BitVec.extractLsb' (n := 14+5+5+6+2) 13 5 _ = _
  unfold wordI
  simp (discharger := decide) only [ext_high, ext_low, ext_self, Nat.reduceSub]

theorem imm_I (M : Nat) (i : BitVec 14) (a d : Reg) : bits (wordI M i a d) 18 14 = i := by
  show BitVec.extractLsb' (n := 14+5+5+6+2) 18 14 _ = _
  unfold wordI
  simp (discharger := decide) only [ext_high, ext_low, ext_self, Nat.reduceSub]

/-- U format (R216). -/
def wordU (M : Nat) (i : BitVec 19) (d : Reg) : BitVec 32 :=
  i ++ d ++ BitVec.ofNat 6 M ++ 0#2

theorem low_U (M : Nat) (i : BitVec 19) (d : Reg) : bits (wordU M i d) 0 2 = 0#2 := by
  show BitVec.extractLsb' (n := 19+5+6+2) 0 2 _ = _
  unfold wordU
  simp (discharger := decide) only [ext_high, ext_low, ext_self, Nat.reduceSub]

theorem major_U (M : Nat) (i : BitVec 19) (d : Reg) : fldMajor (wordU M i d) = BitVec.ofNat 6 M := by
  show BitVec.extractLsb' (n := 19+5+6+2) 2 6 _ = _
  unfold wordU
  simp (discharger := decide) only [ext_high, ext_low, ext_self, Nat.reduceSub]

theorem d_U (M : Nat) (i : BitVec 19) (d : Reg) : fldD (wordU M i d) = d := by
  show BitVec.extractLsb' (n := 19+5+6+2) 8 5 _ = _
  unfold wordU
  simp (discharger := decide) only [ext_high, ext_low, ext_self, Nat.reduceSub]

theorem imm_U (M : Nat) (i : BitVec 19) (d : Reg) : bits (wordU M i d) 13 19 = i := by
  show BitVec.extractLsb' (n := 19+5+6+2) 13 19 _ = _
  unfold wordU
  simp (discharger := decide) only [ext_high, ext_low, ext_self, Nat.reduceSub]

/-- J format (R216). -/
def wordJ (M : Nat) (i : BitVec 24) : BitVec 32 :=
  i ++ BitVec.ofNat 6 M ++ 0#2

theorem low_J (M : Nat) (i : BitVec 24) : bits (wordJ M i) 0 2 = 0#2 := by
  show BitVec.extractLsb' (n := 24+6+2) 0 2 _ = _
  unfold wordJ
  simp (discharger := decide) only [ext_high, ext_low, ext_self, Nat.reduceSub]

theorem major_J (M : Nat) (i : BitVec 24) : fldMajor (wordJ M i) = BitVec.ofNat 6 M := by
  show BitVec.extractLsb' (n := 24+6+2) 2 6 _ = _
  unfold wordJ
  simp (discharger := decide) only [ext_high, ext_low, ext_self, Nat.reduceSub]

theorem imm_J (M : Nat) (i : BitVec 24) : bits (wordJ M i) 8 24 = i := by
  show BitVec.extractLsb' (n := 24+6+2) 8 24 _ = _
  unfold wordJ
  simp (discharger := decide) only [ext_high, ext_low, ext_self, Nat.reduceSub]

/-- LS and SS formats (R216). -/
def wordL (M : Nat) (i : BitVec 11) (u : Bool) (w : BitVec 2) (a d : Reg) : BitVec 32 :=
  i ++ BitVec.ofBool u ++ w ++ a ++ d ++ BitVec.ofNat 6 M ++ 0#2

theorem low_L (M : Nat) (i : BitVec 11) (u : Bool) (w : BitVec 2) (a d : Reg) : bits (wordL M i u w a d) 0 2 = 0#2 := by
  show BitVec.extractLsb' (n := 11+1+2+5+5+6+2) 0 2 _ = _
  unfold wordL
  simp (discharger := decide) only [ext_high, ext_low, ext_self, Nat.reduceSub]

theorem major_L (M : Nat) (i : BitVec 11) (u : Bool) (w : BitVec 2) (a d : Reg) : fldMajor (wordL M i u w a d) = BitVec.ofNat 6 M := by
  show BitVec.extractLsb' (n := 11+1+2+5+5+6+2) 2 6 _ = _
  unfold wordL
  simp (discharger := decide) only [ext_high, ext_low, ext_self, Nat.reduceSub]

theorem d_L (M : Nat) (i : BitVec 11) (u : Bool) (w : BitVec 2) (a d : Reg) : fldD (wordL M i u w a d) = d := by
  show BitVec.extractLsb' (n := 11+1+2+5+5+6+2) 8 5 _ = _
  unfold wordL
  simp (discharger := decide) only [ext_high, ext_low, ext_self, Nat.reduceSub]

theorem a_L (M : Nat) (i : BitVec 11) (u : Bool) (w : BitVec 2) (a d : Reg) : fldA (wordL M i u w a d) = a := by
  show BitVec.extractLsb' (n := 11+1+2+5+5+6+2) 13 5 _ = _
  unfold wordL
  simp (discharger := decide) only [ext_high, ext_low, ext_self, Nat.reduceSub]

theorem w_L (M : Nat) (i : BitVec 11) (u : Bool) (w : BitVec 2) (a d : Reg) : bits (wordL M i u w a d) 18 2 = w := by
  show BitVec.extractLsb' (n := 11+1+2+5+5+6+2) 18 2 _ = _
  unfold wordL
  simp (discharger := decide) only [ext_high, ext_low, ext_self, Nat.reduceSub]

theorem imm_L (M : Nat) (i : BitVec 11) (u : Bool) (w : BitVec 2) (a d : Reg) : bits (wordL M i u w a d) 21 11 = i := by
  show BitVec.extractLsb' (n := 11+1+2+5+5+6+2) 21 11 _ = _
  unfold wordL
  simp (discharger := decide) only [ext_high, ext_low, ext_self, Nat.reduceSub]

theorem u_L (M : Nat) (i : BitVec 11) (u : Bool) (w : BitVec 2) (a d : Reg) : bit (wordL M i u w a d) 20 = u := by
  show BitVec.getLsbD (w := 11+1+2+5+5+6+2) _ 20 = _
  unfold wordL
  simp (discharger := decide) only [get_high, get_low, get_ofBool, Nat.reduceSub]

/-- The shift-immediate word (R253). -/
def wordS (M : Nat) (k : BitVec 2) (s : BitVec 6) (a d : Reg) : BitVec 32 :=
  k ++ 0#6 ++ s ++ a ++ d ++ BitVec.ofNat 6 M ++ 0#2

theorem low_S (M : Nat) (k : BitVec 2) (s : BitVec 6) (a d : Reg) : bits (wordS M k s a d) 0 2 = 0#2 := by
  show BitVec.extractLsb' (n := 2+6+6+5+5+6+2) 0 2 _ = _
  unfold wordS
  simp (discharger := decide) only [ext_high, ext_low, ext_self, Nat.reduceSub]

theorem major_S (M : Nat) (k : BitVec 2) (s : BitVec 6) (a d : Reg) : fldMajor (wordS M k s a d) = BitVec.ofNat 6 M := by
  show BitVec.extractLsb' (n := 2+6+6+5+5+6+2) 2 6 _ = _
  unfold wordS
  simp (discharger := decide) only [ext_high, ext_low, ext_self, Nat.reduceSub]

theorem d_S (M : Nat) (k : BitVec 2) (s : BitVec 6) (a d : Reg) : fldD (wordS M k s a d) = d := by
  show BitVec.extractLsb' (n := 2+6+6+5+5+6+2) 8 5 _ = _
  unfold wordS
  simp (discharger := decide) only [ext_high, ext_low, ext_self, Nat.reduceSub]

theorem a_S (M : Nat) (k : BitVec 2) (s : BitVec 6) (a d : Reg) : fldA (wordS M k s a d) = a := by
  show BitVec.extractLsb' (n := 2+6+6+5+5+6+2) 13 5 _ = _
  unfold wordS
  simp (discharger := decide) only [ext_high, ext_low, ext_self, Nat.reduceSub]

theorem sh_S (M : Nat) (k : BitVec 2) (s : BitVec 6) (a d : Reg) : bits (wordS M k s a d) 18 6 = s := by
  show BitVec.extractLsb' (n := 2+6+6+5+5+6+2) 18 6 _ = _
  unfold wordS
  simp (discharger := decide) only [ext_high, ext_low, ext_self, Nat.reduceSub]

theorem zero_S (M : Nat) (k : BitVec 2) (s : BitVec 6) (a d : Reg) : bits (wordS M k s a d) 24 6 = 0#6 := by
  show BitVec.extractLsb' (n := 2+6+6+5+5+6+2) 24 6 _ = _
  unfold wordS
  simp (discharger := decide) only [ext_high, ext_low, ext_self, Nat.reduceSub]

theorem kind_S (M : Nat) (k : BitVec 2) (s : BitVec 6) (a d : Reg) : bits (wordS M k s a d) 30 2 = k := by
  show BitVec.extractLsb' (n := 2+6+6+5+5+6+2) 30 2 _ = _
  unfold wordS
  simp (discharger := decide) only [ext_high, ext_low, ext_self, Nat.reduceSub]

/-- The atomic word (R268). -/
def wordA (M : Nat) (o : BitVec 2) (v : Bool) (f m : BitVec 3) (b a d : Reg) : BitVec 32 :=
  o ++ BitVec.ofBool v ++ f ++ m ++ b ++ a ++ d ++ BitVec.ofNat 6 M ++ 0#2

theorem low_A (M : Nat) (o : BitVec 2) (v : Bool) (f m : BitVec 3) (b a d : Reg) : bits (wordA M o v f m b a d) 0 2 = 0#2 := by
  show BitVec.extractLsb' (n := 2+1+3+3+5+5+5+6+2) 0 2 _ = _
  unfold wordA
  simp (discharger := decide) only [ext_high, ext_low, ext_self, Nat.reduceSub]

theorem major_A (M : Nat) (o : BitVec 2) (v : Bool) (f m : BitVec 3) (b a d : Reg) : fldMajor (wordA M o v f m b a d) = BitVec.ofNat 6 M := by
  show BitVec.extractLsb' (n := 2+1+3+3+5+5+5+6+2) 2 6 _ = _
  unfold wordA
  simp (discharger := decide) only [ext_high, ext_low, ext_self, Nat.reduceSub]

theorem d_A (M : Nat) (o : BitVec 2) (v : Bool) (f m : BitVec 3) (b a d : Reg) : fldD (wordA M o v f m b a d) = d := by
  show BitVec.extractLsb' (n := 2+1+3+3+5+5+5+6+2) 8 5 _ = _
  unfold wordA
  simp (discharger := decide) only [ext_high, ext_low, ext_self, Nat.reduceSub]

theorem a_A (M : Nat) (o : BitVec 2) (v : Bool) (f m : BitVec 3) (b a d : Reg) : fldA (wordA M o v f m b a d) = a := by
  show BitVec.extractLsb' (n := 2+1+3+3+5+5+5+6+2) 13 5 _ = _
  unfold wordA
  simp (discharger := decide) only [ext_high, ext_low, ext_self, Nat.reduceSub]

theorem b_A (M : Nat) (o : BitVec 2) (v : Bool) (f m : BitVec 3) (b a d : Reg) : fldB (wordA M o v f m b a d) = b := by
  show BitVec.extractLsb' (n := 2+1+3+3+5+5+5+6+2) 18 5 _ = _
  unfold wordA
  simp (discharger := decide) only [ext_high, ext_low, ext_self, Nat.reduceSub]

theorem m_A (M : Nat) (o : BitVec 2) (v : Bool) (f m : BitVec 3) (b a d : Reg) : fldM (wordA M o v f m b a d) = m := by
  show BitVec.extractLsb' (n := 2+1+3+3+5+5+5+6+2) 23 3 _ = _
  unfold wordA
  simp (discharger := decide) only [ext_high, ext_low, ext_self, Nat.reduceSub]

theorem op_A (M : Nat) (o : BitVec 2) (v : Bool) (f m : BitVec 3) (b a d : Reg) : bits (wordA M o v f m b a d) 26 3 = f := by
  show BitVec.extractLsb' (n := 2+1+3+3+5+5+5+6+2) 26 3 _ = _
  unfold wordA
  simp (discharger := decide) only [ext_high, ext_low, ext_self, Nat.reduceSub]

theorem order_A (M : Nat) (o : BitVec 2) (v : Bool) (f m : BitVec 3) (b a d : Reg) : bits (wordA M o v f m b a d) 30 2 = o := by
  show BitVec.extractLsb' (n := 2+1+3+3+5+5+5+6+2) 30 2 _ = _
  unfold wordA
  simp (discharger := decide) only [ext_high, ext_low, ext_self, Nat.reduceSub]

theorem v_A (M : Nat) (o : BitVec 2) (v : Bool) (f m : BitVec 3) (b a d : Reg) : bit (wordA M o v f m b a d) 29 = v := by
  show BitVec.getLsbD (w := 2+1+3+3+5+5+5+6+2) _ 29 = _
  unfold wordA
  simp (discharger := decide) only [get_high, get_low, get_ofBool, Nat.reduceSub]

/-- SYS forms with a 10-bit code (R349). -/
def wordC (M F : Nat) (c : BitVec 10) (d : Reg) : BitVec 32 :=
  BitVec.ofNat 6 F ++ 0#3 ++ c ++ d ++ BitVec.ofNat 6 M ++ 0#2

theorem low_C (M F : Nat) (c : BitVec 10) (d : Reg) : bits (wordC M F c d) 0 2 = 0#2 := by
  show BitVec.extractLsb' (n := 6+3+10+5+6+2) 0 2 _ = _
  unfold wordC
  simp (discharger := decide) only [ext_high, ext_low, ext_self, Nat.reduceSub]

theorem major_C (M F : Nat) (c : BitVec 10) (d : Reg) : fldMajor (wordC M F c d) = BitVec.ofNat 6 M := by
  show BitVec.extractLsb' (n := 6+3+10+5+6+2) 2 6 _ = _
  unfold wordC
  simp (discharger := decide) only [ext_high, ext_low, ext_self, Nat.reduceSub]

theorem d_C (M F : Nat) (c : BitVec 10) (d : Reg) : fldD (wordC M F c d) = d := by
  show BitVec.extractLsb' (n := 6+3+10+5+6+2) 8 5 _ = _
  unfold wordC
  simp (discharger := decide) only [ext_high, ext_low, ext_self, Nat.reduceSub]

theorem m_C (M F : Nat) (c : BitVec 10) (d : Reg) : fldM (wordC M F c d) = 0#3 := by
  show BitVec.extractLsb' (n := 6+3+10+5+6+2) 23 3 _ = _
  unfold wordC
  simp (discharger := decide) only [ext_high, ext_low, ext_self, Nat.reduceSub]

theorem fn_C (M F : Nat) (c : BitVec 10) (d : Reg) : fldFn (wordC M F c d) = BitVec.ofNat 6 F := by
  show BitVec.extractLsb' (n := 6+3+10+5+6+2) 26 6 _ = _
  unfold wordC
  simp (discharger := decide) only [ext_high, ext_low, ext_self, Nat.reduceSub]

theorem code_C (M F : Nat) (c : BitVec 10) (d : Reg) : bits (wordC M F c d) 13 10 = c := by
  show BitVec.extractLsb' (n := 6+3+10+5+6+2) 13 10 _ = _
  unfold wordC
  simp (discharger := decide) only [ext_high, ext_low, ext_self, Nat.reduceSub]

/-- M format (R216). -/
def wordM (M : Nat) (o : Bool) (w : BitVec 2) (k m : BitVec 3) (b a d : Reg) : BitVec 32 :=
  BitVec.ofBool o ++ w ++ k ++ m ++ b ++ a ++ d ++ BitVec.ofNat 6 M ++ 0#2

theorem low_M (M : Nat) (o : Bool) (w : BitVec 2) (k m : BitVec 3) (b a d : Reg) : bits (wordM M o w k m b a d) 0 2 = 0#2 := by
  show BitVec.extractLsb' (n := 1+2+3+3+5+5+5+6+2) 0 2 _ = _
  unfold wordM
  simp (discharger := decide) only [ext_high, ext_low, ext_self, Nat.reduceSub]

theorem major_M (M : Nat) (o : Bool) (w : BitVec 2) (k m : BitVec 3) (b a d : Reg) : fldMajor (wordM M o w k m b a d) = BitVec.ofNat 6 M := by
  show BitVec.extractLsb' (n := 1+2+3+3+5+5+5+6+2) 2 6 _ = _
  unfold wordM
  simp (discharger := decide) only [ext_high, ext_low, ext_self, Nat.reduceSub]

theorem d_M (M : Nat) (o : Bool) (w : BitVec 2) (k m : BitVec 3) (b a d : Reg) : fldD (wordM M o w k m b a d) = d := by
  show BitVec.extractLsb' (n := 1+2+3+3+5+5+5+6+2) 8 5 _ = _
  unfold wordM
  simp (discharger := decide) only [ext_high, ext_low, ext_self, Nat.reduceSub]

theorem a_M (M : Nat) (o : Bool) (w : BitVec 2) (k m : BitVec 3) (b a d : Reg) : fldA (wordM M o w k m b a d) = a := by
  show BitVec.extractLsb' (n := 1+2+3+3+5+5+5+6+2) 13 5 _ = _
  unfold wordM
  simp (discharger := decide) only [ext_high, ext_low, ext_self, Nat.reduceSub]

theorem b_M (M : Nat) (o : Bool) (w : BitVec 2) (k m : BitVec 3) (b a d : Reg) : fldB (wordM M o w k m b a d) = b := by
  show BitVec.extractLsb' (n := 1+2+3+3+5+5+5+6+2) 18 5 _ = _
  unfold wordM
  simp (discharger := decide) only [ext_high, ext_low, ext_self, Nat.reduceSub]

theorem m_M (M : Nat) (o : Bool) (w : BitVec 2) (k m : BitVec 3) (b a d : Reg) : fldM (wordM M o w k m b a d) = m := by
  show BitVec.extractLsb' (n := 1+2+3+3+5+5+5+6+2) 23 3 _ = _
  unfold wordM
  simp (discharger := decide) only [ext_high, ext_low, ext_self, Nat.reduceSub]

theorem w_M (M : Nat) (o : Bool) (w : BitVec 2) (k m : BitVec 3) (b a d : Reg) : mW (wordM M o w k m b a d) = w := by
  show BitVec.extractLsb' (n := 1+2+3+3+5+5+5+6+2) 29 2 _ = _
  unfold wordM
  simp (discharger := decide) only [ext_high, ext_low, ext_self, Nat.reduceSub]

theorem k_M (M : Nat) (o : Bool) (w : BitVec 2) (k m : BitVec 3) (b a d : Reg) : mK (wordM M o w k m b a d) = k := by
  show BitVec.extractLsb' (n := 1+2+3+3+5+5+5+6+2) 26 3 _ = _
  unfold wordM
  simp (discharger := decide) only [ext_high, ext_low, ext_self, Nat.reduceSub]

theorem o_M (M : Nat) (o : Bool) (w : BitVec 2) (k m : BitVec 3) (b a d : Reg) : mO (wordM M o w k m b a d) = o := by
  show BitVec.getLsbD (w := 1+2+3+3+5+5+5+6+2) _ 31 = _
  unfold wordM
  simp (discharger := decide) only [get_high, get_low, get_ofBool, Nat.reduceSub]

/-- A prefix word (R219). -/
def wordP (K : Nat) (i : BitVec 24) : BitVec 32 :=
  i ++ BitVec.ofNat 6 K ++ 3#2

theorem low_P (K : Nat) (i : BitVec 24) : bits (wordP K i) 0 2 = 3#2 := by
  show BitVec.extractLsb' (n := 24+6+2) 0 2 _ = _
  unfold wordP
  simp (discharger := decide) only [ext_high, ext_low, ext_self, Nat.reduceSub]

theorem kind_P (K : Nat) (i : BitVec 24) : bits (wordP K i) 2 6 = BitVec.ofNat 6 K := by
  show BitVec.extractLsb' (n := 24+6+2) 2 6 _ = _
  unfold wordP
  simp (discharger := decide) only [ext_high, ext_low, ext_self, Nat.reduceSub]

theorem pay_P (K : Nat) (i : BitVec 24) : bits (wordP K i) 8 24 = i := by
  show BitVec.extractLsb' (n := 24+6+2) 8 24 _ = _
  unfold wordP
  simp (discharger := decide) only [ext_high, ext_low, ext_self, Nat.reduceSub]

/-- A field of a prefix's payload. -/
theorem pay_field (K : Nat) (i : BitVec 24) (lo len : Nat) (h : 8 ≤ lo) :
    bits (wordP K i) lo len = i.extractLsb' (lo - 8) len := by
  have e : bits (wordP K i) lo len = BitVec.extractLsb' (n := 24 + 6 + 2) lo len (i ++ BitVec.ofNat 6 K ++ 3#2) := rfl
  rw [e, ext_high _ _ _ _ (by omega), ext_high _ _ _ _ (by omega)]
  rfl

theorem pay_bit (K : Nat) (i : BitVec 24) (n : Nat) (h : 8 ≤ n) : bit (wordP K i) n = i.getLsbD (n - 8) := by
  have e : bit (wordP K i) n = BitVec.getLsbD (w := 24 + 6 + 2) (i ++ BitVec.ofNat 6 K ++ 3#2) n := rfl
  rw [e, get_high _ _ _ (by omega), get_high _ _ _ (by omega)]
  rfl

/-! ### The formats: what the decoder is given -/

theorem decode_encR (M F : Nat) (m : BitVec 3) (b a d : Reg) :
    decodeParcels (encR M F m b a d) = decodeBase (wordR M F m b a d) :=
  decode_base (wordR M F m b a d) [] (low_R M F m b a d)

theorem decode_encI (M : Nat) (i : BitVec 14) (a d : Reg) :
    decodeParcels (encI M i a d) = decodeBase (wordI M i a d) :=
  decode_base (wordI M i a d) [] (low_I M i a d)

theorem decode_encU (M : Nat) (i : BitVec 19) (d : Reg) : decodeParcels (encU M i d) = decodeBase (wordU M i d) :=
  decode_base (wordU M i d) [] (low_U M i d)

theorem decode_encJ (M : Nat) (i : BitVec 24) : decodeParcels (encJ M i) = decodeBase (wordJ M i) :=
  decode_base (wordJ M i) [] (low_J M i)

theorem decode_encLS (M : Nat) (i : BitVec 11) (u : Bool) (w : BitVec 2) (a d : Reg) :
    decodeParcels (encLS M i u w a d) = decodeBase (wordL M i u w a d) :=
  decode_base (wordL M i u w a d) [] (low_L M i u w a d)

theorem decode_encS (M : Nat) (k : BitVec 2) (s : BitVec 6) (a d : Reg) :
    decodeParcels (splitWord (wordS M k s a d)) = decodeBase (wordS M k s a d) :=
  decode_base (wordS M k s a d) [] (low_S M k s a d)

theorem decode_encA (M : Nat) (o : BitVec 2) (v : Bool) (f m : BitVec 3) (b a d : Reg) :
    decodeParcels (splitWord (wordA M o v f m b a d)) = decodeBase (wordA M o v f m b a d) :=
  decode_base (wordA M o v f m b a d) [] (low_A M o v f m b a d)

theorem decode_encCode (F : Nat) (c : BitVec 10) (d : Reg) :
    decodeParcels (encCode F c d) = decodeBase (wordC 0x1A F c d) :=
  decode_base (wordC 0x1A F c d) [] (low_C 0x1A F c d)

theorem decode_encImmI (M : Nat) (i : BitVec 38) (a d : Reg) :
    decodeParcels (encPrefix 4 (i.extractLsb' 14 24) ++ encI M (i.extractLsb' 0 14) a d) =
      decodeImm (wordP 4 (i.extractLsb' 14 24)) (wordI M (i.extractLsb' 0 14) a d) := by
  have h := decode_pair (wordP 4 (i.extractLsb' 14 24)) (wordI M (i.extractLsb' 0 14) a d) [] (low_P _ _) (low_I _ _ _ _)
  rw [List.append_nil] at h
  refine Eq.trans h ?_
  unfold decodePair
  rw [kind_P]
  rfl

theorem decode_encImmLS (M : Nat) (i : BitVec 35) (u : Bool) (w : BitVec 2) (a d : Reg) :
    decodeParcels (encPrefix 4 (i.extractLsb' 11 24) ++ encLS M (i.extractLsb' 0 11) u w a d) =
      decodeImm (wordP 4 (i.extractLsb' 11 24)) (wordL M (i.extractLsb' 0 11) u w a d) := by
  have h := decode_pair (wordP 4 (i.extractLsb' 11 24)) (wordL M (i.extractLsb' 0 11) u w a d) [] (low_P _ _)
    (low_L _ _ _ _ _ _)
  rw [List.append_nil] at h
  refine Eq.trans h ?_
  unfold decodePair
  rw [kind_P]
  rfl

theorem join_38 (i : BitVec 38) : ((i.extractLsb' 14 24 : BitVec 24) ++ (i.extractLsb' 0 14 : BitVec 14) : BitVec 38) = i := by
  apply BitVec.eq_of_getLsbD_eq
  intro n hn
  rw [BitVec.getLsbD_append]
  split <;> rename_i h
  · simp [h]
  · have h2 : n - 14 < 24 := by omega
    have h3 : 14 + (n - 14) = n := by omega
    simp [h2, h3]

theorem join_35 (i : BitVec 35) : ((i.extractLsb' 11 24 : BitVec 24) ++ (i.extractLsb' 0 11 : BitVec 11) : BitVec 35) = i := by
  apply BitVec.eq_of_getLsbD_eq
  intro n hn
  rw [BitVec.getLsbD_append]
  split <;> rename_i h
  · simp [h]
  · have h2 : n - 11 < 24 := by omega
    have h3 : 11 + (n - 11) = n := by omega
    simp [h2, h3]

theorem asReg_r6 (r : Reg) : asReg (r6 r) = some r := by
  unfold asReg r6
  have h : (r.setWidth 6).getLsbD 5 = false := by simp
  rw [h]
  simp

theorem set_3_6 (m : BitVec 6) (h : m.toNat < 8) : (m.setWidth 3).setWidth 6 = m := by
  apply BitVec.eq_of_toNat_eq
  simp only [BitVec.toNat_setWidth]
  omega

theorem set_5_6 (m : BitVec 6) (h : m.toNat < 32) : (m.setWidth 5).setWidth 6 = m := by
  apply BitVec.eq_of_toNat_eq
  simp only [BitVec.toNat_setWidth]
  omega

theorem fitsP_r6 (x : VX) (r : Reg) : x.fitsP (r6 r) = true := by
  unfold VX.fitsP r6
  have h := r.isLt
  simp only [Bool.or_eq_true, decide_eq_true_eq, BitVec.toNat_setWidth]
  exact Or.inr (by omega)

theorem fitsP_zero (x : VX) : x.fitsP 0#6 = true := by
  unfold VX.fitsP
  simp

/-- The VEXT payload's four fields (R222). -/
theorem vext_fields (b a d m : BitVec 6) (w : BitVec 32) (h : bits w 8 18 = 0#18) :
    vfieldsExt (wordP 3 (b ++ a ++ d ++ m)) w = some { x := { ext := true, m := m }, d := d, a := a, b := b } := by
  unfold vfieldsExt
  rw [h, pay_field _ _ _ _ (by decide), pay_field _ _ _ _ (by decide), pay_field _ _ _ _ (by decide),
    pay_field _ _ _ _ (by decide)]
  have e0 : BitVec.extractLsb' (8 - 8) 6 (b ++ a ++ d ++ m) = m := by
    simp (discharger := decide) only [ext_high, ext_low, ext_self, Nat.reduceSub]
  have e1 : BitVec.extractLsb' (14 - 8) 6 (b ++ a ++ d ++ m) = d := by
    simp (discharger := decide) only [ext_high, ext_low, ext_self, Nat.reduceSub]
  have e2 : BitVec.extractLsb' (20 - 8) 6 (b ++ a ++ d ++ m) = a := by
    simp (discharger := decide) only [ext_high, ext_low, ext_self, Nat.reduceSub]
  have e3 : BitVec.extractLsb' (26 - 8) 6 (b ++ a ++ d ++ m) = b := by
    simp (discharger := decide) only [ext_high, ext_low, ext_self, Nat.reduceSub]
  exact if_neg (by decide) |>.trans (by rw [e0, e1, e2, e3])

theorem zero_R (M F : Nat) : bits (wordR M F 0 0 0 0) 8 18 = 0#18 := by
  show BitVec.extractLsb' (n := 6 + 3 + 5 + 5 + 5 + 6 + 2) 8 18 _ = _
  unfold wordR
  simp (discharger := decide) only [ext_high, Nat.reduceSub]
  have e : ∀ x : BitVec 6, BitVec.extractLsb' 0 18 (x ++ 0#3 ++ 0#5 ++ 0#5 ++ 0#5) = 0#18 := by decide
  exact e _

theorem zero_M (M : Nat) (o : Bool) (w : BitVec 2) (k : BitVec 3) : bits (wordM M o w k 0 0 0 0) 8 18 = 0#18 := by
  show BitVec.extractLsb' (n := 1 + 2 + 3 + 3 + 5 + 5 + 5 + 6 + 2) 8 18 _ = _
  unfold wordM
  simp (discharger := decide) only [ext_high, Nat.reduceSub]
  have e : ∀ x : BitVec (1 + 2 + 3), BitVec.extractLsb' 0 18 (x ++ 0#3 ++ 0#5 ++ 0#5 ++ 0#5) = 0#18 := by decide
  exact e _

/-- A vector word of majors 0x20 to 0x2C gives its fields, with a VEXT prefix or without (R222, R228). -/
theorem decode_encV (M F : Nat) (x : VX) (b a d : BitVec 6) (hM : 0x20 ≤ M ∧ M ≤ 0x2C) (hx : x.fits = true)
    (hb : x.fitsP b = true) (ha : x.fitsP a = true) (hd : x.fitsP d = true) :
    ∃ w, fldMajor w = BitVec.ofNat 6 M ∧ fldFn w = BitVec.ofNat 6 F ∧
      decodeParcels (encV M F x b a d) = decodeVector w { x := x, d := d, a := a, b := b } := by
  obtain ⟨e, m⟩ := x
  have hMt : (BitVec.ofNat 6 M).toNat = M := by
    rw [BitVec.toNat_ofNat]; omega
  cases e with
  | true =>
    refine ⟨wordR M F 0 0 0 0, major_R _ _ _ _ _ _, fn_R _ _ _ _ _ _, ?_⟩
    have h := decode_pair (wordP 3 (b ++ a ++ d ++ m)) (wordR M F 0 0 0 0) [] (low_P _ _) (low_R _ _ _ _ _ _)
    rw [List.append_nil] at h
    refine Eq.trans h ?_
    unfold decodePair
    rw [kind_P, major_R, vext_fields _ _ _ _ _ (zero_R M F), hMt]
    have h1 : ¬ M = 0x33 := by omega
    show (if M = 0x33 then _ else if _ then decodeVector _ _ else _) = _
    rw [if_neg h1, if_pos (by simp [hM])]
  | false =>
    have fm : m.toNat < 8 := by simpa [VX.fits] using hx
    have fb : b.toNat < 32 := by simpa [VX.fitsP] using hb
    have fa : a.toNat < 32 := by simpa [VX.fitsP] using ha
    have fd : d.toNat < 32 := by simpa [VX.fitsP] using hd
    refine ⟨wordR M F (m.setWidth 3) (b.setWidth 5) (a.setWidth 5) (d.setWidth 5), major_R _ _ _ _ _ _,
      fn_R _ _ _ _ _ _, ?_⟩
    refine Eq.trans (decode_encR M F _ _ _ _) ?_
    have hf : vfieldsBase (wordR M F (m.setWidth 3) (b.setWidth 5) (a.setWidth 5) (d.setWidth 5)) =
        { x := { ext := false, m := m }, d := d, a := a, b := b } := by
      unfold vfieldsBase
      rw [m_R, d_R, a_R, b_R, set_3_6 _ fm, set_5_6 _ fb, set_5_6 _ fa, set_5_6 _ fd]
    unfold decodeBase
    rw [major_R, hMt, hf]
    obtain ⟨h1, h2⟩ := hM
    have hc : M = 0x20 ∨ M = 0x21 ∨ M = 0x22 ∨ M = 0x23 ∨ M = 0x24 ∨ M = 0x25 ∨ M = 0x26 ∨ M = 0x27 ∨ M = 0x28 ∨
      M = 0x29 ∨ M = 0x2A ∨ M = 0x2B ∨ M = 0x2C := by omega
    rcases hc with rfl | rfl | rfl | rfl | rfl | rfl | rfl | rfl | rfl | rfl | rfl | rfl | rfl <;> rfl

/-- A vector memory word gives its fields, with a VEXT prefix or without (R222, R228). -/
theorem decode_encM (M : Nat) (x : VX) (o : Bool) (ww : BitVec 2) (k : BitVec 3) (b a d : BitVec 6)
    (hM : 0x30 ≤ M ∧ M ≤ 0x3A ∧ M ≠ 0x33) (hx : x.fits = true)
    (hb : x.fitsP b = true) (ha : x.fitsP a = true) (hd : x.fitsP d = true) :
    ∃ w, fldMajor w = BitVec.ofNat 6 M ∧ mO w = o ∧ mW w = ww ∧ mK w = k ∧
      decodeParcels (encM M x o ww k b a d) = decodeVMem w { x := x, d := d, a := a, b := b } := by
  obtain ⟨e, m⟩ := x
  have hMt : (BitVec.ofNat 6 M).toNat = M := by
    rw [BitVec.toNat_ofNat]; omega
  cases e with
  | true =>
    refine ⟨wordM M o ww k 0 0 0 0, major_M _ _ _ _ _ _ _ _, o_M _ _ _ _ _ _ _ _, w_M _ _ _ _ _ _ _ _,
      k_M _ _ _ _ _ _ _ _, ?_⟩
    have h := decode_pair (wordP 3 (b ++ a ++ d ++ m)) (wordM M o ww k 0 0 0 0) [] (low_P _ _) (low_M _ _ _ _ _ _ _ _)
    rw [List.append_nil] at h
    refine Eq.trans h ?_
    unfold decodePair
    rw [kind_P, major_M, vext_fields _ _ _ _ _ (zero_M M o ww k), hMt]
    have h1 : ¬ M = 0x33 := hM.2.2
    have h2 : ¬ M ≤ 0x2C := by omega
    show (if M = 0x33 then _ else if _ then _ else if _ then decodeVMem _ _ else _) = _
    rw [if_neg h1, if_neg (by simp [h2]), if_pos (by simp [hM])]
  | false =>
    have fm : m.toNat < 8 := by simpa [VX.fits] using hx
    have fb : b.toNat < 32 := by simpa [VX.fitsP] using hb
    have fa : a.toNat < 32 := by simpa [VX.fitsP] using ha
    have fd : d.toNat < 32 := by simpa [VX.fitsP] using hd
    refine ⟨wordM M o ww k (m.setWidth 3) (b.setWidth 5) (a.setWidth 5) (d.setWidth 5), major_M _ _ _ _ _ _ _ _,
      o_M _ _ _ _ _ _ _ _, w_M _ _ _ _ _ _ _ _, k_M _ _ _ _ _ _ _ _, ?_⟩
    refine Eq.trans (decode_base (wordM M o ww k (m.setWidth 3) (b.setWidth 5) (a.setWidth 5) (d.setWidth 5)) []
      (low_M _ _ _ _ _ _ _ _)) ?_
    have hf : vfieldsBase (wordM M o ww k (m.setWidth 3) (b.setWidth 5) (a.setWidth 5) (d.setWidth 5)) =
        { x := { ext := false, m := m }, d := d, a := a, b := b } := by
      unfold vfieldsBase
      rw [m_M, d_M, a_M, b_M, set_3_6 _ fm, set_5_6 _ fb, set_5_6 _ fa, set_5_6 _ fd]
    unfold decodeBase
    rw [major_M, hMt, hf]
    obtain ⟨h1, h2, h3⟩ := hM
    have hc : M = 0x30 ∨ M = 0x31 ∨ M = 0x32 ∨ M = 0x34 ∨ M = 0x35 ∨ M = 0x36 ∨ M = 0x37 ∨ M = 0x38 ∨
      M = 0x39 ∨ M = 0x3A := by omega
    rcases hc with rfl | rfl | rfl | rfl | rfl | rfl | rfl | rfl | rfl | rfl <;> rfl

/-- A TILE pair (R220). -/
theorem decode_encT (F : Nat) (acc : BitVec 3) (ra rb rs : Reg) (ms : BitVec 3) (fa fb : BitVec 4) (mk : PReg)
    (ka kb : BitVec 3) (ck : Bool) :
    decodeParcels (encT F acc ra rb rs ms fa fb mk ka kb ck) =
      decodeTile (wordP 1 (BitVec.ofBool ck ++ kb ++ ka ++ mk ++ fb ++ fa ++ acc)) (wordR 0x3F F ms rs rb ra) := by
  have h := decode_pair (wordP 1 (BitVec.ofBool ck ++ kb ++ ka ++ mk ++ fb ++ fa ++ acc)) (wordR 0x3F F ms rs rb ra) []
    (low_P _ _) (low_R _ _ _ _ _ _)
  rw [List.append_nil] at h
  refine Eq.trans h ?_
  unfold decodePair
  rw [kind_P, major_R]
  rfl

/-- An OQ pair (R221). -/
theorem decode_encQ (F : Nat) (q : BitVec 1) (tr : Bool) (n : BitVec 14) (cap : BitVec 6) (pol : BitVec 2)
    (m : BitVec 3) (b a d : Reg) :
    decodeParcels (encQ F q tr n cap pol m b a d) =
      decodeOq (wordP 2 (n ++ cap ++ pol ++ BitVec.ofBool tr ++ q)) (wordR 0x3F F m b a d) := by
  have h := decode_pair (wordP 2 (n ++ cap ++ pol ++ BitVec.ofBool tr ++ q)) (wordR 0x3F F m b a d) []
    (low_P _ _) (low_R _ _ _ _ _ _)
  rw [List.append_nil] at h
  refine Eq.trans h ?_
  unfold decodePair
  rw [kind_P, major_R]
  rfl

theorem acc_T (ck : Bool) (kb ka : BitVec 3) (mk : BitVec 6) (fb fa : BitVec 4) (acc : BitVec 3) :
    bits (wordP 1 (BitVec.ofBool ck ++ kb ++ ka ++ mk ++ fb ++ fa ++ acc)) 8 3 = acc := by
  rw [pay_field _ _ _ _ (by decide)]
  simp (discharger := decide) only [ext_high, ext_low, ext_self, Nat.reduceSub]

theorem fa_T (ck : Bool) (kb ka : BitVec 3) (mk : BitVec 6) (fb fa : BitVec 4) (acc : BitVec 3) :
    bits (wordP 1 (BitVec.ofBool ck ++ kb ++ ka ++ mk ++ fb ++ fa ++ acc)) 11 4 = fa := by
  rw [pay_field _ _ _ _ (by decide)]
  simp (discharger := decide) only [ext_high, ext_low, ext_self, Nat.reduceSub]

theorem fb_T (ck : Bool) (kb ka : BitVec 3) (mk : BitVec 6) (fb fa : BitVec 4) (acc : BitVec 3) :
    bits (wordP 1 (BitVec.ofBool ck ++ kb ++ ka ++ mk ++ fb ++ fa ++ acc)) 15 4 = fb := by
  rw [pay_field _ _ _ _ (by decide)]
  simp (discharger := decide) only [ext_high, ext_low, ext_self, Nat.reduceSub]

theorem mk_T (ck : Bool) (kb ka : BitVec 3) (mk : BitVec 6) (fb fa : BitVec 4) (acc : BitVec 3) :
    bits (wordP 1 (BitVec.ofBool ck ++ kb ++ ka ++ mk ++ fb ++ fa ++ acc)) 19 6 = mk := by
  rw [pay_field _ _ _ _ (by decide)]
  simp (discharger := decide) only [ext_high, ext_low, ext_self, Nat.reduceSub]

theorem ka_T (ck : Bool) (kb ka : BitVec 3) (mk : BitVec 6) (fb fa : BitVec 4) (acc : BitVec 3) :
    bits (wordP 1 (BitVec.ofBool ck ++ kb ++ ka ++ mk ++ fb ++ fa ++ acc)) 25 3 = ka := by
  rw [pay_field _ _ _ _ (by decide)]
  simp (discharger := decide) only [ext_high, ext_low, ext_self, Nat.reduceSub]

theorem kb_T (ck : Bool) (kb ka : BitVec 3) (mk : BitVec 6) (fb fa : BitVec 4) (acc : BitVec 3) :
    bits (wordP 1 (BitVec.ofBool ck ++ kb ++ ka ++ mk ++ fb ++ fa ++ acc)) 28 3 = kb := by
  rw [pay_field _ _ _ _ (by decide)]
  simp (discharger := decide) only [ext_high, ext_low, ext_self, Nat.reduceSub]

theorem ck_T (ck : Bool) (kb ka : BitVec 3) (mk : BitVec 6) (fb fa : BitVec 4) (acc : BitVec 3) :
    bit (wordP 1 (BitVec.ofBool ck ++ kb ++ ka ++ mk ++ fb ++ fa ++ acc)) 31 = ck := by
  rw [pay_bit _ _ _ (by decide)]
  simp (discharger := decide) only [get_high, get_low, get_ofBool, Nat.reduceSub]

theorem q_Q (n : BitVec 14) (cap : BitVec 6) (pol : BitVec 2) (tr : Bool) (q : BitVec 1) :
    bits (wordP 2 (n ++ cap ++ pol ++ BitVec.ofBool tr ++ q)) 8 1 = q := by
  rw [pay_field _ _ _ _ (by decide)]
  simp (discharger := decide) only [ext_high, ext_low, ext_self, Nat.reduceSub]

theorem pol_Q (n : BitVec 14) (cap : BitVec 6) (pol : BitVec 2) (tr : Bool) (q : BitVec 1) :
    bits (wordP 2 (n ++ cap ++ pol ++ BitVec.ofBool tr ++ q)) 10 2 = pol := by
  rw [pay_field _ _ _ _ (by decide)]
  simp (discharger := decide) only [ext_high, ext_low, ext_self, Nat.reduceSub]

theorem cap_Q (n : BitVec 14) (cap : BitVec 6) (pol : BitVec 2) (tr : Bool) (q : BitVec 1) :
    bits (wordP 2 (n ++ cap ++ pol ++ BitVec.ofBool tr ++ q)) 12 6 = cap := by
  rw [pay_field _ _ _ _ (by decide)]
  simp (discharger := decide) only [ext_high, ext_low, ext_self, Nat.reduceSub]

theorem n_Q (n : BitVec 14) (cap : BitVec 6) (pol : BitVec 2) (tr : Bool) (q : BitVec 1) :
    bits (wordP 2 (n ++ cap ++ pol ++ BitVec.ofBool tr ++ q)) 18 14 = n := by
  rw [pay_field _ _ _ _ (by decide)]
  simp (discharger := decide) only [ext_high, ext_low, ext_self, Nat.reduceSub]

theorem tr_Q (n : BitVec 14) (cap : BitVec 6) (pol : BitVec 2) (tr : Bool) (q : BitVec 1) :
    bit (wordP 2 (n ++ cap ++ pol ++ BitVec.ofBool tr ++ q)) 9 = tr := by
  rw [pay_bit _ _ _ (by decide)]
  simp (discharger := decide) only [get_high, get_low, get_ofBool, Nat.reduceSub]

end Sys2Proof.Laws
end

