-- ==== Sys2Proof/Laws/Links.lean ====
section
/-! SUPPORT. Flits: what the sender makes passes the receiver's checks (R23, R27). -/

namespace Sys2Proof.Machine

theorem padPayload_length (p : List Byte) : (padPayload p).length = 248 := by
  simp [padPayload]; omega

theorem makeFlit_good (seq : BitVec 32) (flow : BitVec 12) (kind : BitVec 4) (p : List Byte) (h : kind.toNat < 4) :
    badCheck (makeFlit seq flow kind p) = false := by
  have h4 : kind ≠ 4 := by rintro rfl; simp at h
  have h5 : ¬ 5 ≤ kind.toNat := by omega
  have hc : (makeFlit seq flow kind p).crc = flitCrc (makeFlit seq flow kind p) := rfl
  have hl : (makeFlit seq flow kind p).payload.length = 248 := padPayload_length p
  have hk : (makeFlit seq flow kind p).kind = kind := rfl
  simp only [badCheck, ← hc, hl, hk]
  simp [h5]
  exact fun e => absurd e h4

end Sys2Proof.Machine
end

