-- ==== Sys2Proof/Laws/Ops.lean ====
section
/-! SUPPORT. What each shared operation of the meanings answers, case by case: register waits, encoding and level checks,
stopped accesses, scalar loads, stores and atomics, commits to the vector queue, commands of the management core, traps. -/

namespace Sys2Proof.Machine

/-! ### Registers, checks, levels (R99, R229, R349) -/

theorem withRegs_free {rs : List Reg} {s : State} {k : State → Res} (h : rs.any (fun r => s.cur.pendingG r) = false) :
    withRegs rs s k = k s := by
  unfold withRegs
  rw [h]
  rfl

theorem withRegs_pending {rs : List Reg} {s : State} {k : State → Res} (h : rs.any (fun r => s.cur.pendingG r) = true) :
    withRegs rs s k = .next s.stall := by
  unfold withRegs
  rw [if_pos h]

theorem checked_ok {ok : Bool} {s : State} {k : State → Res} (h : ok = true) : checked ok s k = k s := by
  unfold checked
  rw [if_pos h]

theorem checked_bad {ok : Bool} {s : State} {k : State → Res} (h : ok = false) : checked ok s k = s.illegal := by
  unfold checked
  rw [h]
  rfl

theorem kernelOnly_kernel {s : State} {k : State → Res} (h : s.cur.level = .kernel) : kernelOnly s k = k s := by
  unfold kernelOnly
  rw [if_pos h]

theorem kernelOnly_user {s : State} {k : State → Res} (h : s.cur.level = .user) : kernelOnly s k = s.priv := by
  unfold kernelOnly
  rw [if_neg (by rw [h]; decide)]

theorem stopped_hold (s : State) : s.stopped .hold = .next s.stall := rfl

theorem stopped_trap {s : State} {c : BitVec 8} {a i : Nat} : s.stopped (.trap c a i) = s.trap c a i := rfl

/-! ### Scalar accesses (R184, R255 to R257, R268) -/

theorem scalarLoad_stopped {s : State} {va : Word} {n : Nat} {k : State → Nat → Res} {x : Stop}
    (h : checkBytes s s.cur .read none n va = .error x) : scalarLoad s va n k = s.stopped x := by
  unfold scalarLoad
  rw [h]

theorem scalarLoad_waits {s : State} {va : Word} {n : Nat} {k : State → Nat → Res} {ks : List Nat}
    (h : checkBytes s s.cur .read none n va = .ok ks) (hw : (s.cur.fenced 0 || s.cur.loadWaits va.toNat n) = true) :
    scalarLoad s va n k = .next s.stall := by
  unfold scalarLoad
  rw [h]
  exact if_pos hw

theorem afterPoison_clean {s : State} {va : Word} {ks : List Nat} {r : Res} (h : poisonStop s va ks = none) :
    afterPoison s va ks r = r := by
  unfold afterPoison
  rw [h]

theorem scalarKeys_ok {s : State} {t : Strand} {kind : AKind} {n : Nat} {va : Word} {ks : List Nat}
    (h : scalarKeys s t kind n va = .ok ks) (hk : kind ≠ .write) :
    checkBytes s t kind none n va = .ok ks ∧ poisonStop s va ks = none := by
  unfold scalarKeys at h
  split at h
  · simp at h
  · rw [if_neg hk] at h
    split at h
    · simp at h
    · rename_i hb _ hp
      injection h with h
      exact ⟨h ▸ hb, h ▸ hp⟩

theorem scalarLoad_goes {s : State} {va : Word} {n : Nat} {k : State → Nat → Res} {ks : List Nat}
    (h : scalarKeys s s.cur .read n va = .ok ks) (hw : (s.cur.fenced 0 || s.cur.loadWaits va.toNat n) = false) :
    scalarLoad s va n k = k ((s.touch .read va n).takeLines s.cur.coreNo false ks) (leNat (memReadList (s.cur.view s.mem) ks)) := by
  obtain ⟨hb, hp⟩ := scalarKeys_ok h (by decide)
  unfold scalarLoad
  rw [hb]
  dsimp only
  rw [if_neg (by rw [hw]; decide), afterPoison_clean hp]

theorem scalarStore_stopped {s : State} {va : Word} {n x : Nat} {k : State → Res} {e : Stop}
    (h : scalarKeys s s.cur .write n va = .error e) : scalarStore s va n x k = s.stopped e := by
  unfold scalarStore
  rw [h]

theorem scalarStore_waits {s : State} {va : Word} {n x : Nat} {k : State → Res} {ks : List Nat}
    (h : scalarKeys s s.cur .write n va = .ok ks)
    (hw : ((s.cur.fenced 1 && !ks.all offCore) || s.cur.storeWaits va.toNat n) = true) :
    scalarStore s va n x k = .next s.stall := by
  unfold scalarStore
  rw [h]
  exact if_pos hw

theorem scalarStore_goes {s : State} {va : Word} {n x : Nat} {k : State → Res} {ks : List Nat}
    (h : scalarKeys s s.cur .write n va = .ok ks)
    (hw : ((s.cur.fenced 1 && !ks.all offCore) || s.cur.storeWaits va.toNat n) = false) :
    scalarStore s va n x k = k ((s.touch .write va n).commitStore va.toNat ks n x) := by
  unfold scalarStore
  rw [h]
  exact if_neg (by rw [hw]; decide)

theorem scalarAtomic_misaligned {s : State} {va : Word} {n : Nat} {release : Bool} {f : Nat → Option Nat}
    {k : State → Nat → Res} (h : va.toNat % n ≠ 0) : scalarAtomic s va n release f k = s.trap cMISALIGN va.toNat 4 := by
  unfold scalarAtomic
  rw [if_pos h]

theorem scalarAtomic_waits {s : State} {va : Word} {n : Nat} {release : Bool} {f : Nat → Option Nat}
    {k : State → Nat → Res} {ks : List Nat} (ha : va.toNat % n = 0) (h : checkBytes s s.cur .atomic none n va = .ok ks)
    (hw : s.cur.atomicWaits va.toNat n ks release = true) : scalarAtomic s va n release f k = .next s.stall := by
  unfold scalarAtomic
  rw [if_neg (by simp [ha]), h]
  exact if_pos hw

/-! ### The vector queue (R98, R99, R129) -/

theorem post_goes {i : Instr} {op : VOp} {len : Nat} {s : State} (hl : op.legal s.cur = true)
    (hr : [op.ga, op.gb, op.gd].any (fun r => s.cur.pendingG r) = false) (hq : s.cur.queueFull i = false)
    (hc : commitStop s i = none) : post i op len s = .next ((s.modCur (fun t => t.post i op)).advance len) := by
  unfold post
  rw [checked_ok hl, withRegs_free hr, hq, hc]
  rfl

theorem post_illegal {i : Instr} {op : VOp} {len : Nat} {s : State} (h : op.legal s.cur = false) :
    post i op len s = s.illegal := checked_bad h

theorem post_full {i : Instr} {op : VOp} {len : Nat} {s : State} (hl : op.legal s.cur = true)
    (hr : [op.ga, op.gb, op.gd].any (fun r => s.cur.pendingG r) = false) (hq : s.cur.queueFull i = true) :
    post i op len s = .next s.stall := by
  unfold post
  rw [checked_ok hl, withRegs_free hr, if_pos hq]

/-! ### Commands of the management core (R52, R53) -/

theorem pscCmd_ready {r : CmdRec} {flags : Nat} {device ok : Bool} {s : State} {k : State → Res} (hm : s.mode = .ready)
    (h : ¬ (r.rsvd ≠ 0 ∨ flags < r.flags.toNat ∨ ok = false ∨ (device = true ∧ r.part ≠ 0)))
    (hp : (s.part? r.part.toNat).isSome = true) : pscCmd r flags device ok s k = k s := by
  unfold pscCmd
  rw [hm]
  dsimp only
  rw [if_neg h, if_neg (by rw [Option.isNone_iff_eq_none]; intro e; rw [e] at hp; exact absurd hp (by decide))]

theorem pscCmd_failed {r : CmdRec} {flags : Nat} {device ok : Bool} {s : State} {k : State → Res}
    (hm : s.mode = .failed ∨ s.mode = .tripped) : pscCmd r flags device ok s k = s.status r 12 := by
  unfold pscCmd
  rcases hm with h | h <;> rw [h]

/-! ### Traps (R199 to R201) -/

/-- Outside a handler: the issued micro-operations complete, the cause is chosen, the queue is frozen, the handler
entered. -/
theorem takeTrap_delivers {s : State} {i : TrapInfo} (h : (s.drainStrand s.cur.key).cur.inHandler = false)
    (hs : ((s.drainStrand s.cur.key).cur.viq != [] && (s.drainStrand s.cur.key).saveHeld (s.drainStrand s.cur.key).cur) = false) :
    s.takeTrap i = (((s.drainStrand s.cur.key).modCur
      (fun t => t.clearFault (chooseTrap (s.drainStrand s.cur.key).cur i))).freeze).enterHandler
        (chooseTrap (s.drainStrand s.cur.key).cur i) := by
  unfold State.takeTrap
  simp only [h, hs, Bool.false_eq_true, if_false]

/-- Inside a handler, with no transfer left, the strand ends. -/
theorem takeTrap_ends {s : State} {i : TrapInfo} (h : (s.drainStrand s.cur.key).cur.inHandler = true)
    (ht : (s.drainStrand s.cur.key).transfers (s.drainStrand s.cur.key).cur.key = false) :
    s.takeTrap i = (s.drainStrand s.cur.key).endStrand (s.drainStrand s.cur.key).cur.key
      (some (doubleRes2 (s.drainStrand s.cur.key).cur.trapNow (chooseTrap (s.drainStrand s.cur.key).cur i))) := by
  unfold State.takeTrap
  simp only [h, ht, if_true, Bool.false_eq_true, if_false]

theorem enterHandler_cur (s : State) (i : TrapInfo) :
    (s.enterHandler i).cur.pc = s.cur.ctl.trapvec ∧ (s.enterHandler i).cur.level = .kernel ∧
      (s.enterHandler i).cur.inHandler = true ∧ (s.enterHandler i).cur.ctl.tpc = s.cur.pc := ⟨rfl, rfl, rfl, rfl⟩

end Sys2Proof.Machine
end

