-- ==== Sys2Proof/Laws/PerInstr.lean ====
section
/-! SUPPORT. Decoding the encoding of a well-formed instruction gives it back, one lemma per constructor (R214 to
R229). -/

set_option linter.unusedSimpArgs false

namespace Sys2Proof.Laws.RoundTrip

/-- The decoder reads an instruction back from its own words. -/
def Statement (i : Instr) : Prop := i.wf = true → decodeParcels (encode i) = some i

/-- A step of the device has no words (R216). -/
theorem stepOfDevice {i : Instr} (h : i.wf = false) : Statement i := by
  intro h2
  rw [h] at h2
  cases h2

/-! ### Majors and operand kinds -/


theorem base_decodeAlu (F : Nat) (m : BitVec 3) (b a d : Reg) :
    decodeParcels (encR 1 F m b a d) = decodeAlu (wordR 1 F m b a d) := by
  rw [decode_encR, decodeBase, major_R]
  rfl

theorem base_decodeMdb (F : Nat) (m : BitVec 3) (b a d : Reg) :
    decodeParcels (encR 2 F m b a d) = decodeMdb (wordR 2 F m b a d) := by
  rw [decode_encR, decodeBase, major_R]
  rfl

theorem base_decodeJr (F : Nat) (m : BitVec 3) (b a d : Reg) :
    decodeParcels (encR 22 F m b a d) = decodeJr (wordR 22 F m b a d) := by
  rw [decode_encR, decodeBase, major_R]
  rfl

theorem base_decodeFps (F : Nat) (m : BitVec 3) (b a d : Reg) :
    decodeParcels (encR 23 F m b a d) = decodeFps (wordR 23 F m b a d) := by
  rw [decode_encR, decodeBase, major_R]
  rfl

theorem base_decodeFmas (F : Nat) (m : BitVec 3) (b a d : Reg) :
    decodeParcels (encR 24 F m b a d) = decodeFmas (wordR 24 F m b a d) := by
  rw [decode_encR, decodeBase, major_R]
  rfl

theorem base_decodeSys (F : Nat) (m : BitVec 3) (b a d : Reg) :
    decodeParcels (encR 26 F m b a d) = decodeSys (wordR 26 F m b a d) := by
  rw [decode_encR, decodeBase, major_R]
  rfl

theorem base_decodeFence (F : Nat) (m : BitVec 3) (b a d : Reg) :
    decodeParcels (encR 27 F m b a d) = decodeFence (wordR 27 F m b a d) := by
  rw [decode_encR, decodeBase, major_R]
  rfl

theorem base_decodePin (F : Nat) (m : BitVec 3) (b a d : Reg) :
    decodeParcels (encR 28 F m b a d) = decodePin (wordR 28 F m b a d) := by
  rw [decode_encR, decodeBase, major_R]
  rfl

theorem base_decodeEport (F : Nat) (m : BitVec 3) (b a d : Reg) :
    decodeParcels (encR 29 F m b a d) = decodeEport (wordR 29 F m b a d) := by
  rw [decode_encR, decodeBase, major_R]
  rfl

theorem base_decodeCastle (F : Nat) (m : BitVec 3) (b a d : Reg) :
    decodeParcels (encR 30 F m b a d) = decodeCastle (wordR 30 F m b a d) := by
  rw [decode_encR, decodeBase, major_R]
  rfl

theorem base_code (F : Nat) (c : BitVec 10) (d : Reg) :
    decodeParcels (encCode F c d) = decodeSys (wordC 0x1A F c d) := by
  rw [decode_encCode, decodeBase, major_C]
  rfl

theorem base_shi (k : BitVec 2) (s : BitVec 6) (a d : Reg) :
    decodeParcels (encI 0x07 (k ++ 0#6 ++ s) a d) = decodeShi (wordS 0x07 k s a d) := by
  have e : encI 0x07 (k ++ 0#6 ++ s) a d = splitWord (wordS 0x07 k s a d) := by
    unfold encI wordS
    congr 1
  rw [e, decode_encS, decodeBase, major_S]
  rfl

theorem base_amo (o : BitVec 2) (v : Bool) (f m : BitVec 3) (b a d : Reg) :
    decodeParcels (splitWord (o ++ BitVec.ofBool v ++ f ++ m ++ b ++ a ++ d ++ 0x19#6 ++ 0#2)) =
      decodeAmo (wordA 0x19 o v f m b a d) := by
  refine Eq.trans (decode_encA 0x19 o v f m b a d) ?_
  rw [decodeBase, major_A]
  rfl

/-- A compressed parcel (R224). -/
def parcelC (x : BitVec 8) (r : BitVec 3) (op q : Nat) : BitVec 16 :=
  x ++ r ++ BitVec.ofNat 3 op ++ BitVec.ofNat 2 q

/-- A compressed parcel with an 11-bit field (R224). -/
def parcelW (x : BitVec 11) (op q : Nat) : BitVec 16 := x ++ BitVec.ofNat 3 op ++ BitVec.ofNat 2 q

theorem q_C2 (x : BitVec 8) (r : BitVec 3) (op q : Nat) : BitVec.extractLsb' 0 2 (parcelC x r op q) = BitVec.ofNat 2 q := by
  show BitVec.extractLsb' (n := 8+3+3+2) 0 2 _ = _
  unfold parcelC
  simp (discharger := decide) only [ext_high, ext_low, ext_self, Nat.reduceSub]

theorem op_C2 (x : BitVec 8) (r : BitVec 3) (op q : Nat) : BitVec.extractLsb' 2 3 (parcelC x r op q) = BitVec.ofNat 3 op := by
  show BitVec.extractLsb' (n := 8+3+3+2) 2 3 _ = _
  unfold parcelC
  simp (discharger := decide) only [ext_high, ext_low, ext_self, Nat.reduceSub]

theorem r_C2 (x : BitVec 8) (r : BitVec 3) (op q : Nat) : BitVec.extractLsb' 5 3 (parcelC x r op q) = r := by
  show BitVec.extractLsb' (n := 8+3+3+2) 5 3 _ = _
  unfold parcelC
  simp (discharger := decide) only [ext_high, ext_low, ext_self, Nat.reduceSub]

theorem x_C2 (x : BitVec 8) (r : BitVec 3) (op q : Nat) : BitVec.extractLsb' 8 8 (parcelC x r op q) = x := by
  show BitVec.extractLsb' (n := 8+3+3+2) 8 8 _ = _
  unfold parcelC
  simp (discharger := decide) only [ext_high, ext_low, ext_self, Nat.reduceSub]

theorem lo_C2 (x : BitVec 8) (r : BitVec 3) (op q : Nat) : BitVec.extractLsb' 8 3 (parcelC x r op q) = BitVec.extractLsb' 0 3 x := by
  show BitVec.extractLsb' (n := 8+3+3+2) 8 3 _ = _
  unfold parcelC
  simp (discharger := decide) only [ext_high, ext_low, ext_self, Nat.reduceSub]

theorem hi_C2 (x : BitVec 8) (r : BitVec 3) (op q : Nat) : BitVec.extractLsb' 11 5 (parcelC x r op q) = BitVec.extractLsb' 3 5 x := by
  show BitVec.extractLsb' (n := 8+3+3+2) 11 5 _ = _
  unfold parcelC
  simp (discharger := decide) only [ext_high, ext_low, ext_self, Nat.reduceSub]

theorem q_W (x : BitVec 11) (op q : Nat) : BitVec.extractLsb' 0 2 (parcelW x op q) = BitVec.ofNat 2 q := by
  show BitVec.extractLsb' (n := 11+3+2) 0 2 _ = _
  unfold parcelW
  simp (discharger := decide) only [ext_high, ext_low, ext_self, Nat.reduceSub]

theorem op_W (x : BitVec 11) (op q : Nat) : BitVec.extractLsb' 2 3 (parcelW x op q) = BitVec.ofNat 3 op := by
  show BitVec.extractLsb' (n := 11+3+2) 2 3 _ = _
  unfold parcelW
  simp (discharger := decide) only [ext_high, ext_low, ext_self, Nat.reduceSub]

theorem x_W (x : BitVec 11) (op q : Nat) : BitVec.extractLsb' 5 11 (parcelW x op q) = x := by
  show BitVec.extractLsb' (n := 11+3+2) 5 11 _ = _
  unfold parcelW
  simp (discharger := decide) only [ext_high, ext_low, ext_self, Nat.reduceSub]

theorem half_low (a : BitVec 3) : BitVec.extractLsb' 0 3 (0#5 ++ a) = a := by
  revert a
  decide

theorem half_high (a : BitVec 3) : BitVec.extractLsb' 3 5 (0#5 ++ a) = 0#5 := by
  revert a
  decide

theorem decode_encC (x : BitVec 8) (r : BitVec 3) (op q : Nat) (h : BitVec.ofNat 2 q ≠ 0#2 ∧ BitVec.ofNat 2 q ≠ 3#2) :
    decodeParcels (encC x r op q) = decodeCompressed (parcelC x r op q) := by
  have h1 : parcelLength (parcelC x r op q) = 2 := by
    unfold parcelLength
    rw [q_C2]
    simp [h.1, h.2]
  show decodeParcels [parcelC x r op q] = _
  rw [decodeParcels, h1]
  rfl

theorem decode_encC11 (x : BitVec 11) (op q : Nat) (h : BitVec.ofNat 2 q ≠ 0#2 ∧ BitVec.ofNat 2 q ≠ 3#2) :
    decodeParcels (encC11 x op q) = decodeCompressed (parcelW x op q) := by
  have h1 : parcelLength (parcelW x op q) = 2 := by
    unfold parcelLength
    rw [q_W]
    simp [h.1, h.2]
  show decodeParcels [parcelW x op q] = _
  rw [decodeParcels, h1]
  rfl

theorem fits3 (x : VX) (n : BitVec 3) : x.fitsP (n.setWidth 6) = true := by
  unfold VX.fitsP
  have h := n.isLt
  simp only [Bool.or_eq_true, decide_eq_true_eq, BitVec.toNat_setWidth]
  exact Or.inr (by omega)

theorem seg_high : ∀ n : BitVec 3, BitVec.extractLsb' 3 3 (n.setWidth 6) = 0#3 := by decide

theorem seg_low : ∀ n : BitVec 3, (n.setWidth 6).setWidth 3 = n := by decide

theorem seg5_low : ∀ n : BitVec 3, BitVec.extractLsb' 0 3 (n.setWidth 5) = n := by decide

theorem seg5_high : ∀ n : BitVec 3, BitVec.extractLsb' 3 2 (n.setWidth 5) = 0#2 := by decide

theorem nf_M (M : Nat) (o : Bool) (w : BitVec 2) (k m : BitVec 3) (n : BitVec 3) (a d : Reg) :
    bits (wordM M o w k m (n.setWidth 5) a d) 18 3 = n := by
  have e : bits (wordM M o w k m (n.setWidth 5) a d) 18 3 =
      BitVec.extractLsb' 0 3 (fldB (wordM M o w k m (n.setWidth 5) a d)) := by
    unfold fldB bits
    rw [ext_ext _ _ _ _ _ (by decide)]
  rw [e, b_M, seg5_low]

theorem nfz_M (M : Nat) (o : Bool) (w : BitVec 2) (k m : BitVec 3) (n : BitVec 3) (a d : Reg) :
    bits (wordM M o w k m (n.setWidth 5) a d) 21 2 = 0#2 := by
  have e : bits (wordM M o w k m (n.setWidth 5) a d) 21 2 =
      BitVec.extractLsb' 3 2 (fldB (wordM M o w k m (n.setWidth 5) a d)) := by
    unfold fldB bits
    rw [ext_ext _ _ _ _ _ (by decide)]
  rw [e, b_M, seg5_high]

theorem ad_M (M : Nat) (o : Bool) (w : BitVec 2) (k m : BitVec 3) (b : Reg) :
    bits (wordM M o w k m b 0 0) 8 10 = 0#10 := by
  show BitVec.extractLsb' (n := 1 + 2 + 3 + 3 + 5 + 5 + 5 + 6 + 2) 8 10 _ = _
  unfold wordM
  simp (discharger := decide) only [ext_high, Nat.reduceSub]
  apply BitVec.eq_of_getLsbD_eq
  intro i hi
  simp only [BitVec.getLsbD_extractLsb', BitVec.getLsbD_append]
  split
  · simp
  · split
    · simp
    · omega

theorem seg_perm (p : Option Reg) :
    segPerm (match p with | none => 0 | some r => 1#1 ++ r) = some p := by
  cases p with
  | none => rfl
  | some r =>
    show segPerm (1#1 ++ r) = _
    revert r
    decide

theorem fits_zero (e : Bool) : ({ ext := e, m := 0 } : VX).fits = true := by
  cases e <;> rfl

theorem rrr (c : VX → Reg → Reg → Reg → Instr) (x : VX) (d a b : Reg) :
    vRRR c { x := x, d := r6 d, a := r6 a, b := r6 b } = some (c x d a b) := by
  simp only [vRRR, asReg_r6]

theorem rr (c : VX → Reg → Reg → Instr) (x : VX) (d a : Reg) :
    vRR c { x := x, d := r6 d, a := r6 a, b := 0#6 } = some (c x d a) := by
  simp only [vRR, asReg_r6]
  rfl

theorem r (c : VX → Reg → Instr) (x : VX) (d : Reg) :
    vR c { x := x, d := r6 d, a := 0#6, b := 0#6 } = some (c x d) := by
  simp only [vR, asReg_r6]
  rfl

theorem prr (c : VX → PReg → Reg → Reg → Instr) (x : VX) (d : PReg) (a b : Reg) :
    vPRR c { x := x, d := d, a := r6 a, b := r6 b } = some (c x d a b) := by
  simp only [vPRR, asReg_r6]

theorem pr (c : VX → PReg → Reg → Instr) (x : VX) (d : PReg) (a : Reg) :
    vPR c { x := x, d := d, a := r6 a, b := 0#6 } = some (c x d a) := by
  simp only [vPR, asReg_r6]
  rfl

theorem rp (c : VX → Reg → PReg → Instr) (x : VX) (d : Reg) (a : PReg) :
    vRP c { x := x, d := r6 d, a := a, b := 0#6 } = some (c x d a) := by
  simp only [vRP, asReg_r6]
  rfl

theorem noM (c : Bool → Reg → Reg → Reg → Instr) (e : Bool) (d a b : Reg) :
    vNoM c { x := { ext := e, m := 0 }, d := r6 d, a := r6 a, b := r6 b } = some (c e d a b) := by
  simp only [vNoM, rrr]
  rfl

theorem noM2 (c : Bool → Reg → Reg → Instr) (e : Bool) (d a : Reg) :
    vNoM2 c { x := { ext := e, m := 0 }, d := r6 d, a := r6 a, b := 0#6 } = some (c e d a) := by
  simp only [vNoM2, rr]
  rfl

/-! ### One lemma per constructor -/

theorem powerRestore : Statement .powerRestore :=
  stepOfDevice rfl

theorem startStepTimeout : Statement .startStepTimeout :=
  stepOfDevice rfl

theorem throttle (a0 : Bool) (a1 : BitVec 3) (a2 : BitVec 16) : Statement (.throttle a0 a1 a2) :=
  stepOfDevice rfl

theorem clockStepUp (a0 : Bool) : Statement (.clockStepUp a0) :=
  stepOfDevice rfl

theorem commandRecordRefused (a0 : Nat) (a1 : Nat) : Statement (.commandRecordRefused a0 a1) :=
  stepOfDevice rfl

theorem responsePortRead : Statement .responsePortRead :=
  stepOfDevice rfl

theorem completionNotice : Statement .completionNotice :=
  stepOfDevice rfl

theorem hostCxlMemRead (a0 : Bool) (a1 : BitVec 52) (a2 : Nat) : Statement (.hostCxlMemRead a0 a1 a2) :=
  stepOfDevice rfl

theorem hostCxlMemWrite (a0 : Bool) (a1 : BitVec 52) (a2 : List Byte) : Statement (.hostCxlMemWrite a0 a1 a2) :=
  stepOfDevice rfl

theorem identify (a0 : CmdRec) : Statement (.identify a0) :=
  stepOfDevice rfl

theorem attest (a0 : CmdRec) : Statement (.attest a0) :=
  stepOfDevice rfl

theorem loadImage (a0 : CmdRec) : Statement (.loadImage a0) :=
  stepOfDevice rfl

theorem startFarm (a0 : CmdRec) : Statement (.startFarm a0) :=
  stepOfDevice rfl

theorem startFarmDirect (a0 : CmdRec) : Statement (.startFarmDirect a0) :=
  stepOfDevice rfl

theorem startFarmResume (a0 : CmdRec) : Statement (.startFarmResume a0) :=
  stepOfDevice rfl

theorem stopFarm (a0 : CmdRec) : Statement (.stopFarm a0) :=
  stepOfDevice rfl

theorem preempt (a0 : CmdRec) : Statement (.preempt a0) :=
  stepOfDevice rfl

theorem queryFarm (a0 : CmdRec) : Statement (.queryFarm a0) :=
  stepOfDevice rfl

theorem partitionCreate (a0 : CmdRec) : Statement (.partitionCreate a0) :=
  stepOfDevice rfl

theorem partitionDestroy (a0 : CmdRec) : Statement (.partitionDestroy a0) :=
  stepOfDevice rfl

theorem setSlots (a0 : CmdRec) : Statement (.setSlots a0) :=
  stepOfDevice rfl

theorem setPageBase (a0 : CmdRec) : Statement (.setPageBase a0) :=
  stepOfDevice rfl

theorem pinRevoke (a0 : CmdRec) : Statement (.pinRevoke a0) :=
  stepOfDevice rfl

theorem castleStack (a0 : CmdRec) : Statement (.castleStack a0) :=
  stepOfDevice rfl

theorem readErrors (a0 : CmdRec) : Statement (.readErrors a0) :=
  stepOfDevice rfl

theorem scrubQuery (a0 : CmdRec) : Statement (.scrubQuery a0) :=
  stepOfDevice rfl

theorem scrubFullPass (a0 : CmdRec) : Statement (.scrubFullPass a0) :=
  stepOfDevice rfl

theorem scrubRange (a0 : CmdRec) : Statement (.scrubRange a0) :=
  stepOfDevice rfl

theorem linkConfig (a0 : CmdRec) : Statement (.linkConfig a0) :=
  stepOfDevice rfl

theorem dcdAccept (a0 : CmdRec) : Statement (.dcdAccept a0) :=
  stepOfDevice rfl

theorem dcdRelease (a0 : CmdRec) : Statement (.dcdRelease a0) :=
  stepOfDevice rfl

theorem dcdReleaseForced (a0 : CmdRec) : Statement (.dcdReleaseForced a0) :=
  stepOfDevice rfl

theorem extentReleaseComplete (a0 : Bool) (a1 : BitVec 52) : Statement (.extentReleaseComplete a0 a1) :=
  stepOfDevice rfl

theorem powerCap (a0 : CmdRec) : Statement (.powerCap a0) :=
  stepOfDevice rfl

theorem fwPatch (a0 : CmdRec) : Statement (.fwPatch a0) :=
  stepOfDevice rfl

theorem resetWarm (a0 : CmdRec) : Statement (.resetWarm a0) :=
  stepOfDevice rfl

theorem resetCold (a0 : CmdRec) : Statement (.resetCold a0) :=
  stepOfDevice rfl

theorem slotService (a0 : BitVec 3) (a1 : Reg) (a2 : BitVec 6) (a3 : BitVec 8) : Statement (.slotService a0 a1 a2 a3) :=
  stepOfDevice rfl

theorem scrubStarved (a0 : BitVec 3) (a1 : Reg) : Statement (.scrubStarved a0 a1) :=
  stepOfDevice rfl

theorem dataFlit (a0 : BitVec 6) (a1 : Flit) : Statement (.dataFlit a0 a1) :=
  stepOfDevice rfl

theorem acknowledgement (a0 : BitVec 6) (a1 : Flit) : Statement (.acknowledgement a0 a1) :=
  stepOfDevice rfl

theorem nak (a0 : BitVec 6) (a1 : Flit) : Statement (.nak a0 a1) :=
  stepOfDevice rfl

theorem barrierMessage (a0 : BitVec 6) (a1 : Flit) : Statement (.barrierMessage a0 a1) :=
  stepOfDevice rfl

theorem collectiveData (a0 : BitVec 6) (a1 : Flit) : Statement (.collectiveData a0 a1) :=
  stepOfDevice rfl

theorem commandAnnouncement (a0 : BitVec 6) (a1 : Flit) : Statement (.commandAnnouncement a0 a1) :=
  stepOfDevice rfl

theorem completionStatus (a0 : BitVec 6) (a1 : Flit) : Statement (.completionStatus a0 a1) :=
  stepOfDevice rfl

theorem barrierCommandArrival (a0 : BitVec 6) (a1 : Flit) : Statement (.barrierCommandArrival a0 a1) :=
  stepOfDevice rfl

theorem replayTimeout (a0 : Nat) : Statement (.replayTimeout a0) :=
  stepOfDevice rfl

theorem lossOfLock (a0 : BitVec 6) : Statement (.lossOfLock a0) :=
  stepOfDevice rfl

theorem retrainComplete (a0 : BitVec 6) : Statement (.retrainComplete a0) :=
  stepOfDevice rfl

theorem retrainFail (a0 : BitVec 6) : Statement (.retrainFail a0) :=
  stepOfDevice rfl

theorem barrierArrival (a0 : Bool) (a1 : BitVec 12) : Statement (.barrierArrival a0 a1) :=
  stepOfDevice rfl

theorem priorityAging (a0 : Nat) : Statement (.priorityAging a0) :=
  stepOfDevice rfl

theorem quotaPeriod (a0 : Bool) : Statement (.quotaPeriod a0) :=
  stepOfDevice rfl

theorem haltRequest (a0 : BitVec 8) : Statement (.haltRequest a0) :=
  stepOfDevice rfl

theorem strandHalt (a0 : Nat) : Statement (.strandHalt a0) :=
  stepOfDevice rfl

theorem strandSave (a0 : BitVec 8) : Statement (.strandSave a0) :=
  stepOfDevice rfl

theorem takeTrap (a0 : Nat) : Statement (.takeTrap a0) :=
  stepOfDevice rfl

theorem microOperationIssue (a0 : Nat) (a1 : BitVec 32) (a2 : Nat) : Statement (.microOperationIssue a0 a1 a2) :=
  stepOfDevice rfl

theorem elementGroupComplete (a0 : Nat) (a1 : BitVec 32) (a2 : Nat) : Statement (.elementGroupComplete a0 a1 a2) :=
  stepOfDevice rfl

theorem bteCommandTake (a0 : Nat) : Statement (.bteCommandTake a0) :=
  stepOfDevice rfl

theorem bteBeat (a0 : Nat) : Statement (.bteBeat a0) :=
  stepOfDevice rfl

theorem collectiveCommandTake (a0 : Nat) : Statement (.collectiveCommandTake a0) :=
  stepOfDevice rfl

theorem handOver (a0 : BitVec 3) : Statement (.handOver a0) :=
  stepOfDevice rfl

theorem waitTimeout (a0 : Nat) : Statement (.waitTimeout a0) :=
  stepOfDevice rfl

theorem yieldExpiry (a0 : Nat) : Statement (.yieldExpiry a0) :=
  stepOfDevice rfl

theorem errinjFlipVectorBit (a0 : Reg) (a1 : BitVec 12) (a2 : BitVec 6) : Statement (.errinjFlipVectorBit a0 a1 a2) :=
  stepOfDevice rfl

theorem errinjFlipTileBit (a0 : Reg) (a1 : BitVec 12) (a2 : BitVec 6) : Statement (.errinjFlipTileBit a0 a1 a2) :=
  stepOfDevice rfl

theorem errinjMarkRow (a0 : Reg) (a1 : BitVec 12) : Statement (.errinjMarkRow a0 a1) :=
  stepOfDevice rfl

theorem maxlg (a0 : Word) : Statement (.maxlg a0) :=
  stepOfDevice rfl

theorem add (d : Reg) (a : Reg) (b : Reg) : Statement (.add d a b) := by
  intro _
  refine Eq.trans (base_decodeAlu _ _ _ _ _) ?_
  simp only [decodeAlu, d_R, a_R, b_R, m_R, fn_R]
  rfl

theorem sub (d : Reg) (a : Reg) (b : Reg) : Statement (.sub d a b) := by
  intro _
  refine Eq.trans (base_decodeAlu _ _ _ _ _) ?_
  simp only [decodeAlu, d_R, a_R, b_R, m_R, fn_R]
  rfl

theorem and (d : Reg) (a : Reg) (b : Reg) : Statement (.and d a b) := by
  intro _
  refine Eq.trans (base_decodeAlu _ _ _ _ _) ?_
  simp only [decodeAlu, d_R, a_R, b_R, m_R, fn_R]
  rfl

theorem or (d : Reg) (a : Reg) (b : Reg) : Statement (.or d a b) := by
  intro _
  refine Eq.trans (base_decodeAlu _ _ _ _ _) ?_
  simp only [decodeAlu, d_R, a_R, b_R, m_R, fn_R]
  rfl

theorem xor (d : Reg) (a : Reg) (b : Reg) : Statement (.xor d a b) := by
  intro _
  refine Eq.trans (base_decodeAlu _ _ _ _ _) ?_
  simp only [decodeAlu, d_R, a_R, b_R, m_R, fn_R]
  rfl

theorem andn (d : Reg) (a : Reg) (b : Reg) : Statement (.andn d a b) := by
  intro _
  refine Eq.trans (base_decodeAlu _ _ _ _ _) ?_
  simp only [decodeAlu, d_R, a_R, b_R, m_R, fn_R]
  rfl

theorem sll (d : Reg) (a : Reg) (b : Reg) : Statement (.sll d a b) := by
  intro _
  refine Eq.trans (base_decodeAlu _ _ _ _ _) ?_
  simp only [decodeAlu, d_R, a_R, b_R, m_R, fn_R]
  rfl

theorem srl (d : Reg) (a : Reg) (b : Reg) : Statement (.srl d a b) := by
  intro _
  refine Eq.trans (base_decodeAlu _ _ _ _ _) ?_
  simp only [decodeAlu, d_R, a_R, b_R, m_R, fn_R]
  rfl

theorem sra (d : Reg) (a : Reg) (b : Reg) : Statement (.sra d a b) := by
  intro _
  refine Eq.trans (base_decodeAlu _ _ _ _ _) ?_
  simp only [decodeAlu, d_R, a_R, b_R, m_R, fn_R]
  rfl

theorem rol (d : Reg) (a : Reg) (b : Reg) : Statement (.rol d a b) := by
  intro _
  refine Eq.trans (base_decodeAlu _ _ _ _ _) ?_
  simp only [decodeAlu, d_R, a_R, b_R, m_R, fn_R]
  rfl

theorem ror (d : Reg) (a : Reg) (b : Reg) : Statement (.ror d a b) := by
  intro _
  refine Eq.trans (base_decodeAlu _ _ _ _ _) ?_
  simp only [decodeAlu, d_R, a_R, b_R, m_R, fn_R]
  rfl

theorem slt (d : Reg) (a : Reg) (b : Reg) : Statement (.slt d a b) := by
  intro _
  refine Eq.trans (base_decodeAlu _ _ _ _ _) ?_
  simp only [decodeAlu, d_R, a_R, b_R, m_R, fn_R]
  rfl

theorem sltu (d : Reg) (a : Reg) (b : Reg) : Statement (.sltu d a b) := by
  intro _
  refine Eq.trans (base_decodeAlu _ _ _ _ _) ?_
  simp only [decodeAlu, d_R, a_R, b_R, m_R, fn_R]
  rfl

theorem min (d : Reg) (a : Reg) (b : Reg) : Statement (.min d a b) := by
  intro _
  refine Eq.trans (base_decodeAlu _ _ _ _ _) ?_
  simp only [decodeAlu, d_R, a_R, b_R, m_R, fn_R]
  rfl

theorem max (d : Reg) (a : Reg) (b : Reg) : Statement (.max d a b) := by
  intro _
  refine Eq.trans (base_decodeAlu _ _ _ _ _) ?_
  simp only [decodeAlu, d_R, a_R, b_R, m_R, fn_R]
  rfl

theorem minu (d : Reg) (a : Reg) (b : Reg) : Statement (.minu d a b) := by
  intro _
  refine Eq.trans (base_decodeAlu _ _ _ _ _) ?_
  simp only [decodeAlu, d_R, a_R, b_R, m_R, fn_R]
  rfl

theorem maxu (d : Reg) (a : Reg) (b : Reg) : Statement (.maxu d a b) := by
  intro _
  refine Eq.trans (base_decodeAlu _ _ _ _ _) ?_
  simp only [decodeAlu, d_R, a_R, b_R, m_R, fn_R]
  rfl

theorem addw (d : Reg) (a : Reg) (b : Reg) : Statement (.addw d a b) := by
  intro _
  refine Eq.trans (base_decodeAlu _ _ _ _ _) ?_
  simp only [decodeAlu, d_R, a_R, b_R, m_R, fn_R]
  rfl

theorem subw (d : Reg) (a : Reg) (b : Reg) : Statement (.subw d a b) := by
  intro _
  refine Eq.trans (base_decodeAlu _ _ _ _ _) ?_
  simp only [decodeAlu, d_R, a_R, b_R, m_R, fn_R]
  rfl

theorem mul (d : Reg) (a : Reg) (b : Reg) : Statement (.mul d a b) := by
  intro _
  refine Eq.trans (base_decodeMdb _ _ _ _ _) ?_
  simp only [decodeMdb, d_R, a_R, b_R, m_R, fn_R]
  rfl

theorem mulh (d : Reg) (a : Reg) (b : Reg) : Statement (.mulh d a b) := by
  intro _
  refine Eq.trans (base_decodeMdb _ _ _ _ _) ?_
  simp only [decodeMdb, d_R, a_R, b_R, m_R, fn_R]
  rfl

theorem mulhu (d : Reg) (a : Reg) (b : Reg) : Statement (.mulhu d a b) := by
  intro _
  refine Eq.trans (base_decodeMdb _ _ _ _ _) ?_
  simp only [decodeMdb, d_R, a_R, b_R, m_R, fn_R]
  rfl

theorem mulhsu (d : Reg) (a : Reg) (b : Reg) : Statement (.mulhsu d a b) := by
  intro _
  refine Eq.trans (base_decodeMdb _ _ _ _ _) ?_
  simp only [decodeMdb, d_R, a_R, b_R, m_R, fn_R]
  rfl

theorem div (d : Reg) (a : Reg) (b : Reg) : Statement (.div d a b) := by
  intro _
  refine Eq.trans (base_decodeMdb _ _ _ _ _) ?_
  simp only [decodeMdb, d_R, a_R, b_R, m_R, fn_R]
  rfl

theorem divu (d : Reg) (a : Reg) (b : Reg) : Statement (.divu d a b) := by
  intro _
  refine Eq.trans (base_decodeMdb _ _ _ _ _) ?_
  simp only [decodeMdb, d_R, a_R, b_R, m_R, fn_R]
  rfl

theorem rem (d : Reg) (a : Reg) (b : Reg) : Statement (.rem d a b) := by
  intro _
  refine Eq.trans (base_decodeMdb _ _ _ _ _) ?_
  simp only [decodeMdb, d_R, a_R, b_R, m_R, fn_R]
  rfl

theorem remu (d : Reg) (a : Reg) (b : Reg) : Statement (.remu d a b) := by
  intro _
  refine Eq.trans (base_decodeMdb _ _ _ _ _) ?_
  simp only [decodeMdb, d_R, a_R, b_R, m_R, fn_R]
  rfl

theorem clz (d : Reg) (a : Reg) : Statement (.clz d a) := by
  intro _
  refine Eq.trans (base_decodeMdb _ _ _ _ _) ?_
  simp only [decodeMdb, d_R, a_R, b_R, m_R, fn_R]
  rfl

theorem ctz (d : Reg) (a : Reg) : Statement (.ctz d a) := by
  intro _
  refine Eq.trans (base_decodeMdb _ _ _ _ _) ?_
  simp only [decodeMdb, d_R, a_R, b_R, m_R, fn_R]
  rfl

theorem popc (d : Reg) (a : Reg) : Statement (.popc d a) := by
  intro _
  refine Eq.trans (base_decodeMdb _ _ _ _ _) ?_
  simp only [decodeMdb, d_R, a_R, b_R, m_R, fn_R]
  rfl

theorem sextb (d : Reg) (a : Reg) : Statement (.sextb d a) := by
  intro _
  refine Eq.trans (base_decodeMdb _ _ _ _ _) ?_
  simp only [decodeMdb, d_R, a_R, b_R, m_R, fn_R]
  rfl

theorem sexth (d : Reg) (a : Reg) : Statement (.sexth d a) := by
  intro _
  refine Eq.trans (base_decodeMdb _ _ _ _ _) ?_
  simp only [decodeMdb, d_R, a_R, b_R, m_R, fn_R]
  rfl

theorem sextw (d : Reg) (a : Reg) : Statement (.sextw d a) := by
  intro _
  refine Eq.trans (base_decodeMdb _ _ _ _ _) ?_
  simp only [decodeMdb, d_R, a_R, b_R, m_R, fn_R]
  rfl

theorem zexth (d : Reg) (a : Reg) : Statement (.zexth d a) := by
  intro _
  refine Eq.trans (base_decodeMdb _ _ _ _ _) ?_
  simp only [decodeMdb, d_R, a_R, b_R, m_R, fn_R]
  rfl

theorem zextw (d : Reg) (a : Reg) : Statement (.zextw d a) := by
  intro _
  refine Eq.trans (base_decodeMdb _ _ _ _ _) ?_
  simp only [decodeMdb, d_R, a_R, b_R, m_R, fn_R]
  rfl

theorem addi (d : Reg) (a : Reg) (imm : BitVec 14) : Statement (.addi d a imm) := by
  intro _
  refine Eq.trans (decode_encI _ _ _ _) ?_
  rw [decodeBase, major_I]
  exact congrArg some (by simp only [d_I, a_I, imm_I])

theorem andi (d : Reg) (a : Reg) (imm : BitVec 14) : Statement (.andi d a imm) := by
  intro _
  refine Eq.trans (decode_encI _ _ _ _) ?_
  rw [decodeBase, major_I]
  exact congrArg some (by simp only [d_I, a_I, imm_I])

theorem ori (d : Reg) (a : Reg) (imm : BitVec 14) : Statement (.ori d a imm) := by
  intro _
  refine Eq.trans (decode_encI _ _ _ _) ?_
  rw [decodeBase, major_I]
  exact congrArg some (by simp only [d_I, a_I, imm_I])

theorem xori (d : Reg) (a : Reg) (imm : BitVec 14) : Statement (.xori d a imm) := by
  intro _
  refine Eq.trans (decode_encI _ _ _ _) ?_
  rw [decodeBase, major_I]
  exact congrArg some (by simp only [d_I, a_I, imm_I])

theorem slti (d : Reg) (a : Reg) (imm : BitVec 14) : Statement (.slti d a imm) := by
  intro _
  refine Eq.trans (decode_encI _ _ _ _) ?_
  rw [decodeBase, major_I]
  exact congrArg some (by simp only [d_I, a_I, imm_I])

theorem sltiu (d : Reg) (a : Reg) (imm : BitVec 14) : Statement (.sltiu d a imm) := by
  intro _
  refine Eq.trans (decode_encI _ _ _ _) ?_
  rw [decodeBase, major_I]
  exact congrArg some (by simp only [d_I, a_I, imm_I])

theorem addiImm (d : Reg) (a : Reg) (imm : BitVec 38) : Statement (.addiImm d a imm) := by
  intro _
  refine Eq.trans (decode_encImmI _ _ _ _) ?_
  rw [decodeImm, major_I, pay_P]
  exact congrArg some (by simp only [d_I, a_I, imm_I, join_38])

theorem andiImm (d : Reg) (a : Reg) (imm : BitVec 38) : Statement (.andiImm d a imm) := by
  intro _
  refine Eq.trans (decode_encImmI _ _ _ _) ?_
  rw [decodeImm, major_I, pay_P]
  exact congrArg some (by simp only [d_I, a_I, imm_I, join_38])

theorem oriImm (d : Reg) (a : Reg) (imm : BitVec 38) : Statement (.oriImm d a imm) := by
  intro _
  refine Eq.trans (decode_encImmI _ _ _ _) ?_
  rw [decodeImm, major_I, pay_P]
  exact congrArg some (by simp only [d_I, a_I, imm_I, join_38])

theorem xoriImm (d : Reg) (a : Reg) (imm : BitVec 38) : Statement (.xoriImm d a imm) := by
  intro _
  refine Eq.trans (decode_encImmI _ _ _ _) ?_
  rw [decodeImm, major_I, pay_P]
  exact congrArg some (by simp only [d_I, a_I, imm_I, join_38])

theorem sltiImm (d : Reg) (a : Reg) (imm : BitVec 38) : Statement (.sltiImm d a imm) := by
  intro _
  refine Eq.trans (decode_encImmI _ _ _ _) ?_
  rw [decodeImm, major_I, pay_P]
  exact congrArg some (by simp only [d_I, a_I, imm_I, join_38])

theorem sltiuImm (d : Reg) (a : Reg) (imm : BitVec 38) : Statement (.sltiuImm d a imm) := by
  intro _
  refine Eq.trans (decode_encImmI _ _ _ _) ?_
  rw [decodeImm, major_I, pay_P]
  exact congrArg some (by simp only [d_I, a_I, imm_I, join_38])

theorem slli (d : Reg) (a : Reg) (sh : BitVec 6) : Statement (.slli d a sh) := by
  intro _
  refine Eq.trans (base_shi _ _ _ _) ?_
  simp only [decodeShi, d_S, a_S, sh_S, zero_S, kind_S]
  rfl

theorem srli (d : Reg) (a : Reg) (sh : BitVec 6) : Statement (.srli d a sh) := by
  intro _
  refine Eq.trans (base_shi _ _ _ _) ?_
  simp only [decodeShi, d_S, a_S, sh_S, zero_S, kind_S]
  rfl

theorem srai (d : Reg) (a : Reg) (sh : BitVec 6) : Statement (.srai d a sh) := by
  intro _
  refine Eq.trans (base_shi _ _ _ _) ?_
  simp only [decodeShi, d_S, a_S, sh_S, zero_S, kind_S]
  rfl

theorem roli (d : Reg) (a : Reg) (sh : BitVec 6) : Statement (.roli d a sh) := by
  intro _
  refine Eq.trans (base_shi _ _ _ _) ?_
  simp only [decodeShi, d_S, a_S, sh_S, zero_S, kind_S]
  rfl

theorem luim (d : Reg) (imm : BitVec 19) : Statement (.luim d imm) := by
  intro _
  refine Eq.trans (decode_encU _ _ _) ?_
  rw [decodeBase, major_U]
  exact congrArg some (by simp only [d_U, imm_U])

theorem apc (d : Reg) (imm : BitVec 19) : Statement (.apc d imm) := by
  intro _
  refine Eq.trans (decode_encU _ _ _) ?_
  rw [decodeBase, major_U]
  exact congrArg some (by simp only [d_U, imm_U])

theorem ld (d : Reg) (a : Reg) (w : BitVec 2) (u : Bool) (imm : BitVec 11) : Statement (.ld d a w u imm) := by
  intro _
  refine Eq.trans (decode_encLS _ _ _ _ _ _) ?_
  rw [decodeBase, major_L]
  exact congrArg some (by simp only [d_L, a_L, w_L, u_L, imm_L])

theorem st (s : Reg) (a : Reg) (w : BitVec 2) (imm : BitVec 11) : Statement (.st s a w imm) := by
  intro _
  refine Eq.trans (decode_encLS _ _ _ _ _ _) ?_
  rw [decodeBase, major_L, d_L, a_L, w_L, u_L, imm_L]
  rfl

theorem ldImm (d : Reg) (a : Reg) (w : BitVec 2) (u : Bool) (imm : BitVec 35) : Statement (.ldImm d a w u imm) := by
  intro _
  refine Eq.trans (decode_encImmLS _ _ _ _ _ _) ?_
  rw [decodeImm, major_L, pay_P]
  exact congrArg some (by simp only [d_L, a_L, w_L, u_L, imm_L, join_35])

theorem stImm (s : Reg) (a : Reg) (w : BitVec 2) (imm : BitVec 35) : Statement (.stImm s a w imm) := by
  intro _
  refine Eq.trans (decode_encImmLS _ _ _ _ _ _) ?_
  simp only [decodeImm, major_L, pay_P, d_L, a_L, w_L, u_L, imm_L, join_35]
  rfl

theorem beq (a : Reg) (b : Reg) (off : BitVec 14) : Statement (.beq a b off) := by
  intro _
  refine Eq.trans (decode_encI _ _ _ _) ?_
  rw [decodeBase, major_I]
  exact congrArg some (by simp only [d_I, a_I, imm_I])

theorem bne (a : Reg) (b : Reg) (off : BitVec 14) : Statement (.bne a b off) := by
  intro _
  refine Eq.trans (decode_encI _ _ _ _) ?_
  rw [decodeBase, major_I]
  exact congrArg some (by simp only [d_I, a_I, imm_I])

theorem blt (a : Reg) (b : Reg) (off : BitVec 14) : Statement (.blt a b off) := by
  intro _
  refine Eq.trans (decode_encI _ _ _ _) ?_
  rw [decodeBase, major_I]
  exact congrArg some (by simp only [d_I, a_I, imm_I])

theorem bge (a : Reg) (b : Reg) (off : BitVec 14) : Statement (.bge a b off) := by
  intro _
  refine Eq.trans (decode_encI _ _ _ _) ?_
  rw [decodeBase, major_I]
  exact congrArg some (by simp only [d_I, a_I, imm_I])

theorem bltu (a : Reg) (b : Reg) (off : BitVec 14) : Statement (.bltu a b off) := by
  intro _
  refine Eq.trans (decode_encI _ _ _ _) ?_
  rw [decodeBase, major_I]
  exact congrArg some (by simp only [d_I, a_I, imm_I])

theorem bgeu (a : Reg) (b : Reg) (off : BitVec 14) : Statement (.bgeu a b off) := by
  intro _
  refine Eq.trans (decode_encI _ _ _ _) ?_
  rw [decodeBase, major_I]
  exact congrArg some (by simp only [d_I, a_I, imm_I])

theorem j (off : BitVec 24) : Statement (.j off) := by
  intro _
  refine Eq.trans (decode_encJ _ _) ?_
  rw [decodeBase, major_J]
  exact congrArg some (by simp only [imm_J])

theorem jl (off : BitVec 24) : Statement (.jl off) := by
  intro _
  refine Eq.trans (decode_encJ _ _) ?_
  rw [decodeBase, major_J]
  exact congrArg some (by simp only [imm_J])

theorem jr (a : Reg) : Statement (.jr a) := by
  intro _
  refine Eq.trans (base_decodeJr _ _ _ _ _) ?_
  simp only [decodeJr, d_R, a_R, b_R, m_R, fn_R]
  rfl

theorem jlr (d : Reg) (a : Reg) : Statement (.jlr d a) := by
  intro _
  refine Eq.trans (base_decodeJr _ _ _ _ _) ?_
  simp only [decodeJr, d_R, a_R, b_R, m_R, fn_R]
  rfl

theorem faddS (d : Reg) (a : Reg) (b : Reg) (rm : BitVec 3) : Statement (.faddS d a b rm) := by
  intro _
  refine Eq.trans (base_decodeFps _ _ _ _ _) ?_
  simp only [decodeFps, d_R, a_R, b_R, m_R, fn_R]
  rfl

theorem fsubS (d : Reg) (a : Reg) (b : Reg) (rm : BitVec 3) : Statement (.fsubS d a b rm) := by
  intro _
  refine Eq.trans (base_decodeFps _ _ _ _ _) ?_
  simp only [decodeFps, d_R, a_R, b_R, m_R, fn_R]
  rfl

theorem fmulS (d : Reg) (a : Reg) (b : Reg) (rm : BitVec 3) : Statement (.fmulS d a b rm) := by
  intro _
  refine Eq.trans (base_decodeFps _ _ _ _ _) ?_
  simp only [decodeFps, d_R, a_R, b_R, m_R, fn_R]
  rfl

theorem fdivS (d : Reg) (a : Reg) (b : Reg) (rm : BitVec 3) : Statement (.fdivS d a b rm) := by
  intro _
  refine Eq.trans (base_decodeFps _ _ _ _ _) ?_
  simp only [decodeFps, d_R, a_R, b_R, m_R, fn_R]
  rfl

theorem fsqrtS (d : Reg) (a : Reg) (rm : BitVec 3) : Statement (.fsqrtS d a rm) := by
  intro _
  refine Eq.trans (base_decodeFps _ _ _ _ _) ?_
  simp only [decodeFps, d_R, a_R, b_R, m_R, fn_R]
  rfl

theorem fminS (d : Reg) (a : Reg) (b : Reg) : Statement (.fminS d a b) := by
  intro _
  refine Eq.trans (base_decodeFps _ _ _ _ _) ?_
  simp only [decodeFps, d_R, a_R, b_R, m_R, fn_R]
  rfl

theorem fmaxS (d : Reg) (a : Reg) (b : Reg) : Statement (.fmaxS d a b) := by
  intro _
  refine Eq.trans (base_decodeFps _ _ _ _ _) ?_
  simp only [decodeFps, d_R, a_R, b_R, m_R, fn_R]
  rfl

theorem feqS (d : Reg) (a : Reg) (b : Reg) : Statement (.feqS d a b) := by
  intro _
  refine Eq.trans (base_decodeFps _ _ _ _ _) ?_
  simp only [decodeFps, d_R, a_R, b_R, m_R, fn_R]
  rfl

theorem fltS (d : Reg) (a : Reg) (b : Reg) : Statement (.fltS d a b) := by
  intro _
  refine Eq.trans (base_decodeFps _ _ _ _ _) ?_
  simp only [decodeFps, d_R, a_R, b_R, m_R, fn_R]
  rfl

theorem fleS (d : Reg) (a : Reg) (b : Reg) : Statement (.fleS d a b) := by
  intro _
  refine Eq.trans (base_decodeFps _ _ _ _ _) ?_
  simp only [decodeFps, d_R, a_R, b_R, m_R, fn_R]
  rfl

theorem fcvtSL (d : Reg) (a : Reg) (rm : BitVec 3) : Statement (.fcvtSL d a rm) := by
  intro _
  refine Eq.trans (base_decodeFps _ _ _ _ _) ?_
  simp only [decodeFps, d_R, a_R, b_R, m_R, fn_R]
  rfl

theorem fcvtLS (d : Reg) (a : Reg) (rm : BitVec 3) : Statement (.fcvtLS d a rm) := by
  intro _
  refine Eq.trans (base_decodeFps _ _ _ _ _) ?_
  simp only [decodeFps, d_R, a_R, b_R, m_R, fn_R]
  rfl

theorem fclassS (d : Reg) (a : Reg) : Statement (.fclassS d a) := by
  intro _
  refine Eq.trans (base_decodeFps _ _ _ _ _) ?_
  simp only [decodeFps, d_R, a_R, b_R, m_R, fn_R]
  rfl

theorem faddD (d : Reg) (a : Reg) (b : Reg) (rm : BitVec 3) : Statement (.faddD d a b rm) := by
  intro _
  refine Eq.trans (base_decodeFps _ _ _ _ _) ?_
  simp only [decodeFps, d_R, a_R, b_R, m_R, fn_R]
  rfl

theorem fsubD (d : Reg) (a : Reg) (b : Reg) (rm : BitVec 3) : Statement (.fsubD d a b rm) := by
  intro _
  refine Eq.trans (base_decodeFps _ _ _ _ _) ?_
  simp only [decodeFps, d_R, a_R, b_R, m_R, fn_R]
  rfl

theorem fmulD (d : Reg) (a : Reg) (b : Reg) (rm : BitVec 3) : Statement (.fmulD d a b rm) := by
  intro _
  refine Eq.trans (base_decodeFps _ _ _ _ _) ?_
  simp only [decodeFps, d_R, a_R, b_R, m_R, fn_R]
  rfl

theorem fdivD (d : Reg) (a : Reg) (b : Reg) (rm : BitVec 3) : Statement (.fdivD d a b rm) := by
  intro _
  refine Eq.trans (base_decodeFps _ _ _ _ _) ?_
  simp only [decodeFps, d_R, a_R, b_R, m_R, fn_R]
  rfl

theorem fsqrtD (d : Reg) (a : Reg) (rm : BitVec 3) : Statement (.fsqrtD d a rm) := by
  intro _
  refine Eq.trans (base_decodeFps _ _ _ _ _) ?_
  simp only [decodeFps, d_R, a_R, b_R, m_R, fn_R]
  rfl

theorem fminD (d : Reg) (a : Reg) (b : Reg) : Statement (.fminD d a b) := by
  intro _
  refine Eq.trans (base_decodeFps _ _ _ _ _) ?_
  simp only [decodeFps, d_R, a_R, b_R, m_R, fn_R]
  rfl

theorem fmaxD (d : Reg) (a : Reg) (b : Reg) : Statement (.fmaxD d a b) := by
  intro _
  refine Eq.trans (base_decodeFps _ _ _ _ _) ?_
  simp only [decodeFps, d_R, a_R, b_R, m_R, fn_R]
  rfl

theorem feqD (d : Reg) (a : Reg) (b : Reg) : Statement (.feqD d a b) := by
  intro _
  refine Eq.trans (base_decodeFps _ _ _ _ _) ?_
  simp only [decodeFps, d_R, a_R, b_R, m_R, fn_R]
  rfl

theorem fltD (d : Reg) (a : Reg) (b : Reg) : Statement (.fltD d a b) := by
  intro _
  refine Eq.trans (base_decodeFps _ _ _ _ _) ?_
  simp only [decodeFps, d_R, a_R, b_R, m_R, fn_R]
  rfl

theorem fleD (d : Reg) (a : Reg) (b : Reg) : Statement (.fleD d a b) := by
  intro _
  refine Eq.trans (base_decodeFps _ _ _ _ _) ?_
  simp only [decodeFps, d_R, a_R, b_R, m_R, fn_R]
  rfl

theorem fcvtDL (d : Reg) (a : Reg) (rm : BitVec 3) : Statement (.fcvtDL d a rm) := by
  intro _
  refine Eq.trans (base_decodeFps _ _ _ _ _) ?_
  simp only [decodeFps, d_R, a_R, b_R, m_R, fn_R]
  rfl

theorem fcvtLD (d : Reg) (a : Reg) (rm : BitVec 3) : Statement (.fcvtLD d a rm) := by
  intro _
  refine Eq.trans (base_decodeFps _ _ _ _ _) ?_
  simp only [decodeFps, d_R, a_R, b_R, m_R, fn_R]
  rfl

theorem fclassD (d : Reg) (a : Reg) : Statement (.fclassD d a) := by
  intro _
  refine Eq.trans (base_decodeFps _ _ _ _ _) ?_
  simp only [decodeFps, d_R, a_R, b_R, m_R, fn_R]
  rfl

theorem fmaddS (d : Reg) (a : Reg) (b : Reg) (rm : BitVec 3) : Statement (.fmaddS d a b rm) := by
  intro _
  refine Eq.trans (base_decodeFmas _ _ _ _ _) ?_
  simp only [decodeFmas, d_R, a_R, b_R, m_R, fn_R]
  rfl

theorem fmsubS (d : Reg) (a : Reg) (b : Reg) (rm : BitVec 3) : Statement (.fmsubS d a b rm) := by
  intro _
  refine Eq.trans (base_decodeFmas _ _ _ _ _) ?_
  simp only [decodeFmas, d_R, a_R, b_R, m_R, fn_R]
  rfl

theorem fnmaddS (d : Reg) (a : Reg) (b : Reg) (rm : BitVec 3) : Statement (.fnmaddS d a b rm) := by
  intro _
  refine Eq.trans (base_decodeFmas _ _ _ _ _) ?_
  simp only [decodeFmas, d_R, a_R, b_R, m_R, fn_R]
  rfl

theorem fnmsubS (d : Reg) (a : Reg) (b : Reg) (rm : BitVec 3) : Statement (.fnmsubS d a b rm) := by
  intro _
  refine Eq.trans (base_decodeFmas _ _ _ _ _) ?_
  simp only [decodeFmas, d_R, a_R, b_R, m_R, fn_R]
  rfl

theorem fmaddD (d : Reg) (a : Reg) (b : Reg) (rm : BitVec 3) : Statement (.fmaddD d a b rm) := by
  intro _
  refine Eq.trans (base_decodeFmas _ _ _ _ _) ?_
  simp only [decodeFmas, d_R, a_R, b_R, m_R, fn_R]
  rfl

theorem fmsubD (d : Reg) (a : Reg) (b : Reg) (rm : BitVec 3) : Statement (.fmsubD d a b rm) := by
  intro _
  refine Eq.trans (base_decodeFmas _ _ _ _ _) ?_
  simp only [decodeFmas, d_R, a_R, b_R, m_R, fn_R]
  rfl

theorem fnmaddD (d : Reg) (a : Reg) (b : Reg) (rm : BitVec 3) : Statement (.fnmaddD d a b rm) := by
  intro _
  refine Eq.trans (base_decodeFmas _ _ _ _ _) ?_
  simp only [decodeFmas, d_R, a_R, b_R, m_R, fn_R]
  rfl

theorem fnmsubD (d : Reg) (a : Reg) (b : Reg) (rm : BitVec 3) : Statement (.fnmsubD d a b rm) := by
  intro _
  refine Eq.trans (base_decodeFmas _ _ _ _ _) ?_
  simp only [decodeFmas, d_R, a_R, b_R, m_R, fn_R]
  rfl

theorem amoadd (d : Reg) (a : Reg) (b : Reg) (order : BitVec 2) (word : Bool) (scope : BitVec 3) : Statement (.amoadd d a b order word scope) := by
  intro _
  refine Eq.trans (base_amo _ _ _ _ _ _ _) ?_
  simp only [decodeAmo, d_A, a_A, b_A, m_A, op_A, order_A, v_A]
  rfl

theorem amoswap (d : Reg) (a : Reg) (b : Reg) (order : BitVec 2) (word : Bool) (scope : BitVec 3) : Statement (.amoswap d a b order word scope) := by
  intro _
  refine Eq.trans (base_amo _ _ _ _ _ _ _) ?_
  simp only [decodeAmo, d_A, a_A, b_A, m_A, op_A, order_A, v_A]
  rfl

theorem amoand (d : Reg) (a : Reg) (b : Reg) (order : BitVec 2) (word : Bool) (scope : BitVec 3) : Statement (.amoand d a b order word scope) := by
  intro _
  refine Eq.trans (base_amo _ _ _ _ _ _ _) ?_
  simp only [decodeAmo, d_A, a_A, b_A, m_A, op_A, order_A, v_A]
  rfl

theorem amoor (d : Reg) (a : Reg) (b : Reg) (order : BitVec 2) (word : Bool) (scope : BitVec 3) : Statement (.amoor d a b order word scope) := by
  intro _
  refine Eq.trans (base_amo _ _ _ _ _ _ _) ?_
  simp only [decodeAmo, d_A, a_A, b_A, m_A, op_A, order_A, v_A]
  rfl

theorem amomin (d : Reg) (a : Reg) (b : Reg) (order : BitVec 2) (word : Bool) (scope : BitVec 3) : Statement (.amomin d a b order word scope) := by
  intro _
  refine Eq.trans (base_amo _ _ _ _ _ _ _) ?_
  simp only [decodeAmo, d_A, a_A, b_A, m_A, op_A, order_A, v_A]
  rfl

theorem amomax (d : Reg) (a : Reg) (b : Reg) (order : BitVec 2) (word : Bool) (scope : BitVec 3) : Statement (.amomax d a b order word scope) := by
  intro _
  refine Eq.trans (base_amo _ _ _ _ _ _ _) ?_
  simp only [decodeAmo, d_A, a_A, b_A, m_A, op_A, order_A, v_A]
  rfl

theorem amocas (d : Reg) (a : Reg) (b : Reg) (order : BitVec 2) (word : Bool) (scope : BitVec 3) : Statement (.amocas d a b order word scope) := by
  intro _
  refine Eq.trans (base_amo _ _ _ _ _ _ _) ?_
  simp only [decodeAmo, d_A, a_A, b_A, m_A, op_A, order_A, v_A]
  rfl

theorem amoxor (d : Reg) (a : Reg) (b : Reg) (order : BitVec 2) (word : Bool) (scope : BitVec 3) : Statement (.amoxor d a b order word scope) := by
  intro _
  refine Eq.trans (base_amo _ _ _ _ _ _ _) ?_
  simp only [decodeAmo, d_A, a_A, b_A, m_A, op_A, order_A, v_A]
  rfl

theorem trap (code : BitVec 10) : Statement (.trap code) := by
  intro _
  refine Eq.trans (base_code _ _ _) ?_
  simp only [decodeSys, d_C, m_C, fn_C, code_C]
  rfl

theorem tret : Statement .tret := by
  intro _
  refine Eq.trans (base_decodeSys _ _ _ _ _) ?_
  simp only [decodeSys, d_R, a_R, b_R, m_R, fn_R]
  rfl

theorem brk (code : BitVec 10) : Statement (.brk code) := by
  intro _
  refine Eq.trans (base_code _ _ _) ?_
  simp only [decodeSys, d_C, m_C, fn_C, code_C]
  rfl

theorem wait (d : Reg) (a : Reg) : Statement (.wait d a) := by
  intro _
  refine Eq.trans (base_decodeSys _ _ _ _ _) ?_
  simp only [decodeSys, d_R, a_R, b_R, m_R, fn_R]
  rfl

theorem yield (a : Reg) : Statement (.yield a) := by
  intro _
  refine Eq.trans (base_decodeSys _ _ _ _ _) ?_
  simp only [decodeSys, d_R, a_R, b_R, m_R, fn_R]
  rfl

theorem halt : Statement .halt := by
  intro _
  refine Eq.trans (base_decodeSys _ _ _ _ _) ?_
  simp only [decodeSys, d_R, a_R, b_R, m_R, fn_R]
  rfl

theorem mfc (d : Reg) (cr : BitVec 10) : Statement (.mfc d cr) := by
  intro _
  refine Eq.trans (base_code _ _ _) ?_
  simp only [decodeSys, d_C, m_C, fn_C, code_C]
  rfl

theorem mtc (s : Reg) (cr : BitVec 10) : Statement (.mtc s cr) := by
  intro _
  refine Eq.trans (base_code _ _ _) ?_
  simp only [decodeSys, d_C, m_C, fn_C, code_C]
  rfl

theorem farm (d : Reg) (a : Reg) (b : Reg) : Statement (.farm d a b) := by
  intro _
  refine Eq.trans (base_decodeSys _ _ _ _ _) ?_
  simp only [decodeSys, d_R, a_R, b_R, m_R, fn_R]
  rfl

theorem strip (d : Reg) : Statement (.strip d) := by
  intro _
  refine Eq.trans (base_decodeSys _ _ _ _ _) ?_
  simp only [decodeSys, d_R, a_R, b_R, m_R, fn_R]
  rfl

theorem tlbi (d : Reg) (a : Reg) (b : Reg) : Statement (.tlbi d a b) := by
  intro _
  refine Eq.trans (base_decodeSys _ _ _ _ _) ?_
  simp only [decodeSys, d_R, a_R, b_R, m_R, fn_R]
  rfl

theorem sync : Statement .sync := by
  intro _
  refine Eq.trans (base_decodeSys _ _ _ _ _) ?_
  simp only [decodeSys, d_R, a_R, b_R, m_R, fn_R]
  rfl

theorem vsync : Statement .vsync := by
  intro _
  refine Eq.trans (base_decodeSys _ _ _ _ _) ?_
  simp only [decodeSys, d_R, a_R, b_R, m_R, fn_R]
  rfl

theorem fence (kinds : Reg) (scope : BitVec 3) : Statement (.fence kinds scope) := by
  intro _
  refine Eq.trans (base_decodeFence _ _ _ _ _) ?_
  simp only [decodeFence, d_R, a_R, b_R, m_R, fn_R]
  rfl

theorem vfence : Statement .vfence := by
  intro _
  refine Eq.trans (base_decodeFence _ _ _ _ _) ?_
  simp only [decodeFence, d_R, a_R, b_R, m_R, fn_R]
  rfl

theorem barInit (d : Reg) (a : Reg) (b : Reg) : Statement (.barInit d a b) := by
  intro _
  refine Eq.trans (base_decodeFence _ _ _ _ _) ?_
  simp only [decodeFence, d_R, a_R, b_R, m_R, fn_R]
  rfl

theorem barArrive (d : Reg) (a : Reg) : Statement (.barArrive d a) := by
  intro _
  refine Eq.trans (base_decodeFence _ _ _ _ _) ?_
  simp only [decodeFence, d_R, a_R, b_R, m_R, fn_R]
  rfl

theorem barWait (d : Reg) (a : Reg) : Statement (.barWait d a) := by
  intro _
  refine Eq.trans (base_decodeFence _ _ _ _ _) ?_
  simp only [decodeFence, d_R, a_R, b_R, m_R, fn_R]
  rfl

theorem barPost (d : Reg) (a : Reg) (b : Reg) : Statement (.barPost d a b) := by
  intro _
  refine Eq.trans (base_decodeFence _ _ _ _ _) ?_
  simp only [decodeFence, d_R, a_R, b_R, m_R, fn_R]
  rfl

theorem barDone (d : Reg) (a : Reg) (b : Reg) : Statement (.barDone d a b) := by
  intro _
  refine Eq.trans (base_decodeFence _ _ _ _ _) ?_
  simp only [decodeFence, d_R, a_R, b_R, m_R, fn_R]
  rfl

theorem barArrwait (d : Reg) (a : Reg) : Statement (.barArrwait d a) := by
  intro _
  refine Eq.trans (base_decodeFence _ _ _ _ _) ?_
  simp only [decodeFence, d_R, a_R, b_R, m_R, fn_R]
  rfl

theorem barQuery (d : Reg) (a : Reg) : Statement (.barQuery d a) := by
  intro _
  refine Eq.trans (base_decodeFence _ _ _ _ _) ?_
  simp only [decodeFence, d_R, a_R, b_R, m_R, fn_R]
  rfl

theorem pin (k : Reg) (a : Reg) (b : Reg) (rights : BitVec 3) : Statement (.pin k a b rights) := by
  intro _
  refine Eq.trans (base_decodePin _ _ _ _ _) ?_
  simp only [decodePin, d_R, a_R, b_R, m_R, fn_R]
  rfl

theorem unpin (k : Reg) : Statement (.unpin k) := by
  intro _
  refine Eq.trans (base_decodePin _ _ _ _ _) ?_
  simp only [decodePin, d_R, a_R, b_R, m_R, fn_R]
  rfl

theorem pinq (d : Reg) (k : Reg) (sel : Reg) : Statement (.pinq d k sel) := by
  intro _
  refine Eq.trans (base_decodePin _ _ _ _ _) ?_
  simp only [decodePin, d_R, a_R, b_R, m_R, fn_R]
  rfl

theorem epush (port : Reg) (a : Reg) : Statement (.epush port a) := by
  intro _
  refine Eq.trans (base_decodeEport _ _ _ _ _) ?_
  simp only [decodeEport, d_R, a_R, b_R, m_R, fn_R]
  rfl

theorem epop (d : Reg) (port : Reg) : Statement (.epop d port) := by
  intro _
  refine Eq.trans (base_decodeEport _ _ _ _ _) ?_
  simp only [decodeEport, d_R, a_R, b_R, m_R, fn_R]
  rfl

theorem eavail (d : Reg) (port : Reg) : Statement (.eavail d port) := by
  intro _
  refine Eq.trans (base_decodeEport _ _ _ _ _) ?_
  simp only [decodeEport, d_R, a_R, b_R, m_R, fn_R]
  rfl

theorem castle (d : Reg) (a : Reg) (b : Reg) : Statement (.castle d a b) := by
  intro _
  refine Eq.trans (base_decodeCastle _ _ _ _ _) ?_
  simp only [decodeCastle, d_R, a_R, b_R, m_R, fn_R]
  rfl

theorem castq (d : Reg) (a : Reg) : Statement (.castq d a) := by
  intro _
  refine Eq.trans (base_decodeCastle _ _ _ _ _) ?_
  simp only [decodeCastle, d_R, a_R, b_R, m_R, fn_R]
  rfl

theorem vadd (x : VX) (d : Reg) (a : Reg) (b : Reg) : Statement (.vadd x d a b) := by
  intro h
  obtain ⟨w, hM, hF, hw⟩ := decode_encV 0x20 0x00 x (r6 b) (r6 a) (r6 d) (by decide) h (fitsP_r6 _ _) (fitsP_r6 _ _) (fitsP_r6 _ _)
  refine Eq.trans hw ?_
  rw [decodeVector, hM, hF]
  exact rrr _ _ _ _ _

theorem vsub (x : VX) (d : Reg) (a : Reg) (b : Reg) : Statement (.vsub x d a b) := by
  intro h
  obtain ⟨w, hM, hF, hw⟩ := decode_encV 0x20 0x01 x (r6 b) (r6 a) (r6 d) (by decide) h (fitsP_r6 _ _) (fitsP_r6 _ _) (fitsP_r6 _ _)
  refine Eq.trans hw ?_
  rw [decodeVector, hM, hF]
  exact rrr _ _ _ _ _

theorem vmul (x : VX) (d : Reg) (a : Reg) (b : Reg) : Statement (.vmul x d a b) := by
  intro h
  obtain ⟨w, hM, hF, hw⟩ := decode_encV 0x20 0x02 x (r6 b) (r6 a) (r6 d) (by decide) h (fitsP_r6 _ _) (fitsP_r6 _ _) (fitsP_r6 _ _)
  refine Eq.trans hw ?_
  rw [decodeVector, hM, hF]
  exact rrr _ _ _ _ _

theorem vmulh (x : VX) (d : Reg) (a : Reg) (b : Reg) : Statement (.vmulh x d a b) := by
  intro h
  obtain ⟨w, hM, hF, hw⟩ := decode_encV 0x20 0x03 x (r6 b) (r6 a) (r6 d) (by decide) h (fitsP_r6 _ _) (fitsP_r6 _ _) (fitsP_r6 _ _)
  refine Eq.trans hw ?_
  rw [decodeVector, hM, hF]
  exact rrr _ _ _ _ _

theorem vmulhu (x : VX) (d : Reg) (a : Reg) (b : Reg) : Statement (.vmulhu x d a b) := by
  intro h
  obtain ⟨w, hM, hF, hw⟩ := decode_encV 0x20 0x04 x (r6 b) (r6 a) (r6 d) (by decide) h (fitsP_r6 _ _) (fitsP_r6 _ _) (fitsP_r6 _ _)
  refine Eq.trans hw ?_
  rw [decodeVector, hM, hF]
  exact rrr _ _ _ _ _

theorem vand (x : VX) (d : Reg) (a : Reg) (b : Reg) : Statement (.vand x d a b) := by
  intro h
  obtain ⟨w, hM, hF, hw⟩ := decode_encV 0x20 0x05 x (r6 b) (r6 a) (r6 d) (by decide) h (fitsP_r6 _ _) (fitsP_r6 _ _) (fitsP_r6 _ _)
  refine Eq.trans hw ?_
  rw [decodeVector, hM, hF]
  exact rrr _ _ _ _ _

theorem vor (x : VX) (d : Reg) (a : Reg) (b : Reg) : Statement (.vor x d a b) := by
  intro h
  obtain ⟨w, hM, hF, hw⟩ := decode_encV 0x20 0x06 x (r6 b) (r6 a) (r6 d) (by decide) h (fitsP_r6 _ _) (fitsP_r6 _ _) (fitsP_r6 _ _)
  refine Eq.trans hw ?_
  rw [decodeVector, hM, hF]
  exact rrr _ _ _ _ _

theorem vxor (x : VX) (d : Reg) (a : Reg) (b : Reg) : Statement (.vxor x d a b) := by
  intro h
  obtain ⟨w, hM, hF, hw⟩ := decode_encV 0x20 0x07 x (r6 b) (r6 a) (r6 d) (by decide) h (fitsP_r6 _ _) (fitsP_r6 _ _) (fitsP_r6 _ _)
  refine Eq.trans hw ?_
  rw [decodeVector, hM, hF]
  exact rrr _ _ _ _ _

theorem vsll (x : VX) (d : Reg) (a : Reg) (b : Reg) : Statement (.vsll x d a b) := by
  intro h
  obtain ⟨w, hM, hF, hw⟩ := decode_encV 0x20 0x08 x (r6 b) (r6 a) (r6 d) (by decide) h (fitsP_r6 _ _) (fitsP_r6 _ _) (fitsP_r6 _ _)
  refine Eq.trans hw ?_
  rw [decodeVector, hM, hF]
  exact rrr _ _ _ _ _

theorem vsrl (x : VX) (d : Reg) (a : Reg) (b : Reg) : Statement (.vsrl x d a b) := by
  intro h
  obtain ⟨w, hM, hF, hw⟩ := decode_encV 0x20 0x09 x (r6 b) (r6 a) (r6 d) (by decide) h (fitsP_r6 _ _) (fitsP_r6 _ _) (fitsP_r6 _ _)
  refine Eq.trans hw ?_
  rw [decodeVector, hM, hF]
  exact rrr _ _ _ _ _

theorem vsra (x : VX) (d : Reg) (a : Reg) (b : Reg) : Statement (.vsra x d a b) := by
  intro h
  obtain ⟨w, hM, hF, hw⟩ := decode_encV 0x20 0x0A x (r6 b) (r6 a) (r6 d) (by decide) h (fitsP_r6 _ _) (fitsP_r6 _ _) (fitsP_r6 _ _)
  refine Eq.trans hw ?_
  rw [decodeVector, hM, hF]
  exact rrr _ _ _ _ _

theorem vmin (x : VX) (d : Reg) (a : Reg) (b : Reg) : Statement (.vmin x d a b) := by
  intro h
  obtain ⟨w, hM, hF, hw⟩ := decode_encV 0x20 0x0B x (r6 b) (r6 a) (r6 d) (by decide) h (fitsP_r6 _ _) (fitsP_r6 _ _) (fitsP_r6 _ _)
  refine Eq.trans hw ?_
  rw [decodeVector, hM, hF]
  exact rrr _ _ _ _ _

theorem vmax (x : VX) (d : Reg) (a : Reg) (b : Reg) : Statement (.vmax x d a b) := by
  intro h
  obtain ⟨w, hM, hF, hw⟩ := decode_encV 0x20 0x0C x (r6 b) (r6 a) (r6 d) (by decide) h (fitsP_r6 _ _) (fitsP_r6 _ _) (fitsP_r6 _ _)
  refine Eq.trans hw ?_
  rw [decodeVector, hM, hF]
  exact rrr _ _ _ _ _

theorem vminu (x : VX) (d : Reg) (a : Reg) (b : Reg) : Statement (.vminu x d a b) := by
  intro h
  obtain ⟨w, hM, hF, hw⟩ := decode_encV 0x20 0x0D x (r6 b) (r6 a) (r6 d) (by decide) h (fitsP_r6 _ _) (fitsP_r6 _ _) (fitsP_r6 _ _)
  refine Eq.trans hw ?_
  rw [decodeVector, hM, hF]
  exact rrr _ _ _ _ _

theorem vmaxu (x : VX) (d : Reg) (a : Reg) (b : Reg) : Statement (.vmaxu x d a b) := by
  intro h
  obtain ⟨w, hM, hF, hw⟩ := decode_encV 0x20 0x0E x (r6 b) (r6 a) (r6 d) (by decide) h (fitsP_r6 _ _) (fitsP_r6 _ _) (fitsP_r6 _ _)
  refine Eq.trans hw ?_
  rw [decodeVector, hM, hF]
  exact rrr _ _ _ _ _

theorem vdiv (x : VX) (d : Reg) (a : Reg) (b : Reg) : Statement (.vdiv x d a b) := by
  intro h
  obtain ⟨w, hM, hF, hw⟩ := decode_encV 0x20 0x0F x (r6 b) (r6 a) (r6 d) (by decide) h (fitsP_r6 _ _) (fitsP_r6 _ _) (fitsP_r6 _ _)
  refine Eq.trans hw ?_
  rw [decodeVector, hM, hF]
  exact rrr _ _ _ _ _

theorem vdivu (x : VX) (d : Reg) (a : Reg) (b : Reg) : Statement (.vdivu x d a b) := by
  intro h
  obtain ⟨w, hM, hF, hw⟩ := decode_encV 0x20 0x10 x (r6 b) (r6 a) (r6 d) (by decide) h (fitsP_r6 _ _) (fitsP_r6 _ _) (fitsP_r6 _ _)
  refine Eq.trans hw ?_
  rw [decodeVector, hM, hF]
  exact rrr _ _ _ _ _

theorem vrem (x : VX) (d : Reg) (a : Reg) (b : Reg) : Statement (.vrem x d a b) := by
  intro h
  obtain ⟨w, hM, hF, hw⟩ := decode_encV 0x20 0x11 x (r6 b) (r6 a) (r6 d) (by decide) h (fitsP_r6 _ _) (fitsP_r6 _ _) (fitsP_r6 _ _)
  refine Eq.trans hw ?_
  rw [decodeVector, hM, hF]
  exact rrr _ _ _ _ _

theorem vremu (x : VX) (d : Reg) (a : Reg) (b : Reg) : Statement (.vremu x d a b) := by
  intro h
  obtain ⟨w, hM, hF, hw⟩ := decode_encV 0x20 0x12 x (r6 b) (r6 a) (r6 d) (by decide) h (fitsP_r6 _ _) (fitsP_r6 _ _) (fitsP_r6 _ _)
  refine Eq.trans hw ?_
  rw [decodeVector, hM, hF]
  exact rrr _ _ _ _ _

theorem vsadd (x : VX) (d : Reg) (a : Reg) (b : Reg) : Statement (.vsadd x d a b) := by
  intro h
  obtain ⟨w, hM, hF, hw⟩ := decode_encV 0x20 0x13 x (r6 b) (r6 a) (r6 d) (by decide) h (fitsP_r6 _ _) (fitsP_r6 _ _) (fitsP_r6 _ _)
  refine Eq.trans hw ?_
  rw [decodeVector, hM, hF]
  exact rrr _ _ _ _ _

theorem vssub (x : VX) (d : Reg) (a : Reg) (b : Reg) : Statement (.vssub x d a b) := by
  intro h
  obtain ⟨w, hM, hF, hw⟩ := decode_encV 0x20 0x14 x (r6 b) (r6 a) (r6 d) (by decide) h (fitsP_r6 _ _) (fitsP_r6 _ _) (fitsP_r6 _ _)
  refine Eq.trans hw ?_
  rw [decodeVector, hM, hF]
  exact rrr _ _ _ _ _

theorem vaddScalar (x : VX) (d : Reg) (a : Reg) (b : Reg) : Statement (.vaddScalar x d a b) := by
  intro h
  obtain ⟨w, hM, hF, hw⟩ := decode_encV 0x21 0x00 x (r6 b) (r6 a) (r6 d) (by decide) h (fitsP_r6 _ _) (fitsP_r6 _ _) (fitsP_r6 _ _)
  refine Eq.trans hw ?_
  rw [decodeVector, hM, hF]
  exact rrr _ _ _ _ _

theorem vsubScalar (x : VX) (d : Reg) (a : Reg) (b : Reg) : Statement (.vsubScalar x d a b) := by
  intro h
  obtain ⟨w, hM, hF, hw⟩ := decode_encV 0x21 0x01 x (r6 b) (r6 a) (r6 d) (by decide) h (fitsP_r6 _ _) (fitsP_r6 _ _) (fitsP_r6 _ _)
  refine Eq.trans hw ?_
  rw [decodeVector, hM, hF]
  exact rrr _ _ _ _ _

theorem vmulScalar (x : VX) (d : Reg) (a : Reg) (b : Reg) : Statement (.vmulScalar x d a b) := by
  intro h
  obtain ⟨w, hM, hF, hw⟩ := decode_encV 0x21 0x02 x (r6 b) (r6 a) (r6 d) (by decide) h (fitsP_r6 _ _) (fitsP_r6 _ _) (fitsP_r6 _ _)
  refine Eq.trans hw ?_
  rw [decodeVector, hM, hF]
  exact rrr _ _ _ _ _

theorem vmulhScalar (x : VX) (d : Reg) (a : Reg) (b : Reg) : Statement (.vmulhScalar x d a b) := by
  intro h
  obtain ⟨w, hM, hF, hw⟩ := decode_encV 0x21 0x03 x (r6 b) (r6 a) (r6 d) (by decide) h (fitsP_r6 _ _) (fitsP_r6 _ _) (fitsP_r6 _ _)
  refine Eq.trans hw ?_
  rw [decodeVector, hM, hF]
  exact rrr _ _ _ _ _

theorem vmulhuScalar (x : VX) (d : Reg) (a : Reg) (b : Reg) : Statement (.vmulhuScalar x d a b) := by
  intro h
  obtain ⟨w, hM, hF, hw⟩ := decode_encV 0x21 0x04 x (r6 b) (r6 a) (r6 d) (by decide) h (fitsP_r6 _ _) (fitsP_r6 _ _) (fitsP_r6 _ _)
  refine Eq.trans hw ?_
  rw [decodeVector, hM, hF]
  exact rrr _ _ _ _ _

theorem vandScalar (x : VX) (d : Reg) (a : Reg) (b : Reg) : Statement (.vandScalar x d a b) := by
  intro h
  obtain ⟨w, hM, hF, hw⟩ := decode_encV 0x21 0x05 x (r6 b) (r6 a) (r6 d) (by decide) h (fitsP_r6 _ _) (fitsP_r6 _ _) (fitsP_r6 _ _)
  refine Eq.trans hw ?_
  rw [decodeVector, hM, hF]
  exact rrr _ _ _ _ _

theorem vorScalar (x : VX) (d : Reg) (a : Reg) (b : Reg) : Statement (.vorScalar x d a b) := by
  intro h
  obtain ⟨w, hM, hF, hw⟩ := decode_encV 0x21 0x06 x (r6 b) (r6 a) (r6 d) (by decide) h (fitsP_r6 _ _) (fitsP_r6 _ _) (fitsP_r6 _ _)
  refine Eq.trans hw ?_
  rw [decodeVector, hM, hF]
  exact rrr _ _ _ _ _

theorem vxorScalar (x : VX) (d : Reg) (a : Reg) (b : Reg) : Statement (.vxorScalar x d a b) := by
  intro h
  obtain ⟨w, hM, hF, hw⟩ := decode_encV 0x21 0x07 x (r6 b) (r6 a) (r6 d) (by decide) h (fitsP_r6 _ _) (fitsP_r6 _ _) (fitsP_r6 _ _)
  refine Eq.trans hw ?_
  rw [decodeVector, hM, hF]
  exact rrr _ _ _ _ _

theorem vsllScalar (x : VX) (d : Reg) (a : Reg) (b : Reg) : Statement (.vsllScalar x d a b) := by
  intro h
  obtain ⟨w, hM, hF, hw⟩ := decode_encV 0x21 0x08 x (r6 b) (r6 a) (r6 d) (by decide) h (fitsP_r6 _ _) (fitsP_r6 _ _) (fitsP_r6 _ _)
  refine Eq.trans hw ?_
  rw [decodeVector, hM, hF]
  exact rrr _ _ _ _ _

theorem vsrlScalar (x : VX) (d : Reg) (a : Reg) (b : Reg) : Statement (.vsrlScalar x d a b) := by
  intro h
  obtain ⟨w, hM, hF, hw⟩ := decode_encV 0x21 0x09 x (r6 b) (r6 a) (r6 d) (by decide) h (fitsP_r6 _ _) (fitsP_r6 _ _) (fitsP_r6 _ _)
  refine Eq.trans hw ?_
  rw [decodeVector, hM, hF]
  exact rrr _ _ _ _ _

theorem vsraScalar (x : VX) (d : Reg) (a : Reg) (b : Reg) : Statement (.vsraScalar x d a b) := by
  intro h
  obtain ⟨w, hM, hF, hw⟩ := decode_encV 0x21 0x0A x (r6 b) (r6 a) (r6 d) (by decide) h (fitsP_r6 _ _) (fitsP_r6 _ _) (fitsP_r6 _ _)
  refine Eq.trans hw ?_
  rw [decodeVector, hM, hF]
  exact rrr _ _ _ _ _

theorem vminScalar (x : VX) (d : Reg) (a : Reg) (b : Reg) : Statement (.vminScalar x d a b) := by
  intro h
  obtain ⟨w, hM, hF, hw⟩ := decode_encV 0x21 0x0B x (r6 b) (r6 a) (r6 d) (by decide) h (fitsP_r6 _ _) (fitsP_r6 _ _) (fitsP_r6 _ _)
  refine Eq.trans hw ?_
  rw [decodeVector, hM, hF]
  exact rrr _ _ _ _ _

theorem vmaxScalar (x : VX) (d : Reg) (a : Reg) (b : Reg) : Statement (.vmaxScalar x d a b) := by
  intro h
  obtain ⟨w, hM, hF, hw⟩ := decode_encV 0x21 0x0C x (r6 b) (r6 a) (r6 d) (by decide) h (fitsP_r6 _ _) (fitsP_r6 _ _) (fitsP_r6 _ _)
  refine Eq.trans hw ?_
  rw [decodeVector, hM, hF]
  exact rrr _ _ _ _ _

theorem vminuScalar (x : VX) (d : Reg) (a : Reg) (b : Reg) : Statement (.vminuScalar x d a b) := by
  intro h
  obtain ⟨w, hM, hF, hw⟩ := decode_encV 0x21 0x0D x (r6 b) (r6 a) (r6 d) (by decide) h (fitsP_r6 _ _) (fitsP_r6 _ _) (fitsP_r6 _ _)
  refine Eq.trans hw ?_
  rw [decodeVector, hM, hF]
  exact rrr _ _ _ _ _

theorem vmaxuScalar (x : VX) (d : Reg) (a : Reg) (b : Reg) : Statement (.vmaxuScalar x d a b) := by
  intro h
  obtain ⟨w, hM, hF, hw⟩ := decode_encV 0x21 0x0E x (r6 b) (r6 a) (r6 d) (by decide) h (fitsP_r6 _ _) (fitsP_r6 _ _) (fitsP_r6 _ _)
  refine Eq.trans hw ?_
  rw [decodeVector, hM, hF]
  exact rrr _ _ _ _ _

theorem vdivScalar (x : VX) (d : Reg) (a : Reg) (b : Reg) : Statement (.vdivScalar x d a b) := by
  intro h
  obtain ⟨w, hM, hF, hw⟩ := decode_encV 0x21 0x0F x (r6 b) (r6 a) (r6 d) (by decide) h (fitsP_r6 _ _) (fitsP_r6 _ _) (fitsP_r6 _ _)
  refine Eq.trans hw ?_
  rw [decodeVector, hM, hF]
  exact rrr _ _ _ _ _

theorem vdivuScalar (x : VX) (d : Reg) (a : Reg) (b : Reg) : Statement (.vdivuScalar x d a b) := by
  intro h
  obtain ⟨w, hM, hF, hw⟩ := decode_encV 0x21 0x10 x (r6 b) (r6 a) (r6 d) (by decide) h (fitsP_r6 _ _) (fitsP_r6 _ _) (fitsP_r6 _ _)
  refine Eq.trans hw ?_
  rw [decodeVector, hM, hF]
  exact rrr _ _ _ _ _

theorem vremScalar (x : VX) (d : Reg) (a : Reg) (b : Reg) : Statement (.vremScalar x d a b) := by
  intro h
  obtain ⟨w, hM, hF, hw⟩ := decode_encV 0x21 0x11 x (r6 b) (r6 a) (r6 d) (by decide) h (fitsP_r6 _ _) (fitsP_r6 _ _) (fitsP_r6 _ _)
  refine Eq.trans hw ?_
  rw [decodeVector, hM, hF]
  exact rrr _ _ _ _ _

theorem vremuScalar (x : VX) (d : Reg) (a : Reg) (b : Reg) : Statement (.vremuScalar x d a b) := by
  intro h
  obtain ⟨w, hM, hF, hw⟩ := decode_encV 0x21 0x12 x (r6 b) (r6 a) (r6 d) (by decide) h (fitsP_r6 _ _) (fitsP_r6 _ _) (fitsP_r6 _ _)
  refine Eq.trans hw ?_
  rw [decodeVector, hM, hF]
  exact rrr _ _ _ _ _

theorem vsaddScalar (x : VX) (d : Reg) (a : Reg) (b : Reg) : Statement (.vsaddScalar x d a b) := by
  intro h
  obtain ⟨w, hM, hF, hw⟩ := decode_encV 0x21 0x13 x (r6 b) (r6 a) (r6 d) (by decide) h (fitsP_r6 _ _) (fitsP_r6 _ _) (fitsP_r6 _ _)
  refine Eq.trans hw ?_
  rw [decodeVector, hM, hF]
  exact rrr _ _ _ _ _

theorem vssubScalar (x : VX) (d : Reg) (a : Reg) (b : Reg) : Statement (.vssubScalar x d a b) := by
  intro h
  obtain ⟨w, hM, hF, hw⟩ := decode_encV 0x21 0x14 x (r6 b) (r6 a) (r6 d) (by decide) h (fitsP_r6 _ _) (fitsP_r6 _ _) (fitsP_r6 _ _)
  refine Eq.trans hw ?_
  rw [decodeVector, hM, hF]
  exact rrr _ _ _ _ _

theorem vrsub (x : VX) (d : Reg) (a : Reg) (b : Reg) : Statement (.vrsub x d a b) := by
  intro h
  obtain ⟨w, hM, hF, hw⟩ := decode_encV 0x21 0x20 x (r6 b) (r6 a) (r6 d) (by decide) h (fitsP_r6 _ _) (fitsP_r6 _ _) (fitsP_r6 _ _)
  refine Eq.trans hw ?_
  rw [decodeVector, hM, hF]
  exact rrr _ _ _ _ _

theorem vfadd (x : VX) (d : Reg) (a : Reg) (b : Reg) : Statement (.vfadd x d a b) := by
  intro h
  obtain ⟨w, hM, hF, hw⟩ := decode_encV 0x22 0x00 x (r6 b) (r6 a) (r6 d) (by decide) h (fitsP_r6 _ _) (fitsP_r6 _ _) (fitsP_r6 _ _)
  refine Eq.trans hw ?_
  rw [decodeVector, hM, hF]
  exact rrr _ _ _ _ _

theorem vfsub (x : VX) (d : Reg) (a : Reg) (b : Reg) : Statement (.vfsub x d a b) := by
  intro h
  obtain ⟨w, hM, hF, hw⟩ := decode_encV 0x22 0x01 x (r6 b) (r6 a) (r6 d) (by decide) h (fitsP_r6 _ _) (fitsP_r6 _ _) (fitsP_r6 _ _)
  refine Eq.trans hw ?_
  rw [decodeVector, hM, hF]
  exact rrr _ _ _ _ _

theorem vfmul (x : VX) (d : Reg) (a : Reg) (b : Reg) : Statement (.vfmul x d a b) := by
  intro h
  obtain ⟨w, hM, hF, hw⟩ := decode_encV 0x22 0x02 x (r6 b) (r6 a) (r6 d) (by decide) h (fitsP_r6 _ _) (fitsP_r6 _ _) (fitsP_r6 _ _)
  refine Eq.trans hw ?_
  rw [decodeVector, hM, hF]
  exact rrr _ _ _ _ _

theorem vfdiv (x : VX) (d : Reg) (a : Reg) (b : Reg) : Statement (.vfdiv x d a b) := by
  intro h
  obtain ⟨w, hM, hF, hw⟩ := decode_encV 0x22 0x03 x (r6 b) (r6 a) (r6 d) (by decide) h (fitsP_r6 _ _) (fitsP_r6 _ _) (fitsP_r6 _ _)
  refine Eq.trans hw ?_
  rw [decodeVector, hM, hF]
  exact rrr _ _ _ _ _

theorem vfsqrt (x : VX) (d : Reg) (a : Reg) : Statement (.vfsqrt x d a) := by
  intro h
  obtain ⟨w, hM, hF, hw⟩ := decode_encV 0x22 0x04 x 0 (r6 a) (r6 d) (by decide) h (fitsP_zero _) (fitsP_r6 _ _) (fitsP_r6 _ _)
  refine Eq.trans hw ?_
  rw [decodeVector, hM, hF]
  exact rr _ _ _ _

theorem vfmin (x : VX) (d : Reg) (a : Reg) (b : Reg) : Statement (.vfmin x d a b) := by
  intro h
  obtain ⟨w, hM, hF, hw⟩ := decode_encV 0x22 0x05 x (r6 b) (r6 a) (r6 d) (by decide) h (fitsP_r6 _ _) (fitsP_r6 _ _) (fitsP_r6 _ _)
  refine Eq.trans hw ?_
  rw [decodeVector, hM, hF]
  exact rrr _ _ _ _ _

theorem vfmax (x : VX) (d : Reg) (a : Reg) (b : Reg) : Statement (.vfmax x d a b) := by
  intro h
  obtain ⟨w, hM, hF, hw⟩ := decode_encV 0x22 0x06 x (r6 b) (r6 a) (r6 d) (by decide) h (fitsP_r6 _ _) (fitsP_r6 _ _) (fitsP_r6 _ _)
  refine Eq.trans hw ?_
  rw [decodeVector, hM, hF]
  exact rrr _ _ _ _ _

theorem vfsgnj (x : VX) (d : Reg) (a : Reg) (b : Reg) : Statement (.vfsgnj x d a b) := by
  intro h
  obtain ⟨w, hM, hF, hw⟩ := decode_encV 0x22 0x07 x (r6 b) (r6 a) (r6 d) (by decide) h (fitsP_r6 _ _) (fitsP_r6 _ _) (fitsP_r6 _ _)
  refine Eq.trans hw ?_
  rw [decodeVector, hM, hF]
  exact rrr _ _ _ _ _

theorem vfsgnjn (x : VX) (d : Reg) (a : Reg) (b : Reg) : Statement (.vfsgnjn x d a b) := by
  intro h
  obtain ⟨w, hM, hF, hw⟩ := decode_encV 0x22 0x08 x (r6 b) (r6 a) (r6 d) (by decide) h (fitsP_r6 _ _) (fitsP_r6 _ _) (fitsP_r6 _ _)
  refine Eq.trans hw ?_
  rw [decodeVector, hM, hF]
  exact rrr _ _ _ _ _

theorem vfsgnjx (x : VX) (d : Reg) (a : Reg) (b : Reg) : Statement (.vfsgnjx x d a b) := by
  intro h
  obtain ⟨w, hM, hF, hw⟩ := decode_encV 0x22 0x09 x (r6 b) (r6 a) (r6 d) (by decide) h (fitsP_r6 _ _) (fitsP_r6 _ _) (fitsP_r6 _ _)
  refine Eq.trans hw ?_
  rw [decodeVector, hM, hF]
  exact rrr _ _ _ _ _

theorem vfclass (x : VX) (d : Reg) (a : Reg) : Statement (.vfclass x d a) := by
  intro h
  obtain ⟨w, hM, hF, hw⟩ := decode_encV 0x22 0x0A x 0 (r6 a) (r6 d) (by decide) h (fitsP_zero _) (fitsP_r6 _ _) (fitsP_r6 _ _)
  refine Eq.trans hw ?_
  rw [decodeVector, hM, hF]
  exact rr _ _ _ _

theorem vfaddScalar (x : VX) (d : Reg) (a : Reg) (b : Reg) : Statement (.vfaddScalar x d a b) := by
  intro h
  obtain ⟨w, hM, hF, hw⟩ := decode_encV 0x23 0x00 x (r6 b) (r6 a) (r6 d) (by decide) h (fitsP_r6 _ _) (fitsP_r6 _ _) (fitsP_r6 _ _)
  refine Eq.trans hw ?_
  rw [decodeVector, hM, hF]
  exact rrr _ _ _ _ _

theorem vfsubScalar (x : VX) (d : Reg) (a : Reg) (b : Reg) : Statement (.vfsubScalar x d a b) := by
  intro h
  obtain ⟨w, hM, hF, hw⟩ := decode_encV 0x23 0x01 x (r6 b) (r6 a) (r6 d) (by decide) h (fitsP_r6 _ _) (fitsP_r6 _ _) (fitsP_r6 _ _)
  refine Eq.trans hw ?_
  rw [decodeVector, hM, hF]
  exact rrr _ _ _ _ _

theorem vfmulScalar (x : VX) (d : Reg) (a : Reg) (b : Reg) : Statement (.vfmulScalar x d a b) := by
  intro h
  obtain ⟨w, hM, hF, hw⟩ := decode_encV 0x23 0x02 x (r6 b) (r6 a) (r6 d) (by decide) h (fitsP_r6 _ _) (fitsP_r6 _ _) (fitsP_r6 _ _)
  refine Eq.trans hw ?_
  rw [decodeVector, hM, hF]
  exact rrr _ _ _ _ _

theorem vfdivScalar (x : VX) (d : Reg) (a : Reg) (b : Reg) : Statement (.vfdivScalar x d a b) := by
  intro h
  obtain ⟨w, hM, hF, hw⟩ := decode_encV 0x23 0x03 x (r6 b) (r6 a) (r6 d) (by decide) h (fitsP_r6 _ _) (fitsP_r6 _ _) (fitsP_r6 _ _)
  refine Eq.trans hw ?_
  rw [decodeVector, hM, hF]
  exact rrr _ _ _ _ _

theorem vfsqrtScalar (x : VX) (d : Reg) (a : Reg) : Statement (.vfsqrtScalar x d a) := by
  intro h
  obtain ⟨w, hM, hF, hw⟩ := decode_encV 0x23 0x04 x 0 (r6 a) (r6 d) (by decide) h (fitsP_zero _) (fitsP_r6 _ _) (fitsP_r6 _ _)
  refine Eq.trans hw ?_
  rw [decodeVector, hM, hF]
  exact rr _ _ _ _

theorem vfminScalar (x : VX) (d : Reg) (a : Reg) (b : Reg) : Statement (.vfminScalar x d a b) := by
  intro h
  obtain ⟨w, hM, hF, hw⟩ := decode_encV 0x23 0x05 x (r6 b) (r6 a) (r6 d) (by decide) h (fitsP_r6 _ _) (fitsP_r6 _ _) (fitsP_r6 _ _)
  refine Eq.trans hw ?_
  rw [decodeVector, hM, hF]
  exact rrr _ _ _ _ _

theorem vfmaxScalar (x : VX) (d : Reg) (a : Reg) (b : Reg) : Statement (.vfmaxScalar x d a b) := by
  intro h
  obtain ⟨w, hM, hF, hw⟩ := decode_encV 0x23 0x06 x (r6 b) (r6 a) (r6 d) (by decide) h (fitsP_r6 _ _) (fitsP_r6 _ _) (fitsP_r6 _ _)
  refine Eq.trans hw ?_
  rw [decodeVector, hM, hF]
  exact rrr _ _ _ _ _

theorem vfsgnjScalar (x : VX) (d : Reg) (a : Reg) (b : Reg) : Statement (.vfsgnjScalar x d a b) := by
  intro h
  obtain ⟨w, hM, hF, hw⟩ := decode_encV 0x23 0x07 x (r6 b) (r6 a) (r6 d) (by decide) h (fitsP_r6 _ _) (fitsP_r6 _ _) (fitsP_r6 _ _)
  refine Eq.trans hw ?_
  rw [decodeVector, hM, hF]
  exact rrr _ _ _ _ _

theorem vfsgnjnScalar (x : VX) (d : Reg) (a : Reg) (b : Reg) : Statement (.vfsgnjnScalar x d a b) := by
  intro h
  obtain ⟨w, hM, hF, hw⟩ := decode_encV 0x23 0x08 x (r6 b) (r6 a) (r6 d) (by decide) h (fitsP_r6 _ _) (fitsP_r6 _ _) (fitsP_r6 _ _)
  refine Eq.trans hw ?_
  rw [decodeVector, hM, hF]
  exact rrr _ _ _ _ _

theorem vfsgnjxScalar (x : VX) (d : Reg) (a : Reg) (b : Reg) : Statement (.vfsgnjxScalar x d a b) := by
  intro h
  obtain ⟨w, hM, hF, hw⟩ := decode_encV 0x23 0x09 x (r6 b) (r6 a) (r6 d) (by decide) h (fitsP_r6 _ _) (fitsP_r6 _ _) (fitsP_r6 _ _)
  refine Eq.trans hw ?_
  rw [decodeVector, hM, hF]
  exact rrr _ _ _ _ _

theorem vfclassScalar (x : VX) (d : Reg) (a : Reg) : Statement (.vfclassScalar x d a) := by
  intro h
  obtain ⟨w, hM, hF, hw⟩ := decode_encV 0x23 0x0A x 0 (r6 a) (r6 d) (by decide) h (fitsP_zero _) (fitsP_r6 _ _) (fitsP_r6 _ _)
  refine Eq.trans hw ?_
  rw [decodeVector, hM, hF]
  exact rr _ _ _ _

theorem vfmacc (x : VX) (d : Reg) (a : Reg) (b : Reg) : Statement (.vfmacc x d a b) := by
  intro h
  obtain ⟨w, hM, hF, hw⟩ := decode_encV 0x24 0x00 x (r6 b) (r6 a) (r6 d) (by decide) h (fitsP_r6 _ _) (fitsP_r6 _ _) (fitsP_r6 _ _)
  refine Eq.trans hw ?_
  rw [decodeVector, hM, hF]
  exact rrr _ _ _ _ _

theorem vfmsac (x : VX) (d : Reg) (a : Reg) (b : Reg) : Statement (.vfmsac x d a b) := by
  intro h
  obtain ⟨w, hM, hF, hw⟩ := decode_encV 0x24 0x01 x (r6 b) (r6 a) (r6 d) (by decide) h (fitsP_r6 _ _) (fitsP_r6 _ _) (fitsP_r6 _ _)
  refine Eq.trans hw ?_
  rw [decodeVector, hM, hF]
  exact rrr _ _ _ _ _

theorem vfnmacc (x : VX) (d : Reg) (a : Reg) (b : Reg) : Statement (.vfnmacc x d a b) := by
  intro h
  obtain ⟨w, hM, hF, hw⟩ := decode_encV 0x24 0x02 x (r6 b) (r6 a) (r6 d) (by decide) h (fitsP_r6 _ _) (fitsP_r6 _ _) (fitsP_r6 _ _)
  refine Eq.trans hw ?_
  rw [decodeVector, hM, hF]
  exact rrr _ _ _ _ _

theorem vfnmsac (x : VX) (d : Reg) (a : Reg) (b : Reg) : Statement (.vfnmsac x d a b) := by
  intro h
  obtain ⟨w, hM, hF, hw⟩ := decode_encV 0x24 0x03 x (r6 b) (r6 a) (r6 d) (by decide) h (fitsP_r6 _ _) (fitsP_r6 _ _) (fitsP_r6 _ _)
  refine Eq.trans hw ?_
  rw [decodeVector, hM, hF]
  exact rrr _ _ _ _ _

theorem vfmaccScalar (x : VX) (d : Reg) (a : Reg) (b : Reg) : Statement (.vfmaccScalar x d a b) := by
  intro h
  obtain ⟨w, hM, hF, hw⟩ := decode_encV 0x24 0x04 x (r6 b) (r6 a) (r6 d) (by decide) h (fitsP_r6 _ _) (fitsP_r6 _ _) (fitsP_r6 _ _)
  refine Eq.trans hw ?_
  rw [decodeVector, hM, hF]
  exact rrr _ _ _ _ _

theorem vfmsacScalar (x : VX) (d : Reg) (a : Reg) (b : Reg) : Statement (.vfmsacScalar x d a b) := by
  intro h
  obtain ⟨w, hM, hF, hw⟩ := decode_encV 0x24 0x05 x (r6 b) (r6 a) (r6 d) (by decide) h (fitsP_r6 _ _) (fitsP_r6 _ _) (fitsP_r6 _ _)
  refine Eq.trans hw ?_
  rw [decodeVector, hM, hF]
  exact rrr _ _ _ _ _

theorem vfnmaccScalar (x : VX) (d : Reg) (a : Reg) (b : Reg) : Statement (.vfnmaccScalar x d a b) := by
  intro h
  obtain ⟨w, hM, hF, hw⟩ := decode_encV 0x24 0x06 x (r6 b) (r6 a) (r6 d) (by decide) h (fitsP_r6 _ _) (fitsP_r6 _ _) (fitsP_r6 _ _)
  refine Eq.trans hw ?_
  rw [decodeVector, hM, hF]
  exact rrr _ _ _ _ _

theorem vfnmsacScalar (x : VX) (d : Reg) (a : Reg) (b : Reg) : Statement (.vfnmsacScalar x d a b) := by
  intro h
  obtain ⟨w, hM, hF, hw⟩ := decode_encV 0x24 0x07 x (r6 b) (r6 a) (r6 d) (by decide) h (fitsP_r6 _ _) (fitsP_r6 _ _) (fitsP_r6 _ _)
  refine Eq.trans hw ?_
  rw [decodeVector, hM, hF]
  exact rrr _ _ _ _ _

theorem vmacc (x : VX) (d : Reg) (a : Reg) (b : Reg) : Statement (.vmacc x d a b) := by
  intro h
  obtain ⟨w, hM, hF, hw⟩ := decode_encV 0x24 0x08 x (r6 b) (r6 a) (r6 d) (by decide) h (fitsP_r6 _ _) (fitsP_r6 _ _) (fitsP_r6 _ _)
  refine Eq.trans hw ?_
  rw [decodeVector, hM, hF]
  exact rrr _ _ _ _ _

theorem vmaccScalar (x : VX) (d : Reg) (a : Reg) (b : Reg) : Statement (.vmaccScalar x d a b) := by
  intro h
  obtain ⟨w, hM, hF, hw⟩ := decode_encV 0x24 0x09 x (r6 b) (r6 a) (r6 d) (by decide) h (fitsP_r6 _ _) (fitsP_r6 _ _) (fitsP_r6 _ _)
  refine Eq.trans hw ?_
  rw [decodeVector, hM, hF]
  exact rrr _ _ _ _ _

theorem vwmacc (x : VX) (d : Reg) (a : Reg) (b : Reg) : Statement (.vwmacc x d a b) := by
  intro h
  obtain ⟨w, hM, hF, hw⟩ := decode_encV 0x24 0x0A x (r6 b) (r6 a) (r6 d) (by decide) h (fitsP_r6 _ _) (fitsP_r6 _ _) (fitsP_r6 _ _)
  refine Eq.trans hw ?_
  rw [decodeVector, hM, hF]
  exact rrr _ _ _ _ _

theorem veq (x : VX) (d : PReg) (a : Reg) (b : Reg) : Statement (.veq x d a b) := by
  intro h
  have h2 : (x.fits && x.fitsP d) = true := h
  simp only [Bool.and_eq_true] at h2
  obtain ⟨h3, h4⟩ := h2
  obtain ⟨w, hM, hF, hw⟩ := decode_encV 0x25 0x00 x (r6 b) (r6 a) d (by decide) h3 (fitsP_r6 _ _) (fitsP_r6 _ _) h4
  refine Eq.trans hw ?_
  rw [decodeVector, hM, hF]
  exact prr _ _ _ _ _

theorem vne (x : VX) (d : PReg) (a : Reg) (b : Reg) : Statement (.vne x d a b) := by
  intro h
  have h2 : (x.fits && x.fitsP d) = true := h
  simp only [Bool.and_eq_true] at h2
  obtain ⟨h3, h4⟩ := h2
  obtain ⟨w, hM, hF, hw⟩ := decode_encV 0x25 0x01 x (r6 b) (r6 a) d (by decide) h3 (fitsP_r6 _ _) (fitsP_r6 _ _) h4
  refine Eq.trans hw ?_
  rw [decodeVector, hM, hF]
  exact prr _ _ _ _ _

theorem vlt (x : VX) (d : PReg) (a : Reg) (b : Reg) : Statement (.vlt x d a b) := by
  intro h
  have h2 : (x.fits && x.fitsP d) = true := h
  simp only [Bool.and_eq_true] at h2
  obtain ⟨h3, h4⟩ := h2
  obtain ⟨w, hM, hF, hw⟩ := decode_encV 0x25 0x02 x (r6 b) (r6 a) d (by decide) h3 (fitsP_r6 _ _) (fitsP_r6 _ _) h4
  refine Eq.trans hw ?_
  rw [decodeVector, hM, hF]
  exact prr _ _ _ _ _

theorem vle (x : VX) (d : PReg) (a : Reg) (b : Reg) : Statement (.vle x d a b) := by
  intro h
  have h2 : (x.fits && x.fitsP d) = true := h
  simp only [Bool.and_eq_true] at h2
  obtain ⟨h3, h4⟩ := h2
  obtain ⟨w, hM, hF, hw⟩ := decode_encV 0x25 0x03 x (r6 b) (r6 a) d (by decide) h3 (fitsP_r6 _ _) (fitsP_r6 _ _) h4
  refine Eq.trans hw ?_
  rw [decodeVector, hM, hF]
  exact prr _ _ _ _ _

theorem vltu (x : VX) (d : PReg) (a : Reg) (b : Reg) : Statement (.vltu x d a b) := by
  intro h
  have h2 : (x.fits && x.fitsP d) = true := h
  simp only [Bool.and_eq_true] at h2
  obtain ⟨h3, h4⟩ := h2
  obtain ⟨w, hM, hF, hw⟩ := decode_encV 0x25 0x04 x (r6 b) (r6 a) d (by decide) h3 (fitsP_r6 _ _) (fitsP_r6 _ _) h4
  refine Eq.trans hw ?_
  rw [decodeVector, hM, hF]
  exact prr _ _ _ _ _

theorem vleu (x : VX) (d : PReg) (a : Reg) (b : Reg) : Statement (.vleu x d a b) := by
  intro h
  have h2 : (x.fits && x.fitsP d) = true := h
  simp only [Bool.and_eq_true] at h2
  obtain ⟨h3, h4⟩ := h2
  obtain ⟨w, hM, hF, hw⟩ := decode_encV 0x25 0x05 x (r6 b) (r6 a) d (by decide) h3 (fitsP_r6 _ _) (fitsP_r6 _ _) h4
  refine Eq.trans hw ?_
  rw [decodeVector, hM, hF]
  exact prr _ _ _ _ _

theorem vfeq (x : VX) (d : PReg) (a : Reg) (b : Reg) : Statement (.vfeq x d a b) := by
  intro h
  have h2 : (x.fits && x.fitsP d) = true := h
  simp only [Bool.and_eq_true] at h2
  obtain ⟨h3, h4⟩ := h2
  obtain ⟨w, hM, hF, hw⟩ := decode_encV 0x25 0x06 x (r6 b) (r6 a) d (by decide) h3 (fitsP_r6 _ _) (fitsP_r6 _ _) h4
  refine Eq.trans hw ?_
  rw [decodeVector, hM, hF]
  exact prr _ _ _ _ _

theorem vflt (x : VX) (d : PReg) (a : Reg) (b : Reg) : Statement (.vflt x d a b) := by
  intro h
  have h2 : (x.fits && x.fitsP d) = true := h
  simp only [Bool.and_eq_true] at h2
  obtain ⟨h3, h4⟩ := h2
  obtain ⟨w, hM, hF, hw⟩ := decode_encV 0x25 0x07 x (r6 b) (r6 a) d (by decide) h3 (fitsP_r6 _ _) (fitsP_r6 _ _) h4
  refine Eq.trans hw ?_
  rw [decodeVector, hM, hF]
  exact prr _ _ _ _ _

theorem vfle (x : VX) (d : PReg) (a : Reg) (b : Reg) : Statement (.vfle x d a b) := by
  intro h
  have h2 : (x.fits && x.fitsP d) = true := h
  simp only [Bool.and_eq_true] at h2
  obtain ⟨h3, h4⟩ := h2
  obtain ⟨w, hM, hF, hw⟩ := decode_encV 0x25 0x08 x (r6 b) (r6 a) d (by decide) h3 (fitsP_r6 _ _) (fitsP_r6 _ _) h4
  refine Eq.trans hw ?_
  rw [decodeVector, hM, hF]
  exact prr _ _ _ _ _

theorem vfunord (x : VX) (d : PReg) (a : Reg) (b : Reg) : Statement (.vfunord x d a b) := by
  intro h
  have h2 : (x.fits && x.fitsP d) = true := h
  simp only [Bool.and_eq_true] at h2
  obtain ⟨h3, h4⟩ := h2
  obtain ⟨w, hM, hF, hw⟩ := decode_encV 0x25 0x09 x (r6 b) (r6 a) d (by decide) h3 (fitsP_r6 _ _) (fitsP_r6 _ _) h4
  refine Eq.trans hw ?_
  rw [decodeVector, hM, hF]
  exact prr _ _ _ _ _

theorem veqScalar (x : VX) (d : PReg) (a : Reg) (b : Reg) : Statement (.veqScalar x d a b) := by
  intro h
  have h2 : (x.fits && x.fitsP d) = true := h
  simp only [Bool.and_eq_true] at h2
  obtain ⟨h3, h4⟩ := h2
  obtain ⟨w, hM, hF, hw⟩ := decode_encV 0x25 0x10 x (r6 b) (r6 a) d (by decide) h3 (fitsP_r6 _ _) (fitsP_r6 _ _) h4
  refine Eq.trans hw ?_
  rw [decodeVector, hM, hF]
  exact prr _ _ _ _ _

theorem vneScalar (x : VX) (d : PReg) (a : Reg) (b : Reg) : Statement (.vneScalar x d a b) := by
  intro h
  have h2 : (x.fits && x.fitsP d) = true := h
  simp only [Bool.and_eq_true] at h2
  obtain ⟨h3, h4⟩ := h2
  obtain ⟨w, hM, hF, hw⟩ := decode_encV 0x25 0x11 x (r6 b) (r6 a) d (by decide) h3 (fitsP_r6 _ _) (fitsP_r6 _ _) h4
  refine Eq.trans hw ?_
  rw [decodeVector, hM, hF]
  exact prr _ _ _ _ _

theorem vltScalar (x : VX) (d : PReg) (a : Reg) (b : Reg) : Statement (.vltScalar x d a b) := by
  intro h
  have h2 : (x.fits && x.fitsP d) = true := h
  simp only [Bool.and_eq_true] at h2
  obtain ⟨h3, h4⟩ := h2
  obtain ⟨w, hM, hF, hw⟩ := decode_encV 0x25 0x12 x (r6 b) (r6 a) d (by decide) h3 (fitsP_r6 _ _) (fitsP_r6 _ _) h4
  refine Eq.trans hw ?_
  rw [decodeVector, hM, hF]
  exact prr _ _ _ _ _

theorem vleScalar (x : VX) (d : PReg) (a : Reg) (b : Reg) : Statement (.vleScalar x d a b) := by
  intro h
  have h2 : (x.fits && x.fitsP d) = true := h
  simp only [Bool.and_eq_true] at h2
  obtain ⟨h3, h4⟩ := h2
  obtain ⟨w, hM, hF, hw⟩ := decode_encV 0x25 0x13 x (r6 b) (r6 a) d (by decide) h3 (fitsP_r6 _ _) (fitsP_r6 _ _) h4
  refine Eq.trans hw ?_
  rw [decodeVector, hM, hF]
  exact prr _ _ _ _ _

theorem vltuScalar (x : VX) (d : PReg) (a : Reg) (b : Reg) : Statement (.vltuScalar x d a b) := by
  intro h
  have h2 : (x.fits && x.fitsP d) = true := h
  simp only [Bool.and_eq_true] at h2
  obtain ⟨h3, h4⟩ := h2
  obtain ⟨w, hM, hF, hw⟩ := decode_encV 0x25 0x14 x (r6 b) (r6 a) d (by decide) h3 (fitsP_r6 _ _) (fitsP_r6 _ _) h4
  refine Eq.trans hw ?_
  rw [decodeVector, hM, hF]
  exact prr _ _ _ _ _

theorem vleuScalar (x : VX) (d : PReg) (a : Reg) (b : Reg) : Statement (.vleuScalar x d a b) := by
  intro h
  have h2 : (x.fits && x.fitsP d) = true := h
  simp only [Bool.and_eq_true] at h2
  obtain ⟨h3, h4⟩ := h2
  obtain ⟨w, hM, hF, hw⟩ := decode_encV 0x25 0x15 x (r6 b) (r6 a) d (by decide) h3 (fitsP_r6 _ _) (fitsP_r6 _ _) h4
  refine Eq.trans hw ?_
  rw [decodeVector, hM, hF]
  exact prr _ _ _ _ _

theorem vfeqScalar (x : VX) (d : PReg) (a : Reg) (b : Reg) : Statement (.vfeqScalar x d a b) := by
  intro h
  have h2 : (x.fits && x.fitsP d) = true := h
  simp only [Bool.and_eq_true] at h2
  obtain ⟨h3, h4⟩ := h2
  obtain ⟨w, hM, hF, hw⟩ := decode_encV 0x25 0x16 x (r6 b) (r6 a) d (by decide) h3 (fitsP_r6 _ _) (fitsP_r6 _ _) h4
  refine Eq.trans hw ?_
  rw [decodeVector, hM, hF]
  exact prr _ _ _ _ _

theorem vfltScalar (x : VX) (d : PReg) (a : Reg) (b : Reg) : Statement (.vfltScalar x d a b) := by
  intro h
  have h2 : (x.fits && x.fitsP d) = true := h
  simp only [Bool.and_eq_true] at h2
  obtain ⟨h3, h4⟩ := h2
  obtain ⟨w, hM, hF, hw⟩ := decode_encV 0x25 0x17 x (r6 b) (r6 a) d (by decide) h3 (fitsP_r6 _ _) (fitsP_r6 _ _) h4
  refine Eq.trans hw ?_
  rw [decodeVector, hM, hF]
  exact prr _ _ _ _ _

theorem vfleScalar (x : VX) (d : PReg) (a : Reg) (b : Reg) : Statement (.vfleScalar x d a b) := by
  intro h
  have h2 : (x.fits && x.fitsP d) = true := h
  simp only [Bool.and_eq_true] at h2
  obtain ⟨h3, h4⟩ := h2
  obtain ⟨w, hM, hF, hw⟩ := decode_encV 0x25 0x18 x (r6 b) (r6 a) d (by decide) h3 (fitsP_r6 _ _) (fitsP_r6 _ _) h4
  refine Eq.trans hw ?_
  rw [decodeVector, hM, hF]
  exact prr _ _ _ _ _

theorem vfunordScalar (x : VX) (d : PReg) (a : Reg) (b : Reg) : Statement (.vfunordScalar x d a b) := by
  intro h
  have h2 : (x.fits && x.fitsP d) = true := h
  simp only [Bool.and_eq_true] at h2
  obtain ⟨h3, h4⟩ := h2
  obtain ⟨w, hM, hF, hw⟩ := decode_encV 0x25 0x19 x (r6 b) (r6 a) d (by decide) h3 (fitsP_r6 _ _) (fitsP_r6 _ _) h4
  refine Eq.trans hw ?_
  rw [decodeVector, hM, hF]
  exact prr _ _ _ _ _

theorem pand (x : VX) (d : PReg) (a : PReg) (b : PReg) : Statement (.pand x d a b) := by
  intro h
  have h2 : (x.fits && x.fitsP d && x.fitsP a && x.fitsP b) = true := h
  simp only [Bool.and_eq_true] at h2
  obtain ⟨⟨⟨h3, h4⟩, h5⟩, h6⟩ := h2
  obtain ⟨w, hM, hF, hw⟩ := decode_encV 0x26 0x00 x b a d (by decide) h3 h6 h5 h4
  refine Eq.trans hw ?_
  rw [decodeVector, hM, hF]
  rfl

theorem por (x : VX) (d : PReg) (a : PReg) (b : PReg) : Statement (.por x d a b) := by
  intro h
  have h2 : (x.fits && x.fitsP d && x.fitsP a && x.fitsP b) = true := h
  simp only [Bool.and_eq_true] at h2
  obtain ⟨⟨⟨h3, h4⟩, h5⟩, h6⟩ := h2
  obtain ⟨w, hM, hF, hw⟩ := decode_encV 0x26 0x01 x b a d (by decide) h3 h6 h5 h4
  refine Eq.trans hw ?_
  rw [decodeVector, hM, hF]
  rfl

theorem pxor (x : VX) (d : PReg) (a : PReg) (b : PReg) : Statement (.pxor x d a b) := by
  intro h
  have h2 : (x.fits && x.fitsP d && x.fitsP a && x.fitsP b) = true := h
  simp only [Bool.and_eq_true] at h2
  obtain ⟨⟨⟨h3, h4⟩, h5⟩, h6⟩ := h2
  obtain ⟨w, hM, hF, hw⟩ := decode_encV 0x26 0x02 x b a d (by decide) h3 h6 h5 h4
  refine Eq.trans hw ?_
  rw [decodeVector, hM, hF]
  rfl

theorem pandn (x : VX) (d : PReg) (a : PReg) (b : PReg) : Statement (.pandn x d a b) := by
  intro h
  have h2 : (x.fits && x.fitsP d && x.fitsP a && x.fitsP b) = true := h
  simp only [Bool.and_eq_true] at h2
  obtain ⟨⟨⟨h3, h4⟩, h5⟩, h6⟩ := h2
  obtain ⟨w, hM, hF, hw⟩ := decode_encV 0x26 0x03 x b a d (by decide) h3 h6 h5 h4
  refine Eq.trans hw ?_
  rw [decodeVector, hM, hF]
  rfl

theorem pnot (x : VX) (d : PReg) (a : PReg) : Statement (.pnot x d a) := by
  intro h
  have h2 : (x.fits && x.fitsP d && x.fitsP a) = true := h
  simp only [Bool.and_eq_true] at h2
  obtain ⟨⟨h3, h4⟩, h5⟩ := h2
  obtain ⟨w, hM, hF, hw⟩ := decode_encV 0x26 0x04 x 0 a d (by decide) h3 (fitsP_zero _) h5 h4
  refine Eq.trans hw ?_
  rw [decodeVector, hM, hF]
  rfl

theorem pset (x : VX) (d : PReg) (a : Reg) : Statement (.pset x d a) := by
  intro h
  have h2 : (x.fits && x.fitsP d) = true := h
  simp only [Bool.and_eq_true] at h2
  obtain ⟨h3, h4⟩ := h2
  obtain ⟨w, hM, hF, hw⟩ := decode_encV 0x26 0x05 x 0 (r6 a) d (by decide) h3 (fitsP_zero _) (fitsP_r6 _ _) h4
  refine Eq.trans hw ?_
  rw [decodeVector, hM, hF]
  exact pr _ _ _ _

theorem ppop (x : VX) (d : Reg) (a : PReg) : Statement (.ppop x d a) := by
  intro h
  have h2 : (x.fits && x.fitsP a) = true := h
  simp only [Bool.and_eq_true] at h2
  obtain ⟨h3, h4⟩ := h2
  obtain ⟨w, hM, hF, hw⟩ := decode_encV 0x26 0x06 x 0 a (r6 d) (by decide) h3 (fitsP_zero _) h4 (fitsP_r6 _ _)
  refine Eq.trans hw ?_
  rw [decodeVector, hM, hF]
  exact rp _ _ _ _

theorem pfirst (x : VX) (d : Reg) (a : PReg) : Statement (.pfirst x d a) := by
  intro h
  have h2 : (x.fits && x.fitsP a) = true := h
  simp only [Bool.and_eq_true] at h2
  obtain ⟨h3, h4⟩ := h2
  obtain ⟨w, hM, hF, hw⟩ := decode_encV 0x26 0x07 x 0 a (r6 d) (by decide) h3 (fitsP_zero _) h4 (fitsP_r6 _ _)
  refine Eq.trans hw ?_
  rw [decodeVector, hM, hF]
  exact rp _ _ _ _

theorem pscan (x : VX) (d : Reg) (a : PReg) : Statement (.pscan x d a) := by
  intro h
  have h2 : (x.fits && x.fitsP a) = true := h
  simp only [Bool.and_eq_true] at h2
  obtain ⟨h3, h4⟩ := h2
  obtain ⟨w, hM, hF, hw⟩ := decode_encV 0x26 0x08 x 0 a (r6 d) (by decide) h3 (fitsP_zero _) h4 (fitsP_r6 _ _)
  refine Eq.trans hw ?_
  rw [decodeVector, hM, hF]
  exact rp _ _ _ _

theorem pbefore (x : VX) (d : PReg) (a : PReg) : Statement (.pbefore x d a) := by
  intro h
  have h2 : (x.fits && x.fitsP d && x.fitsP a) = true := h
  simp only [Bool.and_eq_true] at h2
  obtain ⟨⟨h3, h4⟩, h5⟩ := h2
  obtain ⟨w, hM, hF, hw⟩ := decode_encV 0x26 0x09 x 0 a d (by decide) h3 (fitsP_zero _) h5 h4
  refine Eq.trans hw ?_
  rw [decodeVector, hM, hF]
  rfl

theorem pmv (x : VX) (d : Reg) (a : PReg) : Statement (.pmv x d a) := by
  intro h
  have h2 : (x.fits && x.fitsP a) = true := h
  simp only [Bool.and_eq_true] at h2
  obtain ⟨h3, h4⟩ := h2
  obtain ⟨w, hM, hF, hw⟩ := decode_encV 0x26 0x0A x 0 a (r6 d) (by decide) h3 (fitsP_zero _) h4 (fitsP_r6 _ _)
  refine Eq.trans hw ?_
  rw [decodeVector, hM, hF]
  exact rp _ _ _ _

theorem vslideup (x : VX) (d : Reg) (a : Reg) (b : Reg) : Statement (.vslideup x d a b) := by
  intro h
  obtain ⟨w, hM, hF, hw⟩ := decode_encV 0x27 0x00 x (r6 b) (r6 a) (r6 d) (by decide) h (fitsP_r6 _ _) (fitsP_r6 _ _) (fitsP_r6 _ _)
  refine Eq.trans hw ?_
  rw [decodeVector, hM, hF]
  exact rrr _ _ _ _ _

theorem vslidedown (x : VX) (d : Reg) (a : Reg) (b : Reg) : Statement (.vslidedown x d a b) := by
  intro h
  obtain ⟨w, hM, hF, hw⟩ := decode_encV 0x27 0x01 x (r6 b) (r6 a) (r6 d) (by decide) h (fitsP_r6 _ _) (fitsP_r6 _ _) (fitsP_r6 _ _)
  refine Eq.trans hw ?_
  rw [decodeVector, hM, hF]
  exact rrr _ _ _ _ _

theorem vgather (x : VX) (d : Reg) (a : Reg) (b : Reg) : Statement (.vgather x d a b) := by
  intro h
  obtain ⟨w, hM, hF, hw⟩ := decode_encV 0x27 0x02 x (r6 b) (r6 a) (r6 d) (by decide) h (fitsP_r6 _ _) (fitsP_r6 _ _) (fitsP_r6 _ _)
  refine Eq.trans hw ?_
  rw [decodeVector, hM, hF]
  exact rrr _ _ _ _ _

theorem vcompress (x : VX) (d : Reg) (a : Reg) : Statement (.vcompress x d a) := by
  intro h
  obtain ⟨w, hM, hF, hw⟩ := decode_encV 0x27 0x03 x 0 (r6 a) (r6 d) (by decide) h (fitsP_zero _) (fitsP_r6 _ _) (fitsP_r6 _ _)
  refine Eq.trans hw ?_
  rw [decodeVector, hM, hF]
  exact rr _ _ _ _

theorem vexpand (x : VX) (d : Reg) (a : Reg) : Statement (.vexpand x d a) := by
  intro h
  obtain ⟨w, hM, hF, hw⟩ := decode_encV 0x27 0x04 x 0 (r6 a) (r6 d) (by decide) h (fitsP_zero _) (fitsP_r6 _ _) (fitsP_r6 _ _)
  refine Eq.trans hw ?_
  rw [decodeVector, hM, hF]
  exact rr _ _ _ _

theorem vbcast (x : VX) (d : Reg) (a : Reg) : Statement (.vbcast x d a) := by
  intro h
  obtain ⟨w, hM, hF, hw⟩ := decode_encV 0x27 0x05 x 0 (r6 a) (r6 d) (by decide) h (fitsP_zero _) (fitsP_r6 _ _) (fitsP_r6 _ _)
  refine Eq.trans hw ?_
  rw [decodeVector, hM, hF]
  exact rr _ _ _ _

theorem vmvsv (ext : Bool) (d : Reg) (a : Reg) (b : Reg) : Statement (.vmvsv ext d a b) := by
  intro _
  obtain ⟨w, hM, hF, hw⟩ := decode_encV 0x27 0x06 { ext := ext, m := 0 } (r6 b) (r6 a) (r6 d) (by decide) (fits_zero _) (fitsP_r6 _ _) (fitsP_r6 _ _) (fitsP_r6 _ _)
  refine Eq.trans hw ?_
  rw [decodeVector, hM, hF]
  exact noM _ _ _ _ _

theorem vmvvs (x : VX) (d : Reg) (a : Reg) (b : Reg) : Statement (.vmvvs x d a b) := by
  intro h
  obtain ⟨w, hM, hF, hw⟩ := decode_encV 0x27 0x07 x (r6 b) (r6 a) (r6 d) (by decide) h (fitsP_r6 _ _) (fitsP_r6 _ _) (fitsP_r6 _ _)
  refine Eq.trans hw ?_
  rw [decodeVector, hM, hF]
  exact rrr _ _ _ _ _

theorem viota (x : VX) (d : Reg) : Statement (.viota x d) := by
  intro h
  obtain ⟨w, hM, hF, hw⟩ := decode_encV 0x27 0x08 x 0 0 (r6 d) (by decide) h (fitsP_zero _) (fitsP_zero _) (fitsP_r6 _ _)
  refine Eq.trans hw ?_
  rw [decodeVector, hM, hF]
  exact r _ _ _

theorem vmerge (x : VX) (d : Reg) (a : Reg) (b : Reg) : Statement (.vmerge x d a b) := by
  intro h
  obtain ⟨w, hM, hF, hw⟩ := decode_encV 0x27 0x09 x (r6 b) (r6 a) (r6 d) (by decide) h (fitsP_r6 _ _) (fitsP_r6 _ _) (fitsP_r6 _ _)
  refine Eq.trans hw ?_
  rw [decodeVector, hM, hF]
  exact rrr _ _ _ _ _

theorem vslide1up (x : VX) (d : Reg) (a : Reg) (b : Reg) : Statement (.vslide1up x d a b) := by
  intro h
  obtain ⟨w, hM, hF, hw⟩ := decode_encV 0x27 0x0A x (r6 b) (r6 a) (r6 d) (by decide) h (fitsP_r6 _ _) (fitsP_r6 _ _) (fitsP_r6 _ _)
  refine Eq.trans hw ?_
  rw [decodeVector, hM, hF]
  exact rrr _ _ _ _ _

theorem vslide1down (x : VX) (d : Reg) (a : Reg) (b : Reg) : Statement (.vslide1down x d a b) := by
  intro h
  obtain ⟨w, hM, hF, hw⟩ := decode_encV 0x27 0x0B x (r6 b) (r6 a) (r6 d) (by decide) h (fitsP_r6 _ _) (fitsP_r6 _ _) (fitsP_r6 _ _)
  refine Eq.trans hw ?_
  rw [decodeVector, hM, hF]
  exact rrr _ _ _ _ _

theorem vredsum (x : VX) (d : Reg) (a : Reg) : Statement (.vredsum x d a) := by
  intro h
  obtain ⟨w, hM, hF, hw⟩ := decode_encV 0x28 0x00 x 0 (r6 a) (r6 d) (by decide) h (fitsP_zero _) (fitsP_r6 _ _) (fitsP_r6 _ _)
  refine Eq.trans hw ?_
  rw [decodeVector, hM, hF]
  exact rr _ _ _ _

theorem vredmin (x : VX) (d : Reg) (a : Reg) : Statement (.vredmin x d a) := by
  intro h
  obtain ⟨w, hM, hF, hw⟩ := decode_encV 0x28 0x01 x 0 (r6 a) (r6 d) (by decide) h (fitsP_zero _) (fitsP_r6 _ _) (fitsP_r6 _ _)
  refine Eq.trans hw ?_
  rw [decodeVector, hM, hF]
  exact rr _ _ _ _

theorem vredmax (x : VX) (d : Reg) (a : Reg) : Statement (.vredmax x d a) := by
  intro h
  obtain ⟨w, hM, hF, hw⟩ := decode_encV 0x28 0x02 x 0 (r6 a) (r6 d) (by decide) h (fitsP_zero _) (fitsP_r6 _ _) (fitsP_r6 _ _)
  refine Eq.trans hw ?_
  rw [decodeVector, hM, hF]
  exact rr _ _ _ _

theorem vredminu (x : VX) (d : Reg) (a : Reg) : Statement (.vredminu x d a) := by
  intro h
  obtain ⟨w, hM, hF, hw⟩ := decode_encV 0x28 0x03 x 0 (r6 a) (r6 d) (by decide) h (fitsP_zero _) (fitsP_r6 _ _) (fitsP_r6 _ _)
  refine Eq.trans hw ?_
  rw [decodeVector, hM, hF]
  exact rr _ _ _ _

theorem vredmaxu (x : VX) (d : Reg) (a : Reg) : Statement (.vredmaxu x d a) := by
  intro h
  obtain ⟨w, hM, hF, hw⟩ := decode_encV 0x28 0x04 x 0 (r6 a) (r6 d) (by decide) h (fitsP_zero _) (fitsP_r6 _ _) (fitsP_r6 _ _)
  refine Eq.trans hw ?_
  rw [decodeVector, hM, hF]
  exact rr _ _ _ _

theorem vredand (x : VX) (d : Reg) (a : Reg) : Statement (.vredand x d a) := by
  intro h
  obtain ⟨w, hM, hF, hw⟩ := decode_encV 0x28 0x05 x 0 (r6 a) (r6 d) (by decide) h (fitsP_zero _) (fitsP_r6 _ _) (fitsP_r6 _ _)
  refine Eq.trans hw ?_
  rw [decodeVector, hM, hF]
  exact rr _ _ _ _

theorem vredor (x : VX) (d : Reg) (a : Reg) : Statement (.vredor x d a) := by
  intro h
  obtain ⟨w, hM, hF, hw⟩ := decode_encV 0x28 0x06 x 0 (r6 a) (r6 d) (by decide) h (fitsP_zero _) (fitsP_r6 _ _) (fitsP_r6 _ _)
  refine Eq.trans hw ?_
  rw [decodeVector, hM, hF]
  exact rr _ _ _ _

theorem vredxor (x : VX) (d : Reg) (a : Reg) : Statement (.vredxor x d a) := by
  intro h
  obtain ⟨w, hM, hF, hw⟩ := decode_encV 0x28 0x07 x 0 (r6 a) (r6 d) (by decide) h (fitsP_zero _) (fitsP_r6 _ _) (fitsP_r6 _ _)
  refine Eq.trans hw ?_
  rw [decodeVector, hM, hF]
  exact rr _ _ _ _

theorem vfredsum (x : VX) (d : Reg) (a : Reg) : Statement (.vfredsum x d a) := by
  intro h
  obtain ⟨w, hM, hF, hw⟩ := decode_encV 0x28 0x08 x 0 (r6 a) (r6 d) (by decide) h (fitsP_zero _) (fitsP_r6 _ _) (fitsP_r6 _ _)
  refine Eq.trans hw ?_
  rw [decodeVector, hM, hF]
  exact rr _ _ _ _

theorem vfredmin (x : VX) (d : Reg) (a : Reg) : Statement (.vfredmin x d a) := by
  intro h
  obtain ⟨w, hM, hF, hw⟩ := decode_encV 0x28 0x09 x 0 (r6 a) (r6 d) (by decide) h (fitsP_zero _) (fitsP_r6 _ _) (fitsP_r6 _ _)
  refine Eq.trans hw ?_
  rw [decodeVector, hM, hF]
  exact rr _ _ _ _

theorem vfredmax (x : VX) (d : Reg) (a : Reg) : Statement (.vfredmax x d a) := by
  intro h
  obtain ⟨w, hM, hF, hw⟩ := decode_encV 0x28 0x0A x 0 (r6 a) (r6 d) (by decide) h (fitsP_zero _) (fitsP_r6 _ _) (fitsP_r6 _ _)
  refine Eq.trans hw ?_
  rw [decodeVector, hM, hF]
  exact rr _ _ _ _

theorem vfredsumW (x : VX) (d : Reg) (a : Reg) : Statement (.vfredsumW x d a) := by
  intro h
  obtain ⟨w, hM, hF, hw⟩ := decode_encV 0x28 0x0B x 0 (r6 a) (r6 d) (by decide) h (fitsP_zero _) (fitsP_r6 _ _) (fitsP_r6 _ _)
  refine Eq.trans hw ?_
  rw [decodeVector, hM, hF]
  exact rr _ _ _ _

theorem vcvtFFp64 (x : VX) (d : Reg) (a : Reg) : Statement (.vcvtFFp64 x d a) := by
  intro h
  obtain ⟨w, hM, hF, hw⟩ := decode_encV 0x29 0x00 x 0 (r6 a) (r6 d) (by decide) h (fitsP_zero _) (fitsP_r6 _ _) (fitsP_r6 _ _)
  refine Eq.trans hw ?_
  rw [decodeVector, hM, hF]
  exact rr _ _ _ _

theorem vcvtIFp64 (x : VX) (d : Reg) (a : Reg) : Statement (.vcvtIFp64 x d a) := by
  intro h
  obtain ⟨w, hM, hF, hw⟩ := decode_encV 0x29 0x01 x 0 (r6 a) (r6 d) (by decide) h (fitsP_zero _) (fitsP_r6 _ _) (fitsP_r6 _ _)
  refine Eq.trans hw ?_
  rw [decodeVector, hM, hF]
  exact rr _ _ _ _

theorem vcvtUFp64 (x : VX) (d : Reg) (a : Reg) : Statement (.vcvtUFp64 x d a) := by
  intro h
  obtain ⟨w, hM, hF, hw⟩ := decode_encV 0x29 0x02 x 0 (r6 a) (r6 d) (by decide) h (fitsP_zero _) (fitsP_r6 _ _) (fitsP_r6 _ _)
  refine Eq.trans hw ?_
  rw [decodeVector, hM, hF]
  exact rr _ _ _ _

theorem vcvtFp64I (x : VX) (d : Reg) (a : Reg) : Statement (.vcvtFp64I x d a) := by
  intro h
  obtain ⟨w, hM, hF, hw⟩ := decode_encV 0x29 0x03 x 0 (r6 a) (r6 d) (by decide) h (fitsP_zero _) (fitsP_r6 _ _) (fitsP_r6 _ _)
  refine Eq.trans hw ?_
  rw [decodeVector, hM, hF]
  exact rr _ _ _ _

theorem vcvtFFp32 (x : VX) (d : Reg) (a : Reg) : Statement (.vcvtFFp32 x d a) := by
  intro h
  obtain ⟨w, hM, hF, hw⟩ := decode_encV 0x29 0x04 x 0 (r6 a) (r6 d) (by decide) h (fitsP_zero _) (fitsP_r6 _ _) (fitsP_r6 _ _)
  refine Eq.trans hw ?_
  rw [decodeVector, hM, hF]
  exact rr _ _ _ _

theorem vcvtIFp32 (x : VX) (d : Reg) (a : Reg) : Statement (.vcvtIFp32 x d a) := by
  intro h
  obtain ⟨w, hM, hF, hw⟩ := decode_encV 0x29 0x05 x 0 (r6 a) (r6 d) (by decide) h (fitsP_zero _) (fitsP_r6 _ _) (fitsP_r6 _ _)
  refine Eq.trans hw ?_
  rw [decodeVector, hM, hF]
  exact rr _ _ _ _

theorem vcvtUFp32 (x : VX) (d : Reg) (a : Reg) : Statement (.vcvtUFp32 x d a) := by
  intro h
  obtain ⟨w, hM, hF, hw⟩ := decode_encV 0x29 0x06 x 0 (r6 a) (r6 d) (by decide) h (fitsP_zero _) (fitsP_r6 _ _) (fitsP_r6 _ _)
  refine Eq.trans hw ?_
  rw [decodeVector, hM, hF]
  exact rr _ _ _ _

theorem vcvtFp32I (x : VX) (d : Reg) (a : Reg) : Statement (.vcvtFp32I x d a) := by
  intro h
  obtain ⟨w, hM, hF, hw⟩ := decode_encV 0x29 0x07 x 0 (r6 a) (r6 d) (by decide) h (fitsP_zero _) (fitsP_r6 _ _) (fitsP_r6 _ _)
  refine Eq.trans hw ?_
  rw [decodeVector, hM, hF]
  exact rr _ _ _ _

theorem vcvtFFp16 (x : VX) (d : Reg) (a : Reg) : Statement (.vcvtFFp16 x d a) := by
  intro h
  obtain ⟨w, hM, hF, hw⟩ := decode_encV 0x29 0x08 x 0 (r6 a) (r6 d) (by decide) h (fitsP_zero _) (fitsP_r6 _ _) (fitsP_r6 _ _)
  refine Eq.trans hw ?_
  rw [decodeVector, hM, hF]
  exact rr _ _ _ _

theorem vcvtIFp16 (x : VX) (d : Reg) (a : Reg) : Statement (.vcvtIFp16 x d a) := by
  intro h
  obtain ⟨w, hM, hF, hw⟩ := decode_encV 0x29 0x09 x 0 (r6 a) (r6 d) (by decide) h (fitsP_zero _) (fitsP_r6 _ _) (fitsP_r6 _ _)
  refine Eq.trans hw ?_
  rw [decodeVector, hM, hF]
  exact rr _ _ _ _

theorem vcvtUFp16 (x : VX) (d : Reg) (a : Reg) : Statement (.vcvtUFp16 x d a) := by
  intro h
  obtain ⟨w, hM, hF, hw⟩ := decode_encV 0x29 0x0A x 0 (r6 a) (r6 d) (by decide) h (fitsP_zero _) (fitsP_r6 _ _) (fitsP_r6 _ _)
  refine Eq.trans hw ?_
  rw [decodeVector, hM, hF]
  exact rr _ _ _ _

theorem vcvtFp16I (x : VX) (d : Reg) (a : Reg) : Statement (.vcvtFp16I x d a) := by
  intro h
  obtain ⟨w, hM, hF, hw⟩ := decode_encV 0x29 0x0B x 0 (r6 a) (r6 d) (by decide) h (fitsP_zero _) (fitsP_r6 _ _) (fitsP_r6 _ _)
  refine Eq.trans hw ?_
  rw [decodeVector, hM, hF]
  exact rr _ _ _ _

theorem vcvtFBf16 (x : VX) (d : Reg) (a : Reg) : Statement (.vcvtFBf16 x d a) := by
  intro h
  obtain ⟨w, hM, hF, hw⟩ := decode_encV 0x29 0x0C x 0 (r6 a) (r6 d) (by decide) h (fitsP_zero _) (fitsP_r6 _ _) (fitsP_r6 _ _)
  refine Eq.trans hw ?_
  rw [decodeVector, hM, hF]
  exact rr _ _ _ _

theorem vcvtIBf16 (x : VX) (d : Reg) (a : Reg) : Statement (.vcvtIBf16 x d a) := by
  intro h
  obtain ⟨w, hM, hF, hw⟩ := decode_encV 0x29 0x0D x 0 (r6 a) (r6 d) (by decide) h (fitsP_zero _) (fitsP_r6 _ _) (fitsP_r6 _ _)
  refine Eq.trans hw ?_
  rw [decodeVector, hM, hF]
  exact rr _ _ _ _

theorem vcvtUBf16 (x : VX) (d : Reg) (a : Reg) : Statement (.vcvtUBf16 x d a) := by
  intro h
  obtain ⟨w, hM, hF, hw⟩ := decode_encV 0x29 0x0E x 0 (r6 a) (r6 d) (by decide) h (fitsP_zero _) (fitsP_r6 _ _) (fitsP_r6 _ _)
  refine Eq.trans hw ?_
  rw [decodeVector, hM, hF]
  exact rr _ _ _ _

theorem vcvtBf16I (x : VX) (d : Reg) (a : Reg) : Statement (.vcvtBf16I x d a) := by
  intro h
  obtain ⟨w, hM, hF, hw⟩ := decode_encV 0x29 0x0F x 0 (r6 a) (r6 d) (by decide) h (fitsP_zero _) (fitsP_r6 _ _) (fitsP_r6 _ _)
  refine Eq.trans hw ?_
  rw [decodeVector, hM, hF]
  exact rr _ _ _ _

theorem vcvtFE4m3 (x : VX) (d : Reg) (a : Reg) : Statement (.vcvtFE4m3 x d a) := by
  intro h
  obtain ⟨w, hM, hF, hw⟩ := decode_encV 0x29 0x10 x 0 (r6 a) (r6 d) (by decide) h (fitsP_zero _) (fitsP_r6 _ _) (fitsP_r6 _ _)
  refine Eq.trans hw ?_
  rw [decodeVector, hM, hF]
  exact rr _ _ _ _

theorem vcvtIE4m3 (x : VX) (d : Reg) (a : Reg) : Statement (.vcvtIE4m3 x d a) := by
  intro h
  obtain ⟨w, hM, hF, hw⟩ := decode_encV 0x29 0x11 x 0 (r6 a) (r6 d) (by decide) h (fitsP_zero _) (fitsP_r6 _ _) (fitsP_r6 _ _)
  refine Eq.trans hw ?_
  rw [decodeVector, hM, hF]
  exact rr _ _ _ _

theorem vcvtUE4m3 (x : VX) (d : Reg) (a : Reg) : Statement (.vcvtUE4m3 x d a) := by
  intro h
  obtain ⟨w, hM, hF, hw⟩ := decode_encV 0x29 0x12 x 0 (r6 a) (r6 d) (by decide) h (fitsP_zero _) (fitsP_r6 _ _) (fitsP_r6 _ _)
  refine Eq.trans hw ?_
  rw [decodeVector, hM, hF]
  exact rr _ _ _ _

theorem vcvtII8 (x : VX) (d : Reg) (a : Reg) : Statement (.vcvtII8 x d a) := by
  intro h
  obtain ⟨w, hM, hF, hw⟩ := decode_encV 0x29 0x13 x 0 (r6 a) (r6 d) (by decide) h (fitsP_zero _) (fitsP_r6 _ _) (fitsP_r6 _ _)
  refine Eq.trans hw ?_
  rw [decodeVector, hM, hF]
  exact rr _ _ _ _

theorem vcvtFE5m2 (x : VX) (d : Reg) (a : Reg) : Statement (.vcvtFE5m2 x d a) := by
  intro h
  obtain ⟨w, hM, hF, hw⟩ := decode_encV 0x29 0x14 x 0 (r6 a) (r6 d) (by decide) h (fitsP_zero _) (fitsP_r6 _ _) (fitsP_r6 _ _)
  refine Eq.trans hw ?_
  rw [decodeVector, hM, hF]
  exact rr _ _ _ _

theorem vcvtIE5m2 (x : VX) (d : Reg) (a : Reg) : Statement (.vcvtIE5m2 x d a) := by
  intro h
  obtain ⟨w, hM, hF, hw⟩ := decode_encV 0x29 0x15 x 0 (r6 a) (r6 d) (by decide) h (fitsP_zero _) (fitsP_r6 _ _) (fitsP_r6 _ _)
  refine Eq.trans hw ?_
  rw [decodeVector, hM, hF]
  exact rr _ _ _ _

theorem vcvtUE5m2 (x : VX) (d : Reg) (a : Reg) : Statement (.vcvtUE5m2 x d a) := by
  intro h
  obtain ⟨w, hM, hF, hw⟩ := decode_encV 0x29 0x16 x 0 (r6 a) (r6 d) (by decide) h (fitsP_zero _) (fitsP_r6 _ _) (fitsP_r6 _ _)
  refine Eq.trans hw ?_
  rw [decodeVector, hM, hF]
  exact rr _ _ _ _

theorem vcvtII16 (x : VX) (d : Reg) (a : Reg) : Statement (.vcvtII16 x d a) := by
  intro h
  obtain ⟨w, hM, hF, hw⟩ := decode_encV 0x29 0x17 x 0 (r6 a) (r6 d) (by decide) h (fitsP_zero _) (fitsP_r6 _ _) (fitsP_r6 _ _)
  refine Eq.trans hw ?_
  rw [decodeVector, hM, hF]
  exact rr _ _ _ _

theorem vcvtFE2m3 (x : VX) (d : Reg) (a : Reg) : Statement (.vcvtFE2m3 x d a) := by
  intro h
  obtain ⟨w, hM, hF, hw⟩ := decode_encV 0x29 0x18 x 0 (r6 a) (r6 d) (by decide) h (fitsP_zero _) (fitsP_r6 _ _) (fitsP_r6 _ _)
  refine Eq.trans hw ?_
  rw [decodeVector, hM, hF]
  exact rr _ _ _ _

theorem vcvtIE2m3 (x : VX) (d : Reg) (a : Reg) : Statement (.vcvtIE2m3 x d a) := by
  intro h
  obtain ⟨w, hM, hF, hw⟩ := decode_encV 0x29 0x19 x 0 (r6 a) (r6 d) (by decide) h (fitsP_zero _) (fitsP_r6 _ _) (fitsP_r6 _ _)
  refine Eq.trans hw ?_
  rw [decodeVector, hM, hF]
  exact rr _ _ _ _

theorem vcvtUE2m3 (x : VX) (d : Reg) (a : Reg) : Statement (.vcvtUE2m3 x d a) := by
  intro h
  obtain ⟨w, hM, hF, hw⟩ := decode_encV 0x29 0x1A x 0 (r6 a) (r6 d) (by decide) h (fitsP_zero _) (fitsP_r6 _ _) (fitsP_r6 _ _)
  refine Eq.trans hw ?_
  rw [decodeVector, hM, hF]
  exact rr _ _ _ _

theorem vcvtII32 (x : VX) (d : Reg) (a : Reg) : Statement (.vcvtII32 x d a) := by
  intro h
  obtain ⟨w, hM, hF, hw⟩ := decode_encV 0x29 0x1B x 0 (r6 a) (r6 d) (by decide) h (fitsP_zero _) (fitsP_r6 _ _) (fitsP_r6 _ _)
  refine Eq.trans hw ?_
  rw [decodeVector, hM, hF]
  exact rr _ _ _ _

theorem vcvtFE3m2 (x : VX) (d : Reg) (a : Reg) : Statement (.vcvtFE3m2 x d a) := by
  intro h
  obtain ⟨w, hM, hF, hw⟩ := decode_encV 0x29 0x1C x 0 (r6 a) (r6 d) (by decide) h (fitsP_zero _) (fitsP_r6 _ _) (fitsP_r6 _ _)
  refine Eq.trans hw ?_
  rw [decodeVector, hM, hF]
  exact rr _ _ _ _

theorem vcvtIE3m2 (x : VX) (d : Reg) (a : Reg) : Statement (.vcvtIE3m2 x d a) := by
  intro h
  obtain ⟨w, hM, hF, hw⟩ := decode_encV 0x29 0x1D x 0 (r6 a) (r6 d) (by decide) h (fitsP_zero _) (fitsP_r6 _ _) (fitsP_r6 _ _)
  refine Eq.trans hw ?_
  rw [decodeVector, hM, hF]
  exact rr _ _ _ _

theorem vcvtUE3m2 (x : VX) (d : Reg) (a : Reg) : Statement (.vcvtUE3m2 x d a) := by
  intro h
  obtain ⟨w, hM, hF, hw⟩ := decode_encV 0x29 0x1E x 0 (r6 a) (r6 d) (by decide) h (fitsP_zero _) (fitsP_r6 _ _) (fitsP_r6 _ _)
  refine Eq.trans hw ?_
  rw [decodeVector, hM, hF]
  exact rr _ _ _ _

theorem vcvtII64 (x : VX) (d : Reg) (a : Reg) : Statement (.vcvtII64 x d a) := by
  intro h
  obtain ⟨w, hM, hF, hw⟩ := decode_encV 0x29 0x1F x 0 (r6 a) (r6 d) (by decide) h (fitsP_zero _) (fitsP_r6 _ _) (fitsP_r6 _ _)
  refine Eq.trans hw ?_
  rw [decodeVector, hM, hF]
  exact rr _ _ _ _

theorem vcvtFT8 (x : VX) (d : Reg) (a : Reg) : Statement (.vcvtFT8 x d a) := by
  intro h
  obtain ⟨w, hM, hF, hw⟩ := decode_encV 0x29 0x20 x 0 (r6 a) (r6 d) (by decide) h (fitsP_zero _) (fitsP_r6 _ _) (fitsP_r6 _ _)
  refine Eq.trans hw ?_
  rw [decodeVector, hM, hF]
  exact rr _ _ _ _

theorem vcvtIT8 (x : VX) (d : Reg) (a : Reg) : Statement (.vcvtIT8 x d a) := by
  intro h
  obtain ⟨w, hM, hF, hw⟩ := decode_encV 0x29 0x21 x 0 (r6 a) (r6 d) (by decide) h (fitsP_zero _) (fitsP_r6 _ _) (fitsP_r6 _ _)
  refine Eq.trans hw ?_
  rw [decodeVector, hM, hF]
  exact rr _ _ _ _

theorem vcvtUT8 (x : VX) (d : Reg) (a : Reg) : Statement (.vcvtUT8 x d a) := by
  intro h
  obtain ⟨w, hM, hF, hw⟩ := decode_encV 0x29 0x22 x 0 (r6 a) (r6 d) (by decide) h (fitsP_zero _) (fitsP_r6 _ _) (fitsP_r6 _ _)
  refine Eq.trans hw ?_
  rw [decodeVector, hM, hF]
  exact rr _ _ _ _

theorem vcvtFT6 (x : VX) (d : Reg) (a : Reg) : Statement (.vcvtFT6 x d a) := by
  intro h
  obtain ⟨w, hM, hF, hw⟩ := decode_encV 0x29 0x24 x 0 (r6 a) (r6 d) (by decide) h (fitsP_zero _) (fitsP_r6 _ _) (fitsP_r6 _ _)
  refine Eq.trans hw ?_
  rw [decodeVector, hM, hF]
  exact rr _ _ _ _

theorem vcvtIT6 (x : VX) (d : Reg) (a : Reg) : Statement (.vcvtIT6 x d a) := by
  intro h
  obtain ⟨w, hM, hF, hw⟩ := decode_encV 0x29 0x25 x 0 (r6 a) (r6 d) (by decide) h (fitsP_zero _) (fitsP_r6 _ _) (fitsP_r6 _ _)
  refine Eq.trans hw ?_
  rw [decodeVector, hM, hF]
  exact rr _ _ _ _

theorem vcvtUT6 (x : VX) (d : Reg) (a : Reg) : Statement (.vcvtUT6 x d a) := by
  intro h
  obtain ⟨w, hM, hF, hw⟩ := decode_encV 0x29 0x26 x 0 (r6 a) (r6 d) (by decide) h (fitsP_zero _) (fitsP_r6 _ _) (fitsP_r6 _ _)
  refine Eq.trans hw ?_
  rw [decodeVector, hM, hF]
  exact rr _ _ _ _

theorem vmxpack (x : VX) (d : Reg) (a : Reg) (b : Reg) : Statement (.vmxpack x d a b) := by
  intro h
  obtain ⟨w, hM, hF, hw⟩ := decode_encV 0x29 0x3E x (r6 b) (r6 a) (r6 d) (by decide) h (fitsP_r6 _ _) (fitsP_r6 _ _) (fitsP_r6 _ _)
  refine Eq.trans hw ?_
  rw [decodeVector, hM, hF]
  exact rrr _ _ _ _ _

theorem vmxunpack (x : VX) (d : Reg) (a : Reg) (b : Reg) : Statement (.vmxunpack x d a b) := by
  intro h
  obtain ⟨w, hM, hF, hw⟩ := decode_encV 0x29 0x3F x (r6 b) (r6 a) (r6 d) (by decide) h (fitsP_r6 _ _) (fitsP_r6 _ _) (fitsP_r6 _ _)
  refine Eq.trans hw ?_
  rw [decodeVector, hM, hF]
  exact rrr _ _ _ _ _

theorem vexp2 (x : VX) (d : Reg) (a : Reg) : Statement (.vexp2 x d a) := by
  intro h
  obtain ⟨w, hM, hF, hw⟩ := decode_encV 0x2A 0x00 x 0 (r6 a) (r6 d) (by decide) h (fitsP_zero _) (fitsP_r6 _ _) (fitsP_r6 _ _)
  refine Eq.trans hw ?_
  rw [decodeVector, hM, hF]
  exact rr _ _ _ _

theorem vlog2 (x : VX) (d : Reg) (a : Reg) : Statement (.vlog2 x d a) := by
  intro h
  obtain ⟨w, hM, hF, hw⟩ := decode_encV 0x2A 0x01 x 0 (r6 a) (r6 d) (by decide) h (fitsP_zero _) (fitsP_r6 _ _) (fitsP_r6 _ _)
  refine Eq.trans hw ?_
  rw [decodeVector, hM, hF]
  exact rr _ _ _ _

theorem vrcp (x : VX) (d : Reg) (a : Reg) : Statement (.vrcp x d a) := by
  intro h
  obtain ⟨w, hM, hF, hw⟩ := decode_encV 0x2A 0x02 x 0 (r6 a) (r6 d) (by decide) h (fitsP_zero _) (fitsP_r6 _ _) (fitsP_r6 _ _)
  refine Eq.trans hw ?_
  rw [decodeVector, hM, hF]
  exact rr _ _ _ _

theorem vrsqrt (x : VX) (d : Reg) (a : Reg) : Statement (.vrsqrt x d a) := by
  intro h
  obtain ⟨w, hM, hF, hw⟩ := decode_encV 0x2A 0x03 x 0 (r6 a) (r6 d) (by decide) h (fitsP_zero _) (fitsP_r6 _ _) (fitsP_r6 _ _)
  refine Eq.trans hw ?_
  rw [decodeVector, hM, hF]
  exact rr _ _ _ _

theorem vsinpi (x : VX) (d : Reg) (a : Reg) : Statement (.vsinpi x d a) := by
  intro h
  obtain ⟨w, hM, hF, hw⟩ := decode_encV 0x2A 0x04 x 0 (r6 a) (r6 d) (by decide) h (fitsP_zero _) (fitsP_r6 _ _) (fitsP_r6 _ _)
  refine Eq.trans hw ?_
  rw [decodeVector, hM, hF]
  exact rr _ _ _ _

theorem vcospi (x : VX) (d : Reg) (a : Reg) : Statement (.vcospi x d a) := by
  intro h
  obtain ⟨w, hM, hF, hw⟩ := decode_encV 0x2A 0x05 x 0 (r6 a) (r6 d) (by decide) h (fitsP_zero _) (fitsP_r6 _ _) (fitsP_r6 _ _)
  refine Eq.trans hw ?_
  rw [decodeVector, hM, hF]
  exact rr _ _ _ _

theorem vtanh (x : VX) (d : Reg) (a : Reg) : Statement (.vtanh x d a) := by
  intro h
  obtain ⟨w, hM, hF, hw⟩ := decode_encV 0x2A 0x06 x 0 (r6 a) (r6 d) (by decide) h (fitsP_zero _) (fitsP_r6 _ _) (fitsP_r6 _ _)
  refine Eq.trans hw ?_
  rw [decodeVector, hM, hF]
  exact rr _ _ _ _

theorem vsigm (x : VX) (d : Reg) (a : Reg) : Statement (.vsigm x d a) := by
  intro h
  obtain ⟨w, hM, hF, hw⟩ := decode_encV 0x2A 0x07 x 0 (r6 a) (r6 d) (by decide) h (fitsP_zero _) (fitsP_r6 _ _) (fitsP_r6 _ _)
  refine Eq.trans hw ?_
  rw [decodeVector, hM, hF]
  exact rr _ _ _ _

theorem vgelu (x : VX) (d : Reg) (a : Reg) : Statement (.vgelu x d a) := by
  intro h
  obtain ⟨w, hM, hF, hw⟩ := decode_encV 0x2A 0x08 x 0 (r6 a) (r6 d) (by decide) h (fitsP_zero _) (fitsP_r6 _ _) (fitsP_r6 _ _)
  refine Eq.trans hw ?_
  rw [decodeVector, hM, hF]
  exact rr _ _ _ _

theorem verf (x : VX) (d : Reg) (a : Reg) : Statement (.verf x d a) := by
  intro h
  obtain ⟨w, hM, hF, hw⟩ := decode_encV 0x2A 0x09 x 0 (r6 a) (r6 d) (by decide) h (fitsP_zero _) (fitsP_r6 _ _) (fitsP_r6 _ _)
  refine Eq.trans hw ?_
  rw [decodeVector, hM, hF]
  exact rr _ _ _ _

theorem vconf (x : VX) (d : Reg) (a : Reg) : Statement (.vconf x d a) := by
  intro h
  obtain ⟨w, hM, hF, hw⟩ := decode_encV 0x2B 0x00 x 0 (r6 a) (r6 d) (by decide) h (fitsP_zero _) (fitsP_r6 _ _) (fitsP_r6 _ _)
  refine Eq.trans hw ?_
  rw [decodeVector, hM, hF]
  exact rr _ _ _ _

theorem vlead (x : VX) (d : PReg) (a : Reg) : Statement (.vlead x d a) := by
  intro h
  have h2 : (x.fits && x.fitsP d) = true := h
  simp only [Bool.and_eq_true] at h2
  obtain ⟨h3, h4⟩ := h2
  obtain ⟨w, hM, hF, hw⟩ := decode_encV 0x2B 0x01 x 0 (r6 a) d (by decide) h3 (fitsP_zero _) (fitsP_r6 _ _) h4
  refine Eq.trans hw ?_
  rw [decodeVector, hM, hF]
  exact pr _ _ _ _

theorem vdupsum (x : VX) (d : Reg) (a : Reg) (b : Reg) : Statement (.vdupsum x d a b) := by
  intro h
  obtain ⟨w, hM, hF, hw⟩ := decode_encV 0x2B 0x02 x (r6 b) (r6 a) (r6 d) (by decide) h (fitsP_r6 _ _) (fitsP_r6 _ _) (fitsP_r6 _ _)
  refine Eq.trans hw ?_
  rw [decodeVector, hM, hF]
  exact rrr _ _ _ _ _

theorem setvl (ext : Bool) (d : Reg) (a : Reg) : Statement (.setvl ext d a) := by
  intro _
  obtain ⟨w, hM, hF, hw⟩ := decode_encV 0x2C 0x00 { ext := ext, m := 0 } 0 (r6 a) (r6 d) (by decide) (fits_zero _) (fitsP_zero _) (fitsP_r6 _ _) (fitsP_r6 _ _)
  refine Eq.trans hw ?_
  rw [decodeVector, hM, hF]
  exact noM2 _ _ _ _

theorem setvtype (ext : Bool) (d : Reg) (a : Reg) : Statement (.setvtype ext d a) := by
  intro _
  obtain ⟨w, hM, hF, hw⟩ := decode_encV 0x2C 0x01 { ext := ext, m := 0 } 0 (r6 a) (r6 d) (by decide) (fits_zero _) (fitsP_zero _) (fitsP_r6 _ _) (fitsP_r6 _ _)
  refine Eq.trans hw ?_
  rw [decodeVector, hM, hF]
  exact noM2 _ _ _ _

theorem vld (x : VX) (w : BitVec 2) (k : BitVec 3) (d : Reg) (a : Reg) : Statement (.vld x w k d a) := by
  intro h
  obtain ⟨w2, hM, ho, hw, hk, h2⟩ := decode_encM 0x30 x false w k 0 (r6 a) (r6 d) (by decide) h (fitsP_zero _) (fitsP_r6 _ _) (fitsP_r6 _ _)
  refine Eq.trans h2 ?_
  simp only [decodeVMem, hM, ho, hw, hk, asReg_r6]
  rfl

theorem vlds (x : VX) (w : BitVec 2) (k : BitVec 3) (d : Reg) (a : Reg) (b : Reg) : Statement (.vlds x w k d a b) := by
  intro h
  obtain ⟨w2, hM, ho, hw, hk, h2⟩ := decode_encM 0x31 x false w k (r6 b) (r6 a) (r6 d) (by decide) h (fitsP_r6 _ _) (fitsP_r6 _ _) (fitsP_r6 _ _)
  refine Eq.trans h2 ?_
  simp only [decodeVMem, hM, ho, hw, hk, asReg_r6]
  rfl

theorem vldx (x : VX) (w : BitVec 2) (k : BitVec 3) (d : Reg) (a : Reg) (b : Reg) : Statement (.vldx x w k d a b) := by
  intro h
  obtain ⟨w2, hM, ho, hw, hk, h2⟩ := decode_encM 0x32 x false w k (r6 b) (r6 a) (r6 d) (by decide) h (fitsP_r6 _ _) (fitsP_r6 _ _) (fitsP_r6 _ _)
  refine Eq.trans h2 ?_
  simp only [decodeVMem, hM, ho, hw, hk, asReg_r6]
  rfl

theorem vldseg (x : VX) (w : BitVec 2) (k : BitVec 3) (d : Reg) (a : Reg) (nf : BitVec 3) (perm : Option (BitVec 5)) : Statement (.vldseg x w k d a nf perm) := by
  intro h
  have h2 : (x.fits && (x.ext || perm.isNone)) = true := h
  obtain ⟨e, m⟩ := x
  cases e with
  | true =>
    let bx : BitVec 6 := match perm with | none => 0 | some r => 1#1 ++ r
    have h3 := decode_pair (wordP 3 (bx ++ r6 a ++ r6 d ++ m)) (wordM 0x33 false w k 0 (nf.setWidth 5) 0 0) []
      (low_P _ _) (low_M _ _ _ _ _ _ _ _)
    rw [List.append_nil] at h3
    have he : encode (.vldseg { ext := true, m := m } w k d a nf perm) =
        splitWord (wordP 3 (bx ++ r6 a ++ r6 d ++ m)) ++ splitWord (wordM 0x33 false w k 0 (nf.setWidth 5) 0 0) := by
      cases perm <;> rfl
    refine Eq.trans (congrArg decodeParcels he) (Eq.trans h3 ?_)
    rw [decodePair, kind_P, major_M]
    show decodeVldseg (some _) _ = _
    have e1 : BitVec.extractLsb' 6 6 (bx ++ r6 a ++ r6 d ++ m) = r6 d := by
      simp (discharger := decide) only [ext_high, ext_low, ext_self, Nat.reduceSub]
    have e2 : BitVec.extractLsb' 12 6 (bx ++ r6 a ++ r6 d ++ m) = r6 a := by
      simp (discharger := decide) only [ext_high, ext_low, ext_self, Nat.reduceSub]
    have e3 : BitVec.extractLsb' 18 6 (bx ++ r6 a ++ r6 d ++ m) = bx := by
      simp (discharger := decide) only [ext_high, ext_low, ext_self, Nat.reduceSub]
    have e0 : BitVec.extractLsb' 0 6 (bx ++ r6 a ++ r6 d ++ m) = m := by
      simp (discharger := decide) only [ext_high, ext_low, ext_self, Nat.reduceSub]
    simp (discharger := decide) only [decodeVldseg, o_M, nfz_M, ad_M, nf_M, m_M, w_M, k_M, pay_field, Nat.reduceSub, e0, e1, e2, e3,
      asReg_r6]
    rw [show segPerm bx = some perm by
      refine Eq.trans ?_ (seg_perm perm)
      cases perm <;> rfl]
    rfl
  | false =>
    have hp : perm = none := by
      cases perm with
      | none => rfl
      | some r => simp at h2
    subst hp
    have fm : m.toNat < 8 := by simpa [VX.fits] using h2
    refine Eq.trans (decode_base (wordM 0x33 false w k (m.setWidth 3) (nf.setWidth 5) a d) [] (low_M _ _ _ _ _ _ _ _)) ?_
    rw [decodeBase, major_M]
    show decodeVldseg none _ = _
    simp only [decodeVldseg, o_M, nfz_M, nf_M, m_M, w_M, k_M, d_M, a_M, set_3_6 _ fm]
    rfl

theorem vst (x : VX) (o : Bool) (w : BitVec 2) (k : BitVec 3) (d : Reg) (a : Reg) : Statement (.vst x o w k d a) := by
  intro h
  obtain ⟨w2, hM, ho, hw, hk, h2⟩ := decode_encM 0x34 x o w k 0 (r6 a) (r6 d) (by decide) h (fitsP_zero _) (fitsP_r6 _ _) (fitsP_r6 _ _)
  refine Eq.trans h2 ?_
  simp only [decodeVMem, hM, ho, hw, hk, asReg_r6]
  rfl

theorem vsts (x : VX) (o : Bool) (w : BitVec 2) (k : BitVec 3) (d : Reg) (a : Reg) (b : Reg) : Statement (.vsts x o w k d a b) := by
  intro h
  obtain ⟨w2, hM, ho, hw, hk, h2⟩ := decode_encM 0x35 x o w k (r6 b) (r6 a) (r6 d) (by decide) h (fitsP_r6 _ _) (fitsP_r6 _ _) (fitsP_r6 _ _)
  refine Eq.trans h2 ?_
  simp only [decodeVMem, hM, ho, hw, hk, asReg_r6]
  rfl

theorem vstx (x : VX) (o : Bool) (w : BitVec 2) (k : BitVec 3) (d : Reg) (a : Reg) (b : Reg) : Statement (.vstx x o w k d a b) := by
  intro h
  obtain ⟨w2, hM, ho, hw, hk, h2⟩ := decode_encM 0x36 x o w k (r6 b) (r6 a) (r6 d) (by decide) h (fitsP_r6 _ _) (fitsP_r6 _ _) (fitsP_r6 _ _)
  refine Eq.trans h2 ?_
  simp only [decodeVMem, hM, ho, hw, hk, asReg_r6]
  rfl

theorem vstseg (x : VX) (o : Bool) (w : BitVec 2) (k : BitVec 3) (d : Reg) (a : Reg) (nf : BitVec 3) : Statement (.vstseg x o w k d a nf) := by
  intro h
  obtain ⟨w2, hM, ho, hw, hk, h2⟩ := decode_encM 0x37 x o w k (nf.setWidth 6) (r6 a) (r6 d) (by decide) h (fits3 _ _) (fitsP_r6 _ _) (fitsP_r6 _ _)
  refine Eq.trans h2 ?_
  simp only [decodeVMem, hM, ho, hw, hk, asReg_r6, seg_high, seg_low]
  rfl

theorem vamoAdd (x : VX) (o : Bool) (k : BitVec 3) (d : Reg) (a : Reg) (b : Reg) : Statement (.vamoAdd x o k d a b) := by
  intro h
  obtain ⟨w2, hM, ho, hw, hk, h2⟩ := decode_encM 0x38 x o 0 k (r6 b) (r6 a) (r6 d) (by decide) h (fitsP_r6 _ _) (fitsP_r6 _ _) (fitsP_r6 _ _)
  refine Eq.trans h2 ?_
  simp only [decodeVMem, hM, ho, hw, hk, asReg_r6]
  rfl

theorem vamoMin (x : VX) (o : Bool) (k : BitVec 3) (d : Reg) (a : Reg) (b : Reg) : Statement (.vamoMin x o k d a b) := by
  intro h
  obtain ⟨w2, hM, ho, hw, hk, h2⟩ := decode_encM 0x38 x o 1 k (r6 b) (r6 a) (r6 d) (by decide) h (fitsP_r6 _ _) (fitsP_r6 _ _) (fitsP_r6 _ _)
  refine Eq.trans h2 ?_
  simp only [decodeVMem, hM, ho, hw, hk, asReg_r6]
  rfl

theorem vamoMax (x : VX) (o : Bool) (k : BitVec 3) (d : Reg) (a : Reg) (b : Reg) : Statement (.vamoMax x o k d a b) := by
  intro h
  obtain ⟨w2, hM, ho, hw, hk, h2⟩ := decode_encM 0x38 x o 2 k (r6 b) (r6 a) (r6 d) (by decide) h (fitsP_r6 _ _) (fitsP_r6 _ _) (fitsP_r6 _ _)
  refine Eq.trans h2 ?_
  simp only [decodeVMem, hM, ho, hw, hk, asReg_r6]
  rfl

theorem vamoSwap (x : VX) (o : Bool) (k : BitVec 3) (d : Reg) (a : Reg) (b : Reg) : Statement (.vamoSwap x o k d a b) := by
  intro h
  obtain ⟨w2, hM, ho, hw, hk, h2⟩ := decode_encM 0x38 x o 3 k (r6 b) (r6 a) (r6 d) (by decide) h (fitsP_r6 _ _) (fitsP_r6 _ _) (fitsP_r6 _ _)
  refine Eq.trans h2 ?_
  simp only [decodeVMem, hM, ho, hw, hk, asReg_r6]
  rfl

theorem vgscr (x : VX) (w : BitVec 2) (k : BitVec 3) (d : Reg) (a : Reg) (b : Reg) : Statement (.vgscr x w k d a b) := by
  intro h
  obtain ⟨w2, hM, ho, hw, hk, h2⟩ := decode_encM 0x39 x false w k (r6 b) (r6 a) (r6 d) (by decide) h (fitsP_r6 _ _) (fitsP_r6 _ _) (fitsP_r6 _ _)
  refine Eq.trans h2 ?_
  simp only [decodeVMem, hM, ho, hw, hk, asReg_r6]
  rfl

theorem vepop (ext : Bool) (w : BitVec 2) (d : Reg) (b : Reg) : Statement (.vepop ext w d b) := by
  intro _
  obtain ⟨w2, hM, ho, hw, hk, h2⟩ := decode_encM 0x3A { ext := ext, m := 0 } false w 0 (r6 b) 0 (r6 d) (by decide) (fits_zero _) (fitsP_r6 _ _) (fitsP_zero _) (fitsP_r6 _ _)
  refine Eq.trans h2 ?_
  simp only [decodeVMem, hM, ho, hw, hk, asReg_r6]
  rfl

theorem tcfg (acc : BitVec 3) : Statement (.tcfg acc) := by
  intro _
  refine Eq.trans (decode_encT _ _ _ _ _ _ _ _ _ _ _ _) ?_
  simp only [decodeTile, acc_T, fa_T, fb_T, mk_T, ka_T, kb_T, ck_T, d_R, a_R, b_R, m_R, fn_R]
  rfl

theorem tzero (acc : BitVec 3) : Statement (.tzero acc) := by
  intro _
  refine Eq.trans (decode_encT _ _ _ _ _ _ _ _ _ _ _ _) ?_
  simp only [decodeTile, acc_T, fa_T, fb_T, mk_T, ka_T, kb_T, ck_T, d_R, a_R, b_R, m_R, fn_R]
  rfl

theorem tmma (acc : BitVec 3) (ra : Reg) (rb : Reg) (rs : Reg) (ms : BitVec 3) (fa : BitVec 4) (fb : BitVec 4) (mk : PReg) (ka : BitVec 3) (kb : BitVec 3) (ck : Bool) : Statement (.tmma acc ra rb rs ms fa fb mk ka kb ck) := by
  intro _
  refine Eq.trans (decode_encT _ _ _ _ _ _ _ _ _ _ _ _) ?_
  simp only [decodeTile, acc_T, fa_T, fb_T, mk_T, ka_T, kb_T, ck_T, d_R, a_R, b_R, m_R, fn_R]
  rfl

theorem tmmaV (acc : BitVec 3) (ra : Reg) (rb : Reg) (rs : Reg) (ms : BitVec 3) (fa : BitVec 4) (fb : BitVec 4) (mk : PReg) (ka : BitVec 3) (kb : BitVec 3) (ck : Bool) : Statement (.tmmaV acc ra rb rs ms fa fb mk ka kb ck) := by
  intro _
  refine Eq.trans (decode_encT _ _ _ _ _ _ _ _ _ _ _ _) ?_
  simp only [decodeTile, acc_T, fa_T, fb_T, mk_T, ka_T, kb_T, ck_T, d_R, a_R, b_R, m_R, fn_R]
  rfl

theorem tmmas (acc : BitVec 3) (ra : Reg) (rb : Reg) (rs : Reg) (ms : BitVec 3) (fa : BitVec 4) (fb : BitVec 4) (mk : PReg) (ka : BitVec 3) (kb : BitVec 3) (ck : Bool) : Statement (.tmmas acc ra rb rs ms fa fb mk ka kb ck) := by
  intro _
  refine Eq.trans (decode_encT _ _ _ _ _ _ _ _ _ _ _ _) ?_
  simp only [decodeTile, acc_T, fa_T, fb_T, mk_T, ka_T, kb_T, ck_T, d_R, a_R, b_R, m_R, fn_R]
  rfl

theorem tld (acc : BitVec 3) (ra : Reg) (rb : Reg) (rs : Reg) (ms : BitVec 3) (fa : BitVec 4) (ka : BitVec 3) : Statement (.tld acc ra rb rs ms fa ka) := by
  intro _
  refine Eq.trans (decode_encT _ _ _ _ _ _ _ _ _ _ _ _) ?_
  simp only [decodeTile, acc_T, fa_T, fb_T, mk_T, ka_T, kb_T, ck_T, d_R, a_R, b_R, m_R, fn_R]
  rfl

theorem tst (acc : BitVec 3) (ra : Reg) (rs : Reg) (ms : BitVec 3) (fa : BitVec 4) (ka : BitVec 3) : Statement (.tst acc ra rs ms fa ka) := by
  intro _
  refine Eq.trans (decode_encT _ _ _ _ _ _ _ _ _ _ _ _) ?_
  simp only [decodeTile, acc_T, fa_T, fb_T, mk_T, ka_T, kb_T, ck_T, d_R, a_R, b_R, m_R, fn_R]
  rfl

theorem trow (acc : BitVec 3) (ra : Reg) (rb : Reg) (ms : BitVec 3) : Statement (.trow acc ra rb ms) := by
  intro _
  refine Eq.trans (decode_encT _ _ _ _ _ _ _ _ _ _ _ _) ?_
  simp only [decodeTile, acc_T, fa_T, fb_T, mk_T, ka_T, kb_T, ck_T, d_R, a_R, b_R, m_R, fn_R]
  rfl

theorem tcol (acc : BitVec 3) (ra : Reg) (rb : Reg) (ms : BitVec 3) : Statement (.tcol acc ra rb ms) := by
  intro _
  refine Eq.trans (decode_encT _ _ _ _ _ _ _ _ _ _ _ _) ?_
  simp only [decodeTile, acc_T, fa_T, fb_T, mk_T, ka_T, kb_T, ck_T, d_R, a_R, b_R, m_R, fn_R]
  rfl

theorem tchk (acc : BitVec 3) (ra : Reg) (rb : Reg) (mk : PReg) : Statement (.tchk acc ra rb mk) := by
  intro _
  refine Eq.trans (decode_encT _ _ _ _ _ _ _ _ _ _ _ _) ?_
  simp only [decodeTile, acc_T, fa_T, fb_T, mk_T, ka_T, kb_T, ck_T, d_R, a_R, b_R, m_R, fn_R]
  rfl

theorem tcon (acc : BitVec 3) (ra : Reg) (rb : Reg) (ms : BitVec 3) (fa : BitVec 4) (fb : BitVec 4) (ka : BitVec 3) (kb : BitVec 3) : Statement (.tcon acc ra rb ms fa fb ka kb) := by
  intro _
  refine Eq.trans (decode_encT _ _ _ _ _ _ _ _ _ _ _ _) ?_
  simp only [decodeTile, acc_T, fa_T, fb_T, mk_T, ka_T, kb_T, ck_T, d_R, a_R, b_R, m_R, fn_R]
  rfl

theorem tsave (acc : BitVec 3) (ra : Reg) (ka : BitVec 3) : Statement (.tsave acc ra ka) := by
  intro _
  refine Eq.trans (decode_encT _ _ _ _ _ _ _ _ _ _ _ _) ?_
  simp only [decodeTile, acc_T, fa_T, fb_T, mk_T, ka_T, kb_T, ck_T, d_R, a_R, b_R, m_R, fn_R]
  rfl

theorem trest (acc : BitVec 3) (ra : Reg) (ka : BitVec 3) : Statement (.trest acc ra ka) := by
  intro _
  refine Eq.trans (decode_encT _ _ _ _ _ _ _ _ _ _ _ _) ?_
  simp only [decodeTile, acc_T, fa_T, fb_T, mk_T, ka_T, kb_T, ck_T, d_R, a_R, b_R, m_R, fn_R]
  rfl

theorem tstat (acc : BitVec 3) (ra : Reg) : Statement (.tstat acc ra) := by
  intro _
  refine Eq.trans (decode_encT _ _ _ _ _ _ _ _ _ _ _ _) ?_
  simp only [decodeTile, acc_T, fa_T, fb_T, mk_T, ka_T, kb_T, ck_T, d_R, a_R, b_R, m_R, fn_R]
  rfl

theorem oqinit (q : BitVec 1) (d : Reg) (a : Reg) (b : Reg) (m : BitVec 3) (n : BitVec 14) (cap : BitVec 6) (pol : BitVec 2) : Statement (.oqinit q d a b m n cap pol) := by
  intro _
  refine Eq.trans (decode_encQ _ _ _ _ _ _ _ _ _ _) ?_
  simp only [decodeOq, q_Q, tr_Q, pol_Q, cap_Q, n_Q, d_R, a_R, b_R, m_R, fn_R]
  rfl

theorem oqacc (q : BitVec 1) (a : Reg) (b : Reg) : Statement (.oqacc q a b) := by
  intro _
  refine Eq.trans (decode_encQ _ _ _ _ _ _ _ _ _ _) ?_
  simp only [decodeOq, q_Q, tr_Q, pol_Q, cap_Q, n_Q, d_R, a_R, b_R, m_R, fn_R]
  rfl

theorem oqhh (q : BitVec 1) (d : Reg) (a : Reg) (b : Reg) : Statement (.oqhh q d a b) := by
  intro _
  refine Eq.trans (decode_encQ _ _ _ _ _ _ _ _ _ _) ?_
  simp only [decodeOq, q_Q, tr_Q, pol_Q, cap_Q, n_Q, d_R, a_R, b_R, m_R, fn_R]
  rfl

theorem oqapl (q : BitVec 1) (a : Reg) (b : Reg) (m : BitVec 3) (tr : Bool) : Statement (.oqapl q a b m tr) := by
  intro _
  refine Eq.trans (decode_encQ _ _ _ _ _ _ _ _ _ _) ?_
  simp only [decodeOq, q_Q, tr_Q, pol_Q, cap_Q, n_Q, d_R, a_R, b_R, m_R, fn_R]
  rfl

theorem oqapr (q : BitVec 1) (a : Reg) (b : Reg) (m : BitVec 3) (tr : Bool) : Statement (.oqapr q a b m tr) := by
  intro _
  refine Eq.trans (decode_encQ _ _ _ _ _ _ _ _ _ _) ?_
  simp only [decodeOq, q_Q, tr_Q, pol_Q, cap_Q, n_Q, d_R, a_R, b_R, m_R, fn_R]
  rfl

theorem oqapv (q : BitVec 1) (d : Reg) (a : Reg) (tr : Bool) : Statement (.oqapv q d a tr) := by
  intro _
  refine Eq.trans (decode_encQ _ _ _ _ _ _ _ _ _ _) ?_
  simp only [decodeOq, q_Q, tr_Q, pol_Q, cap_Q, n_Q, d_R, a_R, b_R, m_R, fn_R]
  rfl

theorem oqform (q : BitVec 1) : Statement (.oqform q) := by
  intro _
  refine Eq.trans (decode_encQ _ _ _ _ _ _ _ _ _ _) ?_
  simp only [decodeOq, q_Q, tr_Q, pol_Q, cap_Q, n_Q, d_R, a_R, b_R, m_R, fn_R]
  rfl

theorem oqsave (q : BitVec 1) (a : Reg) (m : BitVec 3) : Statement (.oqsave q a m) := by
  intro _
  refine Eq.trans (decode_encQ _ _ _ _ _ _ _ _ _ _) ?_
  simp only [decodeOq, q_Q, tr_Q, pol_Q, cap_Q, n_Q, d_R, a_R, b_R, m_R, fn_R]
  rfl

theorem oqrest (q : BitVec 1) (a : Reg) (m : BitVec 3) : Statement (.oqrest q a m) := by
  intro _
  refine Eq.trans (decode_encQ _ _ _ _ _ _ _ _ _ _) ?_
  simp only [decodeOq, q_Q, tr_Q, pol_Q, cap_Q, n_Q, d_R, a_R, b_R, m_R, fn_R]
  rfl

theorem oqcnt (q : BitVec 1) (d : Reg) : Statement (.oqcnt q d) := by
  intro _
  refine Eq.trans (decode_encQ _ _ _ _ _ _ _ _ _ _) ?_
  simp only [decodeOq, q_Q, tr_Q, pol_Q, cap_Q, n_Q, d_R, a_R, b_R, m_R, fn_R]
  rfl

theorem oqrd (q : BitVec 1) (d : Reg) (b : Reg) : Statement (.oqrd q d b) := by
  intro _
  refine Eq.trans (decode_encQ _ _ _ _ _ _ _ _ _ _) ?_
  simp only [decodeOq, q_Q, tr_Q, pol_Q, cap_Q, n_Q, d_R, a_R, b_R, m_R, fn_R]
  rfl

theorem cAddi (d : BitVec 3) (imm : BitVec 8) : Statement (.cAddi d imm) := by
  intro _
  refine Eq.trans (decode_encC _ _ _ _ (by decide)) ?_
  simp only [decodeCompressed, q_C2, op_C2, r_C2, x_C2, lo_C2, hi_C2, half_low, half_high]
  rfl

theorem cAdd (d : BitVec 3) (a : BitVec 3) : Statement (.cAdd d a) := by
  intro _
  refine Eq.trans (decode_encC _ _ _ _ (by decide)) ?_
  simp only [decodeCompressed, q_C2, op_C2, r_C2, x_C2, lo_C2, hi_C2, half_low, half_high]
  rfl

theorem cMov (d : BitVec 3) (a : BitVec 3) : Statement (.cMov d a) := by
  intro _
  refine Eq.trans (decode_encC _ _ _ _ (by decide)) ?_
  simp only [decodeCompressed, q_C2, op_C2, r_C2, x_C2, lo_C2, hi_C2, half_low, half_high]
  rfl

theorem cLd (d : BitVec 3) (imm : BitVec 8) : Statement (.cLd d imm) := by
  intro _
  refine Eq.trans (decode_encC _ _ _ _ (by decide)) ?_
  simp only [decodeCompressed, q_C2, op_C2, r_C2, x_C2, lo_C2, hi_C2, half_low, half_high]
  rfl

theorem cSt (s : BitVec 3) (imm : BitVec 8) : Statement (.cSt s imm) := by
  intro _
  refine Eq.trans (decode_encC _ _ _ _ (by decide)) ?_
  simp only [decodeCompressed, q_C2, op_C2, r_C2, x_C2, lo_C2, hi_C2, half_low, half_high]
  rfl

theorem cBeqz (a : BitVec 3) (off : BitVec 8) : Statement (.cBeqz a off) := by
  intro _
  refine Eq.trans (decode_encC _ _ _ _ (by decide)) ?_
  simp only [decodeCompressed, q_C2, op_C2, r_C2, x_C2, lo_C2, hi_C2, half_low, half_high]
  rfl

theorem cBnez (a : BitVec 3) (off : BitVec 8) : Statement (.cBnez a off) := by
  intro _
  refine Eq.trans (decode_encC _ _ _ _ (by decide)) ?_
  simp only [decodeCompressed, q_C2, op_C2, r_C2, x_C2, lo_C2, hi_C2, half_low, half_high]
  rfl

theorem cJ (off : BitVec 11) : Statement (.cJ off) := by
  intro _
  refine Eq.trans (decode_encC11 _ _ _ (by decide)) ?_
  simp only [decodeCompressed, q_W, op_W, x_W]
  rfl

theorem cNop : Statement .cNop := by
  intro _
  refine Eq.trans (decode_encC11 _ _ _ (by decide)) ?_
  simp only [decodeCompressed, q_W, op_W, x_W]
  rfl

theorem cvy : Statement .cvy := by
  intro _
  refine Eq.trans (decode_encC11 _ _ _ (by decide)) ?_
  simp only [decodeCompressed, q_W, op_W, x_W]
  rfl

theorem cBrk (code : BitVec 11) : Statement (.cBrk code) := by
  intro _
  refine Eq.trans (decode_encC11 _ _ _ (by decide)) ?_
  simp only [decodeCompressed, q_W, op_W, x_W]
  rfl

theorem startStepComplete (a0 : Bool) : Statement (.startStepComplete a0) :=
  stepOfDevice rfl

theorem powerLoss : Statement .powerLoss :=
  stepOfDevice rfl

theorem memoryError (a0 : BitVec 52) (a1 : Bool) : Statement (.memoryError a0 a1) :=
  stepOfDevice rfl

theorem softError (a0 : SoftError) : Statement (.softError a0) :=
  stepOfDevice rfl

theorem matrixEngineStep (a0 : Nat) : Statement (.matrixEngineStep a0) :=
  stepOfDevice rfl

theorem orthogonalLineStep (a0 : Nat) : Statement (.orthogonalLineStep a0) :=
  stepOfDevice rfl

theorem scalarAccessPerformed (a0 : Nat) (a1 : Nat) : Statement (.scalarAccessPerformed a0 a1) :=
  stepOfDevice rfl

theorem lanePowerUp (a0 : BitVec 8) (a1 : Reg) : Statement (.lanePowerUp a0 a1) :=
  stepOfDevice rfl

end Sys2Proof.Laws.RoundTrip
end

