-- ==== Sys2Proof/Laws/Steps.lean ====
section
/-! SUPPORT. Every operation on the module, and every meaning of an instruction but the vector, tile and orthogonal ones,
keeps the canonical forms (log 9); those others are one commit each (`keeps_post`). One lemma for each definition, each
from the lemmas of the definitions it calls. -/

namespace Sys2Proof.Machine

/-- If an outcome is a next state, that state keeps the canonical forms. -/
@[irreducible] def Keeps (r : Res) : Prop := ∀ t, r = .next t → Canonical t

theorem keeps_elim {r : Res} (h : Keeps r) {t : State} (e : r = .next t) : Canonical t := by
  unfold Keeps at h
  exact h t e

theorem keeps_next {s : State} (h : Canonical s) : Keeps (.next s) := by
  unfold Keeps
  intro t e
  injection e with e
  exact e ▸ h

theorem keeps_fault (f : Fault) : Keeps (.fault f) := by
  unfold Keeps
  intro _ e
  nomatch e

theorem keeps_withRegs (rs : List Reg) {s : State} (h : Canonical s) (k : State → Res) (hk : Keeps (k s)) :
    Keeps (withRegs rs s k) := by
  unfold withRegs
  split
  · exact keeps_next h
  · exact hk

/-- A state written out field by field whose memory and cores are those of another. -/
theorem canonical_lit {mode : DevMode} {startStep : Nat} {warmFail : Nat} {patch : Option Patch} {resetResp : Option
    CmdRec} {cmdPort : List CmdRec} {cmdRefused : Word} {cmdBadWrite : Word} {respPort : List RespRec} {notices : List
    RespRec} {msix : List Nat} {hostRead : List Byte} {hostPoison : Bool} {hostHeld : List (Bool × HostReq)} {errors : List ErrRec} {errDropped : Nat}
    {power : BitVec 16} {powerCap : BitVec 16} {sensors : Vector Sensor 8} {clockDown0 : Nat} {clockDown1 : Nat}
    {ownerSlots : List (Option Nat)} {slotsRevoked : BitVec 4} {coresOn : BitVec 256} {pkgNum : BitVec 16} {parts :
    Vector (Option Part) 8} {hbm : Vector Stack 8} {mem : Memory} {poison : Sparse (Option (BitVec 64))} {scrubDue : List Nat} {vatDirty :
    List Nat} {extents : List Extent} {losses : List Loss} {cores : Sparse Core} {barriers : Sparse Barrier} {bte : List
    BteCmd} {nextBte : Nat} {bteTurn : Sparse Nat} {engineDone : List EngineDone} {members : List Member} {collCount : Sparse (BitVec 32)}
    {colls : List CollCmd} {collEarly : List EarlyMsg} {links : Vector Link 36} {routes : List Route} {txFlows : List
    TxFlow} {rxFlows : List RxFlow} {wire : List (BitVec 6 × Flit)} {txWait : List (Bool × BitVec 12 × BitVec 4 × List
    Byte)} {farms : List Farm} {nextFarm : Nat} {nextOrder : Nat} {quota : Sparse Nat} {reserve : List Nat} {cur : Strand} {others : List
    Strand} {turns : List Turn} {clock : Nat} {free : Nat} {lost : Bool} {s : State} (hm : mem = s.mem) (hc : cores =
    s.cores) (h : Canonical s) :
    Canonical (State.mk mode startStep warmFail patch resetResp cmdPort cmdRefused cmdBadWrite respPort notices msix
      hostRead hostPoison hostHeld errors errDropped power powerCap sensors clockDown0 clockDown1 ownerSlots slotsRevoked
      coresOn pkgNum parts hbm mem poison scrubDue vatDirty extents losses cores barriers bte nextBte bteTurn engineDone members
      collCount colls collEarly links routes txFlows rxFlows wire txWait farms nextFarm nextOrder quota reserve cur others
      turns clock free lost) := by
  subst hm
  subst hc
  exact h

/-- A fold that carries a state and a result. -/
theorem canonical_foldl_pair {α β : Type} (f : State × β → α → State × β) (hf : ∀ z a, Canonical z.1 → Canonical (f z a).1)
    (l : List α) {z : State × β} (h : Canonical z.1) : Canonical (l.foldl f z).1 := by
  induction l generalizing z with
  | nil => exact h
  | cons a r ih => exact ih (hf z a h)

/-- A fold that carries a result and a state. -/
theorem canonical_foldl_snd {α β : Type} (f : β × State → α → β × State) (hf : ∀ z a, Canonical z.2 → Canonical (f z a).2)
    (l : List α) {z : β × State} (h : Canonical z.2) : Canonical (l.foldl f z).2 := by
  induction l generalizing z with
  | nil => exact h
  | cons a r ih => exact ih (hf z a h)

theorem canonical_setBar {s : State} (h : Canonical s) (k : Nat) (b : Barrier) : Canonical (s.setBar k b) := by
  unfold State.setBar
  exact h

theorem canonical_announce {s u : State} {die : Bool} {idx n : Nat} (e : s.announce die idx n = some u) (h : Canonical s) :
    Canonical u := by
  unfold State.announce at e
  dsimp only at e
  split at e
  · exact absurd e (by simp)
  · injection e with e
    exact e ▸ h

theorem canonical_announceIf {s u : State} {c : Prop} [Decidable c] {die : Bool} {idx n : Nat}
    (e : (if c then s.announce die idx n else some s) = some u) (h : Canonical s) : Canonical u := by
  split at e
  · exact canonical_announce e h
  · injection e with e
    exact e ▸ h

theorem canonical_send {s : State} (h : Canonical s) (i : Instr) : Canonical (s.send i) := by
  unfold State.send
  exact h

theorem canonical_putWire {s : State} (h : Canonical s) (die : Bool) (flow : BitVec 12) (fs : List Flit) : Canonical
    (s.putWire die flow fs) := by
  unfold State.putWire
  repeat' first | exact h | split

theorem canonical_modTx {s : State} (h : Canonical s) (die : Bool) (flow : BitVec 12) (f : TxFlow → TxFlow) : Canonical
    (s.modTx die flow f) := by
  unfold State.modTx
  exact h

theorem canonical_sendFlit {s : State} (h : Canonical s) (die : Bool) (flow : BitVec 12) (kind : BitVec 4) (p : List Byte) :
    Canonical (s.sendFlit die flow kind p).1 := by
  unfold State.sendFlit
  dsimp only
  repeat' first | exact h | split | with_reducible apply canonical_putWire

theorem canonical_sendFlit_eq {s : State} {die : Bool} {flow : BitVec 12} {kind : BitVec 4} {p : List Byte} {out : State}
    {val} (eq : s.sendFlit die flow kind p = (out, val)) (h : Canonical s) : Canonical out := by
  have g := canonical_sendFlit h die flow kind p
  rw [eq] at g
  exact g

theorem canonical_sendParent {s : State} (h : Canonical s) (die : Bool) (b : Barrier) : Canonical (s.sendParent die b) := by
  unfold State.sendParent
  repeat' first
    | exact h | split | (with_reducible apply canonical_sendFlit_eq; assumption) | with_reducible apply canonical_addError

theorem canonical_wake {s : State} (h : Canonical s) (b : BitVec 6) (p : Strand → Bool) : Canonical (s.wake b p) := by
  unfold State.wake
  exact h

theorem canonical_settleBar {s : State} (h : Canonical s) (die : Bool) (idx : Nat) : Canonical (s.settleBar die idx) := by
  unfold State.settleBar
  dsimp only
  repeat' first | exact h | split | with_reducible apply canonical_sendParent

theorem canonical_arriveRaw {s : State} (h : Canonical s) (die : Bool) (idx : Nat) : Canonical (s.arriveRaw die idx).1 := by
  unfold State.arriveRaw
  dsimp only
  repeat' first | exact h | split | with_reducible apply canonical_settleBar

theorem canonical_arriveRaw_eq {s : State} {die : Bool} {idx : Nat} {out : State} {val}
    (eq : s.arriveRaw die idx = (out, val)) (h : Canonical s) : Canonical out := by
  have g := canonical_arriveRaw h die idx
  rw [eq] at g
  exact g

theorem canonical_deliverBytes {s : State} (h : Canonical s) (die : Bool) (idx n : Nat) : Canonical
    (s.deliverBytes die idx n) := by
  unfold State.deliverBytes
  dsimp only
  repeat' first | exact h | with_reducible apply canonical_settleBar

theorem canonical_faultBar {s : State} (h : Canonical s) (die : Bool) (idx : Nat) : Canonical (s.faultBar die idx) := by
  unfold State.faultBar
  dsimp only
  exact h

theorem canonical_giveDone {s : State} (h : Canonical s) (x1 : List EngineDone) : Canonical (s.giveDone x1) := by
  induction x1 generalizing s with
  | nil =>
    unfold State.giveDone
    exact h
  | cons a r ih =>
    unfold State.giveDone
    dsimp only
    repeat' first | exact h | split | with_reducible apply ih | with_reducible apply canonical_modStrand

theorem canonical_giveAll {s : State} (h : Canonical s) : Canonical (s.giveAll) := by
  unfold State.giveAll
  repeat' first | exact h | split | with_reducible apply canonical_giveDone

theorem canonical_advance {s : State} (h : Canonical s) (n : Nat) : Canonical (s.advance n) := by
  unfold State.advance
  exact h

theorem canonical_draw {s : State} (h : Canonical s) : Canonical (s.draw).2 := by
  unfold State.draw
  dsimp only
  exact h

theorem canonical_draw_eq {s : State} {out : State} {val} (eq : s.draw = (val, out)) (h : Canonical s) : Canonical out := by
  have g := canonical_draw h
  rw [eq] at g
  exact g

theorem canonical_modPart {s : State} (h : Canonical s) (p : Nat) (f : Part → Part) : Canonical (s.modPart p f) := by
  unfold State.modPart
  exact h

theorem canonical_modStack {s : State} (h : Canonical s) (n : Nat) (f : Stack → Stack) : Canonical (s.modStack n f) := by
  unfold State.modStack
  exact h

theorem canonical_setG {s : State} (h : Canonical s) (r : Reg) (x : Word) : Canonical (s.setG r x) := by
  unfold State.setG
  exact h

theorem canonical_retire {s : State} (h : Canonical s) (d : Reg) (x : Word) (len : Nat) : Canonical (s.retire d x len) := by
  unfold State.retire
  exact h

theorem canonical_setPc {s : State} (h : Canonical s) (x : Word) : Canonical (s.setPc x) := by
  unfold State.setPc
  exact h

theorem canonical_stall {s : State} (h : Canonical s) : Canonical (s.stall) := by
  unfold State.stall
  exact h

theorem keeps_branch {s : State} (h : Canonical s) {n : Nat} (a b : Reg) (off : BitVec n) (c : Word → Word → Bool)
    (len : Nat) :
    Keeps (branch a b off c len s) := by
  unfold branch
  apply keeps_withRegs _ h
  refine keeps_next ?_
  split
  · exact h
  · exact h

theorem keeps_execBeq {s : State} (h : Canonical s) (a b : Reg) (off : BitVec 14) : Keeps (execBeq a b off s) := by
  unfold execBeq
  repeat' first | exact h | with_reducible apply keeps_branch

theorem keeps_execBge {s : State} (h : Canonical s) (a b : Reg) (off : BitVec 14) : Keeps (execBge a b off s) := by
  unfold execBge
  repeat' first | exact h | with_reducible apply keeps_branch

theorem keeps_execBgeu {s : State} (h : Canonical s) (a b : Reg) (off : BitVec 14) : Keeps (execBgeu a b off s) := by
  unfold execBgeu
  repeat' first | exact h | with_reducible apply keeps_branch

theorem keeps_execBlt {s : State} (h : Canonical s) (a b : Reg) (off : BitVec 14) : Keeps (execBlt a b off s) := by
  unfold execBlt
  repeat' first | exact h | with_reducible apply keeps_branch

theorem keeps_execBltu {s : State} (h : Canonical s) (a b : Reg) (off : BitVec 14) : Keeps (execBltu a b off s) := by
  unfold execBltu
  repeat' first | exact h | with_reducible apply keeps_branch

theorem keeps_execBne {s : State} (h : Canonical s) (a b : Reg) (off : BitVec 14) : Keeps (execBne a b off s) := by
  unfold execBne
  repeat' first | exact h | with_reducible apply keeps_branch

theorem keeps_execCBeqz {s : State} (h : Canonical s) (a : BitVec 3) (off : BitVec 8) : Keeps (execCBeqz a off s) := by
  unfold execCBeqz
  repeat' first | exact h | with_reducible apply keeps_branch

theorem keeps_execCBnez {s : State} (h : Canonical s) (a : BitVec 3) (off : BitVec 8) : Keeps (execCBnez a off s) := by
  unfold execCBnez
  repeat' first | exact h | with_reducible apply keeps_branch

theorem keeps_execCJ {s : State} (h : Canonical s) (off : BitVec 11) : Keeps (execCJ off s) := by
  unfold execCJ
  repeat' first | exact h | with_reducible apply keeps_next

theorem keeps_execJ {s : State} (h : Canonical s) (off : BitVec 24) : Keeps (execJ off s) := by
  unfold execJ
  repeat' first | exact h | with_reducible apply keeps_next

theorem keeps_execJl {s : State} (h : Canonical s) (off : BitVec 24) : Keeps (execJl off s) := by
  unfold execJl
  repeat' first | exact h | with_reducible apply keeps_withRegs | with_reducible apply keeps_next

theorem canonical_freeRun {s : State} (h : Canonical s) (core first n : Nat) : Canonical (s.freeRun core first n) := by
  unfold State.freeRun
  dsimp only
  repeat' first | exact h | split

theorem canonical_setPin {s : State} (h : Canonical s) (key k : Nat) (p : Pin) : Canonical (s.setPin key k p) := by
  unfold State.setPin
  repeat' first | exact h | with_reducible apply canonical_modStrand

theorem canonical_unpinOne {s : State} (h : Canonical s) (key k : Nat) : Canonical (s.unpinOne key k) := by
  unfold State.unpinOne
  dsimp only
  repeat' first | exact h | split | with_reducible apply canonical_freeRun | with_reducible apply canonical_setPin

theorem canonical_unpinAll {s : State} (h : Canonical s) (key : Nat) : Canonical (s.unpinAll key) :=
  canonical_foldl _ (fun _ k hs => canonical_unpinOne hs key k) _ h

theorem canonical_readyFarms {s : State} (h : Canonical s) (x1 : List Farm) : Canonical (s.readyFarms x1) := by
  induction x1 generalizing s with
  | nil =>
    unfold State.readyFarms
    exact h
  | cons a r ih =>
    unfold State.readyFarms
    dsimp only
    repeat' first | exact h | split | with_reducible apply ih

theorem canonical_addStrand {s : State} (h : Canonical s) (t : Strand) : Canonical (s.addStrand t) := by
  unfold State.addStrand
  repeat' first | exact h | split

theorem canonical_placeStrand {s : State} (h : Canonical s) (c : Strand) (o : List Strand) (t : Strand) :
    Canonical (({ s with cur := c, others := o } : State).addStrand t).giveAll := by
  have h1 : Canonical { s with cur := c, others := o } := h
  have h2 := canonical_addStrand h1 t
  exact canonical_giveAll h2

theorem canonical_resumeFrom {s : State} (h : Canonical s) (t : Strand) (o : Option Strand) : Canonical (s.resumeFrom t o) := by
  cases o with
  | none => exact h
  | some u => exact canonical_placeStrand h _ _ _

theorem canonical_leaveTable {s : State} (h : Canonical s) (key : Nat) : Canonical (s.leaveTable key) := by
  unfold State.leaveTable
  refine canonical_foldl _ (fun t k ht => ?_) _ h
  split
  · exact ht
  · exact canonical_freeRun (canonical_setPin ht _ _ _) _ _ _

theorem canonical_resumeStrand {s : State} (h : Canonical s) (w : Nat) (x : Seat) (t : Strand) : Canonical
    (s.resumeStrand w x t) :=
  canonical_foldl _ (fun _ x ht => canonical_storeFault ht _ x) _ (canonical_resumeFrom h _ _)

theorem canonical_startAll {s : State} (h : Canonical s) (f : Farm) (w : Nat) (lvl : Level) (l : List Seat) :
    Canonical (s.startAll f w lvl l) := by
  induction l generalizing s with
  | nil => exact h
  | cons x r ih =>
    refine ih ?_
    split
    · exact canonical_addStrand h _
    · split
      · exact canonical_resumeStrand h _ _ _
      · exact h

theorem canonical_pushNotice {s : State} (h : Canonical s) (r : RespRec) : Canonical (s.pushNotice r) := by
  unfold State.pushNotice
  exact h

theorem canonical_finishFarm {s : State} (h : Canonical s) (f : Farm) (st : FarmState) : Canonical (s.finishFarm f st) := by
  unfold State.finishFarm
  dsimp only
  repeat' first | exact h | split

theorem canonical_launch {s : State} (h : Canonical s) (f : Farm) (w : Nat) (xs : List Seat) : Canonical (s.launch f w xs) :=
    by
  have hu : Canonical (s.unreserve f.id) := h
  unfold State.launch
  extract_lets u
  split
  · refine canonical_startAll ?_ _ _ _ _
    exact canonical_of_eq hu rfl rfl
  · exact canonical_finishFarm hu _ _

theorem canonical_choice {s : State} (h : Canonical s) (die : Bool) : ∀ x, s.choice die = some x → Canonical x.2.2 := by
  intro x e
  unfold State.choice at e
  dsimp only at e
  split at e
  · exact absurd e (by simp)
  · obtain ⟨y, -, rfl⟩ := Option.map_eq_some_iff.mp e
    exact canonical_foldl _ (fun v x hv => canonical_modPart hv _ _) _ h

theorem canonical_decide1 {s : State} (h : Canonical s) (die : Bool) : ∀ u, s.decide1 die = some u → Canonical u := by
  intro u e
  obtain ⟨x, hx, rfl⟩ := Option.map_eq_some_iff.mp e
  exact canonical_launch (canonical_choice h die x hx) _ _ _

theorem canonical_pastYield {s : State} (h : Canonical s) (h : Farm) (id : Nat) : Canonical (s.pastYield h id) := by
  unfold State.pastYield
  repeat' first | assumption | split

theorem canonical_requestHalt {s : State} (h : Canonical s) (id : Nat) (h : Halting) : Canonical (s.requestHalt id h) := by
  unfold State.requestHalt
  repeat' first | assumption

theorem canonical_priorityHalt {s : State} (h : Canonical s) (h : Farm) : Canonical (s.priorityHalt h) := by
  unfold State.priorityHalt
  dsimp only
  repeat' first
    | assumption | split | with_reducible apply canonical_pastYield | with_reducible apply canonical_foldl | intro _ _ _

theorem canonical_usage {s : State} (h : Canonical s) (die : Bool) (p : Nat) : Canonical (s.usage die p).2 := by
  unfold State.usage
  dsimp only
  repeat' first | exact h | split

theorem canonical_usage_eq {s : State} {die : Bool} {p : Nat} {out : State} {val} (eq : s.usage die p = (val, out))
    (h : Canonical s) : Canonical out := by
  have g := canonical_usage h die p
  rw [eq] at g
  exact g

theorem canonical_excess {s : State} (h : Canonical s) (die : Bool) (p : Nat) : Canonical (s.excess die p).2 := by
  unfold State.excess
  dsimp only
  repeat' first | exact h | with_reducible apply canonical_usage

theorem canonical_excess_eq {s : State} {die : Bool} {p : Nat} {out : State} {val} (eq : s.excess die p = (val, out))
    (h : Canonical s) : Canonical out := by
  have g := canonical_excess h die p
  rw [eq] at g
  exact g

theorem canonical_overOn {s : State} (h : Canonical s) (p : Nat) (die : Bool) : Canonical (s.overOn p die).2 :=
  canonical_foldl_snd (fun (acc : List (Bool × Nat × Int) × State) q =>
    let (o, s) := acc.2.excess die q
    (if 0 < o then acc.1 ++ [(die, q, o)] else acc.1, s)) (fun _ a hz => canonical_excess hz die a) _ h

theorem canonical_underOn {s : State} (h : Canonical s) (p : Nat) (dies : List Bool) : Canonical (s.underOn p dies).2 :=
  canonical_foldl_snd (fun (a : Bool × State) d => let (x, s) := a.2.excess d p; (a.1 && decide (x < 0), s))
    (fun _ d hz => canonical_excess hz d p) _ h

theorem canonical_quotaHalt {s : State} (hs : Canonical s) (h : Farm) : Canonical (s.quotaHalt h) := by
  unfold State.quotaHalt
  extract_lets p busy dies
  split
  · exact hs
  · split
    rename_i under t e
    have ht : Canonical t := by
      have g := canonical_underOn hs p dies
      rw [e] at g
      exact g
    split
    · exact ht
    · split
      rename_i ranked u e'
      have hu : Canonical u := by
        have g := canonical_foldl_snd (fun (a : List (Bool × Nat × Int) × State) d =>
          let (x, s) := a.2.overOn p d; (a.1 ++ x, s)) (fun _ d hz => canonical_overOn hz p d) dies (z := ([], t)) ht
        rw [e'] at g
        exact g
      extract_lets
      split
      · refine canonical_foldl _ (fun v i hv => ?_) _ hu
        split
        · exact hv
        · exact canonical_requestHalt hv _ _
      · exact hu

theorem canonical_askHalts {s : State} (h : Canonical s) (die : Bool) : Canonical (s.askHalts die) := by
  unfold State.askHalts
  dsimp only
  repeat' first
    | exact h | assumption | split | with_reducible apply canonical_priorityHalt | with_reducible apply canonical_quotaHalt
    | with_reducible apply canonical_foldl | intro _ _ _

theorem canonical_decideLoop {s : State} (h : Canonical s) (die : Bool) (n : Nat) : Canonical (s.decideLoop die n) := by
  induction n generalizing s with
  | zero => exact h
  | succ n ih =>
    unfold State.decideLoop
    split
    · rename_i e
      exact ih (canonical_decide1 h die _ e)
    · exact canonical_askHalts h die

theorem canonical_reserveHalf {s : State} (h : Canonical s) (old : State) (n : Nat) : Canonical (s.reserveHalf old n) := by
  unfold State.reserveHalf
  split
  · split <;> exact h
  · exact h

theorem canonical_raceHalf {s : State} (h : Canonical s) (n : Nat) : Canonical (s.raceHalf n) := by
  unfold State.raceHalf
  split
  · dsimp only
    split
    · exact h
    · exact canonical_reserveHalf (canonical_decideLoop (canonical_draw h) _ _) _ _
  · exact h

theorem canonical_poll {s : State} (h : Canonical s) : Canonical (s.poll) := by
  unfold State.poll
  split
  · exact canonical_decideLoop (canonical_decideLoop (canonical_raceHalf (canonical_readyFarms h _) _) _ _) _ _
  · exact h

theorem canonical_pushResp {s : State} (h : Canonical s) (r : RespRec) : Canonical (s.pushResp r) := by
  unfold State.pushResp
  exact h

theorem canonical_respond {s : State} (h : Canonical s) (c : CmdRec) (status r0 r1 r2 : Nat) : Canonical
    (s.respond c status r0 r1 r2) := by
  unfold State.respond
  dsimp only
  repeat' first | exact h | split

theorem canonical_answerHalt {s : State} (h : Canonical s) (x : Halting) (n : Nat) : Canonical (s.answerHalt x n) := by
  unfold State.answerHalt
  split
  · exact canonical_respond h _ _ _ _ _
  · exact canonical_respond h _ _ _ _ _
  · exact canonical_respond h _ _ _ _ _
  · exact h

theorem canonical_endFarm {s : State} (h : Canonical s) (id : Nat) : Canonical (s.endFarm id) := by
  unfold State.endFarm
  dsimp only
  repeat' first
    | exact h | split | with_reducible apply canonical_drainFarm | with_reducible apply canonical_answerHalt
    | with_reducible apply canonical_finishFarm | with_reducible apply canonical_arriveRaw

theorem canonical_endStrand {s : State} (h : Canonical s) (key : Nat) (res2 : Option Nat) : Canonical (s.endStrand key res2)
    := by
  unfold State.endStrand
  split
  · exact h
  · refine canonical_poll (canonical_endFarm ?_ _)
    have hz (f g : Strand → Strand) (n : Nat) :
        Canonical ((((s.modStrand key f).flushStores key n).unpinAll key).modStrand key g) :=
      canonical_modStrand (canonical_unpinAll (canonical_flushStores (canonical_modStrand h _ _) _ _) _) _ _
    split
    · refine canonical_closeEpoch ?_ _
      split
      · exact hz _ _ _
      · exact canonical_modFarm (hz _ _ _) _ _
    · split
      · exact hz _ _ _
      · exact canonical_modFarm (hz _ _ _) _ _

theorem canonical_performLeft {s : State} (h : Canonical s) (key : Nat) (seq : BitVec 32) (r : GroupRes) :
    Canonical (s.performLeft key seq r) := by
  unfold State.performLeft
  dsimp only
  split
  · exact canonical_draw h
  · exact canonical_modStrand (canonical_performHeld (canonical_draw h) _) _ _

theorem canonical_performLefts {s : State} (h : Canonical s) (key n : Nat) : Canonical (s.performLefts key n) := by
  induction n generalizing s with
  | zero => exact h
  | succ n ih =>
    unfold State.performLefts
    split
    · exact h
    · split
      · exact h
      · exact ih (canonical_performLeft h _ _ _)

theorem canonical_drainStrand {s : State} (h : Canonical s) (key : Nat) : Canonical (s.drainStrand key) := by
  unfold State.drainStrand
  split
  · exact h
  · exact canonical_modStrand (canonical_performLefts h _ _) _ _

theorem canonical_enterHandler {s : State} (h : Canonical s) (i : TrapInfo) : Canonical (s.enterHandler i) := by
  unfold State.enterHandler
  dsimp only
  exact h

theorem canonical_takeTrap {s : State} (h : Canonical s) (i : TrapInfo) : Canonical (s.takeTrap i) := by
  have hd := canonical_drainStrand h s.cur.key
  unfold State.takeTrap
  extract_lets u j
  split
  · split
    · exact canonical_modCur hd _
    · exact canonical_endStrand hd _ _
  · split
    · exact canonical_stall hd
    · exact canonical_enterHandler (canonical_freeze (canonical_modCur hd _)) _

theorem keeps_trap {s : State} (h : Canonical s) (cause : BitVec 8) (addr info : Nat) : Keeps (s.trap cause addr info) :=
  keeps_next (canonical_takeTrap h _)

theorem keeps_jumpTo {s : State} (h : Canonical s) {k : State → State} (t : Word) (hk : Canonical (k s)) :
    Keeps (jumpTo t s k) := by
  unfold jumpTo
  split
  · exact keeps_trap h _ _ _
  · exact keeps_next hk

theorem keeps_execJlr {s : State} (h : Canonical s) (d a : Reg) : Keeps (execJlr d a s) := by
  unfold execJlr
  repeat' first | exact h | with_reducible apply keeps_withRegs | with_reducible apply keeps_jumpTo

theorem keeps_execJr {s : State} (h : Canonical s) (a : Reg) : Keeps (execJr a s) := by
  unfold execJr
  repeat' first | exact h | with_reducible apply keeps_withRegs | with_reducible apply keeps_jumpTo

theorem canonical_putBeat {s : State} (h : Canonical s) (c : BteCmd) (b : Beat) : Canonical (s.putBeat c b) := by
  unfold State.putBeat
  dsimp only
  repeat' first | exact h | split | with_reducible apply canonical_modStrand | with_reducible apply canonical_homeWrite

theorem canonical_deliver {s : State} (h : Canonical s) (die : Bool) (idx n : Nat) : Canonical (s.deliver die idx n) := by
  unfold State.deliver
  repeat' first | exact h | with_reducible apply canonical_poll | with_reducible apply canonical_deliverBytes

theorem canonical_landed {s : State} (h : Canonical s) (bar : BitVec 16) (n : Nat) : Canonical (s.landed bar n) := by
  unfold State.landed
  repeat' first | exact h | split | with_reducible apply canonical_deliver

theorem canonical_endBte {s : State} (h : Canonical s) (c : BteCmd) (status reason : Nat) : Canonical
    (s.endBte c status reason) := by
  unfold State.endBte
  dsimp only
  repeat' first | exact h | split | with_reducible apply canonical_giveAll

theorem canonical_putMark {s : State} (h : Canonical s) (c : BteCmd) : Canonical (s.putMark c) := by
  unfold State.putMark
  dsimp only
  repeat' first | exact h | with_reducible apply canonical_modStrand

theorem canonical_stopBte {s : State} (h : Canonical s) (c : BteCmd) (cause : BitVec 8) : Canonical (s.stopBte c cause) := by
  unfold State.stopBte
  dsimp only
  repeat' first | exact h | split | with_reducible apply canonical_endBte | with_reducible apply canonical_putMark

theorem canonical_servedBeat {s : State} (h : Canonical s) (c : BteCmd) : Canonical (s.servedBeat c) := by
  unfold State.servedBeat
  split <;> exact h

theorem canonical_beat {s : State} (h : Canonical s) (id : Nat) : Canonical (s.beat id) := by
  unfold State.beat
  dsimp only
  repeat' first
    | exact h | split | with_reducible apply canonical_putBeat | with_reducible apply canonical_landed
    | with_reducible apply canonical_stopBte | with_reducible apply canonical_endBte | with_reducible apply canonical_putMark
    | with_reducible apply canonical_mirrorCheck | with_reducible apply canonical_servedBeat

theorem canonical_takeBte {s : State} (h : Canonical s) (key : Nat) : Canonical (s.takeBte key) := by
  unfold State.takeBte
  split
  · exact h
  · split
    · exact h
    · dsimp only
      have ht (f : Strand → Strand) (n : Nat) : Canonical { s.modStrand key f with nextBte := n } := canonical_modStrand h key f
      split
      · exact canonical_endBte (ht _ _) _ _ _
      · split
        · exact canonical_endBte (ht _ _) _ _ _
        · split
          · exact canonical_endBte (ht _ _) _ _ _
          · rename_i e
            have hu := canonical_announceIf e (ht _ _)
            exact hu

theorem keeps_execBteBeat {s : State} (h : Canonical s) (cmd : Nat) : Keeps (execBteBeat cmd s) := by
  unfold execBteBeat
  repeat' first | exact h | with_reducible apply canonical_beat | with_reducible apply keeps_next

theorem keeps_execBteCommandTake {s : State} (h : Canonical s) (key : Nat) : Keeps (execBteCommandTake key s) := by
  unfold execBteCommandTake
  repeat' first | exact h | with_reducible apply canonical_takeBte | with_reducible apply keeps_next

theorem keeps_illegal {s : State} (h : Canonical s) : Keeps (State.illegal s) := by
  unfold State.illegal
  repeat' first | exact h | with_reducible apply keeps_trap

theorem keeps_checked {s : State} (h : Canonical s) {k : State → Res} (ok : Bool) (hk : Keeps (k s)) :
    Keeps (checked ok s k) := by
  unfold checked
  split
  · exact hk
  · exact keeps_illegal h

theorem keeps_execEavail {s : State} (h : Canonical s) (d b : Reg) : Keeps (execEavail d b s) := by
  unfold execEavail
  repeat' first
    | exact h | split | with_reducible apply keeps_checked | with_reducible apply keeps_withRegs
    | with_reducible apply keeps_next

theorem keeps_execEpop {s : State} (h : Canonical s) (d b : Reg) : Keeps (execEpop d b s) := by
  unfold execEpop
  repeat' first
    | exact h | split | with_reducible apply keeps_checked | with_reducible apply keeps_withRegs
    | with_reducible apply canonical_giveAll | with_reducible apply keeps_next

theorem keeps_execEpush {s : State} (h : Canonical s) (d a : Reg) : Keeps (execEpush d a s) := by
  unfold execEpush
  refine keeps_checked h _ (keeps_withRegs _ h _ ?_)
  dsimp only
  split
  · exact keeps_next (canonical_stall h)
  · split
    · exact keeps_next (canonical_stall (canonical_modCur (canonical_modCur h _) _))
    · exact keeps_next (canonical_advance (canonical_modCur h _) _)

theorem canonical_startHand {s : State} (h : Canonical s) (stack : Nat) (target force : Bool) (bar : BitVec 16)
    (resp : Option CmdRec) : Canonical (s.startHand stack target force bar resp) := by
  unfold State.startHand
  dsimp only
  exact h

theorem canonical_castleNow {s : State} (h : Canonical s) (r : CmdRec) : Canonical (s.castleNow r) := by
  unfold State.castleNow
  dsimp only
  repeat' first | exact h | split | with_reducible apply canonical_respond

theorem canonical_castleQueue {s : State} (h : Canonical s) (stack : Nat) : Canonical (s.castleQueue stack) := by
  unfold State.castleQueue
  dsimp only
  repeat' first
    | exact h | assumption | with_reducible apply canonical_castleNow | with_reducible apply canonical_foldl | intro _ _ _

theorem canonical_cleanIn {s : State} (h : Canonical s) (cs : List Nat) (lo hi : Nat) : Canonical (s.cleanIn cs lo hi) := by
  unfold State.cleanIn
  repeat' first
    | exact h | assumption | with_reducible apply canonical_modCore | with_reducible apply canonical_foldl | intro _ _ _

theorem canonical_drainRange {s : State} (h : Canonical s) (lo hi : Nat) : Canonical (s.drainRange lo hi) := by
  unfold State.drainRange
  repeat' first
    | exact h | assumption | with_reducible apply canonical_drainFarm | with_reducible apply canonical_foldl | intro _ _ _

theorem canonical_ownHost {s : State} (h : Canonical s) (port : Bool) (k : Nat) : Canonical (s.ownHost port k) :=
  canonical_addError h _ _ _ _ _

theorem canonical_hostLoad {s : State} (h : Canonical s) (port : Bool) (pa n : Nat) : Canonical (s.hostLoad port pa n) := by
  unfold State.hostLoad
  extract_lets ks
  split
  · exact canonical_lit rfl rfl h
  · exact canonical_lit rfl rfl (canonical_ownHost h _ _)
  · exact canonical_lit rfl rfl (canonical_addError h _ _ _ _ _)
  · exact h

theorem canonical_hostStore {s : State} (h : Canonical s) (port : Bool) (pa : Nat) (data : List Byte) : Canonical
    (s.hostStore port pa data) := by
  unfold State.hostStore
  split
  · exact canonical_homeWrite h _ _
  · exact canonical_ownHost h _ _
  · exact canonical_addError h _ _ _ _ _
  · exact h

theorem canonical_hostAsk {s : State} (h : Canonical s) (port : Bool) (q : HostReq) : Canonical (s.hostAsk port q) := by
  unfold State.hostAsk
  split
  · exact canonical_lit rfl rfl h
  · cases q with
    | read pa n => exact canonical_hostLoad h _ _ _
    | write pa data => exact canonical_hostStore h _ _ _

theorem canonical_askAll {s : State} (h : Canonical s) (l : List (Bool × HostReq)) : Canonical (s.askAll l) := by
  induction l generalizing s with
  | nil => exact h
  | cons x r ih => exact ih (canonical_hostAsk h _ _)

theorem canonical_hostGoOn {s : State} (h : Canonical s) : Canonical s.hostGoOn := canonical_askAll (canonical_lit rfl rfl h) _

theorem canonical_handResp {s : State} (h : Canonical s) (h : HandOver) (status gen dirty pins : Nat) : Canonical
    (s.handResp h status gen dirty pins) := by
  unfold State.handResp
  repeat' first | assumption | split | with_reducible apply canonical_respond

theorem canonical_sendSaves {s : State} (h : Canonical s) : Canonical s.sendSaves :=
  canonical_foldl _ (fun _ _ ht => canonical_putMany (canonical_modStrand ht _ _) _ _) _ h

theorem canonical_handBusy {s : State} (hs : Canonical s) (stack : Nat) (h : HandOver) : Canonical (s.handBusy stack h) :=
  canonical_sendSaves (canonical_hostGoOn (canonical_wake (canonical_handResp (canonical_modStack hs _ _) _ _ _ _ _) _ _))

theorem canonical_arrive {s : State} (h : Canonical s) (die : Bool) (idx : Nat) : Canonical (s.arrive die idx).1 := by
  unfold State.arrive
  dsimp only
  repeat' first | exact h | with_reducible apply canonical_arriveRaw | with_reducible apply canonical_poll

theorem canonical_arrive_eq {s : State} {die : Bool} {idx : Nat} {out : State} {val} (eq : s.arrive die idx = (out, val))
    (h : Canonical s) : Canonical out := by
  have g := canonical_arrive h die idx
  rw [eq] at g
  exact g

theorem canonical_handFlip {s : State} (hs : Canonical s) (stack : Nat) (h : HandOver) (dirty pins : Nat) : Canonical
    (s.handFlip stack h dirty pins) := by
  unfold State.handFlip
  extract_lets gen u v
  have hv : Canonical v :=
    canonical_sendSaves (canonical_hostGoOn (canonical_wake (canonical_handResp (canonical_modStack hs _ _) _ _ _ _ _) _ _))
  split
  · exact canonical_arrive hv _ _
  · exact hv

theorem canonical_settleStores {s : State} (h : Canonical s) (p : Strand → Bool) : Canonical (s.settleStores p) :=
  canonical_foldl _ (fun _ _ ht => canonical_flushStores (canonical_performLefts ht _ _) _ _) _ h

theorem canonical_sendRanks {s : State} (h : Canonical s) (die : Bool) (comm rank : BitVec 16) (kind : BitVec 4) (ps : List (List Byte)) :
    Canonical (s.sendRanks die comm rank kind ps).1 := by
  unfold State.sendRanks
  refine canonical_foldl_pair _ (fun z m hz => ?_) _ h
  refine canonical_foldl_pair _ (fun w p hw => ?_) ps hz
  exact canonical_sendFlit hw _ _ _ _

theorem canonical_endColl {s : State} (h : Canonical s) (c : CollCmd) (status reason : Nat) : Canonical
    (s.endColl c status reason) := by
  unfold State.endColl
  dsimp only
  repeat' first | exact h | with_reducible apply canonical_giveAll

theorem canonical_settleColl {s : State} (h : Canonical s) (c : CollCmd) (status : Nat) : Canonical (s.settleColl c status) := by
  unfold State.settleColl
  split
  · exact h
  · split
    · exact h
    · exact canonical_deliver h _ _ _

theorem canonical_failColl {s : State} (h : Canonical s) (c : CollCmd) (status reason : Nat) : Canonical
    (s.failColl c status reason) :=
  canonical_endColl (canonical_settleColl h _ _) _ _ _

theorem canonical_tell {s : State} (h : Canonical s) (c : CollCmd) (status : Nat) : Canonical (s.tell c status).1 :=
  canonical_sendRanks h _ _ _ _ _

theorem canonical_linkFail {s : State} (h : Canonical s) (c : CollCmd) : Canonical (s.linkFail c) :=
  canonical_tell (canonical_failColl h _ _ _) _ _

theorem canonical_judgeColl {s : State} (h : Canonical s) (c : CollCmd) : Canonical (s.judgeColl c) := by
  unfold State.judgeColl
  split
  · exact h
  · split
    · exact canonical_endColl h _ _ _
    · exact canonical_failColl h _ _ _

theorem canonical_modColl {s : State} (h : Canonical s) (c : CollCmd) : Canonical (s.modColl c) := by
  unfold State.modColl
  exact h

theorem canonical_rankFail {s : State} (h : Canonical s) (c : CollCmd) (status reason : Nat) : Canonical
    (s.rankFail c status reason) := by
  unfold State.rankFail
  extract_lets u st c' z
  have hu : Canonical u := canonical_either (canonical_settleColl h _ _) h
  have hz : Canonical z.1 := canonical_tell (canonical_modColl hu _) _ _
  exact canonical_either (canonical_judgeColl hz _) (canonical_linkFail hz _)

theorem canonical_stopColl {s : State} (h : Canonical s) (c : CollCmd) (cause : BitVec 8) : Canonical (s.stopColl c cause) :=
  canonical_rankFail h _ _ _

theorem canonical_stopTransfers {s : State} (h : Canonical s) (key : Nat) (k : BitVec 3) : Canonical (s.stopTransfers key k)
    := by
  unfold State.stopTransfers
  dsimp only
  repeat' first
    | exact h | assumption | with_reducible apply canonical_stopBte | with_reducible apply canonical_stopColl
    | with_reducible apply canonical_foldl | intro _ _ _

theorem canonical_saveRevoke {s : State} (h : Canonical s) (t : Strand) (k : Nat) (p : Pin) (hit : Option (Nat × VEntry)) :
    Canonical (s.saveRevoke t k p hit) := by
  have hu := canonical_putWords h t (0x480 + 32 * (k - 1)) (pinWords p)
  cases hit with
  | none => exact hu
  | some x => exact canonical_putSave (canonical_putSave (canonical_putSave hu _ _ _ _) _ _ _ _) _ _ _ _

theorem canonical_revokePin {s : State} (h : Canonical s) (key : Nat) (k : BitVec 3) : Canonical (s.revokePin key k) := by
  unfold State.revokePin
  have h0 := canonical_drainStrand h key
  extract_lets s0
  change Canonical s0 at h0
  clear_value s0
  split
  · exact h0
  · extract_lets p works p' es hit mark u v
    have hv : Canonical v := canonical_stopTransfers (canonical_freeRun (canonical_modStrand h0 _ _) _ _ _) _ _
    clear_value v
    split
    · exact canonical_saveRevoke hv _ _ _ _
    · exact hv

theorem canonical_revokeWhere {s : State} (h : Canonical s) (f : Strand → Pin → Bool) : Canonical (s.revokeWhere f).2 := by
  unfold State.revokeWhere
  dsimp only
  repeat' first
    | exact h | assumption | with_reducible apply canonical_revokePin | with_reducible apply canonical_foldl | intro _ _ _

theorem canonical_revokeWhere_eq {s : State} {f : Strand → Pin → Bool} {out : State} {val}
    (eq : s.revokeWhere f = (val, out)) (h : Canonical s) : Canonical out := by
  have g := canonical_revokeWhere h f
  rw [eq] at g
  exact g

theorem canonical_revokeKeys {s : State} (h : Canonical s) (f : Strand → Bool) (lo hi : Nat) : Canonical
    (s.revokeKeys f lo hi).2 := by
  unfold State.revokeKeys
  repeat' first | exact h | with_reducible apply canonical_revokeWhere

theorem canonical_revokeKeys_eq {s : State} {f : Strand → Bool} {lo : Nat} {hi : Nat} {out : State} {val}
    (eq : s.revokeKeys f lo hi = (val, out)) (h : Canonical s) : Canonical out := by
  have g := canonical_revokeKeys h f lo hi
  rw [eq] at g
  exact g

theorem canonical_shootIn {s : State} (h : Canonical s) (cs : List Nat) (lo hi : Nat) : Canonical (s.shootIn cs lo hi) := by
  unfold State.shootIn
  repeat' first
    | exact h | assumption | with_reducible apply canonical_modCore | with_reducible apply canonical_foldl | intro _ _ _

theorem canonical_handEnd {s : State} (hs : Canonical s) (stack : Nat) (h : HandOver) : Canonical (s.handEnd stack h) := by
  have hv : Canonical ((s.drainRange (stackLo stack) (stackHi stack)).cleanIn
      ((s.drainRange (stackLo stack) (stackHi stack)).coresOf h.source) (stackLo stack) (stackHi stack)) :=
    canonical_cleanIn (canonical_drainRange hs _ _) _ _ _
  unfold State.handEnd
  exact canonical_either (canonical_castleQueue (canonical_handBusy hv _ _) _)
    (canonical_castleQueue (canonical_handFlip (canonical_shootIn (canonical_revokeKeys hv _ _ _) _ _ _) _ _ _ _) _)

theorem canonical_handOver {s : State} (h : Canonical s) (stack : Nat) : Canonical (s.handOver stack) := by
  unfold State.handOver
  split
  · exact h
  · extract_lets mine u
    have hu : Canonical u := canonical_settleStores h _
    clear_value u
    split
    · exact hu
    · exact canonical_poll (canonical_handEnd hu _ _)

theorem keeps_execCastle {s : State} (h : Canonical s) (d a b : Reg) : Keeps (execCastle d a b s) := by
  unfold execCastle
  refine keeps_withRegs _ h _ ?_
  dsimp only
  repeat' split
  all_goals exact keeps_next h

theorem keeps_execCastq {s : State} (h : Canonical s) (d a : Reg) : Keeps (execCastq d a s) := by
  unfold execCastq
  dsimp only
  repeat' first | exact h | with_reducible apply keeps_withRegs | with_reducible apply keeps_next

theorem keeps_execHandOver {s : State} (h : Canonical s) (stack : BitVec 3) : Keeps (execHandOver stack s) := by
  unfold execHandOver
  repeat' first | exact h | with_reducible apply canonical_handOver | with_reducible apply keeps_next

theorem canonical_collSend {s : State} (h : Canonical s) (t : Strand) (n : Nat) (c : CollCmd) : Canonical (s.collSend t n c)
    := by
  unfold State.collSend
  extract_lets bytes
  split
  · split
    · exact canonical_stopColl (canonical_mirrorCheck h _ _) _ _
    · exact h
  · extract_lets c' r
    have hr : Canonical r.1 := canonical_sendRanks (canonical_modColl h _) _ _ _ _ _
    clear_value r
    split
    · exact hr
    · exact canonical_linkFail hr _

theorem canonical_collWrite {s : State} (h : Canonical s) (t : Strand) (n : Nat) (c : CollCmd) : Canonical
    (s.collWrite t n c) := by
  unfold State.collWrite
  extract_lets r
  split
  · exact h
  · extract_lets c' u
    have hu : Canonical u := canonical_landed (canonical_homeWrite (canonical_modColl h _) _ _) _ _
    clear_value u
    split
    · exact canonical_stopColl (canonical_mirrorCheck hu _ _) _ _
    · exact canonical_either (canonical_tell (canonical_modColl hu _) _ _) (canonical_linkFail hu _)

theorem canonical_collStage {s : State} (h : Canonical s) (die : Bool) (comm : BitVec 16) (k : BitVec 32) : Canonical
    (s.collStage die comm k) := by
  unfold State.collStage
  split
  · exact h
  · split
    · exact h
    · extract_lets n
      split
      · split
        · exact h
        · split
          · exact canonical_rankFail h _ _ _
          · split
            · refine canonical_endColl ?_ _ _ _
              show Canonical (if _ then _ else _)
              split
              · exact canonical_arrive h _ _
              · exact h
            · exact canonical_collSend h _ _ _
      · split
        · exact canonical_collWrite h _ _ _
        · exact h
      · exact canonical_judgeColl h _

theorem canonical_collGo {s : State} (h : Canonical s) (die : Bool) (comm : BitVec 16) (k : BitVec 32) : Canonical
    (s.collGo die comm k) := by
  unfold State.collGo
  repeat' first | exact h | with_reducible apply canonical_collStage

theorem canonical_collCtl {s : State} (h : Canonical s) (c : CollCmd) (r : CtlRec) : Canonical (s.collCtl c r) := by
  unfold State.collCtl
  dsimp only
  split
  · exact canonical_either (canonical_linkFail h _)
      (canonical_either (canonical_rankFail (canonical_modColl h _) _ _ _) (canonical_collGo (canonical_modColl h _) _ _ _))
  · exact canonical_collGo (canonical_modColl h _) _ _ _

theorem canonical_collData {s : State} (h : Canonical s) (c : CollCmd) (p : List Byte) : Canonical (s.collData c p) := by
  unfold State.collData
  dsimp only
  repeat' first | exact h | split | with_reducible apply canonical_collGo

theorem canonical_keepEarly {s : State} (h : Canonical s) (m : EarlyMsg) : Canonical (s.keepEarly m) := by
  unfold State.keepEarly
  dsimp only
  split
  · split
    · exact canonical_sendRanks (canonical_lit rfl rfl h) _ _ _ _ _
    · exact h
  · exact h

theorem canonical_collReceive {s : State} (h : Canonical s) (die : Bool) (kind : BitVec 4) (p : List Byte) : Canonical
    (s.collReceive die kind p) := by
  unfold State.collReceive
  dsimp only
  split
  · exact canonical_either (canonical_collCtl h _ _) (canonical_collData h _ _)
  · exact canonical_either (canonical_keepEarly h _) h

theorem canonical_replayEarly {s : State} (h : Canonical s) (l : List EarlyMsg) : Canonical (s.replayEarly l) := by
  induction l generalizing s with
  | nil => exact h
  | cons m r ih =>
    unfold State.replayEarly
    exact ih (canonical_collReceive h _ _ _)

theorem canonical_heardColl {s : State} (h : Canonical s) (c : CollCmd) : Canonical (s.heardColl c) :=
  canonical_collGo (canonical_replayEarly (canonical_lit rfl rfl h) _) _ _ _

theorem canonical_turnDown {s : State} (h : Canonical s) (c : CollCmd) (status reason : Nat) : Canonical
    (s.turnDown c status reason) :=
  canonical_heardColl (canonical_rankFail (canonical_lit rfl rfl h) _ _ _) _

theorem canonical_joinColl {s : State} (h : Canonical s) (c : CollCmd) : Canonical (s.joinColl c) := by
  unfold State.joinColl
  extract_lets kind z
  have hz : Canonical z.1 := canonical_sendRanks (canonical_lit rfl rfl h) _ _ _ _ _
  exact canonical_either (canonical_heardColl hz _) (canonical_linkFail hz _)

theorem canonical_takeColl {s : State} (h : Canonical s) (key : Nat) (t : Strand) : Canonical (s.takeColl key t) := by
  unfold State.takeColl
  extract_lets w comm ck k id src u
  have hu : Canonical u := canonical_lit rfl rfl (canonical_modStrand h _ _)
  clear_value u
  split
  · exact canonical_endColl hu _ _ _
  · extract_lets c
    rename_i n v _ _ _
    have hv : Canonical v := canonical_lit rfl rfl hu
    clear_value v
    split
    · exact canonical_turnDown hv _ _ _
    · split
      · exact canonical_heardColl (canonical_endColl (canonical_sendRanks hv _ _ _ _ _) _ _ _) _
      · split
        · exact canonical_turnDown hv _ _ _
        · split
          · exact canonical_turnDown hv _ _ _
          · rename_i e
            exact canonical_joinColl (canonical_announceIf e hv) _

theorem keeps_execCollectiveCommandTake {s : State} (h : Canonical s) (key : Nat) : Keeps (execCollectiveCommandTake key s)
    := by
  unfold execCollectiveCommandTake
  repeat' first
    | exact h | assumption | split | with_reducible apply canonical_takeColl | with_reducible apply canonical_collGo
    | with_reducible apply keeps_next | with_reducible apply canonical_foldl | intro _ _ _

theorem canonical_keepMemory {s : State} (h : Canonical s) {base : State} (hb : Canonical base) : Canonical
    (s.keepMemory base) :=
  ⟨mem_filter_wf h.1 _, hb.2⟩

theorem canonical_beginStart {s : State} (h : Canonical s) (cold : Bool) (r : Option CmdRec) : Canonical
    (s.beginStart cold r) :=
  canonical_keepMemory h ⟨mem_nil_wf, List.Pairwise.nil⟩

theorem keeps_execPowerRestore {s : State} (h : Canonical s) : Keeps (execPowerRestore s) := by
  unfold execPowerRestore
  refine keeps_next ?_
  split
  · exact ⟨mem_nil_wf, (canonical_beginStart h true none).2⟩
  · exact h

theorem canonical_failStart {s : State} (h : Canonical s) : Canonical (s.failStart) := by
  unfold State.failStart
  dsimp only
  repeat' first | exact h | split | with_reducible apply canonical_addError | with_reducible apply canonical_beginStart

theorem keeps_execStartStepTimeout {s : State} (h : Canonical s) : Keeps (execStartStepTimeout s) := by
  unfold execStartStepTimeout
  repeat' first | exact h | split | with_reducible apply canonical_failStart | with_reducible apply keeps_next

theorem canonical_powerDown (s : State) : Canonical s.powerDown := ⟨mem_nil_wf, List.Pairwise.nil⟩

theorem canonical_measure {s : State} (h : Canonical s) : Canonical s.measure := canonical_lit rfl rfl (canonical_draw h)

theorem canonical_setClockDown {s : State} (h : Canonical s) (die : Bool) (n : Nat) : Canonical (s.setClockDown die n) := by
  unfold State.setClockDown
  repeat' first | exact h | split

theorem canonical_stopAll {s : State} (h : Canonical s) (key : Nat) : Canonical (s.stopAll key) := by
  unfold State.stopAll
  dsimp only
  repeat' first
    | exact h | assumption | with_reducible apply canonical_stopBte | with_reducible apply canonical_stopColl
    | with_reducible apply canonical_foldl | intro _ _ _ | with_reducible apply canonical_either
    | with_reducible apply canonical_settleColl

theorem canonical_discard {s : State} (h : Canonical s) (key : Nat) : Canonical (s.discard key) := by
  unfold State.discard
  split
  · exact h
  · exact canonical_modStrand (canonical_unpinAll (canonical_flushStores (canonical_modStrand (canonical_stopAll h _) _ _) _ _) _) _ _

theorem canonical_discardFarm {s : State} (h : Canonical s) (id : Nat) : Canonical (s.discardFarm id) := by
  unfold State.discardFarm
  exact canonical_drainFarm (canonical_foldl _ (fun t u ht => canonical_discard ht u.key) _ h) _ _

theorem canonical_trip {s : State} (h : Canonical s) (sensor : BitVec 3) : Canonical (s.trip sensor) := by
  unfold State.trip
  extract_lets u v w
  exact canonical_lit rfl rfl (canonical_powerDown w)

theorem keeps_execThrottle {s : State} (h : Canonical s) (die : Bool) (sensor : BitVec 3) (temp : BitVec 16) : Keeps
    (execThrottle die sensor temp s) := by
  unfold execThrottle
  split
  · exact keeps_next h
  · extract_lets y x u
    have hu : Canonical u := canonical_measure (canonical_lit rfl rfl h)
    clear_value u
    split
    · refine keeps_next ?_
      split
      · exact canonical_lit rfl rfl (canonical_powerDown u)
      · exact hu
    · split
      · exact keeps_next hu
      · split
        · exact keeps_next (canonical_setClockDown hu _ _)
        · refine keeps_next ?_
          split
          · exact canonical_trip hu _
          · exact hu

theorem keeps_execClockStepUp {s : State} (h : Canonical s) (die : Bool) : Keeps (execClockStepUp die s) := by
  unfold execClockStepUp
  extract_lets u
  have hu : Canonical u := canonical_measure h
  clear_value u
  split
  · exact keeps_next hu
  · exact keeps_next (canonical_setClockDown hu _ _)

theorem keeps_execCommandRecordRefused {s : State} (h : Canonical s) (off len : Nat) : Keeps
    (execCommandRecordRefused off len s) := by
  unfold execCommandRecordRefused
  repeat' first | exact h | split | with_reducible apply keeps_next

theorem keeps_execResponsePortRead {s : State} (h : Canonical s) : Keeps (execResponsePortRead s) := by
  unfold execResponsePortRead
  dsimp only
  repeat' first | exact h | split | with_reducible apply keeps_next

theorem keeps_execCompletionNotice {s : State} (h : Canonical s) : Keeps (execCompletionNotice s) := by
  unfold execCompletionNotice
  repeat' first | exact h | split | with_reducible apply keeps_next

theorem keeps_execHostCxlMemRead {s : State} (h : Canonical s) (port : Bool) (pa : BitVec 52) (n : Nat) : Keeps
    (execHostCxlMemRead port pa n s) := keeps_next (canonical_hostAsk h _ _)

theorem keeps_execHostCxlMemWrite {s : State} (h : Canonical s) (port : Bool) (pa : BitVec 52) (data : List Byte) : Keeps
    (execHostCxlMemWrite port pa data s) := keeps_next (canonical_hostAsk h _ _)

theorem keeps_status {s : State} (h : Canonical s) (r : CmdRec) (n : Nat) : Keeps (State.status s r n) := by
  unfold State.status
  repeat' first | exact h | with_reducible apply canonical_respond | with_reducible apply keeps_next

theorem keeps_pscCmd {s : State} (h : Canonical s) {k : State → Res} (r : CmdRec) (flags : Nat) (device ok : Bool)
    (hk : Keeps (k s)) :
    Keeps (pscCmd r flags device ok s k) := by
  unfold pscCmd
  split
  · split
    · exact keeps_status h _ _
    · split
      · exact keeps_status h _ _
      · exact hk
  · exact keeps_status h _ _
  · exact keeps_status h _ _
  · exact keeps_next h

theorem keeps_execIdentify {s : State} (h : Canonical s) (r : CmdRec) : Keeps (execIdentify r s) := by
  unfold execIdentify
  dsimp only
  repeat' first
    | exact h | split | with_reducible apply keeps_pscCmd | with_reducible apply canonical_homeWrite
    | with_reducible apply canonical_respond | with_reducible apply keeps_next

theorem keeps_execAttest {s : State} (h : Canonical s) (r : CmdRec) : Keeps (execAttest r s) := by
  unfold execAttest
  exact keeps_pscCmd h _ _ _ _ (keeps_next (canonical_respond (canonical_homeWrite h _ _) _ _ _ _ _))

theorem canonical_forget {s : State} (h : Canonical s) (k : Nat) : Canonical (s.forget k) := by
  unfold State.forget
  repeat' first
    | exact h | assumption | with_reducible apply canonical_modCore | with_reducible apply canonical_foldl | intro _ _ _

theorem canonical_loadBytes {s : State} (h : Canonical s) (p : BitVec 3) (bs : List Byte) (va : Nat) :
    Canonical (State.loadBytes p bs va s).1 := by
  induction bs generalizing s va with
  | nil => exact h
  | cons b r ih =>
    unfold State.loadBytes
    split
    · exact h
    · exact ih (canonical_forget (canonical_homeWrite h _ _) _) _

theorem canonical_loadBytes_eq {p : BitVec 3} {x1 : List Byte} {x2 : Nat} {x3 : State} {out : State} {val}
    (eq : State.loadBytes p x1 x2 x3 = (out, val)) (h : Canonical x3) : Canonical out := by
  have g := canonical_loadBytes h p x1 x2
  rw [eq] at g
  exact g

theorem canonical_loadSections {s : State} (h : Canonical s) (p : BitVec 3) (pa : Nat) (l : List Section) :
    Canonical (State.loadSections p pa l s).1 := by
  induction l generalizing s with
  | nil => exact h
  | cons x r ih =>
    unfold State.loadSections
    split
    · split
      · rename_i e
        exact ih (canonical_loadBytes_eq e h)
      · rename_i e
        exact canonical_loadBytes_eq e h
    · exact ih h

theorem canonical_loadSections_eq {p : BitVec 3} {pa : Nat} {x1 : List Section} {x2 : State} {out : State} {val}
    (eq : State.loadSections p pa x1 x2 = (out, val)) (h : Canonical x2) : Canonical out := by
  have g := canonical_loadSections h p pa x1
  rw [eq] at g
  exact g

theorem keeps_execLoadImage {s : State} (h : Canonical s) (r : CmdRec) : Keeps (execLoadImage r s) := by
  unfold execLoadImage
  dsimp only
  repeat' first
    | exact h | split | with_reducible apply keeps_pscCmd | with_reducible apply keeps_status
    | (with_reducible apply canonical_loadSections_eq; assumption) | with_reducible apply canonical_respond
    | with_reducible apply canonical_modPart | with_reducible apply keeps_next

theorem keeps_startCmd {s : State} (h : Canonical s) {k : State → Res} (r : CmdRec) (hk : Keeps (k s)) :
    Keeps (startCmd r s k) := by
  unfold startCmd
  refine keeps_pscCmd h _ _ _ _ ?_
  split
  · exact keeps_status h _ _
  · exact hk

theorem canonical_queueFarm {s : State} (h : Canonical s) (d : Fdesc) (notify : Option CmdRec) : Canonical
    (s.queueFarm d notify).1 := by
  unfold State.queueFarm
  dsimp only
  repeat' first | exact h | with_reducible apply canonical_poll

theorem canonical_queueFarm_eq {s : State} {d : Fdesc} {notify : Option CmdRec} {out : State} {val}
    (eq : s.queueFarm d notify = (out, val)) (h : Canonical s) : Canonical out := by
  have g := canonical_queueFarm h d notify
  rw [eq] at g
  exact g

theorem keeps_startDesc {s : State} (h : Canonical s) (r : CmdRec) (d : Fdesc) : Keeps (State.startDesc s r d) := by
  unfold State.startDesc
  dsimp only
  repeat' first
    | exact h | split | with_reducible apply keeps_status | with_reducible apply canonical_queueFarm
    | with_reducible apply canonical_respond | with_reducible apply keeps_next

theorem keeps_execStartFarm {s : State} (h : Canonical s) (r : CmdRec) : Keeps (execStartFarm r s) := by
  unfold execStartFarm
  repeat' first
    | exact h | split | with_reducible apply keeps_startCmd | with_reducible apply keeps_status
    | with_reducible apply keeps_startDesc

theorem keeps_execStartFarmDirect {s : State} (h : Canonical s) (r : CmdRec) : Keeps (execStartFarmDirect r s) := by
  unfold execStartFarmDirect
  repeat' first
    | exact h | split | with_reducible apply keeps_startCmd | with_reducible apply keeps_status
    | with_reducible apply keeps_startDesc

theorem keeps_execStartFarmResume {s : State} (h : Canonical s) (r : CmdRec) : Keeps (execStartFarmResume r s) := by
  unfold execStartFarmResume
  dsimp only
  repeat' first
    | exact h | split | with_reducible apply keeps_startCmd | with_reducible apply keeps_status
    | with_reducible apply canonical_respond | with_reducible apply canonical_poll | with_reducible apply canonical_modFarm
    | with_reducible apply keeps_next

theorem canonical_stopFarm {s : State} (h : Canonical s) (f : Farm) (o : Option CmdRec) : Canonical (s.stopFarm f o) := by
  unfold State.stopFarm
  dsimp only
  repeat' first
    | exact h | split | with_reducible apply canonical_respond | with_reducible apply canonical_poll
    | with_reducible apply canonical_finishFarm | with_reducible apply canonical_discardFarm

theorem keeps_execStopFarm {s : State} (h : Canonical s) (r : CmdRec) : Keeps (execStopFarm r s) := by
  unfold execStopFarm
  repeat' first
    | exact h | split | with_reducible apply keeps_pscCmd | with_reducible apply keeps_status
    | with_reducible apply canonical_stopFarm | with_reducible apply keeps_next

theorem keeps_execPreempt {s : State} (h : Canonical s) (r : CmdRec) : Keeps (execPreempt r s) := by
  unfold execPreempt
  repeat' first
    | exact h | split | with_reducible apply keeps_pscCmd | with_reducible apply keeps_status
    | with_reducible apply keeps_next

theorem keeps_execQueryFarm {s : State} (h : Canonical s) (r : CmdRec) : Keeps (execQueryFarm r s) := by
  unfold execQueryFarm
  repeat' first
    | exact h | split | with_reducible apply keeps_pscCmd | with_reducible apply keeps_status
    | with_reducible apply canonical_respond | with_reducible apply keeps_next

theorem canonical_setPart {s : State} (h : Canonical s) (p : Nat) (q : Option Part) : Canonical (s.setPart p q) := by
  unfold State.setPart
  exact h

theorem keeps_execPartitionCreate {s : State} (h : Canonical s) (r : CmdRec) : Keeps (execPartitionCreate r s) := by
  unfold execPartitionCreate
  dsimp only
  repeat' first
    | exact h | split | with_reducible apply keeps_status | with_reducible apply canonical_respond
    | with_reducible apply canonical_poll | with_reducible apply keeps_next

theorem canonical_endPart {s : State} (h : Canonical s) (p : Nat) : Canonical (s.endPart p) := by
  unfold State.endPart
  dsimp only
  exact h

theorem keeps_execPartitionDestroy {s : State} (h : Canonical s) (r : CmdRec) : Keeps (execPartitionDestroy r s) := by
  unfold execPartitionDestroy
  dsimp only
  repeat' first
    | exact h | assumption | split | with_reducible apply keeps_pscCmd | with_reducible apply keeps_status
    | with_reducible apply canonical_stopFarm | with_reducible apply canonical_poll | with_reducible apply canonical_respond
    | with_reducible apply canonical_endPart | with_reducible apply keeps_next | with_reducible apply canonical_foldl
    | intro _ _ _

theorem keeps_execSetSlots {s : State} (h : Canonical s) (r : CmdRec) : Keeps (execSetSlots r s) := by
  unfold execSetSlots
  exact keeps_pscCmd h _ _ _ _ (keeps_next (canonical_respond
    (canonical_foldl _ (fun _ i hs => canonical_modStack hs i _) _ h) _ _ _ _ _))

theorem keeps_execSetPageBase {s : State} (h : Canonical s) (r : CmdRec) : Keeps (execSetPageBase r s) := by
  unfold execSetPageBase
  repeat' first
    | exact h | split | with_reducible apply keeps_pscCmd | with_reducible apply keeps_status
    | with_reducible apply canonical_respond | with_reducible apply keeps_next

theorem keeps_execPinRevoke {s : State} (h : Canonical s) (r : CmdRec) : Keeps (execPinRevoke r s) := by
  unfold execPinRevoke
  dsimp only
  repeat' first
    | exact h | with_reducible apply keeps_pscCmd | with_reducible apply canonical_revokeWhere
    | with_reducible apply canonical_respond | with_reducible apply keeps_next

theorem keeps_execCastleStack {s : State} (h : Canonical s) (r : CmdRec) : Keeps (execCastleStack r s) := by
  unfold execCastleStack
  repeat' first
    | exact h | with_reducible apply keeps_pscCmd | with_reducible apply canonical_castleNow | with_reducible apply keeps_next

theorem keeps_execReadErrors {s : State} (h : Canonical s) (r : CmdRec) : Keeps (execReadErrors r s) := by
  unfold execReadErrors
  dsimp only
  repeat' first
    | exact h | split | with_reducible apply keeps_pscCmd | with_reducible apply canonical_homeWrite
    | with_reducible apply canonical_respond | with_reducible apply keeps_next

theorem keeps_scrubAnswer {s : State} (h : Canonical s) (r : CmdRec) : Keeps (State.scrubAnswer s r) := by
  unfold State.scrubAnswer
  repeat' first | exact h | with_reducible apply canonical_respond | with_reducible apply keeps_next

theorem keeps_execScrubQuery {s : State} (h : Canonical s) (r : CmdRec) : Keeps (execScrubQuery r s) := by
  unfold execScrubQuery
  repeat' first | exact h | with_reducible apply keeps_pscCmd | with_reducible apply keeps_scrubAnswer

theorem canonical_scrubPass {s : State} (h : Canonical s) (mask lo hi : Nat) : Canonical (s.scrubPass mask lo hi) :=
  canonical_foldl _ (fun _ _ ht => canonical_modStack ht _ _) _ h

theorem keeps_execScrubFullPass {s : State} (h : Canonical s) (r : CmdRec) : Keeps (execScrubFullPass r s) := by
  unfold execScrubFullPass
  repeat' first
    | exact h | with_reducible apply keeps_pscCmd | with_reducible apply keeps_scrubAnswer
    | with_reducible apply canonical_scrubPass

theorem keeps_execScrubRange {s : State} (h : Canonical s) (r : CmdRec) : Keeps (execScrubRange r s) := by
  unfold execScrubRange
  repeat' first
    | exact h | with_reducible apply keeps_pscCmd | with_reducible apply keeps_scrubAnswer
    | with_reducible apply canonical_scrubPass

theorem canonical_rerouteFlow {s : State} (h : Canonical s) (x : TxFlow) : Canonical (s.rerouteFlow x) := by
  unfold State.rerouteFlow
  dsimp only
  repeat' first | exact h | split | with_reducible apply canonical_putWire

theorem canonical_reroute {s : State} (h : Canonical s) : Canonical (s.reroute) := by
  unfold State.reroute
  repeat' first
    | exact h | assumption | with_reducible apply canonical_rerouteFlow | with_reducible apply canonical_foldl | intro _ _ _

theorem canonical_addRoute {s : State} (h : Canonical s) (x : Nat) : Canonical (s.addRoute x) := by
  unfold State.addRoute
  dsimp only
  repeat' first | exact h | split

theorem canonical_addMember {s : State} (h : Canonical s) (x : Nat) : Canonical (s.addMember x) := by
  unfold State.addMember
  dsimp only
  exact h

theorem canonical_modLink {s : State} (h : Canonical s) (n : Nat) (f : Link → Link) : Canonical (s.modLink n f) := by
  unfold State.modLink
  exact h

theorem canonical_raiseLink {s : State} (h : Canonical s) (n : Nat) : Canonical (s.raiseLink n).1 := by
  unfold State.raiseLink
  dsimp only
  repeat' first | exact h | split | with_reducible apply canonical_reroute

theorem canonical_raiseLink_eq {s : State} {n : Nat} {out : State} {val} (eq : s.raiseLink n = (out, val)) (h : Canonical s)
    : Canonical out := by
  have g := canonical_raiseLink h n
  rw [eq] at g
  exact g

theorem canonical_loseBarriers {s : State} (h : Canonical s) (link : Nat) (l : List (BitVec 4 × List Byte)) :
    Canonical (s.loseBarriers link l) := by
  induction l generalizing s with
  | nil => exact h
  | cons x r ih =>
    unfold State.loseBarriers
    split
    · exact ih (canonical_addError h _ _ _ _ _)
    · exact ih h

theorem canonical_sendWaiting {s : State} (h : Canonical s) (l : List (Bool × BitVec 12 × BitVec 4 × List Byte)) :
    Canonical (s.sendWaiting l) := by
  induction l generalizing s with
  | nil => exact h
  | cons x r ih =>
    unfold State.sendWaiting
    exact ih (canonical_sendFlit h _ _ _ _)

theorem canonical_sendOn {s : State} (h : Canonical s) : Canonical s.sendOn := canonical_sendWaiting (canonical_lit rfl rfl h) _

theorem canonical_failFlow {s : State} (h : Canonical s) (link : Nat) (die : Bool) (flow : BitVec 12) :
    Canonical (s.failFlow link die flow) := by
  unfold State.failFlow
  split
  · exact h
  · extract_lets waiting src u v w
    have hw : Canonical w := canonical_sendOn (canonical_loseBarriers (canonical_loseBarriers (canonical_lit rfl rfl h) _ _) _ _)
    clear_value w
    exact canonical_foldl _ (fun _ c ht => canonical_linkFail ht c) _ hw

theorem canonical_linkDown {s : State} (h : Canonical s) (n : Nat) : Canonical (s.linkDown n) :=
  canonical_foldl _ (fun _ _ ht => canonical_failFlow ht n _ _) _
    (canonical_reroute (canonical_addError (canonical_modLink h _ _) _ _ _ _ _))

theorem canonical_lowerLink {s : State} (h : Canonical s) (n : Nat) : Canonical (s.lowerLink n) := by
  unfold State.lowerLink
  repeat' first | exact h | split | with_reducible apply canonical_linkDown

theorem canonical_applyLink {s : State} (h : Canonical s) (x : Nat) : Canonical (s.applyLink x).1 := by
  unfold State.applyLink
  dsimp only
  repeat' first
    | exact h | split | with_reducible apply canonical_reroute | with_reducible apply canonical_addRoute
    | with_reducible apply canonical_raiseLink | with_reducible apply canonical_lowerLink

theorem canonical_applyLink_eq {s : State} {x : Nat} {out : State} {val} (eq : s.applyLink x = (out, val)) (h : Canonical s)
    : Canonical out := by
  have g := canonical_applyLink h x
  rw [eq] at g
  exact g

theorem canonical_applyLinks {s : State} (h : Canonical s) (l : List Nat) (i : Nat) : Canonical (State.applyLinks l i s).1 :=
    by
  induction l generalizing s i with
  | nil => exact h
  | cons x r ih =>
    unfold State.applyLinks
    split
    · rename_i e
      exact ih (canonical_applyLink_eq e h) _
    · rename_i e
      exact canonical_applyLink_eq e h

theorem canonical_applyLinks_eq {x1 : List Nat} {x2 : Nat} {x3 : State} {out : State} {val}
    (eq : State.applyLinks x1 x2 x3 = (out, val)) (h : Canonical x3) : Canonical out := by
  have g := canonical_applyLinks h x1 x2
  rw [eq] at g
  exact g

theorem keeps_execLinkConfig {s : State} (h : Canonical s) (r : CmdRec) : Keeps (execLinkConfig r s) := by
  unfold execLinkConfig
  dsimp only
  repeat' first
    | exact h | split | with_reducible apply keeps_pscCmd | with_reducible apply canonical_respond
    | (with_reducible apply canonical_applyLinks_eq; assumption) | with_reducible apply keeps_next

theorem canonical_clearKeys {s : State} (h : Canonical s) (lo hi : Nat) : Canonical (s.clearKeys lo hi) :=
  ⟨mem_filter_wf h.1 _, h.2⟩

theorem keeps_execDcdAccept {s : State} (h : Canonical s) (r : CmdRec) : Keeps (execDcdAccept r s) := by
  unfold execDcdAccept
  dsimp only
  repeat' first
    | exact h | split | with_reducible apply keeps_pscCmd | with_reducible apply keeps_status
    | with_reducible apply canonical_respond | with_reducible apply canonical_clearKeys | with_reducible apply keeps_next

theorem keeps_release {s : State} (h : Canonical s) (r : CmdRec) (force : Bool) : Keeps (State.release s r force) := by
  unfold State.release
  dsimp only
  repeat' first
    | exact h | split | with_reducible apply keeps_pscCmd | with_reducible apply keeps_status
    | with_reducible apply canonical_revokeKeys | with_reducible apply keeps_next

theorem keeps_execDcdRelease {s : State} (h : Canonical s) (r : CmdRec) : Keeps (execDcdRelease r s) := by
  unfold execDcdRelease
  repeat' first | exact h | with_reducible apply keeps_release

theorem keeps_execDcdReleaseForced {s : State} (h : Canonical s) (r : CmdRec) : Keeps (execDcdReleaseForced r s) := by
  unfold execDcdReleaseForced
  repeat' first | exact h | with_reducible apply keeps_release

theorem canonical_loseLines {s : State} (h : Canonical s) (e : Extent) : Canonical (s.loseLines e) := by
  unfold State.loseLines
  dsimp only
  split
  · exact h
  · exact canonical_addError (canonical_lit rfl rfl h) _ _ _ _ _

theorem canonical_dropExtent {s : State} (h : Canonical s) (e : Extent) (forced : Bool) : Canonical
    (s.dropExtent e forced) := by
  unfold State.dropExtent
  extract_lets lo hi cs u v
  have hu : Canonical u := canonical_shootIn (canonical_cleanIn (canonical_drainRange h _ _) _ _ _) _ _ _
  clear_value u
  have hv : Canonical v := by
    show Canonical (if _ then _ else _)
    split
    · exact canonical_loseLines hu _
    · exact hu
  exact canonical_lit rfl rfl hv

theorem keeps_execExtentReleaseComplete {s : State} (h : Canonical s) (die : Bool) (base : BitVec 52) : Keeps
    (execExtentReleaseComplete die base s) := by
  unfold execExtentReleaseComplete
  split
  · exact keeps_next h
  · split
    · exact keeps_next h
    · extract_lets lo hi u
      have hu : Canonical u := canonical_settleStores h _
      clear_value u
      split
      · exact keeps_next hu
      · exact keeps_next (canonical_poll (canonical_respond (canonical_dropExtent hu _ _) _ _ _ _ _))

theorem keeps_execPowerCap {s : State} (h : Canonical s) (r : CmdRec) : Keeps (execPowerCap r s) := by
  unfold execPowerCap
  repeat' first
    | exact h | with_reducible apply keeps_pscCmd | with_reducible apply canonical_respond | with_reducible apply keeps_next

theorem keeps_execFwPatch {s : State} (h : Canonical s) (r : CmdRec) : Keeps (execFwPatch r s) := by
  unfold execFwPatch
  dsimp only
  repeat' first
    | exact h | split | with_reducible apply keeps_pscCmd | with_reducible apply canonical_respond
    | with_reducible apply keeps_status | with_reducible apply keeps_next

theorem keeps_execResetWarm {s : State} (h : Canonical s) (r : CmdRec) : Keeps (execResetWarm r s) := by
  unfold execResetWarm
  repeat' first
    | exact h | with_reducible apply keeps_pscCmd | with_reducible apply canonical_beginStart
    | with_reducible apply keeps_next

theorem keeps_execResetCold {s : State} (h : Canonical s) (r : CmdRec) : Keeps (execResetCold r s) := by
  unfold execResetCold
  dsimp only
  repeat' first
    | exact h | split | with_reducible apply keeps_status | with_reducible apply canonical_beginStart
    | with_reducible apply keeps_next

theorem canonical_patrolBeat {s : State} (h : Canonical s) (stack pch : Nat) : Canonical (s.patrolBeat stack pch) := by
  unfold State.patrolBeat
  dsimp only
  split
  · exact canonical_addError (canonical_modStack (canonical_modStack (canonical_draw h) _ _) _ _) _ _ _ _ _
  · exact canonical_modStack (canonical_draw h) _ _

theorem keeps_execSlotService {s : State} (h : Canonical s) (stack : BitVec 3) (pch : Reg) (slot : BitVec 6)
    (ready : BitVec 8) : Keeps (execSlotService stack pch slot ready s) := by
  unfold execSlotService
  dsimp only
  refine keeps_next ?_
  split
  · exact canonical_patrolBeat (canonical_modStack h _ _) _ _
  · exact canonical_modStack h _ _

theorem keeps_execScrubStarved {s : State} (h : Canonical s) (stack : BitVec 3) (pch : Reg) : Keeps
    (execScrubStarved stack pch s) := by
  unfold execScrubStarved
  repeat' first | exact h | with_reducible apply keeps_next

theorem canonical_startRetrain {s : State} (h : Canonical s) (n : Nat) : Canonical (s.startRetrain n) := by
  unfold State.startRetrain
  repeat' first | exact h | split | with_reducible apply canonical_reroute

theorem canonical_badFlit {s : State} (h : Canonical s) (n : Nat) : Canonical (s.badFlit n) := by
  unfold State.badFlit
  dsimp only
  repeat' first | exact h | split | with_reducible apply canonical_startRetrain

theorem canonical_emit {s : State} (h : Canonical s) (n : Nat) (f : Flit) : Canonical (s.emit n f) := by
  unfold State.emit
  exact h

theorem canonical_answer {s : State} (h : Canonical s) (n : Nat) (label : BitVec 12) (seq : BitVec 32) (nak : Bool) :
    Canonical (s.answer n label seq nak) := by
  unfold State.answer
  exact h

theorem canonical_deliverPayload {s : State} (h : Canonical s) (die : Bool) (f : Flit) : Canonical (s.deliverPayload die f)
    := by
  unfold State.deliverPayload
  dsimp only
  repeat' first | exact h | split | with_reducible apply canonical_arrive | with_reducible apply canonical_collReceive

theorem canonical_setRx {s : State} (h : Canonical s) (x : RxFlow) : Canonical (s.setRx x) := by
  unfold State.setRx
  exact h

theorem canonical_drainRx {s : State} (h : Canonical s) (die : Bool) (flow : BitVec 12) (n : Nat) :
    Canonical (s.drainRx die flow n) := by
  induction n generalizing s with
  | zero => exact h
  | succ n ih =>
    unfold State.drainRx
    dsimp only
    split
    · exact h
    · exact ih (canonical_deliverPayload (canonical_setRx h _) _ _)

theorem canonical_noteBad {s : State} (h : Canonical s) (link : BitVec 6) (f : Flit) : Canonical (s.noteBad link f) := by
  unfold State.noteBad
  split
  · split
    · exact canonical_setRx h _
    · exact h
  · exact h

theorem canonical_arriveFlit {s : State} (h : Canonical s) (n : Nat) (die : Bool) (flow : BitVec 12) (f : Flit) : Canonical
    (s.arriveFlit n die flow f) := by
  unfold State.arriveFlit
  extract_lets y x u ahead gap
  have hu : Canonical u := by
    show Canonical (if _ then _ else _)
    split
    · exact canonical_setRx h _
    · exact h
  clear_value u
  have hg (v : State) (hv : Canonical v) : Canonical (gap v) := by
    show Canonical (if _ then _ else _)
    split
    · exact canonical_answer hv _ _ _ _
    · exact hv
  clear_value gap
  split
  · exact canonical_answer hu _ _ _ _
  · split
    · exact canonical_answer (canonical_drainRx (canonical_setRx hu _) _ _ _) _ _ _ _
    · split
      · split
        · exact canonical_answer hu _ _ _ _
        · exact hu
      · split
        · exact hg _ hu
        · exact hg _ (canonical_setRx hu _)

theorem canonical_receive {s : State} (h : Canonical s) (link : BitVec 6) (f : Flit) : Canonical (s.receive link f) := by
  unfold State.receive
  extract_lets n u
  have hu : Canonical u := canonical_modLink h _ _
  clear_value u
  split
  · exact h
  · split
    · exact canonical_badFlit (canonical_noteBad hu _ _) _
    · split
      · exact hu
      · split
        · exact canonical_arriveFlit hu _ _ _ _
        · split
          · exact canonical_emit hu _ _
          · exact hu

theorem keeps_execDataFlit {s : State} (h : Canonical s) (link : BitVec 6) (f : Flit) : Keeps (execDataFlit link f s) := by
  unfold execDataFlit
  repeat' first | exact h | split | with_reducible apply canonical_receive | with_reducible apply keeps_next

theorem canonical_goBack {s : State} (h : Canonical s) (link : BitVec 6) (f : Flit) (k : State → TxFlow → State)
    (hk : ∀ t x, Canonical t → Canonical (k t x)) : Canonical (s.goBack link f k) := by
  unfold State.goBack
  extract_lets n t
  have ht : Canonical t := canonical_modLink h _ _
  clear_value t
  split
  · exact h
  · split
    · exact canonical_badFlit ht _
    · split
      · exact ht
      · split
        · split
          · exact hk _ _ ht
          · exact ht
        · exact canonical_emit ht _ _

theorem keeps_execAcknowledgement {s : State} (h : Canonical s) (link : BitVec 6) (f : Flit) : Keeps
    (execAcknowledgement link f s) := by
  unfold execAcknowledgement
  refine keeps_next ?_
  split
  · exact canonical_goBack h _ _ _ (fun t x ht => canonical_sendOn ht)
  · exact h

theorem keeps_execNak {s : State} (h : Canonical s) (link : BitVec 6) (f : Flit) : Keeps (execNak link f s) := by
  unfold execNak
  repeat' first
    | exact h | assumption | split | with_reducible apply canonical_goBack | with_reducible apply canonical_putWire
    | with_reducible apply keeps_next | intro _ _ _

theorem keeps_execBarrierMessage {s : State} (h : Canonical s) (link : BitVec 6) (f : Flit) : Keeps
    (execBarrierMessage link f s) := by
  unfold execBarrierMessage
  repeat' first | exact h | split | with_reducible apply canonical_receive | with_reducible apply keeps_next

theorem keeps_execCollectiveData {s : State} (h : Canonical s) (link : BitVec 6) (f : Flit) : Keeps
    (execCollectiveData link f s) := by
  unfold execCollectiveData
  repeat' first | exact h | split | with_reducible apply canonical_receive | with_reducible apply keeps_next

theorem keeps_execCommandAnnouncement {s : State} (h : Canonical s) (link : BitVec 6) (f : Flit) : Keeps
    (execCommandAnnouncement link f s) := by
  unfold execCommandAnnouncement
  repeat' first | exact h | split | with_reducible apply canonical_receive | with_reducible apply keeps_next

theorem keeps_execCompletionStatus {s : State} (h : Canonical s) (link : BitVec 6) (f : Flit) : Keeps
    (execCompletionStatus link f s) := by
  unfold execCompletionStatus
  repeat' first | exact h | split | with_reducible apply canonical_receive | with_reducible apply keeps_next

theorem keeps_execBarrierCommandArrival {s : State} (h : Canonical s) (link : BitVec 6) (f : Flit) : Keeps
    (execBarrierCommandArrival link f s) := by
  unfold execBarrierCommandArrival
  repeat' first | exact h | split | with_reducible apply canonical_receive | with_reducible apply keeps_next

theorem keeps_execReplayTimeout {s : State} (h : Canonical s) (flow : Nat) : Keeps (execReplayTimeout flow s) := by
  unfold execReplayTimeout
  repeat' first | exact h | split | with_reducible apply canonical_putWire | with_reducible apply keeps_next

theorem keeps_execLossOfLock {s : State} (h : Canonical s) (link : BitVec 6) : Keeps (execLossOfLock link s) := by
  unfold execLossOfLock
  repeat' first | exact h | with_reducible apply canonical_startRetrain | with_reducible apply keeps_next

theorem keeps_execRetrainComplete {s : State} (h : Canonical s) (link : BitVec 6) : Keeps (execRetrainComplete link s) := by
  unfold execRetrainComplete
  dsimp only
  repeat' first | exact h | split | with_reducible apply canonical_reroute | with_reducible apply keeps_next

theorem keeps_execRetrainFail {s : State} (h : Canonical s) (link : BitVec 6) : Keeps (execRetrainFail link s) := by
  unfold execRetrainFail
  dsimp only
  repeat' first | exact h | split | with_reducible apply canonical_linkDown | with_reducible apply keeps_next

theorem keeps_execBarrierArrival {s : State} (h : Canonical s) (die : Bool) (idx : BitVec 12) : Keeps
    (execBarrierArrival die idx s) := by
  unfold execBarrierArrival
  repeat' first | exact h | with_reducible apply canonical_arrive | with_reducible apply keeps_next

theorem keeps_execPriorityAging {s : State} (h : Canonical s) (farm : Nat) : Keeps (execPriorityAging farm s) := by
  unfold execPriorityAging
  repeat' first | exact h | split | with_reducible apply canonical_poll | with_reducible apply keeps_next

theorem keeps_execQuotaPeriod {s : State} (h : Canonical s) (die : Bool) : Keeps (execQuotaPeriod die s) := by
  unfold execQuotaPeriod
  repeat' first | exact h | with_reducible apply canonical_poll | with_reducible apply keeps_next

theorem keeps_execHaltRequest {s : State} (h : Canonical s) (core : BitVec 8) : Keeps (execHaltRequest core s) := by
  unfold execHaltRequest
  repeat' first | exact h | with_reducible apply keeps_next

theorem canonical_haltStrand {s : State} (h : Canonical s) (key : Nat) : Canonical (s.haltStrand key) := by
  unfold State.haltStrand
  split
  · exact h
  · split
    · exact canonical_modStrand (canonical_flushStores (canonical_drainStrand h _) _ _) _ _
    · exact h

theorem keeps_execStrandHalt {s : State} (h : Canonical s) (key : Nat) : Keeps (execStrandHalt key s) := by
  unfold execStrandHalt
  repeat' first | exact h | with_reducible apply canonical_haltStrand | with_reducible apply keeps_next

theorem canonical_saveOne {s : State} (h : Canonical s) (t : Strand) : Canonical (s.saveOne t) := by
  unfold State.saveOne
  split
  · exact h
  · exact canonical_modStrand (canonical_leaveTable (canonical_saveStrand h _) _) _ _

theorem canonical_retireHalted {s : State} (h : Canonical s) (t : Strand) : Canonical (s.retireHalted t) := by
  unfold State.retireHalted
  split
  · exact h
  · exact canonical_saveOne h _

theorem canonical_settleHalt {s : State} (h : Canonical s) (f : Farm) : Canonical (s.settleHalt f) := by
  unfold State.settleHalt
  split
  · exact h
  · extract_lets n
    refine canonical_answerHalt ?_ _ _
    split
    · exact canonical_finishFarm (canonical_discardFarm h _) _ _
    · exact canonical_modFarm h _ _
    · exact canonical_lit rfl rfl (canonical_modFarm h _ _)
    · exact h

theorem keeps_execStrandSave {s : State} (h : Canonical s) (core : BitVec 8) : Keeps (execStrandSave core s) := by
  unfold execStrandSave
  dsimp only
  repeat' first
    | exact h | assumption | with_reducible apply canonical_retireHalted | with_reducible apply canonical_poll
    | with_reducible apply canonical_settleHalt | with_reducible apply keeps_next | with_reducible apply canonical_foldl
    | intro _ _ _

theorem canonical_takeDue {s : State} (h : Canonical s) : Canonical s.takeDue := canonical_takeTrap h _

theorem keeps_execTakeTrap {s : State} (h : Canonical s) (key : Nat) : Keeps (execTakeTrap key s) := by
  unfold execTakeTrap
  dsimp only
  repeat' first
    | exact h | split | with_reducible apply canonical_focus | with_reducible apply canonical_takeDue
    | with_reducible apply keeps_next

theorem canonical_recoverRows {s : State} (h : Canonical s) (key : Nat) (t : Strand) (e : VEntry) (elem : Nat)
    (xs : List Span) : Canonical (s.recoverRows key t e elem xs).1 := by
  unfold State.recoverRows
  repeat' first | exact h | split | with_reducible apply canonical_modStrand

theorem canonical_popStream {s : State} (h : Canonical s) (key : Nat) (t : Strand) (e : VEntry) (port d : Reg) : Canonical
    (s.popStream key t e port d) := by
  unfold State.popStream
  extract_lets v n items hd c ws used a r
  split
  · exact h
  · have ha : Canonical a.1 := canonical_recoverRows h _ _ _ _ _
    clear_value a
    split
    · exact ha
    · exact canonical_modStrand ha _ _

theorem canonical_vFault {s : State} (h : Canonical s) (key : Nat) (seq : BitVec 32) (elem : Nat) (x : Stop) : Canonical
    (s.vFault key seq elem x) := by
  unfold State.vFault
  repeat' first
    | exact h | split | with_reducible apply canonical_mirror | with_reducible apply canonical_addError
    | with_reducible apply canonical_modStrand

theorem canonical_thinBytes {s : State} (h : Canonical s) (n : Nat) (prior : List Nat) (x : VStore) : Canonical
    (s.thinBytes n prior x).1 := by
  unfold State.thinBytes
  refine canonical_foldl_pair _ (fun z p hz => ?_) _ h
  split
  · dsimp only
    split <;> exact canonical_draw hz
  · exact hz

theorem canonical_thin {s : State} (h : Canonical s) (n : Nat) (prior : List Nat) (x : VStore) : Canonical
    (s.thin n prior x).1 := by
  unfold State.thin
  split
  · exact h
  · split
    · dsimp only
      split
      · exact canonical_thinBytes (canonical_draw h) _ _ _
      · exact canonical_draw h
    · exact canonical_thinBytes h _ _ _

theorem canonical_thin_eq {s : State} {n : Nat} {prior : List Nat} {x : VStore} {out : State} {val}
    (eq : s.thin n prior x = (out, val)) (h : Canonical s) : Canonical out := by
  have g := canonical_thin h n prior x
  rw [eq] at g
  exact g

theorem canonical_thinAll {s : State} (h : Canonical s) (n : Nat) (prior : List Nat) (l : List VStore) :
    Canonical (s.thinAll n prior l).1 := by
  induction l generalizing s prior with
  | nil => exact h
  | cons x r ih => exact ih (canonical_thin h n prior x) _

theorem canonical_thinAll_eq {s : State} {n : Nat} {x1 : List Nat} {x2 : List VStore} {out : State} {val}
    (eq : s.thinAll n x1 x2 = (out, val)) (h : Canonical s) : Canonical out := by
  have g := canonical_thinAll h n x1 x2
  rw [eq] at g
  exact g

theorem canonical_orderElems {s : State} (h : Canonical s) (t : Strand) (e : VEntry) (op : VOp) (v : VEnv) (m : MemOp)
    (xs : List VStore) : Canonical (s.orderElems t e op v m xs).1 := by
  unfold State.orderElems
  split
  · exact canonical_thinAll h _ _ _
  · exact h

theorem canonical_orderElems_eq {s : State} {t : Strand} {e : VEntry} {op : VOp} {v : VEnv} {m : MemOp} {xs : List VStore}
    {out : State} {val} (eq : s.orderElems t e op v m xs = (out, val)) (h : Canonical s) : Canonical out := by
  have g := canonical_orderElems h t e op v m xs
  rw [eq] at g
  exact g

theorem canonical_vStore {s : State} (h : Canonical s) (key : Nat) (seq : BitVec 32) (x : VStore) : Canonical
    (s.vStore key seq x).1 := by
  unfold State.vStore
  repeat' first
    | exact h | split | with_reducible apply canonical_modStrand | with_reducible apply canonical_performHeld

theorem canonical_vStore_eq {s : State} {key : Nat} {seq : BitVec 32} {x : VStore} {out : State} {val}
    (eq : s.vStore key seq x = (out, val)) (h : Canonical s) : Canonical out := by
  have g := canonical_vStore h key seq x
  rw [eq] at g
  exact g

theorem canonical_vStores {s : State} (h : Canonical s) (key : Nat) (seq : BitVec 32) (l : List VStore) :
    Canonical (s.vStores key seq l).1 := by
  induction l generalizing s with
  | nil => exact h
  | cons x r ih => exact ih (canonical_vStore h key seq x)

theorem canonical_vStores_eq {s : State} {key : Nat} {seq : BitVec 32} {x1 : List VStore} {out : State} {val}
    (eq : s.vStores key seq x1 = (out, val)) (h : Canonical s) : Canonical out := by
  have g := canonical_vStores h key seq x1
  rw [eq] at g
  exact g

theorem canonical_cleanReads {s : State} (h : Canonical s) (t : Strand) (xs : List (BitVec 3 × Nat × List Word)) :
    Canonical (s.cleanReads t xs) := by
  unfold State.cleanReads
  split
  · exact canonical_filterLines h _ _
  · exact h

theorem canonical_issueMem {s : State} (h : Canonical s) (key : Nat) (t : Strand) (e : VEntry) (op : VOp) (m : MemOp)
    (g : Nat) : Canonical (s.issueMem key t e op m g) := by
  unfold State.issueMem
  extract_lets v step acc finish els
  have hf (u : State) (a b c) (hu : Canonical u) : Canonical (finish u a b c) := canonical_modStrand hu _ _
  clear_value finish els acc
  split
  · split
    · exact canonical_vFault h _ _ _ _
    · exact hf _ _ _ _ (canonical_cleanReads h _ _)
  · split
    · exact canonical_vFault h _ _ _ _
    · extract_lets xs a b
      split
      · exact hf _ _ _ _ h
      · exact hf _ _ _ _ (canonical_vStores (canonical_orderElems h _ _ _ _ _ _) _ _ _)

theorem canonical_handRow {s : State} (h : Canonical s) (key : Nat) (t : Strand) (e : VEntry) (k : BitVec 3) (src : Word)
    (dst n : Nat) : Canonical (s.handRow key t e k src dst n) := by
  unfold State.handRow
  dsimp only
  repeat' first
    | exact h | split | (with_reducible apply canonical_announce; assumption) | with_reducible apply canonical_lit
    | with_reducible rfl

theorem canonical_issueRows {s : State} (h : Canonical s) (key : Nat) (t : Strand) (e : VEntry) (op : VOp) (k : BitVec 3)
    (b : Reg) (g : Nat) : Canonical (s.issueRows key t e op k b g) := by
  unfold State.issueRows
  dsimp only
  repeat' first
    | exact h | assumption | split | with_reducible apply canonical_vFault | with_reducible apply canonical_handRow
    | with_reducible apply canonical_modStrand | with_reducible apply canonical_foldl | intro _ _ _

theorem canonical_perform {s : State} (h : Canonical s) (key : Nat) (t : Strand) (e : VEntry) (op : VOp) (g : Nat) :
    Canonical (s.perform key t e op g) := by
  unfold State.perform
  dsimp only
  repeat' first
    | exact h | split | with_reducible apply canonical_modStrand | with_reducible apply canonical_issueMem
    | with_reducible apply canonical_issueRows

theorem canonical_granted {s : State} (h : Canonical s) (t : Strand) (p : Nat) : Canonical (s.granted t p) :=
  canonical_modCore h _ _

theorem canonical_issue {s : State} (h : Canonical s) (key : Nat) (seq : BitVec 32) (g : Nat) : Canonical (s.issue key seq g)
    := by
  unfold State.issue
  split
  · exact h
  · split
    · exact h
    · split
      · exact h
      · split
        · split
          · exact h
          · exact canonical_popStream h _ _ _ _ _
        · split
          · exact h
          · extract_lets a
            have ha : Canonical a.1 := canonical_recoverRows (canonical_granted h _ _) _ _ _ _ _
            clear_value a
            split
            · exact canonical_perform ha _ _ _ _ _
            · exact ha

theorem keeps_execMicroOperationIssue {s : State} (h : Canonical s) (key : Nat) (seq : BitVec 32) (g : Nat) : Keeps
    (execMicroOperationIssue key seq g s) := by
  unfold execMicroOperationIssue
  repeat' first | exact h | with_reducible apply canonical_issue | with_reducible apply keeps_next

theorem canonical_complete {s : State} (h : Canonical s) (key : Nat) (seq : BitVec 32) (g : Nat) : Canonical
    (s.complete key seq g) := by
  unfold State.complete
  split
  · exact canonical_performLeft h _ _ _
  · exact canonical_modStrand h _ _

theorem keeps_execElementGroupComplete {s : State} (h : Canonical s) (key : Nat) (seq : BitVec 32) (g : Nat) : Keeps
    (execElementGroupComplete key seq g s) := by
  unfold execElementGroupComplete
  repeat' first | exact h | with_reducible apply canonical_complete | with_reducible apply keeps_next

theorem keeps_execWaitTimeout {s : State} (h : Canonical s) (key : Nat) : Keeps (execWaitTimeout key s) := by
  unfold execWaitTimeout
  repeat' first | exact h | with_reducible apply canonical_modStrand | with_reducible apply keeps_next

theorem keeps_execYieldExpiry {s : State} (h : Canonical s) (key : Nat) : Keeps (execYieldExpiry key s) := by
  unfold execYieldExpiry
  repeat' first | exact h | with_reducible apply canonical_modStrand | with_reducible apply keeps_next

theorem keeps_errinj {s : State} (h : Canonical s) (i : Inject) : Keeps (errinj i s) := by
  unfold errinj
  repeat' first | exact h | split | with_reducible apply keeps_illegal | with_reducible apply keeps_next

theorem keeps_execErrinjFlipVectorBit {s : State} (h : Canonical s) (reg : Reg) (pos : BitVec 12) (bit : BitVec 6) : Keeps
    (execErrinjFlipVectorBit reg pos bit s) := by
  unfold execErrinjFlipVectorBit
  repeat' first | exact h | with_reducible apply keeps_errinj

theorem keeps_execErrinjFlipTileBit {s : State} (h : Canonical s) (reg : Reg) (pos : BitVec 12) (bit : BitVec 6) : Keeps
    (execErrinjFlipTileBit reg pos bit s) := by
  unfold execErrinjFlipTileBit
  repeat' first | exact h | with_reducible apply keeps_errinj

theorem keeps_execErrinjMarkRow {s : State} (h : Canonical s) (reg : Reg) (pos : BitVec 12) : Keeps
    (execErrinjMarkRow reg pos s) := by
  unfold execErrinjMarkRow
  repeat' first | exact h | with_reducible apply keeps_errinj

theorem canonical_setMaxlg {s : State} (h : Canonical s) (core v : Nat) : Canonical (s.setMaxlg core v) := by
  unfold State.setMaxlg
  dsimp only
  repeat' first | exact h | with_reducible apply canonical_modCore

theorem keeps_execMaxlg {s : State} (h : Canonical s) (v : Word) : Keeps (execMaxlg v s) := by
  unfold execMaxlg
  repeat' first
    | exact h | split | with_reducible apply canonical_setMaxlg | with_reducible apply keeps_illegal
    | with_reducible apply keeps_next

theorem keeps_alu {s : State} (h : Canonical s) (d a b : Reg) (f : Word → Word → Word) : Keeps (alu d a b f s) := by
  unfold alu
  repeat' first | exact h | with_reducible apply keeps_withRegs | with_reducible apply keeps_next

theorem keeps_execAdd {s : State} (h : Canonical s) (d a b : Reg) : Keeps (execAdd d a b s) := by
  unfold execAdd
  repeat' first | exact h | with_reducible apply keeps_alu

theorem keeps_execSub {s : State} (h : Canonical s) (d a b : Reg) : Keeps (execSub d a b s) := by
  unfold execSub
  repeat' first | exact h | with_reducible apply keeps_alu

theorem keeps_execAnd {s : State} (h : Canonical s) (d a b : Reg) : Keeps (execAnd d a b s) := by
  unfold execAnd
  repeat' first | exact h | with_reducible apply keeps_alu

theorem keeps_execOr {s : State} (h : Canonical s) (d a b : Reg) : Keeps (execOr d a b s) := by
  unfold execOr
  repeat' first | exact h | with_reducible apply keeps_alu

theorem keeps_execXor {s : State} (h : Canonical s) (d a b : Reg) : Keeps (execXor d a b s) := by
  unfold execXor
  repeat' first | exact h | with_reducible apply keeps_alu

theorem keeps_execAndn {s : State} (h : Canonical s) (d a b : Reg) : Keeps (execAndn d a b s) := by
  unfold execAndn
  repeat' first | exact h | with_reducible apply keeps_alu

theorem keeps_execSll {s : State} (h : Canonical s) (d a b : Reg) : Keeps (execSll d a b s) := by
  unfold execSll
  repeat' first | exact h | with_reducible apply keeps_alu

theorem keeps_execSrl {s : State} (h : Canonical s) (d a b : Reg) : Keeps (execSrl d a b s) := by
  unfold execSrl
  repeat' first | exact h | with_reducible apply keeps_alu

theorem keeps_execSra {s : State} (h : Canonical s) (d a b : Reg) : Keeps (execSra d a b s) := by
  unfold execSra
  repeat' first | exact h | with_reducible apply keeps_alu

theorem keeps_execRol {s : State} (h : Canonical s) (d a b : Reg) : Keeps (execRol d a b s) := by
  unfold execRol
  repeat' first | exact h | with_reducible apply keeps_alu

theorem keeps_execRor {s : State} (h : Canonical s) (d a b : Reg) : Keeps (execRor d a b s) := by
  unfold execRor
  repeat' first | exact h | with_reducible apply keeps_alu

theorem keeps_execSlt {s : State} (h : Canonical s) (d a b : Reg) : Keeps (execSlt d a b s) := by
  unfold execSlt
  repeat' first | exact h | with_reducible apply keeps_alu

theorem keeps_execSltu {s : State} (h : Canonical s) (d a b : Reg) : Keeps (execSltu d a b s) := by
  unfold execSltu
  repeat' first | exact h | with_reducible apply keeps_alu

theorem keeps_execMin {s : State} (h : Canonical s) (d a b : Reg) : Keeps (execMin d a b s) := by
  unfold execMin
  repeat' first | exact h | with_reducible apply keeps_alu

theorem keeps_execMax {s : State} (h : Canonical s) (d a b : Reg) : Keeps (execMax d a b s) := by
  unfold execMax
  repeat' first | exact h | with_reducible apply keeps_alu

theorem keeps_execMinu {s : State} (h : Canonical s) (d a b : Reg) : Keeps (execMinu d a b s) := by
  unfold execMinu
  repeat' first | exact h | with_reducible apply keeps_alu

theorem keeps_execMaxu {s : State} (h : Canonical s) (d a b : Reg) : Keeps (execMaxu d a b s) := by
  unfold execMaxu
  repeat' first | exact h | with_reducible apply keeps_alu

theorem keeps_execAddw {s : State} (h : Canonical s) (d a b : Reg) : Keeps (execAddw d a b s) := by
  unfold execAddw
  repeat' first | exact h | with_reducible apply keeps_alu

theorem keeps_execSubw {s : State} (h : Canonical s) (d a b : Reg) : Keeps (execSubw d a b s) := by
  unfold execSubw
  repeat' first | exact h | with_reducible apply keeps_alu

theorem keeps_execMul {s : State} (h : Canonical s) (d a b : Reg) : Keeps (execMul d a b s) := by
  unfold execMul
  repeat' first | exact h | with_reducible apply keeps_alu

theorem keeps_execMulh {s : State} (h : Canonical s) (d a b : Reg) : Keeps (execMulh d a b s) := by
  unfold execMulh
  repeat' first | exact h | with_reducible apply keeps_alu

theorem keeps_execMulhu {s : State} (h : Canonical s) (d a b : Reg) : Keeps (execMulhu d a b s) := by
  unfold execMulhu
  repeat' first | exact h | with_reducible apply keeps_alu

theorem keeps_execMulhsu {s : State} (h : Canonical s) (d a b : Reg) : Keeps (execMulhsu d a b s) := by
  unfold execMulhsu
  repeat' first | exact h | with_reducible apply keeps_alu

theorem keeps_execDiv {s : State} (h : Canonical s) (d a b : Reg) : Keeps (execDiv d a b s) := by
  unfold execDiv
  repeat' first | exact h | with_reducible apply keeps_alu

theorem keeps_execDivu {s : State} (h : Canonical s) (d a b : Reg) : Keeps (execDivu d a b s) := by
  unfold execDivu
  repeat' first | exact h | with_reducible apply keeps_alu

theorem keeps_execRem {s : State} (h : Canonical s) (d a b : Reg) : Keeps (execRem d a b s) := by
  unfold execRem
  repeat' first | exact h | with_reducible apply keeps_alu

theorem keeps_execRemu {s : State} (h : Canonical s) (d a b : Reg) : Keeps (execRemu d a b s) := by
  unfold execRemu
  repeat' first | exact h | with_reducible apply keeps_alu

theorem keeps_alu1 {s : State} (h : Canonical s) (d a : Reg) (f : Word → Word) : Keeps (alu1 d a f s) := by
  unfold alu1
  repeat' first | exact h | with_reducible apply keeps_withRegs | with_reducible apply keeps_next

theorem keeps_execClz {s : State} (h : Canonical s) (d a : Reg) : Keeps (execClz d a s) := by
  unfold execClz
  repeat' first | exact h | with_reducible apply keeps_alu1

theorem keeps_execCtz {s : State} (h : Canonical s) (d a : Reg) : Keeps (execCtz d a s) := by
  unfold execCtz
  repeat' first | exact h | with_reducible apply keeps_alu1

theorem keeps_execPopc {s : State} (h : Canonical s) (d a : Reg) : Keeps (execPopc d a s) := by
  unfold execPopc
  repeat' first | exact h | with_reducible apply keeps_alu1

theorem keeps_execSextb {s : State} (h : Canonical s) (d a : Reg) : Keeps (execSextb d a s) := by
  unfold execSextb
  repeat' first | exact h | with_reducible apply keeps_alu1

theorem keeps_execSexth {s : State} (h : Canonical s) (d a : Reg) : Keeps (execSexth d a s) := by
  unfold execSexth
  repeat' first | exact h | with_reducible apply keeps_alu1

theorem keeps_execSextw {s : State} (h : Canonical s) (d a : Reg) : Keeps (execSextw d a s) := by
  unfold execSextw
  repeat' first | exact h | with_reducible apply keeps_alu1

theorem keeps_execZexth {s : State} (h : Canonical s) (d a : Reg) : Keeps (execZexth d a s) := by
  unfold execZexth
  repeat' first | exact h | with_reducible apply keeps_alu1

theorem keeps_execZextw {s : State} (h : Canonical s) (d a : Reg) : Keeps (execZextw d a s) := by
  unfold execZextw
  repeat' first | exact h | with_reducible apply keeps_alu1

theorem keeps_aluImm {s : State} (h : Canonical s) (d a : Reg) (imm : Word) (f : Word → Word → Word) (len : Nat) : Keeps
    (aluImm d a imm f len s) := by
  unfold aluImm
  repeat' first | exact h | with_reducible apply keeps_withRegs | with_reducible apply keeps_next

theorem keeps_execAddi {s : State} (h : Canonical s) (d a : Reg) (imm : BitVec 14) : Keeps (execAddi d a imm s) := by
  unfold execAddi
  repeat' first | exact h | with_reducible apply keeps_aluImm

theorem keeps_execAndi {s : State} (h : Canonical s) (d a : Reg) (imm : BitVec 14) : Keeps (execAndi d a imm s) := by
  unfold execAndi
  repeat' first | exact h | with_reducible apply keeps_aluImm

theorem keeps_execOri {s : State} (h : Canonical s) (d a : Reg) (imm : BitVec 14) : Keeps (execOri d a imm s) := by
  unfold execOri
  repeat' first | exact h | with_reducible apply keeps_aluImm

theorem keeps_execXori {s : State} (h : Canonical s) (d a : Reg) (imm : BitVec 14) : Keeps (execXori d a imm s) := by
  unfold execXori
  repeat' first | exact h | with_reducible apply keeps_aluImm

theorem keeps_execSlti {s : State} (h : Canonical s) (d a : Reg) (imm : BitVec 14) : Keeps (execSlti d a imm s) := by
  unfold execSlti
  repeat' first | exact h | with_reducible apply keeps_aluImm

theorem keeps_execSltiu {s : State} (h : Canonical s) (d a : Reg) (imm : BitVec 14) : Keeps (execSltiu d a imm s) := by
  unfold execSltiu
  repeat' first | exact h | with_reducible apply keeps_aluImm

theorem keeps_execAddiImm {s : State} (h : Canonical s) (d a : Reg) (imm : BitVec 38) : Keeps (execAddiImm d a imm s) := by
  unfold execAddiImm
  repeat' first | exact h | with_reducible apply keeps_aluImm

theorem keeps_execAndiImm {s : State} (h : Canonical s) (d a : Reg) (imm : BitVec 38) : Keeps (execAndiImm d a imm s) := by
  unfold execAndiImm
  repeat' first | exact h | with_reducible apply keeps_aluImm

theorem keeps_execOriImm {s : State} (h : Canonical s) (d a : Reg) (imm : BitVec 38) : Keeps (execOriImm d a imm s) := by
  unfold execOriImm
  repeat' first | exact h | with_reducible apply keeps_aluImm

theorem keeps_execXoriImm {s : State} (h : Canonical s) (d a : Reg) (imm : BitVec 38) : Keeps (execXoriImm d a imm s) := by
  unfold execXoriImm
  repeat' first | exact h | with_reducible apply keeps_aluImm

theorem keeps_execSltiImm {s : State} (h : Canonical s) (d a : Reg) (imm : BitVec 38) : Keeps (execSltiImm d a imm s) := by
  unfold execSltiImm
  repeat' first | exact h | with_reducible apply keeps_aluImm

theorem keeps_execSltiuImm {s : State} (h : Canonical s) (d a : Reg) (imm : BitVec 38) : Keeps (execSltiuImm d a imm s) := by
  unfold execSltiuImm
  repeat' first | exact h | with_reducible apply keeps_aluImm

theorem keeps_execSlli {s : State} (h : Canonical s) (d a : Reg) (sh : BitVec 6) : Keeps (execSlli d a sh s) := by
  unfold execSlli
  repeat' first | exact h | with_reducible apply keeps_aluImm

theorem keeps_execSrli {s : State} (h : Canonical s) (d a : Reg) (sh : BitVec 6) : Keeps (execSrli d a sh s) := by
  unfold execSrli
  repeat' first | exact h | with_reducible apply keeps_aluImm

theorem keeps_execSrai {s : State} (h : Canonical s) (d a : Reg) (sh : BitVec 6) : Keeps (execSrai d a sh s) := by
  unfold execSrai
  repeat' first | exact h | with_reducible apply keeps_aluImm

theorem keeps_execRoli {s : State} (h : Canonical s) (d a : Reg) (sh : BitVec 6) : Keeps (execRoli d a sh s) := by
  unfold execRoli
  repeat' first | exact h | with_reducible apply keeps_aluImm

theorem keeps_execLuim {s : State} (h : Canonical s) (d : Reg) (imm : BitVec 19) : Keeps (execLuim d imm s) := by
  unfold execLuim
  repeat' first | exact h | with_reducible apply keeps_withRegs | with_reducible apply keeps_next

theorem keeps_execApc {s : State} (h : Canonical s) (d : Reg) (imm : BitVec 19) : Keeps (execApc d imm s) := by
  unfold execApc
  repeat' first | exact h | with_reducible apply keeps_withRegs | with_reducible apply keeps_next

theorem keeps_stopped {s : State} (h : Canonical s) (x : Stop) : Keeps (s.stopped x) := by
  unfold State.stopped
  split
  · exact keeps_next (canonical_stall h)
  · exact keeps_trap h _ _ _
  · exact keeps_trap (canonical_modCur (canonical_mirror h _) _) _ _ _

theorem keeps_afterPoison {s : State} (h : Canonical s) (va : Word) (ks : List Nat) {r : Res} (hr : Keeps r) :
    Keeps (afterPoison s va ks r) := by
  unfold afterPoison
  split
  · exact hr
  · dsimp only
    split
    · exact keeps_next (canonical_stall h)
    · exact keeps_stopped h _

theorem keeps_scalarLoad {s : State} (h : Canonical s) {k : State → Nat → Res} (va : Word) (n : Nat)
    (hk : ∀ t x, Canonical t → Keeps (k t x)) :
    Keeps (scalarLoad s va n k) := by
  unfold scalarLoad
  split
  · exact keeps_stopped h _
  · split
    · exact keeps_next (canonical_stall h)
    · exact keeps_afterPoison h _ _ (hk _ _ (canonical_takeLines (canonical_touch h _ _ _) _ _ _))

theorem keeps_load {s : State} (h : Canonical s) (d a : Reg) (w : BitVec 2) (u : Bool) (off : Word) (len : Nat) : Keeps
    (load d a w u off len s) := by
  unfold load
  repeat' first
    | exact h | assumption | with_reducible apply keeps_checked | with_reducible apply keeps_withRegs
    | with_reducible apply keeps_scalarLoad | with_reducible apply keeps_next | intro _ _ _

theorem keeps_execLd {s : State} (h : Canonical s) (d a : Reg) (w : BitVec 2) (u : Bool) (imm : BitVec 11) : Keeps
    (execLd d a w u imm s) := by
  unfold execLd
  repeat' first | exact h | with_reducible apply keeps_load

theorem keeps_scalarStore {s : State} (h : Canonical s) {k : State → Res} (va : Word) (n x : Nat)
    (hk : ∀ t, Canonical t → Keeps (k t)) :
    Keeps (scalarStore s va n x k) := by
  unfold scalarStore
  split
  · exact keeps_stopped h _
  · split
    · exact keeps_next h
    · exact hk _ (canonical_commitStore (canonical_touch h _ _ _) _ _ _ _)

theorem keeps_store {s : State} (h : Canonical s) (r a : Reg) (w : BitVec 2) (off : Word) (len : Nat) : Keeps
    (store r a w off len s) := by
  unfold store
  repeat' first
    | exact h | assumption | with_reducible apply keeps_withRegs | with_reducible apply keeps_scalarStore
    | with_reducible apply keeps_next | intro _ _

theorem keeps_execSt {s : State} (h : Canonical s) (r a : Reg) (w : BitVec 2) (imm : BitVec 11) : Keeps (execSt r a w imm s)
    := by
  unfold execSt
  repeat' first | exact h | with_reducible apply keeps_store

theorem keeps_execLdImm {s : State} (h : Canonical s) (d a : Reg) (w : BitVec 2) (u : Bool) (imm : BitVec 35) : Keeps
    (execLdImm d a w u imm s) := by
  unfold execLdImm
  repeat' first | exact h | with_reducible apply keeps_load

theorem keeps_execStImm {s : State} (h : Canonical s) (r a : Reg) (w : BitVec 2) (imm : BitVec 35) : Keeps
    (execStImm r a w imm s) := by
  unfold execStImm
  repeat' first | exact h | with_reducible apply keeps_store

theorem canonical_fpRetire {s : State} (h : Canonical s) (d : Reg) (r : Nat × BitVec 5) : Canonical (s.fpRetire d r) := by
  exact canonical_retire (canonical_modCur h _) _ _ _

theorem keeps_fpRound {s : State} (h : Canonical s) (rs : List Reg) (d : Reg) (m : BitVec 3)
    (f : State → Rm → Nat × BitVec 5) : Keeps (fpRound rs d m s f) := by
  unfold fpRound
  split
  · exact keeps_illegal h
  · exact keeps_withRegs _ h _ (keeps_next (canonical_fpRetire h _ _))

theorem keeps_fp2 {s : State} (h : Canonical s) (f : Fmt) (g : Fmt → Rm → Nat → Nat → Nat × BitVec 5) (d a b : Reg)
    (m : BitVec 3) : Keeps (fp2 f g d a b m s) := by
  unfold fp2
  repeat' first | exact h | with_reducible apply keeps_fpRound

theorem keeps_execFaddS {s : State} (h : Canonical s) (d a b : Reg) (m : BitVec 3) : Keeps (execFaddS d a b m s) := by
  unfold execFaddS
  repeat' first | exact h | with_reducible apply keeps_fp2

theorem keeps_execFsubS {s : State} (h : Canonical s) (d a b : Reg) (m : BitVec 3) : Keeps (execFsubS d a b m s) := by
  unfold execFsubS
  repeat' first | exact h | with_reducible apply keeps_fp2

theorem keeps_execFmulS {s : State} (h : Canonical s) (d a b : Reg) (m : BitVec 3) : Keeps (execFmulS d a b m s) := by
  unfold execFmulS
  repeat' first | exact h | with_reducible apply keeps_fp2

theorem keeps_execFdivS {s : State} (h : Canonical s) (d a b : Reg) (m : BitVec 3) : Keeps (execFdivS d a b m s) := by
  unfold execFdivS
  repeat' first | exact h | with_reducible apply keeps_fp2

theorem keeps_fp1 {s : State} (h : Canonical s) (f : Fmt) (g : Fmt → Rm → Nat → Nat × BitVec 5) (d a : Reg) (m : BitVec 3) :
    Keeps (fp1 f g d a m s) := by
  unfold fp1
  repeat' first | exact h | with_reducible apply keeps_fpRound

theorem keeps_execFsqrtS {s : State} (h : Canonical s) (d a : Reg) (m : BitVec 3) : Keeps (execFsqrtS d a m s) := by
  unfold execFsqrtS
  repeat' first | exact h | with_reducible apply keeps_fp1

theorem keeps_fpPlain {s : State} (h : Canonical s) (rs : List Reg) (d : Reg) (f : State → Nat × BitVec 5) : Keeps
    (fpPlain rs d s f) := by
  exact keeps_withRegs _ h _ (keeps_next (canonical_fpRetire h _ _))

theorem keeps_fpMin {s : State} (h : Canonical s) (f : Fmt) (d a b : Reg) : Keeps (fpMin f d a b s) := by
  unfold fpMin
  repeat' first | exact h | with_reducible apply keeps_fpPlain

theorem keeps_execFminS {s : State} (h : Canonical s) (d a b : Reg) : Keeps (execFminS d a b s) := by
  unfold execFminS
  repeat' first | exact h | with_reducible apply keeps_fpMin

theorem keeps_fpMax {s : State} (h : Canonical s) (f : Fmt) (d a b : Reg) : Keeps (fpMax f d a b s) := by
  unfold fpMax
  repeat' first | exact h | with_reducible apply keeps_fpPlain

theorem keeps_execFmaxS {s : State} (h : Canonical s) (d a b : Reg) : Keeps (execFmaxS d a b s) := by
  unfold execFmaxS
  repeat' first | exact h | with_reducible apply keeps_fpMax

theorem keeps_fpCmpS {s : State} (h : Canonical s) (c : Cmp) (f : Fmt) (d a b : Reg) : Keeps (fpCmpS c f d a b s) := by
  unfold fpCmpS
  dsimp only
  repeat' first | exact h | with_reducible apply keeps_fpPlain

theorem keeps_execFeqS {s : State} (h : Canonical s) (d a b : Reg) : Keeps (execFeqS d a b s) := by
  unfold execFeqS
  repeat' first | exact h | with_reducible apply keeps_fpCmpS

theorem keeps_execFltS {s : State} (h : Canonical s) (d a b : Reg) : Keeps (execFltS d a b s) := by
  unfold execFltS
  repeat' first | exact h | with_reducible apply keeps_fpCmpS

theorem keeps_execFleS {s : State} (h : Canonical s) (d a b : Reg) : Keeps (execFleS d a b s) := by
  unfold execFleS
  repeat' first | exact h | with_reducible apply keeps_fpCmpS

theorem keeps_fpFromInt {s : State} (h : Canonical s) (f : Fmt) (d a : Reg) (m : BitVec 3) : Keeps (fpFromInt f d a m s) :=
    by
  unfold fpFromInt
  repeat' first | exact h | with_reducible apply keeps_fpRound

theorem keeps_execFcvtSL {s : State} (h : Canonical s) (d a : Reg) (m : BitVec 3) : Keeps (execFcvtSL d a m s) := by
  unfold execFcvtSL
  repeat' first | exact h | with_reducible apply keeps_fpFromInt

theorem keeps_fpToInt64 {s : State} (h : Canonical s) (f : Fmt) (d a : Reg) (m : BitVec 3) : Keeps (fpToInt64 f d a m s) :=
    by
  unfold fpToInt64
  dsimp only
  repeat' first | exact h | with_reducible apply keeps_fpRound

theorem keeps_execFcvtLS {s : State} (h : Canonical s) (d a : Reg) (m : BitVec 3) : Keeps (execFcvtLS d a m s) := by
  unfold execFcvtLS
  repeat' first | exact h | with_reducible apply keeps_fpToInt64

theorem keeps_fpClassS {s : State} (h : Canonical s) (f : Fmt) (d a : Reg) : Keeps (fpClassS f d a s) := by
  unfold fpClassS
  repeat' first | exact h | with_reducible apply keeps_fpPlain

theorem keeps_execFclassS {s : State} (h : Canonical s) (d a : Reg) : Keeps (execFclassS d a s) := by
  unfold execFclassS
  repeat' first | exact h | with_reducible apply keeps_fpClassS

theorem keeps_execFaddD {s : State} (h : Canonical s) (d a b : Reg) (m : BitVec 3) : Keeps (execFaddD d a b m s) := by
  unfold execFaddD
  repeat' first | exact h | with_reducible apply keeps_fp2

theorem keeps_execFsubD {s : State} (h : Canonical s) (d a b : Reg) (m : BitVec 3) : Keeps (execFsubD d a b m s) := by
  unfold execFsubD
  repeat' first | exact h | with_reducible apply keeps_fp2

theorem keeps_execFmulD {s : State} (h : Canonical s) (d a b : Reg) (m : BitVec 3) : Keeps (execFmulD d a b m s) := by
  unfold execFmulD
  repeat' first | exact h | with_reducible apply keeps_fp2

theorem keeps_execFdivD {s : State} (h : Canonical s) (d a b : Reg) (m : BitVec 3) : Keeps (execFdivD d a b m s) := by
  unfold execFdivD
  repeat' first | exact h | with_reducible apply keeps_fp2

theorem keeps_execFsqrtD {s : State} (h : Canonical s) (d a : Reg) (m : BitVec 3) : Keeps (execFsqrtD d a m s) := by
  unfold execFsqrtD
  repeat' first | exact h | with_reducible apply keeps_fp1

theorem keeps_execFminD {s : State} (h : Canonical s) (d a b : Reg) : Keeps (execFminD d a b s) := by
  unfold execFminD
  repeat' first | exact h | with_reducible apply keeps_fpMin

theorem keeps_execFmaxD {s : State} (h : Canonical s) (d a b : Reg) : Keeps (execFmaxD d a b s) := by
  unfold execFmaxD
  repeat' first | exact h | with_reducible apply keeps_fpMax

theorem keeps_execFeqD {s : State} (h : Canonical s) (d a b : Reg) : Keeps (execFeqD d a b s) := by
  unfold execFeqD
  repeat' first | exact h | with_reducible apply keeps_fpCmpS

theorem keeps_execFltD {s : State} (h : Canonical s) (d a b : Reg) : Keeps (execFltD d a b s) := by
  unfold execFltD
  repeat' first | exact h | with_reducible apply keeps_fpCmpS

theorem keeps_execFleD {s : State} (h : Canonical s) (d a b : Reg) : Keeps (execFleD d a b s) := by
  unfold execFleD
  repeat' first | exact h | with_reducible apply keeps_fpCmpS

theorem keeps_execFcvtDL {s : State} (h : Canonical s) (d a : Reg) (m : BitVec 3) : Keeps (execFcvtDL d a m s) := by
  unfold execFcvtDL
  repeat' first | exact h | with_reducible apply keeps_fpFromInt

theorem keeps_execFcvtLD {s : State} (h : Canonical s) (d a : Reg) (m : BitVec 3) : Keeps (execFcvtLD d a m s) := by
  unfold execFcvtLD
  repeat' first | exact h | with_reducible apply keeps_fpToInt64

theorem keeps_execFclassD {s : State} (h : Canonical s) (d a : Reg) : Keeps (execFclassD d a s) := by
  unfold execFclassD
  repeat' first | exact h | with_reducible apply keeps_fpClassS

theorem keeps_fma {s : State} (h : Canonical s) (f : Fmt) (np nc : Bool) (d a b : Reg) (m : BitVec 3) : Keeps
    (fma f np nc d a b m s) := by
  unfold fma
  repeat' first | exact h | with_reducible apply keeps_fpRound

theorem keeps_execFmaddS {s : State} (h : Canonical s) (d a b : Reg) (m : BitVec 3) : Keeps (execFmaddS d a b m s) := by
  unfold execFmaddS
  repeat' first | exact h | with_reducible apply keeps_fma

theorem keeps_execFmsubS {s : State} (h : Canonical s) (d a b : Reg) (m : BitVec 3) : Keeps (execFmsubS d a b m s) := by
  unfold execFmsubS
  repeat' first | exact h | with_reducible apply keeps_fma

theorem keeps_execFnmaddS {s : State} (h : Canonical s) (d a b : Reg) (m : BitVec 3) : Keeps (execFnmaddS d a b m s) := by
  unfold execFnmaddS
  repeat' first | exact h | with_reducible apply keeps_fma

theorem keeps_execFnmsubS {s : State} (h : Canonical s) (d a b : Reg) (m : BitVec 3) : Keeps (execFnmsubS d a b m s) := by
  unfold execFnmsubS
  repeat' first | exact h | with_reducible apply keeps_fma

theorem keeps_execFmaddD {s : State} (h : Canonical s) (d a b : Reg) (m : BitVec 3) : Keeps (execFmaddD d a b m s) := by
  unfold execFmaddD
  repeat' first | exact h | with_reducible apply keeps_fma

theorem keeps_execFmsubD {s : State} (h : Canonical s) (d a b : Reg) (m : BitVec 3) : Keeps (execFmsubD d a b m s) := by
  unfold execFmsubD
  repeat' first | exact h | with_reducible apply keeps_fma

theorem keeps_execFnmaddD {s : State} (h : Canonical s) (d a b : Reg) (m : BitVec 3) : Keeps (execFnmaddD d a b m s) := by
  unfold execFnmaddD
  repeat' first | exact h | with_reducible apply keeps_fma

theorem keeps_execFnmsubD {s : State} (h : Canonical s) (d a b : Reg) (m : BitVec 3) : Keeps (execFnmsubD d a b m s) := by
  unfold execFnmsubD
  repeat' first | exact h | with_reducible apply keeps_fma

theorem keeps_scalarAtomic {s : State} (h : Canonical s) {k : State → Nat → Res} (va : Word) (n : Nat) (release : Bool)
    (f : Nat → Option Nat) (hk : ∀ t x, Canonical t → Keeps (k t x)) :
    Keeps (scalarAtomic s va n release f k) := by
  unfold scalarAtomic
  split
  · exact keeps_trap h _ _ _
  · split
    · exact keeps_stopped h _
    · rename_i ks _
      split
      · exact keeps_next (canonical_stall h)
      · refine keeps_afterPoison h _ _ ?_
        extract_lets u old
        have hu : Canonical u := canonical_filterLines (canonical_touch h _ _ _) _ _
        clear_value u
        split
        · exact hk _ _ hu
        · exact hk _ _ (canonical_storeBytes (canonical_addStale (canonical_settleHeld hu _ _) _ _) _ _)

theorem keeps_amo {s : State} (h : Canonical s) (d a b : Reg) (order : BitVec 2) (word : Bool) (scope : BitVec 3)
    (f : Nat → Nat → Nat → Nat → Option Nat) : Keeps (amo d a b order word scope f s) := by
  unfold amo
  dsimp only
  repeat' first
    | exact h | assumption | split | with_reducible apply keeps_checked | with_reducible apply keeps_withRegs
    | with_reducible apply keeps_scalarAtomic | with_reducible apply keeps_next | intro _ _ _

theorem keeps_execAmoadd {s : State} (h : Canonical s) (d a b : Reg) (order : BitVec 2) (word : Bool) (scope : BitVec 3) :
    Keeps (execAmoadd d a b order word scope s) := by
  unfold execAmoadd
  repeat' first | exact h | with_reducible apply keeps_amo

theorem keeps_execAmoswap {s : State} (h : Canonical s) (d a b : Reg) (order : BitVec 2) (word : Bool) (scope : BitVec 3) :
    Keeps (execAmoswap d a b order word scope s) := by
  unfold execAmoswap
  repeat' first | exact h | with_reducible apply keeps_amo

theorem keeps_execAmoand {s : State} (h : Canonical s) (d a b : Reg) (order : BitVec 2) (word : Bool) (scope : BitVec 3) :
    Keeps (execAmoand d a b order word scope s) := by
  unfold execAmoand
  repeat' first | exact h | with_reducible apply keeps_amo

theorem keeps_execAmoor {s : State} (h : Canonical s) (d a b : Reg) (order : BitVec 2) (word : Bool) (scope : BitVec 3) :
    Keeps (execAmoor d a b order word scope s) := by
  unfold execAmoor
  repeat' first | exact h | with_reducible apply keeps_amo

theorem keeps_execAmomin {s : State} (h : Canonical s) (d a b : Reg) (order : BitVec 2) (word : Bool) (scope : BitVec 3) :
    Keeps (execAmomin d a b order word scope s) := by
  unfold execAmomin
  repeat' first | exact h | with_reducible apply keeps_amo

theorem keeps_execAmomax {s : State} (h : Canonical s) (d a b : Reg) (order : BitVec 2) (word : Bool) (scope : BitVec 3) :
    Keeps (execAmomax d a b order word scope s) := by
  unfold execAmomax
  repeat' first | exact h | with_reducible apply keeps_amo

theorem keeps_execAmocas {s : State} (h : Canonical s) (d a b : Reg) (order : BitVec 2) (word : Bool) (scope : BitVec 3) :
    Keeps (execAmocas d a b order word scope s) := by
  unfold execAmocas
  repeat' first | exact h | with_reducible apply keeps_amo

theorem keeps_execAmoxor {s : State} (h : Canonical s) (d a b : Reg) (order : BitVec 2) (word : Bool) (scope : BitVec 3) :
    Keeps (execAmoxor d a b order word scope s) := by
  unfold execAmoxor
  repeat' first | exact h | with_reducible apply keeps_amo

theorem keeps_execTrap {s : State} (h : Canonical s) (code : BitVec 10) : Keeps (execTrap code s) := by
  unfold execTrap
  repeat' first | exact h | with_reducible apply keeps_trap

theorem keeps_priv {s : State} (h : Canonical s) : Keeps (State.priv s) := by
  unfold State.priv
  repeat' first | exact h | with_reducible apply keeps_trap

theorem keeps_kernelOnly {s : State} (h : Canonical s) {k : State → Res} (hk : Keeps (k s)) :
    Keeps (kernelOnly s k) := by
  unfold kernelOnly
  split
  · exact hk
  · exact keeps_priv h

theorem keeps_returnFromTrap {s : State} (h : Canonical s) : Keeps (State.returnFromTrap s) := by
  unfold State.returnFromTrap
  extract_lets c
  repeat' first
    | exact h | split | with_reducible apply keeps_trap | with_reducible apply keeps_next
    | with_reducible apply keeps_fault | with_reducible apply keeps_stopped

theorem keeps_execTret {s : State} (h : Canonical s) : Keeps (execTret s) := by
  unfold execTret
  repeat' first
    | exact h | split | with_reducible apply keeps_checked | with_reducible apply keeps_kernelOnly
    | with_reducible apply keeps_returnFromTrap | with_reducible apply keeps_next

theorem keeps_execBrk {s : State} (h : Canonical s) (code : BitVec 10) : Keeps (execBrk code s) := by
  unfold execBrk
  repeat' first | exact h | with_reducible apply keeps_trap

theorem keeps_execWait {s : State} (h : Canonical s) (d a : Reg) : Keeps (execWait d a s) := by
  unfold execWait
  refine keeps_withRegs _ h _ ?_
  split
  · exact keeps_next (canonical_stall (canonical_modCur h _))
  · exact keeps_next (canonical_retire (canonical_modCur h _) _ _ _)

theorem keeps_execYield {s : State} (h : Canonical s) (a : Reg) : Keeps (execYield a s) := by
  unfold execYield
  repeat' first
    | exact h | split | with_reducible apply keeps_withRegs | with_reducible apply canonical_poll
    | with_reducible apply keeps_next

theorem keeps_execHalt {s : State} (h : Canonical s) : Keeps (execHalt s) := by
  unfold execHalt
  repeat' first
    | exact h | split | with_reducible apply keeps_kernelOnly | with_reducible apply canonical_endStrand
    | with_reducible apply keeps_next

theorem keeps_execMfc {s : State} (h : Canonical s) (d : Reg) (cr : BitVec 10) : Keeps (execMfc d cr s) := by
  unfold execMfc
  dsimp only
  repeat' first
    | exact h | split | with_reducible apply keeps_illegal | with_reducible apply keeps_priv
    | with_reducible apply keeps_withRegs | with_reducible apply keeps_next

theorem keeps_execMtc {s : State} (h : Canonical s) (r : Reg) (cr : BitVec 10) : Keeps (execMtc r cr s) := by
  unfold execMtc
  dsimp only
  repeat' first
    | exact h | split | with_reducible apply keeps_illegal | with_reducible apply keeps_withRegs
    | with_reducible apply keeps_priv | with_reducible apply canonical_advance | with_reducible apply canonical_setMaxlg
    | with_reducible apply keeps_next

theorem keeps_execFarm {s : State} (h : Canonical s) (d a b : Reg) : Keeps (execFarm d a b s) := by
  unfold execFarm
  dsimp only
  repeat' first
    | exact h | assumption | split | with_reducible apply keeps_withRegs | with_reducible apply keeps_trap
    | with_reducible apply keeps_scalarLoad | with_reducible apply canonical_queueFarm | with_reducible apply keeps_next
    | intro _ _ _

theorem canonical_nextStripOf {s t : State} {x : Nat} (e : s.nextStripOf = some (x, t)) (h : Canonical s) : Canonical t := by
  unfold State.nextStripOf at e
  dsimp only at e
  split at e
  · exact absurd e (by simp)
  · rename_i f _
    generalize (if f.fd.fixed then s.cur.logid + s.cur.strips * s.cur.nstrands else f.nextStrip) = y at e
    split at e
    · obtain rfl : _ = t := congrArg Prod.snd (Option.some.inj e)
      exact canonical_modFarm (canonical_modCur h _) _ _
    · exact absurd e (by simp)

theorem keeps_execStrip {s : State} (h : Canonical s) (d : Reg) : Keeps (execStrip d s) := by
  unfold execStrip
  refine keeps_withRegs _ h _ ?_
  split
  · rename_i e
    exact keeps_next (canonical_retire (canonical_nextStripOf e h) _ _ _)
  · exact keeps_next h

theorem canonical_dropTlb {s : State} (h : Canonical s) (part : BitVec 3) (lo hi : Nat) : Canonical (s.dropTlb part lo hi) :=
    by
  unfold State.dropTlb
  repeat' first
    | exact h | assumption | with_reducible apply canonical_modCore | with_reducible apply canonical_foldl | intro _ _ _

theorem canonical_rewalkStores {s : State} (h : Canonical s) (part : BitVec 3) (lo hi : Nat) :
    Canonical (s.rewalkStores part lo hi) := canonical_mapStrands h _

theorem keeps_execTlbi {s : State} (h : Canonical s) (d a b : Reg) : Keeps (execTlbi d a b s) := by
  unfold execTlbi
  dsimp only
  repeat' first
    | exact h | split | with_reducible apply keeps_kernelOnly | with_reducible apply keeps_withRegs
    | with_reducible apply canonical_retire | with_reducible apply canonical_mapStrands
    | with_reducible apply canonical_rewalkStores | with_reducible apply canonical_dropTlb | with_reducible apply keeps_next

theorem keeps_execSync {s : State} (h : Canonical s) : Keeps (execSync s) := by
  unfold execSync
  repeat' first
    | exact h | split | with_reducible apply canonical_advance | with_reducible apply canonical_modCore
    | with_reducible apply keeps_next

theorem keeps_execVsync {s : State} (h : Canonical s) : Keeps (execVsync s) := by
  unfold execVsync
  repeat' first | exact h | split | with_reducible apply keeps_next

theorem keeps_execFence {s : State} (h : Canonical s) (kinds : Reg) (scope : BitVec 3) : Keeps (execFence kinds scope s) :=
    by
  unfold execFence
  repeat' first | exact h | split | with_reducible apply keeps_checked | with_reducible apply keeps_next

theorem keeps_afterCount {s : State} (h : Canonical s) : Keeps (State.afterCount s) := by
  unfold State.afterCount
  repeat' first | exact h | split | with_reducible apply keeps_next

theorem keeps_execVfence {s : State} (h : Canonical s) : Keeps (execVfence s) := by
  unfold execVfence
  split
  · exact keeps_afterCount h
  · split
    · exact keeps_next (canonical_stall h)
    · split
      · exact keeps_next (canonical_advance h _)
      · exact keeps_afterCount (canonical_poll (canonical_closeEpoch (canonical_modCur h _) _))

theorem keeps_onBarrier {s : State} (h : Canonical s) {k : State → Bool → Nat → BitVec 16 → Res} (rs : List Reg) (d a : Reg)
    (bad : Word) (hk : ∀ die idx f, Keeps (k s die idx f)) :
    Keeps (onBarrier rs d a bad s k) := by
  unfold onBarrier
  apply keeps_withRegs _ h
  dsimp only
  split
  · exact hk _ _ _
  · exact keeps_next h

theorem keeps_execBarInit {s : State} (h : Canonical s) (d a b : Reg) : Keeps (execBarInit d a b s) := by
  unfold execBarInit
  dsimp only
  repeat' first | exact h | split | with_reducible apply keeps_onBarrier | with_reducible apply keeps_next | intro _ _ _

theorem keeps_released {s : State} (h : Canonical s) {k : State → Res} (hk : Keeps (k s)) :
    Keeps (released s k) := by
  unfold released
  split
  · exact keeps_next h
  · exact hk

theorem keeps_execBarArrive {s : State} (h : Canonical s) (d a : Reg) : Keeps (execBarArrive d a s) := by
  unfold execBarArrive
  dsimp only
  repeat' first
    | exact h | split | with_reducible apply keeps_onBarrier | with_reducible apply keeps_released
    | with_reducible apply canonical_arrive | with_reducible apply keeps_next | intro _ _ _

theorem keeps_execBarWait {s : State} (h : Canonical s) (d a : Reg) : Keeps (execBarWait d a s) := by
  unfold execBarWait
  repeat' first | exact h | split | with_reducible apply keeps_onBarrier | with_reducible apply keeps_next | intro _ _ _

theorem keeps_execBarPost {s : State} (h : Canonical s) (d a b : Reg) : Keeps (execBarPost d a b s) := by
  unfold execBarPost
  repeat' first
    | exact h | split | with_reducible apply keeps_onBarrier | (with_reducible apply canonical_announce; assumption)
    | with_reducible apply canonical_retire | with_reducible apply keeps_next | intro _ _ _

theorem keeps_execBarDone {s : State} (h : Canonical s) (d a b : Reg) : Keeps (execBarDone d a b s) := by
  unfold execBarDone
  dsimp only
  repeat' first
    | exact h | split | with_reducible apply keeps_onBarrier | with_reducible apply keeps_released
    | with_reducible apply canonical_deliver | with_reducible apply keeps_next | intro _ _ _

theorem keeps_afterArrival {s : State} (h : Canonical s) (d : Reg) (f : BitVec 16) (phase : Bool) : Keeps
    (State.afterArrival s d f phase) := by
  unfold State.afterArrival
  split
  · exact keeps_next (canonical_retire (canonical_modCur h _) _ _ _)
  · exact keeps_next (canonical_stall (canonical_modCur h _))

theorem keeps_execBarArrwait {s : State} (h : Canonical s) (d a : Reg) : Keeps (execBarArrwait d a s) := by
  unfold execBarArrwait
  dsimp only
  repeat' first
    | exact h | split | with_reducible apply keeps_withRegs | with_reducible apply keeps_afterArrival
    | with_reducible apply keeps_onBarrier | with_reducible apply keeps_released | with_reducible apply canonical_arrive
    | with_reducible apply keeps_next | intro _ _ _

theorem keeps_execBarQuery {s : State} (h : Canonical s) (d a : Reg) : Keeps (execBarQuery d a s) := by
  unfold execBarQuery
  repeat' first | exact h | with_reducible apply keeps_onBarrier | with_reducible apply keeps_next | intro _ _ _

theorem keeps_pinCap {s : State} (h : Canonical s) (base n : Nat) : Keeps (s.pinCap base n) := by
  unfold State.pinCap
  split
  · exact keeps_trap h _ _ _
  · exact keeps_trap (canonical_draw h) _ _ _

theorem keeps_execPin {s : State} (h : Canonical s) (k a b : Reg) (m : BitVec 3) : Keeps (execPin k a b m s) := by
  unfold execPin
  refine keeps_checked h _ (keeps_withRegs _ h _ ?_)
  dsimp only
  split
  · exact keeps_trap h _ _ _
  · split
    · exact keeps_trap h _ _ _
    · split
      · exact keeps_stopped h _
      · split
        · exact keeps_pinCap h _ _
        · exact keeps_next (canonical_advance (canonical_modCur h _) _)

theorem keeps_execUnpin {s : State} (h : Canonical s) (k : Reg) : Keeps (execUnpin k s) := by
  unfold execUnpin
  repeat' first
    | exact h | split | with_reducible apply keeps_checked | with_reducible apply canonical_poll
    | with_reducible apply canonical_advance | with_reducible apply canonical_unpinOne | with_reducible apply keeps_next

theorem keeps_execPinq {s : State} (h : Canonical s) (d k sel : Reg) : Keeps (execPinq d k sel s) := by
  unfold execPinq
  repeat' first
    | exact h | with_reducible apply keeps_checked | with_reducible apply keeps_withRegs | with_reducible apply keeps_next

theorem keeps_post {s : State} (h : Canonical s) (i : Instr) (op : VOp) (len : Nat) : Keeps (post i op len s) := by
  unfold post
  repeat' first
    | exact h | split | with_reducible apply keeps_checked | with_reducible apply keeps_withRegs
    | with_reducible apply keeps_stopped | with_reducible apply keeps_next

theorem keeps_execSetvl {s : State} (h : Canonical s) (ext : Bool) (d a : Reg) : Keeps (execSetvl ext d a s) := by
  unfold execSetvl
  refine keeps_withRegs _ h _ ?_
  dsimp only
  split
  · exact keeps_next (canonical_retire (canonical_modCur (canonical_modCur h _) _) _ _ _)
  · split
    · exact keeps_next (canonical_stall h)
    · exact keeps_next (canonical_poll (canonical_retire (canonical_modCur (canonical_modCur h _) _) _ _ _))

theorem keeps_execSetvtype {s : State} (h : Canonical s) (ext : Bool) (d a : Reg) : Keeps (execSetvtype ext d a s) := by
  unfold execSetvtype
  refine keeps_withRegs _ h _ ?_
  split
  · exact keeps_illegal h
  · exact keeps_next (canonical_retire (canonical_modCur h _) _ _ _)

theorem keeps_execCAddi {s : State} (h : Canonical s) (d : BitVec 3) (imm : BitVec 8) : Keeps (execCAddi d imm s) := by
  unfold execCAddi
  repeat' first | exact h | with_reducible apply keeps_aluImm

theorem keeps_execCAdd {s : State} (h : Canonical s) (d a : BitVec 3) : Keeps (execCAdd d a s) := by
  unfold execCAdd
  repeat' first | exact h | with_reducible apply keeps_withRegs | with_reducible apply keeps_next

theorem keeps_execCMov {s : State} (h : Canonical s) (d a : BitVec 3) : Keeps (execCMov d a s) := by
  unfold execCMov
  repeat' first | exact h | with_reducible apply keeps_withRegs | with_reducible apply keeps_next

theorem keeps_execCLd {s : State} (h : Canonical s) (d : BitVec 3) (imm : BitVec 8) : Keeps (execCLd d imm s) := by
  unfold execCLd
  repeat' first | exact h | with_reducible apply keeps_load

theorem keeps_execCSt {s : State} (h : Canonical s) (r : BitVec 3) (imm : BitVec 8) : Keeps (execCSt r imm s) := by
  unfold execCSt
  repeat' first | exact h | with_reducible apply keeps_store

theorem keeps_execCNop {s : State} (h : Canonical s) : Keeps (execCNop s) := by
  unfold execCNop
  repeat' first | exact h | with_reducible apply keeps_next

theorem keeps_execCvy {s : State} (h : Canonical s) : Keeps (execCvy s) := by
  unfold execCvy
  repeat' first | exact h | with_reducible apply keeps_next

theorem keeps_execCBrk {s : State} (h : Canonical s) (code : BitVec 11) : Keeps (execCBrk code s) := by
  unfold execCBrk
  repeat' first | exact h | with_reducible apply keeps_trap

theorem canonical_becomeReady {s : State} (h : Canonical s) : Canonical (s.becomeReady) := by
  unfold State.becomeReady
  dsimp only
  repeat' first | exact h | split | with_reducible apply canonical_respond

theorem canonical_trainLinks {s : State} (h : Canonical s) : Canonical (s.trainLinks) := by
  unfold State.trainLinks
  dsimp only
  exact h

theorem canonical_selfTest {s : State} (h : Canonical s) : Canonical s.selfTest := canonical_lit rfl rfl (canonical_draw h)

theorem canonical_warmScrub {s : State} (h : Canonical s) : Canonical (s.warmScrub) := by
  unfold State.warmScrub
  dsimp only
  repeat' first
    | exact h | assumption | split | with_reducible apply canonical_clearKeys | with_reducible apply canonical_foldl
    | intro _ _ _

theorem canonical_stepEffect {s : State} (h : Canonical s) (n : Nat) : Canonical (s.stepEffect n) := by
  unfold State.stepEffect
  split
  · exact canonical_selfTest h
  · exact canonical_trainLinks h
  · split
    · exact ⟨mem_nil_wf, h.2⟩
    · exact canonical_warmScrub h
  · exact h

theorem keeps_execStartStepComplete {s : State} (h : Canonical s) (ok : Bool) : Keeps (execStartStepComplete ok s) := by
  unfold execStartStepComplete
  dsimp only
  repeat' first
    | exact h | split | with_reducible apply canonical_failStart | with_reducible apply canonical_becomeReady
    | with_reducible apply canonical_stepEffect | with_reducible apply keeps_next

theorem keeps_execPowerLoss {s : State} (h : Canonical s) : Keeps (execPowerLoss s) := by
  unfold execPowerLoss
  dsimp only
  repeat' first | with_reducible apply canonical_powerDown | with_reducible apply keeps_next

theorem canonical_poisonLine {s : State} (h : Canonical s) (line : Nat) : Canonical (s.poisonLine line) := by
  unfold State.poisonLine
  exact h

theorem canonical_rowFault {s : State} (h : Canonical s) (key : Nat) (e : VEntry) (acc : BitVec 3) (x : Stop) : Canonical
    (s.rowFault key e acc x) := by
  unfold State.rowFault
  split
  · exact h
  · exact canonical_modStrand (canonical_vFault h _ _ _ _) _ _

theorem canonical_stayAtRow {s : State} (h : Canonical s) (key : Nat) (e : VEntry) (acc : BitVec 3) :
    Canonical (s.stayAtRow key e acc) := canonical_modStrand h _ _

theorem canonical_runRow {s : State} (h : Canonical s) (key : Nat) (t : Strand) (e : VEntry) (op : VOp) (f : TileForm) :
    Canonical (s.runRow key t e op f) := by
  unfold State.runRow
  split
  · exact canonical_rowFault h _ _ _ _
  · extract_lets r
    split
    · exact canonical_rowFault h _ _ _ _
    · split
      · exact canonical_rowFault h _ _ _ _
      · extract_lets b
        have hb : Canonical b.1 := canonical_recoverRows h _ _ _ _ _
        clear_value b
        split
        · exact canonical_stayAtRow hb _ _ _
        · exact canonical_modStrand (canonical_vStores (canonical_cleanReads hb _ _) _ _ _) _ _

theorem keeps_execMemoryError {s : State} (h : Canonical s) (pa : BitVec 52) (fixable : Bool) : Keeps
    (execMemoryError pa fixable s) := by
  unfold execMemoryError
  dsimp only
  repeat' first | exact h | split | with_reducible apply canonical_addError | with_reducible apply keeps_next

theorem keeps_execSoftError {s : State} (h : Canonical s) (e : SoftError) : Keeps (execSoftError e s) := by
  unfold execSoftError
  split
  · split
    · exact keeps_next (canonical_modCore h _ _)
    · exact keeps_next h
  · exact keeps_next h
  · exact keeps_next (canonical_modStrand h _ _)
  · exact keeps_next (canonical_modStrand h _ _)
  · exact keeps_next (canonical_mapStrands (canonical_poisonLine h _) _)

theorem canonical_tileStep {s : State} (h : Canonical s) (key : Nat) : Canonical (s.tileStep key) := by
  unfold State.tileStep
  split
  · exact h
  · split
    · exact h
    · split
      · extract_lets c u
        split
        · exact h
        · have hu : Canonical u := by
            refine canonical_modCore ?_ _ _
            split
            · exact h
            · exact canonical_granted h _ _
          clear_value u
          split
          · exact canonical_modStrand hu _ _
          · exact canonical_runRow hu _ _ _ _ _
      · exact h

theorem keeps_execMatrixEngineStep {s : State} (h : Canonical s) (key : Nat) : Keeps (execMatrixEngineStep key s) := by
  unfold execMatrixEngineStep
  repeat' first | exact h | with_reducible apply canonical_tileStep | with_reducible apply keeps_next

theorem canonical_runLine {s : State} (h : Canonical s) (key : Nat) (t : Strand) (e : VEntry) (op : VOp) (q : BitVec 1) :
    Canonical (s.runLine key t e op q) := by
  unfold State.runLine
  extract_lets r
  split
  · exact canonical_vFault h _ _ _ _
  · split
    · exact canonical_vFault h _ _ _ _
    · extract_lets n b
      have hb : Canonical b.1 := canonical_recoverRows h _ _ _ _ _
      clear_value b
      split
      · exact hb
      · exact canonical_modStrand (canonical_vStores (canonical_cleanReads hb _ _) _ _ _) _ _

theorem canonical_orthStep {s : State} (h : Canonical s) (key : Nat) : Canonical (s.orthStep key) := by
  unfold State.orthStep
  split
  · exact h
  · split
    · exact h
    · split
      · extract_lets c u
        split
        · exact h
        · have hu : Canonical u := by
            refine canonical_modCore ?_ _ _
            split
            · exact h
            · exact canonical_granted h _ _
          clear_value u
          exact canonical_runLine hu _ _ _ _ _
      · exact h

theorem keeps_execOrthogonalLineStep {s : State} (h : Canonical s) (key : Nat) : Keeps (execOrthogonalLineStep key s) := by
  unfold execOrthogonalLineStep
  repeat' first | exact h | with_reducible apply canonical_orthStep | with_reducible apply keeps_next

theorem keeps_execScalarAccessPerformed {s : State} (h : Canonical s) (key n : Nat) : Keeps
    (execScalarAccessPerformed key n s) := by
  unfold execScalarAccessPerformed
  repeat' first | exact h | split | with_reducible apply canonical_performNth | with_reducible apply keeps_next

theorem keeps_execLanePowerUp {s : State} (h : Canonical s) (core : BitVec 8) (lane : BitVec 5) : Keeps
    (execLanePowerUp core lane s) := by
  unfold execLanePowerUp
  repeat' first
    | exact h | with_reducible apply canonical_poll | with_reducible apply canonical_modCore | with_reducible apply keeps_next

theorem canonical_asPsc {s : State} (h : Canonical s) : Canonical (s.asPsc) := by
  unfold State.asPsc
  dsimp only
  exact h

theorem canonical_placeCode {s : State} (h : Canonical s) (ps : List (BitVec 16)) : Canonical (s.placeCode ps) :=
  ⟨memWriteList_wf h.1 _ _, pairwise_sset _ h.2 _ _⟩

theorem canonical_readParcel {s : State} (h : Canonical s) (ks : List Nat) : Canonical (readParcel s ks).2 := by
  unfold readParcel
  dsimp only
  repeat' first | exact h | split

theorem canonical_readParcel_eq {s : State} {ks : List Nat} {out : State} {val} (eq : readParcel s ks = (val, out))
    (h : Canonical s) : Canonical out := by
  have g := canonical_readParcel h ks
  rw [eq] at g
  exact g

theorem canonical_writeRecord {s : State} (h : Canonical s) (r : CmdRec) : Canonical (s.writeRecord r) := by
  unfold State.writeRecord
  repeat' first | exact h | split

theorem canonical_writeBytesToPort {s : State} (h : Canonical s) (bs : List Byte) : Canonical (s.writeBytesToPort bs) := by
  unfold State.writeBytesToPort
  repeat' first | exact h | split | with_reducible apply canonical_writeRecord

theorem canonical_badOp {s : State} (h : Canonical s) (r : CmdRec) : Canonical (s.badOp r) := by
  unfold State.badOp
  repeat' first | exact h | split | with_reducible apply canonical_respond

theorem canonical_withFetchWord {s : State} (h : Canonical s) (nbits w : Nat) : Canonical (s.withFetchWord nbits w) := by
  unfold State.withFetchWord
  repeat' first | exact h | with_reducible apply canonical_placeCode

theorem canonical_passOn {s : State} (h : Canonical s) : Canonical (s.passOn) := by
  unfold State.passOn
  repeat' first | exact h | split | with_reducible apply canonical_focus

end Sys2Proof.Machine
end

