-- ==== Sys2Proof/Tests/Slice0.lean ====
section
/-! SUPPORT. Tests: words of the spec's tables decode as written, ill-formed terms are refused, single steps give the
results of the spec's worked examples, and for each statement concrete states and operands that meet its hypotheses. -/

namespace Sys2Proof.Tests

set_option Elab.async false

open Sys2Proof Sys2Proof.Machine Sys2Proof.Claims

/-! ### Words of the spec's tables (R214 to R228 and the worked encodings of its chapters) -/

/-- No prefix, predicate p. -/
def px (p : PReg) : VX := { ext := false, m := p }

theorem test_decode_add : decodeTableWord 32 0x00148304 = some (.add 3 4 5) := by decide
theorem test_decode_divu : decodeTableWord 32 0x14316A08 = some (.divu 10 11 12) := by decide
theorem test_decode_srai : decodeTableWord 32 0x80FD281C = some (.srai 8 9 63) := by decide
theorem test_decode_ldhu : decodeTableWord 32 0xFFD50930 = some (.ld 9 8 1 true (-2)) := by decide
theorem test_decode_blt : decodeTableWord 32 0xFFE12840 = some (.blt 8 9 (-8)) := by decide
theorem test_decode_fclass : decodeTableWord 32 0x30016A5C = some (.fclassS 10 11) := by decide
theorem test_decode_fmadd : decodeTableWord 32 0x0018A460 = some (.fmaddS 4 5 6 0) := by decide
theorem test_decode_amocas : decodeTableWord 32 0x599CC564 = some (.amocas 5 6 7 1 false 3) := by decide
theorem test_decode_c_addi : decodeTableWord 16 0xFD21 = some (.cAddi 1 (-3)) := by decide
theorem test_decode_cvy : decodeTableWord 16 0x0006 = some .cvy := by decide
theorem test_decode_addi_imm : decodeTableWord 64 0x0900080C00003D13 = some (.addiImm 8 0 1000000) := by decide
theorem test_decode_trap : decodeTableWord 32 0x0000A068 = some (.trap 5) := by decide
theorem test_decode_brk : decodeTableWord 32 0x0800E068 = some (.brk 7) := by decide
theorem test_decode_tret : decodeTableWord 32 0x04000068 = some .tret := by decide
theorem test_decode_wait : decodeTableWord 32 0x0C012868 = some (.wait 8 9) := by decide
theorem test_decode_yield : decodeTableWord 32 0x10012068 = some (.yield 9) := by decide
theorem test_decode_mfc : decodeTableWord 32 0x18000868 = some (.mfc 8 0) := by decide
theorem test_decode_mtc : decodeTableWord 32 0x1C002568 = some (.mtc 5 1) := by decide
theorem test_decode_farm : decodeTableWord 32 0x20292868 = some (.farm 8 9 10) := by decide
theorem test_decode_tlbi : decodeTableWord 32 0x28292868 = some (.tlbi 8 9 10) := by decide
theorem test_decode_sync : decodeTableWord 32 0x2C000068 = some .sync := by decide
theorem test_decode_castle : decodeTableWord 32 0x00292878 = some (.castle 8 9 10) := by decide
theorem test_decode_castq : decodeTableWord 32 0x04010B78 = some (.castq 11 8) := by decide
theorem test_decode_setvl : decodeTableWord 32 0x000128B0 = some (.setvl false 8 9) := by decide
theorem test_decode_setvtype : decodeTableWord 32 0x040280B0 = some (.setvtype false 0 20) := by decide
theorem test_decode_vfadd : decodeTableWord 32 0x01082388 = some (.vfadd (px 2) 3 1 2) := by decide
theorem test_decode_vfadd_ext :
    decodeTableWord 64 0x000000880810E80F = some (.vfadd { ext := true, m := 40 } 3 1 2) := by decide
theorem test_decode_vfmacc : decodeTableWord 32 0x00882490 = some (.vfmacc (px 1) 4 1 2) := by decide
theorem test_decode_vflt : decodeTableWord 32 0x5C282994 = some (.vfltScalar (px 0) 9 1 10) := by decide
theorem test_decode_pfirst : decodeTableWord 32 0x1C006898 = some (.pfirst (px 0) 8 3) := by decide
theorem test_decode_vslideup : decodeTableWord 32 0x0024459C = some (.vslideup (px 0) 5 2 9) := by decide
theorem test_decode_vredsum : decodeTableWord 32 0x000068A0 = some (.vredsum (px 0) 8 3) := by decide
theorem test_decode_vcvt : decodeTableWord 32 0x100106A4 = some (.vcvtFFp32 (px 0) 6 8) := by decide
theorem test_decode_vdupsum : decodeTableWord 32 0x081489AC = some (.vdupsum (px 0) 9 4 5) := by decide
theorem test_decode_pin : decodeTableWord 32 0x0198A270 = some (.pin 2 5 6 3) := by decide
theorem test_decode_vld : decodeTableWord 32 0x4480A1C0 = some (.vld (px 1) 2 1 1 5) := by decide
theorem test_decode_vlds : decodeTableWord 32 0x4418A2C4 = some (.vlds (px 0) 2 1 2 5 6) := by decide
theorem test_decode_vldseg : decodeTableWord 32 0x4408A8CC = some (.vldseg (px 0) 2 1 8 5 2 none) := by decide
theorem test_decode_vstx : decodeTableWord 32 0xC89CC4D8 = some (.vstx (px 1) true 2 2 4 6 7) := by decide
theorem test_decode_vamo : decodeTableWord 32 0x0C1905E0 = some (.vamoAdd (px 0) false 3 5 8 6) := by decide
theorem test_decode_vgscr : decodeTableWord 32 0x4410A9E4 = some (.vgscr (px 0) 2 1 9 5 4) := by decide
theorem test_decode_vepop : decodeTableWord 32 0x404003E8 = some (.vepop false 2 3 16) := by decide
theorem test_decode_epush : decodeTableWord 32 0x00012074 = some (.epush 0 9) := by decide
theorem test_decode_epop : decodeTableWord 32 0x04040A74 = some (.epop 10 1) := by decide
theorem test_decode_fence : decodeTableWord 32 0x01800F6C = some (.fence 0b01111 3) := by decide
theorem test_decode_vfence : decodeTableWord 32 0x0400006C = some .vfence := by decide
theorem test_decode_bar_wait : decodeTableWord 32 0x1000E86C = some (.barWait 8 7) := by decide
theorem test_decode_tcfg : decodeTableWord 64 0x000000FC00000007 = some (.tcfg 0) := by decide
theorem test_decode_tmma : decodeTableWord 64 0x081CC4FCA2019807 = some (.tmma 0 4 6 7 0 3 3 0 1 2 true) := by decide
theorem test_decode_tchk : decodeTableWord 64 0x240122FC00280007 = some (.tchk 0 2 9 5) := by decide
theorem test_decode_trow : decodeTableWord 64 0x1D0144FC00000007 = some (.trow 0 4 10 2) := by decide
theorem test_decode_oqinit : decodeTableWord 64 0x819486FC0010240B = some (.oqinit 0 6 4 5 3 4 2 1) := by decide
theorem test_decode_oqacc : decodeTableWord 64 0x842460FC0000000B = some (.oqacc 0 3 9) := by decide
theorem test_decode_reserved_major : decodeTableWord 32 0x0000007C = none := by decide
theorem test_decode_zero_needed : decodeTableWord 32 0x04000168 = none := by decide

/-! ### Ill-formed terms are refused (R216, R222, R301) -/

theorem test_wf_device_step : Instr.wf .powerRestore = false := by decide
theorem test_wf_predicate : Instr.wf (.vadd (px 8) 1 2 3) = false := by decide
theorem test_wf_predicate_ok : Instr.wf (.vadd (px 7) 1 2 3) = true := by decide
theorem test_wf_operand : Instr.wf (.pfirst (px 0) 8 32) = false := by decide
theorem test_wf_permutation : Instr.wf (.vldseg (px 0) 2 1 8 5 2 (some 3)) = false := by decide

/-! ### Small states -/

/-- The machine after its start: READY, the nine steps complete. -/
def awake : State := { State.reset with mode := .ready, startStep := 9 }

/-- One strand of farm 1 running at kernel level. -/
def ready : State := { awake with cur := { Strand.blank with farm := 1, life := .running } }

/-- The same strand at user level. -/
def user : State := ready.modCur (fun t => { t with level := .user })

/-- Registers given values, first to last. -/
def regs (s : State) (xs : List (Reg × Word)) : State := xs.foldl (fun s p => s.setG p.1 p.2) s

/-- A state with some control registers changed. -/
def ctls (s : State) (f : Ctl → Ctl) : State := s.modCur (fun t => { t with ctl := f t.ctl })

/-- A register after an outcome. -/
noncomputable def gAfter (d : Reg) (o : Res) : Option Word := (nextOf o).map (fun t => t.g d)

/-- Something of the strand after an outcome. -/
noncomputable def after {α : Type} (o : Res) (f : State → α) : Option α := (nextOf o).map f

/-- The address of a byte of the strand's TCM window. -/
def tcm (off : Nat) : Word := BitVec.ofNat 64 (windowBase + off)

/-- A value n written in 64 bits, negative ones too. -/
def int (n : Int) : Word := BitVec.ofInt 64 n

/-! ### Worked examples of the spec -/

/-- R251: 17 ÷ −5. -/
theorem test_div : gAfter 8 (exec (.div 8 9 10) (regs ready [(9, 17), (10, int (-5))])) = some (int (-3)) := by decide
/-- R251: −17 rem 5. -/
theorem test_rem : gAfter 8 (exec (.rem 8 9 10) (regs ready [(9, int (-17)), (10, 5)])) = some (int (-2)) := by decide
/-- R251: −2^63 ÷ −1. -/
theorem test_div_overflow :
    gAfter 8 (exec (.div 8 9 10) (regs ready [(9, 0x8000000000000000), (10, int (-1))])) = some 0x8000000000000000 := by
  decide
/-- R251: 12 ÷ 0 and 12 rem 0, unsigned. -/
theorem test_divu_zero : gAfter 8 (exec (.divu 8 9 10) (regs ready [(9, 12)])) = some 0xFFFFFFFFFFFFFFFF := by decide
theorem test_remu_zero : gAfter 8 (exec (.remu 8 9 10) (regs ready [(9, 12)])) = some 12 := by decide
/-- R251: the high products of the table. -/
theorem test_mulh :
    gAfter 8 (exec (.mulh 8 9 10) (regs ready [(9, 0x8000000000000000), (10, 8)])) = some 0xFFFFFFFFFFFFFFFC := by decide
theorem test_mulhu : gAfter 8 (exec (.mulhu 8 9 10) (regs ready [(9, 0x8000000000000000), (10, 8)])) = some 4 := by decide
theorem test_mulhsu : gAfter 8 (exec (.mulhsu 8 9 10) (regs ready [(9, int (-1)), (10, int (-1))])) = some (int (-1)) := by
  decide
/-- R251: zero has 64 leading and 64 trailing zeros. -/
theorem test_clz : gAfter 8 (exec (.clz 8 9) ready) = some 64 := by decide
theorem test_ctz : gAfter 8 (exec (.ctz 8 9) ready) = some 64 := by decide
/-- R252: `andi g8, g8, -8` clears bits [2:0]. -/
theorem test_andi : gAfter 8 (exec (.andi 8 8 (-8)) (regs ready [(8, 0x7F)])) = some 0x78 := by decide
/-- R119: a write to g0 is discarded. -/
theorem test_g0 : gAfter 0 (exec (.add 0 9 10) (regs ready [(9, 3), (10, 4)])) = some 0 := by decide
/-- R261: `jlr lk, lk` reads its target first. -/
theorem test_jlr : after (exec (.jlr 31 31) (regs ready [(31, 0x100)])) (fun t => (t.cur.pc, t.g 31)) = some (0x100, 4) := by
  decide
/-- R265: class words of the table. -/
theorem test_fclass_one : gAfter 8 (exec (.fclassS 8 9) (regs ready [(9, 0x3F800000)])) = some 0x0002 := by decide
theorem test_fclass_hundred : gAfter 8 (exec (.fclassS 8 9) (regs ready [(9, 0xC2C80000)])) = some 0x006A := by decide
theorem test_fclass_tiny : gAfter 8 (exec (.fclassS 8 9) (regs ready [(9, 0x00000001)])) = some 0xF6B1 := by decide
theorem test_fclass_inf : gAfter 8 (exec (.fclassS 8 9) (regs ready [(9, 0xFF800000)])) = some 0x000B := by decide
/-- R266: conversions of the table, result and FSTAT. -/
theorem test_fcvt_half : after (exec (.fcvtLS 8 9 0) (regs ready [(9, 0x40600000)])) (fun t => (t.g 8, t.cur.ctl.fstat)) =
    some (4, 1) := by decide
theorem test_fcvt_even : after (exec (.fcvtLS 8 9 0) (regs ready [(9, 0xC0200000)])) (fun t => (t.g 8, t.cur.ctl.fstat)) =
    some (int (-2), 1) := by decide
theorem test_fcvt_big : after (exec (.fcvtLS 8 9 1) (regs ready [(9, 0x5F000000)])) (fun t => (t.g 8, t.cur.ctl.fstat)) =
    some (0x7FFFFFFFFFFFFFFF, 16) := by decide
theorem test_fcvt_up : after (exec (.fcvtSL 8 9 2) (regs ready [(9, 16777217)])) (fun t => (t.g 8, t.cur.ctl.fstat)) =
    some (0x4B800001, 1) := by decide
/-- R274: a width-16 strand with SEW 32: a request of 700 gets 512. -/
theorem test_setvl : after (exec (.setvl false 8 9) (regs (ready.modCur (fun t => { t with lgw := 16 })) [(9, 700)]))
    (fun t => (t.g 8, t.cur.ctl.vl)) = some (512, 512) := by decide
/-- R274: SEW 16 and BF16 (VTYPE 0x19) leave VL at 512. -/
theorem test_setvtype : after (exec (.setvtype false 8 9)
    (regs (ctls (ready.modCur (fun t => { t with lgw := 16 })) (fun c => { c with vl := 512 })) [(9, 0x19)]))
    (fun t => (t.g 8, t.cur.ctl.vtype)) = some (512, 0x19) := by decide
/-- R350, R197, R212: `trap 5` at kernel level. -/
theorem test_trap : after (exec (.trap 5) ready)
    (fun t => (t.cur.ctl.tcause, t.cur.ctl.tinfo, t.cur.pc, t.cur.inHandler)) =
    some (0x18, 0x8000000000000005, 0x7FFFF003000040, true) := by decide
/-- R229: `tret` at user level outside a handler is illegal before it is privileged. -/
theorem test_tret_user : after (exec .tret user) (fun t => t.cur.ctl.tcause) = some 0x01 := by decide
/-- R128: a user's `mfc` of PTBASE. -/
theorem test_mfc_priv : after (exec (.mfc 8 0x030) user) (fun t => t.cur.ctl.tcause) = some 0x02 := by decide
/-- R255: a store to TCM and the load that follows. -/
theorem test_store : after (exec (.st 8 9 3 8) (regs ready [(8, 0x1122334455667788), (9, tcm 0)]))
    (fun t => memNat t.mem (tcmKey 0 8) 8) = some 0x1122334455667788 := by decide
theorem test_load_signed : gAfter 8 (exec (.ld 8 9 0 false 3)
    ({ regs ready [(9, tcm 0)] with mem := memSetNat [] (tcmKey 0 3) 1 0x80 })) = some 0xFFFFFFFFFFFFFF80 := by decide
/-- R268: a 32-bit atomic changes only its four bytes and returns the old value sign-extended. -/
theorem test_amoadd : after (exec (.amoadd 8 9 10 0 true 0)
    ({ regs ready [(9, tcm 0), (10, 0x11)] with mem := memSetNat [] (tcmKey 0 0) 8 0x00000005FFFFFFFF }))
    (fun t => (t.g 8, memNat t.mem (tcmKey 0 0) 8)) = some (0xFFFFFFFFFFFFFFFF, 0x0000000500000010) := by decide
theorem test_amo_misalign : after (exec (.amoadd 8 9 10 0 false 0) (regs ready [(9, tcm 4)]))
    (fun t => (t.cur.ctl.tcause, t.cur.ctl.taddr)) = some (0x08, tcm 4) := by decide
/-- R84: FIXED, n = 3, STRIPCNT = 8: logical strand 1 after one strip receives 4. -/
def stripFarm : Farm :=
  { id := 1, part := 0, fd := { parseFdesc 0 with striplen := 16, stripcnt := 8, nstrands := 3, fixed := true }, state := .running,
    ready := true, order := 0, readyAt := 0, aged := 0, grant := 0, notify := none, level := .kernel, frames := [], strips := 0,
    nextStrip := 0, res2 := 0, trapped := false, launched := 0, halting := .no, fresh := false, vfDone := 0 }
def stripState (done : Nat) : State :=
  { ready.modCur (fun t => { t with logid := 1, nstrands := 3, strips := done }) with farms := [stripFarm] }
theorem test_strip : after (exec (.strip 8) (stripState 1)) (fun t => (t.g 8, t.cur.ctl.stripbase)) = some (4, 64) := by decide
theorem test_strip_end : after (exec (.strip 8) (stripState 3)) (fun t => (t.g 8, t.cur.ctl.stripbase)) =
    some (int (-1), 0) := by decide
/-- R38: the fine region's second arrival completes b20 and sends one arrival to b10. -/
def b20 : State := ready.setBar 20 { Barrier.reset with expected := 2, arrived := 1, parv := true, paridx := 10 }
theorem test_barrier : after (exec (.barArrive 8 9) (regs b20 [(9, 0x8014)]))
    (fun t => (t.g 8, (t.bar 20).phase, (t.bar 20).arrived, t.turns)) =
    some (0, true, 0, [.event (.barrierArrival false 10)]) := by decide
/-- R365: a PENDING ticket whose attempt has ended in DONE, GEN 4, owner die 1. -/
theorem test_castq : gAfter 11 (exec (.castq 11 8)
    (regs (ready.modStack 2 (fun k => { k with owner := true, gen := 4, att := 7 })) [(8, 0x0000000700000102)])) =
    some 0x1000000700040001 := by decide
/-- R136: KIND 2 of the example flips bit 0 of a1's element (6, 10). -/
theorem test_errinj : after (exec (.mtc 8 0x032)
    (regs (ready.modCur (fun t => { t with tiles := [Tile.start, Tile.start] })) [(8, 0x4118A00000000000)]))
    (fun t => ((t.cur.tile 1).at_ 6 10, (t.cur.tile 1).ckv, (t.cur.tile 0).ckv)) = some (1, false, true) := by decide
/-- R17: an idle slot 3 of P1 goes to P0 at slot 16, both donating. -/
def shared : State :=
  ready.modStack 0 (fun k => { k with
    tables := [(5, BitVec.ofNat 256 ((2 ^ 256 - 1) / 15 * 8 + (2 ^ 64 - 1) / 15))] })
theorem test_slot : after (exec (.slotService 0 5 3 1) shared) (fun t => (t.stack 0).served) = some (some 0) := by decide
theorem test_slot_owner : after (exec (.slotService 0 5 3 3) shared) (fun t => (t.stack 0).served) = some (some 1) := by decide

/-! ### Vector entries -/

/-- A register image from 32-bit elements, element 0 first. -/
def words32 (xs : List Nat) : BitVec 32768 := BitVec.ofNat 32768 (xs.foldr (fun x a => x + 2 ^ 32 * a) 0)

/-- The current strand with VL, some vector registers and an instruction posted in its VIQ. -/
noncomputable def queued (s : State) (vl : Nat) (vs : List (Nat × BitVec 32768)) (i : Instr) (op : VOp) : State :=
  ((ctls s (fun c => { c with vl := BitVec.ofNat 64 vl })).modCur (fun t => { t with
    v := vs.foldl (fun v p => v.setIfInBounds p.1 p.2) t.v })).modCur (fun t => posted t i op)

/-- The writes in flight of the entry with sequence number 0. -/
noncomputable def flying (o : Res) : Option (List EWrite) :=
  after o (fun t => ((t.cur.viq.map (fun e => (e.inflight.map (fun r => r.writes)).flatten)).flatten))

/-- R292's keys. -/
def keys8 : BitVec 32768 := words32 [3, 1, 3, 0, 1, 3, 2, 1]
/-- R293's values 1.0, 2.0, 0.5, 4.0, 0.25, 8.0, 16.0, 1.5. -/
def values8 : BitVec 32768 :=
  words32 [0x3F800000, 0x40000000, 0x3F000000, 0x40800000, 0x3E800000, 0x41000000, 0x41800000, 0x3FC00000]

/-- R292: `vconf` at elements 4 to 7: 1, 2, −1, 4. -/
theorem test_vconf : flying (exec (.microOperationIssue 1024 0 1) (queued ready 8 [(4, keys8)] (.vconf (px 0) 8 4) (opVconf (px 0) 8 4))) =
    some [.v 8 16 4 1, .v 8 20 4 2, .v 8 24 4 0xFFFFFFFF, .v 8 28 4 4] := by decide +kernel
/-- R293: `vdupsum` at elements 5, 6, 7: 9.5, 16.0, 3.75. -/
theorem test_vdupsum : flying (exec (.microOperationIssue 1024 0 1)
    (queued ready 8 [(4, keys8), (5, values8)] (.vdupsum (px 0) 9 4 5) (opVdupsum (px 0) 9 4 5))) =
    some [.v 9 20 4 0x41180000, .v 9 24 4 0x41800000, .v 9 28 4 0x40700000] := by decide +kernel
/-- R275: addition wraps at SEW. -/
theorem test_vadd : flying (exec (.microOperationIssue 1024 0 0)
    (queued ready 1 [(1, words32 [0xFFFFFFFF]), (2, words32 [2])] (.vadd (px 0) 3 1 2) (opVadd (px 0) 3 1 2))) =
    some [.v 3 0 4 1] := by decide +kernel
/-- R276: 1.0 + 2.0 = 3.0 in FP32. -/
theorem test_vfadd : flying (exec (.microOperationIssue 1024 0 0)
    (queued ready 1 [(1, words32 [0x3F800000]), (2, words32 [0x40000000])] (.vfadd (px 0) 3 1 2) (opVfadd (px 0) 3 1 2))) =
    some [.v 3 0 4 0x40400000] := by decide +kernel
/-- R280: signed −1 < 0. -/
theorem test_vlt : flying (exec (.microOperationIssue 1024 0 0)
    (queued ready 1 [(1, words32 [0xFFFFFFFF])] (.vlt (px 0) 3 1 2) (opVlt (px 0) 3 1 2))) = some [.p 3 0 true] := by decide +kernel
/-- R99: a commit of `vredsum` marks its destination pending, and a scalar use of it waits. -/
theorem test_pending : after (exec (.vredsum (px 0) 8 3) (ctls ready (fun c => { c with vl := 4 })))
    (fun t => (t.cur.pendingG 8, t.cur.viq.length, t.cur.pc)) = some (true, 1, 4) := by decide +kernel
/-- R229: a vector format error is illegal at the commit. -/
theorem test_vector_illegal : after (exec (.vfadd (px 0) 3 1 2) (ctls ready (fun c => { c with vtype := 0x02 })))
    (fun t => (t.cur.ctl.tcause, t.cur.viq.length)) = some (1, 0) := by decide +kernel
/-- R325: `tcfg` takes M and N from the captured TSHAPE. -/
noncomputable def shaping : State :=
  queued (ctls (ready.modCur (fun t => { t with tiles := [Tile.start] })) (fun c => { c with tshape := 0x0806 })) 0 []
    (.tcfg 0) (opTcfg 0)
theorem test_tcfg : after (exec (.matrixEngineStep 1024) shaping) (fun t => ((t.cur.tile 0).m, (t.cur.tile 0).n)) =
    some (6, 8) := by decide +kernel
/-- R340: N, CAP and K of `oqinit`. -/
noncomputable def starting : State :=
  queued (ready.modCur (fun t => { t with orths := [Orth.start] })) 0 [] (.oqinit 0 6 4 5 3 4 0 1) (opOqinit 0 6 4 5 3 4 0 1)
theorem test_oqinit : after (exec (.orthogonalLineStep 1024) starting)
    (fun t => ((t.cur.orth 0).n, (t.cur.orth 0).cap, (t.cur.orth 0).k, (t.cur.orth 0).fp64)) = some (4, 32, 0, false) := by decide +kernel

/-! ### A word placed for the next fetch -/

theorem test_step_add : after (step ((regs ready [(4, 5), (5, 6)]).withFetchWord 32 0x00148304)) (fun t => t.g 3) = some 11 := by
  decide +kernel
theorem test_step_reserved : after (step (State.reset.withFetchWord 32 0x0000007C)) (fun t => t.cur.ctl.tcause) = some 1 := by
  decide +kernel

/-! ### States that meet the statements' hypotheses: scalar instructions -/

/-- A value that `vredsum` has yet to deliver to g8. -/
def pending8 : State := ready.modCur (fun t => { t with rq := [{ seq := 0, dest := 8, value := none }] })

theorem test_IntegerResults_met :
    threeRegister (.add 0 9 31) = some (0, 9, 31, fun x y => x + y) ∧ Free pending8 [0, 9, 31] := ⟨rfl, by decide⟩

theorem test_IntegerResults_one_met :
    oneRegister (.addi 31 0 0x1FFF) = some (31, 0, fun x => x + (0x1FFF : BitVec 14).signExtend 64, 4) ∧ Free ready [31, 0] ∧
    Free ready [low8 7, low8 0] ∧ Free ready [0] := ⟨rfl, by decide, by decide, by decide⟩

theorem test_RegisterRules_met :
    threeRegister (.add 8 9 10) = some (8, 9, 10, fun x y => x + y) ∧ ¬ Free pending8 [8, 9, 10] ∧
    oneRegister (.cMov 0 1) = some (low8 0, low8 1, fun x => x, 2) ∧ ¬ Free pending8 [low8 0, low8 1] :=
  ⟨rfl, by decide, rfl, by decide⟩

theorem test_BranchAndJumpResults_met :
    branchRow (.bltu 9 10 0x2000) = some (9, 10, fun x y => x.toNat < y.toNat, 2 * (0x2000 : BitVec 14).toInt, 4) ∧
    Free ready [9, 10] ∧ ((regs ready [(10, 1)]).g 9).toNat < ((regs ready [(10, 1)]).g 10).toNat ∧
    ¬ (ready.g 9).toNat < (ready.g 10).toNat := ⟨rfl, by decide, by decide, by decide⟩

theorem test_BranchAndJumpResults_jumps_met :
    Free ready [31] ∧ Free ready [9] ∧ (ready.g 9).getLsbD 0 = false ∧ Free ready [31, 31] ∧ (ready.g 31).getLsbD 0 = false ∧
    Free (regs ready [(9, 1)]) [8, 9] ∧ ((regs ready [(9, 1)]).g 9).getLsbD 0 = true := by decide

theorem test_LoadResults_met :
    loadRow (.ld 8 9 3 false 0) = some (8, 9, 8, false, (0 : BitVec 11).toInt, 4) ∧
    Free (regs ready [(9, tcm 0)]) [8, 9] ∧
    scalarKeys (regs ready [(9, tcm 0)]) (regs ready [(9, tcm 0)]).cur .read 8 (ea (regs ready [(9, tcm 0)]) 9 0) =
      .ok (keysFrom (tcmKey 0 0) 8) ∧
    (regs ready [(9, tcm 0)]).cur.fenced 0 = false ∧
    (regs ready [(9, tcm 0)]).cur.loadWaits (ea (regs ready [(9, tcm 0)]) 9 0).toNat 8 = false :=
  ⟨rfl, by decide, by decide, by decide, by decide⟩

/-- A page table in HBM stack 0 whose root entry maps the first 4 TiB to themselves with every right. -/
def mapped : State :=
  { ctls ready (fun c => { c with ptbase := 0x20000 }) with mem := memSetNat [] 0x20000 8 0x3F }

/-- The same with g9 = 0x100. -/
def mapped9 : State := regs mapped [(9, 0x100)]

/-- The same with stack 0 on its way to die 1. -/
def moving : State := mapped9.modStack 0 (fun k => { k with handing := true, right0 := { state := .handing, gen := 0 } })

theorem test_StoreResults_met :
    storeRow (.st 8 9 0 0x3FF) = some (8, 9, 1, (0x3FF : BitVec 11).toInt, 4) ∧
    Free (regs ready [(9, tcm 0)]) [8, 9] ∧
    scalarKeys (regs ready [(9, tcm 0)]) (regs ready [(9, tcm 0)]).cur .write 1 (ea (regs ready [(9, tcm 0)]) 9 0x3FF) =
      .ok (keysFrom (tcmKey 0 0x3FF) 1) ∧
    (regs ready [(9, tcm 0)]).cur.storeWaits (ea (regs ready [(9, tcm 0)]) 9 0x3FF).toNat 1 = false ∧
    (keysFrom (tcmKey 0 0x3FF) 1).all offCore = false ∧ (regs ready [(9, tcm 0)]).cur.fenced 1 = false :=
  ⟨rfl, by decide, by decide, by decide, by decide, by decide⟩

theorem test_StoreResults_offCore_met :
    storeRow (.cSt 0 0xFF) = some (low8 0, 30, 8, 8 * ((0xFF : BitVec 8).toNat : Int), 2) ∧ Free mapped9 [low8 0, 30] ∧
    scalarKeys mapped9 mapped9.cur .write 8 (ea mapped9 30 (8 * ((0xFF : BitVec 8).toNat : Int))) = .ok (keysFrom 0x7F8 8) ∧
    mapped9.cur.storeWaits (ea mapped9 30 (8 * ((0xFF : BitVec 8).toNat : Int))).toNat 8 = false ∧
    (keysFrom 0x7F8 8).all offCore = true := ⟨rfl, by decide, by decide, by decide, by decide⟩

/-- No translation, and a stack on its way. -/
theorem test_AccessStops_met :
    loadRow (.ld 8 9 3 false 0) = some (8, 9, 8, false, (0 : BitVec 11).toInt, 4) ∧
    storeRow (.st 8 9 3 0) = some (8, 9, 8, (0 : BitVec 11).toInt, 4) ∧ Free moving [8, 9] ∧ cPAGE ≠ cMCHECK ∧
    scalarKeys ready ready.cur .read 8 (ea ready 9 0) = .error (.trap cPAGE 0 1) ∧
    scalarKeys ready ready.cur .write 8 (ea ready 9 0) = .error (.trap cPAGE 0 2) ∧
    scalarKeys moving moving.cur .read 8 (ea moving 9 0) = .error .hold ∧
    scalarKeys moving moving.cur .write 8 (ea moving 9 0) = .error .hold :=
  ⟨rfl, rfl, by decide, by decide, by decide, by decide, by decide, by decide⟩

theorem test_AtomicResults_met :
    atomicRow (.amoswap 8 9 10 2 false 5) = some (8, 9, 10, 8, true, 5, fun _ x _ => some x) ∧
    atomicRow (.amoswap 8 9 10 2 false 6) = some (8, 9, 10, 8, true, 6, fun _ x _ => some x) ∧
    Free (regs ready [(9, tcm 0)]) [8, 9, 10] ∧ ((regs ready [(9, tcm 0)]).g 9).toNat % 8 = 0 ∧
    scalarKeys (regs ready [(9, tcm 0)]) (regs ready [(9, tcm 0)]).cur .atomic 8 ((regs ready [(9, tcm 0)]).g 9) =
      .ok (keysFrom (tcmKey 0 0) 8) ∧
    (regs ready [(9, tcm 0)]).cur.atomicWaits ((regs ready [(9, tcm 0)]).g 9).toNat 8 (keysFrom (tcmKey 0 0) 8) true = false ∧
    ((regs ready [(9, tcm 4)]).g 9).toNat % 8 ≠ 0 :=
  ⟨rfl, rfl, by decide, by decide, by decide, by decide, by decide⟩

theorem test_AtomicResults_stored_met :
    MemOk ready ∧ ready.cur.held = [] ∧ ready.cur.exists_ = true ∧ (keysFrom (tcmKey 0 0) 8).Nodup ∧
    (keysFrom (tcmKey 0 0) 8).length = 8 ∧ (∀ k ∈ keysFrom (tcmKey 0 0) 8, isSliceKey k = false) ∧
    (fun old : Nat => if old = 0 then some 1 else none) (atomicOld ready (tcm 0) 8 (keysFrom (tcmKey 0 0) 8)) = some 1 ∧
    (fun old : Nat => if old = 1 then some 1 else none) (atomicOld ready (tcm 0) 8 (keysFrom (tcmKey 0 0) 8)) = none := by
  decide +kernel

theorem test_RoundingResults_met :
    (∃ f, roundingRow (.faddS 8 9 10 4) = some (8, [9, 10], 4, f)) ∧ (∃ f, roundingRow (.faddS 8 9 10 5) = some (8, [9, 10], 5, f)) ∧
    (∃ f, roundingRow (.faddS 8 9 10 6) = some (8, [9, 10], 6, f)) ∧ Free ready [8, 9, 10] :=
  ⟨⟨_, rfl⟩, ⟨_, rfl⟩, ⟨_, rfl⟩, by decide⟩

/-- A signalling and a quiet NaN of each format, and both zeros. -/
theorem test_PlainFpResults_met :
    (∃ f, plainFpRow (.fclassD 8 9) = some (8, [9], f)) ∧ Free ready [8, 9] ∧ Free ready [8, 9, 10] ∧
    isSignalling 23 8 0x7F800001 ∧ isNan 23 8 0xFFFFFFFF ∧ ¬ isSignalling 23 8 0x7FC00000 ∧
    isSignalling 52 11 0x7FF0000000000001 ∧ isNan 52 11 0xFFF8000000000000 ∧ (0x80000000 : Word).toNat % 2 ^ 31 = 0 ∧
    (0x8000000000000000 : Word).toNat % 2 ^ 63 = 0 := ⟨⟨_, rfl⟩, by decide +kernel⟩

/-! ### States that meet the statements' hypotheses: traps, control registers, waiting, farms -/

/-- A strand in its handler. -/
def handling : State := ready.modCur (fun t => { t with inHandler := true })

/-- A vector addition that has not run. -/
noncomputable def waiting : State := queued ready 1 [] (.vadd (px 0) 3 1 2) (opVadd (px 0) 3 1 2)

/-- The same in a handler. -/
noncomputable def waitingHandler : State := waiting.modCur (fun t => { t with inHandler := true })

/-- A BTE transfer of the strand: a FILL of eight bytes of its TCM window through pin 1. -/
def fill : BteCmd :=
  { id := 0, key := 1024, seq := 0, cluster := 0, row := false, op := 3, spin := 0, dpin := 1, port := 0, endMark := false,
    bar := 0, tag := 0, pad := 0, src := 0xA5, dst := tcm 0, rb := 8, nr := 1, sstride := 0, dstride := 0, vr := 1, vb := 8,
    delivered := 0, padded := false, readAny := false }

/-- A state while that transfer runs. -/
def filling (s : State) : State := { s with bte := [fill] }

theorem test_TrapEntry_met : Quiet ready ∧ ready.cur.inHandler = false ∧ 2 ^ 62 - 1 < 2 ^ 62 := by decide +kernel

theorem test_TrapEntry_queue_met :
    ready.cur.inHandler = false ∧ ready.cur.drainIssued.mcheck = none ∧ ready.cur.drainIssued.dueFault = none ∧
    Quiet handling ∧ handling.cur.inHandler = true ∧ handling.transfers handling.cur.key = false ∧
    Quiet (filling handling) ∧ (filling handling).cur.inHandler = true ∧
    (filling handling).transfers (filling handling).cur.key = true := by decide +kernel

theorem test_TretResumes_met :
    (handling.modCur (fun t => { t with level := .user })).cur.level = .user ∧ handling.cur.inHandler = true ∧
    ready.cur.inHandler = false ∧ waitingHandler.cur.level = .kernel ∧ waitingHandler.cur.inHandler = true ∧
    ¬ AllComplete waitingHandler ∧ handling.cur.level = .kernel ∧ AllComplete handling ∧
    (ctls handling (fun c => { c with tpc := 1 })).cur.ctl.tpc.getLsbD 0 = true ∧ handling.cur.viq = [] ∧
    handling.cur.frozen = 0 ∧ handling.cur.ctl.tpc.getLsbD 0 = false := by decide +kernel

/-- RMODE at the last code and one past it, TSHAPE and ROWBYTES at both ends, one register of each other kind. -/
theorem test_ControlWrites_met :
    (∃ ok c, controlWrite ready.cur.ctl 4 0x007 = some (ok, c) ∧ ok) ∧
    (∃ ok c, controlWrite ready.cur.ctl 5 0x007 = some (ok, c) ∧ ¬ ok) ∧
    (∃ ok c, controlWrite ready.cur.ctl 0x4040 0x018 = some (ok, c) ∧ ok) ∧
    (∃ ok c, controlWrite ready.cur.ctl 0x10000 0x01D = some (ok, c) ∧ ok) ∧
    (∃ ok c, controlWrite user.cur.ctl 0 0x030 = some (ok, c) ∧ ok) ∧ 0x030 ∈ kernelRegs ++ trapRegs ∧
    user.cur.level = .user ∧ ready.cur.level = .kernel ∧ AllComplete ready ∧ Free ready [0, 9] := by
  exact ⟨⟨_, _, rfl, by decide⟩, ⟨_, _, rfl, by decide⟩, ⟨_, _, rfl, 64, 64, by decide⟩, ⟨_, _, rfl, 4096, by decide⟩,
    ⟨_, _, rfl, by decide⟩, by decide⟩

theorem test_ControlReads_met :
    (controlWord ready 0x000).isSome = true ∧ (controlWord ready 0x032).isSome = true ∧ 0x032 ∈ kernelRegs ∧
    ready.cur.level = .kernel ∧ Free ready [31] ∧ AllComplete ready ∧ controlWord ready 0x033 = none ∧
    0x014 ∈ readOnlyRegs ∧ user.cur.level = .user := by decide +kernel

theorem test_LaneLimitAndInjection_met :
    Free ready [9] ∧ ready.cur.level = .kernel ∧ ready.cur.life = .running ∧ AllComplete ready ∧
    ((regs ready [(9, 32)]).g 9).toNat ∈ [8, 16, 24, 32] ∧ ((regs ready [(9, 8)]).g 9).toNat ∈ [8, 16, 24, 32] ∧
    (ready.g 9).toNat ∉ [8, 16, 24, 32] ∧ (ready.g 9).toNat / 64 % 2 ^ 38 = 0 ∧ ready.cur.injectOk (injectOf (ready.g 9)) = true ∧
    ((regs ready [(9, 0x2000000000000000 + 31 * 2 ^ 56)]).g 9).toNat / 64 % 2 ^ 38 = 0 ∧
    (255 : BitVec 12).toNat * (8 * 2 ^ (ready.cur.ctl.vtype.toNat % 8)) < 1024 * ready.cur.lgw ∧
    (31 : BitVec 6).toNat < 8 * 2 ^ (ready.cur.ctl.vtype.toNat % 8) ∧ shaping.cur.tiles[0]? = some Tile.start ∧
    (4095 : BitVec 12).toNat / 64 < Tile.start.m.toNat ∧ (4095 : BitVec 12).toNat % 64 < Tile.start.n.toNat ∧
    (47 : BitVec 6).toNat < 48 ∧ (63 : BitVec 12).toNat < 8 * ready.cur.lgw := by decide +kernel

/-- The widest legal VTYPE and one past it in SEW; a strand that is to change width. -/
def narrowing : State := ready.modCur (fun t => { t with pendW := some 16 })

theorem test_VectorLengthResults_met :
    Free ready [31, 9] ∧ ready.cur.pendW = none ∧ legalVtype (3 + 8 * 9 + 128 * 3 + 1024 * 5 + 8192) ∧ legalVtype 0x0A ∧
    ¬ legalVtype 4 ∧ narrowing.cur.pendW = some 16 ∧ 16 ≠ narrowing.cur.lgw ∧ AllComplete narrowing ∧
    ¬ AllComplete (waiting.modCur (fun t => { t with pendW := some 16 })) ∧
    narrowing.cur.ctl.vl.toNat ≤ maxLength narrowing.cur.lgw narrowing.cur.ctl.vtype := by
  refine ⟨by decide, by decide, ⟨3, 9, 3, 5, 1, by decide⟩, ⟨2, 1, 0, 0, 0, by decide⟩, ?_, by decide, by decide, by decide,
    by decide +kernel, by decide⟩
  rintro ⟨a, b, c, d, e, h1, h2, h3, h4, h5, h⟩
  have : (4 : Word).toNat = 4 := by decide
  omega

theorem test_WaitingResults_met :
    (ready.modCur (fun t => { t with latch := 63 })).cur.latch ≠ 0 ∧ ready.cur.latch = 0 ∧ Free ready [8, 9] ∧
    (paused ready .yielded).cur.pause = .yielded ∧ ready.cur.pause = .none ∧ ready.g 9 = 0 ∧
    (regs ready [(9, 1)]).g 9 ≠ 0 ∧ AllComplete ready ∧ ready.cur.rq = [] ∧ ¬ (AllComplete pending8 ∧ pending8.cur.rq = []) ∧
    ready.cur.sbuf = [] ∧ (nextOf (exec (.st 8 9 0 0) mapped9)).map (fun t => t.cur.sbuf.length) = some 1 ∧
    user.cur.level = .user ∧ ¬ (AllComplete waiting ∧ waiting.transfers waiting.cur.key = false) ∧
    ¬ (AllComplete (filling ready) ∧ (filling ready).transfers (filling ready).cur.key = false) ∧
    ready.cur.level = .kernel ∧ ready.transfers ready.cur.key = false ∧ ready.cur.inHandler = false ∧
    (ctls handling (fun c => { c with tcause := 0x18, tinfo := 1023 })).cur.inHandler = true ∧
    (ctls handling (fun c => { c with tcause := 0x18, tinfo := 1023 })).cur.ctl.tcause.toNat % 256 = 0x18 ∧
    (ctls handling (fun c => { c with tcause := 0x18, tinfo := 1023 })).cur.ctl.tinfo.toNat % 1024 = 1023 ∧
    handling.cur.ctl.tcause.toNat % 256 ≠ 0x18 := by decide +kernel

/-- P0 has a page table and the strand a descriptor in HBM that asks for one strand of P0. -/
def farming : State :=
  { (mapped9.modPart 0 (fun p => { p with ptbase := 0x20000 })) with
    mem := memSetNat (memSetNat (memSetNat (memSetNat mapped9.mem 0x100 8 0x4000) 0x110 8 1) 0x118 8 0x100000001)
      0x138 8 0x100000 }

theorem test_FarmAndStripResults_met :
    Free farming [8, 9, 10] ∧ (farming.g 9).toNat % 8 = 0 ∧ ((regs ready [(9, 4)]).g 9).toNat % 8 ≠ 0 ∧
    scalarKeys farming farming.cur .read 128 (farming.g 9) = .ok (keysFrom 0x100 128) ∧ farming.cur.fenced 0 = false ∧
    farming.cur.loadWaits (farming.g 9).toNat 128 = false ∧ farming.cur.releaseWaits = false ∧
    (farming.judge (parseFdesc (memNat farming.mem 0x100 128)) 0 false).isNone = true ∧
    (farming.judge (parseFdesc 0) 0 false).isSome = true ∧ (stripState 1).farm? (stripState 1).cur.farm = some stripFarm ∧
    (stripState 2).cur.logid + (stripState 2).cur.strips * (stripState 2).cur.nstrands < stripFarm.fd.stripcnt.toNat + 0 ∧
    stripFarm.fd.stripcnt.toNat ≤ (stripState 3).cur.logid + (stripState 3).cur.strips * (stripState 3).cur.nstrands := by
  decide +kernel

/-! ### States that meet the statements' hypotheses: fences, barriers, pins, ports, vector entries -/

/-- Pin 1 over the first 4 KiB of the TCM window, every right. -/
def pinned : State :=
  ready.modCur (fun t => { t with pins := t.pins.setIfInBounds 1 { Pin.idle with
    live := true, rights := 7, base := BitVec.ofNat 55 windowBase, len := 4096
    extents := [{ va := windowBase, key := tcmKey 0 0, len := 4096 }] } })

/-- A unit-stride load and an ordered indexed store of one element on it, not yet run. -/
noncomputable def loading : State := queued (regs pinned [(9, tcm 0)]) 1 [] (.vld (px 0) 2 1 4 9) (opVld (px 0) 2 1 4 9)
noncomputable def storing : State :=
  queued (regs pinned [(9, tcm 0)]) 1 [] (.vstx (px 0) true 2 1 4 9 7) (opVstx (px 0) true 2 1 4 9 7)

/-- A strand in deterministic mode; the same in a farm whose epoch is not drained. -/
def det : State := ready.modCur (fun t => { t with det := true })
def undrained : State := { paused det .counted with farms := [{ stripFarm with vfDone := 1 }] }

theorem test_FenceResults_met :
    user.cur.level = .user ∧ ready.cur.level = .kernel ∧ Free ready [8, 9, 10] ∧
    (pinned.pinnedVa 0 0 (2 ^ 64) = true ∧ pinned.cur.part = 0) ∧ ready.pinnedVa ready.cur.part 0 (2 ^ 64) = false ∧
    ready.cur.sbuf = [] ∧ (nextOf (exec (.st 8 9 0 0) mapped9)).map (fun t => t.cur.sbuf == []) = some false ∧
    (ready.cores.map (fun c => c.1)).Pairwise (· < ·) ∧ (5 < (6 : BitVec 3).toNat) ∧ (31 : Reg) ≠ 0 ∧ (5 : BitVec 3).toNat ≤ 5 ∧
    (∃ e ∈ loading.cur.viq, e.complete = false ∧ (4 : Reg).getLsbD 2 = true ∧ (loading.cur.memUse e).reads = true) ∧
    (∀ e ∈ loading.cur.viq, e.complete = true ∨ ((8 : Reg).getLsbD 2 = true → (loading.cur.memUse e).reads = false) ∧
      ((8 : Reg).getLsbD 3 = true → (loading.cur.memUse e).writes = false)) ∧
    ready.cur.pause ≠ .counted ∧ ¬ AllComplete loading ∧ AllComplete ready ∧ ready.cur.det = false ∧ det.cur.det = true ∧
    (paused ready .counted).cur.pause = .counted ∧ (paused ready .counted).epochDrained = true ∧
    undrained.epochDrained = false := by decide +kernel

/-- The last barrier of die 1, expecting two arrivals, with one in; and the forms that name it. -/
def b8191 : State := ready.setBar 8191 { Barrier.reset with expected := 2, arrived := 1, pending := 1 }

theorem test_BarrierInstructionResults_met :
    Free b8191 [8, 9, 10] ∧ goodForm 0x9FFF ∧ goodForm 0xDFFF ∧ formKey 0x9FFF = 8191 ∧ goodConfig (0xFFFF + 2 ^ 16 * 5) ∧
    goodConfig 1 ∧ ¬ goodConfig 0 ∧ ¬ goodConfig (2 ^ 49 + 1) ∧ (ready.bar 0).arrived = 0 ∧ (ready.bar 0).pending = 0 ∧
    (b8191.bar 8191).arrived ≠ 0 ∧ ready.cur.releaseWaits = false ∧
    storing.cur.releaseWaits = true ∧ refuses { Barrier.reset with arrived := 0xFFFF } ∧ ¬ refuses (ready.bar 0) ∧
    refuses { Barrier.reset with expected := 2, arrived := 2 } ∧ ¬ refuses (b8191.bar 8191) ∧
    (ready.bar 8191).phase = (0x9FFF : Word).getLsbD 14 ∧ (ready.bar 8191).phase ≠ (0xDFFF : Word).getLsbD 14 ∧
    (b8191.bar 8191).pending.toNat + (BitVec.ofNat 64 (2 ^ 40 - 2)).toNat < 2 ^ 40 ∧
    2 ^ 40 ≤ (b8191.bar 8191).pending.toNat + (BitVec.ofNat 64 (2 ^ 40 - 1)).toNat ∧
    (1 : Word).toNat ≤ (b8191.bar 8191).pending.toNat ∧ (b8191.bar 8191).pending.toNat < (2 : Word).toNat := by decide +kernel

theorem test_BarrierInstructionResults_waits_met :
    Free ready [8, 9, 10] ∧ ¬ goodForm 0x7FFF ∧ ¬ goodForm 0xA000 ∧ ¬ goodForm 0x18000 ∧ goodForm 0x8000 ∧
    ready.cur.releaseWaits = false ∧ refuses (({ Barrier.reset with arrived := 0xFFFF } : Barrier)) ∧
    ¬ refuses (b8191.bar 8191) ∧
    (((paused b20 (.arrived 0x8014 false)).arrive false 20).1.bar 20).phase ≠ (b20.bar 20).phase ∧
    (((paused b8191 (.arrived 0x9FFF false)).arrive true 4095).1.bar 8191).phase = (b8191.bar 8191).phase ∧
    (paused ready (.arrived 0x9FFF true)).cur.pause = .arrived 0x9FFF true ∧ (ready.bar 8191).phase ≠ true ∧
    (ready.bar 8191).phase = false := by decide +kernel

theorem test_BarrierInstructionResults_waits_idle_met : ∀ f p, ready.cur.pause ≠ .arrived f p := by
  intro f p h; cases h

theorem test_BarrierInstructionResults_completes_met :
    (b20.bar 20).expected ≠ 0 ∧ (b20.bar 20).arrived.toNat + 1 = (b20.bar 20).expected.toNat ∧ (b20.bar 20).pending = 0 ∧
    b20.cur.exists_ = true ∧ b20.cur.die = false ∧ (b20.bar 20).parv = true ∧ (b20.bar 20).parpkg = b20.pkgNum ∧
    ((b20.setBar 20 { b20.bar 20 with arrived := 2 }).bar 20).expected.toNat ≤
      ((b20.setBar 20 { b20.bar 20 with arrived := 2 }).bar 20).arrived.toNat ∧
    (b8191.bar 8191).arrived.toNat < (b8191.bar 8191).expected.toNat ∧ (b8191.bar 8191).pending ≠ 0 ∧
    (b8191.bar 8191).arrived ≠ (b8191.bar 8191).expected ∧
    ((b8191.setBar 8191 { b8191.bar 8191 with arrived := 2 }).bar 8191).arrived = 2 ∧
    ((b8191.setBar 8191 { b8191.bar 8191 with arrived := 2 }).bar 8191).pending.toNat ≤ 1 := by decide +kernel

/-- The one extent of a byte of the window. -/
def windowRun : PinExtent := { va := windowBase, key := tcmKey 0 0, len := 1 }

theorem test_PinResults_met :
    ((0 : Reg).toNat = 0 ∨ 7 < (0 : Reg).toNat) ∧ 7 < (8 : Reg).toNat ∧ (7 : Reg).toNat ≤ 7 ∧ Free ready [9, 10] ∧
    ¬ goodRange 0 0 ∧ ¬ goodRange 0 (2 ^ 36 + 1) ∧ ¬ goodRange (windowBase - 1) 2 ∧ goodRange windowBase 1 ∧ goodRange 0 (2 ^ 36) ∧
    (pinned.cur.pins.getD 1 Pin.idle).live = true ∧ (pinned.cur.pins.getD 1 Pin.idle).revoked = false := by decide +kernel

theorem test_PinResults_accept_met :
    (ready.cur.pins.getD 7 Pin.idle).live = false ∧
    rangeExtents ready ready.cur 1 0 1 = .error (.trap cPAGE 0 1) ∧ cPAGE ≠ cMCHECK ∧
    rangeExtents ready ready.cur 1 windowBase 1 = .ok [windowRun] ∧ ready.tableUsed ready.cur.coreNo + [windowRun].length ≤ 2048 ∧
    loading.cur.pinBusy 1 = true ∧ ready.cur.pinBusy 7 = false ∧ ready.pinMoves ready.cur.key 7 = false ∧
    (filling ready).pinMoves ready.cur.key 1 = true ∧ ready.cur.exists_ = true ∧ (4 < (5 : Reg).toNat) := by decide +kernel

/-- A core whose translation table is full: 2,048 extents in pin 2. -/
def crowded : State :=
  ready.modCur (fun t => { t with pins := t.pins.setIfInBounds 2 { Pin.idle with
    live := true, extents := List.replicate 2048 { va := 0, key := 0, len := 1 } } })

theorem test_PinResults_full_met :
    rangeExtents crowded crowded.cur 1 windowBase 1 = .ok [windowRun] ∧
    2048 < crowded.tableUsed crowded.cur.coreNo + [windowRun].length := by decide +kernel

/-- Ports with words: 31 and 32 in e0, three in e2, one in e1 and e3, eight bytes in stream port 16. -/
def porting (n : Nat) : State :=
  ready.modCur (fun t => { t with ports := {
    e0 := List.replicate n 2, e1 := [7], e2 := [0, 0, 0], e3 := [9]
    streams := [(16, List.replicate 8 (.byte 1))] } })

theorem test_EnginePortResults_met :
    (1 : Reg) ≠ 0 ∧ (1 : Reg) ≠ 2 ∧ Free ready [8, 9] ∧ ready.cur.releaseWaits = false ∧ ready.cur.pause ≠ .pushed ∧
    32 ≤ (porting 32).cur.ports.e0.length ∧ (porting 31).cur.ports.e0.length < 32 ∧ (porting 4).cur.ports.e0.length + 1 < bteWords 2 ∧
    bteWords 2 ≤ (porting 5).cur.ports.e0.length + 1 ∧ 4 ≤ (porting 0).cur.ports.e2.length + 1 ∧ (15 : Reg).toNat < 16 ∧
    ready.cur.ports.e1 = [] ∧ ready.cur.ports.e3 = [] ∧ (porting 0).cur.ports.e1 = [7] ∧ (porting 0).cur.ports.e3 = [9] ∧
    16 ≤ (16 : Reg).toNat ∧ 8 ≤ (streamHead (sget [] (porting 0).cur.ports.streams 16)).1.length ∧
    (streamHead (sget [] (porting 0).cur.ports.streams 31)).1.length < 8 := by decide +kernel

theorem test_VectorCommits_met :
    vop (.vredsum (px 0) 8 3) = some (opVredsum (px 0) 8 3) ∧ vop (.tcfg 0) = some (opTcfg 0) ∧
    (opVredsum (px 0) 8 3).legal ready.cur = true ∧ (opTcfg 0).legal shaping.cur = true ∧
    Free ready [(opVredsum (px 0) 8 3).ga, (opVredsum (px 0) 8 3).gb, (opVredsum (px 0) 8 3).gd] ∧
    hasRoom ready (.vredsum (px 0) 8 3) ∧ commitStop ready (.vredsum (px 0) 8 3) = none ∧ commitStop shaping (.tcfg 0) = none :=
  ⟨rfl, rfl, by decide, by decide +kernel, by decide, by decide, by decide, by decide⟩

/-- 31 and 32 entries in the VIQ. -/
noncomputable def entries (n : Nat) : State :=
  ready.modCur (fun t => { t with viq := List.replicate n ((t.newEntry .vsync (opTcfg 0))) })

theorem test_VectorCommits_stops_met :
    (opVfadd (px 0) 3 1 2).legal (ctls ready (fun c => { c with vtype := 0x02 })).cur = false ∧
    vop (.vaddScalar (px 0) 3 1 8) = some (opVaddScalar (px 0) 3 1 8) ∧ (opVaddScalar (px 0) 3 1 8).legal pending8.cur = true ∧
    ¬ Free pending8 [(opVaddScalar (px 0) 3 1 8).ga, (opVaddScalar (px 0) 3 1 8).gb, (opVaddScalar (px 0) 3 1 8).gd] ∧
    ¬ hasRoom (entries 32) (.vadd (px 0) 3 1 2) ∧ hasRoom (entries 31) (.vadd (px 0) 3 1 2) ∧
    vop (.vamoAdd (px 0) true 2 1 9 7) = some (opVamoAdd (px 0) true 2 1 9 7) ∧
    (opVamoAdd (px 0) true 2 1 9 7).legal (regs ready [(9, 2)]).cur = true ∧
    commitStop (regs ready [(9, 2)]) (.vamoAdd (px 0) true 2 1 9 7) = some (.trap cACCESS 2 4) :=
  ⟨by decide, rfl, by decide, by decide, by decide +kernel, by decide +kernel, rfl, by decide, by decide⟩

theorem test_VectorElements_met :
    (∃ f, vectorIntegerRow (.vaddScalar (px 63) 31 30 29) = some (63, 31, 30, true, 29, f)) ∧
    (∃ f, vectorFpRow (.vfmacc (px 63) 31 30 29) = some (63, 31, 30, false, 29, f)) ∧ vtFp 0x0A = some .fp32 ∧
    (∃ f, vectorCompareRow (.vlt (px 63) 62 30 29) = some (63, 62, 30, false, 29, f)) :=
  ⟨⟨_, rfl⟩, ⟨_, rfl⟩, by decide, ⟨_, rfl⟩⟩

/-- A store in the buffer, and an entry with a group in flight. -/
noncomputable def buffered : State := match exec (.st 8 9 0 0) mapped9 with | .next t => t | _ => mapped9
noncomputable def flight : State := match exec (.microOperationIssue 1024 0 0) waiting with | .next t => t | _ => waiting

theorem test_MicroOperations_met :
    waiting.cur.exists_ = true ∧
    (∃ e, waiting.cur.entry? 0 = some e ∧ vop e.instr = some (opVadd (px 0) 3 1 2) ∧
      (∃ g fin, (opVadd (px 0) 3 1 2).run = .elem g fin) ∧ MayIssue waiting e (opVadd (px 0) 3 1 2) 0 ∧
      waiting.cur.badRowsIn e (waiting.cur.microReads e (opVadd (px 0) 3 1 2) 0) = []) ∧
    (∃ e ∈ flight.cur.viq, flight.cur.entry? 0 = some e ∧ (∃ r ∈ e.inflight, e.inflight.find? (fun x => x.g == 0) = some r ∧
      r.flip = none) ∧ e.caps.check.toNat % 4 = 0) ∧
    ready.cur.oldest isTile = none ∧ ready.cur.oldest isOrth = none ∧ (shaping.cur.oldest isTile).isSome = true ∧
    (starting.cur.oldest isOrth).isSome = true ∧ buffered.cur.exists_ = true ∧ (∃ b, buffered.cur.sbuf[0]? = some b) ∧
    buffered.cur.storeReady 0 = true :=
  ⟨by decide, ⟨_, rfl, rfl, ⟨_, _, rfl⟩, by decide +kernel, by decide +kernel⟩,
    by decide +kernel, by decide, by decide, by decide +kernel, by decide +kernel, by decide +kernel, ⟨_, rfl⟩,
    by decide +kernel⟩

theorem test_VectorMemoryElements_met :
    (∃ e m, loading.cur.entry? 0 = some e ∧ vop e.instr = some (opVld (px 0) 2 1 4 9) ∧ (opVld (px 0) 2 1 4 9).run = .mem m ∧
      MayIssue loading e (opVld (px 0) 2 1 4 9) 0 ∧
      loading.cur.badRowsIn e (loading.cur.microReads e (opVld (px 0) 2 1 4 9) 0) = [] ∧
      e.acting (opVld (px 0) 2 1 4 9) (loading.cur.env e) 0 = [0] ∧ m.fields = 1 ∧ m.kind = .read ∧
      pinAccess loading loading.cur m.k m.kind (m.addr (loading.cur.env e) 0 0) 4 = .ok (keysFrom (tcmKey 0 0) 4)) ∧
    (∃ e m, storing.cur.entry? 0 = some e ∧ vop e.instr = some (opVstx (px 0) true 2 1 4 9 7) ∧
      (opVstx (px 0) true 2 1 4 9 7).run = .mem m ∧
      MayIssue storing e (opVstx (px 0) true 2 1 4 9 7) 0 ∧
      storing.cur.badRowsIn e (storing.cur.microReads e (opVstx (px 0) true 2 1 4 9 7) 0) = [] ∧
      e.acting (opVstx (px 0) true 2 1 4 9 7) (storing.cur.env e) 0 = [0] ∧ m.fields = 1 ∧ m.kind = .write ∧ m.amo = none ∧
      m.ordered = true ∧
      pinAccess storing storing.cur m.k m.kind (m.addr (storing.cur.env e) 0 0) 4 = .ok (keysFrom (tcmKey 0 0) 4)) ∧
    MemOk storing ∧ storing.cur.det = false ∧ (keysFrom (tcmKey 0 0) 4).Nodup ∧ (keysFrom (tcmKey 0 0) 4).length = 4 :=
  ⟨⟨_, _, rfl, rfl, rfl, by decide +kernel, by decide +kernel, by decide +kernel, rfl, rfl, by decide +kernel⟩,
    ⟨_, _, rfl, rfl, rfl, by decide +kernel, by decide +kernel, by decide +kernel, rfl, rfl, rfl, rfl, by decide +kernel⟩,
    by decide +kernel, by decide +kernel, by decide, by decide⟩

/-! ### States that meet the statements' hypotheses: engines and the PSC's commands -/

/-- A FILL of eight bytes waits in e0, and four words of a collective in e2. -/
def asked (bar count : Nat) : State :=
  pinned.modCur (fun t => { t with ports := { Ports.empty with
    e0 := [BitVec.ofNat 64 (3 + 2 ^ 8 + 2 ^ 16 * bar), 0xA5, tcm 0, BitVec.ofNat 64 count], e2 := [0, 0, 0, 0] } })

/-- The words of its command, and the command. -/
def askedWords (s : State) : List Word := s.cur.ports.e0.take (bteWords (s.cur.ports.e0.headD 0))
def askedCmd (s : State) : BteCmd := bteCmdOf s.cur s.nextBte (askedWords s)

/-- The same with barrier 0 full of pending bytes. -/
def overfull : State := (asked 0x8000 4096).setBar 0 { Barrier.reset with pending := BitVec.allOnes 40 }

theorem test_EngineCommands_met :
    (asked 0 8).cur.exists_ = true ∧ (asked 0 8).cur.life = .running ∧ portFull 0 (asked 0 8).cur.ports.e0 = true ∧
    bteGood (asked 0x2000 8).cur (askedWords (asked 0x2000 8)) (askedCmd (asked 0x2000 8)) = false ∧
    bteGood (asked 0 8).cur (askedWords (asked 0 8)) (askedCmd (asked 0 8)) = true ∧
    bteRange (asked 0 4096).cur (askedCmd (asked 0 4096)) = none ∧ bteRange (asked 0 4097).cur (askedCmd (asked 0 4097)) = some cPINRANGE ∧
    (askedCmd (asked 0 8)).bar.getLsbD 15 = false ∧
    bteGood overfull.cur (askedWords overfull) (askedCmd overfull) = true ∧ bteRange overfull.cur (askedCmd overfull) = none ∧
    (askedCmd overfull).bar.getLsbD 15 = true ∧
    2 ^ 40 ≤ (overfull.bar 0).pending.toNat + (askedCmd overfull).nr * (askedCmd overfull).rb ∧
    ((asked 0x8000 4096).bar 0).pending.toNat + (askedCmd overfull).nr * (askedCmd overfull).rb < 2 ^ 40 := by decide +kernel

theorem test_EngineCommands_beat_met :
    (∀ c ∈ ready.bte, c.id ≠ 0) ∧ 4 ≤ (asked 0 8).cur.ports.e2.length ∧ (asked 0 8).ownRank (asked 0 8).cur.die 0 = none ∧
    MemOk (filling pinned) ∧ (filling pinned).bte = [fill] ∧ pinned.cur.exists_ = true ∧ fill.key = pinned.cur.key ∧ fill.row = false ∧
    fill.op = 3 ∧ fill.nr = 1 ∧ fill.bar.getLsbD 15 = false ∧ fill.delivered = 0 ∧ fill.rb = 8 ∧ fill.dstride = 0 ∧
    (keysFrom (tcmKey 0 0) 8).Nodup ∧ (keysFrom (tcmKey 0 0) 8).length = 8 ∧
    (∀ n ∈ List.range 8, pinAccess (filling pinned) (filling pinned).cur fill.dpin .write (fill.dst + BitVec.ofNat 64 n) 1 =
      .ok [(keysFrom (tcmKey 0 0) 8).getD n 0]) := by decide +kernel

/-- A command record with its arguments. -/
def cmd (part : BitVec 8) (a b c : Word) : CmdRec :=
  { opcode := 0, tag := 1, part := part, flags := 0, rsvd := 0, arg0 := a, arg1 := b, arg2 := c, arg3 := 0, arg4 := 0, arg5 := 0,
    arg6 := 0 }

/-- Words that are all zero. -/
theorem all_zero {xs : List Word} (h : xs.all (fun w => w == 0) = true) : ∀ w ∈ xs, w = 0 := by
  intro w hw; simpa using List.all_eq_true.mp h w hw

/-- A command that the PSC may carry out. -/
theorem accepts {s : State} {i : Instr} {r : CmdRec} {f n : Nat} {d : Bool} (h : pscRow i = some (r, f, d, n))
    (g : s.mode = .ready ∧ r.rsvd = 0 ∧ r.flags.toNat ≤ f ∧ (d = true → r.part = 0) ∧
      ((words r).drop n).all (fun w => w == 0) = true ∧ (s.part? r.part.toNat).isSome = true) : Accepts s i :=
  ⟨r, f, d, n, h, g.1, g.2.1, g.2.2.1, g.2.2.2.1, all_zero g.2.2.2.2.1, g.2.2.2.2.2⟩

/-- Modes that turn commands down, or carry none out. -/
def inMode (m : DevMode) : State := { awake with mode := m }

theorem test_DeviceCommands_met :
    (∃ r f d n, pscRow (.powerCap (cmd 1 800 0 0)) = some (r, f, d, n) ∧ d = true ∧ r.part ≠ 0) ∧
    (∃ r f d n, pscRow (.powerCap (cmd 0 800 1 0)) = some (r, f, d, n) ∧ ((words r).drop n).any (fun w => w != 0) = true) ∧
    (∃ r f d n, pscRow (.powerCap { cmd 0 800 0 0 with flags := 1 }) = some (r, f, d, n) ∧ f < r.flags.toNat) ∧
    (inMode .failed).mode = .failed ∧ (inMode .tripped).mode = .tripped ∧ (inMode .off).mode = .off ∧ awake.mode = .ready ∧
    awake.part? (cmd 7 0 0 0).part.toNat = none ∧ (words (cmd 7 0 0 0)).all (fun w => w == 0) = true :=
  ⟨⟨_, _, _, _, rfl, by decide +kernel⟩, ⟨_, _, _, _, rfl, by decide +kernel⟩, ⟨_, _, _, _, rfl, by decide +kernel⟩, by decide⟩

theorem test_DeviceCommands_accepted_met :
    Accepts awake (.identify (cmd 0 0 0 0)) ∧ Accepts awake (.attest (cmd 0 64 0 0)) ∧
    Accepts awake (.powerCap (cmd 0 800 0 0)) ∧ Accepts awake (.powerCap (cmd 0 2401 0 0)) ∧
    Accepts awake (.fwPatch (cmd 0 0 64 0)) ∧ Accepts awake (.readErrors (cmd 0 32 1 1)) ∧
    Accepts awake (.scrubQuery (cmd 0 767 0 0)) ∧ Accepts awake (.scrubFullPass (cmd 0 767 0 0)) ∧
    Accepts awake (.scrubRange (cmd 0 767 0 64)) ∧ goodBytes 0 0x8000000000 ∧ goodBytes 0x10000000000 64 ∧
    ¬ goodBytes 0x8000000000 1 :=
  ⟨accepts rfl (by decide +kernel), accepts rfl (by decide +kernel), accepts rfl (by decide +kernel), accepts rfl (by decide +kernel),
    accepts rfl (by decide +kernel), accepts rfl (by decide +kernel), accepts rfl (by decide +kernel), accepts rfl (by decide +kernel),
    accepts rfl (by decide +kernel), by decide⟩

/-- An image of one FDESC, the same descriptor in HBM, and the farms of P0. -/
def imaged (st : FarmState) : State :=
  { farming with
    parts := farming.parts.setIfInBounds 0 (some { Part.p0 with
      ptbase := 0x20000, images := [(0, { farms := [parseFdesc (memNat farming.mem 0x100 128)], hash := 0 })] })
    farms := [{ stripFarm with state := st }] }

theorem test_FarmCommands_start_met :
    Accepts awake (.startFarm (cmd 0 0 0 0)) ∧ awake.pageBase 0 = 0 ∧ Accepts (imaged .held) (.startFarm (cmd 0 0 0 0)) ∧
    (∃ q im d, (imaged .held).part? 0 = some q ∧ q.ptbase ≠ 0 ∧ q.images.find? (fun x => x.1 == 0) = some (0, im) ∧
      im.farms[0]? = some d ∧ (imaged .held).judge d 0 false = none ∧
      ((imaged .held).judge { d with entry := 1 } 0 false).isSome = true) ∧
    noticeOf { cmd 0 0 0 0 with flags := 1 } ≠ none ∧ (imaged .held).owed < 4096 ∧
    Accepts (imaged .held) (.startFarmDirect (cmd 0 0x8000000000000000 0x100 0)) ∧
    (∃ keys, fdescKeys (imaged .held) 0 0x100 = some keys) ∧
    Accepts (imaged .held) (.startFarmResume (cmd 0 0x4000000000000000 1 0)) ∧
    (∃ f, (imaged .held).farm? 1 = some f ∧ f.part.toNat = 0 ∧ f.state = .held) :=
  ⟨accepts rfl (by decide +kernel), by decide, accepts rfl (by decide +kernel),
    ⟨_, _, _, rfl, by decide +kernel, rfl, rfl, by decide +kernel, by decide +kernel⟩, by decide, by decide,
    accepts rfl (by decide +kernel), ⟨keysFrom 0x100 128, by decide +kernel⟩, accepts rfl (by decide +kernel), ⟨_, rfl, by decide +kernel⟩⟩

theorem test_FarmCommands_stop_met :
    Accepts (imaged .running) (.stopFarm (cmd 0 1 0 0)) ∧ Accepts (imaged .running) (.preempt (cmd 0 1 1 0)) ∧
    Accepts (imaged .running) (.queryFarm (cmd 0 1 0 0)) ∧ (∃ f, (imaged .running).farm? 1 = some f ∧ f.state = .running) ∧
    (∃ f, (imaged .queued).farm? 1 = some f ∧ f.state = .queued) ∧ (∃ f, (imaged .faulted).farm? 1 = some f ∧ f.state = .faulted) ∧
    (imaged .running).farm? 2 = none :=
  ⟨accepts rfl (by decide +kernel), accepts rfl (by decide +kernel), accepts rfl (by decide +kernel), ⟨_, rfl, rfl⟩, ⟨_, rfl, rfl⟩,
    ⟨_, rfl, rfl⟩, by decide⟩

/-- An image without sections at physical address 0x200. Whether its key verifies is Config's to say, so that BADSIG and
what follows a good signature are both left open here. -/
def header : State :=
  { imaged .held with mem := memSetNat (memSetNat (memSetNat (memSetNat (memSetNat [] 0x200 4 0x00464F47) 0x206 2 2)
      0x230 4 0xFFFFFFFF) 0x238 8 64) 0x240 4 0x47495347 }

theorem test_FarmCommands_load_met :
    Accepts header (.loadImage (cmd 0 0x200 337 0)) ∧ Accepts awake (.loadImage (cmd 0 0x200 337 0)) ∧ goodBytes 0x200 337 ∧
    imageSections header.mem 0x200 337 = some [] ∧ imageSections header.mem 0x200 338 = none ∧
    imageFarms header.mem 0x200 337 [] = some [] ∧
    (∃ q, header.part? 0 = some q ∧ q.ptbase ≠ 0 ∧ freeHandle q.images = some 1) ∧
    freeHandle ((List.range 16).map (fun h => (h, { farms := [], hash := 0 }))) = none ∧
    clash ([].filter (fun x => x.loaded && x.size != 0)) = false ∧ (State.loadSections 0 0x200 [] header).2 = true :=
  ⟨accepts rfl (by decide +kernel), accepts rfl (by decide +kernel), by decide, by decide +kernel, by decide +kernel, by decide +kernel,
    ⟨_, rfl, by decide +kernel⟩, by decide, by decide, rfl⟩

/-- P7 exists, with no stack of its own. -/
def seven : State := { awake with parts := awake.parts.setIfInBounds 7 (some { Part.p0 with stackMask := 0 }) }

theorem test_PartitionCommands_met :
    awake.mode = .ready ∧ ((words (cmd 7 1 3 255)).drop 3).all (fun w => w == 0) = true ∧ (∃ p, awake.part? 0 = some p ∧
      BitVec.setWidth 8 (255 : Word) &&& ~~~p.stackMask = 0) ∧ (seven.part? 7).isSome = true ∧ awake.part? 7 = none ∧
    (∃ p, (seven.modPart 0 (fun p => { p with stackMask := 0xFE })).part? 0 = some p ∧ BitVec.setWidth 8 (1 : Word) &&& ~~~p.stackMask ≠ 0) ∧
    Accepts seven (.partitionDestroy (cmd 7 0 0 0)) ∧ Accepts seven (.partitionDestroy (cmd 0 0 0 0)) ∧ seven.partFarms 7 = [] ∧
    Accepts awake (.setSlots (cmd 0 0xFF1F07 0 0)) ∧ (0xFF1F07 : Word).toNat = 7 + 256 * 31 + 65536 * (0xFF1F07 / 65536) ∧
    awake.badSlot 0 = false :=
  ⟨by decide, by decide, ⟨_, rfl, by decide +kernel⟩, by decide, by decide, ⟨_, rfl, by decide +kernel⟩, accepts rfl (by decide +kernel),
    accepts rfl (by decide +kernel), by decide, accepts rfl (by decide +kernel), by decide, by decide⟩

theorem test_PartitionCommands_more_met :
    Accepts awake (.setPageBase (cmd 0 0x20000 0 0)) ∧ (imaged .held).partFarms 0 ≠ [] ∧ awake.partFarms 0 = [] ∧
    goodBytes 0x7FFFFF0000 65536 ∧ Accepts ready (.pinRevoke (cmd 0 0 0 0)) ∧
    (∀ t ∈ ready.strands, t.pins = Vector.replicate 8 Pin.idle) ∧ Accepts ready (.castleStack (cmd 0 0x307 0 0)) ∧
    (0x307 : Word) &&& ~~~(0x307 : Word) = 0 ∧ (ready.stack 7).handing = false ∧ (ready.stack 7).owner = (0x307 : Word).getLsbD 8 ∧
    (ready.stack 7).owner ≠ (0x007 : Word).getLsbD 8 ∧ (moving.stack 0).handing = true :=
  ⟨accepts rfl (by decide +kernel), by decide, by decide, by decide, accepts rfl (by decide +kernel), by decide,
    accepts rfl (by decide +kernel), by decide, by decide, by decide, by decide, by decide⟩

/-- A stack whose hand-over to die 1 is in progress, no strand at work. -/
def handed : State :=
  awake.modStack 0 (fun k => { k with
    handing := true, hand := some { source := false, target := true, force := false, bar := 0, resp := none } })

theorem test_CastleResults_met :
    Free ready [8, 9, 10] ∧ ¬ goodCastle 8 0 ∧ ¬ goodCastle 0 2 ∧ goodCastle 7 1 ∧ ready.mayCastle ready.cur 7 = true ∧
    user.mayCastle user.cur 7 = false ∧ (ready.stack 7).owner = true ∧ (ready.stack 0).owner ≠ true ∧
    (moving.stack 0).handing = true ∧ (ready.stack 0).handing = false ∧ AllComplete ready ∧ ready.cur.sbuf = [] ∧
    ¬ (AllComplete waiting ∧ waiting.cur.sbuf = []) ∧ (0x1000000000000000 : Word).toNat / 2 ^ 60 ≠ 0 ∧
    (0x0001000000000000 : Word).toNat / 2 ^ 60 = 0 ∧ (0x100000000 : Word).toNat / 2 ^ 32 % 2 ^ 16 ≠ (ready.stack 0).att.toNat ∧
    (0 : Word).toNat / 2 ^ 32 % 2 ^ 16 = (ready.stack 0).att.toNat ∧ (handed.stack 0).hand ≠ none ∧ (ready.stack 0).hand = none ∧
    ((ready.modStack 0 (fun k => { k with lastBusy := true })).stack 0).lastBusy = true ∧ (ready.stack 0).lastBusy = false := by
  decide +kernel

theorem test_CastleResults_hand_met :
    (∃ h, (handed.stack 0).hand = some h ∧ h.bar = 0 ∧ h.source ≠ h.target ∧ h.resp = none) ∧ (handed.stack 0).queue = [] ∧
    handed.cur.life = .unused ∧ handed.others = [] ∧ handed.farms = [] := ⟨⟨_, rfl, by decide +kernel⟩, by decide⟩

/-! ### States that meet the statements' hypotheses: the host, starts, engine steps, halts, errors, links, steps -/

/-- One extent of 64 KiB at the bottom of the window. -/
def extended1 (release : Option (CmdRec × Bool)) : State :=
  { awake with extents := [{ die := false, tag := 1, base := 2 ^ 50, len := 65536, releasing := release }] }

theorem test_ExtentCommands_met :
    Accepts awake (.dcdAccept (cmd 0 0xFFFF0001 (2 ^ 51 - 65536) 65536)) ∧
    (0xFFFF0001 : Word) &&& ~~~(0xFFFF0001 : Word) = 0 ∧ (BitVec.ofNat 64 (2 ^ 51 - 65536)).toNat + 65536 ≤ 2 ^ 51 ∧
    (awake.extents.filter (fun e => e.die == true)).length < 256 ∧
    (∃ e ∈ (extended1 none).extents, e.base < 2 ^ 50 + 65536 ∧ 2 ^ 50 < e.base + e.len) ∧
    (∀ e ∈ (extended1 none).extents, 2 ^ 51 ≤ e.base ∨ e.base + e.len ≤ 2 ^ 50 + 65536) ∧
    Accepts (extended1 none) (.dcdRelease (cmd 0 0 (2 ^ 50) 0)) ∧
    (∀ e ∈ (extended1 none).extents, e.die ≠ true ∨ e.base ≠ 2 ^ 50) ∧ (extended1 none).pinned (2 ^ 50) (2 ^ 50 + 65536) = false ∧
    (ready.modCur (fun t => { t with pins := t.pins.setIfInBounds 7 { Pin.idle with
      live := true, extents := [{ va := 0, key := 2 ^ 50 + 65535, len := 1 }] } })).pinned (2 ^ 50) (2 ^ 50 + 65536) = true ∧
    (extended1 (some (cmd 0 0 0 0, false))).cores = [] ∧ awake.cur.life = .unused ∧ awake.others = [] ∧
    awake.farms = [] :=
  ⟨accepts rfl (by decide +kernel), by decide, by decide, by decide, by decide, by decide, accepts rfl (by decide +kernel), by decide,
    by decide +kernel⟩

/-- A response that waits. -/
def answer1 : RespRec := { status := 0, part := 0, tag := 0, opcode := 0, res0 := 0, res1 := 0, res2 := 0 }

theorem test_HostPorts_met :
    awake.mode = .ready ∧ awake.cmdPort.length < 256 ∧ (inMode .warmStart).mode = .warmStart ∧
    256 ≤ { awake with cmdPort := List.replicate 256 (cmd 0 0 0 0) }.cmdPort.length ∧ 63 % 64 ≠ 0 ∧ 128 % 64 = 0 ∧
    { awake with respPort := [answer1] }.respPort = [answer1] ∧ awake.respPort = [] ∧
    { awake with notices := [answer1] }.notices = [answer1] ∧ awake.respPort.length < 256 ∧
    256 ≤ { awake with respPort := List.replicate 256 answer1 }.respPort.length ∧ awake.notices = [] := by decide +kernel

theorem test_HostMemoryAccess_met :
    awake.mode ≠ .off ∧ awake.mode ≠ .tripped ∧ (0x7FFFFFFFFF : BitVec 52).toNat < 2 ^ 39 ∧
    (0x7FFFFFFFFF : BitVec 52).toNat % 64 + 1 ≤ 64 ∧ (0 : BitVec 52).toNat % 64 + 64 ≤ 64 ∧
    ((awake.stack 7).right true).state = .owned ∧ ((awake.stack 7).right false).state = .absent ∧
    ((({ awake.stack 0 with right0 := { state := .handing, gen := 0 } } : Stack)).right false).state = .handing ∧
    awake.errors.length < 4096 ∧ MemOk awake ∧ [(1 : Byte)].length = 1 := by decide +kernel

/-- A start that has completed n steps. -/
def started (m : DevMode) (n fails : Nat) (r : Option CmdRec) : State :=
  { awake with mode := m, startStep := n, warmFail := fails, resetResp := r }

theorem test_StartAndPower_met :
    (inMode .off).mode = .off ∧ awake.mode ≠ .off ∧ (started .coldStart 7 0 none).mode = .coldStart ∧
    (started .coldStart 7 0 none).startStep = 7 ∧ (started .coldStart 5 0 none).startStep = 5 ∧
    (started .warmStart 4 0 none).mode = .warmStart ∧ (started .warmStart 8 0 none).startStep = 8 ∧
    (started .warmStart 8 0 none).resetResp = none ∧ (started .coldStart 8 0 (some (cmd 0 0 0 0))).resetResp = some (cmd 0 0 0 0) ∧
    (started .warmStart 0 1 none).warmFail < 2 ∧ 2 ≤ (started .warmStart 0 2 none).warmFail ∧
    (inMode .failed).mode = .failed ∧ (words (cmd 0 0 0 0)).all (fun w => w == 0) = true := by decide +kernel

theorem test_StartAndPower_reset_met : Accepts awake (.resetWarm (cmd 0 0 0 0)) := accepts rfl (by decide +kernel)

/-- A sensor at its limit, and a die whose clock is n steps down. -/
def hot (n : Nat) : State :=
  { awake with clockDown0 := n, sensors := awake.sensors.setIfInBounds 7 { temp := 90, limit := 90 } }

theorem test_SlotsAndClock_met :
    (63 : BitVec 6) ≠ 0 ∧ slotOwner ((shared.stack 0).table 5) 3 = some 1 ∧ (2 : BitVec 8).getLsbD 1 = true ∧
    (1 : BitVec 8).getLsbD 1 = false ∧ (shared.stack 0).donate.getLsbD 1 = true ∧
    ((shared.modStack 0 (fun k => { k with donate := 1 })).stack 0).donate.getLsbD 1 = false ∧
    slotOwner ((shared.stack 0).table 5) (3 + 13) = some 0 ∧ (shared.stack 0).donate.getLsbD 0 = true ∧
    (1 : BitVec 8).getLsbD 0 = true ∧ (∀ i ∈ List.range 13, 1 ≤ i → slotOwner ((shared.stack 0).table 5) (3 + i) = some 1) ∧
    (hot 7).mode = .ready ∧ ((hot 7).sensors.getD 7 { temp := 0, limit := 0 }).limit.toNat ≤ (90 : BitVec 16).toNat ∧
    (hot 7).clockDown false < 8 ∧ 8 ≤ (hot 8).clockDown false ∧
    (89 : BitVec 16).toNat < ((hot 7).sensors.getD 7 { temp := 0, limit := 0 }).limit.toNat ∧
    awake.power.toNat ≤ awake.powerCap.toNat ∧
    ({ awake with power := 801, powerCap := 800 }).powerCap.toNat < ({ awake with power := 801, powerCap := 800 }).power.toNat ∧
    (∀ x ∈ awake.sensors.toList, x.temp.toNat < x.limit.toNat) ∧ 0 < (hot 1).clockDown false := by decide +kernel

theorem test_AccumulatorSteps_met :
    (∃ e, RowRuns shaping e (opTcfg 0) ∧ e.prog = 0 ∧ e.rowprog = 0 ∧ e.instr = .tcfg 0) ∧ shaping.cur.tiles[0]? = some Tile.start ∧
    (∃ e, LineRuns starting e (opOqinit 0 6 4 5 3 4 0 1) ∧ e.prog = 0 ∧ e.instr = .oqinit 0 6 4 5 3 4 0 1) ∧
    (0 : BitVec 1).toNat < starting.cur.orths.length :=
  ⟨⟨_, ⟨by decide +kernel, by decide +kernel, rfl, rfl, by decide +kernel⟩, by decide +kernel⟩, by decide +kernel,
    ⟨_, ⟨by decide +kernel, by decide +kernel, rfl, rfl, by decide +kernel⟩, by decide +kernel⟩, by decide +kernel⟩

/-- A strand of a halting farm; one marked to halt. -/
def halting : State := { ready with farms := [{ stripFarm with halting := .requeue none }] }
def marked (p : Pause) : State := paused (ready.modCur (fun t => { t with haltReq := true })) p

theorem test_HaltAndWaitSteps_met :
    halting.others = [] ∧ halting.cur.coreNo = (0 : BitVec 8).toNat ∧ halting.mustHalt halting.cur = true ∧
    ready.mustHalt ready.cur = false ∧ halting.cur.coreNo ≠ (255 : BitVec 8).toNat ∧ (marked .none).cur.life = .running ∧
    (marked .none).cur.haltReq = true ∧ Quiet (marked .none) ∧ (marked .none).cur.sbuf = [] ∧
    (marked .yielded).cur.pause = .yielded ∧ (marked (.arrived 1 true)).cur.pause = .arrived 1 true ∧ ready.cur.exists_ = true ∧
    ready.cur.haltReq = false ∧ (ready.modCur (fun t => { t with mcheck := some (scalarTrap 0x12 0 3) })).cur.trapDue = true ∧
    ready.cur.trapDue = false ∧ (paused ready (.waiting true)).cur.pause = .waiting true ∧
    (paused ready (.waiting false)).cur.pause ≠ .waiting true ∧
    (paused ready (.yielding (2 ^ 20))).cur.pause = .yielding (2 ^ 20) := by decide +kernel

theorem test_HaltAndWaitSteps_idle_met : ∀ n, ready.cur.pause ≠ .yielding n := by
  intro n h; cases h

/-- A queued farm of a partition with an age limit. -/
def aging (p : BitVec 3) : State :=
  { awake with
    parts := awake.parts.setIfInBounds 0 (some { Part.p0 with ageLimit := 1 })
    farms := [{ stripFarm with state := .queued, fd := { stripFarm.fd with prio := p } }] }

theorem test_DispatcherSteps_met :
    ready.others = [] ∧ ready.farms = [] ∧ (ready.modCur (fun t => { t with life := .halted })).cur.life = .halted ∧
    ready.cur.life ≠ .halted ∧ ready.cur.coreNo = (0 : BitVec 8).toNat ∧ (aging 6).farm? 1 = some ((aging 6).farms.headD stripFarm) ∧
    (∃ p, (aging 6).part? 0 = some p ∧ p.ageLimit ≠ 0) ∧ ((aging 6).farms.headD stripFarm).state = .queued ∧
    ((aging 6).farms.headD stripFarm).ready = true ∧ ((aging 6).farms.headD stripFarm).prio < 7 ∧
    7 ≤ ((aging 7).farms.headD stripFarm).prio ∧ stripFarm.state ≠ .queued :=
  ⟨by decide, by decide, by decide, by decide, by decide, by decide +kernel, ⟨_, rfl, by decide⟩, by decide +kernel⟩

theorem test_ErrorSteps_met :
    awake.errors.length < 4096 ∧ (0x7FFFFFFFFF : BitVec 52).toNat < 2 ^ 39 ∧ 0x10000000000 ≤ (0x10000000000 : BitVec 52).toNat ∧
    (0x1FFFFFFFFFF : BitVec 52).toNat < 0x20000000000 ∧ ready.cur.exists_ = true ∧ 63 < 8 * ready.cur.lgw ∧
    (31, 63) ∉ ready.cur.badRows ∧ ready.cur.life = .running ∧ ready.cur.coreNo = (0 : BitVec 8).toNat := by decide +kernel

/-- Link 0 of die 0 up, with a route whose flow 5 ends at the die, and one whose flow 6 goes on. -/
def linked : State :=
  { awake with
    links := awake.links.setIfInBounds 0 { Link.reset with state := .up }
    routes := [{ die := false, inLink := 0, inFlow := 5, outFlow := 9, primary := 31, alt1 := 31, alt2 := 31, alt3 := 31 },
      { die := false, inLink := 0, inFlow := 6, outFlow := 10, primary := 0, alt1 := 31, alt2 := 31, alt3 := 31 },
      { die := false, inLink := 31, inFlow := 4, outFlow := 7, primary := 0, alt1 := 31, alt2 := 31, alt3 := 31 }]
    txFlows := [{ id := 0, die := false, flow := 4, next := 1, unacked := [{ seq := 0, flow := 7, kind := 0, crc := 0, payload := [] }], current := some 0, failed := false }] }

theorem test_LinkReceive_met :
    takes (makeFlit 0 5 0 []) .dataFlit ∧ takes (makeFlit 0 5 2 []) .barrierMessage ∧ takes (makeFlit 0 5 3 []) .collectiveData ∧
    (awake.link 0).state ≠ .up ∧ (linked.link 0).state = .up :=
  ⟨.inl ⟨rfl, by decide +kernel⟩, .inr (.inl ⟨rfl, by decide +kernel⟩), .inr (.inr (.inl ⟨rfl, by decide +kernel⟩)), by decide,
    by decide⟩

theorem test_LinkReceive_check_met :
    badCheck (makeFlit 0 5 0 []) = false ∧ (∃ f : Flit, takes f .dataFlit ∧ f.crc ≠ flitCrc f) :=
  ⟨makeFlit_good _ _ _ _ (by decide), { seq := 0, flow := 5, kind := 0, crc := 0, payload := [] }, .inl ⟨rfl, by decide⟩,
    by decide +kernel⟩

/-- In order, delivered before, opening a gap, at the window's end and past it; and a flit on its way. -/
theorem test_LinkReceive_order_met :
    (∃ r ∈ linked.routes, endsHere linked 0 (makeFlit 0 5 0 []) r ∧ aheadBy linked 0 (makeFlit 0 5 0 []) r = 0 ∧
      2 ^ 31 ≤ aheadBy linked 0 (makeFlit (-1) 5 0 []) r ∧ aheadBy linked 0 (makeFlit 4096 5 0 []) r = 4096 ∧
      4096 < aheadBy linked 0 (makeFlit 4097 5 0 []) r ∧ aheadBy linked 0 (makeFlit 1 5 0 []) r = 1 ∧
      (linked.rx false r.outFlow).window = []) ∧ linked.windowUse false < 32768 ∧
    (∃ r ∈ linked.routes, linked.route? false 0 6 = some r ∧ r.primary ≠ 31 ∧ linked.pickLink false r = some 0) := by decide +kernel

/-- One configuration entry at 0x200. -/
def entry (x : Nat) : State := { awake with mem := memSetNat [] 0x200 16 x }

theorem test_LinkControl_met :
    Accepts (entry 4) (.linkConfig (cmd 0 0x200 1 0)) ∧ goodBytes 0x200 16 ∧ memNat (entry 0x40000001FF04).mem 0x200 16 = 0x40000001FF04 ∧
    linkEntryOk 0xFFFF04 = true ∧ linkEntryOk 0x1000004 = false ∧ linkEntryOk 2 = true ∧ linkEntryOk 5 = false ∧
    (linked.link 0).state = .up ∧ linked.txWait = [] ∧  (makeFlit 0 7 1 [0]).kind = 1 ∧
    (∃ r ∈ linked.routes, linked.backRoute false 0 7 = some r ∧ r.inLink = 31 ∧ r.inFlow = 4) ∧
    (linked.txFlows.find? (fun y => y.die == false && y.flow == 4)).isSome = true ∧
    (awake.link 0).state ≠ .up ∧ (∃ x ∈ linked.txFlows, linked.txFlows = [x] ∧ x.current = some 0) :=
  ⟨accepts rfl (by decide +kernel), by decide +kernel⟩

theorem test_LinkControl_check_met : badCheck (makeFlit 0 7 1 [0]) = false := makeFlit_good _ _ _ _ (by decide)

/-- A link in training after its second failed attempt. -/
theorem test_LinkControl_train_met : ∃ s : State, (s.link 35).state = .training ∧ 2 ≤ (s.link 35).attempts ∧
    s.errors.length < 4096 :=
  ⟨{ awake with links := awake.links.setIfInBounds 35 { Link.reset with state := .training, attempts := 2 } },
    by decide +kernel⟩

theorem test_ResetValues_met : Accepts awake (.resetWarm (cmd 0 0 0 0)) ∧ (inMode .off).mode = .off ∧ 7 < 8 ∧ 63 < 64 :=
  ⟨accepts rfl (by decide +kernel), by decide⟩

theorem test_DecodeEncode_met : (Instr.ldImm 31 31 3 false (-1)).wf = true := by decide

theorem test_StepKeepsCanonical_met :
    Canonical (regs ready [(4, 5)]) ∧ (nextOf (step ((regs ready [(4, 5)]).withFetchWord 32 0x00148304))).isSome = true := by
  decide +kernel

/-- What a fetch at the pc gives. -/
noncomputable def fetched (s : State) : Option (List (BitVec 16)) :=
  match fetchInstr s with | .ok (ps, _) => some ps | .error _ => none

theorem test_StepRunsDecoded_met :
    let s := ready.withFetchWord 32 0x00148304
    let x := ready.withFetchWord 32 0x0000007C
    s.lost = false ∧ s.turns = [] ∧ s.clock % 2 = 0 ∧ s.cur.life = .running ∧ s.cur.haltReq = false ∧ s.cur.trapDue = false ∧
    (fetched { s with clock := s.clock + 1 }).bind decodeParcels = some (.add 3 4 5) ∧
    (fetched { x with clock := x.clock + 1 }).map decodeParcels = some none ∧
    { s with turns := [.strand s.cur.key] }.turns = [.strand s.cur.key] ∧ encode .responsePortRead = [] := by decide +kernel

theorem test_ScalarFrame_met :
    destination (.add 31 9 10) = some 31 ∧ destination (.fclassD 8 9) = some 8 ∧ destination (.cBnez 7 (-1)) = some 0 ∧
    (∃ t, exec (.add 31 9 10) ready = .next t) ∧ (∃ t, exec (.fclassD 8 9) ready = .next t) ∧
    (∃ t, exec (.cBnez 7 (-1)) ready = .next t) :=
  ⟨rfl, rfl, rfl, ⟨_, rfl⟩, ⟨_, rfl⟩, ⟨_, rfl⟩⟩

theorem test_VectorCommitFrame_met :
    (opVredsum (px 0) 8 3).legal ready.cur = true ∧ hasRoom ready (.vredsum (px 0) 8 3) ∧
    commitStop ready (.vredsum (px 0) 8 3) = none ∧ (nextOf (exec (.vredsum (px 0) 8 3) ready)).isSome = true ∧ ready.cur.viq = [] := by
  decide +kernel

/-! ### States that meet the hypotheses of the single clauses -/

/-- The same with the base die naming the other die as owner of stack 0; and with the line at 0x100 poisoned. -/
def mirrored : State := mapped9.modStack 0 (fun k => { k with owner := true })
def poisonedLine : State := { mapped9 with poison := [(4, some 0)] }

/-- A store to that line in the buffer. -/
noncomputable def rewriting : State := match exec (.st 8 9 0 0) poisonedLine with | .next t => t | _ => poisonedLine

theorem test_AccessStops_mirror_met :
    Free mirrored [8, 9] ∧ checkBytes mirrored mirrored.cur .read none 8 (ea mirrored 9 0) = .error (.mirror 0x100 0x20000) ∧
    checkBytes mirrored mirrored.cur .write none 8 (ea mirrored 9 0) = .error (.mirror 0x100 0x20000) := by decide

theorem test_AccessStops_poison_met :
    Free poisonedLine [8, 9] ∧
    checkBytes poisonedLine poisonedLine.cur .read none 8 (ea poisonedLine 9 0) = .ok (keysFrom 0x100 8) ∧
    poisonedLine.cur.fenced 0 = false ∧ poisonedLine.cur.loadWaits (ea poisonedLine 9 0).toNat 8 = false ∧
    (keysFrom 0x100 8).findIdx? (fun k => (sget none poisonedLine.poison (k / 64)).isSome) = some 0 ∧
    storesThere poisonedLine.cur (keysFrom 0x100 8) = false ∧ Free rewriting [8, 9] ∧
    checkBytes rewriting rewriting.cur .read none 8 (ea rewriting 9 0) = .ok (keysFrom 0x100 8) ∧
    rewriting.cur.fenced 0 = false ∧ rewriting.cur.loadWaits (ea rewriting 9 0).toNat 8 = false ∧
    (keysFrom 0x100 8).findIdx? (fun k => (sget none rewriting.poison (k / 64)).isSome) = some 0 ∧
    storesThere rewriting.cur (keysFrom 0x100 8) = true := by decide +kernel


/-- Sixteen frames of HBM stack 0 for a save region, and a farm that has them. -/
def area : List Nat := (List.range 16).map (fun i => 0x100000 + 0x10000 * i)
def housed (f : Farm) : Farm := { f with frames := area }

/-- The strand of such a farm with an entry that has not run; the same with stack 0 on its way. -/
noncomputable def queuing : State := { waiting with farms := [housed stripFarm] }
def leaving (s : State) : State :=
  s.modStack 0 (fun k => { k with handing := true, right0 := { state := .handing, gen := 0 } })

/-- In its handler with the entry frozen; and with its record lost. -/
noncomputable def frozen : State := queuing.takeTrap (scalarTrap 0x18 0 5)
noncomputable def unreadable : State := { frozen with mem := memSetNat frozen.mem 0x107000 8 0x7C }

theorem test_TrapEntry_frozen_met :
    (let u := (queuing.drainStrand queuing.cur.key); u.cur.inHandler = false ∧ u.cur.viq ≠ [] ∧ u.saveHeld u.cur = false) ∧
    (let u := ((leaving queuing).drainStrand queuing.cur.key); u.cur.viq ≠ [] ∧ u.saveHeld u.cur = true) := by decide +kernel

theorem test_TretResumes_frozen_met :
    frozen.cur.level = .kernel ∧ frozen.cur.inHandler = true ∧ AllComplete frozen ∧ frozen.cur.frozen ≠ 0 ∧
    frozen.cur.ctl.tpc.getLsbD 0 = false ∧ frozen.saveHeld frozen.cur = false ∧
    (readRecords frozen frozen.cur frozen.cur.frozen 0x7000).isSome = true ∧
    (leaving frozen).saveHeld (leaving frozen).cur = true ∧ AllComplete unreadable ∧ unreadable.cur.frozen ≠ 0 ∧
    unreadable.saveHeld unreadable.cur = false ∧
    (readRecords unreadable unreadable.cur unreadable.cur.frozen 0x7000).isNone = true := by decide +kernel

/-- The entry as it is reposted. -/
theorem test_TretResumes_record_met : ∃ e r, readRecords frozen frozen.cur frozen.cur.frozen 0x7000 = some (e :: r) ∧
    e.instr = .vadd (px 0) 3 1 2 := by
  have h : ((readRecords frozen frozen.cur frozen.cur.frozen 0x7000).bind (fun xs => xs.head?.map (fun e => e.instr))) =
      some (.vadd (px 0) 3 1 2) := by decide +kernel
  cases hx : readRecords frozen frozen.cur frozen.cur.frozen 0x7000 with
  | none => simp [hx] at h
  | some xs =>
    cases xs with
    | nil => simp [hx] at h
    | cons e r => exact ⟨e, r, rfl, by simpa [hx] using h⟩

theorem test_LaneLimitAndInjection_stops_met :
    Free waiting [9] ∧ ¬ AllComplete waiting ∧ ((regs ready [(9, 64)]).g 9).toNat / 64 % 2 ^ 38 ≠ 0 ∧
    (regs ready [(9, 0x8000000000000000)]).cur.injectOk (injectOf ((regs ready [(9, 0x8000000000000000)]).g 9)) = false ∧
    ((regs user [(9, 0)]).g 9).toNat / 64 % 2 ^ 38 = 0 ∧ user.cur.injectOk (injectOf (user.g 9)) = true ∧
    user.cur.level = .user ∧ AllComplete user ∧ 1024 * ready.cur.lgw ≤ (1024 : BitVec 12).toNat * (8 * 2 ^ (ready.cur.ctl.vtype.toNat % 8)) ∧
    8 * 2 ^ (ready.cur.ctl.vtype.toNat % 8) ≤ (32 : BitVec 6).toNat ∧ ready.cur.tiles[(0 : Reg).toNat]? = none ∧
    (∃ a, shaping.cur.tiles[(0 : Reg).toNat]? = some a ∧ a.m.toNat ≤ 4096 / 64) ∧ 48 ≤ (48 : BitVec 6).toNat ∧ 8 ≤ (8 : Reg).toNat ∧
    8 * ready.cur.lgw ≤ (64 : BitVec 12).toNat := by
  refine ⟨by decide +kernel, by decide +kernel, by decide, by decide +kernel, by decide, by decide +kernel, by decide, by decide,
    by decide, by decide, by decide, ⟨Tile.start, by decide +kernel, by decide⟩, by decide, by decide, by decide⟩

theorem test_WaitingResults_stores_met :
    StoresPerformed ready ∧ ¬ StoresPerformed buffered ∧ handling.cur.inHandler = true ∧
    handling.cur.trapNow.toNat % 256 ≠ 0x18 ∧
    (handling.modCur (fun t => { t with trapNow := 0x18, trapInfo := 1023 })).cur.trapNow.toNat % 256 = 0x18 ∧
    (handling.modCur (fun t => { t with trapNow := 0x18, trapInfo := 1023 })).cur.trapInfo.toNat % 1024 = 1023 := by decide +kernel

/-- A store of before the trap that a frozen load holds back. -/
noncomputable def heldBack : State := { buffered with cur := { buffered.cur with
  inHandler := true, frozen := 1, shadow := [{ buffered.cur.newEntry (.vld (px 0) 2 1 4 9) (opVld (px 0) 2 1 4 9) with seq := -1 }] } }
theorem test_WaitingResults_frozen_met :
    heldBack.cur.sbuf ≠ [] ∧ heldBack.cur.inHandler = true ∧ ∀ b ∈ heldBack.cur.sbuf, heldBack.cur.storeFrozen b = true := by
  decide +kernel

theorem test_PinResults_stops_met :
    rangeExtents (leaving mapped9) (leaving mapped9).cur 1 0 1 = .error .hold ∧
    rangeExtents mirrored mirrored.cur 1 0 1 = .error (.mirror 0 0x20000) := by decide

/-- Row 0 of v1 lost: with what wrote it still in its lane's operand buffer, and without. -/
noncomputable def spoilt (s : State) (ops : List OpRec) : State :=
  s.modCur (fun t => { t with badRows := [(1, 0)], opBuf := ops })

def wrote1 : List OpRec := [{ seq := -1, lane := 0, rows := [(1, 0)] }]

theorem test_MicroOperations_lost_met :
    (∃ e, (spoilt waiting []).cur.entry? 0 = some e ∧ MayIssue (spoilt waiting []) e (opVadd (px 0) 3 1 2) 0 ∧
      ¬ Recovers (spoilt waiting []).cur e ((spoilt waiting []).cur.microReads e (opVadd (px 0) 3 1 2) 0)) ∧
    (∃ e, (spoilt waiting wrote1).cur.entry? 0 = some e ∧ MayIssue (spoilt waiting wrote1) e (opVadd (px 0) 3 1 2) 0 ∧
      (spoilt waiting wrote1).cur.badRowsIn e ((spoilt waiting wrote1).cur.microReads e (opVadd (px 0) 3 1 2) 0) = [(1, 0)] ∧
      Recovers (spoilt waiting wrote1).cur e ((spoilt waiting wrote1).cur.microReads e (opVadd (px 0) 3 1 2) 0)) :=
  ⟨⟨_, rfl, by decide +kernel⟩, ⟨_, rfl, by decide +kernel⟩⟩

/-- An unordered atomic of two elements on one word, issued: its updates are left. -/
noncomputable def updating : State := queued (regs pinned [(9, tcm 0)]) 2 [] (.vamoAdd (px 0) false 1 2 9 7) (opVamoAdd (px 0) false 1 2 9 7)
noncomputable def updates : State := match exec (.microOperationIssue 1024 0 0) updating with | .next t => t | _ => updating

theorem test_MicroOperations_left_met :
    ∃ e ∈ updates.cur.viq, updates.cur.entry? 0 = some e ∧ ∃ r ∈ e.inflight,
      e.inflight.find? (fun x => x.g == 0 && x.left != []) = some r ∧ (∀ n, (r.left[n % r.left.length]?).isSome = true) := by
  have h : (updates.cur.viq.map (fun e => decide (updates.cur.entry? 0 = some e) && e.inflight.any (fun r =>
      decide (e.inflight.find? (fun x => x.g == 0 && x.left != []) = some r) && decide (0 < r.left.length)))) = [true] := by
    decide +kernel
  obtain ⟨e, he⟩ := List.map_eq_singleton_iff.mp h
  have h2 := he.2
  simp only [Bool.and_eq_true, decide_eq_true_eq, List.any_eq_true] at h2
  obtain ⟨h3, r, hr, h4, h5⟩ := h2
  exact ⟨e, by rw [he.1]; simp, h3, r, hr, h4, fun n => by simp [Nat.mod_lt _ h5]⟩

noncomputable def updateOne : State := queued (regs pinned [(9, tcm 0)]) 1 [] (.vamoAdd (px 0) false 1 2 9 7) (opVamoAdd (px 0) false 1 2 9 7)

theorem test_VectorMemoryElements_atomic_met :
    (∃ e m, updateOne.cur.entry? 0 = some e ∧ vop e.instr = some (opVamoAdd (px 0) false 1 2 9 7) ∧
      (opVamoAdd (px 0) false 1 2 9 7).run = .mem m ∧ MayIssue updateOne e (opVamoAdd (px 0) false 1 2 9 7) 0 ∧
      updateOne.cur.badRowsIn e (updateOne.cur.microReads e (opVamoAdd (px 0) false 1 2 9 7) 0) = [] ∧
      e.acting (opVamoAdd (px 0) false 1 2 9 7) (updateOne.cur.env e) 0 = [0] ∧ m.fields = 1 ∧ m.kind = .atomic ∧
      m.amo = some 0 ∧ m.ordered = false ∧
      pinAccess updateOne updateOne.cur m.k m.kind (m.addr (updateOne.cur.env e) 0 0) 4 = .ok (keysFrom (tcmKey 0 0) 4)) ∧
    updateOne.cur.det = false :=
  ⟨⟨_, _, rfl, rfl, rfl, by decide +kernel, by decide +kernel, by decide +kernel, rfl, rfl, rfl, rfl, by decide +kernel⟩,
    by decide +kernel⟩

/-- A tile instruction and an orthogonal one posted on strands with one accumulator, pin 1 over the TCM window, g9 = x. -/
noncomputable def tiling (x : Word) (i : Instr) (op : VOp) : State :=
  queued (regs (pinned.modCur (fun t => { t with tiles := [Tile.start] })) [(9, x)]) 0 [] i op
noncomputable def lining (x : Word) (i : Instr) (op : VOp) : State :=
  queued (regs (pinned.modCur (fun t => { t with orths := [Orth.start] })) [(9, x)]) 0 [] i op

/-- The entry of such a strand, its form, and what its row gives. -/
noncomputable def firstEntry (s : State) : VEntry := s.cur.viq.headD (s.cur.newEntry .vsync (opTcfg 0))
noncomputable def rowOf (s : State) : Option (Except Stop RowRes) :=
  (s.cur.formOf (firstEntry s)).map (fun f => f.row (rowEnv (tileServed s (firstEntry s)) (firstEntry s)) (s.cur.tile f.acc))
noncomputable def rowStores (s : State) : Option (Except (Nat × Stop) (List VStore)) :=
  (s.cur.formOf (firstEntry s)).bind (fun f => match rowOf s with
    | some (.ok z) => some (checkStores (tileServed s (firstEntry s)) s.cur f.pin .write f.bytes [] z.stores)
    | _ => none)
noncomputable def lineResult (s : State) (q : BitVec 1) : Except Stop OStep :=
  Machine.orthStep (lineEnv (orthServed s (firstEntry s)) (firstEntry s)) (s.cur.orth q) (firstEntry s).instr
noncomputable def lineStores (s : State) (q : BitVec 1) : Option (Except (Nat × Stop) (List VStore)) :=
  match lineResult s q with
  | .ok z => some (checkStores (orthServed s (firstEntry s)) s.cur z.pin .write z.bytes [] z.stores)
  | _ => none
def isOkay {ε α : Type} : Option (Except ε α) → Bool | some (.ok _) => true | _ => false
def stopOf {ε α : Type} : Option (Except ε α) → Option ε | some (.error x) => some x | _ => none

theorem test_MicroOperations_rows_met :
    let s := tiling (tcm 0) (.tsave 0 9 1) (opTsave 0 9 1)
    let x := tiling (tcm 4096) (.tsave 0 9 1) (opTsave 0 9 1)
    let y := tiling (tcm 4) (.tsave 0 9 1) (opTsave 0 9 1)
    let z := tiling (tcm 4096) (.trest 0 9 1) (opTrest 0 9 1)
    RowRuns s (firstEntry s) (opTsave 0 9 1) ∧ RowRuns x (firstEntry x) (opTsave 0 9 1) ∧
    RowRuns y (firstEntry y) (opTsave 0 9 1) ∧ RowRuns z (firstEntry z) (opTrest 0 9 1) ∧
    (firstEntry s).prog < 1 ∧
    isOkay (rowOf s) = true ∧ isOkay (rowStores s) = true ∧ (stopOf (rowStores x)).isSome = true ∧
    (firstEntry y).rowprog = 0 ∧ (firstEntry y).caps.ga.toNat % 8 ≠ 0 ∧ (stopOf (rowOf z)).isSome = true := by
  refine ⟨⟨by decide +kernel, by decide +kernel, rfl, rfl, by decide +kernel⟩,
    ⟨by decide +kernel, by decide +kernel, rfl, rfl, by decide +kernel⟩,
    ⟨by decide +kernel, by decide +kernel, rfl, rfl, by decide +kernel⟩,
    ⟨by decide +kernel, by decide +kernel, rfl, rfl, by decide +kernel⟩, ?_⟩
  decide +kernel

/-- A multiply with VL = 0, and a restore through a pin over the first bytes of stack 0, which is on its way. -/
noncomputable def emptyRow : State :=
  queued (pinned.modCur (fun t => { t with tiles := [Tile.start] })) 0 [] (.tmma 0 9 6 7 0 3 3 0 1 1 false)
    (opTmma 0 9 6 7 0 3 3 0 1 1 false)
noncomputable def awayRow : State :=
  leaving ((tiling 0 (.trest 0 9 1) (opTrest 0 9 1)).modCur (fun t => { t with pins := t.pins.setIfInBounds 1 { Pin.idle with
    live := true, rights := 7, base := 0, len := 8192, extents := [{ va := 0, key := 0, len := 8192 }] } }))

theorem test_MicroOperations_ends_met :
    RowRuns emptyRow (firstEntry emptyRow) (opTmma 0 9 6 7 0 3 3 0 1 1 false) ∧
    (emptyRow.cur.formOf (firstEntry emptyRow)).map (fun f => f.steps) = some 0 ∧
    RowRuns awayRow (firstEntry awayRow) (opTrest 0 9 1) ∧ stopOf (rowOf awayRow) = some .hold := by
  refine ⟨⟨by decide +kernel, by decide +kernel, rfl, rfl, by decide +kernel⟩, by decide +kernel,
    ⟨by decide +kernel, by decide +kernel, rfl, rfl, by decide +kernel⟩, by decide +kernel⟩

theorem test_MicroOperations_lines_met :
    let s := lining (tcm 0) (.oqsave 0 9 1) (opOqsave 0 9 1)
    let x := lining (tcm 4096) (.oqsave 0 9 1) (opOqsave 0 9 1)
    let y := lining (tcm 4096) (.oqrest 0 9 1) (opOqrest 0 9 1)
    LineRuns s (firstEntry s) (opOqsave 0 9 1) ∧ orthAcc (.oqsave 0 9 1) = some 0 ∧
    isOkay (lineStores s 0) = true ∧ (stopOf (lineStores x 0)).isSome = true ∧ (stopOf (some (lineResult y 0))).isSome = true := by
  refine ⟨⟨by decide +kernel, by decide +kernel, rfl, rfl, by decide +kernel⟩, rfl, ?_⟩
  decide +kernel

/-- A transfer of the strand, from the window through pin 1. -/
def copying (c : BteCmd) : State := { pinned with bte := [c] }
def copy : BteCmd := { fill with op := 1, spin := 1, src := tcm 0, dst := tcm 64, vb := 8 }
/-- Two rows of 3 bytes, the source 1 by 2; a stream of 4 bytes; a row of 2 for the scratchpad; 257 bytes; one that leaves
its pin after 4 bytes. -/
def copy2d : BteCmd := { copy with op := 2, rb := 3, nr := 2, dstride := 16, sstride := 8, vr := 1, vb := 2, pad := 0xEE }
def streaming : BteCmd := { copy with op := 4, dpin := 0, port := 16, dst := 0, endMark := true, rb := 4, vb := 4 }
def rowing : BteCmd := { copy with row := true, dpin := 0, dst := BitVec.ofNat 64 (scratchKey 0 0), rb := 2, vb := 2 }
def long : BteCmd := { copy with rb := 257, vb := 257 }
def straying : BteCmd := { copy with dst := tcm 4092 }

/-- Keys of n bytes from k, one by one; and none. -/
def ones (k n : Nat) : List (List Nat) := (keysFrom k n).map (fun x => [x])

theorem test_EngineCommands_beats_met :
    (Beats (copying copy) copy ∧ 8 = beatLength (copying copy) copy ∧
      beatReads (copying copy) copy (List.replicate 8 0) (ones (tcmKey 0 64) 8) ∧ 8 ≤ (beatMoved copy 8).delivered) ∧
    (Beats (copying copy2d) copy2d ∧ 6 = beatLength (copying copy2d) copy2d ∧
      beatReads (copying copy2d) copy2d [0, 0, 0xEE, 0xEE, 0xEE, 0xEE] (ones (tcmKey 0 64) 3 ++ ones (tcmKey 0 80) 3)) ∧
    (Beats (copying streaming) streaming ∧ 4 = beatLength (copying streaming) streaming ∧
      beatReads (copying streaming) streaming [0, 0, 0, 0] [[], [], [], []]) ∧
    (Beats (copying rowing) rowing ∧ 2 = beatLength (copying rowing) rowing ∧
      beatReads (copying rowing) rowing [0, 0] (ones (scratchKey 0 0) 2)) :=
  ⟨by decide +kernel, by decide +kernel, by decide +kernel, by decide +kernel⟩

theorem test_EngineCommands_long_met :
    Beats (copying long) long ∧ 256 = beatLength (copying long) long ∧
    beatReads (copying long) long (List.replicate 256 0) (ones (tcmKey 0 64) 256) ∧ (beatMoved long 256).delivered < 257 := by
  decide +kernel

theorem test_EngineCommands_stop_met :
    Beats (copying straying) straying ∧ 4 < beatLength (copying straying) straying ∧
    beatReads (copying straying) straying [0, 0, 0, 0] (ones (tcmKey 0 4092) 4) ∧
    beatByte (copying straying) straying 4 = .ok 0 ∧
    beatPlace (copying straying) straying 4 = .error (.trap cPINRANGE (windowBase + 4096) 1) := by
  refine ⟨by decide +kernel, by decide +kernel, by decide +kernel, by decide +kernel, ?_⟩
  decide +kernel

/-- A collective command in e2 of a strand of rank 0 of n ranks. -/
def collective (n w0 count : Nat) : State :=
  { linked with
    cur := { pinned.cur with ports := { Ports.empty with e2 := if w0 % 16 = 4 then [BitVec.ofNat 64 w0, 0, 0, 0] else
      [BitVec.ofNat 64 w0, tcm 0, tcm 1024, BitVec.ofNat 64 count] } }
    members := ([{ die := false, comm := 0, rank := 0, pkg := 0, mdie := false },
      { die := false, comm := 0, rank := 1, pkg := 2, mdie := false }] : List Member).take n }
/-- The command in its words. -/
def collectiveCmd (s : State) : CollCmd := collCmdOf s.cur s.nextBte 0 0 (s.cur.ports.e2.take 4)
/-- An ALLREDUCE, a REDUCE_SCATTER and a BARRIER of FP32 sums through pin 1; one that announces to barrier 0. -/
def reduceW : Nat := 1 + 0x2440
def scatterW : Nat := 2 + 0x2440
def announcedW : Nat := reduceW + 0x80000000
/-- Barrier 0 with all PENDING bits set. -/
def fullBarrier (s : State) : State := s.setBar 0 { Barrier.reset with pending := BitVec.allOnes 40 }

theorem test_EngineCommands_collective_met :
    (collective 2 0 0).ownRank false 0 = some 0 ∧
    collGood (collective 2 0 0).cur ((collective 2 0 0).cur.ports.e2.take 4) (collectiveCmd (collective 2 0 0)) = false ∧
    collGood (collective 2 scatterW 1).cur ((collective 2 scatterW 1).cur.ports.e2.take 4) (collectiveCmd (collective 2 scatterW 1)) = true ∧
    (collectiveCmd (collective 2 scatterW 1)).op = 2 ∧ (collectiveCmd (collective 2 scatterW 1)).count.toNat % 2 ≠ 0 ∧
    (collectiveCmd (collective 2 reduceW 1025)).op ≠ 4 ∧
    collGood (collective 2 reduceW 1025).cur ((collective 2 reduceW 1025).cur.ports.e2.take 4) (collectiveCmd (collective 2 reduceW 1025)) = true ∧
    collRange (collective 2 reduceW 1025).cur 2 (collectiveCmd (collective 2 reduceW 1025)) = some cPINRANGE ∧
    collGood (collective 2 announcedW 1).cur ((collective 2 announcedW 1).cur.ports.e2.take 4) (collectiveCmd (collective 2 announcedW 1)) = true ∧
    collRange (collective 2 announcedW 1).cur 2 (collectiveCmd (collective 2 announcedW 1)) = none ∧
    (collectiveCmd (collective 2 announcedW 1)).bar.getLsbD 15 = true ∧
    announceFits (collective 2 announcedW 1) 0x8000 ((collectiveCmd (collective 2 announcedW 1)).announced 2) ∧
    ¬ announceFits (fullBarrier (collective 2 announcedW 1)) 0x8000 ((collectiveCmd (collective 2 announcedW 1)).announced 2) := by
  decide +kernel

theorem test_EngineCommands_joined_met :
    let s := collective 2 reduceW 1
    let c := collectiveCmd s
    (collGood s.cur (s.cur.ports.e2.take 4) c = true ∧ c.op ≠ 4 ∧ collRange s.cur 2 c = none ∧ c.bar.getLsbD 15 = false ∧
      s.collEarly = [] ∧ s.colls = [] ∧
      (State.sendRanks { s with colls := [{ c with seen := [collRecord c] }] } c.die c.comm c.rank 4 [ctlBytes (collRecord c)]).2 = true) ∧
    (let x := collective 1 4 0
     collGood x.cur (x.cur.ports.e2.take 4) (collectiveCmd x) = true ∧ (collectiveCmd x).op = 4 ∧ x.collEarly = [] ∧ x.colls = [] ∧
      (x.commOf false 0).length = 1 ∧ x.ownRank false 0 = some 0) ∧
    ready.cur.ports.e2.length < 4 ∧ ready.colls = [] := by decide +kernel

/-- Pins 1 and 2 of one extent each. -/
def twoPins : State := pinned.modCur (fun t => { t with pins := t.pins.setIfInBounds 2 { Pin.idle with
  live := true, rights := 1, base := BitVec.ofNat 55 (windowBase + 4096), len := 64, xfirst := 1
  extents := [{ va := windowBase + 4096, key := tcmKey 0 4096, len := 64 }] } })

theorem test_PartitionCommands_revoke_met :
    Settled twoPins ∧ Idle twoPins 1 ∧ twoPins.cur.viq = [] ∧ twoPins.cur.exists_ = true ∧
    (pinHits twoPins (cmd 0 (BitVec.ofNat 64 windowBase) 4097 0)) = [(1024, 1), (1024, 2)] ∧
    (pinHits twoPins (cmd 0 (BitVec.ofNat 64 windowBase) 4096 0)) = [(1024, 1)] := by decide +kernel

theorem test_PartitionCommands_revokeEntry_met :
    Settled loading ∧ Idle loading 1 ∧
    ∃ e, loading.cur.viq.filter (fun x => !x.complete && (loading.cur.memUse x).pins.contains 1) = [e] ∧
      (stopAt (loading.cur.pins.getD 1 Pin.idle) (loading.cur.entryStop e 1).2).toNat = 0 :=
  ⟨by decide +kernel, by decide +kernel, _, rfl, by decide +kernel⟩

/-- A farm of P0 in each state that a command may find, and a command of another partition for it. -/
theorem test_FarmCommands_other_met :
    (∀ st ∈ [FarmState.queued, .held, .running, .done, .stopped, .faulted],
      ∃ f, (imaged st).farm? 1 = some f ∧ f.part.toNat = 0 ∧ f.state = st) ∧
    Accepts ({ imaged .running with parts := seven.parts } : State) (.stopFarm (cmd 7 1 0 0)) ∧
    (∃ f, ({ imaged .running with parts := seven.parts } : State).farm? 1 = some f ∧ f.part.toNat ≠ 7) ∧
    Accepts (imaged .done) (.startFarmResume (cmd 0 0x4000000000000000 1 0)) :=
  ⟨by decide +kernel, accepts rfl (by decide +kernel), ⟨_, rfl, by decide +kernel⟩, accepts rfl (by decide +kernel)⟩

/-- P7 with a farm that runs. -/
def sevenRuns : State := { seven with farms := [{ stripFarm with part := 7, fd := { stripFarm.fd with part := 7 } }] }

theorem test_PartitionCommands_runs_met :
    Accepts sevenRuns (.partitionDestroy (cmd 7 0 0 0)) ∧
    (∃ f, sevenRuns.partFarms 7 = [f] ∧ f.state = .running) ∧
    Accepts awake (.setSlots (cmd 0 0xFFFFFF 0 0)) ∧ (0xFFFFFF : Word).toNat = 255 + 256 * 255 + 65536 * (0xFFFFFF / 65536) ∧
    Accepts twoPins (.pinRevoke (cmd 0 (BitVec.ofNat 64 windowBase) 4097 0)) :=
  ⟨accepts rfl (by decide +kernel), ⟨_, rfl, rfl⟩, accepts rfl (by decide +kernel), by decide, accepts rfl (by decide +kernel)⟩

/-- Stack 0 on its way to die 1 for a CASTLE_STACK of a host, with a live pin of a strand of die 0 in it. -/
def handedPin (force : Bool) (r : Option CmdRec) : State :=
  (ready.modCur (fun t => { t with pins := t.pins.setIfInBounds 7 { Pin.idle with
    live := true, extents := [{ va := 0, key := 2 ^ 36 - 1, len := 1 }] } })).modStack 0 (fun k => { k with
      handing := true, hand := some { source := false, target := true, force := force, bar := 0, resp := r }
      right0 := { state := .handing, gen := 0 } })

theorem test_CastleResults_pins_met :
    (∃ h, ((handedPin true (some (cmd 0 0 0 0))).stack 0).hand = some h ∧ h.bar.getLsbD 15 = false ∧ h.source ≠ h.target ∧
      h.force = true ∧ h.resp = some (cmd 0 0 0 0)) ∧
    ((handedPin true none).stack 0).queue = [] ∧ AtRest (handedPin true none) ∧ (handedPin true none).farms = [] ∧
    (handedPin true none).hostHeld = [] ∧ (handedPin true none).notices = [] ∧ (handedPin true none).respPort.length < 256 ∧
    (∃ t ∈ (handedPin false none).strands, t.exists_ = true ∧ t.die = false ∧ ∃ p ∈ t.pins.toList, p.covers 0 (2 ^ 36) = true) ∧
    (handedPin true none).others = [] ∧ (handedPin true none).cur.life = .running ∧ (handedPin true none).bte = [] ∧
    (handedPin true none).colls = [] ∧ (∀ t ∈ handed.strands, t.exists_ = false) ∧ AtRest handed := by
  refine ⟨⟨_, rfl, by decide, by decide, rfl, rfl⟩, ?_⟩
  decide +kernel

/-- The extent with a live pin of the strand in its last byte. -/
def pinnedExtent : State :=
  { ready.modCur (fun t => { t with pins := t.pins.setIfInBounds 7 { Pin.idle with
      live := true, extents := [{ va := 0, key := 2 ^ 50 + 65535, len := 1 }] } }) with extents := (extended1 none).extents }
/-- The extent with its first and last line dirty in the vat, and the line behind it. -/
def dirtied (force : Bool) : State :=
  { extended1 (some (cmd 0 0 (2 ^ 50) 0, force)) with vatDirty := [2 ^ 44, 2 ^ 44 + 1023, 2 ^ 44 + 1024] }

theorem test_ExtentCommands_release_met :
    Accepts (extended1 none) (.dcdAccept (cmd 0 0 (2 ^ 50) 65536)) ∧ Accepts pinnedExtent (.dcdRelease (cmd 0 0 (2 ^ 50) 0)) ∧
    Accepts pinnedExtent (.dcdRelease (cmd 0 0x100 (2 ^ 50) 0)) ∧ (0x100 : Word) &&& ~~~(0x101 : Word) = 0 ∧
    (∃ e, pinnedExtent.extents.find? (fun x => x.die == false && x.base == 2 ^ 50) = some e ∧ e.releasing = none ∧
      pinnedExtent.pinned e.base (e.base + e.len) = true ∧ (extended1 none).pinned e.base (e.base + e.len) = false) ∧
    pinnedExtent.others = [] ∧ pinnedExtent.cur.exists_ = true ∧
    (∃ e, (dirtied true).extents.find? (fun x => x.die == false && x.base == 2 ^ 50) = some e ∧ e.releasing ≠ none) :=
  ⟨accepts rfl (by decide +kernel), accepts rfl (by decide +kernel), accepts rfl (by decide +kernel), by decide,
    ⟨_, rfl, by decide +kernel⟩, by decide, by decide, ⟨_, rfl, by decide⟩⟩

theorem test_ExtentCommands_complete_met :
    Canonical (dirtied true) ∧ Canonical (dirtied false) ∧ AtRest (dirtied true) ∧ (dirtied true).errors.length < 4096 ∧
    (∃ e ∈ (dirtied true).extents, (dirtied true).extents.find? (fun x => x.die == e.die && x.base == e.base) = some e ∧
      e.base < 2 ^ 52 ∧ e.releasing = some (cmd 0 0 (2 ^ 50) 0, true) ∧
      (dirtied true).vatDirty.filter (fun l => decide (e.base / 64 ≤ l) && decide (l < (e.base + e.len) / 64)) =
        [2 ^ 44, 2 ^ 44 + 1023]) :=
  ⟨by decide +kernel, by decide +kernel, by decide, by decide, by decide +kernel⟩

/-- The halted strand of a farm that is to be held, an entry queued; its farm. -/
def heldFarm : Farm := housed { stripFarm with halting := .hold (cmd 0 1 1 0) }
noncomputable def saving : State :=
  { waiting with cur := { waiting.cur with life := .halted }, farms := [heldFarm] }

theorem area_key (off : Nat) (h : off < 2 ^ 20) : areaKey saving heldFarm off = 0x100000 + off := by
  have hx : saving.cur.saveVa % 2 ^ 16 + saving.cur.logid * 2 ^ 20 = 0 := by decide
  have hf : ∀ i < 16, heldFarm.frames.getD i 0 = 0x100000 + 0x10000 * i := by decide
  simp only [areaKey, hx, Nat.zero_add, hf (off / 2 ^ 16) (by omega)]
  rw [Nat.add_assoc]
  exact congrArg (0x100000 + ·) (Nat.div_add_mod off 0x10000)

theorem own_stack (va k : Nat) (h : k < 2 ^ 36) : physCheck saving saving.cur.die .write va k = .ok k := by
  have hs : region k = .hbm 0 := by simp only [region]; rw [if_pos (by omega), Nat.div_eq_of_lt (by omega)]
  have hr : ((saving.stack 0).right saving.cur.die).state = .owned ∧ (saving.stack 0).owner = saving.cur.die := by decide
  simp [physCheck, hs, hr.1, hr.2]

theorem test_DispatcherSteps_save_met :
    saving.others = [] ∧ saving.farms = [heldFarm] ∧ heldFarm.id = saving.cur.farm ∧ heldFarm.state = .running ∧
    saving.cur.life = .halted ∧ saving.cur.coreNo = (0 : BitVec 8).toNat ∧ areaReached saving heldFarm ∧ areaFits saving.cur ∧
    MemOk saving ∧ (leaving saving).saveHeld saving.cur = true :=
  ⟨by decide +kernel, by decide +kernel, by decide, by decide, by decide, by decide,
    ⟨fun off h => by
        have hf : saving.saveFrames saving.cur = heldFarm.frames := by decide +kernel
        have hk : saveKey heldFarm.frames saving.cur.saveVa saving.cur.logid off = areaKey saving heldFarm off := rfl
        rw [State.saveCheck, hf, hk, area_key off h]
        exact own_stack _ _ (by omega),
      fun a b ha hb h => by rw [area_key a ha, area_key b hb] at h; omega⟩, by decide +kernel, by decide +kernel, by decide +kernel⟩

/-- A host read of the first byte of stack 0 held at port 0. -/
def hostWaits : State := { awake with hostHeld := [(false, .read 0 1)] }

theorem test_HostMemoryAccess_ways_met :
    hostServes awake false 0 ∧ hostServes awake true 0x10000000000 ∧ hostServes awake false 0x1FFFFFFFFFF ∧
    ¬ hostHolds awake false 0 ∧ hostHolds hostWaits false 0x1FFFFFFFFFF ∧ ¬ hostHolds hostWaits true 0 ∧
    hostHolds (leaving awake) false 0xFFFFFFFFF ∧ ¬ hostHolds (leaving awake) false 0x1000000000 ∧
    hostMirror (awake.modStack 0 (fun k => { k with owner := true })) false 0 ∧
    ((awake.stack 7).right false).state = .absent ∧ ¬ hostHolds awake false 0x7FFFFFFFFF ∧
    hostWaits.mode = .ready ∧ hostWaits.hostHeld = [(false, .read 0 1)] ∧ hostServes hostWaits false 0 := by decide +kernel

theorem test_StartAndPower_steps_met :
    (started .warmStart 1 0 none).startStep = 1 ∧ (started .coldStart 1 0 none).mode = .coldStart ∧
    (started .warmStart 5 0 none).startStep = 5 ∧ (started .warmStart 5 0 none).mode = .warmStart ∧ MemOk (started .warmStart 5 0 none) ∧
    (started .coldStart 4 0 none).startStep = 4 := by decide +kernel

/-- New tables and DONATE that wait for slot 0; a power cap that no 16-bit power exceeds. -/
def retabled : State := awake.modStack 0 (fun k => { k with newTables := [(5, 1)], newDonate := some 1 })
def cappedHot : State := { hot 8 with powerCap := 0xFFFF }
theorem any_power : ∀ n, Config.free n % 2 ^ 16 ≤ cappedHot.powerCap.toNat := by
  intro n
  have : cappedHot.powerCap.toNat = 2 ^ 16 - 1 := by decide
  have := Nat.mod_lt (Config.free n) (show 0 < 2 ^ 16 by decide)
  omega

theorem test_SlotsAndClock_waits_met :
    (awake.stack 0).newDonate = none ∧ (awake.stack 0).newTables = [] ∧ (retabled.stack 0).tables = [] ∧
    (retabled.stack 0).newTables = [(5, 1)] ∧ (retabled.stack 0).newDonate = some 1 ∧ (awake.stack 0).patrol = [] ∧
    cappedHot.mode = .ready ∧ (cappedHot.sensors.getD 7 { temp := 0, limit := 0 }).limit.toNat < (91 : BitVec 16).toNat ∧
    (90 : BitVec 16).toNat ≤ (cappedHot.sensors.getD 7 { temp := 0, limit := 0 }).limit.toNat ∧ 8 ≤ cappedHot.clockDown false ∧
    Config.free cappedHot.free % 2 ^ 16 ≤ cappedHot.powerCap.toNat ∧
    (∀ x ∈ ({ awake with powerCap := 0xFFFF } : State).sensors.toList, x.temp.toNat < x.limit.toNat) :=
  ⟨by decide, by decide, by decide, by decide, by decide, by decide, by decide, by decide, by decide, by decide, any_power _,
    by decide⟩

/-- A due machine check without and with a halt request; in deterministic mode a fault behind an entry that is not complete. -/
def checkedNow : State := ready.modCur (fun t => { t with mcheck := some (scalarTrap 0x12 0 3) })
noncomputable def unsettled : State := { waiting with cur := { waiting.cur with
  det := true
  viq := waiting.cur.viq ++ [{ waiting.cur.newEntry (.vadd (px 0) 4 1 2) (opVadd (px 0) 4 1 2) with
    seq := 1, fault := some { cause := 0x08, elem := 0, addr := 0, info := 0 } }] } }
theorem test_HaltAndWaitSteps_settled_met :
    checkedNow.cur.life = .running ∧ checkedNow.cur.trapDue = true ∧ checkedNow.cur.haltReq = false ∧
    checkedNow.cur.dueSettled = true ∧ unsettled.cur.trapDue = true ∧ unsettled.cur.dueSettled = false := by decide +kernel

/-- A flow that has met a failed flit. -/
def failedBefore : State := { linked with rxFlows := [{ linked.rx false 9 with bad := true }] }
theorem test_LinkReceive_bad_met :
    (failedBefore.rx false 9).bad = true ∧ (linked.rx false 9).bad = false ∧
    (∃ r, endsHere failedBefore 0 (makeFlit 1 5 0 []) r ∧ aheadBy failedBefore 0 (makeFlit 1 5 0 []) r = 1) :=
  ⟨by decide +kernel, by decide +kernel, _, ⟨rfl, rfl⟩, by decide +kernel⟩

theorem test_LinkReceive_messages_met :
    (∃ r, nextInOrder linked 0 (makeFlit 0 5 2 [0, 20, 0]) r ∧ nextInOrder linked 0 (makeFlit 0 5 3 []) r ∧
      (makeFlit 0 5 2 [0, 20, 0]).kind = 2 ∧ (makeFlit 0 5 3 []).kind = 3) :=
  ⟨_, ⟨by decide, makeFlit_good _ _ _ _ (by decide), ⟨rfl, rfl⟩, by decide +kernel, by decide +kernel⟩,
    ⟨by decide, makeFlit_good _ _ _ _ (by decide), ⟨rfl, rfl⟩, by decide +kernel, by decide +kernel⟩, rfl, rfl⟩

theorem test_StepRunsDecoded_entries_met : (∀ e ∈ waiting.cur.viq, e.holdsScalar = false) ∧ waiting.cur.viq ≠ [] := by decide +kernel

/-- A command that the strand's die has taken, of communicator 0 with two ranks. -/
def takenCmd (w0 stage : Nat) : CollCmd :=
  let c := collCmdOf ready.cur 0 0 0 [BitVec.ofNat 64 w0, tcm 0, tcm 1024, 1]
  { c with seen := [collRecord c], stage := stage, ended := if stage = 2 then [(0, 0)] else [] }
def taken (w0 stage : Nat) : State :=
  { ready with colls := [takenCmd w0 stage], collCount := [(0, 1)], members := 
      [{ die := false, comm := 0, rank := 0, pkg := 0, mdie := false }, { die := false, comm := 0, rank := 1, pkg := 2, mdie := false }] }
/-- Rank 1's record of it: its kind, its status, and another OP. -/
def news (w0 stage kind status op : Nat) : List Byte :=
  ctlBytes { collRecord (takenCmd w0 stage) with rank := 1, kind := BitVec.ofNat 8 kind, status := BitVec.ofNat 8 status, op := BitVec.ofNat 4 op }

theorem test_LinkReceive_news_met :
    Taken (taken 4 0) false (news 4 0 3 0 4) (takenCmd 4 0) ∧ ((taken 4 0).commOf false 0).length = 2 ∧
    (ctlOf (news 4 0 3 0 4)).kind ≠ 2 ∧ (takenCmd 4 0).stage = 0 ∧ (taken 4 0).cur.exists_ = true ∧ (takenCmd 4 0).key = (taken 4 0).cur.key ∧
    ({ takenCmd 4 0 with seen := (takenCmd 4 0).seen ++ [ctlOf (news 4 0 3 0 4)] } : CollCmd).agreed = true ∧
    ({ takenCmd 4 0 with seen := (takenCmd 4 0).seen ++ [ctlOf (news 4 0 1 0 1)] } : CollCmd).agreed = false ∧
    Taken (taken 1 2) false (news 1 2 2 0 1) (takenCmd 1 2) ∧ (takenCmd 1 2).stage = 2 ∧ (ctlOf (news 1 2 2 0 1)).status = 0 ∧
    (ctlOf (news 1 2 2 0 1)).kind = 2 ∧ (ctlOf (news 1 2 2 1 1)).status ≠ 0 := by decide +kernel
/-- Nothing taken: the next command's number, one after it and one before it. -/
theorem test_LinkReceive_early_met :
    (∀ c, ¬ Taken ready false (news 4 0 3 0 4) c) ∧ sget 0 ready.collCount 0 = payloadK (news 4 0 3 0 4) ∧
    (let s : State := { ready with collCount := [(0, 1)] }
     sget 0 s.collCount 0 ≠ payloadK (news 4 0 3 0 4) ∧ seqLt (sget 0 s.collCount 0) (payloadK (news 4 0 3 0 4)) = false) :=
  ⟨fun c h => by simp [Taken, ready, awake, State.reset] at h, by decide +kernel, by decide +kernel⟩

/-- Entries i to i + n − 1 of a third-level table at 0x40000 that map their pages to frame 0, readable. -/
def ptes : Nat → Nat → Memory
  | _, 0 => []
  | i, n + 1 => (0x40000 + 8 * i, 3) :: ptes (i + 1) n

theorem sget_ptes (d : Byte) (k n : Nat) : ∀ i, sget d (ptes i n) k =
    if 0x40000 + 8 * i ≤ k ∧ k < 0x40000 + 8 * (i + n) ∧ k % 8 = 0 then 3 else d := by
  induction n with
  | zero => intro i; simp only [ptes, sget]; rw [if_neg (by omega)]
  | succ n ih =>
    intro i
    simp only [ptes, sget, ih]
    split <;> split <;> first | rfl | omega | (split <;> first | rfl | omega)

/-- 4,096 pages from 0 on, all of them the same frame: no two join. -/
def scattered : State :=
  { ctls ready (fun c => { c with ptbase := 0x20000 }) with
    mem := [(0x20000, 1), (0x20002, 3), (0x30000, 1), (0x30002, 4)] ++ ptes 0 4096 }

theorem scattered_pte (i : Nat) (h : i < 4096) (kind : AKind) (va : Nat) :
    readPte scattered false va (0x40000 + 8 * i) kind = .ok 3 := by
  have hr : region (0x40000 + 8 * i) = .hbm 0 := by
    simp only [region]; rw [if_pos (by omega), Nat.div_eq_of_lt (by omega)]
  have hs : ((scattered.stack 0).right false).state = .owned ∧ (scattered.stack 0).owner = false := by decide
  have hb : ∀ k, 0x40000 + 8 * i ≤ k → k < 0x40000 + 8 * i + 8 →
      memRead scattered.mem k = if k = 0x40000 + 8 * i then 3 else 0 := by
    intro k h1 h2
    have hd : memDefault k = 0 := by simp only [memDefault]; rw [if_pos (by omega)]
    simp only [memRead, scattered, hd, List.cons_append, List.nil_append, sget]
    rw [if_neg (by omega), if_neg (by omega), if_neg (by omega), if_neg (by omega), sget_ptes]
    split <;> split <;> first | rfl | omega
  have hn : memNat scattered.mem (0x40000 + 8 * i) 8 = 3 := by
    generalize 0x40000 + 8 * i = b at hb
    have h0 := hb b (by omega) (by omega)
    have hx : ∀ k, b < k → k < b + 8 → memRead scattered.mem k = 0 := fun k h1 h2 => by
      rw [hb k (by omega) h2, if_neg (by omega)]
    simp only [memNat, keysFrom, memReadList, List.map, leNat]
    rw [h0, if_pos rfl, hx (b + 1) (by omega) (by omega), hx (b + 1 + 1) (by omega) (by omega),
      hx (b + 1 + 1 + 1) (by omega) (by omega), hx (b + 1 + 1 + 1 + 1) (by omega) (by omega),
      hx (b + 1 + 1 + 1 + 1 + 1) (by omega) (by omega), hx (b + 1 + 1 + 1 + 1 + 1 + 1) (by omega) (by omega),
      hx (b + 1 + 1 + 1 + 1 + 1 + 1 + 1) (by omega) (by omega)]
    rfl
  simp only [readPte, physCheck, hr, hs.1, hs.2, hn, if_true]

theorem walk_down {s : State} {die : Bool} {kind : AKind} {va n table pte : Nat}
    (h : readPte s die va (table + 8 * fld va (levelShift n) 13) kind = .ok pte)
    (hv : ¬ (pte % 2 = 0 ∨ fld pte 6 10 ≠ 0 ∨ fld pte 52 12 ≠ 0)) (hr : fld pte 1 3 = 0) :
    walk s die kind va (n + 1) table = walk s die kind va n (fld pte 16 36 * 0x10000) := by
  rw [walk, h]
  simp only [if_neg hv, if_pos hr]

theorem scattered_page (i : Nat) (h : i < 4096) : pinPage scattered scattered.cur 1 (0x10000 * i) = .ok 0 := by
  have h1 : readPte scattered false (0x10000 * i) 0x20000 .read = .ok 0x30001 := by
    simp only [readPte]
    have : physCheck scattered false .read (0x10000 * i) 0x20000 = .ok 0x20000 := rfl
    rw [this]
    have : memNat scattered.mem 0x20000 8 = 0x30001 := by decide +kernel
    rw [this]
  have h2 : readPte scattered false (0x10000 * i) 0x30000 .read = .ok 0x40001 := by
    simp only [readPte]
    have : physCheck scattered false .read (0x10000 * i) 0x30000 = .ok 0x30000 := rfl
    rw [this]
    have : memNat scattered.mem 0x30000 8 = 0x40001 := by decide +kernel
    rw [this]
  have f1 : fld (0x10000 * i) 42 13 = 0 := by simp only [fld]; omega
  have f2 : fld (0x10000 * i) 29 13 = 0 := by simp only [fld]; omega
  have f3 : fld (0x10000 * i) 16 13 = i := by simp only [fld]; omega
  have hw : walk scattered false .read (0x10000 * i) 3 0x20000 =
      .ok { part := 0, level := 0, vpn := 0x10000 * i / 2 ^ levelShift 0, frame := 0, rights := 3 } := by
    rw [walk_down (pte := 0x30001) (by rw [show levelShift 2 = 42 from rfl, f1]; exact h1) (by decide) (by decide),
      walk_down (pte := 0x40001) (by rw [show levelShift 1 = 29 from rfl, f2]; exact h2) (by decide) (by decide)]
    rw [walk, show levelShift 0 = 16 from rfl, f3, show fld 0x40001 16 36 * 0x10000 = 0x40000 from rfl, scattered_pte i h]
    rfl
  have hp : scattered.cur.ctl.ptbase.toNat = 0x20000 := by decide
  have hd : scattered.cur.die = false := by decide
  have hk : (rightKinds 1).headD .read = .read ∧ (rightKinds 1).find? (fun k => !grants scattered.cur.level k 3) = none := by decide
  simp only [pinPage, hp, hd, hk.1, hw, hk.2, levelShift]
  congr 1
  omega

/-- The pages from i on, n of them. -/
def pagesFrom : Nat → Nat → List PinExtent
  | _, 0 => []
  | i, n + 1 => { va := 0x10000 * i, key := 0, len := 0x10000 } :: pagesFrom (i + 1) n

theorem pagesFrom_length (n : Nat) : ∀ i, (pagesFrom i n).length = n := by
  induction n with
  | zero => intro i; rfl
  | succ n ih => intro i; simp only [pagesFrom, List.length_cons, ih]

theorem scattered_walk (n : Nat) : ∀ fuel i, n < fuel → i + n ≤ 4096 →
    pinWalk scattered scattered.cur 1 fuel (0x10000 * i) (0x10000 * n) = .ok (pagesFrom i n) := by
  induction n with
  | zero => intro fuel i h _; cases fuel with | zero => omega | succ f => rfl
  | succ n ih =>
    intro fuel i h hi
    cases fuel with
    | zero => omega
    | succ f =>
      have hl : Nat.min (0x10000 * (n + 1)) (0x10000 - 0x10000 * i % 0x10000) = 0x10000 := by
        rw [Nat.mul_mod_right]; exact Nat.min_eq_right (by omega)
      rw [pinWalk, if_neg (by omega), scattered_page i (by omega)]
      simp only [hl]
      rw [show 0x10000 * i + 0x10000 = 0x10000 * (i + 1) by omega, show 0x10000 * (n + 1) - 0x10000 = 0x10000 * n by omega,
        ih f (i + 1) (by omega) (by omega)]
      rfl

theorem scattered_owned (n : Nat) : ∀ i, pinOwned scattered scattered.cur 1 (pagesFrom i n) = .ok () := by
  induction n with
  | zero => intro i; rfl
  | succ n ih =>
    intro i
    have : physCheck scattered scattered.cur.die ((rightKinds 1).headD .read) (0x10000 * i) 0 = .ok 0 := rfl
    simp only [pagesFrom, pinOwned, this, ih]

theorem scattered_cut (n : Nat) : ∀ i, cutExtents (pagesFrom i n) = pagesFrom i n := by
  induction n with
  | zero => intro i; rfl
  | succ n ih =>
    intro i
    rw [pagesFrom, cutExtents, ih]
    cases n with
    | zero => rfl
    | succ n => simp [pagesFrom, joins]

theorem test_PinResults_many_met :
    (∃ xs, rangeExtents scattered scattered.cur 1 0 (0x10000 * 4096) = .ok xs ∧ xs.length = 4096 ∧
      2048 < scattered.tableUsed scattered.cur.coreNo + xs.length) ∧ goodRange 0 (0x10000 * 4096) ∧
    (scattered.cur.pins.getD 1 Pin.idle).live = false := by
  refine ⟨⟨pagesFrom 0 4096, ?_, pagesFrom_length _ _, ?_⟩, by decide, by decide⟩
  · have hw := scattered_walk 4096 4098 0 (by omega) (by omega)
    rw [Nat.mul_zero] at hw
    simp only [rangeExtents]
    rw [if_neg (by decide), show 0x10000 * 4096 / 0x10000 + 2 = 4098 from rfl, hw]
    simp only [scattered_owned, scattered_cut]
  · rw [pagesFrom_length]; omega

/-! ### States and operands that meet the statements on values -/

theorem test_VectorElements_more_met :
    vectorMaccRow (.vmaccScalar (px 63) 31 30 29) = some (63, 31, 30, true, 29) ∧
    (∃ f, vectorPlainFpRow (.vfsgnjx (px 63) 31 30 29) = some (63, 31, 30, false, 29, f)) ∧
    vectorFpCompareRow (.vfunord (px 63) 62 30 29) = some (63, 62, 30, false, 29, .unord) ∧
    vtFp 0x11 = some .fp16 ∧ Fmt.fp16.width = 16 := ⟨rfl, ⟨_, rfl⟩, rfl, by decide, by decide⟩

theorem test_PredicatesAndPermutations_met :
    (∃ f, predicateRow (.pbefore (px 63) 62 61) = some (63, 62, 0, f)) ∧
    (∃ acts f fl, permutationRow (.vmvvs (px 63) 31 30 29) = some (31, 30, 29, acts, f, fl)) ∧
    (∃ f, deliveredRow (.vmvsv true 31 30 29) = some (29, f)) := ⟨⟨_, rfl⟩, ⟨_, _, _, rfl⟩, ⟨_, rfl⟩⟩

theorem test_Reductions_met :
    (∃ f z, integerReductionRow (.vredmax (px 63) 31 30) = some (63, 30, true, f, z)) ∧
    (∃ f get z fin, fpReductionRow .fp16 (.vfredsumW (px 63) 31 30) = some (63, 30, f, get, z, fin)) ∧
    (∃ f get z fin, fpReductionRow .fp32 (.vfredmin (px 63) 31 30) = some (63, 30, f, get, z, fin)) ∧
    vtFp 0x11 = some .fp16 ∧ vtFp 0x0A = some .fp32 :=
  ⟨⟨_, _, rfl⟩, ⟨_, _, _, _, rfl⟩, ⟨_, _, _, _, rfl⟩, by decide, by decide⟩

/-- 33 elements of E4M3 beside 32-bit ones, every vector register holding x. -/
def mxEnv (x : BitVec 32768) : VEnv :=
  { t := { ready.cur with v := Vector.replicate 32 x }
    c := { ready.cur.capture (opViota (px 0) 8) with vl := 33, vtype := 0x20 }, skip := none }

/-- The scale byte 0xFF and another; a block of NaNs and one of zeros; and block 1, of one element, which p5 leaves out. -/
theorem test_Conversions_met :
    (∃ f, conversionRow (.vcvtUT6 (px 63) 31 30) = some (63, 31, 30, conversionRow.sew, fun _ => 8, f)) ∧
    Fmt.ofCode ((mxEnv 0).c.vtype.toNat / 8 % 16) = some .e4m3 ∧ acting (mxEnv 0) 0 32 ∧
    (mxEnv (BitVec.allOnes 32768)).get 1 8 (32 / 32) = 0xFF ∧ (mxEnv 0).get 1 8 (32 / 32) ≠ 0xFF ∧
    blockScale (mxEnv (BitVec.allOnes 32768)) 0 2 32 = 0xFF ∧ blockScale (mxEnv 0) 0 2 32 ≠ 0xFF ∧
    32 < (mxEnv 0).c.vl.toNat ∧ (∀ j ∈ List.range' (32 / 32 * 32) 32, ¬ acting (mxEnv 0) 5 j) ∧ 32 + 1 = (mxEnv 0).c.vl.toNat ∧
    (∀ j ∈ List.range' (31 / 32 * 32) 32, ¬ acting (mxEnv 0) 5 j) ∧ 31 % 32 = 31 := by
  refine ⟨⟨_, rfl⟩, ?_⟩
  decide +kernel

/-- A NaN, every function at +∞, 1.5 for `vsinpi`, 200 for `vexp2` of FP16, 1.0 for `vrcp`, 1.5 for `vtanh`. -/
theorem test_SpecialFunctions_met :
    (∃ m, specialRow (.verf (px 63) 31 30) = some (9, m, 31, 30)) ∧ (Fmt.fp32.decode 0x7FC00000).isNan = true ∧
    (∀ fn ∈ List.range 10, (specialInput fn (Fmt.fp16.decode 0x7C00)).isSome = true) ∧
    Fmt.fp32.decode 0x3FC00000 = .fin false 0xC00000 (-23) ∧ specialInput 6 (.fin false 0xC00000 (-23)) = none ∧
    Fmt.fp16.decode 0x5A40 = .fin false 1600 (-3) ∧ specialInput 0 (.fin false 1600 (-3)) = none ∧
    Fmt.fp16.beyond (fxSpecial 0 false 1600 (-3)) = true ∧ Fmt.fp16.decode 0x3C00 = .fin false 1024 (-10) ∧
    specialInput 2 (.fin false 1024 (-10)) = none ∧ Fmt.fp16.beyond (fxSpecial 0 false 1024 (-10)) = false ∧
    specialInput 0 (.fin false 1024 (-10)) = none := by
  refine ⟨⟨_, rfl⟩, ?_⟩
  decide +kernel

/-- A multiply of one position, A and B in the window. -/
noncomputable def multiplying (i : Instr) (op : VOp) : State :=
  queued (regs (pinned.modCur (fun t => { t with
    tiles := [{ Tile.start with m := 2, n := 2 }], p := t.p.setIfInBounds 5 0 })) [(9, tcm 0), (6, tcm 64)])
    1 [] i op

theorem test_TileMultiply_met :
    let i := Instr.tmma 0 9 6 7 0 3 3 0 1 1 false
    let j := Instr.tmma 0 9 6 7 0 3 3 5 1 1 false
    let s := multiplying i (opTmma 0 9 6 7 0 3 3 0 1 1 false)
    let t := multiplying j (opTmma 0 9 6 7 0 3 3 5 1 1 false)
    (∃ x, multiplyRow i = some x ∧ x.acc = 0 ∧ x.msk = 0) ∧ (∃ x, multiplyRow j = some x ∧ x.msk = 5) ∧
    isOkay (rowOf s) = true ∧ isOkay (rowOf t) = true ∧ (s.cur.tile 0).n.toNat ≤ 64 ∧
    presentK (rowEnv s (firstEntry s)).e 0 0 = [0] ∧ presentK (rowEnv t (firstEntry t)).e 5 0 = [] ∧
    swf (fun _ => (0 : BitVec 64)) none (s.cur.tile 0).elems = true := by
  refine ⟨⟨_, rfl, rfl, rfl⟩, ⟨_, rfl, rfl⟩, ?_⟩
  decide +kernel

/-! ### Hypotheses of single clauses: lost rows, buffered stores, fences, resumption, farms, records -/

/-- A row that reads v3 at its one position and a line that reads v3, with row 0 of v3 lost. -/
noncomputable def lostTile (ops : List OpRec) : State :=
  let s := queued (regs (pinned.modCur (fun t => { t with tiles := [{ Tile.start with m := 2, n := 2 }] })) [(6, tcm 64)])
    1 [] (.tmmaV 0 3 6 7 0 3 3 0 0 1 false) (opTmmaV 0 3 6 7 0 3 3 0 0 1 false)
  s.modCur (fun t => { t with badRows := [(3, 0)], opBuf := ops })
noncomputable def lostLine (ops : List OpRec) : State :=
  (lining 0 (.oqacc 0 3 9) (opOqacc 0 3 9)).modCur (fun t => { t with badRows := [(3, 0)], opBuf := ops })
def wrote3 : List OpRec := [{ seq := -1, lane := 0, rows := [(3, 0)] }]

/-- What its row or its step reads recovers. -/
noncomputable def tileRecovers (s : State) (op : VOp) : Option Bool :=
  match rowOf s with
  | some (.ok z) => some (decide (Recovers s.cur (firstEntry s) (rowReads s (firstEntry s) op z)))
  | _ => none
noncomputable def lineRecovers (s : State) (op : VOp) : Option Bool :=
  match lineResult s 0 with
  | .ok z => some (decide (Recovers s.cur (firstEntry s) (lineReads s (firstEntry s) op z)))
  | .error _ => none

theorem test_EngineSteps_lost_met :
    RowRuns (lostTile []) (firstEntry (lostTile [])) (opTmmaV 0 3 6 7 0 3 3 0 0 1 false) ∧
    LineRuns (lostLine []) (firstEntry (lostLine [])) (opOqacc 0 3 9) ∧
    isOkay (rowStores (lostTile [])) = true ∧ isOkay (lineStores (lostLine []) 0) = true ∧
    tileRecovers (lostTile []) (opTmmaV 0 3 6 7 0 3 3 0 0 1 false) = some false ∧
    tileRecovers (lostTile wrote3) (opTmmaV 0 3 6 7 0 3 3 0 0 1 false) = some true ∧
    lineRecovers (lostLine []) (opOqacc 0 3 9) = some false ∧ lineRecovers (lostLine wrote3) (opOqacc 0 3 9) = some true := by
  refine ⟨⟨by decide +kernel, by decide +kernel, rfl, rfl, by decide +kernel⟩,
    ⟨by decide +kernel, by decide +kernel, rfl, rfl, by decide +kernel⟩, ?_⟩
  decide +kernel

/-- The buffered store, to be translated again; with its page gone besides; and a state with stack 0 castled away. -/
noncomputable def rewalked : State := buffered.modCur (fun t => { t with sbuf := t.sbuf.map (fun b => { b with rewalk := true }) })
noncomputable def unmapped : State := (ctls rewalked (fun c => { c with ptbase := 0 })).dropTlb 0 0 (2 ^ 64)
def castled (s : State) : State :=
  s.modStack 0 (fun k => { k with owner := true, right0 := { state := .absent, gen := 0 }, right1 := { state := .owned, gen := 1 } })
/-- What the bytes of its first store are, and what stops them. -/
def firstKeys (s : State) : Option (List Nat) := s.cur.sbuf.head?.bind (s.storeKeys s.cur)
def firstStop (s : State) : Option Stop := (firstKeys s).bind (fun ks => ks.findSome? (s.storeStop s.cur.die 0x100))

theorem test_MicroOperations_stores_met :
    firstKeys buffered = some [0x100] ∧ firstStop buffered = none ∧ firstKeys rewalked = some [0x100] ∧
    firstKeys unmapped = none ∧ unmapped.cur.storeReady 0 = true ∧ (firstStop (castled buffered)).isSome = true ∧
    (castled buffered).cur.storeReady 0 = true := by decide +kernel

/-- That store. -/
def stored : BufferedStore :=
  { va := 0x100, keys := [0x100], val := 0, after := 0, fence := 0, handler := false, rewalk := false }

/-- Another strand of the partition with that store, and with one that a frozen load holds back. -/
def beside (t : Strand) : Strand := { t with lane := 8, logid := 1 }
def neighbour (t : Strand) : State := { ready with others := [beside t] }
theorem test_FenceResults_soon_met :
    StoresSoon (neighbour buffered.cur) 0 (2 ^ 64) ∧ ¬ StoresSoon (neighbour buffered.cur) 0x101 (2 ^ 64) ∧
    StoresPerformed (neighbour buffered.cur) ∧ ¬ StoresSoon (neighbour heldBack.cur) 0 (2 ^ 64) ∧ ¬ StoresSoon ready 0 (2 ^ 64) := by
  have h (s : State) (b : BufferedStore) (t : Strand) (hs : s.others = [t]) (ht : t.sbuf = [b]) (lo hi : Nat) :
      StoresSoon s lo hi ↔ writesIn s.cur.part lo hi t b ∧ (t.storeReady 0 = true ∨ t.loadsGoOn 0 0 b = true) := by
    constructor
    · rintro ⟨x, hx, n, c, hc, hw, hr⟩
      rw [hs, List.mem_singleton] at hx
      subst hx
      rw [ht] at hc
      cases n with
      | zero => simp only [List.getElem?_cons_zero, Option.some.injEq] at hc; subst hc; exact ⟨hw, hr⟩
      | succ n => simp at hc
    · rintro ⟨hw, hr⟩
      exact ⟨t, by simp [hs], 0, b, by simp [ht], hw, hr⟩
  have hb : buffered.cur.sbuf = [stored] := by decide +kernel
  have hf : heldBack.cur.sbuf = [stored] := by decide +kernel
  refine ⟨(h _ stored (beside buffered.cur) rfl hb _ _).mpr (by decide +kernel), fun x => ?_, by decide +kernel, fun x => ?_, ?_⟩
  · exact absurd ((h _ stored (beside buffered.cur) rfl hb _ _).mp x) (by decide +kernel)
  · exact absurd ((h _ stored (beside heldBack.cur) rfl hf _ _).mp x) (by decide +kernel)
  · rintro ⟨t, ht, _⟩
    exact absurd ht (by simp [ready, awake, State.reset])

/-- The frozen strand where the base die and its access right disagree. -/
noncomputable def frozenMirror : State := frozen.modStack 0 (fun k => { k with owner := true })
theorem test_TretResumes_mirror_met :
    (match recordsStop frozenMirror with | some (.mirror _ _) => true | _ => false) = true ∧ recordsStop frozen = none ∧
    frozenMirror.saveHeld frozenMirror.cur = false ∧ frozenMirror.cur.frozen ≠ 0 ∧ AllComplete frozenMirror := by decide +kernel

/-- The frozen strand whose stack was castled away. -/
noncomputable def frozenAway : State := castled frozen
theorem test_TretResumes_owner_met :
    (match recordsStop frozenAway with | some (.trap c _ _) => c == cOWNER | _ => false) = true ∧
    frozenAway.saveHeld frozenAway.cur = false ∧ frozenAway.cur.frozen ≠ 0 ∧ AllComplete frozenAway := by decide +kernel

/-- A farm at level 6 that became ready at 5, and one at level 7 that became ready at n; a running farm. -/
def agingTwo (n : Nat) : State :=
  { aging 6 with farms := (aging 6).farms.map (fun f => { f with readyAt := 5, order := 9 }) ++
      [{ stripFarm with id := 2, state := .queued, fd := { stripFarm.fd with prio := 7 }, readyAt := n, order := 3 }] }
def agingRuns : State := { aging 6 with farms := [{ stripFarm with fd := { stripFarm.fd with prio := 6 } }] }

theorem test_DispatcherSteps_aging_met :
    (∃ f g, (agingTwo 4).farm? 1 = some f ∧ f.state = .queued ∧ f.ready = true ∧ f.prio < 7 ∧ g ∈ (agingTwo 4).farms ∧ g.id ≠ 1 ∧
      agesWith f g ∧ g.readyAt < f.readyAt) ∧
    (∃ f, (agingTwo 5).farm? 1 = some f ∧ ∀ h ∈ (agingTwo 5).farms, h.id ≠ 1 → agesWith f h → f.readyAt ≤ h.readyAt) ∧
    (∃ f p, agingRuns.farm? 1 = some f ∧ agingRuns.part? f.part.toNat = some p ∧ f.state = .running ∧ p.ageLimit ≠ 0 ∧ f.prio < 7) := by
  refine ⟨⟨_, ((agingTwo 4).farms.getD 1 stripFarm), rfl, ?_⟩, ⟨_, rfl, ?_⟩, ⟨_, _, rfl, rfl, ?_⟩⟩ <;> decide +kernel

/-- A strand that halted before its entry read v1, and one with nothing queued; a saved strand. -/
noncomputable def halted (s : State) : State := s.modCur (fun t => { t with life := .halted })
theorem test_ErrorSteps_halted_met :
    (halted waiting).cur.producerHeld none (1, 0) = false ∧ ((halted waiting).cur.concerned none (1, 0)).isSome = true ∧
    (halted waiting).cur.versionOf none (1, 0) = none ∧
    (1, 0) ∉ (halted waiting).cur.badRows ∧ (halted ready).cur.concerned none (1, 0) = none ∧ (halted ready).cur.life = .halted ∧
    (halted (spoilt waiting wrote1)).cur.producerHeld none (1, 0) = true ∧
    (ready.modCur (fun t => { t with life := .saved })).cur.life = .saved ∧
    (ready.modCur (fun t => { t with life := .saved })).cur.exists_ = true := by decide +kernel

/-- Records of 64 bytes and of 8 in the turns, the module on and off. -/
def recorded (n : Nat) (m : DevMode) : State := { inMode m with turns := [.record (List.replicate n 0)] }
theorem test_HostPorts_records_met :
    (recorded 64 .ready).turns = [.record (List.replicate 64 0)] ∧ (recorded 64 .ready).lost = false ∧
    (List.replicate 64 (0 : Byte)).length = 64 ∧ (List.replicate 8 (0 : Byte)).length ≠ 64 ∧ (recorded 8 .ready).mode ≠ .off ∧
    (recorded 8 .off).mode = .off ∧ { awake with notices := [answer1] }.notices ≠ [] := by decide +kernel

/-- A status of OK that comes before the command's data. -/
theorem test_LinkReceive_ahead_met :
    Taken (taken 1 0) false (news 1 0 2 0 1) (takenCmd 1 0) ∧ (takenCmd 1 0).stage = 0 ∧
    (takenCmd 1 0).seen.length < ((taken 1 0).commOf false 0).length ∧ (ctlOf (news 1 0 2 0 1)).kind = 2 ∧
    (ctlOf (news 1 0 2 0 1)).status = 0 := by decide +kernel

/-! ### Hypotheses of single clauses: versions of rows, turns of transfers, the agreement of ranks -/

/-- An entry that has written v3, and one behind it that reads v3. -/
noncomputable def chained : State := { waiting with cur := { waiting.cur with
  viq := waiting.cur.viq.map (fun e => { e with
      done := [{ g := 0, writes := [.v 3 0 4 1], fl := 0, gs := 0, flip := none, left := [] }] }) ++
    [{ waiting.cur.newEntry (.vadd (px 0) 4 3 2) (opVadd (px 0) 4 3 2) with seq := 1 }]
  opBuf := [{ seq := 0, lane := 0, rows := [(3, 0)] }] } }

/-- The same with that version of row 0 lost; and with nothing left of what wrote it. -/
noncomputable def lostVersion (ops : List OpRec) : State := { chained with cur := { chained.cur with
  viq := chained.cur.viq.map (fun e => if e.seq = 0 then { e with bad := [(3, 0)] } else e), opBuf := ops } }

theorem test_ErrorSteps_version_met :
    chained.cur.versionOf none (3, 0) = some 0 ∧ (∀ e ∈ chained.cur.viq, e.seq = 0 → (3, 0) ∉ e.bad) ∧
    chained.cur.exists_ = true ∧ 0 < 8 * chained.cur.lgw ∧ chained.cur.life = .running := by decide +kernel

theorem test_MicroOperations_version_met :
    (∃ e, (lostVersion chained.cur.opBuf).cur.entry? 1 = some e ∧
      (lostVersion chained.cur.opBuf).cur.badRowsIn e ((lostVersion chained.cur.opBuf).cur.microReads e (opVadd (px 0) 4 3 2) 0) =
        [(3, 0)] ∧
      Recovers (lostVersion chained.cur.opBuf).cur e ((lostVersion chained.cur.opBuf).cur.microReads e (opVadd (px 0) 4 3 2) 0)) ∧
    (∃ e, (lostVersion []).cur.entry? 1 = some e ∧
      ¬ Recovers (lostVersion []).cur e ((lostVersion []).cur.microReads e (opVadd (px 0) 4 3 2) 0)) :=
  ⟨⟨_, rfl, by decide +kernel⟩, ⟨_, rfl, by decide +kernel⟩⟩

/-- Two transfers of a cluster, the turn at the second; one whose stream port is full, behind it one that runs. -/
def rival : BteCmd := { copy with id := 1 }
def turning (n : Nat) : State := { copying copy with bte := [copy, rival], bteTurn := sset 0 [] 0 n }
def blocked : BteCmd := { streaming with port := 16 }
noncomputable def choked : State := { copying blocked with cur := { pinned.cur with ports := { Ports.empty with
  streams := [(16, List.replicate 512 (.byte 0))] } } }

theorem test_EngineCommands_turn_met :
    (turning 1).runsNow copy = false ∧ (turning 1).bte.find? (fun x => x.id == 0) = some copy ∧ Beats (turning 1) rival ∧
    Beats (turning 2) copy ∧ (turning 0).beatWaits copy = false ∧ rowing.row = true ∧ choked.beatWaits blocked = true ∧
    Beats choked blocked ∧ beatLength choked blocked = 0 := by decide +kernel

/-- What a rank of n sends for a command that a check turned down with a status. -/
def turnedDown (n w0 st : Nat) : Bool :=
  let s := collective n w0 1025
  let c := collectiveCmd s
  let t : CollCmd := { c with stage := 4, status := BitVec.ofNat 8 st, reason := cPINRANGE, ended := [(c.rank, BitVec.ofNat 8 st)] }
  (State.sendRanks { s with colls := [t] } c.die c.comm c.rank 4 [ctlBytes (statusRecord c st)]).2

theorem test_EngineCommands_turnedDown_met :
    turnedDown 2 reduceW 4 = true ∧ (collective 2 reduceW 1025).collEarly = [] ∧ (collective 2 reduceW 1025).colls = [] ∧
    ((collective 2 reduceW 1025).commOf false 0).length = 2 ∧ ((collective 1 reduceW 1025).commOf false 0).length = 1 ∧
    (collective 1 reduceW 1025).ownRank false 0 = some 0 ∧
    collRange (collective 1 reduceW 1025).cur 1 (collectiveCmd (collective 1 reduceW 1025)) = some cPINRANGE := by decide +kernel

/-- A status that fails, before the command is taken and while it is at work; the same of a communicator of three. -/
def three (s : State) : State := { s with
  members := s.members ++ [{ die := false, comm := 0, rank := 2, pkg := 3, mdie := false }]
  routes := s.routes ++ [{ die := false, inLink := 31, inFlow := 6, outFlow := 8, primary := 0, alt1 := 31, alt2 := 31, alt3 := 31 }]
  txFlows := s.txFlows ++ [{ id := 1, die := false, flow := 6, next := 0, unacked := [], current := some 0, failed := false }] }
def takenCmd4 (st : Nat) : CollCmd :=
  { takenCmd 1 4 with stage := 4, status := BitVec.ofNat 8 st, ended := [(0, BitVec.ofNat 8 st)] }
def routed (s : State) : State := { linked with cur := s.cur, colls := s.colls, collCount := s.collCount, members := s.members }
def passesOn (s : State) (c : CollCmd) (st : Nat) : Bool :=
  (s.sendRanks c.die c.comm c.rank 4 [ctlBytes (statusRecord c st)]).2

theorem test_LinkReceive_failing_met :
    (∀ c, ¬ Taken linked false (news 1 0 2 1 1) c) ∧ ((routed (taken 1 0)).ownRank false 0 = some 0) ∧
    (ctlOf (news 1 0 2 1 1)).kind = 2 ∧ (ctlOf (news 1 0 2 1 1)).status = 1 ∧ (ctlOf (news 1 0 2 5 1)).status = 5 ∧
    (ctlOf (news 1 0 2 6 1)).status = 6 ∧ (takenCmd 1 0).ended = [] ∧ (takenCmd 1 0).stage < 2 ∧
    (ctlOf (news 1 0 2 1 1)).rank ≠ (takenCmd 1 0).rank ∧ passesOn (routed (taken 1 0)) (takenCmd 1 0) 1 = true ∧
    Taken (routed (taken 1 0)) false (news 1 0 2 1 1) (takenCmd 1 0) ∧ Taken (three (routed (taken 1 0))) false (news 1 0 2 1 1) (takenCmd 1 0) ∧
    ((three (taken 1 0)).commOf false 0).length = 3 ∧ passesOn (three (routed (taken 1 0))) (takenCmd 1 0) 1 = true :=
  ⟨fun c h => by simp [Taken, linked, awake, State.reset] at h, by decide +kernel⟩

/-- At its end: one status of three, both of two, good or failing. -/
def heardOf (c : CollCmd) (st : Nat) : List (BitVec 16 × BitVec 8) := c.ended ++ [(1, BitVec.ofNat 8 st)]
theorem test_LinkReceive_statuses_met :
    2 ≤ (takenCmd 1 2).stage ∧ (heardOf (takenCmd 1 2) 0).length < ((three (taken 1 2)).commOf false 0).length ∧
    ((taken 1 2).commOf false 0).length ≤ (heardOf (takenCmd 1 2) 0).length ∧
    Taken (taken 1 2) false (news 1 2 2 0 1) (takenCmd 1 2) ∧ (taken 1 2).cur.exists_ = true ∧
    Taken { taken 1 2 with colls := [takenCmd4 2] } false (news 1 2 2 1 1) (takenCmd4 2) ∧
    (takenCmd 1 2).key = (taken 1 2).cur.key := by decide +kernel
theorem test_LinkReceive_agreed_met :
    (∀ x ∈ heardOf (takenCmd 1 2) 0, x.2 = 0 ∨ x.2 = 5) ∧
    ∃ x ∈ heardOf (takenCmd4 2) 1, x.2 ≠ 0 ∧ x.2 ≠ 5 ∧
      ∀ y ∈ heardOf (takenCmd4 2) 1, y = x ∨ y.2 = 0 ∨ y.2 = 5 ∨ x.1.toNat < y.1.toNat := by
  have h1 : heardOf (takenCmd 1 2) 0 = [(0, 0), (1, 0)] := rfl
  have h2 : heardOf (takenCmd4 2) 1 = [(0, 2), (1, 1)] := rfl
  simp [h1, h2]

/-! ### Hypotheses of single clauses: values, rows and steps -/

/-- A signalling NaN; 1.5 for `vexp2`, and −130; 2.0 and 2^-149 for `vrcp` of FP32. -/
theorem test_SpecialFunctions_fp32_met :
    Fmt.fp32.decode 0x7F800001 = .nan true ∧ Fmt.fp32.decode 0x3FC00000 = .fin false 0xC00000 (-23) ∧
    specialInput 0 (.fin false 0xC00000 (-23)) = none ∧ Fmt.fp32.beyond (fxSpecial 0 false 0xC00000 (-23)) = false ∧
    Fmt.fp32.beneath (fxSpecial 0 false 0xC00000 (-23)) = false ∧
    Fmt.fp32.beneath (fxSpecial 0 true 0x820000 (-16)) = true ∧ specialInput 2 (.fin false 0x800000 (-22)) = none ∧
    Fmt.fp32.decode 0x40000000 = .fin false 0x800000 (-22) ∧
    Fmt.fp32.decode (sfuRational 2 .fp32 (.fin false 0x800000 (-22))).bits ≠ .inf false ∧
    Fmt.fp32.decode 1 = .fin false 1 (-149) ∧ specialInput 2 (.fin false 1 (-149)) = none ∧
    Fmt.fp32.decode (sfuRational 2 .fp32 (.fin false 1 (-149))).bits = .inf false := by decide +kernel

/-- Element 4 of R292's example has a later twin, element 5 none. -/
noncomputable def doubled : VEnv :=
  let s := queued ready 8 [(4, keys8), (5, values8)] (.vdupsum (px 0) 9 4 5) (opVdupsum (px 0) 9 4 5)
  s.cur.env (s.cur.viq.headD (s.cur.newEntry .vsync (opTcfg 0)))
theorem test_PredicatesAndPermutations_twins_met :
    (∃ f, predicateRow (.vlead (px 63) 62 31) = some (63, 62, 0, f)) ∧
    (∃ acts f fl, permutationRow (.vconf (px 63) 31 30) = some (31, 0, 0, acts, f, fl)) ∧
    vtFp doubled.c.vtype = some .fp32 ∧
    (∃ j, 4 < j ∧ j < doubled.c.vl.toNat ∧ twin doubled 0 4 4 j) ∧
    (∀ j, 5 < j → j < doubled.c.vl.toNat → ¬ twin doubled 0 4 5 j) ∧
    (List.range doubled.c.vl.toNat).filter (fun j => decide (twin doubled 0 4 5 j)) = [0, 2, 5] := by
  refine ⟨⟨_, rfl⟩, ⟨_, _, _, rfl⟩, by decide +kernel, ⟨7, by decide +kernel⟩, ?_, by decide +kernel⟩
  have h : doubled.c.vl.toNat = 8 := by decide +kernel
  intro j h1 h2
  rw [h] at h2
  have : ∀ j ∈ [6, 7], ¬ twin doubled 0 4 5 j := by decide +kernel
  exact this j (by simp only [List.mem_cons, List.not_mem_nil, or_false]; omega)

/-- A gather of one row of 16 bytes at index 0; the same announced to a full barrier. -/
noncomputable def gathering : State :=
  queued (ctls (regs pinned [(9, tcm 0), (5, 0x7FFFF002000000)]) (fun c => { c with xferbar := 0x8000, rowbytes := 16 })) 1 []
    (.vgscr (px 0) 2 1 5 9 4) (opVgscr (px 0) 2 1 5 9 4)
theorem test_VectorMemoryElements_row_met :
    (∃ e, gathering.cur.entry? 0 = some e ∧ (opVgscr (px 0) 2 1 5 9 4).run = .gscr 1 4 ∧
      MayIssue gathering e (opVgscr (px 0) 2 1 5 9 4) 0 ∧
      gathering.cur.badRowsIn e (gathering.cur.microReads e (opVgscr (px 0) 2 1 5 9 4) 0) = [] ∧
      e.acting (opVgscr (px 0) 2 1 5 9 4) (gathering.cur.env e) 0 = [0] ∧
      pinAccess gathering gathering.cur 1 .read
        (e.caps.ga + BitVec.ofNat 64 (source (gathering.cur.env e) false 4 0 * (e.caps.rowbytes.toNat % 2 ^ 17))) 16 =
        .ok (keysFrom (tcmKey 0 0) 16)) ∧
    announceFits gathering 0x8000 16 ∧ ¬ announceFits (fullBarrier gathering) 0x8000 16 :=
  ⟨⟨_, rfl, rfl, by decide +kernel⟩, by decide +kernel⟩

/-- A pop of two words: one there, one and an end mark, two. -/
noncomputable def popping (items : List StreamItem) : State :=
  queued (ready.modCur (fun t => { t with ports := { Ports.empty with streams := [(16, items)] } })) 2 []
    (.vepop false 2 3 16) (opVepop false 2 3 16)
def bytes (n : Nat) : List StreamItem := List.replicate n (.byte 0xA5)
theorem test_VectorMemoryElements_pop_met :
    (∀ items ∈ [bytes 4, bytes 4 ++ [.endMark], bytes 8],
      ∃ e, (popping items).cur.entry? 0 = some e ∧ (opVepop false 2 3 16).run = .epop 16 3 ∧ e.complete = false ∧ e.fault = none ∧
        (popping items).cur.convoyOk e = true ∧ (popping items).cur.rowsOk e (opVepop false 2 3 16) 0 = true ∧
        (popping items).cur.lostRows e.seq = [] ∧ e.caps.vl.toNat = 2 ∧
        (popping items).cur.destsFree e [Opd.vec e.caps.vtype 3 (8 * 2 ^ (e.caps.vtype.toNat % 8)) .whole] = true) ∧
    (beforeMark (bytes 4)).length / 4 < 2 ∧ StreamItem.endMark ∉ bytes 4 ∧ StreamItem.endMark ∈ bytes 4 ++ [.endMark] ∧
    2 ≤ (beforeMark (bytes 8)).length / 4 := by
  refine ⟨fun items h => ?_, by decide +kernel⟩
  simp only [List.mem_cons, List.not_mem_nil, or_false] at h
  rcases h with rfl | rfl | rfl <;> exact ⟨_, rfl, rfl, by decide +kernel⟩

/-- An accumulator of shape (m, n), an instruction of the tile family on it, and what row u of its form gives. -/
noncomputable def rowAt (i : Instr) (op : VOp) (u : Nat) (gs : List (Reg × Word)) : Option (Except Stop RowRes) :=
  let s := queued (regs (pinned.modCur (fun t => { t with tiles := [{ Tile.start with m := 2, n := 2 }] })) gs) 2 [] i op
  let e := firstEntry s
  (s.cur.formOf e).map (fun f => f.row { rowEnv s e with row := u } (s.cur.tile 0))
theorem test_TileResults_met :
    tileKept { Tile.start with m := 2, n := 2 } ∧ Tile.start.m.toNat ≤ 64 ∧ Tile.start.n.toNat ≤ 64 ∧ 63 < 64 ∧
    isOkay (rowAt (.tld 0 9 6 7 0 3 1) (opTld 0 9 6 7 0 3 1) 0 [(9, tcm 0), (6, 0x0000000200000002)]) = true ∧
    isOkay (rowAt (.tld 0 9 6 7 1 3 1) (opTld 0 9 6 7 1 3 1) 0 [(9, tcm 0), (6, 0x0000000200000002)]) = true ∧
    isOkay (rowAt (.tst 0 9 7 0 3 1) (opTst 0 9 7 0 3 1) 1 [(9, tcm 0)]) = true ∧
    isOkay (rowAt (.tst 0 9 7 3 3 1) (opTst 0 9 7 3 3 1) 1 [(9, tcm 0)]) = true ∧
    (∀ ms ∈ [0, 1], isOkay (rowAt (.trow 0 4 6 ms) (opTrow 0 4 6 ms) 0 [(6, 1)]) = true ∧
      isOkay (rowAt (.tcol 0 4 6 ms) (opTcol 0 4 6 ms) 0 [(6, 2)]) = true) ∧
    isOkay (rowAt (.tchk 0 4 6 5) (opTchk 0 4 6 5) 0 [(6, 0x3F800000)]) = true ∧
    isOkay (rowAt (.tcon 0 9 6 0 3 3 1 1) (opTcon 0 9 6 0 3 3 1 1) 63 [(9, tcm 0), (6, tcm 2048)]) = true ∧
    isOkay (rowAt (.tsave 0 9 1) (opTsave 0 9 1) 0 [(9, tcm 0)]) = true ∧
    isOkay (rowAt (.trest 0 9 1) (opTrest 0 9 1) 0 [(9, tcm 0)]) = true ∧
    isOkay (rowAt (.tstat 0 4) (opTstat 0 4) 0 []) = true := by decide +kernel

/-- The last row of an image, its pin over the first 64 KiB of stack 0. -/
noncomputable def lastRow : State :=
  queued (regs (ready.modCur (fun t => { t with
    tiles := [{ Tile.start with m := 2, n := 2 }]
    pins := t.pins.setIfInBounds 1 { Pin.idle with
      live := true, rights := 7, base := 0, len := 65536, extents := [{ va := 0, key := 0, len := 65536 }] } })) []) 0 []
    (.trest 0 9 1) (opTrest 0 9 1)
theorem test_TileResults_last_met :
    isOkay ((lastRow.cur.formOf (firstEntry lastRow)).map (fun f =>
      f.row { rowEnv lastRow (firstEntry lastRow) with row := 63 } (lastRow.cur.tile 0))) = true := by decide +kernel

/-- A block of K reflectors of length 2, CAP 2, with a policy, a log of LMAX records and a target of one line; its environment. -/
def block (k : Nat) (pol : BitVec 2) (lmax : BitVec 16) : Orth :=
  { Orth.start with n := 2, k := BitVec.ofNat 6 k, cap := 2, pol := pol, lpin := 1, lva := BitVec.ofNat 55 windowBase
                    lmax := lmax, bside := 0, bpin := 1, bcols := 1, bva := BitVec.ofNat 55 windowBase }
noncomputable def orthEnv (x : Word) (step : Nat) (logged : Bool) : OEnv :=
  let s := lining x (.oqacc 0 3 9) (opOqacc 0 3 9)
  let r := lineEnv s (firstEntry s)
  { r with step := step, logged := logged, e := { r.e with c := { r.e.c with ga := x, gb := 0x100000001 } } }
/-- The reads of n words from word i of the image at x, in a memory whose image has K = k, N = 1 and CAP = 1; word 0 of it. -/
noncomputable def imageReads (x : Word) (k i n : Nat) : Except Stop (List Nat) :=
  let r := orthEnv x 0 false
  vReads r.s r.t (memSetNat [] (tcmKey 0 0) 8 (1 + 2 ^ 24 * k + 2 ^ 32)) 1 8
    ((List.range n).map (fun j => x + BitVec.ofNat 64 (8 * (i + j))))
def imageWord (k : Nat) : Nat → Nat | 0 => 1 + 2 ^ 24 * k + 2 ^ 32 | _ => 0
/-- dot(x, x) over the elements of v3 behind a pivot at 0. -/
noncomputable def behind (v : BitVec 32768) : Nat :=
  let r := orthEnv 0 0 false
  let e : VEnv := { r.e with t := { r.e.t with v := r.e.t.v.setIfInBounds 3 v } }
  let x (i : Nat) : Nat := (lineIn e (block 1 0 0) 3 i).1
  (dotOf .fp32 x x ((List.range 2).filter (fun i => decide (0 < i)))).1 % 2 ^ 31

theorem test_OrthogonalResults_image_met :
    isOkay (some (imageReads (tcm 0) 0 0 8)) = true ∧ imageBad (fun _ => 0) ∧ ¬ imageBad (imageWord 1) ∧
    isOkay (some (imageReads (tcm 0) 1 8 2)) = true ∧ (stopOf (some (imageReads (tcm 4096) 0 0 8))).isSome = true ∧
    (stopOf (some (imageReads (tcm 4032) 1 8 2))).isSome = true ∧ behind 0 = 0 ∧ behind (words32 [0x3F800000, 0x3F800000]) ≠ 0 ∧
    (let r := orthEnv 0 0 true
     isOkay (some (vReads r.s r.t r.view 1 4 [tcm 0, tcm 4])) = true ∧
     (stopOf (some (vReads r.s r.t r.view 1 4 [tcm 4096]))).isSome = true) := by decide +kernel

theorem test_OrthogonalResults_met :
    (∀ b ∈ [false, true], (orthEnv 0 0 b).logged = b) ∧ (block 1 0 0).k ≠ (block 1 0 0).cap ∧ (block 2 0 0).k = (block 2 0 0).cap ∧
    (block 2 0 0).pol = 0 ∧ (block 2 1 0).pol ≠ 0 ∧ (block 2 1 0).lcount = (block 2 1 0).lmax ∧
    (block 2 1 1).lcount ≠ (block 2 1 1).lmax ∧ targetCount (block 2 1 1) = 1 ∧ (orthEnv 0 0 true).step < 1 ∧
    1 ≤ (orthEnv 0 1 true).step ∧ (block 1 0 0).n.toNat = 2 ∧ (block 0 0 0).k = 0 ∧ (block 1 0 1).lmax ≠ 0 ∧
    (block 1 0 1).lcount < (block 1 0 1).lmax ∧ (block 1 0 0).lmax = 0 ∧
    { block 1 0 1 with lcount := 1 }.lmax ≤ { block 1 0 1 with lcount := 1 }.lcount ∧
    (0 : Word).toNat < 2 ∧ 2 ≤ (2 : Word).toNat ∧ (tcm 4).toNat % 8 ≠ 0 ∧ (tcm 0).toNat % 8 = 0 ∧ (0x100000001 : Word).toNat / 2 ^ 32 % 2 ^ 16 = 1 := by decide +kernel

/-! ### Hypotheses of single clauses: commands, scrub, starts, links -/

/-- A full pass and a range that ends in stack 7's last beat; which beats they meet, with a stack left out. -/
theorem test_DeviceCommands_scrub_met :
    Accepts awake (.scrubFullPass (cmd 0 0x1FF 0 0)) ∧ Accepts awake (.scrubRange (cmd 0 0x280 0x7FFFFFFFC0 64)) ∧
    goodBytes 0x7FFFFFFFC0 64 ∧ (0x1FF : Word).toNat < 768 ∧ (0x280 : Word).toNat.testBit 7 = true ∧
    (0x280 : Word).toNat.testBit 0 = false ∧ swf (fun _ => ((0, 0) : Nat × Nat)) none (awake.stack 7).pass = true ∧
    (0x7FFFFFFFC0 < 7 * 2 ^ 36 + (2 ^ 25 - 1) / 4 * 2 ^ 13 + 31 * 2 ^ 8 + (2 ^ 25 - 1) % 4 * 64 + 64 ∧
      7 * 2 ^ 36 + (2 ^ 25 - 1) / 4 * 2 ^ 13 + 31 * 2 ^ 8 + (2 ^ 25 - 1) % 4 * 64 < 2 ^ 39) :=
  ⟨accepts rfl (by decide +kernel), accepts rfl (by decide +kernel), by decide +kernel⟩

/-- A slot that nobody may use, with no pass, one beat of one, and two. -/
def passing (n : Nat) : State := shared.modStack 0 (fun k => { k with pass := sset (0, 0) [] 5 (7, n) })
theorem test_SlotsAndClock_pass_met :
    (∀ n ∈ [0, 1, 2], (sget (0, 0) ((passing n).stack 0).pass 5).2 = n ∧
      swf (fun _ => ((0, 0) : Nat × Nat)) none ((passing n).stack 0).pass = true ∧
      swf (fun _ => (0 : Nat)) none ((passing n).stack 0).patrol = true) ∧
    (∀ j ∈ List.range 64, ∀ c, slotOwner ((shared.stack 0).table 5) (3 + j) = some c → (0 : BitVec 8).getLsbD c = false) ∧
    (((passing 1).modStack 0 (fun k => k.passSlot 5 3 0)).stack 0).served = none := by
  refine ⟨by decide +kernel, fun _ _ c _ => by simp, by decide +kernel⟩

/-- A store of before a reset; the region of its byte, due a scrub. -/
theorem test_StartAndPower_scrub_met :
    (∃ u ∈ buffered.strands, u.life ≠ .unused ∧ ∃ b ∈ u.sbuf, 0x100 ∈ b.keys) ∧
    Accepts buffered (.resetWarm (cmd 0 0 0 0)) ∧ 0x3FFFFFF / 2 ^ 26 ∈ { started .warmStart 5 0 none with scrubDue := [0] }.scrubDue ∧
    (cmd 0 0 0 0).flags = 0 ∧ awake.mode = .ready :=
  ⟨⟨buffered.cur, by decide +kernel⟩, accepts rfl (by decide +kernel), by decide +kernel⟩

/-- A route entry of die 1, and one that raises link 17 of it. -/
theorem test_LinkControl_kinds_met :
    linkEntryOk 0x1F1F1F1F00090FFF1F11 = true ∧ 0x1F1F1F1F00090FFF1F11 % 16 = 1 ∧ linkEntryOk 0x11113 = true ∧
    0x11113 % 16 = 3 ∧ (0x11113 : Nat).testBit 16 = true ∧ ((0x11113 : Nat).testBit 4 = true) ∧
    (linked.link 0).state = .up ∧ linkEntryOk 0x10003 = true ∧ (awake.link 35).state ≠ .up ∧
    (Config.free awake.free % 2 = 1 ∨ Config.free awake.free % 2 = 0) := by
  refine ⟨by decide +kernel, by decide, by decide +kernel, by decide, by decide, by decide, by decide, by decide +kernel, by decide, ?_⟩
  omega

theorem test_PartitionCommands_end_met :
    Accepts seven (.partitionDestroy (cmd 7 0 0 0)) ∧ (seven.part? 0).isSome = true ∧ (seven.part? 7).isSome = true ∧
    slotNibble 0xF 0 = 8 + 7 := ⟨accepts rfl (by decide +kernel), by decide, by decide, by decide⟩

theorem test_ScalarFrame_more_met :
    destination (.luim 31 0) = some 31 ∧ destination (.apc 31 0) = some 31 ∧ destination (.cAdd 7 6) = some 15 ∧
    destination (.faddS 8 9 10 5) = some 8 ∧ destination (.faddS 8 9 10 6) = none ∧
    (∃ t, exec (.luim 31 0) ready = .next t) ∧ (∃ t, exec (.cAdd 7 6) ready = .next t) :=
  ⟨rfl, rfl, rfl, rfl, rfl, ⟨_, rfl⟩, ⟨_, rfl⟩⟩

/-- A handle without an image, an index without a descriptor, 4,096 notices owed, an unaligned and an unmapped descriptor. -/
theorem test_FarmCommands_errors_met :
    Accepts (imaged .held) (.startFarm (cmd 0 1 0 0)) ∧ Accepts (imaged .held) (.startFarm { cmd 0 0x10000 0 0 with flags := 1 }) ∧
    Accepts (imaged .held) (.startFarmDirect (cmd 0 0x8000000000000000 0x104 0)) ∧
    Accepts (imaged .held) (.startFarmDirect (cmd 0 0xC000000000000000 0 0)) ∧
    (0xC000000000000000 : Word).getLsbD 62 = true ∧ (0xC000000000000000 : Word).getLsbD 63 = true ∧
    (∃ q im, (imaged .held).part? 0 = some q ∧ q.ptbase ≠ 0 ∧ q.images.find? (fun x => x.1 == 1) = none ∧
      q.images.find? (fun x => x.1 == 0) = some (0, im) ∧ im.farms[1]? = none) ∧
    4096 ≤ State.owed { imaged .held with notices := List.replicate 4096 { answer1 with opcode := 4 } } ∧
    (0x104 : Word).toNat % 8 ≠ 0 ∧ fdescKeys { imaged .held with mem := [] } 0 0x100 = none :=
  ⟨accepts rfl (by decide +kernel), accepts rfl (by decide +kernel), accepts rfl (by decide +kernel), accepts rfl (by decide +kernel),
    by decide, by decide, ⟨_, _, rfl, by decide +kernel, by decide, rfl, by decide⟩, by decide +kernel⟩

end Sys2Proof.Tests
end

/-! Starts, resets and power (R50, R69 to R72): what each step of a start does, what a step that fails leaves, what a reset
begins with. -/

namespace Sys2Proof.Machine

open Sys2Proof.Claims

/-! ### Reads after entries are dropped -/

/-- Dropping entries by their key alone: a key kept reads as before, a key dropped as one not listed. -/
theorem sget_filter_key {α : Type} (p : Nat → Bool) (d : α) (l : Sparse α) (k : Nat) :
    sget d (l.filter (fun c => p c.1)) k = if p k then sget d l k else d := by
  induction l with
  | nil => simp [sget]
  | cons x r ih =>
    obtain ⟨i, v⟩ := x
    by_cases hi : i = k
    · subst hi
      by_cases hp : p i <;> simp [hp, sget, ih]
    · by_cases hp : p i <;> simp [hp, hi, sget, ih]

/-- A byte of HBM or of the second tier that nothing has written reads zero (R70). -/
theorem memDefault_of_lt {k : Nat} (h : k < 2 ^ 41) : memDefault k = 0 := by
  unfold memDefault
  rw [if_pos (by omega)]

theorem memRead_clearKeys (s : State) (lo hi k : Nat) :
    memRead (s.clearKeys lo hi).mem k = if lo ≤ k ∧ k < hi then memDefault k else memRead s.mem k := by
  unfold memRead State.clearKeys
  dsimp only
  rw [sget_filter_key (fun j => !(decide (lo ≤ j) && decide (j < hi)))]
  by_cases h : lo ≤ k ∧ k < hi
  · simp [h]
  · rw [if_neg h, if_pos (by simp; omega)]

/-! ### The scrub of a warm start (R71) -/

/-- A 64 MiB region becomes memory that nothing has written. -/
noncomputable def State.clearRegion (s : State) (n : Nat) : State := s.clearKeys (n * 2 ^ 26) ((n + 1) * 2 ^ 26)

/-- A region that held no write in flight: a free value says whether it is cleared. -/
noncomputable def State.clearIfUnknown (s : State) (n : Nat) : State :=
  if s.draw.1 % 2 = 1 then s.draw.2.clearRegion n else s.draw.2

/-- The module after the regions that are due a scrub. -/
noncomputable def State.scrubbed (s : State) : State := { s.scrubDue.foldl State.clearRegion s with scrubDue := [] }

theorem warmScrub_eq (s : State) : s.warmScrub = s.scrubbed.regions.foldl State.clearIfUnknown s.scrubbed := rfl

/-- The same mode, and each byte as it was or as memory that nothing has written. -/
structure KeptOrCleared (s t : State) : Prop where
  mode : t.mode = s.mode
  byte : ∀ k, memRead t.mem k = memRead s.mem k ∨ memRead t.mem k = memDefault k

theorem KeptOrCleared.of_eq {s t : State} (hmode : t.mode = s.mode) (hmem : t.mem = s.mem) : KeptOrCleared s t :=
  ⟨hmode, fun _ => .inl (by rw [hmem])⟩

/-- What reads as unwritten memory still does. -/
theorem KeptOrCleared.default {s t : State} (h : KeptOrCleared s t) {k : Nat} (hk : memRead s.mem k = memDefault k) :
    memRead t.mem k = memDefault k := (h.byte k).elim (fun e => e.trans hk) id

theorem KeptOrCleared.trans {s t u : State} (hst : KeptOrCleared s t) (htu : KeptOrCleared t u) : KeptOrCleared s u :=
  ⟨htu.mode.trans hst.mode, fun k => (hst.byte k).elim
    (fun hkept => (htu.byte k).imp_left (fun e => e.trans hkept))
    (fun hcleared => .inr (htu.default hcleared))⟩

theorem keptOrCleared_clearRegion (s : State) (n : Nat) : KeptOrCleared s (s.clearRegion n) := by
  refine ⟨rfl, fun k => ?_⟩
  rw [State.clearRegion, memRead_clearKeys]
  split
  · exact .inr rfl
  · exact .inl rfl

theorem keptOrCleared_clearIfUnknown (s : State) (n : Nat) : KeptOrCleared s (s.clearIfUnknown n) := by
  have hdraw : KeptOrCleared s s.draw.2 := .of_eq rfl rfl
  unfold State.clearIfUnknown
  split
  · exact hdraw.trans (keptOrCleared_clearRegion _ n)
  · exact hdraw

theorem keptOrCleared_foldl {f : State → Nat → State} (hf : ∀ s n, KeptOrCleared s (f s n)) (l : List Nat) (s : State) :
    KeptOrCleared s (l.foldl f s) :=
  List.foldlRecOn l f (motive := KeptOrCleared s) (.of_eq rfl rfl) (fun t ht n _ => ht.trans (hf t n))

/-- A region on the list is cleared in its turn, and the turns that follow clear or keep. -/
theorem memRead_foldl_clearRegion {l : List Nat} {k : Nat} (h : k / 2 ^ 26 ∈ l) (s : State) :
    memRead (l.foldl State.clearRegion s).mem k = memDefault k := by
  induction l generalizing s with
  | nil => exact absurd h (by simp)
  | cons n r ih =>
    rw [List.foldl_cons]
    rcases List.mem_cons.mp h with rfl | hr
    · refine (keptOrCleared_foldl keptOrCleared_clearRegion r _).default ?_
      rw [State.clearRegion, memRead_clearKeys, if_pos (by omega)]
    · exact ih hr _

theorem keptOrCleared_scrubbed (s : State) : KeptOrCleared s s.scrubbed :=
  (keptOrCleared_foldl keptOrCleared_clearRegion s.scrubDue s).trans (.of_eq rfl rfl)

theorem keptOrCleared_warmScrub (s : State) : KeptOrCleared s s.warmScrub := by
  rw [warmScrub_eq]
  exact (keptOrCleared_scrubbed s).trans (keptOrCleared_foldl keptOrCleared_clearIfUnknown _ _)

theorem memRead_warmScrub_due {s : State} {k : Nat} (h : k / 2 ^ 26 ∈ s.scrubDue) :
    memRead s.warmScrub.mem k = memDefault k := by
  rw [warmScrub_eq]
  exact (keptOrCleared_foldl keptOrCleared_clearIfUnknown _ _).default (memRead_foldl_clearRegion h s)

/-! ### Writes in flight at a reset (R71) -/

theorem mem_insertNat {x y : Nat} {l : List Nat} : x ∈ insertNat y l ↔ x = y ∨ x ∈ l := by
  unfold insertNat
  split
  case isTrue hy => exact ⟨.inr, fun h => h.elim (fun e => e ▸ List.contains_iff_mem.mp hy) id⟩
  case isFalse => exact List.mem_cons

theorem mem_foldl_insertNat {f : Nat → Nat} {x : Nat} (ks acc : List Nat) :
    x ∈ ks.foldl (fun l k => insertNat (f k) l) acc ↔ (∃ k ∈ ks, x = f k) ∨ x ∈ acc := by
  induction ks generalizing acc with
  | nil => simp
  | cons k r ih => rw [List.foldl_cons, ih, mem_insertNat]; simp [or_assoc, or_left_comm]

/-- A store that its home has not performed is in flight. -/
theorem inFlight_of_sbuf {s : State} {u : Strand} (hu : u ∈ s.strands) (hlife : u.life ≠ .unused) {b : BufferedStore}
    (hb : b ∈ u.sbuf) {k : Nat} (hk : k ∈ b.keys) : k / 2 ^ 26 ∈ s.inFlight := by
  have hlive : u ∈ s.strands.filter (fun t => t.life != .unused) := List.mem_filter.mpr ⟨hu, by simpa using hlife⟩
  have hkeys : k ∈ (u.sbuf.map (fun b => b.keys)).flatten := List.mem_flatten_of_mem (List.mem_map_of_mem hb) hk
  unfold State.inFlight
  rw [mem_foldl_insertNat]
  refine .inl ⟨k, List.mem_append_left _ (List.mem_flatten_of_mem (List.mem_map_of_mem hlive) ?_), rfl⟩
  simp only [List.mem_append]
  exact .inl (.inl (.inl hkeys))

/-! ### A step that completes -/

theorem exec_startStepComplete (ok : Bool) (s : State) : exec (.startStepComplete ok) s = execStartStepComplete ok s := rfl

theorem starting_iff (s : State) : s.starting = true ↔ s.mode = .coldStart ∨ s.mode = .warmStart := by
  simp [State.starting]

theorem exec_startStepComplete_step {s : State} (h : s.mode = .coldStart ∨ s.mode = .warmStart) {n : Nat}
    (hn : s.startStep = n) (hlt : n < 8) :
    exec (.startStepComplete true) s = .next { s.stepEffect (n + 1) with startStep := n + 1 } := by
  rw [exec_startStepComplete, execStartStepComplete, if_neg (by simp [(starting_iff s).mpr h]), if_neg (by decide), hn]
  exact congrArg _ (if_neg (by omega))

theorem stepEffect_other {s : State} {n : Nat} (h2 : n ≠ 2) (h5 : n ≠ 5) (h6 : n ≠ 6) : s.stepEffect n = s := by
  unfold State.stepEffect
  split
  · exact absurd rfl h2
  · exact absurd rfl h5
  · exact absurd rfl h6
  · rfl

theorem stepEffect_clear_cold {s : State} (h : s.mode = .coldStart) : s.stepEffect 6 = { s with mem := [], poison := [] } :=
  if_pos h

theorem stepEffect_clear_warm {s : State} (h : s.mode = .warmStart) : s.stepEffect 6 = s.warmScrub :=
  if_neg (by rw [h]; decide)

theorem stepEffect_links (s : State) : s.stepEffect 5 = s.trainLinks := rfl

theorem trainLinks_mem (s : State) : s.trainLinks.mem = s.mem := by simp only [State.trainLinks, draw_state]
theorem trainLinks_mode (s : State) : s.trainLinks.mode = s.mode := by simp only [State.trainLinks, draw_state]

theorem exec_startStepComplete_ready {s : State} (h : s.mode = .coldStart ∨ s.mode = .warmStart) (hn : s.startStep = 8) :
    exec (.startStepComplete true) s = .next s.becomeReady := by
  rw [exec_startStepComplete, execStartStepComplete, if_neg (by simp [(starting_iff s).mpr h]), if_neg (by decide), hn]
  rfl

theorem becomeReady_none {s : State} (h : s.resetResp = none) :
    s.becomeReady = { s with mode := .ready, startStep := 9, warmFail := 0, msix := s.msix ++ [0] } := by
  simp only [State.becomeReady, h]

theorem becomeReady_some {s : State} {r : CmdRec} (h : s.resetResp = some r) :
    s.becomeReady = ({ s with
      mode := .ready, startStep := 9, warmFail := 0, msix := s.msix ++ [0], resetResp := none } : State).respond r 0 0 0 0 := by
  simp only [State.becomeReady, h]

/-! ### What a start begins with (R69) -/

@[simp] theorem beginStart_mode (s : State) (cold : Bool) (r : Option CmdRec) :
    (s.beginStart cold r).mode = if cold then .coldStart else .warmStart := rfl
@[simp] theorem beginStart_startStep (s : State) (cold : Bool) (r : Option CmdRec) : (s.beginStart cold r).startStep = 0 := rfl
@[simp] theorem beginStart_resetResp (s : State) (cold : Bool) (r : Option CmdRec) : (s.beginStart cold r).resetResp = r := rfl
@[simp] theorem beginStart_farms (s : State) (cold : Bool) (r : Option CmdRec) : (s.beginStart cold r).farms = [] := rfl
@[simp] theorem beginStart_patch (s : State) (cold : Bool) (r : Option CmdRec) :
    (s.beginStart cold r).patch = if cold then none else s.patch := rfl
@[simp] theorem beginStart_scrubDue (s : State) (cold : Bool) (r : Option CmdRec) :
    (s.beginStart cold r).scrubDue = if cold then [] else s.inFlight := rfl

/-! ### A step that fails (R72) -/

/-- An error record changes the records, the vectors signalled and the counters of drops and of free values, no more (R64). -/
theorem addError_eq (s : State) (a b c d e : Nat) : ∃ errs drops vectors draws, s.addError a b c d e =
    { s with errors := errs, errDropped := drops, msix := vectors, free := draws } := by
  unfold State.addError
  dsimp only
  split
  · exact ⟨_, _, _, _, rfl⟩
  · split <;> exact ⟨_, _, _, _, rfl⟩

@[simp] theorem addError_mode (s : State) (a b c d e : Nat) : (s.addError a b c d e).mode = s.mode := by
  obtain ⟨_, _, _, _, h⟩ := addError_eq s a b c d e
  rw [h]

@[simp] theorem addError_warmFail (s : State) (a b c d e : Nat) : (s.addError a b c d e).warmFail = s.warmFail := by
  obtain ⟨_, _, _, _, h⟩ := addError_eq s a b c d e
  rw [h]

/-- A step that runs out of time and one that reports an error fail alike. -/
theorem exec_start_fails {s : State} (h : s.mode = .coldStart ∨ s.mode = .warmStart) :
    exec .startStepTimeout s = .next s.failStart ∧ exec (.startStepComplete false) s = .next s.failStart := by
  have hs := (starting_iff s).mpr h
  refine ⟨congrArg _ (if_pos hs), ?_⟩
  rw [exec_startStepComplete, execStartStepComplete, if_neg (by simp [hs]), if_pos rfl]

theorem failStart_cold {s : State} (h : s.mode = .coldStart) : s.failStart.mode = .failed := by
  simp [State.failStart, draw_state, h]

theorem failStart_again {s : State} (h : s.mode = .warmStart) (hf : s.warmFail < 2) :
    s.failStart.mode = .warmStart ∧ s.failStart.startStep = 0 ∧ s.failStart.warmFail = s.warmFail + 1 := by
  simp [State.failStart, draw_state, h, Nat.not_le.mpr hf]

theorem failStart_third {s : State} (h : s.mode = .warmStart) (hf : 2 ≤ s.warmFail) :
    s.failStart.mode = .coldStart ∧ s.failStart.startStep = 0 := by
  simp [State.failStart, draw_state, h, hf]

/-! ### Resets (R50, R69, R71) -/

theorem zeroFrom_iff {r : CmdRec} {n : Nat} : zeroFrom r n = true ↔ ∀ w ∈ (words r).drop n, w = 0 := by
  simp only [zeroFrom, words, List.all_eq_true, beq_iff_eq]

/-- A command that the PSC accepts is carried out. -/
theorem pscCmd_of_accepts {s : State} {i : Instr} {r : CmdRec} {flags n : Nat} {device : Bool}
    (hi : pscRow i = some (r, flags, device, n)) (h : Accepts s i) (k : State → Res) :
    pscCmd r flags device (zeroFrom r n) s k = k s := by
  obtain ⟨r', flags', device', n', hi', hmode, hrsvd, hflags, hdev, hwords, hpart⟩ := h
  obtain ⟨rfl, rfl, rfl, rfl⟩ : r = r' ∧ flags = flags' ∧ device = device' ∧ n = n' := by simpa [hi] using hi'
  refine pscCmd_ready hmode ?_ hpart
  rintro (hr | hf | hz | ⟨hd, hp⟩)
  · exact hr hrsvd
  · omega
  · simp [zeroFrom_iff.mpr hwords] at hz
  · exact hp (hdev hd)

theorem exec_resetWarm {s : State} {r : CmdRec} (h : Accepts s (.resetWarm r)) :
    exec (.resetWarm r) s = .next (s.beginStart false (some r)) := by
  change execResetWarm r s = _
  exact pscCmd_of_accepts rfl h _

theorem exec_resetCold {s : State} {r : CmdRec} (hmode : s.mode = .ready ∨ s.mode = .failed) (hrsvd : r.rsvd = 0)
    (hflags : r.flags = 0) (hpart : r.part = 0) (hwords : ∀ w ∈ words r, w = 0) :
    exec (.resetCold r) s = .next (s.beginStart true (some r)) := by
  have hz : zeroFrom r 0 = true := zeroFrom_iff.mpr hwords
  change execResetCold r s = _
  rcases hmode with h | h <;> simp [execResetCold, h, hrsvd, hflags, hpart, hz]

/-! ### Power (R50, R69) -/

/-- A power restore begins a cold start without memory. -/
theorem exec_powerRestore_off {s : State} (h : s.mode = .off) :
    exec .powerRestore s = .next { s.beginStart true none with mem := [], poison := [], warmFail := 0 } :=
  congrArg _ (if_pos h)

theorem exec_powerRestore_on {s : State} (h : s.mode ≠ .off) : exec .powerRestore s = .next s := congrArg _ (if_neg h)

/-- Settles O43, clause by clause: power, the steps of a start in their order, a step that fails, the two resets. -/
theorem startAndPower : Obligations.StartAndPower := by
  unfold Obligations.StartAndPower
  refine ⟨?powerOn, fun _ => exec_powerRestore_on, ?powerOff, ?counts, ?selfTest, ?clearCold, ?clearWarm, ?links, ?ready, ?answers,
    ?failsCold, ?triesAgain, ?givesUp, ?warm, ?cold⟩
  case powerOn =>
    intro s h
    exact ⟨_, exec_powerRestore_off h, beginStart_mode s true none, beginStart_startStep s true none, rfl, rfl,
      beginStart_farms s true none⟩
  case powerOff =>
    intro s
    exact ⟨_, rfl, rfl, rfl, rfl⟩
  case counts =>
    intro s n h hn hlt h1 h4 h5
    rw [exec_startStepComplete_step h hn hlt, stepEffect_other (by omega) (by omega) (by omega)]
  case selfTest =>
    intro s h hn
    exact exec_startStepComplete_step h hn (by decide)
  case clearCold =>
    intro s h hn
    rw [exec_startStepComplete_step (.inl h) hn (by decide), stepEffect_clear_cold h]
  case clearWarm =>
    intro s h hn _
    obtain ⟨hmode, hbyte⟩ := keptOrCleared_warmScrub s
    refine ⟨_, exec_startStepComplete_step (.inr h) hn (by decide), rfl, ?_⟩
    rw [stepEffect_clear_warm h]
    refine ⟨hmode.trans h, fun k hk => ?_, fun k hk hdue => ?_⟩
    · exact memDefault_of_lt hk ▸ hbyte k
    · exact (memRead_warmScrub_due hdue).trans (memDefault_of_lt hk)
  case links =>
    intro s h hn
    refine ⟨_, exec_startStepComplete_step h hn (by decide), rfl, ?_⟩
    rw [stepEffect_links]
    exact ⟨trainLinks_mem s, trainLinks_mode s⟩
  case ready =>
    intro s h hn hresp
    rw [exec_startStepComplete_ready h hn, becomeReady_none hresp]
  case answers =>
    intro s r h hn hresp
    rw [exec_startStepComplete_ready h hn, becomeReady_some hresp]
    rfl
  case failsCold =>
    intro s h
    obtain ⟨htime, herr⟩ := exec_start_fails (.inl h)
    exact ⟨_, htime, herr, failStart_cold h⟩
  case triesAgain =>
    intro s h hf
    obtain ⟨htime, herr⟩ := exec_start_fails (.inr h)
    exact ⟨_, htime, herr, failStart_again h hf⟩
  case givesUp =>
    intro s h hf
    obtain ⟨htime, herr⟩ := exec_start_fails (.inr h)
    exact ⟨_, htime, herr, failStart_third h hf⟩
  case warm =>
    intro s r h
    exact ⟨_, exec_resetWarm h, beginStart_mode .., beginStart_startStep .., beginStart_resetResp .., beginStart_farms ..,
      beginStart_patch .., fun u hu hlife b hb k hk => inFlight_of_sbuf hu hlife hb hk⟩
  case cold =>
    intro s r hmode hrsvd hflags hpart hwords
    exact ⟨_, exec_resetCold hmode hrsvd hflags hpart hwords, beginStart_mode .., beginStart_startStep ..,
      beginStart_resetResp .., beginStart_farms .., beginStart_patch ..⟩

end Sys2Proof.Machine

/-! Stacks, slots and error records (R12, R16, R64): what an update of one stack, of the current strand by its key and an error
record leave. -/

namespace Sys2Proof.Machine

/-! ### Stacks -/

theorem stack_modStack (s : State) {n : Nat} (h : n < 8) (f : Stack → Stack) : (s.modStack n f).stack n = f (s.stack n) := by
  simp [State.modStack, State.stack, Vector.getD, h]

theorem stack_modStack_other (s : State) {m n : Nat} (h : m ≠ n) (f : Stack → Stack) :
    (s.modStack n f).stack m = s.stack m := by
  unfold State.stack State.modStack
  by_cases hm : m < 8
  · simp [Vector.getD, hm, h.symm]
  · simp [Vector.getD, hm]

/-- The stacks stand in one vector: a state with the same vector has the same stacks. -/
theorem stack_congr {s t : State} (h : t.hbm = s.hbm) (n : Nat) : t.stack n = s.stack n := by rw [State.stack, State.stack, h]

/-! ### Data by key: what is not the default is read back -/

/-- A value that is no default is read back, whatever the list. -/
theorem sget_sset_of_ne {α : Type} [DecidableEq α] {d v : α} (h : v ≠ d) (x : α) (l : Sparse α) (k : Nat) :
    sget x (sset d l k v) k = v := by
  induction l with
  | nil => simp [sset, sget, h]
  | cons y r ih =>
    obtain ⟨i, w⟩ := y
    unfold sset
    split
    · simp [sget]
    · split
      · simp [sget]
      · rename_i hik
        rw [sget, if_neg (Ne.symm hik), ih]

/-! ### The strand of a key -/

theorem strand?_cur {s : State} (h : s.cur.exists_ = true) : s.strand? s.cur.key = some s.cur := by
  simp [State.strand?, State.strands, findStrand, h]

theorem modStrand_cur {s : State} (h : s.cur.exists_ = true) (f : Strand → Strand) :
    s.modStrand s.cur.key f = { s with cur := f s.cur } := by
  simp [State.modStrand, State.modCur, h]

/-! ### Error records -/

/-- With room, the record joins the others and vector 1 is signalled. -/
theorem addError_room {s : State} (h : s.errors.length < 4096) (cls source step count addr : Nat) :
    s.addError cls source step count addr = { s with
      errors := s.errors ++ [{ cls := BitVec.ofNat 16 cls, source := BitVec.ofNat 16 source, step := BitVec.ofNat 16 step
                               count := BitVec.ofNat 64 count, addr := BitVec.ofNat 64 addr
                               time := BitVec.ofNat 64 (Config.free s.free) }]
      free := s.free + 1, msix := s.msix ++ [1] } := if_pos h

section

variable (s : State) (a b c d e : Nat)

@[simp] theorem addError_hbm : (s.addError a b c d e).hbm = s.hbm := by
  obtain ⟨_, _, _, _, h⟩ := addError_eq s a b c d e
  rw [h]

@[simp] theorem addError_cur : (s.addError a b c d e).cur = s.cur := by
  obtain ⟨_, _, _, _, h⟩ := addError_eq s a b c d e
  rw [h]

@[simp] theorem addError_stack (n : Nat) : (s.addError a b c d e).stack n = s.stack n := stack_congr (addError_hbm ..) n

end

/-! ### What a start leaves of a stack (R13, R18) -/

/-- A stack as both starts leave it: its die, generation 0, no hand-over, every partition a donor, every slot P0's. -/
structure Started (k : Stack) (owner : Bool) : Prop where
  owner_eq : k.owner = owner
  gen_eq : k.gen = 0
  notHanding : k.handing = false
  noHand : k.hand = none
  donors : k.donate = 0xFF
  slots : ∀ j i : Nat, i < 64 → slotOwner (k.table j) i = some 0

theorem slotOwner_p0Table {i : Nat} (h : i < 64) : slotOwner p0Table i = some 0 := by
  have all : ∀ i : Fin 64, slotOwner p0Table i = some 0 := by decide
  exact all ⟨i, h⟩

theorem started_reset (owner : Bool) : Started (Stack.reset owner) owner :=
  ⟨rfl, rfl, rfl, rfl, rfl, fun _ _ => slotOwner_p0Table⟩

theorem stack_reset {n : Nat} (h : n < 8) : State.reset.stack n = Stack.reset (decide (4 ≤ n)) := by
  have all : ∀ n : Fin 8, State.reset.stack n = Stack.reset (decide (4 ≤ n.val)) := by decide
  exact all ⟨n, h⟩

theorem started_of_hbm {t : State} (ht : t.hbm = State.reset.hbm) {n : Nat} (h : n < 8) :
    Started (t.stack n) (decide (4 ≤ n)) := by
  rw [stack_congr ht, stack_reset h]
  exact started_reset _

theorem beginStart_hbm (s : State) (cold : Bool) (r : Option CmdRec) : (s.beginStart cold r).hbm = State.reset.hbm := rfl

/-- The clause of the obligation on a stack after a start. -/
theorem started_next {n : Nat} (h : n < 8) {s t : State} {i : Instr} (he : exec i s = .next t) (ht : t.hbm = State.reset.hbm) :
    ∃ t, exec i s = .next t ∧
      (t.stack n).owner = decide (4 ≤ n) ∧ (t.stack n).gen = 0 ∧ (t.stack n).handing = false ∧ (t.stack n).hand = none ∧
      (t.stack n).donate = 0xFF ∧ ∀ j i : Nat, i < 64 → slotOwner ((t.stack n).table j) i = some 0 := by
  obtain ⟨howner, hgen, hhanding, hhand, hdonate, hslots⟩ := started_of_hbm ht h
  exact ⟨t, he, howner, hgen, hhanding, hhand, hdonate, hslots⟩

theorem reset_memRead {k : Nat} (h : k < 2 ^ 39 ∨ (0x10000000000 ≤ k ∧ k < 0x20000000000)) :
    memRead State.reset.mem k = 0 := memDefault_of_lt (by omega)

theorem reset_part?_other {p : Nat} (h1 : 1 ≤ p) (h8 : p < 8) : State.reset.part? p = none := by
  have all : ∀ p : Fin 8, 1 ≤ p.val → State.reset.part? p.val = none := by decide
  exact all ⟨p, h8⟩ h1

/-- Settles O52: what a reset, a power restore and the reset state leave of stacks, memory, partitions and cores. -/
theorem resetValues : Obligations.ResetValues := by
  unfold Obligations.ResetValues
  refine ⟨⟨?warm, ?cold, ?power, ?resetStacks⟩, rfl, rfl, rfl, fun _ => reset_memRead, fun _ => rfl, rfl, fun _ => reset_part?_other,
    fun _ => rfl, fun _ => rfl, rfl, rfl⟩
  case warm =>
    intro s r n h hn
    exact started_next hn (exec_resetWarm h) rfl
  case cold =>
    intro s r n hmode hrsvd hflags hpart hwords hn
    exact started_next hn (exec_resetCold hmode hrsvd hflags hpart hwords) rfl
  case power =>
    intro s n hmode hn
    exact started_next hn (exec_powerRestore_off hmode) rfl
  case resetStacks =>
    intro n hn
    obtain ⟨howner, hgen, hhanding, _, hdonate, hslots⟩ := started_of_hbm rfl hn
    exact ⟨howner, hgen, hhanding, hdonate, hslots⟩

end Sys2Proof.Machine

/-! Memory errors and soft errors (R20, R113, R115, R203). -/

namespace Sys2Proof.Machine

open Sys2Proof.Claims

/-! ### The map's rows that errors meet (R161) -/

theorem region_hbm {k : Nat} (h : k < 2 ^ 39) : region k = .hbm (k / 2 ^ 36) := if_pos h

theorem region_tier2 {k : Nat} (hlo : 2 ^ 40 ≤ k) (hhi : k < 2 ^ 41) : ∃ die, region k = .tier2 die := by
  unfold region
  by_cases h : k < 0x18000000000
  · exact ⟨false, by rw [if_neg (by omega), if_neg (by omega), if_pos h]⟩
  · exact ⟨true, by rw [if_neg (by omega), if_neg (by omega), if_neg h, if_pos (by omega)]⟩

theorem errSource_hbm {k : Nat} (h : k < 2 ^ 39) : errSource k = k / 2 ^ 36 := by simp only [errSource, region_hbm h]

/-! ### Memory errors (R20) -/

@[simp] theorem poisonLine_errors (s : State) (l : Nat) : (s.poisonLine l).errors = s.errors := rfl
@[simp] theorem poisonLine_cur (s : State) (l : Nat) : (s.poisonLine l).cur = s.cur := rfl
@[simp] theorem poisonLine_mem (s : State) (l : Nat) : (s.poisonLine l).mem = s.mem := rfl

theorem poisonLine_poisoned (s : State) (l : Nat) : (s.poisonLine l).poisoned l = true := by
  unfold State.poisoned State.poisonLine
  dsimp only
  rw [sget_sset_of_ne (by simp)]
  rfl

theorem poisonLine_poisoned_other (s : State) {l m : Nat} (h : m ≠ l) : (s.poisonLine l).poisoned m = s.poisoned m := by
  unfold State.poisoned State.poisonLine
  dsimp only
  rw [sget_sset_other h]

/-- The stack's count of corrected errors rises. -/
noncomputable def State.countCorrected (s : State) (st : Nat) : State :=
  s.modStack st (fun x => { x with corrected := x.corrected + 1 })

/-- What a MEMORY_ERROR records and poisons, once a corrected one has been counted. -/
noncomputable def State.noteError (s : State) (k : Nat) (fixable : Bool) : State :=
  if fixable then s.addError 1 (errSource k) 0 1 k else (s.poisonLine (lineOf k)).addError 2 (errSource k) 0 0 k

theorem exec_memoryError_hbm {pa : BitVec 52} (h : pa.toNat < 2 ^ 39) (fixable : Bool) (s : State) :
    exec (.memoryError pa fixable) s =
      .next ((if fixable then s.countCorrected (pa.toNat / 2 ^ 36) else s).noteError pa.toNat fixable) := by
  change execMemoryError pa fixable s = _
  simp only [execMemoryError, region_hbm h]
  rfl

theorem exec_memoryError_tier2 {pa : BitVec 52} (hlo : 2 ^ 40 ≤ pa.toNat) (hhi : pa.toNat < 2 ^ 41) (fixable : Bool)
    (s : State) : exec (.memoryError pa fixable) s = .next (s.noteError pa.toNat fixable) := by
  obtain ⟨die, hr⟩ := region_tier2 hlo hhi
  change execMemoryError pa fixable s = _
  simp only [execMemoryError, hr]
  rfl

theorem pa_addr (pa : BitVec 52) : (BitVec.ofNat 64 pa.toNat).toNat = pa.toNat := by simp; omega

/-- The record of an error that was corrected: its class, address and count. -/
theorem noteError_corrected {s : State} (h : s.errors.length < 4096) (pa : BitVec 52) : ∃ e,
    (s.noteError pa.toNat true).errors = s.errors ++ [e] ∧ (s.noteError pa.toNat true).mem = s.mem ∧
      (s.noteError pa.toNat true).poison = s.poison ∧ (s.noteError pa.toNat true).cur = s.cur ∧
      (s.noteError pa.toNat true).hbm = s.hbm ∧ e.cls = 1 ∧ e.addr.toNat = pa.toNat ∧ e.count = 1 ∧
      e.source = BitVec.ofNat 16 (errSource pa.toNat) := by
  rw [State.noteError, if_pos rfl, addError_room h]
  exact ⟨_, rfl, rfl, rfl, rfl, rfl, rfl, pa_addr pa, rfl, rfl⟩

/-- An error that was not: the line is poisoned, no other, and the record is of class 2. -/
theorem noteError_poisons {s : State} (h : s.errors.length < 4096) (pa : BitVec 52) : ∃ t e,
    Host.Outcome.next (s.noteError pa.toNat false) = (.next t : Res) ∧ t.mem = s.mem ∧ t.poisoned (pa.toNat / 64) = true ∧
      t.errors = s.errors ++ [e] ∧ e.cls = 2 ∧ e.addr.toNat = pa.toNat ∧ t.cur = s.cur ∧
      ∀ l, l ≠ pa.toNat / 64 → t.poisoned l = s.poisoned l := by
  rw [State.noteError, if_neg Bool.false_ne_true, addError_room (s := s.poisonLine _) h]
  exact ⟨_, _, rfl, rfl, poisonLine_poisoned s _, rfl, rfl, pa_addr pa, rfl, fun l => poisonLine_poisoned_other s⟩

/-! ### Lost rows (R115, R116) -/

theorem loseRow_running {t : Strand} {reg g : Nat} (hreg : reg < 32) (hg : g < 8 * t.lgw)
    (hlost : t.isLost (t.versionOf none (reg, g)) (reg, g) = false) (hl : t.life = .running) :
    t.loseRow (reg, g) = t.markRow (t.versionOf none (reg, g)) (reg, g) := by
  unfold Strand.loseRow
  simp [hlost, hl, Nat.not_le.mpr hreg, Nat.not_le.mpr hg]

theorem loseRow_saved {t : Strand} (x : Nat × Nat) (hl : t.life = .saved) : t.loseRow x = t := by
  unfold Strand.loseRow
  simp only [hl, ite_self]

/-- No entry reads the row next, or it can be made again. -/
theorem loseRow_halted_unmet {t : Strand} {reg g : Nat} (hreg : reg < 32) (hg : g < 8 * t.lgw)
    (hlost : t.isLost (t.versionOf none (reg, g)) (reg, g) = false) (hl : t.life = .halted)
    (h : t.producerHeld (t.versionOf none (reg, g)) (reg, g) = true ∨ t.concerned (t.versionOf none (reg, g)) (reg, g) = none) :
    t.loseRow (reg, g) = t.markRow (t.versionOf none (reg, g)) (reg, g) := by
  unfold Strand.loseRow
  rcases h with h | h <;> simp [hlost, hl, Nat.not_le.mpr hreg, Nat.not_le.mpr hg, h]

theorem loseRow_halted_met {t : Strand} {reg g n : Nat} {e : VEntry} (hreg : reg < 32) (hg : g < 8 * t.lgw)
    (hlost : t.isLost (t.versionOf none (reg, g)) (reg, g) = false) (hl : t.life = .halted)
    (hheld : t.producerHeld (t.versionOf none (reg, g)) (reg, g) = false)
    (hmet : t.concerned (t.versionOf none (reg, g)) (reg, g) = some (e, n)) :
    t.loseRow (reg, g) = ((t.markRow (t.versionOf none (reg, g)) (reg, g)).modEntry e.seq (fun e => e.addFault
      { cause := cMCHECK, elem := n, addr := 0, info := 1 })).countCheck := by
  unfold Strand.loseRow
  simp [hlost, hl, Nat.not_le.mpr hreg, Nat.not_le.mpr hg, hheld, hmet]

theorem markRow_file {t : Strand} {x : Nat × Nat} (h : x ∉ t.badRows) :
    t.markRow none x = { t with badRows := x :: t.badRows } := by
  simp [Strand.markRow, Strand.markRow.insertRow, h]

theorem markRow_entry {t : Strand} {q : BitVec 32} {x : Nat × Nat} (h : ∀ e ∈ t.viq, e.seq = q → x ∉ e.bad) :
    t.markRow (some q) x = { t with viq := t.viq.map (fun e => if e.seq = q then { e with bad := x :: e.bad } else e) } := by
  have hmap : ∀ e ∈ t.viq, (if e.seq = q then { e with bad := Strand.markRow.insertRow x e.bad } else e) =
      if e.seq = q then { e with bad := x :: e.bad } else e := by
    intro e he
    split
    case isTrue hq => simp [Strand.markRow.insertRow, h e he hq]
    case isFalse => rfl
  simp only [Strand.markRow, Strand.modEntry]
  rw [List.map_congr_left hmap]

theorem exec_softError (e : SoftError) (s : State) : exec (.softError e) s = execSoftError e s := rfl

theorem exec_rowLost {s : State} (h : s.cur.exists_ = true) (reg g : Nat) :
    exec (.softError (.rowLost s.cur.key reg g)) s = .next { s with cur := s.cur.loseRow (reg, g) } := by
  rw [exec_softError, execSoftError, modStrand_cur h]

/-- Settles O48, clause by clause: memory errors, then each form of a soft error. -/
theorem errorSteps : Obligations.ErrorSteps := by
  unfold Obligations.ErrorSteps
  refine ⟨?memory, fun _ _ _ _ => rfl, ?fixable, ?lostInFile, ?lostInQueue, ?lane, ?line⟩
  case memory =>
    intro s pa hroom hpa
    rcases hpa with hpa | ⟨hlo, hhi⟩
    · rw [exec_memoryError_hbm hpa, exec_memoryError_hbm hpa]
      refine ⟨?_, noteError_poisons hroom pa⟩
      have hst : pa.toNat / 2 ^ 36 < 8 := by omega
      obtain ⟨e, herr, hmem, hpois, hcur, hhbm, hcls, haddr, hcount, hsrc⟩ :=
        noteError_corrected (s := s.countCorrected (pa.toNat / 2 ^ 36)) hroom pa
      refine ⟨_, e, rfl, hmem, hpois, herr, hcls, haddr, hcount, hcur, fun _ => ⟨?_, ?_⟩⟩
      · rw [hsrc, errSource_hbm hpa]
        simp
        omega
      · rw [if_pos rfl, stack_congr hhbm, State.countCorrected, stack_modStack _ hst]
    · rw [exec_memoryError_tier2 hlo hhi, exec_memoryError_tier2 hlo hhi]
      refine ⟨?_, noteError_poisons hroom pa⟩
      obtain ⟨e, herr, hmem, hpois, hcur, _, hcls, haddr, hcount, _⟩ := noteError_corrected hroom pa
      exact ⟨_, e, rfl, hmem, hpois, herr, hcls, haddr, hcount, hcur, fun h => absurd h (by omega)⟩
  case fixable =>
    intro s row g hex _
    have hne : ({ s.core s.cur.coreNo with fixed := (s.core s.cur.coreNo).fixed + 1 } : Core) ≠ Core.reset := by
      intro h
      exact absurd (congrArg Core.fixed h) (Nat.succ_ne_zero _)
    refine ⟨s.modCore s.cur.coreNo (fun c => { c with fixed := c.fixed + 1 }), ?_, rfl, rfl, ?_, fun n hn => ?_⟩
    · simp only [exec_softError, execSoftError, strand?_cur hex]
    · rw [State.core, State.modCore, sget_sset_of_ne hne]
    · exact sget_sset_other hn _ _
  case lostInFile =>
    intro s reg g hex hreg hg hver hbad
    have hlost : s.cur.isLost (s.cur.versionOf none (reg, g)) (reg, g) = false := by
      rw [hver]
      simpa [Strand.isLost] using hbad
    simp only [exec_rowLost hex, ← markRow_file hbad]
    refine ⟨fun hl => ?_, fun hl hkept => ?_, fun e n hl hheld hconc => ?_, fun hl => ?_⟩
    · rw [loseRow_running hreg hg hlost hl, hver]
    · rw [loseRow_halted_unmet hreg hg hlost hl (by rwa [hver]), hver]
    · rw [loseRow_halted_met hreg hg hlost hl (by rwa [hver]) (by rwa [hver]), hver]
      rfl
    · rw [loseRow_saved _ hl]
  case lostInQueue =>
    intro s reg g q hex hreg hg hl hver hbad
    have hlost : s.cur.isLost (s.cur.versionOf none (reg, g)) (reg, g) = false := by
      rw [hver]
      simpa [Strand.isLost] using hbad
    rw [exec_rowLost hex, loseRow_running hreg hg hlost hl, hver, markRow_entry hbad]
  case lane =>
    intro s seq g flip vote hex
    exact congrArg Host.Outcome.next (modStrand_cur hex _)
  case line =>
    intro s core line hl hcore
    refine ⟨_, rfl, rfl, poisonLine_poisoned s line, ?_⟩
    exact if_pos ⟨hl, hcore⟩

end Sys2Proof.Machine

/-! Scalar accesses that a byte stops (R15, R20, R256): what a load and a store row come to. -/

namespace Sys2Proof.Machine

open Sys2Proof.Claims

/-! ### Offsets and registers of the rows -/

theorem any_pendingG_of_free {s : State} {rs : List Reg} (h : Free s rs) : rs.any (fun r => s.cur.pendingG r) = false := by
  simpa [List.any_eq_false] using h

theorem sext64_eq_ofInt {n : Nat} (x : BitVec n) : sext64 x = BitVec.ofInt 64 x.toInt := rfl

theorem zext64_mul_eight (x : BitVec 8) : zext64 x * 8 = BitVec.ofInt 64 (8 * x.toNat) := by
  have all : ∀ x : BitVec 8, zext64 x * 8 = BitVec.ofInt 64 (8 * x.toNat) := by decide
  exact all x

theorem cReg_eq_low8 (x : BitVec 3) : cReg x = low8 x := by
  have all : ∀ x : BitVec 3, cReg x = low8 x := by decide
  exact all x

/-! ### The rows of loads and stores (R224, R255) -/

theorem load_eq {d a : Reg} {w : BitVec 2} {u : Bool} (hw : ¬ (u = true ∧ w = 3)) {s : State} (hf : Free s [d, a])
    (off : Word) (len : Nat) : load d a w u off len s =
      scalarLoad s (s.g a + off) (widthOf w) (fun t x => .next (t.retire d (extend u (widthOf w) x) len)) := by
  unfold load
  rw [checked_ok (by cases u <;> simp_all), withRegs_free (any_pendingG_of_free hf)]

theorem exec_loadRow {i : Instr} {d a : Reg} {n len : Nat} {u : Bool} {off : Int} {s : State}
    (h : loadRow i = some (d, a, n, u, off, len)) (hf : Free s [d, a]) :
    exec i s = scalarLoad s (ea s a off) n (fun t x => .next (t.retire d (extend u n x) len)) := by
  unfold loadRow at h
  split at h
  case h_1 d a w u imm =>
    split at h
    case isTrue => cases h
    case isFalse hw =>
      cases h
      exact load_eq hw hf (sext64 imm) 4
  case h_2 d a w u imm =>
    split at h
    case isTrue => cases h
    case isFalse hw =>
      cases h
      exact load_eq hw hf (sext64 imm) 8
  case h_3 d imm =>
    cases h
    rw [ea, ← zext64_mul_eight]
    rw [← cReg_eq_low8] at hf ⊢
    exact load_eq (w := 3) (u := false) (by simp) hf (zext64 imm * 8) 2
  case h_4 => cases h

theorem store_eq {r a : Reg} {s : State} (hf : Free s [r, a]) (w : BitVec 2) (off : Word) (len : Nat) :
    store r a w off len s =
      scalarStore s (s.g a + off) (widthOf w) (s.g r).toNat (fun s => .next (s.advance len)) := by
  unfold store
  rw [withRegs_free (any_pendingG_of_free hf)]

theorem exec_storeRow {i : Instr} {r a : Reg} {n len : Nat} {off : Int} {s : State}
    (h : storeRow i = some (r, a, n, off, len)) (hf : Free s [r, a]) :
    exec i s = scalarStore s (ea s a off) n (s.g r).toNat (fun s => .next (s.advance len)) := by
  unfold storeRow at h
  split at h
  case h_1 r a w imm =>
    cases h
    exact store_eq hf w (sext64 imm) 4
  case h_2 r a w imm =>
    cases h
    exact store_eq hf w (sext64 imm) 8
  case h_3 r imm =>
    cases h
    rw [ea, ← zext64_mul_eight]
    rw [← cReg_eq_low8] at hf ⊢
    exact store_eq hf 3 (zext64 imm * 8) 2
  case h_4 => cases h

/-! ### Stops -/

theorem stopped_mirror (s : State) (va pa : Nat) : s.stopped (.mirror va pa) = .next (mirrorCheck s va pa) := rfl

theorem stall_eq_waits (s : State) : s.stall = waits s := rfl

theorem scalarKeys_stopped {s : State} {t : Strand} {kind : AKind} {n : Nat} {va : Word} {x : Stop}
    (h : checkBytes s t kind none n va = .error x) : scalarKeys s t kind n va = .error x := by
  unfold scalarKeys
  rw [h]

theorem firstPoison_eq_findIdx? (s : State) (ks : List Nat) (i : Nat) :
    firstPoison s ks i = (ks.findIdx? (fun k => (sget none s.poison (k / 64)).isSome)).map (fun j => j + i) := by
  induction ks generalizing i with
  | nil => rfl
  | cons k r ih =>
    rw [firstPoison, List.findIdx?_cons]
    by_cases hk : (sget none s.poison (k / 64)).isSome = true
    · simp [State.poisoned, lineOf, hk]
    · simp [State.poisoned, lineOf, hk, ih, Function.comp_def, Nat.add_comm, Nat.add_left_comm]

theorem poisonStop_some {s : State} {ks : List Nat} {j : Nat}
    (h : ks.findIdx? (fun k => (sget none s.poison (k / 64)).isSome) = some j) (va : Word) :
    poisonStop s va ks = some (.trap cPOISON (va + BitVec.ofNat 64 j).toNat 0) := by
  simp [poisonStop, firstPoison_eq_findIdx?, h]

/-- A load that reaches a poisoned line: it waits for its own stores there, then takes the trap. -/
theorem scalarLoad_poisoned {s : State} {va : Word} {n j : Nat} {k : State → Nat → Res} {ks : List Nat}
    (h : checkBytes s s.cur .read none n va = .ok ks) (hf : s.cur.fenced 0 = false) (hw : s.cur.loadWaits va.toNat n = false)
    (hj : ks.findIdx? (fun k => (sget none s.poison (k / 64)).isSome) = some j) :
    scalarLoad s va n k = .next (if storesThere s.cur ks then waits s else
      s.takeTrap (scalarTrap cPOISON (va + BitVec.ofNat 64 j).toNat 0)) := by
  unfold scalarLoad afterPoison
  rw [h]
  dsimp only
  rw [if_neg (by simp [hf, hw]), poisonStop_some hj]
  exact (apply_ite Host.Outcome.next _ _ _).symm

/-- Settles O6: loads by what stops a byte or poisons its line, stores by what stops a byte. -/
theorem accessStops : Obligations.AccessStops := by
  unfold Obligations.AccessStops
  refine ⟨fun i d a n u off len s hrow hf => ?_, fun i r a n off len s hrow hf => ?_⟩
  · rw [exec_loadRow hrow hf]
    exact ⟨fun c va info h => scalarLoad_stopped h, fun h => scalarLoad_stopped h, fun va pa h => scalarLoad_stopped h,
      fun keys j h hfence hw hj => scalarLoad_poisoned h hfence hw hj⟩
  · rw [exec_storeRow hrow hf]
    exact ⟨fun c va info h => scalarStore_stopped (scalarKeys_stopped h), fun h => scalarStore_stopped (scalarKeys_stopped h),
      fun va pa h => scalarStore_stopped (scalarKeys_stopped h)⟩

end Sys2Proof.Machine

/-! Host accesses through CXL.mem (R12, R14, R15, R45, R46, R178, R195). -/

namespace Sys2Proof.Machine

open Sys2Proof.Claims

/-! ### Runs of bytes -/

theorem keysFrom_eq_map (k n : Nat) : keysFrom k n = (List.range n).map (fun i => k + i) := by
  induction n generalizing k with
  | zero => rfl
  | succ n ih =>
    rw [keysFrom, ih, List.range_succ_eq_map, List.map_cons, List.map_map]
    exact congrArg _ (List.map_congr_left fun i _ => by simp only [Function.comp_apply]; omega)

theorem mem_keysFrom {k n j : Nat} : j ∈ keysFrom k n ↔ k ≤ j ∧ j < k + n := by
  rw [keysFrom_eq_map, List.mem_map]
  constructor
  · rintro ⟨i, hi, rfl⟩
    have := List.mem_range.mp hi
    omega
  · rintro ⟨hlo, hhi⟩
    exact ⟨j - k, List.mem_range.mpr (by omega), by omega⟩

@[simp] theorem keysFrom_length (k n : Nat) : (keysFrom k n).length = n := by simp [keysFrom_eq_map]

theorem keysFrom_nodup (k n : Nat) : (keysFrom k n).Nodup := by
  rw [keysFrom_eq_map]
  exact List.nodup_range.map (fun a b h => Nat.add_left_cancel h)

/-- What is written to distinct bytes is read back. -/
theorem memReadList_memWriteList {m : Memory} (h : m.wf = true) {ks : List Nat} {bs : List Byte} (hks : ks.Nodup)
    (hlen : bs.length = ks.length) : memReadList (memWriteList m ks bs) ks = bs := by
  induction ks generalizing m bs with
  | nil => exact (List.length_eq_zero_iff.mp hlen).symm
  | cons k r ih =>
    obtain _ | ⟨b, bs⟩ := bs
    · cases hlen
    · obtain ⟨hk, hr⟩ := List.nodup_cons.mp hks
      have htail := ih (memWrite_wf h k b) hr (Nat.succ.inj hlen)
      have hhead : memRead (memWriteList (memWrite m k b) r bs) k = b := by
        rw [memRead_memWriteList_other _ _ _ hk, memRead_memWrite_same h]
      rw [memWriteList, memReadList, List.map_cons, hhead]
      exact congrArg _ htail

/-! ### How a port meets an address -/

section

variable {s : State} (hon : s.mode ≠ .off) (hcool : s.mode ≠ .tripped) {port : Bool} {pa : Nat}

theorem hostAccess_tier2 (hon : s.mode ≠ .off) (hcool : s.mode ≠ .tripped) (hlo : 2 ^ 40 ≤ pa) (hhi : pa < 2 ^ 41) :
    s.hostAccess port pa = .served := by
  obtain ⟨die, hr⟩ := region_tier2 hlo hhi
  simp [State.hostAccess, hon, hcool, hr]

theorem hostAccess_owned (hon : s.mode ≠ .off) (hcool : s.mode ≠ .tripped) (hpa : pa < 2 ^ 39)
    (h : ((s.stack (pa / 2 ^ 36)).right port).state = .owned) :
    s.hostAccess port pa = if (s.stack (pa / 2 ^ 36)).owner = port then .served else .mirror := by
  simp only [State.hostAccess, hon, hcool, or_self, if_false, region_hbm hpa, h]

theorem hostAccess_handing (hon : s.mode ≠ .off) (hcool : s.mode ≠ .tripped) (hpa : pa < 2 ^ 39)
    (h : ((s.stack (pa / 2 ^ 36)).right port).state = .handing) : s.hostAccess port pa = .waits := by
  simp only [State.hostAccess, hon, hcool, or_self, if_false, region_hbm hpa, h]

theorem hostAccess_refused (hon : s.mode ≠ .off) (hcool : s.mode ≠ .tripped) (hpa : pa < 2 ^ 39)
    (h : ((s.stack (pa / 2 ^ 36)).right port).state = .absent) : s.hostAccess port pa = .refused := by
  simp only [State.hostAccess, hon, hcool, or_self, if_false, region_hbm hpa, h]

theorem region_ne_hbm {k : Nat} (h : 2 ^ 39 ≤ k) (st : Nat) : region k ≠ .hbm st := by
  unfold region
  rw [if_neg (by omega)]
  repeat' split
  all_goals simp

/-- An address outside HBM never waits. -/
theorem hostAccess_ne_waits (h : 2 ^ 39 ≤ pa) : s.hostAccess port pa ≠ .waits := by
  unfold State.hostAccess
  split
  · simp
  · split
    case h_1 st hst => exact absurd hst (region_ne_hbm h st)
    all_goals simp

include hon hcool

theorem hostAccess_served (h : hostServes s port pa) : s.hostAccess port pa = .served := by
  rcases h with ⟨hpa, hright, howner⟩ | ⟨hlo, hhi⟩
  · rw [hostAccess_owned hon hcool hpa hright]
    exact if_pos howner
  · exact hostAccess_tier2 hon hcool hlo hhi

theorem hostAccess_mirror (h : hostMirror s port pa) : s.hostAccess port pa = .mirror := by
  obtain ⟨hpa, hright, howner⟩ := h
  rw [hostAccess_owned hon hcool hpa hright]
  exact if_neg howner

theorem hostAccess_waits_iff : s.hostAccess port pa = .waits ↔
    pa < 2 ^ 39 ∧ ((s.stack (pa / 2 ^ 36)).right port).state = .handing := by
  refine ⟨fun h => ?_, fun ⟨hpa, hright⟩ => hostAccess_handing hon hcool hpa hright⟩
  have hpa : pa < 2 ^ 39 := by
    by_contra hout
    exact hostAccess_ne_waits (by omega) h
  refine ⟨hpa, ?_⟩
  cases hright : ((s.stack (pa / 2 ^ 36)).right port).state
  case handing => rfl
  case absent => simp [hostAccess_refused hon hcool hpa hright] at h
  case owned =>
    rw [hostAccess_owned hon hcool hpa hright] at h
    split at h <;> cases h

/-- The test that `hostAsk` makes before it performs an access. -/
theorem hostHolds_iff : (s.hostHeld.any (fun x => x.1 == port) || s.hostAccess port pa == .waits) = true ↔
    hostHolds s port pa := by
  rw [Bool.or_eq_true, beq_iff_eq, hostAccess_waits_iff hon hcool, List.any_eq_true]
  simp only [beq_iff_eq]

theorem hostAsk_holds {q : HostReq} (h : hostHolds s port q.pa) :
    s.hostAsk port q = { s with hostHeld := s.hostHeld ++ [(port, q)] } := if_pos ((hostHolds_iff hon hcool).mpr h)

theorem hostAsk_goes {q : HostReq} (h : ¬ hostHolds s port q.pa) : s.hostAsk port q = s.hostPerform port q :=
  if_neg (fun e => h ((hostHolds_iff hon hcool).mp e))

end

/-! ### What an access that is not held does -/

/-- The bytes of an access that stays in its line. -/
theorem hostKeys_inLine {pa n : Nat} (h : pa % 64 + n ≤ 64) : hostKeys pa n = keysFrom pa n := by
  exact congrArg _ (Nat.min_eq_left (by omega))

theorem hostLoad_served {s : State} {port : Bool} {pa n : Nat} (h : s.hostAccess port pa = .served) (hn : pa % 64 + n ≤ 64) :
    s.hostLoad port pa n = { s with
      hostRead := (List.range n).map (fun i => memRead s.mem (pa + i)), hostPoison := s.poisoned (pa / 64) } := by
  unfold State.hostLoad
  rw [h, hostKeys_inLine hn, keysFrom_eq_map]
  simp only [memReadList, List.map_map, Function.comp_def, lineOf]

theorem hostLoad_refused {s : State} {port : Bool} {pa n : Nat} (h : s.hostAccess port pa = .refused) :
    s.hostLoad port pa n =
      { s.ownHost port pa with hostRead := (hostKeys pa n).map (fun _ => 0xFF), hostPoison := true } := by
  unfold State.hostLoad
  rw [h]

theorem hostLoad_mirror {s : State} {port : Bool} {pa n : Nat} (h : s.hostAccess port pa = .mirror) :
    s.hostLoad port pa n = { s.addError 4 (errSource pa) 0 0 pa with
      hostRead := (hostKeys pa n).map (fun k => Config.lostByte s.free k), hostPoison := true } := by
  unfold State.hostLoad
  rw [h]

/-- The record of a mirror mismatch names the stack and the address (R15, R64). -/
theorem mirror_record {pa : BitVec 52} (h : pa.toNat < 2 ^ 39) {s : State} (hroom : s.errors.length < 4096) :
    ∃ e, (s.addError 4 (errSource pa.toNat) 0 0 pa.toNat).errors = s.errors ++ [e] ∧ e.cls = 4 ∧
      e.source.toNat = pa.toNat / 2 ^ 36 ∧ e.addr.toNat = pa.toNat := by
  rw [addError_room hroom]
  refine ⟨_, rfl, rfl, ?_, pa_addr pa⟩
  simp [errSource_hbm h]
  omega

theorem ownHost_record {s : State} (hroom : s.errors.length < 4096) (port : Bool) (pa : Nat) :
    ∃ e, (s.ownHost port pa).errors = s.errors ++ [e] ∧ e.cls = 8 := by
  rw [State.ownHost, addError_room hroom]
  exact ⟨_, rfl, rfl⟩

/-- Settles O42: the reads of a port, its writes, and the access that goes on once a hand-over has ended. -/
theorem hostMemoryAccess : Obligations.HostMemoryAccess := by
  unfold Obligations.HostMemoryAccess
  refine ⟨fun s port pa n hon hcool hn1 hn => ?_, fun s port pa n hready hheld hn1 hn hserves => ?goesOn⟩
  · have hkeys : hostKeys pa.toNat n = (List.range n).map (fun i => pa.toNat + i) := by
      rw [hostKeys_inLine hn, keysFrom_eq_map]
    have read : ¬ hostHolds s port pa.toNat → exec (.hostCxlMemRead port pa n) s = .next (s.hostLoad port pa.toNat n) :=
      fun h => congrArg Host.Outcome.next (hostAsk_goes hon hcool h)
    have write (data : List Byte) : ¬ hostHolds s port pa.toNat →
        exec (.hostCxlMemWrite port pa data) s = .next (s.hostStore port pa.toNat data) :=
      fun h => congrArg Host.Outcome.next (hostAsk_goes hon hcool h)
    refine ⟨fun h => congrArg Host.Outcome.next (hostAsk_holds hon hcool h), fun hfree => ⟨?_, ?_, ?_⟩, fun data hlen =>
      ⟨fun h => congrArg Host.Outcome.next (hostAsk_holds hon hcool h), fun hfree => ⟨?_, ?_, ?_⟩⟩⟩
    · intro h
      rw [read hfree, hostLoad_served (hostAccess_served hon hcool h) hn]
      simp only [List.map_map, Function.comp_def]
    · intro hpa h
      refine ⟨_, read hfree, ?_⟩
      rw [hostLoad_refused (hostAccess_refused hon hcool hpa h), hkeys]
      exact ⟨rfl, rfl, addError_mem .., fun hroom => ownHost_record hroom port pa.toNat⟩
    · intro h
      refine ⟨_, read hfree, ?_⟩
      rw [hostLoad_mirror (hostAccess_mirror hon hcool h), hkeys]
      exact ⟨rfl, rfl, addError_mem .., mirror_record h.1⟩
    · intro h hmem
      refine ⟨_, write data hfree, ?_⟩
      rw [State.hostStore, hostAccess_served hon hcool h, hlen]
      dsimp only
      rw [homeWrite_mem, hostKeys_inLine hn, ← keysFrom_eq_map]
      exact ⟨memReadList_memWriteList hmem (keysFrom_nodup _ _) (by rw [hlen, keysFrom_length]),
        fun k hk => memRead_memWriteList_other _ _ _ hk⟩
    · intro hpa h
      refine ⟨_, write data hfree, ?_⟩
      rw [State.hostStore, hostAccess_refused hon hcool hpa h]
      exact ⟨addError_mem .., fun hroom => ownHost_record hroom port pa.toNat⟩
    · intro h
      refine ⟨_, write data hfree, ?_⟩
      rw [State.hostStore, hostAccess_mirror hon hcool h]
      exact ⟨addError_mem .., mirror_record h.1⟩
  case goesOn =>
    generalize hu : ({ s with hostHeld := [] } : State) = u
    have hstack : u.stack = s.stack := by rw [← hu]; rfl
    have hon : u.mode ≠ .off := by rw [← hu]; simp [hready]
    have hcool : u.mode ≠ .tripped := by rw [← hu]; simp [hready]
    have hserved : u.hostAccess port pa = .served := hostAccess_served hon hcool (by rwa [hostServes, hstack])
    have hfree : ¬ hostHolds u port pa := by
      rw [← hostHolds_iff hon hcool, hserved, ← hu]
      simp
    rw [State.hostGoOn, hheld, hu]
    simp only [State.askAll]
    rw [hostAsk_goes (q := .read pa n) hon hcool hfree, State.hostPerform, hostLoad_served hserved hn, ← hu]
    rfl

end Sys2Proof.Machine

/-! Slots, scrub, clock and heat (R16 to R19, R21). -/

namespace Sys2Proof.Machine

open Sys2Proof.Claims

/-! ### Whom a slot serves (R17) -/

section

variable {x : BitVec 256} {donate ready : BitVec 8} {i : Nat}

/-- The next donor in table order after slot i that has a ready beat. -/
def donorAfter (x : BitVec 256) (donate ready : BitVec 8) (i : Nat) : Option Nat :=
  ((List.range 63).filterMap (fun j => slotOwner x (i + j + 1))).find? (fun c => donate.getLsbD c && ready.getLsbD c)

theorem serveSlot_eq : serveSlot x donate ready i =
    match slotOwner x i with
    | some o => if ready.getLsbD o then some o else if donate.getLsbD o then donorAfter x donate ready i else none
    | none => donorAfter x donate ready i := rfl

theorem serveSlot_owner {o : Nat} (h : slotOwner x i = some o) (hr : ready.getLsbD o = true) :
    serveSlot x donate ready i = some o := by
  simp [serveSlot_eq, h, hr]

theorem serveSlot_keeps {o : Nat} (h : slotOwner x i = some o) (hr : ready.getLsbD o = false)
    (hd : donate.getLsbD o = false) : serveSlot x donate ready i = none := by
  simp [serveSlot_eq, h, hr, hd]

theorem serveSlot_donates (h : ∀ o, slotOwner x i = some o → ready.getLsbD o = false ∧ donate.getLsbD o = true) :
    serveSlot x donate ready i = donorAfter x donate ready i := by
  rw [serveSlot_eq]
  cases ho : slotOwner x i with
  | none => rfl
  | some o => simp [h o ho]

/-- Without a ready owner the slot passes on or serves nobody. -/
theorem serveSlot_none (h : ∀ o, slotOwner x i = some o → ready.getLsbD o = false)
    (hd : donorAfter x donate ready i = none) : serveSlot x donate ready i = none := by
  rw [serveSlot_eq]
  cases ho : slotOwner x i with
  | none => exact hd
  | some o => simp [h o ho, hd]

theorem donorAfter_some {j c : Nat} (hj1 : 1 ≤ j) (hj : j ≤ 63) (hc : slotOwner x (i + j) = some c)
    (hd : donate.getLsbD c = true) (hr : ready.getLsbD c = true)
    (hfirst : ∀ k a : Nat, 1 ≤ k → k < j → slotOwner x (i + k) = some a →
      donate.getLsbD a = false ∨ ready.getLsbD a = false) : donorAfter x donate ready i = some c := by
  obtain ⟨j, rfl⟩ : ∃ k, j = k + 1 := ⟨j - 1, by omega⟩
  have hfind : (List.range 63).find? (fun j => (slotOwner x (i + j + 1)).any
      (fun c => donate.getLsbD c && ready.getLsbD c)) = some j := by
    rw [List.find?_range_eq_some]
    refine ⟨?_, List.mem_range.mpr (by omega), fun k hk => ?_⟩
    · simp [Nat.add_assoc, hc, hd, hr]
    · cases ha : slotOwner x (i + k + 1) with
      | none => rfl
      | some a =>
        have := hfirst (k + 1) a (by omega) (by omega) ha
        rcases this with h | h <;> simp [h]
  rw [donorAfter, List.find?_filterMap, hfind]
  exact hc

theorem donorAfter_none (h : ∀ j c : Nat, 1 ≤ j → j ≤ 63 → slotOwner x (i + j) = some c →
    donate.getLsbD c = false ∨ ready.getLsbD c = false) : donorAfter x donate ready i = none := by
  rw [donorAfter, List.find?_eq_none]
  intro c hc
  obtain ⟨j, hj, hown⟩ := List.mem_filterMap.mp hc
  have hlt := List.mem_range.mp hj
  rcases h (j + 1) c (by omega) (by omega) hown with h | h <;> simp [h]

end

/-! ### A slot passes (R16, R17, R19) -/

/-- No new table and no new DONATE wait, or the slot is not the first of a pass. -/
theorem newPass_eq_self {k : Stack} {pch slot : Nat} (h : slot = 0 → k.newDonate = none ∧ ∀ x ∈ k.newTables, x.1 ≠ pch) :
    k.newPass pch slot = k := by
  unfold Stack.newPass
  split
  case isTrue => rfl
  case isFalse hs =>
    obtain ⟨hd, ht⟩ := h (by omega)
    have hnone : k.newTables.filter (fun x => x.1 == pch) = [] := by simpa [List.filter_eq_nil_iff] using ht
    have hall : k.newTables.filter (fun x => x.1 != pch) = k.newTables := by simpa [List.filter_eq_self] using ht
    rw [hnone, hall, hd]
    cases k
    simp_all

/-- A pass begins: the one table that waits, and DONATE, take effect. -/
theorem newPass_one {k : Stack} {pch : Nat} {x : BitVec 256} {d : BitVec 8} (ht : k.tables = []) (hn : k.newTables = [(pch, x)])
    (hd : k.newDonate = some d) : k.newPass pch 0 =
      { k with tables := sset p0Table [] pch x, newTables := [], donate := d, newDonate := none } := by
  simp [Stack.newPass, ht, hn, hd]

theorem table_sset_nil (k : Stack) (pch : Nat) (x : BitVec 256) :
    Stack.table { k with tables := sset p0Table [] pch x } pch = x :=
  sget_sset_same (fun _ => p0Table) (lo := none) rfl pch x

/-- The partition that a slot serves now. -/
def Stack.serves (k : Stack) (pch slot : Nat) (ready : BitVec 8) : Option Nat :=
  serveSlot (k.table pch) k.donate ready slot

theorem passSlot_served (k : Stack) (pch slot : Nat) (ready : BitVec 8) :
    (k.passSlot pch slot ready).served = ((k.newPass pch slot).serves pch slot ready).map (BitVec.ofNat 3) := rfl

theorem passSlot_some {k : Stack} {pch slot c : Nat} {ready : BitVec 8} (hk : k.newPass pch slot = k)
    (h : k.serves pch slot ready = some c) : k.passSlot pch slot ready = { k with served := some (BitVec.ofNat 3 c) } := by
  unfold Stack.serves at h
  simp [Stack.passSlot, hk, h]

theorem passSlot_none {k : Stack} {pch slot : Nat} {ready : BitVec 8} (hk : k.newPass pch slot = k)
    (h : k.serves pch slot ready = none) : k.passSlot pch slot ready =
      { k with served := none, starved := k.starved &&& ~~~(BitVec.twoPow 32 pch) } := by
  unfold Stack.serves at h
  simp [Stack.passSlot, hk, h]

/-! ### A beat of scrub (R19) -/

theorem scrubNext_patrol {k : Stack} {pch : Nat} (h : (sget (0, 0) k.pass pch).2 = 0) : (k.scrubNext pch).2 =
    { k with patrol := sset 0 k.patrol pch ((sget 0 k.patrol pch + 1) % 2 ^ 25) } := by
  unfold Stack.scrubNext
  split
  case h_1 heq => simp [heq] at h
  case h_2 => rfl

theorem scrubNext_pass {k : Stack} {pch : Nat} (h : (sget (0, 0) k.pass pch).2 ≠ 0) : (k.scrubNext pch).2 =
    { k with pass := sset (0, 0) k.pass pch (if (sget (0, 0) k.pass pch).2 = 1 then (0, 0) else
        ((sget (0, 0) k.pass pch).1 + 1, (sget (0, 0) k.pass pch).2 - 1)) } := by
  unfold Stack.scrubNext
  split
  case h_1 n left heq => simp [heq]
  case h_2 heq => simp [heq] at h

theorem scrubNext_eq (k : Stack) (pch : Nat) : ∃ p q, (k.scrubNext pch).2 = { k with patrol := p, pass := q } := by
  by_cases h : (sget (0, 0) k.pass pch).2 = 0
  · exact ⟨_, _, scrubNext_patrol h⟩
  · exact ⟨_, _, scrubNext_pass h⟩

/-- A beat of scrub moves its pseudo-channel on and may count a corrected error; other stacks and memory stay. -/
theorem patrolBeat_stack (s : State) {n : Nat} (hn : n < 8) (pch : Nat) : ∃ c,
    (s.patrolBeat n pch).stack n = { ((s.stack n).scrubNext pch).2 with corrected := c } := by
  unfold State.patrolBeat
  simp only [draw_state]
  split
  · exact ⟨_, by rw [addError_stack, stack_modStack _ hn, stack_modStack _ hn]; rfl⟩
  · exact ⟨_, by rw [stack_modStack _ hn]; rfl⟩

theorem patrolBeat_stack_other (s : State) {m n : Nat} (h : m ≠ n) (pch : Nat) : (s.patrolBeat n pch).stack m = s.stack m := by
  unfold State.patrolBeat
  simp only [draw_state]
  split
  · rw [addError_stack, stack_modStack_other _ h, stack_modStack_other _ h]
    rfl
  · rw [stack_modStack_other _ h]
    rfl

@[simp] theorem patrolBeat_mem (s : State) (n pch : Nat) : (s.patrolBeat n pch).mem = s.mem := by
  unfold State.patrolBeat
  simp only [draw_state]
  split <;> simp

/-! ### SLOT_SERVICE (R16, R17, R19) -/

/-- The module once the slot has passed, and before an idle one lets scrub read. -/
noncomputable def State.passed (s : State) (n : BitVec 3) (pch : Reg) (slot : BitVec 6) (ready : BitVec 8) : State :=
  s.modStack n.toNat (fun k => k.passSlot pch.toNat slot.toNat ready)

section

variable (s : State) (n : BitVec 3) (pch : Reg) (slot : BitVec 6) (ready : BitVec 8)

theorem passed_stack : (s.passed n pch slot ready).stack n.toNat = (s.stack n.toNat).passSlot pch.toNat slot.toNat ready :=
  stack_modStack s n.isLt _

theorem exec_slotService_idle (h : ((s.stack n.toNat).passSlot pch.toNat slot.toNat ready).served = none) :
    exec (.slotService n pch slot ready) s = .next ((s.passed n pch slot ready).patrolBeat n.toNat pch.toNat) :=
  congrArg Host.Outcome.next (if_pos (by rw [← passed_stack] at h; exact h))

theorem exec_slotService_serves (h : ((s.stack n.toNat).passSlot pch.toNat slot.toNat ready).served ≠ none) :
    exec (.slotService n pch slot ready) s = .next (s.passed n pch slot ready) :=
  congrArg Host.Outcome.next (if_neg (by rw [← passed_stack] at h; exact h))

end

/-- What the obligation says of a slot that serves nobody: STARVED ends, and one beat is read. -/
theorem idle_beat {k : Stack} (pch : Reg) :
    let x := sget (0, 0) k.pass pch.toNat
    let t := (({ k with served := none, starved := k.starved &&& ~~~(BitVec.twoPow 32 pch.toNat) } : Stack).scrubNext
      pch.toNat).2
    t.served = none ∧ t.starved.getLsbD pch.toNat = false ∧
    (x.2 = 0 → t.pass = k.pass ∧ (swf (fun _ => (0 : Nat)) none k.patrol = true →
      sget 0 t.patrol pch.toNat = (sget 0 k.patrol pch.toNat + 1) % 2 ^ 25)) ∧
    (x.2 ≠ 0 → t.patrol = k.patrol ∧ (swf (fun _ => ((0, 0) : Nat × Nat)) none k.pass = true →
      sget (0, 0) t.pass pch.toNat = if x.2 = 1 then (0, 0) else (x.1 + 1, x.2 - 1))) := by
  intro x t
  have hpch : pch.toNat < 32 := pch.isLt
  by_cases h : x.2 = 0
  · have ht : t = _ := scrubNext_patrol h
    rw [ht]
    exact ⟨rfl, by simp [hpch], fun _ => ⟨rfl, fun hwf => sget_sset_same (fun _ => 0) hwf _ _⟩, fun hne => absurd h hne⟩
  · have ht : t = _ := scrubNext_pass h
    rw [ht]
    exact ⟨rfl, by simp [hpch], fun he => absurd he h, fun _ => ⟨rfl, fun hwf => sget_sset_same (fun _ => (0, 0)) hwf _ _⟩⟩

/-! ### Clock and heat (R21) -/

/-- What a sensor reads as after a reading. -/
def State.reading (s : State) (sensor : BitVec 3) (temp : BitVec 16) : Sensor :=
  { s.sensors.getD sensor.toNat { temp := 0, limit := 0 } with temp := temp }

/-- The module once a sensor and the power have been measured. -/
noncomputable def State.measured (s : State) (sensor : BitVec 3) (temp : BitVec 16) : State :=
  State.measure { s with sensors := s.sensors.setIfInBounds sensor.toNat (s.reading sensor temp) }

theorem measured_clockDown (s : State) (sensor : BitVec 3) (temp : BitVec 16) (die : Bool) :
    (s.measured sensor temp).clockDown die = s.clockDown die := rfl

theorem clockDown_setClockDown (s : State) (die : Bool) (n : Nat) :
    (s.setClockDown die n).clockDown die = n ∧ (s.setClockDown die n).clockDown (!die) = s.clockDown (!die) ∧
      (s.setClockDown die n).mode = s.mode := by
  cases die <;> exact ⟨rfl, rfl, rfl⟩

/-- R21: a sensor that reads this temperature stands at its limit, or the power drawn exceeds the cap. -/
abbrev TooHot (s : State) (sensor : BitVec 3) (temp : BitVec 16) : Prop :=
  (s.sensors.getD sensor.toNat { temp := 0, limit := 0 }).limit.toNat ≤ temp.toNat ∨
    s.powerCap.toNat < Config.free s.free % 2 ^ 16

theorem measured_power (s : State) (sensor : BitVec 3) (temp : BitVec 16) :
    (s.measured sensor temp).power.toNat = Config.free s.free % 2 ^ 16 := BitVec.toNat_ofNat ..

/-- The test by which THROTTLE leaves the clock alone. -/
theorem cool_iff (s : State) (sensor : BitVec 3) (temp : BitVec 16) :
    (!(s.reading sensor temp).at && decide ((s.measured sensor temp).power ≤ (s.measured sensor temp).powerCap)) = true ↔
      ¬ TooHot s sensor temp := by
  rw [Bool.and_eq_true, Bool.not_eq_true', decide_eq_true_iff, BitVec.le_def, measured_power, not_or]
  refine and_congr ?_ Nat.not_lt.symm
  simp only [Sensor.at, State.reading, decide_eq_false_iff_not, BitVec.le_def]

theorem execThrottle_eq {s : State} (hready : s.mode = .ready) (die : Bool) (sensor : BitVec 3) (temp : BitVec 16) :
    execThrottle die sensor temp s =
      if !(s.reading sensor temp).at && decide ((s.measured sensor temp).power ≤ (s.measured sensor temp).powerCap) then
        .next (s.measured sensor temp)
      else if s.clockDown die < 8 then .next ((s.measured sensor temp).setClockDown die (s.clockDown die + 1))
      else .next (if (s.reading sensor temp).limit < temp then (s.measured sensor temp).trip sensor
        else s.measured sensor temp) := by
  have hoff : ¬ s.mode = .off := by rw [hready]; decide
  have hcool : ¬ (s.measured sensor temp).mode = .tripped := by
    change ¬ s.mode = .tripped
    rw [hready]
    decide
  exact (if_neg hoff).trans (if_neg hcool)

section

variable {s : State} (hready : s.mode = .ready) (die : Bool) {sensor : BitVec 3} {temp : BitVec 16}

include hready

theorem exec_throttle_cool (h : ¬ TooHot s sensor temp) :
    exec (.throttle die sensor temp) s = .next (s.measured sensor temp) :=
  (execThrottle_eq hready die sensor temp).trans (if_pos ((cool_iff s sensor temp).mpr h))

theorem exec_throttle_steps (h : TooHot s sensor temp) (hstep : s.clockDown die < 8) :
    exec (.throttle die sensor temp) s = .next ((s.measured sensor temp).setClockDown die (s.clockDown die + 1)) :=
  (execThrottle_eq hready die sensor temp).trans
    ((if_neg (fun e => (cool_iff s sensor temp).mp e h)).trans (if_pos hstep))

/-- At the lowest step: the module trips when the sensor is above its limit. -/
theorem exec_throttle_lowest (h : TooHot s sensor temp) (hstep : 8 ≤ s.clockDown die) :
    exec (.throttle die sensor temp) s = .next (if (s.reading sensor temp).limit < temp then
      (s.measured sensor temp).trip sensor else s.measured sensor temp) :=
  (execThrottle_eq hready die sensor temp).trans
    ((if_neg (fun e => (cool_iff s sensor temp).mp e h)).trans (if_neg (Nat.not_lt.mpr hstep)))

end

theorem exec_clockStepUp {s : State} {die : Bool} (hcool : ∀ x ∈ s.sensors.toList, x.temp.toNat < x.limit.toNat)
    (hpower : Config.free s.free % 2 ^ 16 ≤ s.powerCap.toNat) (hdown : 0 < s.clockDown die) :
    exec (.clockStepUp die) s = .next (s.measure.setClockDown die (s.clockDown die - 1)) := by
  have hat : s.measure.sensors.toList.any Sensor.at = false := by
    rw [List.any_eq_false]
    intro x hx
    simpa [Sensor.at, BitVec.le_def] using hcool x hx
  have hcap : decide (s.measure.powerCap < s.measure.power) = false := by
    rw [decide_eq_false_iff_not, BitVec.lt_def, Nat.not_lt]
    exact le_of_eq_of_le (BitVec.toNat_ofNat ..) hpower
  have hzero : (s.measure.clockDown die == 0) = false := beq_eq_false_iff_ne.mpr (Nat.ne_of_gt hdown)
  exact if_neg (by simp [hat, hcap, hzero])

/-- Settles O44: a slot passes, a new table, a starved scrub, the clock falls, stays, trips and rises. -/
theorem slotsAndClock : Obligations.SlotsAndClock := by
  unfold Obligations.SlotsAndClock
  refine ⟨?slot, ?table, ?starved, ?falls, ?stays, ?lowest, ?rises⟩
  case slot =>
    intro s n pch slot ready hpass
    have hk : (s.stack n.toNat).newPass pch.toNat slot.toNat = s.stack n.toNat :=
      newPass_eq_self fun h => hpass (BitVec.eq_of_toNat_eq h)
    cases hp : (s.stack n.toNat).serves pch.toNat slot.toNat ready with
    | none =>
      have hidle := passSlot_none hk hp
      obtain ⟨c, hbeat⟩ := patrolBeat_stack (s.passed n pch slot ready) n.isLt pch.toNat
      rw [passed_stack, hidle] at hbeat
      obtain ⟨hserved, hstarved, hpatrol, hscrub⟩ := idle_beat (k := s.stack n.toNat) pch
      refine ⟨_, exec_slotService_idle s n pch slot ready (by rw [hidle]), ?_⟩
      rw [hbeat]
      refine ⟨fun o ho hr => ?_, fun _ _ _ _ => hserved, fun j c hj1 hj hc hd hr hfirst hown => ?_, fun _ _ => hserved,
        fun _ => hserved, fun m hm => ?_, ?_, fun hne => absurd hserved hne, fun _ => ⟨hstarved, hpatrol, hscrub⟩⟩
      · exact absurd ((serveSlot_owner ho hr).symm.trans hp) (by simp)
      · exact absurd (((serveSlot_donates hown).trans (donorAfter_some hj1 hj hc hd hr hfirst)).symm.trans hp) (by simp)
      · rw [patrolBeat_stack_other _ hm, State.passed, stack_modStack_other _ hm]
      · rw [patrolBeat_mem]
        rfl
    | some c =>
      have hserves := passSlot_some hk hp
      have hstack := (passed_stack s n pch slot ready).trans hserves
      have hserved : ((s.passed n pch slot ready).stack n.toNat).served = some (BitVec.ofNat 3 c) := by rw [hstack]
      refine ⟨_, exec_slotService_serves s n pch slot ready (by rw [hserves]; simp), ?_⟩
      rw [hserved]
      have is_c {o : Nat} (h : serveSlot ((s.stack n.toNat).table pch.toNat) (s.stack n.toNat).donate ready slot.toNat = some o) :
          some (BitVec.ofNat 3 c) = some (BitVec.ofNat 3 o) := by
        rw [Option.some.inj (hp.symm.trans h)]
      have not_none (h : serveSlot ((s.stack n.toNat).table pch.toNat) (s.stack n.toNat).donate ready slot.toNat = none) :
          some (BitVec.ofNat 3 c) = none := absurd (hp.symm.trans h) (by simp)
      refine ⟨fun o ho hr => is_c (serveSlot_owner ho hr), fun o ho hr hd => not_none (serveSlot_keeps ho hr hd),
        fun j c' hj1 hj hc hd hr hfirst hown => is_c ((serveSlot_donates hown).trans (donorAfter_some hj1 hj hc hd hr hfirst)),
        fun hown hnone => not_none (serveSlot_none hown (donorAfter_none hnone)), fun hr => not_none ?_,
        fun m hm => stack_modStack_other _ hm _, rfl, fun _ => ?_, fun h => absurd h (by simp)⟩
      · subst hr
        exact serveSlot_none (fun _ _ => BitVec.getLsbD_zero) (donorAfter_none fun _ _ _ _ _ => .inr BitVec.getLsbD_zero)
      · rw [State.passed, State.modStack, hserves]
        rfl
  case table =>
    intro s n pch x d htables hnew hdonate
    have hserves : ((s.stack n.toNat).newPass pch.toNat 0).serves pch.toNat 0 0 = none :=
      serveSlot_none (fun _ _ => BitVec.getLsbD_zero) (donorAfter_none fun _ _ _ _ _ => .inr BitVec.getLsbD_zero)
    have hserved : ((s.stack n.toNat).passSlot pch.toNat (0 : BitVec 6).toNat 0).served = none := by
      rw [passSlot_served]
      exact congrArg _ hserves
    obtain ⟨c, hbeat⟩ := patrolBeat_stack (s.passed n pch 0 0) n.isLt pch.toNat
    obtain ⟨p, q, hnext⟩ := scrubNext_eq ((s.passed n pch 0 0).stack n.toNat) pch.toNat
    refine ⟨_, exec_slotService_idle s n pch 0 0 hserved, ?_⟩
    rw [hbeat, hnext, passed_stack, Stack.passSlot]
    change (Stack.table ((s.stack n.toNat).newPass pch.toNat 0) _ = _ ∧ ((s.stack n.toNat).newPass pch.toNat 0).donate = _ ∧
      ((s.stack n.toNat).newPass pch.toNat 0).newTables = _ ∧ ((s.stack n.toNat).newPass pch.toNat 0).newDonate = _)
    rw [newPass_one htables hnew hdonate]
    exact ⟨table_sset_nil (s.stack n.toNat) pch.toNat x, rfl, rfl, rfl⟩
  case starved =>
    intro s n pch
    have hpch : pch.toNat < 32 := pch.isLt
    refine ⟨_, rfl, ?_⟩
    rw [stack_modStack _ n.isLt]
    exact ⟨by simp [hpch], rfl⟩
  case falls =>
    intro s die sensor temp hready hhot hstep
    obtain ⟨hdie, hother, hmode⟩ := clockDown_setClockDown (s.measured sensor temp) die (s.clockDown die + 1)
    exact ⟨_, exec_throttle_steps hready die hhot hstep, hdie, hother, hmode.trans hready⟩
  case stays =>
    intro s die sensor temp hready htemp hpower
    exact ⟨_, exec_throttle_cool hready die (by omega), rfl, hready⟩
  case lowest =>
    intro s die sensor temp hready hstep
    refine ⟨fun habove => ?_, fun hbelow => ?_⟩
    · refine ⟨_, (exec_throttle_lowest hready die (.inl (Nat.le_of_lt habove)) hstep).trans (congrArg _ (if_pos habove)), rfl, rfl⟩
    · by_cases hhot : TooHot s sensor temp
      · exact ⟨_, (exec_throttle_lowest hready die hhot hstep).trans (congrArg _ (if_neg (Nat.not_lt.mpr hbelow))), hready, rfl⟩
      · exact ⟨_, exec_throttle_cool hready die hhot, hready, rfl⟩
  case rises =>
    intro s die hcool hpower hdown
    exact ⟨_, exec_clockStepUp hcool hpower hdown, (clockDown_setClockDown s.measure die _).1⟩

end Sys2Proof.Machine

/-! The commands of the PSC (R50, R53, R54): the checks that each command has, and what the device-wide ones do. -/

namespace Sys2Proof.Machine

open Sys2Proof.Claims

/-! ### Checks before any effect (R50, R53) -/

/-- A command of the table: the PSC's common checks, its own among them that its unused words are zero, then what it does. -/
theorem exec_pscRow {i : Instr} {r : CmdRec} {flags n : Nat} {device : Bool} (h : pscRow i = some (r, flags, device, n))
    (s : State) : ∃ (ok : Bool) (k : State → Res), exec i s = pscCmd r flags device ok s k ∧ (ok = true → zeroFrom r n = true) := by
  unfold pscRow at h
  split at h <;> cases h <;> delta exec <;>
    simp only [execIdentify, execAttest, execLoadImage, execStartFarm, execStartFarmDirect, execStartFarmResume, startCmd,
      execStopFarm, execPreempt, execQueryFarm, execPartitionDestroy, execSetSlots, execSetPageBase, execPinRevoke,
      execCastleStack, execReadErrors, execScrubQuery, execScrubFullPass, execScrubRange, execLinkConfig, execDcdAccept,
      execDcdRelease, execDcdReleaseForced, State.release, execPowerCap, execFwPatch, execResetWarm] <;>
    exact ⟨_, _, rfl, by simp +contextual [scrubOk]⟩

theorem pscCmd_asleep {r : CmdRec} {flags : Nat} {device ok : Bool} {s : State} {k : State → Res}
    (h : s.mode = .off ∨ s.mode = .coldStart ∨ s.mode = .warmStart) : pscCmd r flags device ok s k = .next s := by
  unfold pscCmd
  rcases h with h | h | h <;> rw [h]

theorem pscCmd_badArg {r : CmdRec} {flags : Nat} {device ok : Bool} {s : State} {k : State → Res} (hm : s.mode = .ready)
    (h : r.rsvd ≠ 0 ∨ flags < r.flags.toNat ∨ ok = false ∨ (device = true ∧ r.part ≠ 0)) :
    pscCmd r flags device ok s k = Claims.answered s r 2 0 0 0 := by
  unfold pscCmd
  rw [hm]
  exact if_pos h

theorem pscCmd_badPart {r : CmdRec} {flags : Nat} {device ok : Bool} {s : State} {k : State → Res} (hm : s.mode = .ready)
    (h : ¬ (r.rsvd ≠ 0 ∨ flags < r.flags.toNat ∨ ok = false ∨ (device = true ∧ r.part ≠ 0)))
    (hp : s.part? r.part.toNat = none) : pscCmd r flags device ok s k = Claims.answered s r 3 0 0 0 := by
  unfold pscCmd
  rw [hm]
  dsimp only
  rw [if_neg h, if_pos (by rw [hp]; rfl)]
  rfl

theorem exec_pscRow_badArg {i : Instr} {r : CmdRec} {flags n : Nat} {device : Bool} {s : State}
    (hi : pscRow i = some (r, flags, device, n)) (hm : s.mode = .ready)
    (h : r.rsvd ≠ 0 ∨ flags < r.flags.toNat ∨ (device = true ∧ r.part ≠ 0) ∨ ∃ w ∈ (words r).drop n, w ≠ 0) :
    exec i s = Claims.answered s r 2 0 0 0 := by
  obtain ⟨ok, k, he, hok⟩ := exec_pscRow hi s
  rw [he, pscCmd_badArg hm]
  rcases h with h | h | h | ⟨w, hw, hne⟩
  · exact .inl h
  · exact .inr (.inl h)
  · exact .inr (.inr (.inr h))
  · refine .inr (.inr (.inl ?_))
    by_contra hgood
    exact hne (zeroFrom_iff.mp (hok (by simpa using hgood)) w hw)

/-- The checks of a command that is accepted hold, its own excepted. -/
structure Checked (s : State) (r : CmdRec) (flags n : Nat) (device : Bool) : Prop where
  ready : s.mode = .ready
  rsvd : r.rsvd = 0
  flags_le : r.flags.toNat ≤ flags
  wide : device = true → r.part = 0
  unused : zeroFrom r n = true
  exists_ : (s.part? r.part.toNat).isSome = true

theorem checked_of_accepts {s : State} {i : Instr} {r : CmdRec} {flags n : Nat} {device : Bool}
    (hi : pscRow i = some (r, flags, device, n)) (h : Accepts s i) : Checked s r flags n device := by
  obtain ⟨r', flags', device', n', hi', hmode, hrsvd, hflags, hdev, hwords, hpart⟩ := h
  obtain ⟨rfl, rfl, rfl, rfl⟩ : r = r' ∧ flags = flags' ∧ device = device' ∧ n = n' := by simpa [hi] using hi'
  exact ⟨hmode, hrsvd, hflags, hdev, zeroFrom_iff.mpr hwords, hpart⟩

theorem pscCmd_checked {s : State} {r : CmdRec} {flags n : Nat} {device ok : Bool} (h : Checked s r flags n device)
    (hok : ok = true) (k : State → Res) : pscCmd r flags device ok s k = k s := by
  obtain ⟨hmode, hrsvd, hflags, hdev, _, hpart⟩ := h
  refine pscCmd_ready hmode ?_ hpart
  rintro (hr | hf | hz | ⟨hd, hp⟩)
  · exact hr hrsvd
  · omega
  · simp [hok] at hz
  · exact hp (hdev hd)

theorem pscCmd_ownCheck {s : State} {r : CmdRec} {flags n : Nat} {device ok : Bool} (h : Checked s r flags n device)
    (hok : ok = false) (k : State → Res) : pscCmd r flags device ok s k = Claims.answered s r 2 0 0 0 :=
  pscCmd_badArg h.ready (.inr (.inr (.inl hok)))

theorem devRange_iff {lo len : Nat} : devRange lo len = true ↔ goodBytes lo len := by
  simp [devRange, goodBytes]

/-! ### A stack at a time -/

/-- Each stack of a list is updated by its own function, the rest stay. -/
theorem stack_foldl_modStack (f : Nat → Stack → Stack) {l : List Nat} (hl : l.Nodup) (h8 : ∀ n ∈ l, n < 8) (s : State) (m : Nat) :
    (l.foldl (fun s n => s.modStack n (f n)) s).stack m = if m ∈ l then f m (s.stack m) else s.stack m := by
  induction l generalizing s with
  | nil => rfl
  | cons n r ih =>
    obtain ⟨hn, hr⟩ := List.nodup_cons.mp hl
    rw [List.foldl_cons, ih hr (fun x hx => h8 x (List.mem_cons_of_mem _ hx))]
    by_cases hmn : m = n
    · subst hmn
      rw [if_neg hn, if_pos List.mem_cons_self, stack_modStack _ (h8 m List.mem_cons_self)]
    · rw [stack_modStack_other _ hmn]
      simp only [List.mem_cons, hmn, false_or]

theorem foldl_modStack_eq (f : Nat → Stack → Stack) (l : List Nat) (s : State) :
    ∃ x, l.foldl (fun s n => s.modStack n (f n)) s = { s with hbm := x } := by
  induction l generalizing s with
  | nil => exact ⟨s.hbm, rfl⟩
  | cons n r ih => exact ih (s.modStack n (f n))

/-- Entries written one after another, none of them the default, where a condition holds. -/
theorem sget_foldl_sset {α : Type} [DecidableEq α] {d : α} (p : Nat → Prop) [DecidablePred p] {v : Nat → α}
    (hv : ∀ c, p c → v c ≠ d) (l : List Nat) (m : Sparse α) (c : Nat) :
    sget d (l.foldl (fun m c => if p c then sset d m c (v c) else m) m) c = if c ∈ l ∧ p c then v c else sget d m c := by
  induction l generalizing m with
  | nil => simp
  | cons k r ih =>
    rw [List.foldl_cons, ih]
    by_cases hc : c ∈ r ∧ p c
    · rw [if_pos hc, if_pos ⟨List.mem_cons_of_mem _ hc.1, hc.2⟩]
    · rw [if_neg hc]
      by_cases hck : c = k
      · subst hck
        by_cases hp : p c
        · rw [if_pos hp, if_pos ⟨List.mem_cons_self, hp⟩, sget_sset_of_ne (hv c hp)]
        · simp [hp]
      · have hkeep : sget d (if p k then sset d m k (v k) else m) c = sget d m c := by
          split
          · exact sget_sset_other hck _ _
          · rfl
        rw [hkeep, if_neg]
        rintro ⟨hmem, hp⟩
        exact hc ⟨(List.mem_cons.mp hmem).resolve_left hck, hp⟩

/-! ### The beats of a scrub pass (R10, R19) -/

/-- Where the j-th beat of a pseudo-channel begins in its stack (R10). -/
def beatOff (c j : Nat) : Nat := j / 4 * 2 ^ 13 + c * 2 ^ 8 + j % 4 * 64

theorem lt_beatsBelow {c o j : Nat} (hc : c < 32) : j < beatsBelow c o ↔ beatOff c j < o := by
  have hceil : ceilDiv (o % 2 ^ 13 - c * 2 ^ 8) 64 = (o % 2 ^ 13 - c * 2 ^ 8 + 63) / 64 := rfl
  have hmin : ∀ x, Nat.min 4 x = min 4 x := fun _ => rfl
  rw [beatsBelow, hceil, hmin, beatOff]
  omega

theorem beatOff_lt {c j : Nat} (hc : c < 32) : beatOff c j < 2 ^ 36 ↔ j < 2 ^ 25 := by
  rw [beatOff]
  omega

/-- An offset of a stack, held between its ends. -/
def inStack (n x : Nat) : Nat := Nat.min (x - n * 2 ^ 36) (2 ^ 36)

/-- The beats of pseudo-channel c of stack n that the bytes from lo to hi meet: from the first on, up to the second. -/
def beatFrom (n c lo : Nat) : Nat := beatsBelow c (inStack n lo / 64 * 64)
def beatTo (n c hi : Nat) : Nat := beatsBelow c (inStack n hi)

/-- A beat meets the bytes from lo to hi exactly when it stands between the two numbers. -/
theorem beat_met_iff {n c lo hi j : Nat} (hc : c < 32) :
    (j < 2 ^ 25 ∧ lo < n * 2 ^ 36 + beatOff c j + 64 ∧ n * 2 ^ 36 + beatOff c j < hi) ↔
      beatFrom n c lo ≤ j ∧ j < beatTo n c hi := by
  have hmin : ∀ x y, Nat.min x y = min x y := fun _ _ => rfl
  have h64 : beatOff c j % 64 = 0 := by rw [beatOff]; omega
  rw [← Nat.not_lt (a := j), beatFrom, beatTo, lt_beatsBelow hc, lt_beatsBelow hc, ← beatOff_lt (j := j) hc, inStack, inStack,
    hmin, hmin]
  omega

/-- What a pass leaves to a pseudo-channel. -/
noncomputable def Stack.beginPass (n lo hi : Nat) (k : Stack) : Stack :=
  { k with pass := (List.range 32).foldl (fun m c => if lo < hi ∧ beatFrom n c lo < beatTo n c hi then
      sset ((0, 0) : Nat × Nat) m c (beatFrom n c lo, beatTo n c hi - beatFrom n c lo) else m) k.pass }

theorem scrubPass_eq (s : State) (mask lo hi : Nat) : s.scrubPass mask lo hi =
    ((List.range 8).filter (fun n => mask.testBit n)).foldl (fun s n => s.modStack n (Stack.beginPass n lo hi)) s := rfl

theorem beginPass_pass (n lo hi : Nat) (k : Stack) {c : Nat} (hc : c < 32) :
    sget (0, 0) (k.beginPass n lo hi).pass c = if lo < hi ∧ beatFrom n c lo < beatTo n c hi then
      (beatFrom n c lo, beatTo n c hi - beatFrom n c lo) else sget (0, 0) k.pass c := by
  rw [Stack.beginPass]
  dsimp only
  rw [sget_foldl_sset (d := ((0, 0) : Nat × Nat)) (fun c => lo < hi ∧ beatFrom n c lo < beatTo n c hi)]
  · simp only [List.mem_range, hc, true_and]
  · intro c hp h
    have := congrArg Prod.snd h
    simp only at this
    omega

theorem scrubPass_stack (s : State) (mask lo hi : Nat) {n : Nat} (hn : n < 8) :
    (s.scrubPass mask lo hi).stack n = if mask.testBit n then (s.stack n).beginPass n lo hi else s.stack n := by
  rw [scrubPass_eq, stack_foldl_modStack (fun n => Stack.beginPass n lo hi) (List.nodup_range.filter _)]
  · simp [hn]
  · intro m hm
    exact List.mem_range.mp (List.mem_filter.mp hm).1

theorem scrubPass_state (s : State) (mask lo hi : Nat) : ∃ x, s.scrubPass mask lo hi = { s with hbm := x } :=
  foldl_modStack_eq (fun n => Stack.beginPass n lo hi) _ s

/-- A pass does not change which pseudo-channels starve. -/
theorem scrubPass_scrubState (s : State) (mask lo hi m : Nat) : (s.scrubPass mask lo hi).scrubState m = s.scrubState m := by
  unfold State.scrubState
  refine congrArg List.sum (List.map_congr_left fun n hn => ?_)
  have hstarved : ((s.scrubPass mask lo hi).stack n).starved = (s.stack n).starved := by
    rw [scrubPass_stack _ _ _ _ (List.mem_range.mp hn)]
    split <;> rfl
  rw [hstarved]

/-! ### The clauses of the obligation -/

/-- A record with no argument, to a partition that does not exist: BADPART, whatever the command's own checks are. -/
theorem badPart_of_zero {s : State} {r : CmdRec} (hm : s.mode = .ready) (hrsvd : r.rsvd = 0) (hflags : r.flags = 0)
    (hpart : s.part? r.part.toNat = none) {ok : Bool} (hok : ok = true) (k : State → Res) :
    pscCmd r 0 false ok s k = Claims.answered s r 3 0 0 0 :=
  pscCmd_badPart hm (by simp [hrsvd, hflags, hok]) hpart

theorem zeroFrom_of_words {r : CmdRec} (h : ∀ w ∈ words r, w = 0) (n : Nat) : zeroFrom r n = true :=
  zeroFrom_iff.mpr fun w hw => h w (List.mem_of_mem_drop hw)

/-- The words of an identity (R54). -/
theorem identity_words (s : State) (r : CmdRec) (u : State) :
    (u.respond r 0 (0x0F28 + Config.stepping.toNat * 2 ^ 16) Config.serial.toNat
      (((List.range 256).filter (fun i => s.coresOn.getLsbD i)).length + s.enrolled * 2 ^ 16 + s.slotsRevoked.toNat * 2 ^ 20)) =
    u.respond r 0 (0x0F28 + 65536 * Config.stepping.toNat) Config.serial.toNat
      (((List.range 256).filter (fun i => s.coresOn.getLsbD i)).length + 65536 * s.enrolled + 2 ^ 20 * s.slotsRevoked.toNat) := by
  rw [Nat.mul_comm Config.stepping.toNat, Nat.mul_comm s.enrolled, Nat.mul_comm s.slotsRevoked.toNat]
  rfl

theorem scrubOk_of_lt {r : CmdRec} (hz : zeroFrom r 3 = true) (h : r.arg0.toNat < 768) : scrubOk r = true := by
  have hmode : r.arg0.toNat / 2 ^ 8 % 2 ^ 2 ≠ 3 := by omega
  simp only [scrubOk, fld, hz, Bool.true_and, Bool.and_eq_true, decide_eq_true_iff, bne_iff_ne]
  exact ⟨by omega, hmode⟩

theorem scrubAnswer_eq (s : State) (r : CmdRec) :
    s.scrubAnswer r = Claims.answered s r 0 (s.scrubState (r.arg0.toNat % 256)) 0 0 := by
  have : fld r.arg0.toNat 0 8 = r.arg0.toNat % 256 := by simp [fld]
  rw [State.scrubAnswer, this]
  rfl

/-- The answer of a pass, and what it leaves to each pseudo-channel. -/
theorem scrubPass_clause (s : State) (r : CmdRec) (lo hi : Nat) {i : Instr}
    (he : exec i s = (s.scrubPass (fld r.arg0.toNat 0 8) lo hi).scrubAnswer r) :
    ∃ u : State, exec i s = Claims.answered u r 0 (s.scrubState (r.arg0.toNat % 256)) 0 0 ∧ u.mem = s.mem ∧ u.cur = s.cur ∧
      ∀ n c : Nat, n < 8 → c < 32 → swf (fun _ => ((0, 0) : Nat × Nat)) none (s.stack n).pass = true →
        let x := sget (0, 0) (u.stack n).pass c
        let start (j : Nat) : Nat := n * 2 ^ 36 + j / 4 * 2 ^ 13 + c * 2 ^ 8 + j % 4 * 64
        let met (j : Nat) : Prop := lo < hi ∧ j < 2 ^ 25 ∧ lo < start j + 64 ∧ start j < hi
        (r.arg0.toNat.testBit n = false ∨ (∀ j, ¬ met j) → x = sget (0, 0) (s.stack n).pass c) ∧
        (r.arg0.toNat.testBit n = true → ∀ k, met k → ∀ j, met j ↔ x.1 ≤ j ∧ j < x.1 + x.2) := by
  refine ⟨s.scrubPass (fld r.arg0.toNat 0 8) lo hi, ?_, ?_, ?_, fun n c hn hc _ => ?_⟩
  · rw [he, scrubAnswer_eq, scrubPass_scrubState]
  · obtain ⟨x, hx⟩ := scrubPass_state s (fld r.arg0.toNat 0 8) lo hi
    rw [hx]
  · obtain ⟨x, hx⟩ := scrubPass_state s (fld r.arg0.toNat 0 8) lo hi
    rw [hx]
  intro x start met
  have hmet (j : Nat) : met j ↔ lo < hi ∧ beatFrom n c lo ≤ j ∧ j < beatTo n c hi := by
    have hstart : start j = n * 2 ^ 36 + beatOff c j := by
      change n * 2 ^ 36 + j / 4 * 2 ^ 13 + c * 2 ^ 8 + j % 4 * 64 = _
      rw [beatOff]
      omega
    change (lo < hi ∧ j < 2 ^ 25 ∧ lo < start j + 64 ∧ start j < hi) ↔ _
    rw [hstart, ← beat_met_iff hc]
  have hbit : (fld r.arg0.toNat 0 8).testBit n = r.arg0.toNat.testBit n := by
    have hfld : fld r.arg0.toNat 0 8 = r.arg0.toNat % 2 ^ 8 := by simp only [fld, pow_zero, Nat.div_one]
    rw [hfld, Nat.testBit_mod_two_pow, decide_eq_true hn, Bool.true_and]
  have hx : x = if r.arg0.toNat.testBit n = true ∧ lo < hi ∧ beatFrom n c lo < beatTo n c hi then
      (beatFrom n c lo, beatTo n c hi - beatFrom n c lo) else sget (0, 0) (s.stack n).pass c := by
    change sget (0, 0) ((s.scrubPass _ lo hi).stack n).pass c = _
    rw [scrubPass_stack _ _ _ _ hn, hbit]
    by_cases hb : r.arg0.toNat.testBit n = true
    · rw [if_pos hb, beginPass_pass _ _ _ _ hc]
      simp only [hb, true_and]
    · simp only [hb, if_false, false_and, Bool.false_eq_true]
  refine ⟨fun hnone => ?_, fun hb k hk j => ?_⟩
  · rw [hx, if_neg]
    rintro ⟨hb, hlt, hab⟩
    rcases hnone with hb' | hnone
    · simp [hb'] at hb
    · exact hnone (beatFrom n c lo) ((hmet _).mpr ⟨hlt, Nat.le_refl _, hab⟩)
  · obtain ⟨hlt, hfrom, hto⟩ := (hmet k).mp hk
    rw [hmet, hx, if_pos ⟨hb, hlt, by omega⟩]
    dsimp only
    omega

/-- Settles O36: the common checks, then IDENTIFY, ATTEST, POWER_CAP, FW_PATCH, READ_ERRORS and SCRUB. -/
theorem deviceCommands : Obligations.DeviceCommands := by
  unfold Obligations.DeviceCommands
  refine ⟨⟨fun i r flags n device s hi => ⟨fun hm => ?failed, fun hm h => exec_pscRow_badArg hi hm h, fun hm => ?asleep⟩,
    fun r s hm hrsvd hflags hpart hw => ?badPart⟩,
    fun s r => ⟨?identify, ?certificate, ?attest, ?cap, ?badCap, ?patch, ?errors, ?query, ?pass⟩⟩
  case failed =>
    obtain ⟨ok, k, he, _⟩ := exec_pscRow hi s
    rw [he, pscCmd_failed hm]
    rfl
  case asleep =>
    obtain ⟨ok, k, he, _⟩ := exec_pscRow hi s
    rw [he, pscCmd_asleep hm]
  case badPart =>
    have hz := zeroFrom_of_words hw
    have h0 : r.arg0 = 0 := hw _ (by simp [words])
    have h1 : r.arg1 = 0 := hw _ (by simp [words])
    have bad {ok : Bool} (hok : ok = true) (k : State → Res) := badPart_of_zero hm hrsvd hflags hpart hok k
    refine ⟨?_, ?_, ?_, ?_, ?_, ?_⟩
    · exact (bad (hz 1) _ : execStopFarm r s = _)
    · exact (bad (hz 1) _ : execQueryFarm r s = _)
    · exact (bad (by rw [hz, h1]; rfl) _ : execPreempt r s = _)
    · exact (bad (hz 0) _ : execPartitionDestroy r s = _)
    · exact (bad (hz 2) _ : execPinRevoke r s = _)
    · exact (bad (by rw [hz, h0]; rfl) _ : execCastleStack r s = _)
  case identify =>
    intro h h0
    have hc := checked_of_accepts rfl h
    change execIdentify r s = _
    rw [execIdentify, pscCmd_checked hc (by rw [hc.unused, h0]; rfl)]
    dsimp only
    rw [if_pos h0, identity_words]
    rfl
  case certificate =>
    intro h h0 hgood
    have hc := checked_of_accepts rfl h
    refine ⟨_, rfl, ?_⟩
    change execIdentify r s = _
    rw [execIdentify, pscCmd_checked hc (by rw [hc.unused, devRange_iff.mpr hgood]; simp)]
    dsimp only
    rw [if_neg h0, identity_words]
    rfl
  case attest =>
    intro h halign out hgood
    have hc := checked_of_accepts rfl h
    have hok : (zeroFrom r 3 && r.arg0.toNat % 64 == 0 && devRange r.arg0.toNat out.length) = true := by
      simp [hc.unused, halign, devRange_iff.mpr hgood]
    change execAttest r s = _
    rw [execAttest]
    exact pscCmd_checked hc hok _
  case cap =>
    intro h hlo hhi
    have hc := checked_of_accepts rfl h
    change execPowerCap r s = _
    exact pscCmd_checked hc (by simp [hc.unused, hlo, hhi]) _
  case badCap =>
    intro h hout
    have hc := checked_of_accepts rfl h
    change execPowerCap r s = _
    refine pscCmd_ownCheck hc ?_ _
    rcases hout with h | h <;> simp [h]
  case patch =>
    intro h hgood bytes x good
    have hc := checked_of_accepts rfl h
    have he : exec (.fwPatch r) s = if good then
        Claims.answered { s with patch := some { version := x.1, hash := Config.sha512 bytes } } r 0 0 0 0
        else Claims.answered s r 4 0 0 0 := by
      change execFwPatch r s = _
      exact pscCmd_checked hc (by rw [hc.unused, devRange_iff.mpr hgood]; rfl) _
    rw [he]
    exact ⟨fun hg => if_pos hg, fun hg => if_neg hg⟩
  case errors =>
    intro h h2 halign hgood out bytes
    have hc := checked_of_accepts rfl h
    have hok : (zeroFrom r 3 && decide (r.arg2.toNat ≤ 1) && r.arg0.toNat % 32 == 0 &&
        devRange r.arg0.toNat (32 * r.arg1.toNat)) = true := by
      simp [hc.unused, h2, halign, devRange_iff.mpr hgood]
    have he := pscCmd_checked hc hok
    refine ⟨?_, ?_⟩
    · rintro u h0 rfl
      change execReadErrors r s = _
      rw [execReadErrors, he]
      dsimp only
      rw [if_neg (by rw [h0]; decide)]
      rfl
    · rintro u h1 rfl
      change execReadErrors r s = _
      rw [execReadErrors, he]
      dsimp only
      rw [if_pos h1]
      rfl
  case query =>
    intro h hlt
    have hc := checked_of_accepts rfl h
    change execScrubQuery r s = _
    rw [execScrubQuery, pscCmd_checked hc (scrubOk_of_lt hc.unused hlt), scrubAnswer_eq]
  case pass =>
    rintro i lo hi h hlt (⟨rfl, rfl, rfl⟩ | ⟨rfl, hgood, rfl, rfl⟩)
    · have hc := checked_of_accepts rfl h
      have he : execScrubFullPass r s = _ := pscCmd_checked hc (scrubOk_of_lt hc.unused hlt) _
      exact scrubPass_clause s r _ _ he
    · have hc := checked_of_accepts rfl h
      have hok : (scrubOk r && devRange r.arg1.toNat r.arg2.toNat) = true := by
        rw [scrubOk_of_lt hc.unused hlt, devRange_iff.mpr hgood]
        rfl
      have he : execScrubRange r s = _ := pscCmd_checked hc hok _
      exact scrubPass_clause s r _ _ he

end Sys2Proof.Machine

/-! PARTITION_DESTROY at a slot table that is not in canonical form (R59, log 9). -/

namespace Sys2Proof.Machine

open Sys2Proof.Claims

/-! ### The counterexample: pseudo-channel 0 of stack 0 is listed twice -/

/-- The slot tables of a stack with pseudo-channel 0 listed twice: it reads as P0's table, which a canonical list does not
name; behind that stands a table without any owner. -/
def twiceListed : Sparse (BitVec 256) := [(0, p0Table), (0, 0)]

/-- A module in READY with partitions 0 and 1, no farm, and these slot tables at stack 0. -/
def twiceListedState : State :=
  { State.reset with
    mode := .ready
    parts := State.reset.parts.setIfInBounds 1 (some { Part.p0 with stackMask := 0 })
    hbm := State.reset.hbm.setIfInBounds 0 { Stack.reset false with tables := twiceListed } }

/-- PARTITION_DESTROY of partition 1. -/
def destroyOne : CmdRec :=
  { opcode := 0x09, tag := 0, part := 1, flags := 0, rsvd := 0, arg0 := 0, arg1 := 0, arg2 := 0, arg3 := 0, arg4 := 0, arg5 := 0
    arg6 := 0 }

theorem accepts_destroyOne : Accepts twiceListedState (.partitionDestroy destroyOne) :=
  ⟨destroyOne, 0, false, 0, rfl, rfl, rfl, Nat.le_refl _, fun h => absurd h (by decide), by simp [words, destroyOne], rfl⟩

/-- P1 holds no slot of P0's table, so that the destruction leaves that table as it is: the write of it, which is what an
unlisted channel reads, drops the first of the two entries, and the second one comes to be read. -/
theorem endPart_twiceListed : slotNibble (((twiceListedState.endPart 1).stack 0).table 0) 0 = 0 := by decide +kernel

theorem table_twiceListed : slotNibble ((twiceListedState.stack 0).table 0) 0 = 8 := by decide

/-- Refutes O38: the destruction of partition 1 must leave P0's slots, and no hypothesis asks that a stack's slot tables be
canonical: at `twiceListedState` slot 0 goes from P0 to nobody. -/
theorem not_partitionCommands : ¬ Obligations.PartitionCommands := by
  unfold Obligations.PartitionCommands
  rintro ⟨_, _, destroy, _⟩
  obtain ⟨_, _, ends, _⟩ := destroy twiceListedState destroyOne accepts_destroyOne
  obtain ⟨_, _, _, _, _, slots⟩ := ends Part.p0 { Part.p0 with stackMask := 0 } (by decide) (by decide) rfl rfl
  have h := slots 0 0 0 (by decide) (by decide) (by decide)
  rw [table_twiceListed, if_neg (by decide)] at h
  exact absurd (endPart_twiceListed.symm.trans h) (by decide)

end Sys2Proof.Machine

/-! `tret` (R199, R204, R351): its checks, and what it reposts. -/

namespace Sys2Proof.Machine

open Sys2Proof.Claims

/-! ### The checks of `tret` (R229, R351) -/

section

variable {s : State}

theorem exec_tret : exec .tret s = execTret s := rfl

theorem exec_tret_outside (h : s.cur.inHandler = false) : exec .tret s = s.illegal := by
  rw [exec_tret, execTret, checked_bad h]

theorem exec_tret_user (hl : s.cur.level = .user) (h : s.cur.inHandler = true) : exec .tret s = s.priv := by
  rw [exec_tret, execTret, checked_ok h, kernelOnly_user hl]

theorem exec_tret_handler (hl : s.cur.level = .kernel) (h : s.cur.inHandler = true) :
    exec .tret s = if s.cur.viqDone then s.returnFromTrap else .next s.stall := by
  rw [exec_tret, execTret, checked_ok h, kernelOnly_kernel hl]

theorem viqDone_iff : s.cur.viqDone = true ↔ AllComplete s := List.all_eq_true

theorem exec_tret_waits (hl : s.cur.level = .kernel) (h : s.cur.inHandler = true) (hv : ¬ AllComplete s) :
    exec .tret s = .next (waits s) :=
  (exec_tret_handler hl h).trans (if_neg (mt viqDone_iff.mp hv))

theorem exec_tret_returns (hl : s.cur.level = .kernel) (h : s.cur.inHandler = true) (hv : AllComplete s) :
    exec .tret s = s.returnFromTrap :=
  (exec_tret_handler hl h).trans (if_pos (viqDone_iff.mpr hv))

end

/-! ### The return (R204) -/

/-- What `tret` makes of the strand that gets these entries back: they stand in the queue, each with its slot, and the
handler's own record is left behind. -/
def resumedWith (s : State) (es : List VEntry) (sbuf : List BufferedStore) (cvy : Bool) : Strand :=
  { s.cur with
    viq := es, rq := repostedSlots es, sbuf := sbuf, frozen := 0, shadow := [], cvy := cvy
    level := if s.cur.ctl.tinfo.getLsbD 63 then .kernel else .user
    inHandler := false
    ctl := { s.cur.ctl with tinfo := s.cur.ctl.tinfo &&& ~~~(BitVec.twoPow 64 62) }
    pc := if s.cur.ctl.tcause.toNat % 256 = 0x18 ∨ s.cur.ctl.tcause.toNat % 256 = 0x19 then
      s.cur.ctl.tpc + BitVec.ofNat 64 (parcelLength (peekParcel s s.cur.ctl.tpc)) else s.cur.ctl.tpc }

/-- A strand with nothing queued and no slot has nothing to go on with. -/
theorem advanceAll_of_empty {t : Strand} (hv : t.viq = []) (hr : t.rq = []) : t.advanceAll = t := by
  have hdeliver : Strand.deliver 8 t = t := by
    unfold Strand.deliver
    rw [hr]
  have hleave : Strand.leave 64 t = t := by
    unfold Strand.leave
    rw [hv]
  rw [Strand.advanceAll, hv, List.foldl_nil, Strand.tidy, hdeliver, hleave]

/-- TRAP and BRK return past their instruction, every other cause to it (R197). -/
theorem returnPc_eq (s : State) (cause : Nat) (tpc : Word) :
    (if cause ≠ cTRAP.toNat ∧ cause ≠ cBRK.toNat then tpc else afterTpc s tpc) =
      if cause = 0x18 ∨ cause = 0x19 then tpc + BitVec.ofNat 64 (parcelLength (peekParcel s tpc)) else tpc := by
  have htrap : cTRAP.toNat = 0x18 := rfl
  have hbrk : cBRK.toNat = 0x19 := rfl
  rw [htrap, hbrk]
  by_cases h : cause = 0x18 ∨ cause = 0x19
  · rw [if_pos h, if_neg (by omega)]
    rfl
  · rw [if_neg h, if_pos (by omega)]

section

variable {s : State}

theorem returnFromTrap_odd (h : s.cur.ctl.tpc.getLsbD 0 = true) :
    s.returnFromTrap = s.trap cTARGET s.cur.ctl.tpc.toNat 0 := if_pos h

theorem returnFromTrap_held (h : s.cur.ctl.tpc.getLsbD 0 = false) (hf : s.cur.frozen ≠ 0) (hh : s.saveHeld s.cur = true) :
    s.returnFromTrap = .next (waits s) := by
  unfold State.returnFromTrap
  dsimp only
  rw [h]
  simp [hf, hh, stall_eq_waits]

theorem frozenStop_eq (hf : s.cur.frozen ≠ 0) : s.frozenStop = recordsStop s := if_neg hf

theorem returnFromTrap_stopped (h : s.cur.ctl.tpc.getLsbD 0 = false) (hf : s.cur.frozen ≠ 0) (hh : s.saveHeld s.cur = false)
    {x : Stop} (hx : recordsStop s = some x) : s.returnFromTrap = s.stopped x := by
  unfold State.returnFromTrap
  dsimp only
  rw [h, hh, frozenStop_eq hf, hx]
  simp

theorem returnFromTrap_lost (h : s.cur.ctl.tpc.getLsbD 0 = false) (hf : s.cur.frozen ≠ 0) (hh : s.saveHeld s.cur = false)
    (hx : recordsStop s = none) (hr : readRecords s s.cur s.cur.frozen 0x7000 = none) :
    s.returnFromTrap = .fault .recordLost := by
  unfold State.returnFromTrap
  dsimp only
  rw [h, hh, frozenStop_eq hf, hx, hr]
  simp

theorem returnFromTrap_empty (h : s.cur.ctl.tpc.getLsbD 0 = false) (hf : s.cur.frozen = 0) :
    s.returnFromTrap = .next { s with
      cur := (resumedWith s [] (s.cur.sbuf.map (BufferedStore.afterHandler [])) true).advanceAll } := by
  have hstop : s.frozenStop = none := if_pos hf
  have hrec : readRecords s s.cur s.cur.frozen 0x7000 = some [] := by rw [hf]; rfl
  unfold State.returnFromTrap
  dsimp only
  rw [h, hstop, hrec, hf]
  dsimp only
  rw [returnPc_eq]
  rfl

theorem returnFromTrap_reposts (h : s.cur.ctl.tpc.getLsbD 0 = false) (hf : s.cur.frozen ≠ 0) (hh : s.saveHeld s.cur = false)
    (hx : recordsStop s = none) {e : VEntry} {r : List VEntry}
    (hr : readRecords s s.cur s.cur.frozen 0x7000 = some (e :: r)) :
    s.returnFromTrap = .next { s with
      cur := (resumedWith s ({ reposted s.cur e with convoy := true } :: r.map (reposted s.cur))
        (s.cur.sbuf.map (BufferedStore.afterHandler ({ reposted s.cur e with convoy := true } :: r.map (reposted s.cur))))
        s.cur.cvy).advanceAll } := by
  unfold State.returnFromTrap
  dsimp only
  rw [h, hh, frozenStop_eq hf, hx, hr]
  dsimp only
  rw [returnPc_eq, Bool.and_false]
  rfl

end

theorem afterHandler_nil (b : BufferedStore) : BufferedStore.afterHandler [] b = { b with handler := false } := by
  unfold BufferedStore.afterHandler
  split
  case isTrue => rfl
  case isFalse hb =>
    obtain ⟨va, keys, val, after, fence, handler, rewalk⟩ := b
    simp only [Bool.not_eq_true] at hb
    rw [hb]

theorem map_afterHandler_nil (l : List BufferedStore) :
    l.map (BufferedStore.afterHandler []) = l.map (fun b => { b with handler := false }) :=
  List.map_congr_left fun b _ => afterHandler_nil b

/-- Settles O11: the checks in their order, the return with nothing frozen, and with frozen entries what stops their read and
what is reposted. -/
theorem tretResumes : Obligations.TretResumes := by
  unfold Obligations.TretResumes
  intro s
  refine ⟨exec_tret_user, exec_tret_outside, exec_tret_waits, fun hl h hv hodd => ?odd, fun hl h hv hf heven => ?empty,
    fun hl h hv hf heven => ?frozen⟩
  case odd =>
    rw [exec_tret_returns hl h hv, returnFromTrap_odd hodd]
    rfl
  case empty =>
    have hall : AllComplete s := by rw [AllComplete, hv]; simp
    rw [exec_tret_returns hl h hall, returnFromTrap_empty heven hf, advanceAll_of_empty rfl rfl,
      map_afterHandler_nil]
    rfl
  case frozen =>
    rw [exec_tret_returns hl h hv]
    refine ⟨fun hh => returnFromTrap_held heven hf hh, fun c va info hh hx => returnFromTrap_stopped heven hf hh hx,
      fun va pa hh hx => returnFromTrap_stopped heven hf hh hx, fun hh hx =>
      ⟨fun hr => returnFromTrap_lost heven hf hh hx hr, fun e r hr => ?_⟩⟩
    rw [returnFromTrap_reposts heven hf hh hx hr]
    rfl

end Sys2Proof.Machine

/-! ## Settling O39: `castle`, `castq` and HAND_OVER (R11, R12, R62, R177, R178, R362 to R365) -/

namespace Sys2Proof.Machine

open Sys2Proof.Claims

section
variable {s : State}

/-! ### `castle` and `castq` -/

theorem retire_eq_wrote (s : State) (d : Reg) (x : Word) (n : Nat) : s.retire d x n = wrote s d x n := by
  unfold State.retire State.setG State.advance State.modCur Strand.setG wrote
  split <;> rfl

theorem castleArgsOk_iff (a b : Word) : castleArgsOk a b = true ↔ goodCastle a b := by
  have h2 : b.toNat / 2 ^ 1 = b.toNat / 2 := rfl
  simp only [castleArgsOk, fld, goodCastle, h2, Bool.and_eq_true, decide_eq_true_eq, beq_iff_eq, Bool.not_eq_true']
  tauto

theorem ticket_eq (status att : Nat) (die : Bool) (stack : Nat) : ticket status att die stack = ticketWord status att die stack := by
  unfold ticket ticketWord wNat
  rw [Nat.mul_comm status, Nat.mul_comm att]
  rfl

/-- `castle` decides in the order of R362 and R177. -/
theorem exec_castle {d a b : Reg} (hf : Free s [d, a, b]) : exec (.castle d a b) s =
    let n := (s.g a).toNat % 8
    let die := (s.g b).getLsbD 0
    let answer (status att : Nat) (u : State) : Res := .next (wrote u d (ticketWord status att die n) 4)
    if ¬ goodCastle (s.g a) (s.g b) then answer 4 0 s
    else if s.mayCastle s.cur n = false then answer 3 0 s
    else if (s.stack n).owner = die then answer 1 0 s
    else if (s.stack n).handing = true then answer 2 0 s
    else if ¬ (AllComplete s ∧ StoresPerformed s) then .next (waits s)
    else answer 0 ((s.stack n).att + 1).toNat
      (s.startHand n die ((s.g b).getLsbD 8) (BitVec.ofNat 16 (fld (s.g b).toNat 16 16)) none) := by
  have hok : (!castleArgsOk (s.g a) (s.g b)) = true ↔ ¬ goodCastle (s.g a) (s.g b) := by
    rw [← castleArgsOk_iff]; simp
  have hwait : (s.cur.viqDone = false ∨ s.cur.sbuf ≠ []) ↔ ¬ (AllComplete s ∧ StoresPerformed s) := by
    rw [← viqDone_iff, StoresPerformed]; grind
  change execCastle d a b s = _
  unfold execCastle
  rw [withRegs_free (any_pendingG_of_free hf)]
  simp only [hok, hwait, retire_eq_wrote, ticket_eq, Bool.not_eq_true', stall_eq_waits, kBADARG, kDENIED, kDONE, kBUSY, kPENDING]

theorem stack_startHand {n : Nat} (hn : n < 8) (target force : Bool) (bar : BitVec 16) (resp : Option CmdRec) :
    let u := s.startHand n target force bar resp
    (u.stack n).handing = true ∧ (u.stack n).att = (s.stack n).att + 1 ∧ (u.stack n).owner = (s.stack n).owner ∧
      ((u.stack n).right (s.stack n).owner).state = .handing := by
  simp only [State.startHand, stack_modStack s hn]
  cases ho : (s.stack n).owner <;> simp [Stack.setRight, Stack.right, ho]

theorem exec_castq {d a : Reg} (hf : Free s [d, a]) : exec (.castq d a) s =
    let x := (s.g a).toNat
    let k := s.stack (x % 8)
    .next (wrote s d (BitVec.ofNat 64 (2 ^ 60 * ticketStatus k (s.g a) + 2 ^ 32 * (x / 2 ^ 32 % 2 ^ 16) +
      2 ^ 16 * k.gen.toNat + (if k.handing then 256 else 0) + (if k.owner then 1 else 0))) 4) := by
  change execCastq d a s = _
  unfold execCastq
  rw [withRegs_free (any_pendingG_of_free hf)]
  simp only [retire_eq_wrote, Stack.register, wNat, fld]
  have h8 : (2 : Nat) ^ 8 = 256 := rfl
  rw [h8, Nat.mul_comm (2 ^ 60), Nat.mul_comm (2 ^ 32), Nat.mul_comm (2 ^ 16)]
  simp only [Nat.add_assoc]

theorem ticketStatus_copied {k : Stack} {x : Word} (h : x.toNat / 2 ^ 60 ≠ 0) : ticketStatus k x = x.toNat / 2 ^ 60 := if_pos h

theorem ticketStatus_pending {k : Stack} {x : Word} (h : x.toNat / 2 ^ 60 = 0) : ticketStatus k x =
    if x.toNat / 2 ^ 32 % 2 ^ 16 = k.att.toNat then (if k.hand.isSome then 0 else if k.lastBusy then 2 else 1) else 5 :=
  if_neg (not_not.mpr h)

end

/-! ### HAND_OVER: nothing is in flight -/

theorem poll_of_no_farms {s : State} (h : s.farms = []) : s.poll = s := by
  simp [State.poll, h]

theorem settleStores_of_rest {s : State} (h : AtRest s) (p : Strand → Bool) : s.settleStores p = s := by
  have none_left : ∀ l : List Strand, (∀ t ∈ l, t.sbuf = [] ∧ t.viq = []) →
      l.foldl (fun s t => (s.performLefts t.key t.leftCount).flushStores t.key t.sbuf.length) s = s := by
    intro l hl
    induction l with
    | nil => rfl
    | cons t l ih =>
      obtain ⟨hs, hv⟩ := hl t (by simp)
      rw [List.foldl_cons, hs, Strand.leftCount, hv]
      exact ih fun u hu => hl u (by simp [hu])
  refine none_left _ fun t ht => ?_
  obtain ⟨hs, hv, -⟩ := h t (List.mem_of_mem_filter ht)
  exact ⟨hs, hv⟩

theorem storesGoOn_of_rest {s : State} (h : AtRest s) (p : Strand → Bool) (lo hi : Nat) : s.storesGoOn p lo hi = false := by
  refine List.any_eq_false.mpr fun t ht => ?_
  obtain ⟨hs, -⟩ := h t (List.mem_of_mem_filter ht)
  simp [hs]

/-- Writing lines back changes the cores' records only. -/
theorem cleanIn_eq (cs : List Nat) (lo hi : Nat) : ∀ s : State, ∃ x, s.cleanIn cs lo hi = { s with cores := x } := by
  induction cs with
  | nil => exact fun s => ⟨s.cores, rfl⟩
  | cons n cs ih =>
    intro s
    obtain ⟨x, hx⟩ := ih (s.modCore n (Core.giveUp false (lineIn lo hi)))
    exact ⟨x, by rw [State.cleanIn, List.foldl_cons, ← State.cleanIn, hx]; rfl⟩

theorem shootIn_eq (cs : List Nat) (lo hi : Nat) : ∀ s : State, ∃ x, s.shootIn cs lo hi = { s with cores := x } := by
  induction cs with
  | nil => exact fun s => ⟨s.cores, rfl⟩
  | cons n cs ih =>
    intro s
    obtain ⟨x, hx⟩ := ih (s.modCore n (fun c => { c with
      tlb := c.tlb.filter (fun e => !(decide (e.frame < hi) && decide (lo < e.frame + 2 ^ levelShift e.level))) }))
    exact ⟨x, by rw [State.shootIn, List.foldl_cons, ← State.shootIn, hx]; rfl⟩

theorem dirtyIn_eq_dirtyBytes (s : State) (die : Bool) (n : Nat) :
    64 * s.dirtyIn (s.coresOf die) (stackLo n) (stackHi n) = dirtyBytes s die n := by
  have hlo : stackLo n / 64 = n * 2 ^ 30 := by unfold stackLo; omega
  have hhi : stackHi n / 64 = (n + 1) * 2 ^ 30 := by unfold stackHi; omega
  have hin : lineIn (stackLo n) (stackHi n) = fun l => decide (n * 2 ^ 30 ≤ l) && decide (l < (n + 1) * 2 ^ 30) := by
    funext l; rw [lineIn, hlo, hhi]
  rw [State.dirtyIn, State.coresOf, dirtyBytes, hin]

theorem diePinned_iff (s : State) (die : Bool) (lo hi : Nat) : s.diePinned die lo hi = true ↔
    ∃ t ∈ s.strands, t.exists_ = true ∧ t.die = die ∧ ∃ p ∈ t.pins.toList, p.covers lo hi = true := by
  simp only [State.diePinned, List.any_eq_true, Bool.and_eq_true, beq_iff_eq, and_assoc]

/-! ### The end of a hand-over -/

/-- What BUSY and the flip share: the stack's new fields, the answer owed, the wake-up, and what had waited goes on. -/
def State.handClose (s : State) (n : Nat) (f : Stack → Stack) (h : HandOver) (status gen dirty pins : Nat) : State :=
  (((s.modStack n f).handResp h status gen dirty pins).wake 16 (fun _ => true)).hostGoOn.sendSaves

/-- The stack given back to its owner (R178 step 5). -/
def keptBy (h : HandOver) (k : Stack) : Stack :=
  { k.setRight h.source { k.right h.source with state := .owned } with handing := false, hand := none, lastBusy := true }

/-- The stack given to the target, with a generation (R178 step 7). -/
def givenTo (h : HandOver) (gen : BitVec 16) (k : Stack) : Stack :=
  { (k.setRight h.source { state := .absent, gen := gen }).setRight h.target { state := .owned, gen := gen } with
    owner := h.target, gen := gen, handing := false, hand := none, lastBusy := false }

theorem handBusy_eq (s : State) (n : Nat) (h : HandOver) : s.handBusy n h = s.handClose n (keptBy h) h 5 0 0 0 := rfl

theorem handFlip_eq {h : HandOver} (hb : h.bar.getLsbD 15 = false) (s : State) (n dirty pins : Nat) :
    s.handFlip n h dirty pins =
      s.handClose n (givenTo h ((s.stack n).gen + 1)) h 0 ((s.stack n).gen + 1).toNat dirty pins := by
  simp only [State.handFlip, barV, hb]
  rfl

theorem respond_eq (s : State) (r : CmdRec) (status gen dirty pins : Nat) : ∃ rp mx nt,
    s.respond r status gen dirty pins = { s with respPort := rp, msix := mx, notices := nt } ∧
    (s.notices = [] → s.respPort.length < 256 → rp = s.respPort ++
      [{ status := BitVec.ofNat 16 status, part := r.part, tag := r.tag, opcode := r.opcode, res0 := BitVec.ofNat 64 gen
         res1 := BitVec.ofNat 64 dirty, res2 := BitVec.ofNat 64 pins }]) := by
  unfold State.respond
  split
  · exact ⟨_, _, _, rfl, fun _ _ => rfl⟩
  · next hc => exact ⟨s.respPort, s.msix, _, rfl, fun h1 h2 => absurd ⟨h1, h2⟩ hc⟩

theorem handResp_eq (s : State) (h : HandOver) (status gen dirty pins : Nat) : ∃ rp mx nt,
    s.handResp h status gen dirty pins = { s with respPort := rp, msix := mx, notices := nt } ∧
    handAnswered s { s with respPort := rp, msix := mx, notices := nt } h status gen dirty pins := by
  unfold State.handResp handAnswered
  cases hr : h.resp with
  | none => exact ⟨s.respPort, s.msix, s.notices, rfl, fun _ => ⟨rfl, rfl⟩, by simp⟩
  | some r =>
    obtain ⟨rp, mx, nt, heq, hrp⟩ := respond_eq s r status gen dirty pins
    refine ⟨rp, mx, nt, heq, by simp, fun r' hr' h1 h2 => ?_⟩
    cases hr'
    exact hrp h1 h2

theorem wake_goesOn {u : State} (hh : u.hostHeld = []) (hp : ∀ t ∈ u.strands, t.pendSave = []) :
    (u.wake 16 (fun _ => true)).hostGoOn.sendSaves = u.wake 16 (fun _ => true) := by
  have hw : (u.wake 16 (fun _ => true)).hostGoOn = u.wake 16 (fun _ => true) := by
    simp only [State.wake, State.mapStrands, State.hostGoOn, hh, State.askAll]
  have hnone : (u.wake 16 (fun _ => true)).strands.filter (fun t => t.pendSave != []) = [] := by
    refine List.filter_eq_nil_iff.mpr fun t ht => ?_
    have ht' : t ∈ u.strands.map (fun t => if true && t.exists_ then { t with latch := t.latch ||| 16 } else t) := ht
    obtain ⟨x, hx, rfl⟩ := List.mem_map.mp ht'
    have := hp x hx
    split <;> simp [this]
  rw [hw, State.sendSaves, hnone]
  rfl

theorem wake_pins (p : Strand → Bool) (b : BitVec 6) (t : Strand) :
    (if p t && t.exists_ then { t with latch := t.latch ||| b } else t).pins = t.pins := by
  split <;> rfl

/-- Nothing waits for the hand-over: no farm, no held host access, no held write to a save area, no other command. -/
structure NothingWaits (u : State) : Prop where
  farms : u.farms = []
  hostHeld : u.hostHeld = []
  pendSave : ∀ t ∈ u.strands, t.pendSave = []

theorem handClose_ended {u : State} {n : Nat} {f : Stack → Stack} {h : HandOver} {status gen dirty pins : Nat}
    (hn : n < 8) (hu : NothingWaits u) (hq : (f (u.stack n)).queue = []) :
    let v := ((u.handClose n f h status gen dirty pins).castleQueue n).poll
    v.mem = u.mem ∧ v.stack n = f (u.stack n) ∧ (∀ m, m ≠ n → v.stack m = u.stack m) ∧ v.cur.pins = u.cur.pins ∧
      handAnswered u v h status gen dirty pins := by
  obtain ⟨rp, mx, nt, hresp, hans⟩ := handResp_eq (u.modStack n f) h status gen dirty pins
  have hclose : u.handClose n f h status gen dirty pins =
      State.wake { u.modStack n f with respPort := rp, msix := mx, notices := nt } 16 (fun _ => true) := by
    rw [State.handClose, hresp]
    exact wake_goesOn hu.hostHeld hu.pendSave
  have hhbm : (u.handClose n f h status gen dirty pins).hbm = (u.modStack n f).hbm := by rw [hclose]; rfl
  have hkeep : (u.handClose n f h status gen dirty pins).stack n = f (u.stack n) := by
    rw [stack_congr hhbm, stack_modStack u hn]
  have hqueue : (u.handClose n f h status gen dirty pins).castleQueue n =
      (u.handClose n f h status gen dirty pins).modStack n (fun k => { k with queue := [] }) := by
    rw [State.castleQueue, hkeep, hq]
    rfl
  have hfarms : ((u.handClose n f h status gen dirty pins).castleQueue n).farms = [] := by
    rw [hqueue, hclose]; exact hu.farms
  intro v
  have hv : v = (u.handClose n f h status gen dirty pins).modStack n (fun k => { k with queue := [] }) :=
    (poll_of_no_farms hfarms).trans hqueue
  refine ⟨?_, ?_, fun m hm => ?_, ?_, ?_⟩
  · rw [hv, hclose]; rfl
  · rw [hv, stack_modStack _ hn, hkeep, ← hq]
  · rw [hv, stack_modStack_other _ hm, stack_congr hhbm, stack_modStack_other _ hm]
  · rw [hv, hclose]
    exact wake_pins (fun _ => true) 16 u.cur
  · rw [hv, hclose]; exact hans

/-! ### A forced hand-over revokes the pins of the only strand -/

theorem deliver_of_empty (n : Nat) : ∀ t : Strand, t.viq = [] → ∃ x y, Strand.deliver n t = { t with rq := x, g := y } := by
  induction n with
  | zero => exact fun t _ => ⟨t.rq, t.g, rfl⟩
  | succ n ih =>
    intro t hv
    unfold Strand.deliver
    split
    · exact ⟨t.rq, t.g, rfl⟩
    · next q r hq =>
      split
      · exact ⟨t.rq, t.g, rfl⟩
      · next v hval =>
        have hg : ∃ y, ({ t with rq := r }.modEntry q.seq (fun e => { e with value := none })).setG q.dest v =
            { t with rq := r, g := y } := by
          simp only [Strand.modEntry, Strand.setG, hv, List.map_nil]
          split
          · exact ⟨_, rfl⟩
          · exact ⟨_, rfl⟩
        obtain ⟨y, hy⟩ := hg
        rw [hy]
        exact ih _ hv

theorem drainIssued_of_empty {t : Strand} (hv : t.viq = []) : ∃ x y, t.drainIssued = { t with rq := x, g := y } := by
  obtain ⟨x, y, h⟩ := deliver_of_empty 8 t hv
  refine ⟨x, y, ?_⟩
  have hl : Strand.leave 64 { t with rq := x, g := y } = { t with rq := x, g := y } := by
    simp [Strand.leave, hv]
  have hd : t.drainIssued = Strand.leave 64 (Strand.deliver 8 t) := by
    simp only [Strand.drainIssued, Strand.finishAll, Strand.advanceAll, Strand.tidy, hv, List.foldl_nil]
  rw [hd, h, hl]

/-- The current strand is the only one, runs on its core, and has no entry and no transfer under way. -/
structure Alone (s : State) : Prop where
  others : s.others = []
  running : s.cur.life = .running
  viq : s.cur.viq = []
  bte : s.bte = []
  colls : s.colls = []

theorem exists_of_running {t : Strand} (h : t.life = .running) : t.exists_ = true := by simp [Strand.exists_, h]

/-- What a hand-over's revocations leave of a strand. -/
structure Kept (t c : Strand) : Prop where
  key : c.key = t.key
  life : c.life = t.life
  pendSave : c.pendSave = t.pendSave

theorem drainStrand_alone {s : State} (ha : Alone s) : ∃ c, s.drainStrand s.cur.key = { s with cur := c } ∧
    c.viq = [] ∧ Kept s.cur c ∧ c.pins = s.cur.pins := by
  have he := exists_of_running ha.running
  obtain ⟨x, y, hd⟩ := drainIssued_of_empty ha.viq
  refine ⟨{ s.cur with rq := x, g := y }, ?_, ha.viq, ⟨rfl, rfl, rfl⟩, rfl⟩
  have h0 : s.performLefts s.cur.key s.cur.leftCount = s := by rw [Strand.leftCount, ha.viq]; rfl
  simp only [State.drainStrand, strand?_cur he, h0, modStrand_cur he, hd]

theorem covers_idle (lo hi : Nat) : Pin.idle.covers lo hi = false := by
  rw [Pin.covers, Pin.idle]; rfl

/-- Runs of a core's table move down; which bytes a pin covers stays. -/
theorem covers_moved (p : Pin) (c : Prop) [Decidable c] (x : BitVec 11) (lo hi : Nat) :
    (if c then { p with xfirst := x } else p).covers lo hi = p.covers lo hi := by
  split <;> rfl

theorem freeRun_alone {s : State} (ho : s.others = []) (core first n : Nat) : ∃ ps, s.freeRun core first n =
    { s with cur := { s.cur with pins := ps } } ∧
    ∀ lo hi j, (ps.getD j Pin.idle).covers lo hi = (s.cur.pins.getD j Pin.idle).covers lo hi := by
  unfold State.freeRun
  split
  · exact ⟨s.cur.pins, rfl, fun _ _ _ => rfl⟩
  · simp only [State.mapStrands, ho, List.map_nil]
    split
    · refine ⟨_, rfl, fun lo hi j => ?_⟩
      by_cases hj : j < 8
      · simp [Vector.getD, hj, covers_moved]
      · simp [Vector.getD, hj]
    · exact ⟨s.cur.pins, rfl, fun _ _ _ => rfl⟩

theorem stopTransfers_alone {s : State} (hb : s.bte = []) (hc : s.colls = []) (key : Nat) (k : BitVec 3) :
    s.stopTransfers key k = s := by
  have hbtes : s.btesOn key k = [] := by rw [State.btesOn, hb]; rfl
  have hcolls : s.collsOn key k = [] := by rw [State.collsOn, hc]; rfl
  rw [State.stopTransfers, hbtes]
  simp [hcolls]

/-- No pin of a list of numbers covers a range any more, and each other pin does only where it did. -/
def Uncovers (ks : List Nat) (t c : Strand) : Prop := ∀ lo hi j,
  (c.pins.getD j Pin.idle).covers lo hi = true → j ∉ ks ∧ (t.pins.getD j Pin.idle).covers lo hi = true

theorem covers_of_set {ps : Vector Pin 8} {p : Pin} (hp : p.extents = []) {k lo hi j : Nat}
    (h : ((ps.setIfInBounds k p).getD j Pin.idle).covers lo hi = true) : j ≠ k ∧ (ps.getD j Pin.idle).covers lo hi = true := by
  have hnone : p.covers lo hi = false := by simp [Pin.covers, hp]
  by_cases hj : j < 8
  · by_cases hk : k = j
    · simp [Vector.getD, hj, hk, hnone] at h
    · exact ⟨Ne.symm hk, by simpa [Vector.getD, hj, Array.getElem_setIfInBounds, hk] using h⟩
  · simp [Vector.getD, hj, covers_idle] at h

/-- A pin that is revoked, its run in the core's table freed, and the transfers on it stopped. -/
theorem revoke_step {s : State} {c : Strand} (ho : s.others = []) (hb : s.bte = []) (hc : s.colls = []) (key core first n : Nat)
    (k : BitVec 3) (p : Pin) (hp : p.extents = []) : ∃ d,
    (State.freeRun { s with cur := { c with pins := c.pins.setIfInBounds k.toNat p, viq := [] } } core first n).stopTransfers key k =
      { s with cur := d } ∧ d.viq = [] ∧ Kept c d ∧ Uncovers [k.toNat] c d := by
  obtain ⟨ps, hf, hcov⟩ := freeRun_alone
    (s := { s with cur := { c with pins := c.pins.setIfInBounds k.toNat p, viq := [] } }) ho core first n
  rw [hf, stopTransfers_alone (by exact hb) (by exact hc)]
  refine ⟨_, rfl, rfl, ⟨rfl, rfl, rfl⟩, fun lo hi j hj => ?_⟩
  have hj' : ((c.pins.setIfInBounds k.toNat p).getD j Pin.idle).covers lo hi = true := (hcov lo hi j).symm.trans hj
  obtain ⟨hne, hold⟩ := covers_of_set hp hj'
  exact ⟨by simpa using hne, hold⟩

theorem revokePin_alone {s : State} (ha : Alone s) (k : BitVec 3) : ∃ c,
    s.revokePin s.cur.key k = { s with cur := c } ∧ c.viq = [] ∧ Kept s.cur c ∧ Uncovers [k.toNat] s.cur c := by
  obtain ⟨c, hd, hviq, hkept, hpins⟩ := drainStrand_alone ha
  have he : c.exists_ = true := exists_of_running (hkept.life.trans ha.running)
  have hs : State.strand? { s with cur := c } s.cur.key = some c := by
    rw [← hkept.key]; exact strand?_cur (s := { s with cur := c }) he
  have hm (f : Strand → Strand) : State.modStrand { s with cur := c } s.cur.key f = { s with cur := f c } := by
    rw [← hkept.key]; exact modStrand_cur (s := { s with cur := c }) he f
  have hlife : (c.life = .saved) = False := by rw [hkept.life, ha.running]; simp
  unfold State.revokePin
  rw [hd]
  dsimp only
  rw [hs]
  simp only [hm, hlife, hviq, if_false, Strand.onPin, List.filter_nil, List.head?_nil]
  generalize stopOffset _ _ = x
  obtain ⟨d, hd, hdviq, hdkept, hun⟩ := revoke_step (c := c) ha.others ha.bte ha.colls s.cur.key c.coreNo
    (c.pins.getD k.toNat Pin.idle).xfirst.toNat (if c.placed then (c.pins.getD k.toNat Pin.idle).extents.length else 0) k
    { c.pins.getD k.toNat Pin.idle with revoked := true, stop := x, xfirst := 0, extents := [] } rfl
  refine ⟨d, hd, hdviq, ⟨hdkept.key.trans hkept.key, hdkept.life.trans hkept.life, hdkept.pendSave.trans hkept.pendSave⟩, ?_⟩
  unfold Uncovers
  rw [← hpins]
  exact hun

theorem revokePins_alone (ks : List Nat) : ∀ {s : State}, Alone s → (∀ k ∈ ks, k < 8) → ∃ c,
    ks.foldl (fun u k => u.revokePin s.cur.key (BitVec.ofNat 3 k)) s = { s with cur := c } ∧
    c.viq = [] ∧ Kept s.cur c ∧ Uncovers ks s.cur c := by
  induction ks with
  | nil => exact fun ha _ => ⟨_, rfl, ha.viq, ⟨rfl, rfl, rfl⟩, fun lo hi j h => ⟨by simp, h⟩⟩
  | cons k ks ih =>
    intro s ha h8
    obtain ⟨c, hc, hviq, hkept, hun⟩ := revokePin_alone ha (BitVec.ofNat 3 k)
    have hac : Alone { s with cur := c } := ⟨ha.others, hkept.life.trans ha.running, hviq, ha.bte, ha.colls⟩
    obtain ⟨d, hd, hdviq, hdkept, hdun⟩ := ih hac fun j hj => h8 j (by simp [hj])
    refine ⟨d, ?_, hdviq, ⟨hdkept.key.trans hkept.key, hdkept.life.trans hkept.life, hdkept.pendSave.trans hkept.pendSave⟩, ?_⟩
    · rw [List.foldl_cons, hc, ← hkept.key]
      exact hd
    · intro lo hi j hj
      obtain ⟨hks, hcov⟩ := hdun lo hi j hj
      obtain ⟨hk, hcov'⟩ := hun lo hi j hcov
      rw [BitVec.toNat_ofNat, Nat.mod_eq_of_lt (h8 k (by simp))] at hk
      exact ⟨by simpa using ⟨by simpa using hk, hks⟩, hcov'⟩

/-- Numbers of the pins of a strand that cover a range (R178 step 6). -/
def coveringPins (t : Strand) (lo hi : Nat) : List Nat :=
  [1, 2, 3, 4, 5, 6, 7].filter (fun k => (t.pins.getD k Pin.idle).covers lo hi)

theorem revokeKeys_alone {s : State} (ha : Alone s) {f : Strand → Bool} (hf : f s.cur = true) (lo hi : Nat) : ∃ c,
    s.revokeKeys f lo hi = ((coveringPins s.cur lo hi).length, { s with cur := c }) ∧ c.pendSave = s.cur.pendSave ∧
    ∀ k, 1 ≤ k → k < 8 → (c.pins.getD k Pin.idle).covers lo hi = false := by
  have hstrands : s.strands.filter (fun t => t.exists_) = [s.cur] := by
    simp [State.strands, ha.others, exists_of_running ha.running]
  have h8 : ∀ k ∈ coveringPins s.cur lo hi, k < 8 := by
    intro k hk
    have := (List.mem_filter.mp hk).1
    simp at this; omega
  obtain ⟨c, hc, -, hkept, hun⟩ := revokePins_alone (coveringPins s.cur lo hi) ha h8
  refine ⟨c, ?_, hkept.pendSave, fun k h1 hk8 => ?_⟩
  · simp only [State.revokeKeys, State.revokeWhere, hstrands, List.map_cons, List.map_nil, List.flatten_cons,
      List.flatten_nil, List.append_nil, hf, Bool.true_and, List.foldl_map, List.length_map]
    exact congrArg _ hc
  · refine Bool.eq_false_iff.mpr fun hcov => ?_
    obtain ⟨hnot, hold⟩ := hun lo hi k hcov
    refine hnot (List.mem_filter.mpr ⟨?_, hold⟩)
    interval_cases k <;> simp

theorem revokeKeys_none {s : State} {f : Strand → Bool} {lo hi : Nat}
    (h : ∀ t ∈ s.strands, t.exists_ = true → f t = true → ∀ p ∈ t.pins.toList, p.covers lo hi = false) :
    s.revokeKeys f lo hi = (0, s) := by
  have hno : ∀ t ∈ s.strands.filter (fun t => t.exists_),
      ([1, 2, 3, 4, 5, 6, 7].filter (fun k => f t && (t.pins.getD k Pin.idle).covers lo hi)).map (fun k => (t.key, k)) = [] := by
    intro t ht
    obtain ⟨hmem, he⟩ := List.mem_filter.mp ht
    rw [List.map_eq_nil_iff, List.filter_eq_nil_iff]
    intro k hk hcov
    obtain ⟨hft, hc⟩ := Bool.and_eq_true_iff.mp hcov
    have hk8 : k < 8 := by simp at hk; omega
    have hp : t.pins.getD k Pin.idle ∈ t.pins.toList := by simp [Vector.getD, hk8]
    simp [h t hmem he hft _ hp] at hc
  have hnil : ((s.strands.filter (fun t => t.exists_)).map (fun t =>
      ([1, 2, 3, 4, 5, 6, 7].filter (fun k => f t && (t.pins.getD k Pin.idle).covers lo hi)).map (fun k => (t.key, k)))).flatten = [] := by
    refine List.flatten_eq_nil_iff.mpr fun l hl => ?_
    obtain ⟨t, ht, rfl⟩ := List.mem_map.mp hl
    exact hno t ht
  simp only [State.revokeKeys, State.revokeWhere, hnil, List.length_nil, List.foldl_nil]

/-! ### HAND_OVER -/

theorem exec_handOver {s : State} {n : BitVec 3} {h : HandOver} (hh : (s.stack n.toNat).hand = some h) (hr : AtRest s)
    (hf : s.farms = []) : ∃ x, exec (.handOver n) s = .next (
      if (s.diePinned h.source (stackLo n.toNat) (stackHi n.toNat)) && !h.force then
        (({ s with cores := x } : State).handBusy n.toNat h).castleQueue n.toNat |>.poll
      else
        let z := ({ s with cores := x } : State).revokeKeys (fun t => t.die == h.source) (stackLo n.toNat) (stackHi n.toNat)
        ((z.2.shootIn (s.coresOf h.source) (stackLo n.toNat) (stackHi n.toNat)).handFlip n.toNat h
          (dirtyBytes s h.source n.toNat) z.1).castleQueue n.toNat |>.poll) := by
  have hdrain : s.drainRange (stackLo n.toNat) (stackHi n.toNat) = s := by rw [State.drainRange, hf]; rfl
  obtain ⟨x, hx⟩ := cleanIn_eq (s.coresOf h.source) (stackLo n.toNat) (stackHi n.toNat) s
  have hregion : State.dieRegion { s with cores := x } h.source (stackLo n.toNat) (stackHi n.toNat) = false := by
    simp [State.dieRegion, hf]
  have hpin : State.diePinned { s with cores := x } h.source (stackLo n.toNat) (stackHi n.toNat) =
    s.diePinned h.source (stackLo n.toNat) (stackHi n.toNat) := rfl
  refine ⟨x, ?_⟩
  change Host.Outcome.next (s.handOver n.toNat) = _
  unfold State.handOver
  rw [hh]
  simp only [settleStores_of_rest hr, storesGoOn_of_rest hr, Bool.false_eq_true, if_false]
  unfold State.handEnd
  simp only [hdrain, dirtyIn_eq_dirtyBytes, hx, hregion, hpin, Bool.or_false]
  split <;> rfl

theorem right_givenTo {h : HandOver} (hne : h.source ≠ h.target) (gen : BitVec 16) (k : Stack) :
    (givenTo h gen k).right h.source = { state := .absent, gen := gen } ∧
    (givenTo h gen k).right h.target = { state := .owned, gen := gen } := by
  cases hs : h.source <;> cases ht : h.target <;> simp_all [givenTo, Stack.setRight, Stack.right]

theorem setRight_owner (k : Stack) (die : Bool) (r : Right) : (k.setRight die r).owner = k.owner := by cases die <;> rfl
theorem setRight_gen (k : Stack) (die : Bool) (r : Right) : (k.setRight die r).gen = k.gen := by cases die <;> rfl
theorem setRight_queue (k : Stack) (die : Bool) (r : Right) : (k.setRight die r).queue = k.queue := by cases die <;> rfl

/-- The stack belongs to the target under the next generation, and nothing else of memory or of the stacks has changed. -/
abbrev HandedOver (s t : State) (n : Nat) (h : HandOver) : Prop :=
  t.mem = s.mem ∧ (t.stack n).owner = h.target ∧ (t.stack n).gen = (s.stack n).gen + 1 ∧ (t.stack n).handing = false ∧
    (t.stack n).hand = none ∧ (t.stack n).lastBusy = false ∧
    (t.stack n).right h.source = { state := .absent, gen := (s.stack n).gen + 1 } ∧
    (t.stack n).right h.target = { state := .owned, gen := (s.stack n).gen + 1 } ∧
    (∀ m, m ≠ n → t.stack m = s.stack m)

theorem handFlip_handsOver {s : State} {cores : Sparse Core} {c : Strand} {n : Nat} {h : HandOver} (hn : n < 8)
    (hb : h.bar.getLsbD 15 = false) (hne : h.source ≠ h.target) (hq : (s.stack n).queue = [])
    (hu : NothingWaits { s with cores := cores, cur := c }) (dirty pins : Nat) :
    let t := ((State.handFlip { s with cores := cores, cur := c } n h dirty pins).castleQueue n).poll
    HandedOver s t n h ∧ t.cur.pins = c.pins ∧ handAnswered s t h 0 ((s.stack n).gen + 1).toNat dirty pins := by
  have hqueue : (givenTo h ((s.stack n).gen + 1) (s.stack n)).queue = [] := by
    simp only [givenTo, setRight_queue, hq]
  obtain ⟨hmem, hstack, hothers, hpins, hans⟩ := handClose_ended (h := h) (status := 0) (gen := ((s.stack n).gen + 1).toNat)
    (dirty := dirty) (pins := pins) hn hu hqueue
  intro t
  have ht : t = ((State.handClose { s with cores := cores, cur := c } n (givenTo h ((s.stack n).gen + 1)) h 0
    ((s.stack n).gen + 1).toNat dirty pins).castleQueue n).poll := by
    simp only [t, handFlip_eq hb]
    rfl
  obtain ⟨hsource, htarget⟩ := right_givenTo hne ((s.stack n).gen + 1) (s.stack n)
  rw [ht]
  refine ⟨⟨hmem, ?_, ?_, ?_, ?_, ?_, ?_, ?_, hothers⟩, hpins, hans⟩
  all_goals rw [hstack]
  · rfl
  · rfl
  · rfl
  · rfl
  · rfl
  · exact hsource
  · exact htarget

theorem handBusy_keeps {s : State} {cores : Sparse Core} {n : Nat} {h : HandOver} (hn : n < 8)
    (hq : (s.stack n).queue = []) (hu : NothingWaits { s with cores := cores }) :
    let t := ((State.handBusy { s with cores := cores } n h).castleQueue n).poll
    t.mem = s.mem ∧ (t.stack n).owner = (s.stack n).owner ∧ (t.stack n).gen = (s.stack n).gen ∧
      (t.stack n).handing = false ∧ (t.stack n).hand = none ∧ (t.stack n).lastBusy = true ∧
      ((t.stack n).right h.source).state = .owned ∧ (∀ m, m ≠ n → t.stack m = s.stack m) ∧ handAnswered s t h 5 0 0 0 := by
  have hqueue : (keptBy h (s.stack n)).queue = [] := by simp only [keptBy, setRight_queue, hq]
  obtain ⟨hmem, hstack, hothers, -, hans⟩ := handClose_ended (h := h) (status := 5) (gen := 0) (dirty := 0) (pins := 0)
    hn hu hqueue
  rw [← handBusy_eq] at hmem hstack hothers hans
  refine ⟨hmem, ?_, ?_, ?_, ?_, ?_, ?_, hothers, hans⟩
  all_goals rw [hstack]
  · exact setRight_owner _ _ _
  · exact setRight_gen _ _ _
  · rfl
  · rfl
  · rfl
  · exact congrArg Right.state (right_setRight (s.stack n) h.source { (s.stack n).right h.source with state := .owned })

/-- Settles O39: `castle` and `castq` by the equations of their decisions; HAND_OVER finds nothing in flight, so that it comes
down to its last steps, with the pins of the only strand revoked where it is forced. -/
theorem castleResults : Obligations.CastleResults := by
  unfold Obligations.CastleResults
  refine ⟨?castle, ?castq, ?handOver⟩
  case castle =>
    intro d a b s hf n die
    have hn : n < 8 := Nat.mod_lt _ (by decide)
    rw [exec_castle hf]
    dsimp only
    refine ⟨?_, ?_, ?_, ?_, ?_, ?_⟩
    · intro hbad
      rw [if_pos hbad]
    · intro hgood hmay
      rw [if_neg (not_not.mpr hgood), if_pos hmay]
    · intro hgood hmay hown
      rw [if_neg (not_not.mpr hgood), if_neg (ne_false_of_eq_true hmay), if_pos hown]
    · intro hgood hmay hown hhand
      rw [if_neg (not_not.mpr hgood), if_neg (ne_false_of_eq_true hmay), if_neg hown, if_pos hhand]
    · intro hgood hmay hown hhand hall hst
      obtain ⟨h1, h2, h3, h4⟩ := stack_startHand (s := s) hn die ((s.g b).getLsbD 8)
        (BitVec.ofNat 16 (fld (s.g b).toNat 16 16)) none
      rw [if_neg (not_not.mpr hgood), if_neg (ne_false_of_eq_true hmay), if_neg hown, if_neg (ne_true_of_eq_false hhand),
        if_neg (not_not.mpr ⟨hall, hst⟩)]
      exact ⟨_, rfl, rfl, rfl, h1, h2, h3, h4, fun j hj => stack_modStack_other s hj _⟩
    · intro hgood hmay hown hhand hbusy
      rw [if_neg (not_not.mpr hgood), if_neg (ne_false_of_eq_true hmay), if_neg hown, if_neg (ne_true_of_eq_false hhand), if_pos hbusy]
  case castq =>
    intro d a s hf x k answer
    have status {st : Nat} (h : ticketStatus k (s.g a) = st) : exec (.castq d a) s = .next (answer st) := by
      rw [← h]; exact exec_castq hf
    refine ⟨fun h => ?_, fun h hatt => ?_, fun h hatt hhand => ?_, fun h hatt hhand hl => ?_, fun h hatt hhand hl => ?_⟩
    · exact status (ticketStatus_copied h)
    · exact status ((ticketStatus_pending h).trans (if_neg hatt))
    · exact status ((ticketStatus_pending h).trans ((if_pos hatt).trans (if_pos (Option.isSome_iff_ne_none.mpr hhand))))
    · exact status ((ticketStatus_pending h).trans ((if_pos hatt).trans ((if_neg (by simp [hhand])).trans (if_pos hl))))
    · exact status ((ticketStatus_pending h).trans ((if_pos hatt).trans ((if_neg (by simp [hhand])).trans (if_neg (by simp [hl])))))
  case handOver =>
    intro s n h hh hq hbar hne hrest hfarms hheld pinned given
    have hn : n.toNat < 8 := n.isLt
    obtain ⟨x, hx⟩ := exec_handOver hh hrest hfarms
    have hpin : s.diePinned h.source (stackLo n.toNat) (stackHi n.toNat) = true ↔ ∃ t ∈ s.strands, pinned t :=
      diePinned_iff s h.source (stackLo n.toNat) (stackHi n.toNat)
    have hwaits : ∀ t ∈ s.strands, t.pendSave = [] := by
      intro t ht
      obtain ⟨-, -, -, hp⟩ := hrest t ht
      exact hp
    rw [hx]
    refine ⟨fun hnone => ?_, fun hsome hforce => ?_, fun hcur hothers hrun hbte hcolls hforce => ?_⟩
    · have hno : s.diePinned h.source (stackLo n.toNat) (stackHi n.toNat) = false :=
        Bool.eq_false_iff.mpr fun hp => by obtain ⟨t, ht, hpt⟩ := hpin.mp hp; exact hnone t ht hpt
      have hkeys : ({ s with cores := x } : State).revokeKeys (fun t => t.die == h.source) (stackLo n.toNat) (stackHi n.toNat) =
          (0, { s with cores := x }) :=
        revokeKeys_none fun t ht he hd p hp => Bool.eq_false_iff.mpr fun hc =>
          hnone t ht ⟨he, beq_iff_eq.mp hd, p, hp, hc⟩
      obtain ⟨y, hy⟩ := shootIn_eq (s.coresOf h.source) (stackLo n.toNat) (stackHi n.toNat) { s with cores := x }
      obtain ⟨hgiven, -, hans⟩ := handFlip_handsOver (cores := y) (c := s.cur) hn hbar hne hq ⟨hfarms, hheld, hwaits⟩
        (dirtyBytes s h.source n.toNat) 0
      refine ⟨_, rfl, ?_⟩
      simp only [hno, Bool.false_and, Bool.false_eq_true, if_false, hkeys, hy]
      exact ⟨hgiven, hans⟩
    · refine ⟨_, rfl, ?_⟩
      simp only [hpin.mpr hsome, hforce, Bool.not_false, Bool.and_true, if_true]
      exact handBusy_keeps hn hq ⟨hfarms, hheld, hwaits⟩
    · obtain ⟨-, hdie, -⟩ := hcur
      obtain ⟨-, hviq, -, -⟩ := hrest s.cur (by simp [State.strands])
      have ha : Alone { s with cores := x } := ⟨hothers, hrun, hviq, hbte, hcolls⟩
      obtain ⟨c, hkeys, hps, hun⟩ := revokeKeys_alone (f := fun t => t.die == h.source) ha (beq_iff_eq.mpr hdie)
        (stackLo n.toNat) (stackHi n.toNat)
      obtain ⟨y, hy⟩ := shootIn_eq (s.coresOf h.source) (stackLo n.toNat) (stackHi n.toNat) { s with cores := x, cur := c }
      have hu : NothingWaits { s with cores := y, cur := c } := by
        refine ⟨hfarms, hheld, fun t ht => ?_⟩
        simp only [State.strands, hothers, List.mem_singleton] at ht
        rw [ht, hps]
        exact hwaits s.cur (by simp [State.strands])
      obtain ⟨hgiven, hpins, hans⟩ := handFlip_handsOver hn hbar hne hq hu (dirtyBytes s h.source n.toNat)
        (coveringPins s.cur (stackLo n.toNat) (stackHi n.toNat)).length
      refine ⟨_, rfl, ?_⟩
      simp only [hforce, Bool.not_true, Bool.and_false, Bool.false_eq_true, if_false, hkeys, hy]
      refine ⟨hgiven, fun k h1 h8 => ?_, hans⟩
      rw [hpins]
      exact hun k h1 h8

end Sys2Proof.Machine

/-! ## The save area: what reaches it and what is read back (R104, R206 to R209) -/

namespace Sys2Proof.Machine

open Sys2Proof.Claims

/-! ### Architectural values change registers only -/

/-- A strand with other vector and predicate registers and lost rows. -/
def RegsOnly (t u : Strand) : Prop := ∃ v p b, u = { t with v := v, p := p, badRows := b }

theorem RegsOnly.refl (t : Strand) : RegsOnly t t := ⟨t.v, t.p, t.badRows, rfl⟩

theorem RegsOnly.trans {t u w : Strand} (h : RegsOnly t u) (h' : RegsOnly u w) : RegsOnly t w := by
  obtain ⟨v, p, b, rfl⟩ := h
  obtain ⟨v', p', b', rfl⟩ := h'
  exact ⟨v', p', b', rfl⟩

theorem RegsOnly.foldl {α : Type} {f : Strand → α → Strand} (hf : ∀ t x, RegsOnly t (f t x)) (l : List α) (t : Strand) :
    RegsOnly t (l.foldl f t) := by
  induction l generalizing t with
  | nil => exact RegsOnly.refl t
  | cons x l ih => exact (hf t x).trans (ih (f t x))

theorem applyWrite_regsOnly (t : Strand) (w : EWrite) : RegsOnly t (t.applyWrite w) := by
  cases w with
  | v r at_ len val => exact ⟨_, t.p, t.badRows, rfl⟩
  | p r i b =>
    simp only [Strand.applyWrite]
    split
    · exact RegsOnly.refl t
    · exact ⟨t.v, _, t.badRows, rfl⟩

theorem withBadRows_regsOnly (t : Strand) (b : List (Nat × Nat)) : RegsOnly t { t with badRows := b } := ⟨t.v, t.p, b, rfl⟩

theorem applyGroup_regsOnly (t : Strand) (g : GroupRes) : RegsOnly t (t.applyGroup g) := by
  have hw : RegsOnly t (t.applyWrites g.writes) := RegsOnly.foldl applyWrite_regsOnly g.writes t
  unfold Strand.applyGroup
  dsimp only
  split
  · exact hw
  · exact hw.trans (withBadRows_regsOnly _ _)

theorem applyEntry_regsOnly (t : Strand) (e : VEntry) (gs : List GroupRes) : RegsOnly t (t.applyEntry e gs) := by
  have hg : RegsOnly t (t.applyGroups gs) := RegsOnly.foldl applyGroup_regsOnly gs t
  unfold Strand.applyEntry
  dsimp only
  split
  · exact hg
  · exact hg.trans (withBadRows_regsOnly _ _)

theorem architectural_regsOnly (t : Strand) : RegsOnly t t.architectural :=
  RegsOnly.foldl (fun u e => applyEntry_regsOnly u e e.finalGroups) t.viq t

/-! ### A write at a home touches no right, no farm and no strand -/

/-- Two states that judge an access of a save area alike, with the same farms and strands. -/
structure HomesOnly (s u : State) : Prop where
  hbm : u.hbm = s.hbm
  extents : u.extents = s.extents
  farms : u.farms = s.farms
  cur : u.cur = s.cur
  others : u.others = s.others

theorem HomesOnly.refl (s : State) : HomesOnly s s := ⟨rfl, rfl, rfl, rfl, rfl⟩

theorem HomesOnly.trans {s u w : State} (h : HomesOnly s u) (h' : HomesOnly u w) : HomesOnly s w :=
  ⟨h'.hbm.trans h.hbm, h'.extents.trans h.extents, h'.farms.trans h.farms, h'.cur.trans h.cur, h'.others.trans h.others⟩

theorem unpoison_homesOnly (s : State) (k : Nat) : HomesOnly s (s.unpoison k) := by
  unfold State.unpoison
  split
  · exact HomesOnly.refl s
  · split
    · exact HomesOnly.refl s
    · dsimp only
      split
      · obtain ⟨errs, drops, vectors, draws, h⟩ := addError_eq { s with poison := sset none s.poison (lineOf k) none } 3
          (errSource k) 0 0 (lineOf k * 64)
        rw [h]
        exact ⟨rfl, rfl, rfl, rfl, rfl⟩
      · exact ⟨rfl, rfl, rfl, rfl, rfl⟩

theorem markVat_homesOnly (s : State) (k : Nat) : HomesOnly s (s.markVat k) := by
  unfold State.markVat
  split
  · exact ⟨rfl, rfl, rfl, rfl, rfl⟩
  · exact HomesOnly.refl s

theorem writeByte_homesOnly (s : State) (k : Nat) (b : Byte) : HomesOnly s (s.writeByte k b) :=
  (show HomesOnly s { s with mem := memWrite s.mem k b } from ⟨rfl, rfl, rfl, rfl, rfl⟩).trans
    ((markVat_homesOnly _ k).trans (unpoison_homesOnly _ k))

theorem writeBytes_homesOnly (ks : List Nat) (s : State) (bs : List Byte) : HomesOnly s (s.writeBytes ks bs) := by
  induction ks generalizing s bs with
  | nil => exact HomesOnly.refl s
  | cons k ks ih =>
    cases bs with
    | nil => exact HomesOnly.refl s
    | cons b bs => exact (writeByte_homesOnly s k b).trans (ih _ bs)

theorem foldl_homesOnly {α : Type} {f : State → α → State} (hf : ∀ s x, HomesOnly s (f s x)) (l : List α) (s : State) :
    HomesOnly s (l.foldl f s) := by
  induction l generalizing s with
  | nil => exact HomesOnly.refl s
  | cons x l ih => exact (hf s x).trans (ih (f s x))

theorem filterLines_homesOnly (s : State) (keep : Bool) (ls : List Nat) : HomesOnly s (s.filterLines keep ls) := by
  unfold State.filterLines
  split
  · exact foldl_homesOnly (f := fun t c => t.modCore c.1 (Core.giveUp keep ls.contains))
      (fun t c => ⟨rfl, rfl, rfl, rfl, rfl⟩) s.cores s
  · exact HomesOnly.refl s

theorem homeWrite_homesOnly (s : State) (ks : List Nat) (bs : List Byte) : HomesOnly s (s.homeWrite ks bs) :=
  (filterLines_homesOnly s false _).trans (writeBytes_homesOnly ks _ bs)

theorem HomesOnly.physCheck_eq {s u : State} (h : HomesOnly s u) : physCheck u = physCheck s := by
  funext die kind va pa
  have hstack (n : Nat) : u.stack n = s.stack n := stack_congr h.hbm n
  simp only [physCheck, hstack, h.extents]

theorem HomesOnly.saveFrames_eq {s u : State} (h : HomesOnly s u) : u.saveFrames = s.saveFrames := by
  funext t
  rw [State.saveFrames, State.saveFrames, State.farm?, State.farm?, h.farms]

theorem HomesOnly.saveCheck {s u : State} (h : HomesOnly s u) (t : Strand) (kind : AKind) (off : Nat) :
    u.saveCheck t kind off = s.saveCheck t kind off := by
  rw [State.saveCheck, State.saveCheck, h.physCheck_eq, h.saveFrames_eq]

/-! ### Pieces of an area -/

/-- A piece of an area: offset, bytes and value. -/
abbrev Piece := Nat × Nat × Nat

/-- The memory after some pieces are written, whose bytes have the keys `key`. -/
def writePieces (key : Nat → Nat) (m : Memory) (L : List Piece) : Memory :=
  L.foldl (fun m q => memWriteList m ((keysFrom q.1 q.2.1).map key) (leBytes q.2.1 q.2.2)) m

/-- Every byte of an area of n bytes is written under its key. -/
def AreaKeys (s : State) (t : Strand) (key : Nat → Nat) : Prop := ∀ off, off < 2 ^ 20 → s.saveCheck t .write off = .ok (key off)

/-- A piece lies in the area. -/
def Within (q : Piece) : Prop := q.1 + q.2.1 ≤ 2 ^ 20

@[simp] theorem leBytes_length (n x : Nat) : (leBytes n x).length = n := by
  induction n generalizing x with
  | zero => rfl
  | succ n ih => simp [leBytes, ih]

theorem leNat_leBytes (n x : Nat) : leNat (leBytes n x) = x % 2 ^ (8 * n) := by
  induction n generalizing x with
  | zero => simp [leBytes, leNat, Nat.mod_one]
  | succ n ih =>
    have h256 : (2 : Nat) ^ (8 * (n + 1)) = 256 * 2 ^ (8 * n) := by rw [Nat.mul_add, Nat.pow_add]; omega
    rw [leBytes, leNat, ih, h256, Nat.mod_mul, BitVec.toNat_ofNat]

theorem filterMap_zip_ok {f : Except Stop Nat × Byte → Option (Nat × Byte)} (hf : ∀ k b, f (.ok k, b) = some (k, b))
    (ks : List Nat) (bs : List Byte) : ((ks.map Except.ok).zip bs).filterMap f = ks.zip bs := by
  induction ks generalizing bs with
  | nil => rfl
  | cons k ks ih =>
    cases bs with
    | nil => rfl
    | cons b bs => simp [hf, ih]

theorem putSave_reached {s : State} {t : Strand} {key : Nat → Nat} (h : AreaKeys s t key) {off n : Nat} (hn : off + n ≤ 2 ^ 20)
    (x : Nat) : s.putSave t off n x = s.homeWrite ((keysFrom off n).map key) (leBytes n x) := by
  have hcs : (keysFrom off n).map (s.saveCheck t .write) = ((keysFrom off n).map key).map Except.ok := by
    rw [List.map_map]
    exact List.map_congr_left fun o ho => h o ((mem_keysFrom.mp ho).2.trans_le hn)
  have hhold : ((keysFrom off n).map key).any (isHold ∘ Except.ok) = false := List.any_eq_false.mpr fun _ _ => by simp [isHold]
  have hstop : ((keysFrom off n).map key).findSome? (stopOf ∘ Except.ok) = none :=
    List.findSome?_eq_none_iff.mpr fun _ _ => rfl
  unfold State.putSave
  dsimp only
  rw [hcs, List.any_map, hhold, List.findSome?_map, hstop, filterMap_zip_ok fun _ _ => rfl]
  simp [List.map_fst_zip, List.map_snd_zip]

theorem putMany_reached {key : Nat → Nat} {t : Strand} (L : List Piece) : ∀ {s : State}, AreaKeys s t key →
    (∀ q ∈ L, Within q) → HomesOnly s (s.putMany t L) ∧ (s.putMany t L).mem = writePieces key s.mem L := by
  induction L with
  | nil => exact fun _ _ => ⟨HomesOnly.refl _, rfl⟩
  | cons q L ih =>
    intro s hs hL
    obtain ⟨off, n, x⟩ := q
    have hput := putSave_reached hs (hL (off, n, x) (by simp)) x
    have hhome := homeWrite_homesOnly s ((keysFrom off n).map key) (leBytes n x)
    have hs' : AreaKeys (s.homeWrite ((keysFrom off n).map key) (leBytes n x)) t key := fun o ho =>
      (hhome.saveCheck t .write o).trans (hs o ho)
    obtain ⟨h1, h2⟩ := ih hs' fun q hq => hL q (by simp [hq])
    rw [State.putMany, hput]
    exact ⟨hhome.trans h1, by rw [h2, homeWrite_mem]; rfl⟩

theorem putMany_append (t : Strand) (L M : List Piece) (s : State) : s.putMany t (L ++ M) = (s.putMany t L).putMany t M := by
  induction L generalizing s with
  | nil => rfl
  | cons q L ih => exact ih _

/-- Two pieces share no byte. -/
def Apart (q p : Piece) : Prop := q.1 + q.2.1 ≤ p.1 ∨ p.1 + p.2.1 ≤ q.1

theorem keys_nodup {key : Nat → Nat} (hinj : ∀ a b, a < 2 ^ 20 → b < 2 ^ 20 → key a = key b → a = b) {off n : Nat}
    (hn : off + n ≤ 2 ^ 20) : ((keysFrom off n).map key).Nodup := by
  refine List.Nodup.map_on (fun a ha b hb h => hinj a b ?_ ?_ h) (keysFrom_nodup off n)
  · have := (mem_keysFrom.mp ha).2; omega
  · have := (mem_keysFrom.mp hb).2; omega

theorem keys_apart {key : Nat → Nat} (hinj : ∀ a b, a < 2 ^ 20 → b < 2 ^ 20 → key a = key b → a = b) {q p : Piece}
    (hq : Within q) (hp : Within p) (h : Apart q p) : ∀ j ∈ (keysFrom p.1 p.2.1).map key, j ∉ (keysFrom q.1 q.2.1).map key := by
  intro j hj hj'
  obtain ⟨a, ha, rfl⟩ := List.mem_map.mp hj
  obtain ⟨b, hb, hab⟩ := List.mem_map.mp hj'
  obtain ⟨ha1, ha2⟩ := mem_keysFrom.mp ha
  obtain ⟨hb1, hb2⟩ := mem_keysFrom.mp hb
  unfold Within at hq hp
  have := hinj b a (by omega) (by omega) hab
  unfold Apart at h
  omega

/-- A piece that every other one leaves apart, once written, is read back. -/
theorem read_writePieces_kept {key : Nat → Nat} (hinj : ∀ a b, a < 2 ^ 20 → b < 2 ^ 20 → key a = key b → a = b) {p : Piece}
    (hp : Within p) (L : List Piece) : ∀ {m : Memory}, m.wf = true → (∀ q ∈ L, Within q ∧ (q = p ∨ Apart q p)) →
    (p ∈ L ∨ memReadList m ((keysFrom p.1 p.2.1).map key) = leBytes p.2.1 p.2.2) →
    memReadList (writePieces key m L) ((keysFrom p.1 p.2.1).map key) = leBytes p.2.1 p.2.2 := by
  induction L with
  | nil => exact fun _ _ h => h.resolve_left (by simp)
  | cons q L ih =>
    intro m hm hL hread
    obtain ⟨hq, hqp⟩ := hL q (by simp)
    refine ih (m := memWriteList m ((keysFrom q.1 q.2.1).map key) (leBytes q.2.1 q.2.2)) (memWriteList_wf hm _ _)
      (fun q hq => hL q (by simp [hq])) ?_
    by_cases heq : q = p
    · rw [heq]
      exact .inr (memReadList_memWriteList hm (keys_nodup hinj hp) (by simp))
    · refine hread.imp (fun h => ?_) fun h => ?_
      · exact (List.mem_cons.mp h).resolve_left (Ne.symm heq)
      · rw [← h]
        exact List.map_congr_left fun j hj =>
          memRead_memWriteList_other _ _ _ (keys_apart hinj hq hp (hqp.resolve_left heq) j hj)

theorem memRead_writePieces_other {key : Nat → Nat} (L : List Piece) {j : Nat} (hj : ∀ off, off < 2 ^ 20 → key off ≠ j) :
    ∀ {m : Memory}, (∀ q ∈ L, Within q) → memRead (writePieces key m L) j = memRead m j := by
  induction L with
  | nil => exact fun _ => rfl
  | cons q L ih =>
    intro m hL
    have hout : j ∉ (keysFrom q.1 q.2.1).map key := by
      intro hmem
      obtain ⟨a, ha, hk⟩ := List.mem_map.mp hmem
      have hq : q.1 + q.2.1 ≤ 2 ^ 20 := hL q (by simp)
      have := (mem_keysFrom.mp ha).2
      exact hj a (by omega) hk
    exact (ih fun q hq => hL q (by simp [hq])).trans (memRead_memWriteList_other _ _ _ hout)

end Sys2Proof.Machine

/-! ## Settling O47: saving a halted strand, priority aging, quota periods and lane power-up (R78, R86, R88, R92, R206 to R208) -/

namespace Sys2Proof.Machine

open Sys2Proof.Claims

/-! ### Where the pieces of an area lie (R206, R207) -/

/-- The pieces that are read back here, each at a place of its own. -/
inductive Named (a : Strand) (head : Nat) : Piece → Prop
  | header : Named a head (0, 8, head)
  | pc : Named a head (8, 8, a.pc.toNat)
  | gReg (i : Nat) (h : i < 31) : Named a head (0x10 + 8 * i, 8, (a.getG (BitVec.ofNat 5 (i + 1))).toNat)
  | record (n k : Nat) (e : VEntry) (hn : n < 32) (he : a.viq[n]? = some e) (h : k < 16) :
      Named a head (0x1000 + 128 * n + 8 * k, 8, (recordWords e).getD k 0)
  | vReg (n : Nat) (h : n < 32) : Named a head (0x20000 + 4096 * n, areaBytes a n, (a.v.getD n 0).toNat)

/-- Where every other piece lies. -/
def Elsewhere (q : Piece) : Prop := 0x200 ≤ q.1 ∧ q.1 + q.2.1 ≤ 0x1000 ∨ 0x2000 ≤ q.1 ∧ q.1 + q.2.1 ≤ 0x20000 ∨
  0x40000 ≤ q.1 ∧ q.1 + q.2.1 ≤ 0x100000

/-- The header word as the core composes it. -/
def headWord (t : Strand) : Nat :=
  1 + 2 ^ 8 * widthCode t.lgw + 2 ^ 10 * boolNat (t.level == .kernel) + 2 ^ 11 * boolNat t.inHandler
    + 2 ^ 12 * t.viq.length + 2 ^ 18 * t.frozen + 2 ^ 24 * t.rq.length
    + 2 ^ 28 * boolNat (t.pause == .counted)
    + 2 ^ 29 * boolNat (match t.pause with | .arrived _ _ => true | _ => false) + 2 ^ 32 * t.farm

theorem index_lt {α : Type} {l : List α} {n : Nat} {p : α × Nat} (h : p ∈ l.zip (List.range n)) : p.2 < n :=
  List.mem_range.mp (List.of_mem_zip h).2

theorem index_mem {α : Type} {l : List α} {n : Nat} {p : α × Nat} (h : p ∈ l.zip (List.range n)) : p.1 ∈ l :=
  (List.of_mem_zip h).1

section
variable {a : Strand} {head off n x : Nat}

/-- Control registers, read queue, pins, port counts and held lines' numbers. -/
theorem in_control (lo : 0x200 ≤ off) (hi : off + n ≤ 0x1000) : Named a head (off, n, x) ∨ Elsewhere (off, n, x) :=
  .inr (.inl ⟨lo, hi⟩)

/-- Ports, tile and orthogonal records, and held lines. -/
theorem in_engines (lo : 0x2000 ≤ off) (hi : off + n ≤ 0x20000) : Named a head (off, n, x) ∨ Elsewhere (off, n, x) :=
  .inr (.inr (.inl ⟨lo, hi⟩))

/-- Predicates, tile elements and orthogonal vectors. -/
theorem in_wide (lo : 0x40000 ≤ off) (hi : off + n ≤ 0x100000) : Named a head (off, n, x) ∨ Elsewhere (off, n, x) :=
  .inr (.inr (.inr ⟨lo, hi⟩))

end

theorem savePieces_places {a : Strand} (hvl : a.ctl.vl.toNat ≤ 32768) (ho : ∀ o ∈ a.orths, o.k.toNat ≤ 32 ∧ o.n.toNat ≤ 512)
    (maxlg : BitVec 6) : ∀ q ∈ savePieces a maxlg, Named a (headWord a) q ∨ Elsewhere q := by
  intro q hq
  unfold savePieces at hq
  simp only [List.mem_append, List.mem_flatten, List.mem_map, exists_exists_and_eq_and, List.mem_range, List.mem_cons,
    List.not_mem_nil, or_false, or_assoc] at hq
  rcases hq with rfl | rfl | ⟨i, hi, rfl⟩ | ⟨c, hc, rfl⟩ | ⟨p, hp, rfl | rfl⟩ | ⟨i, hi, p, hp, rfl⟩ | ⟨i, hi, rfl⟩ | ⟨i, hi, rfl⟩ |
    rfl | rfl | ⟨i, hi, p, hp, rfl⟩ | ⟨i, hi, p, hp, rfl⟩ | ⟨p, hp, rfl | ⟨r, hr, rfl⟩ | ⟨r, hr, rfl⟩ | ⟨i, hi, rfl⟩⟩ |
    ⟨p, hp, ⟨w, hw, rfl⟩ | ⟨j, hj, r, hr, rfl⟩ | ⟨i, hi, j, hj, rfl⟩⟩ | ⟨p, hp, rfl | rfl | ⟨b, hb, rfl⟩⟩ | ⟨n, hn, rfl⟩ | ⟨i, hi, rfl⟩
  · exact .inl .header
  · exact .inl .pc
  · exact .inl (.gReg i hi)
  · exact in_control (by omega) (by omega)
  · have := index_lt hp
    exact in_control (by omega) (by omega)
  · have := index_lt hp
    exact in_control (by omega) (by omega)
  · have := index_lt hp
    exact in_control (by omega) (by omega)
  · exact in_control (by omega) (by omega)
  · exact in_control (by omega) (by omega)
  · exact in_control (by omega) (by omega)
  · exact in_control (by omega) (by omega)
  · have := index_lt hp
    exact in_engines (by omega) (by omega)
  · have := index_lt hp
    exact in_engines (by omega) (by omega)
  · have := index_lt hp
    exact in_engines (by omega) (by omega)
  · have := index_lt hp
    exact in_engines (by omega) (by omega)
  · have := index_lt hp
    exact in_engines (by omega) (by omega)
  · have := index_lt hp
    exact in_wide (by omega) (by omega)
  · have := index_lt hp
    have := index_lt hw
    exact in_engines (by omega) (by omega)
  · have := index_lt hp
    obtain ⟨hk, hn⟩ := ho p.1 (index_mem hp)
    exact in_wide (by omega) (by omega)
  · have := index_lt hp
    obtain ⟨hk, -⟩ := ho p.1 (index_mem hp)
    exact in_engines (by omega) (by omega)
  · have := index_lt hp
    exact in_engines (by omega) (by omega)
  · have := index_lt hp
    exact in_engines (by omega) (by omega)
  · have := index_lt hp
    have := index_lt hb
    exact in_engines (by omega) (by omega)
  · exact .inl (.vReg n hn)
  · have : ceilDiv a.ctl.vl.toNat 8 ≤ 4096 := by rw [ceilDiv, if_neg (by omega)]; omega
    exact in_wide (by omega) (by omega)

/-- The words of a record as pieces from an offset on (R208). -/
def wordPieces (off : Nat) : List Nat → List Piece
  | [] => []
  | w :: ws => (off, 8, w) :: wordPieces (off + 8) ws

def recordPieces (base : Nat) : List VEntry → List Piece
  | [] => []
  | e :: es => wordPieces base (recordWords e) ++ recordPieces (base + 128) es

theorem putWords_eq_putMany (t : Strand) (ws : List Nat) (s : State) (off : Nat) :
    s.putWords t off ws = s.putMany t (wordPieces off ws) := by
  induction ws generalizing s off with
  | nil => rfl
  | cons w ws ih => exact ih _ _

theorem putRecords_eq_putMany (t : Strand) (es : List VEntry) (s : State) (base : Nat) :
    s.putRecords t base es = s.putMany t (recordPieces base es) := by
  induction es generalizing s base with
  | nil => rfl
  | cons e es ih => rw [State.putRecords, putWords_eq_putMany, ih, recordPieces, putMany_append]

theorem mem_wordPieces {q : Piece} (ws : List Nat) (off : Nat) :
    q ∈ wordPieces off ws ↔ ∃ k, k < ws.length ∧ q = (off + 8 * k, 8, ws.getD k 0) := by
  induction ws generalizing off with
  | nil => simp [wordPieces]
  | cons w ws ih =>
    rw [wordPieces, List.mem_cons, ih]
    constructor
    · rintro (rfl | ⟨k, hk, rfl⟩)
      · exact ⟨0, by simp, rfl⟩
      · exact ⟨k + 1, by simpa using hk, by rw [List.getD_cons_succ, Nat.mul_add, Nat.add_assoc, Nat.add_comm 8]⟩
    · rintro ⟨_ | k, hk, rfl⟩
      · exact .inl rfl
      · exact .inr ⟨k, by simpa using hk, by rw [List.getD_cons_succ, Nat.mul_add, Nat.add_assoc, Nat.add_comm 8]⟩

theorem mem_recordPieces {q : Piece} (es : List VEntry) (base : Nat) : q ∈ recordPieces base es ↔
    ∃ n k e, es[n]? = some e ∧ k < 16 ∧ q = (base + 128 * n + 8 * k, 8, (recordWords e).getD k 0) := by
  induction es generalizing base with
  | nil => simp [recordPieces]
  | cons e es ih =>
    rw [recordPieces, List.mem_append, mem_wordPieces, ih]
    constructor
    · rintro (⟨k, hk, rfl⟩ | ⟨n, k, e', he, hk, rfl⟩)
      · exact ⟨0, k, e, rfl, hk, rfl⟩
      · exact ⟨n + 1, k, e', by simpa using he, hk, by congr 1; omega⟩
    · rintro ⟨_ | n, k, e', he, hk, rfl⟩
      · obtain rfl : e = e' := by simpa using he
        exact .inl ⟨k, hk, rfl⟩
      · exact .inr ⟨n, k, e', by simpa using he, hk, by congr 1; omega⟩

theorem areaBytes_le {a : Strand} (hw : a.lgw ≤ 32) (n : Nat) : areaBytes a n ≤ 4096 := by
  have : areaBytes a n ≤ 128 * a.lgw := Nat.min_le_left _ _
  omega

section
variable {a : Strand} {head : Nat} (hw : a.lgw ≤ 32)
include hw

theorem Named.within {q : Piece} (h : Named a head q) : Within q := by
  unfold Within
  cases h with
  | vReg n hn =>
    have := areaBytes_le hw n
    dsimp only; omega
  | _ => dsimp only; omega

theorem Named.apart_elsewhere {p q : Piece} (hp : Named a head p) (hq : Elsewhere q) : Apart q p := by
  unfold Elsewhere at hq
  unfold Apart
  cases hp with
  | vReg n hn =>
    have := areaBytes_le hw n
    dsimp only; omega
  | _ => dsimp only; omega

theorem Named.same_or_apart {p q : Piece} (hp : Named a head p) (hq : Named a head q) : q = p ∨ Apart q p := by
  unfold Apart
  cases hp with
  | header => cases hq with
    | header => exact .inl rfl
    | _ => right; dsimp only; omega
  | pc => cases hq with
    | pc => exact .inl rfl
    | _ => right; dsimp only; omega
  | gReg i hi => cases hq with
    | gReg j hj =>
      by_cases h : j = i
      · rw [h]; exact .inl rfl
      · right; dsimp only; omega
    | _ => right; dsimp only; omega
  | record n k e hn he hk => cases hq with
    | record m l e' hm he' hl =>
      by_cases h : m = n ∧ l = k
      · obtain ⟨rfl, rfl⟩ := h
        obtain rfl : e' = e := Option.some.inj (he'.symm.trans he)
        exact .inl rfl
      · right; dsimp only; omega
    | _ => right; dsimp only; omega
  | vReg n hn =>
    have hlen := areaBytes_le hw n
    cases hq with
    | vReg m hm =>
      have hlen' := areaBytes_le hw m
      by_cases h : m = n
      · rw [h]; exact .inl rfl
      · right; dsimp only; omega
    | _ => right; dsimp only; omega

end

theorem Elsewhere.within {q : Piece} (h : Elsewhere q) : Within q := by
  unfold Elsewhere at h
  unfold Within
  omega

/-! ### What a save writes -/

/-- The strand whose fields a save writes: registers at their architectural values. -/
def savedRegs (t : Strand) : Strand := { t.architectural with viq := t.viq, savedLines := heldLines t.held }

/-- Its fields other than registers are those of the strand. -/
theorem savedRegs_eq (t : Strand) : ∃ p b, savedRegs t =
    { t with v := t.architectural.v, p := p, badRows := b, savedLines := heldLines t.held } := by
  obtain ⟨v, p, b, h⟩ := architectural_regsOnly t
  exact ⟨p, b, by rw [savedRegs, h]⟩

/-- Every piece that a save writes. -/
def areaPieces (t : Strand) (maxlg : BitVec 6) : List Piece := savePieces (savedRegs t) maxlg ++ recordPieces 0x1000 t.viq

theorem saveStrand_eq (s : State) (t : Strand) : s.saveStrand t = s.putMany t (areaPieces t (s.core t.coreNo).maxlg) := by
  rw [areaPieces, putMany_append, ← putRecords_eq_putMany]
  rfl

theorem areaPieces_places {t : Strand} (hfits : areaFits t) (maxlg : BitVec 6) : ∀ q ∈ areaPieces t maxlg,
    Named (savedRegs t) (headWord (savedRegs t)) q ∨ Elsewhere q := by
  obtain ⟨p, b, ha⟩ := savedRegs_eq t
  obtain ⟨-, hvl, hviq, ho⟩ := hfits
  intro q hq
  rcases List.mem_append.mp hq with h | h
  · exact savePieces_places (by rw [ha]; exact hvl) (by rw [ha]; exact ho) maxlg q h
  · obtain ⟨n, k, e, he, hk, rfl⟩ := (mem_recordPieces _ _).mp h
    have hn := (List.getElem?_eq_some_iff.mp he).1
    exact .inl (.record n k e (by omega) he hk)

/-- A save begins with the header, the pc and the g registers. -/
theorem savePieces_head (a : Strand) (maxlg : BitVec 6) : ∃ rest, savePieces a maxlg =
    [(0, 8, headWord a), (8, 8, a.pc.toNat)] ++
      ((List.range 31).map (fun i => (0x10 + 8 * i, 8, (a.getG (BitVec.ofNat 5 (i + 1))).toNat)) ++ rest) := by
  unfold savePieces
  simp only [List.append_assoc]
  exact ⟨_, rfl⟩

/-- It ends with the vector registers and the predicates. -/
theorem savePieces_tail (a : Strand) (maxlg : BitVec 6) : ∃ front preds, savePieces a maxlg =
    (front ++ (List.range 32).map (fun n => (0x20000 + 4096 * n, areaBytes a n, (a.v.getD n 0).toNat))) ++ preds :=
  ⟨_, _, rfl⟩

theorem named_mem_areaPieces {t : Strand} (maxlg : BitVec 6) {q : Piece} (h : Named (savedRegs t) (headWord (savedRegs t)) q) :
    q ∈ areaPieces t maxlg := by
  obtain ⟨rest, hhead⟩ := savePieces_head (savedRegs t) maxlg
  obtain ⟨front, preds, htail⟩ := savePieces_tail (savedRegs t) maxlg
  cases h with
  | record n k e hn he hk => exact List.mem_append_right _ ((mem_recordPieces _ _).mpr ⟨n, k, e, he, hk, rfl⟩)
  | header => exact List.mem_append_left _ (by rw [hhead]; simp)
  | pc => exact List.mem_append_left _ (by rw [hhead]; simp)
  | gReg i hi =>
    have hmem := List.mem_map_of_mem (f := fun i => (0x10 + 8 * i, 8, ((savedRegs t).getG (BitVec.ofNat 5 (i + 1))).toNat))
      (List.mem_range.mpr hi)
    exact List.mem_append_left _ (by rw [hhead]; exact List.mem_append_right _ (List.mem_append_left _ hmem))
  | vReg n hn =>
    have hmem := List.mem_map_of_mem (f := fun n => (0x20000 + 4096 * n, areaBytes (savedRegs t) n, ((savedRegs t).v.getD n 0).toNat))
      (List.mem_range.mpr hn)
    exact List.mem_append_left _ (by rw [htail]; exact List.mem_append_left _ (List.mem_append_right _ hmem))

/-- A save of a strand whose area its core reaches. -/
structure SavedArea (s u : State) (t : Strand) (key : Nat → Nat) : Prop where
  homes : HomesOnly s u
  readBack : ∀ q, Named (savedRegs t) (headWord (savedRegs t)) q →
    leNat (memReadList u.mem ((keysFrom q.1 q.2.1).map key)) = q.2.2 % 2 ^ (8 * q.2.1)
  outside : ∀ j, (∀ off, off < 2 ^ 20 → key off ≠ j) → memRead u.mem j = memRead s.mem j

theorem saveStrand_savedArea {s : State} {t : Strand} {key : Nat → Nat} (hkey : AreaKeys s t key)
    (hinj : ∀ a b, a < 2 ^ 20 → b < 2 ^ 20 → key a = key b → a = b) (hfits : areaFits t) (hm : MemOk s) :
    SavedArea s (s.saveStrand t) t key := by
  have hw : (savedRegs t).lgw ≤ 32 := by
    obtain ⟨p, b, ha⟩ := savedRegs_eq t
    rw [ha]; exact hfits.1
  have hplaces := areaPieces_places hfits (s.core t.coreNo).maxlg
  have hwithin : ∀ q ∈ areaPieces t (s.core t.coreNo).maxlg, Within q := fun q hq =>
    (hplaces q hq).elim (Named.within hw) Elsewhere.within
  rw [saveStrand_eq]
  obtain ⟨hhomes, hmem⟩ := putMany_reached (areaPieces t (s.core t.coreNo).maxlg) hkey hwithin
  refine ⟨hhomes, fun p hp => ?_, fun j hj => ?_⟩
  · rw [hmem, read_writePieces_kept hinj (hp.within hw) _ hm (fun q hq => ⟨hwithin q hq, ?_⟩)
      (.inl (named_mem_areaPieces _ hp)), leNat_leBytes]
    exact (hplaces q hq).elim (hp.same_or_apart hw) fun h => .inr (hp.apart_elsewhere hw h)
  · rw [hmem]
    exact memRead_writePieces_other _ hj hwithin

/-! ### A saved strand leaves its core (R171, R211) -/

/-- The current strand has left some runs of its core's table: its pins differ in where their runs begin, and those that it
left, or that began at 0, begin at 0. -/
def LeftRuns (ks : List Nat) (s u : State) : Prop := ∃ ps, u = { s with cur := { s.cur with pins := ps } } ∧
  ∀ j, ∃ y, ps.getD j Pin.idle = { s.cur.pins.getD j Pin.idle with xfirst := y } ∧
    (j ∈ ks ∨ (s.cur.pins.getD j Pin.idle).xfirst = 0 → y = 0)

theorem LeftRuns.trans {ks ls : List Nat} {s u w : State} (h : LeftRuns ks s u) (h' : LeftRuns ls u w) :
    LeftRuns (ks ++ ls) s w := by
  obtain ⟨ps, rfl, hps⟩ := h
  obtain ⟨qs, rfl, hqs⟩ := h'
  refine ⟨qs, rfl, fun j => ?_⟩
  obtain ⟨y, hy, hy0⟩ := hps j
  obtain ⟨z, hz, hz0⟩ := hqs j
  refine ⟨z, by rw [hz]; dsimp only; rw [hy], fun hj => hz0 ?_⟩
  dsimp only
  rw [hy]
  rw [List.mem_append, or_assoc] at hj
  rcases hj with hks | hls | hzero
  · exact .inr (hy0 (.inl hks))
  · exact .inl hls
  · exact .inr (hy0 (.inr hzero))

theorem leftRuns_foldl {f : State → Nat → State} {key : Nat}
    (hf : ∀ s k, s.others = [] → s.cur.exists_ = true → s.cur.key = key → LeftRuns [k] s (f s k)) (ks : List Nat) :
    ∀ s : State, s.others = [] → s.cur.exists_ = true → s.cur.key = key → LeftRuns ks s (ks.foldl f s) := by
  induction ks with
  | nil => exact fun s _ _ _ => ⟨s.cur.pins, rfl, fun j => ⟨_, rfl, fun h => h.resolve_left (by simp)⟩⟩
  | cons k ks ih =>
    intro s ho he hk
    have hstep := hf s k ho he hk
    obtain ⟨ps, hps, -⟩ := id hstep
    have hrest := ih (f s k) (by rw [hps]; exact ho) (by rw [hps]; exact he) (by rw [hps]; exact hk)
    exact hstep.trans hrest

theorem movedDown (ps : Vector Pin 8) (first n j : Nat) : ∃ y,
    (ps.map (fun p => if first < p.xfirst.toNat ∧ p.extents ≠ [] then { p with xfirst := p.xfirst - BitVec.ofNat 11 n } else p)).getD
      j Pin.idle = { ps.getD j Pin.idle with xfirst := y } ∧ (j ∈ [] ∨ (ps.getD j Pin.idle).xfirst = 0 → y = 0) := by
  by_cases hj : j < 8
  · have hmap (f : Pin → Pin) : (ps.map f).getD j Pin.idle = f (ps.getD j Pin.idle) := by simp [Vector.getD, hj]
    rw [hmap]
    split
    · next hc => exact ⟨_, rfl, fun h => absurd hc.1 (by simp [h.resolve_left List.not_mem_nil])⟩
    · exact ⟨_, rfl, fun h => h.resolve_left List.not_mem_nil⟩
  · have hidle (qs : Vector Pin 8) : qs.getD j Pin.idle = Pin.idle := by simp [Vector.getD, hj]
    exact ⟨0, by rw [hidle, hidle]; rfl, fun _ => rfl⟩

theorem freeRun_leftRuns {s : State} (ho : s.others = []) (core first n : Nat) : LeftRuns [] s (s.freeRun core first n) := by
  have hsame : ∀ j, ∃ y, s.cur.pins.getD j Pin.idle = { s.cur.pins.getD j Pin.idle with xfirst := y } ∧
      (j ∈ [] ∨ (s.cur.pins.getD j Pin.idle).xfirst = 0 → y = 0) := fun j => ⟨_, rfl, fun h => h.resolve_left (by simp)⟩
  unfold State.freeRun
  split
  · exact ⟨s.cur.pins, rfl, hsame⟩
  · simp only [State.mapStrands, ho, List.map_nil]
    split
    · exact ⟨_, by rw [← ho], fun j => movedDown s.cur.pins first n j⟩
    · exact ⟨s.cur.pins, by rw [← ho], hsame⟩

theorem setPin_leftRuns {s : State} (he : s.cur.exists_ = true) (k : Nat) :
    LeftRuns [k] s (s.setPin s.cur.key k { s.cur.pins.getD k Pin.idle with xfirst := 0 }) := by
  refine ⟨_, modStrand_cur he _, fun j => ?_⟩
  by_cases hj : j < 8
  · by_cases hk : j = k
    · subst hk
      exact ⟨0, by simp [Vector.getD, hj], fun _ => rfl⟩
    · refine ⟨_, ?_, fun h => h.resolve_left (by simpa using hk)⟩
      simp [Vector.getD, hj, Ne.symm hk]
  · exact ⟨0, by simp [Vector.getD, hj, Pin.idle], fun _ => rfl⟩

theorem leaveTable_leftRuns {s : State} (ho : s.others = []) (he : s.cur.exists_ = true) :
    LeftRuns [1, 2, 3, 4, 5, 6, 7] s (s.leaveTable s.cur.key) := by
  refine leftRuns_foldl (key := s.cur.key) (fun u k hu hue hk => ?_) _ s ho he rfl
  have hset := setPin_leftRuns hue k
  have ho' : (u.setPin u.cur.key k { u.cur.pins.getD k Pin.idle with xfirst := 0 }).others = [] := by
    obtain ⟨ps, hps, -⟩ := hset
    rw [hps]; exact hu
  rw [← hk, strand?_cur hue]
  exact hset.trans (freeRun_leftRuns ho' _ _ _)

/-! ### STRAND_SAVE -/

theorem exec_strandSave (core : BitVec 8) (s : State) : exec (.strandSave core) s = execStrandSave core s := rfl

theorem poll_of_not_queued {s : State} (h : ∀ f ∈ s.farms, f.state ≠ .queued) : s.poll = s := by
  have hnone : s.farms.any (fun f => f.state == .queued) = false := List.any_eq_false.mpr fun f hf => by simp [h f hf]
  rw [State.poll, hnone]
  rfl

theorem saveHeld_reached {s : State} {t : Strand} {key : Nat → Nat} (h : AreaKeys s t key) : s.saveHeld t = false := by
  refine List.any_eq_false.mpr fun o ho => ?_
  have hlt : ∀ x ∈ saveProbes, x < 2 ^ 20 := by decide
  rw [h o (hlt o ho)]
  simp [isHold]

theorem saveOne_held {s : State} {t : Strand} (h : s.saveHeld t = true) : s.saveOne t = s := if_pos h

/-- A strand as its save leaves it. -/
structure SavedStrand (t c : Strand) : Prop where
  life : c.life = .saved
  farm : c.farm = t.farm
  viq : c.viq = []
  rq : c.rq = []
  g : c.g = t.g
  pc : c.pc = t.pc
  pins : ∀ k, 1 ≤ k → k < 8 → c.pins.getD k Pin.idle = { t.pins.getD k Pin.idle with xfirst := 0 }

theorem saveOne_alone {s u : State} (hu : s.saveStrand s.cur = u) (ho : s.others = []) (he : s.cur.exists_ = true)
    (hh : s.saveHeld s.cur = false) (hhomes : HomesOnly s u) : ∃ c, s.saveOne s.cur = { u with cur := c } ∧
    SavedStrand s.cur c := by
  obtain ⟨ps, hps, hpins⟩ := leaveTable_leftRuns (hhomes.others.trans ho) (by rw [hhomes.cur]; exact he)
  rw [hhomes.cur] at hps hpins
  have hmod (f : Strand → Strand) : State.modStrand { u with cur := { s.cur with pins := ps } } s.cur.key f =
      { u with cur := f { s.cur with pins := ps } } :=
    modStrand_cur (s := { u with cur := { s.cur with pins := ps } }) he f
  unfold State.saveOne
  rw [if_neg (by simp [hh])]
  dsimp only
  rw [hu, hps, hmod]
  refine ⟨_, rfl, rfl, rfl, rfl, rfl, rfl, rfl, fun k h1 h8 => ?_⟩
  obtain ⟨y, hy, hy0⟩ := hpins k
  rw [hy0 (.inl (by interval_cases k <;> simp))] at hy
  exact hy

section
variable {s : State} {f : Farm} {r : CmdRec}

theorem retireHalted_hold (hf : s.farm? s.cur.farm = some f) (hr : f.halting = .hold r) :
    s.retireHalted s.cur = s.saveOne s.cur := by
  unfold State.retireHalted
  rw [hf]
  split
  · next x heq =>
    have := (Option.some.inj heq).symm ▸ hr
    simp at this
  · rfl

theorem settleHalt_placed (ho : s.others = []) (hid : f.id = s.cur.farm) (hr : f.halting = .hold r) (hl : s.cur.life = .halted) :
    s.settleHalt f = s := by
  refine if_pos (.inr (.inr ?_))
  simp [State.haltsDone, hr, State.strands, ho, hid, Strand.placed, hl]

theorem settleHalt_saved (ho : s.others = []) (hfarms : s.farms = [f]) (hid : f.id = s.cur.farm) (hrun : f.state = .running)
    (hr : f.halting = .hold r) (hl : s.cur.life = .saved) : s.settleHalt f =
    { s with farms := [{ f with state := .held, ready := false, halting := .no }] }.respond r 0 1 0 0 := by
  have hdone : s.haltsDone f = true := by simp [State.haltsDone, hr, State.strands, ho, Strand.placed, hl]
  have hone : (s.savedOf f.id).length = 1 := by
    simp [State.savedOf, State.farmStrands, State.strands, ho, hid, hl, insertByLog]
  unfold State.settleHalt
  rw [if_neg (by simp [hr, hrun, hdone]), hone]
  simp only [hr, State.answerHalt, State.modFarm, hfarms, List.map_cons, List.map_nil, if_true]

theorem findFarm_head {l : List Farm} (hl : l = [f]) (hid : f.id = s.cur.farm) : findFarm s.cur.farm l = some f := by
  rw [hl, findFarm, if_pos hid]

/-- STRAND_SAVE with one halted strand on the core and one farm: the strand is retired, and the farm settled. -/
theorem exec_strandSave_one {w z : State} {core : BitVec 8} (ho : s.others = []) (hl : s.cur.life = .halted)
    (hc : s.cur.coreNo = core.toNat) (hret : s.retireHalted s.cur = w) (hfarms : w.farms = [f]) (hsettle : w.settleHalt f = z)
    (hpoll : z.poll = z) : exec (.strandSave core) s = .next z := by
  have hstrands : s.strands.filter (fun t => t.life == .halted && t.coreNo == core.toNat) = [s.cur] := by
    simp [State.strands, ho, hl, hc]
  rw [exec_strandSave, execStrandSave, hstrands]
  simp only [List.foldl_cons, List.foldl_nil, hret, hfarms, hsettle, hpoll]

theorem exec_strandSave_held {core : BitVec 8} (ho : s.others = []) (hfarms : s.farms = [f]) (hid : f.id = s.cur.farm)
    (hrun : f.state = .running) (hr : f.halting = .hold r) (hl : s.cur.life = .halted) (hc : s.cur.coreNo = core.toNat)
    (hh : s.saveHeld s.cur = true) : exec (.strandSave core) s = .next s :=
  exec_strandSave_one ho hl hc ((retireHalted_hold (findFarm_head hfarms hid) hr).trans (saveOne_held hh)) hfarms
    (settleHalt_placed ho hid hr hl) (poll_of_not_queued (by simp [hfarms, hrun]))

theorem exec_strandSave_saves {u : State} {core : BitVec 8} (hu : s.saveStrand s.cur = u) (ho : s.others = [])
    (hfarms : s.farms = [f]) (hid : f.id = s.cur.farm) (hrun : f.state = .running) (hr : f.halting = .hold r)
    (hl : s.cur.life = .halted) (hc : s.cur.coreNo = core.toNat) (hh : s.saveHeld s.cur = false) (hhomes : HomesOnly s u) :
    ∃ c, SavedStrand s.cur c ∧ exec (.strandSave core) s = .next (State.respond { u with
      cur := c, farms := [{ f with state := .held, ready := false, halting := .no }] } r 0 1 0 0) := by
  have he : s.cur.exists_ = true := by simp [Strand.exists_, hl]
  obtain ⟨c, hsave, hsaved⟩ := saveOne_alone hu ho he hh hhomes
  have hwfarms : ({ u with cur := c } : State).farms = [f] := hhomes.farms.trans hfarms
  refine ⟨c, hsaved, exec_strandSave_one ho hl hc ((retireHalted_hold (findFarm_head hfarms hid) hr).trans hsave) hwfarms
    (settleHalt_saved (hhomes.others.trans ho) hwfarms (hid.trans hsaved.farm.symm) hrun hr hsaved.life)
    (poll_of_not_queued ?_)⟩
  obtain ⟨rp, mx, nt, hresp, -⟩ := respond_eq { u with
    cur := c, farms := [{ f with state := .held, ready := false, halting := .no }] } r 0 1 0 0
  rw [hresp]
  simp

end

theorem headWord_savedRegs (t : Strand) : headWord (savedRegs t) = areaHeader t := by
  obtain ⟨p, b, ha⟩ := savedRegs_eq t
  rw [ha]
  unfold headWord areaHeader boolNat widthCode
  cases t.pause <;> simp

theorem areaNat_eq (s : State) (f : Farm) (m : Memory) (off n : Nat) :
    areaNat s f m off n = leNat (memReadList m ((keysFrom off n).map (areaKey s f))) := by
  rw [areaNat, keysFrom_eq_map, List.map_map]
  rfl

theorem SavedArea.read {s u : State} {f : Farm} (h : SavedArea s u s.cur (areaKey s f)) {off n x : Nat}
    (hq : Named (savedRegs s.cur) (headWord (savedRegs s.cur)) (off, n, x)) : areaNat s f u.mem off n = x % 2 ^ (8 * n) :=
  (areaNat_eq s f u.mem off n).trans (h.readBack _ hq)

/-- What the area of a saved strand reads. -/
theorem SavedArea.reads {s u : State} {f : Farm} (h : SavedArea s u s.cur (areaKey s f)) (hviq : s.cur.viq.length ≤ 32) :
    areaNat s f u.mem 0 8 = areaHeader s.cur % 2 ^ 64 ∧ areaNat s f u.mem 8 8 = s.cur.pc.toNat ∧
    (∀ n, 1 ≤ n → n < 32 → areaNat s f u.mem (0x10 + 8 * (n - 1)) 8 = (s.cur.getG (BitVec.ofNat 5 n)).toNat) ∧
    (∀ n, n < 32 → areaNat s f u.mem (0x20000 + 4096 * n) (areaBytes s.cur n) =
      (s.cur.architectural.v.getD n 0).toNat % 2 ^ (8 * areaBytes s.cur n)) ∧
    (∀ n e k, s.cur.viq[n]? = some e → k < 16 →
      areaNat s f u.mem (0x1000 + 128 * n + 8 * k) 8 = (recordWords e).getD k 0 % 2 ^ 64) := by
  obtain ⟨p, b, ha⟩ := savedRegs_eq s.cur
  have h64 : (2 : Nat) ^ (8 * 8) = 2 ^ 64 := rfl
  have hword (x : Word) : x.toNat % 2 ^ (8 * 8) = x.toNat := Nat.mod_eq_of_lt x.isLt
  refine ⟨?_, ?_, fun n h1 h32 => ?_, fun n hn => ?_, fun n e k he hk => ?_⟩
  · rw [h.read .header, headWord_savedRegs, h64]
  · rw [h.read .pc, hword, ha]
  · have hg := h.read (.gReg (n - 1) (by omega))
    rw [Nat.sub_add_cancel h1, hword, ha] at hg
    exact hg
  · have hv := h.read (.vReg n hn)
    rw [ha] at hv
    exact hv
  · have hn := (List.getElem?_eq_some_iff.mp he).1
    rw [h.read (.record n k e (by omega) he hk), h64]

/-! ### PRIORITY_AGING (R78) -/

theorem le_foldl_after (l : List Farm) (n : Nat) : n ≤ l.foldl (fun n g => Nat.max n (g.order + 1)) n := by
  induction l generalizing n with
  | nil => exact Nat.le_refl n
  | cons g l ih => exact (Nat.le_max_left n _).trans (ih _)

theorem order_lt_foldl_after {l : List Farm} {g : Farm} (h : g ∈ l) (n : Nat) :
    g.order < l.foldl (fun n g => Nat.max n (g.order + 1)) n := by
  induction l generalizing n with
  | nil => cases h
  | cons x l ih =>
    rcases List.mem_cons.mp h with rfl | h
    · exact (Nat.le_max_right n _).trans (le_foldl_after l _)
    · exact ih h _

theorem foldl_front_le (l : List Farm) (n : Nat) : l.foldl (fun n g => Nat.min n g.order) n ≤ n := by
  induction l generalizing n with
  | nil => exact Nat.le_refl n
  | cons g l ih => exact (ih _).trans (Nat.min_le_left n _)

theorem foldl_front_le_order {l : List Farm} {g : Farm} (h : g ∈ l) (n : Nat) :
    l.foldl (fun n g => Nat.min n g.order) n ≤ g.order := by
  induction l generalizing n with
  | nil => cases h
  | cons x l ih =>
    rcases List.mem_cons.mp h with rfl | h
    · exact (foldl_front_le l _).trans (Nat.min_le_right n _)
    · exact ih h _

/-- What becomes of a farm when the one with a number rises to a place: those from that place on move back by one. -/
def risen (id place : Nat) (g : Farm) : Farm :=
  if g.id = id then { g with aged := g.aged + 1, order := place } else if place ≤ g.order then { g with order := g.order + 1 } else g

theorem risen_self {id place : Nat} {g : Farm} (h : g.id = id) : risen id place g = { g with aged := g.aged + 1, order := place } :=
  if_pos h

theorem risen_behind {id place : Nat} {g : Farm} (h : g.id ≠ id) (hp : place ≤ g.order) :
    risen id place g = { g with order := g.order + 1 } := by rw [risen, if_neg h, if_pos hp]

theorem risen_before {id place : Nat} {g : Farm} (h : g.id ≠ id) (hp : g.order < place) : risen id place g = g := by
  rw [risen, if_neg h, if_neg (Nat.not_le.mpr hp)]

theorem risen_other {id place : Nat} {g : Farm} (h : g.id ≠ id) :
    ∃ o, risen id place g = { g with order := o } ∧ (o = g.order ∨ o = g.order + 1) := by
  rcases Nat.lt_or_ge g.order place with hp | hp
  · exact ⟨g.order, risen_before h hp, .inl rfl⟩
  · exact ⟨g.order + 1, risen_behind h hp, .inr rfl⟩

theorem risen_id (id place : Nat) (g : Farm) : (risen id place g).id = g.id := by
  by_cases h : g.id = id
  · rw [risen_self h]
  · obtain ⟨o, ho, -⟩ := risen_other (place := place) h
    rw [ho]

/-- A farm that rises takes a place behind those of its new level that became ready before it, and before all others there
when there is none. -/
theorem rise_eq (s : State) (f : Farm) : ∃ place, s.rise f = { s with
      farms := s.farms.map (risen f.id place), nextOrder := s.nextOrder + 1 } ∧
    (∀ g ∈ s.farms, g.id ≠ f.id → agesWith f g → g.readyAt < f.readyAt → g.order < place) ∧
    ((∀ h ∈ s.farms, h.id ≠ f.id → agesWith f h → f.readyAt ≤ h.readyAt) →
      ∀ g ∈ s.farms, g.id ≠ f.id → agesWith f g → place ≤ g.order) := by
  refine ⟨_, rfl, fun g hg hid hage hready => ?_, fun hnone g hg hid hage => ?_⟩
  all_goals
    have hlevel (h : Farm) : h ∈ s.farms.filter (fun g => g.id != f.id && g.ready && g.state == .queued && g.part == f.part &&
        g.fd.owner == f.fd.owner && g.prio == f.prio + 1) ↔ h ∈ s.farms ∧ h.id ≠ f.id ∧ agesWith f h := by
      simp [List.mem_filter, agesWith, and_assoc]
  · have hbefore : g ∈ (s.farms.filter (fun g => g.id != f.id && g.ready && g.state == .queued && g.part == f.part &&
        g.fd.owner == f.fd.owner && g.prio == f.prio + 1)).filter (fun g => decide (g.readyAt < f.readyAt)) :=
      List.mem_filter.mpr ⟨(hlevel g).mpr ⟨hg, hid, hage⟩, by simpa using hready⟩
    rw [if_neg (List.ne_nil_of_mem hbefore)]
    exact order_lt_foldl_after hbefore 0
  · rw [if_pos]
    · exact foldl_front_le_order ((hlevel g).mpr ⟨hg, hid, hage⟩) s.nextOrder
    · refine List.filter_eq_nil_iff.mpr fun h hh => ?_
      obtain ⟨hmem, hne, ha⟩ := (hlevel h).mp hh
      simpa using hnone h hmem hne ha

theorem findFarm_spec {n : Nat} {l : List Farm} {f : Farm} (h : findFarm n l = some f) : f ∈ l ∧ f.id = n := by
  induction l with
  | nil => cases h
  | cons g l ih =>
    rw [findFarm] at h
    split at h
    · next hid => cases h; exact ⟨by simp, hid⟩
    · obtain ⟨hm, hid⟩ := ih h
      exact ⟨List.mem_cons_of_mem _ hm, hid⟩

/-- The first farm with a number is still the first when farms are changed one by one under their numbers. -/
theorem findFarm_map {n : Nat} {F : Farm → Farm} (hF : ∀ g, (F g).id = g.id) (l : List Farm) :
    findFarm n (l.map F) = (findFarm n l).map F := by
  induction l with
  | nil => rfl
  | cons g l ih =>
    rw [List.map_cons, findFarm, findFarm, hF, ih]
    split <;> rfl

section
variable {s : State} {n : Nat} {f : Farm} {p : Part} (hf : s.farm? n = some f) (hp : s.part? f.part.toNat = some p)
include hf hp

theorem exec_priorityAging : exec (.priorityAging n) s =
    if p.ageLimit = 0 ∨ 7 ≤ f.prio then .next s
    else if f.state = .queued ∧ f.ready = true then .next (s.rise f).poll
    else if f.state = .running then .next { s with
      farms := s.farms.map (fun x => if x.id = n then { x with aged := x.aged + 1 } else x) }
    else .next s := by
  change execPriorityAging n s = _
  unfold execPriorityAging
  rw [hf]
  dsimp only
  rw [hp]
  rfl

end

/-- A ready farm at its new level (R78). -/
theorem rise_level {s : State} {n : Nat} {f : Farm} (hf : s.farm? n = some f) :
    (s.rise f).cur = s.cur ∧ (s.rise f).mem = s.mem ∧
    (∀ g, g ∈ s.farms → g.id ≠ n → ∃ o, { g with order := o } ∈ (s.rise f).farms ∧ (o = g.order ∨ o = g.order + 1)) ∧
    (∀ f', (s.rise f).farm? n = some f' → f' = { f with aged := f.aged + 1, order := f'.order } ∧
      ∀ g ∈ (s.rise f).farms, g.id ≠ n → agesWith f g → (g.readyAt < f.readyAt → g.order < f'.order) ∧
        ((∀ h ∈ s.farms, h.id ≠ n → agesWith f h → f.readyAt ≤ h.readyAt) → f'.order < g.order)) := by
  obtain ⟨-, rfl⟩ := findFarm_spec hf
  obtain ⟨place, hrise, hbehind, hfront⟩ := rise_eq s f
  rw [hrise]
  refine ⟨rfl, rfl, fun g hg hne => ?_, fun f' hf' => ?_⟩
  · obtain ⟨o, ho, hor⟩ := risen_other (place := place) hne
    exact ⟨o, ho ▸ List.mem_map_of_mem hg, hor⟩
  · have hfound : findFarm f.id (s.farms.map (risen f.id place)) = some f' := hf'
    rw [findFarm_map (risen_id f.id place), show findFarm f.id s.farms = some f from hf, Option.map_some, risen_self rfl] at hfound
    obtain rfl := Option.some.inj hfound
    refine ⟨rfl, fun g hg hne hage => ?_⟩
    obtain ⟨g₀, hg₀, rfl⟩ := List.mem_map.mp hg
    rw [risen_id] at hne
    rcases Nat.lt_or_ge g₀.order place with hlt | hge
    · rw [risen_before hne hlt] at hage ⊢
      exact ⟨fun _ => hlt, fun hnone => absurd hlt (Nat.not_lt.mpr (hfront hnone g₀ hg₀ hne hage))⟩
    · rw [risen_behind hne hge] at hage ⊢
      exact ⟨fun hready => absurd (hbehind g₀ hg₀ hne hage hready) (Nat.not_lt.mpr hge), fun _ => Nat.lt_succ_of_le hge⟩

/-- Settles O47: a save writes pieces at places of their own, each of which reads back; a farm that rises takes the place that
R78 gives it; the other steps are their equations. -/
theorem dispatcherSteps : Obligations.DispatcherSteps := by
  unfold Obligations.DispatcherSteps
  refine ⟨fun s core f r ho hfarms hid hrun hr hl hc => ⟨?held, ?saved⟩, ?nobody, ?aging, fun s die => rfl,
    fun s core lane => rfl, fun s h => poll_of_no_farms h⟩
  case held => exact exec_strandSave_held ho hfarms hid hrun hr hl hc
  case saved =>
    intro ⟨hkey, hinj⟩ hfits hm
    have harea := saveStrand_savedArea hkey hinj hfits hm
    obtain ⟨-, -, hviq, -⟩ := id hfits
    generalize hu : s.saveStrand s.cur = u at harea
    obtain ⟨c, hs, hexec⟩ := exec_strandSave_saves hu ho hfarms hid hrun hr hl hc (saveHeld_reached hkey) harea.homes
    obtain ⟨hhead, hpc, hg, hv, hrec⟩ := harea.reads hviq
    exact ⟨_, hexec, rfl, harea.homes.others.trans ho, hs.life, hs.viq, hs.rq, hs.g, hs.pc, hs.pins, hhead, hpc, hg, hv, hrec,
      harea.outside⟩
  case nobody =>
    intro s core ho hfarms hno
    have hstrands : s.strands.filter (fun t => t.life == .halted && t.coreNo == core.toNat) = [] := by
      simp [State.strands, ho]
      tauto
    rw [exec_strandSave, execStrandSave, hstrands]
    simp only [List.foldl_nil, hfarms, poll_of_no_farms hfarms]
  case aging =>
    intro s n f p hf hp
    rw [exec_priorityAging hf hp]
    refine ⟨fun hq hready hlim hprio => ?_, fun hrunning hlim hprio => ?_, fun hno => ?_⟩
    · rw [if_neg (not_or.mpr ⟨hlim, Nat.not_le.mpr hprio⟩), if_pos ⟨hq, hready⟩]
      exact ⟨_, rfl, rise_level hf⟩
    · rw [if_neg (not_or.mpr ⟨hlim, Nat.not_le.mpr hprio⟩), if_neg (by simp [hrunning]), if_pos hrunning]
    · split
      · rfl
      · next hboth =>
        obtain ⟨hwait, hrunning⟩ := hno.resolve_right hboth
        rw [if_neg fun h => hwait.elim (fun hq => hq h.1) (fun hready => by simp [h.2] at hready), if_neg hrunning]

end Sys2Proof.Machine

/-! What sending leaves alone (R24, R26), and a barrier entry read after it is written (R34). -/

namespace Sys2Proof.Machine

open Sys2Proof.Claims

/-! ### Sending -/

/-- The states differ at most in what the sending side of the links holds: flows, wires, payloads that wait for room. -/
def SendsOnly (s t : State) : Prop := ∃ flows wire wait, t = { s with txFlows := flows, wire := wire, txWait := wait }

theorem SendsOnly.refl (s : State) : SendsOnly s s := ⟨s.txFlows, s.wire, s.txWait, rfl⟩

theorem SendsOnly.trans {s t u : State} (hst : SendsOnly s t) (htu : SendsOnly t u) : SendsOnly s u := by
  obtain ⟨_, _, _, rfl⟩ := hst
  obtain ⟨_, _, _, rfl⟩ := htu
  exact ⟨_, _, _, rfl⟩

theorem SendsOnly.foldl {α : Type} {f : State → α → State} (hf : ∀ s a, SendsOnly s (f s a)) (l : List α) (s : State) :
    SendsOnly s (l.foldl f s) :=
  List.foldlRecOn l f (motive := SendsOnly s) (.refl s) (fun t ht a _ => ht.trans (hf t a))

theorem sendsOnly_modTx (s : State) (die : Bool) (flow : BitVec 12) (f : TxFlow → TxFlow) : SendsOnly s (s.modTx die flow f) :=
  ⟨_, _, _, rfl⟩

theorem sendsOnly_putWire (s : State) (die : Bool) (flow : BitVec 12) (fs : List Flit) : SendsOnly s (s.putWire die flow fs) := by
  unfold State.putWire
  split
  · split
    · exact ⟨_, _, _, rfl⟩
    · exact .refl s
  · exact .refl s

theorem sendsOnly_sendFlit (s : State) (die : Bool) (flow : BitVec 12) (kind : BitVec 4) (p : List Byte) :
    SendsOnly s (s.sendFlit die flow kind p).1 := by
  unfold State.sendFlit
  split
  · split
    · exact .refl s
    · split
      · exact ⟨_, _, _, rfl⟩
      · exact (sendsOnly_modTx ..).trans (sendsOnly_putWire ..)
  · exact .refl s

/-! ### Barriers -/

theorem bar_congr {s t : State} (h : t.barriers = s.barriers) (k : Nat) : t.bar k = s.bar k := by rw [State.bar, State.bar, h]

theorem bar_setBar_other (s : State) {j k : Nat} (h : j ≠ k) (b : Barrier) : (s.setBar k b).bar j = s.bar j :=
  sget_sset_other h s.barriers b

/-- An entry that is configured is read back. -/
theorem bar_setBar_of_expected (s : State) (k : Nat) {b : Barrier} (h : b.expected ≠ 0) : (s.setBar k b).bar k = b :=
  sget_sset_of_ne (fun hb => h (congrArg Barrier.expected hb)) _ s.barriers k

/-- A completed barrier's arrival at its parent is a turn, a payload sent or an error record (R35, R38). -/
theorem sendParent_eq (s : State) (die : Bool) (b : Barrier) : ∃ turns flows wire wait errs drops vectors draws,
    s.sendParent die b = { s with
      turns := turns, txFlows := flows, wire := wire, txWait := wait, errors := errs, errDropped := drops, msix := vectors
      free := draws } := by
  unfold State.sendParent
  split
  · exact ⟨_, _, _, _, _, _, _, _, rfl⟩
  · split
    · exact ⟨_, _, _, _, _, _, _, _, rfl⟩
    · obtain ⟨_, _, _, hsent⟩ := sendsOnly_sendFlit s die (flowLabel b.parpkg.toNat b.pardie) 2 (barMessage b.pardie b.paridx)
      split
      · next heq =>
        obtain rfl : _ = _ := heq ▸ hsent
        exact ⟨_, _, _, _, _, _, _, _, rfl⟩
      · next u heq =>
        obtain rfl : u = _ := heq ▸ hsent
        obtain ⟨_, _, _, _, herr⟩ := addError_eq _ 6 (linkNo die 0) 0 b.paridx.toNat 0
        exact ⟨_, _, _, _, _, _, _, _, herr⟩

/-! ### Arrivals and deliveries (R35, R36) -/

/-- A barrier that completes: its phase turns, its arrivals are gone, the die's strands wake, its parent hears of it. -/
theorem settleBar_completes {s : State} {die : Bool} {idx : Nat} {b : Barrier} (hb : s.bar (barKey die idx) = b)
    (hcfg : b.expected ≠ 0) (harr : b.arrived = b.expected) (hpend : b.pending = 0) : s.settleBar die idx =
      ((s.setBar (barKey die idx) { b with phase := !b.phase, arrived := 0 }).wake 2 (fun t => t.die == die)).sendParent die b := by
  subst hb
  exact if_pos ⟨hcfg, harr, hpend⟩

theorem settleBar_waits {s : State} {die : Bool} {idx : Nat} {b : Barrier} (hb : s.bar (barKey die idx) = b)
    (h : b.arrived ≠ b.expected ∨ b.pending ≠ 0) : s.settleBar die idx = s := by
  subst hb
  refine if_neg ?_
  rintro ⟨-, harr, hpend⟩
  exact h.elim (fun h => h harr) (fun h => h hpend)

theorem bar_completed (s : State) (die : Bool) (idx j : Nat) (b c : Barrier) :
    (((s.setBar (barKey die idx) c).wake 2 (fun t => t.die == die)).sendParent die b).bar j =
      (s.setBar (barKey die idx) c).bar j := by
  obtain ⟨_, _, _, _, _, _, _, _, h⟩ := sendParent_eq ((s.setBar (barKey die idx) c).wake 2 (fun t => t.die == die)) die b
  rw [h]
  rfl

theorem settleBar_bar_other (s : State) {die : Bool} {idx j : Nat} (hj : j ≠ barKey die idx) :
    (s.settleBar die idx).bar j = s.bar j := by
  unfold State.settleBar
  dsimp only
  split
  · rw [bar_completed, bar_setBar_other _ hj]
  · rfl

section
variable {s : State} {die : Bool} {idx : Nat} {b : Barrier} (hb : s.bar (barKey die idx) = b) (hcfg : b.expected ≠ 0)
include hb hcfg

/-- An arrival at a configured barrier that has all its arrivals is discarded and sets FAULT (R36). -/
theorem arriveRaw_full (h : b.expected.toNat ≤ b.arrived.toNat) :
    s.arriveRaw die idx = (s.setBar (barKey die idx) { b with fault := true }, true) := by
  subst hb
  exact (if_neg hcfg).trans (if_pos (BitVec.le_def.mpr h))

theorem arriveRaw_counts (h : b.arrived.toNat < b.expected.toNat) :
    s.arriveRaw die idx = ((s.setBar (barKey die idx) { b with arrived := b.arrived + 1 }).settleBar die idx, false) := by
  subst hb
  exact (if_neg hcfg).trans (if_neg (fun hle => absurd (BitVec.le_def.mp hle) (Nat.not_le.mpr h)))

/-- The last arrival, with every announced byte delivered, completes the barrier (R35). -/
theorem arriveRaw_completes (h : b.arrived.toNat + 1 = b.expected.toNat) (hpend : b.pending = 0) :
    s.arriveRaw die idx = ((((s.setBar (barKey die idx) { b with arrived := b.arrived + 1 }).setBar (barKey die idx)
      { b with phase := !b.phase, arrived := 0 }).wake 2 (fun t => t.die == die)).sendParent die { b with arrived := b.arrived + 1 },
      false) := by
  have harr : b.arrived + 1 = b.expected := by
    have := b.expected.isLt
    exact BitVec.eq_of_toNat_eq (by rw [BitVec.toNat_add]; simp; omega)
  rw [arriveRaw_counts hb hcfg (by omega), settleBar_completes
    (bar_setBar_of_expected s _ (b := { b with arrived := b.arrived + 1 }) hcfg) hcfg harr hpend]

/-- An earlier arrival counts. -/
theorem arriveRaw_early (h : b.arrived.toNat < b.expected.toNat) (hno : b.arrived.toNat + 1 ≠ b.expected.toNat ∨ b.pending ≠ 0) :
    s.arriveRaw die idx = (s.setBar (barKey die idx) { b with arrived := b.arrived + 1 }, false) := by
  have hlt := b.expected.isLt
  rw [arriveRaw_counts hb hcfg h, settleBar_waits (bar_setBar_of_expected s _ (b := { b with arrived := b.arrived + 1 }) hcfg)]
  refine hno.imp_left fun hne harr => hne ?_
  have := congrArg BitVec.toNat (show b.arrived + 1 = b.expected from harr)
  rw [BitVec.toNat_add] at this
  simp at this
  omega

end

theorem arriveRaw_bar_other (s : State) {die : Bool} {idx j : Nat} (hj : j ≠ barKey die idx) :
    (s.arriveRaw die idx).1.bar j = s.bar j := by
  unfold State.arriveRaw
  dsimp only
  split
  · split
    · exact bar_setBar_other s hj _
    · exact bar_setBar_other s hj _
  · split
    · exact bar_setBar_other s hj _
    · rw [settleBar_bar_other _ hj, bar_setBar_other s hj]

/-- What a completion leaves of the current strand and of the turns. -/
theorem completed_cur (s : State) (die : Bool) (b : Barrier) (he : s.cur.exists_ = true) (hd : s.cur.die = die) :
    ((s.wake 2 (fun t => t.die == die)).sendParent die b).cur.latch = s.cur.latch ||| 2 := by
  obtain ⟨_, _, _, _, _, _, _, _, h⟩ := sendParent_eq (s.wake 2 (fun t => t.die == die)) die b
  rw [h]
  simp [State.wake, State.mapStrands, he, hd]

/-- Without a parent nothing is sent on, and with one of this package a turn is. -/
theorem completed_turns (s : State) (die : Bool) (b : Barrier) :
    (b.parv = false → ((s.wake 2 (fun t => t.die == die)).sendParent die b).turns = s.turns) ∧
    (b.parv = true → b.parpkg = s.pkgNum → ((s.wake 2 (fun t => t.die == die)).sendParent die b).turns =
      s.turns ++ [.event (.barrierArrival b.pardie b.paridx)]) := by
  unfold State.sendParent
  refine ⟨fun hnone => ?_, fun hparv hpkg => ?_⟩
  · rw [if_pos (by rw [hnone]; rfl)]
    rfl
  · rw [if_neg (by rw [hparv]; decide), if_pos (show b.parpkg = (s.wake 2 (fun t => t.die == die)).pkgNum from hpkg)]
    rfl

theorem deliverBytes_eq {s : State} {die : Bool} {idx n : Nat} {b : Barrier} (hb : s.bar (barKey die idx) = b) :
    s.deliverBytes die idx n =
      (s.setBar (barKey die idx) { b with pending := BitVec.ofNat 40 (b.pending.toNat - n) }).settleBar die idx := by
  subst hb
  rfl

section
variable {s : State} {die : Bool} {idx n : Nat} {b : Barrier} (hb : s.bar (barKey die idx) = b) (hcfg : b.expected ≠ 0)
include hb hcfg

/-- The delivery of the last announced bytes, with every arrival in, completes the barrier (R35). -/
theorem deliverBytes_completes (harr : b.arrived = b.expected) (h : b.pending.toNat ≤ n) :
    (s.deliverBytes die idx n).bar (barKey die idx) = { b with pending := 0, phase := !b.phase, arrived := 0 } := by
  have h0 : BitVec.ofNat 40 (b.pending.toNat - n) = 0 := by rw [Nat.sub_eq_zero_of_le h]; rfl
  rw [deliverBytes_eq hb, h0, settleBar_completes (bar_setBar_of_expected s _ (b := { b with pending := 0 }) hcfg) hcfg harr rfl,
    bar_completed]
  exact bar_setBar_of_expected _ _ hcfg

theorem deliverBytes_lowers (h : b.arrived ≠ b.expected ∨ n < b.pending.toNat) :
    (s.deliverBytes die idx n).bar (barKey die idx) = { b with pending := BitVec.ofNat 40 (b.pending.toNat - n) } := by
  have hread : (s.setBar (barKey die idx) { b with pending := BitVec.ofNat 40 (b.pending.toNat - n) }).bar (barKey die idx) =
    { b with pending := BitVec.ofNat 40 (b.pending.toNat - n) } := bar_setBar_of_expected s _ hcfg
  rw [deliverBytes_eq hb, settleBar_waits hread, hread]
  refine h.imp_right fun hn hzero => ?_
  have hlt := b.pending.isLt
  have := congrArg BitVec.toNat (show BitVec.ofNat 40 (b.pending.toNat - n) = 0 from hzero)
  simp at this
  omega

end

theorem deliverBytes_bar_other (s : State) {die : Bool} {idx j : Nat} (n : Nat) (hj : j ≠ barKey die idx) :
    (s.deliverBytes die idx n).bar j = s.bar j := by
  unfold State.deliverBytes
  dsimp only
  rw [settleBar_bar_other _ hj, bar_setBar_other s hj]

/-! ### Announcements (R36) -/

theorem announce_fits {s : State} {die : Bool} {idx n : Nat} (h : (s.bar (barKey die idx)).pending.toNat + n < 2 ^ 40) :
    s.announce die idx n = some (s.setBar (barKey die idx)
      { s.bar (barKey die idx) with pending := BitVec.ofNat 40 ((s.bar (barKey die idx)).pending.toNat + n) }) :=
  if_neg (Nat.not_le.mpr h)

theorem announce_overflows {s : State} {die : Bool} {idx n : Nat}
    (h : 2 ^ 40 ≤ (s.bar (barKey die idx)).pending.toNat + n) : s.announce die idx n = none := if_pos h

/-! ### Barrier forms and words (R317, R319) -/

theorem barFormGood_iff (x : Word) : barFormGood x = true ↔ goodForm x := by
  have h : x.toNat < 2 ^ 16 ↔ x.toNat / 2 ^ 16 = 0 := by omega
  simp only [barFormGood, goodForm, h, Bool.and_eq_true, decide_eq_true_iff, Bool.not_eq_true', and_assoc]

theorem barConfigOk_iff (x : Word) : barConfigOk x = true ↔ goodConfig x := by
  have h8 : (2 : Nat) ^ 3 = 8 := rfl
  simp only [barConfigOk, goodConfig, fld, h8, Bool.and_eq_true, decide_eq_true_iff, pow_zero, Nat.div_one, and_assoc]

/-- The low sixteen bits of a form keep what it names. -/
theorem getLsbD_form (x : Word) {i : Nat} (h : i < 16) : (BitVec.ofNat 16 x.toNat).getLsbD i = x.getLsbD i := by
  change (x.setWidth 16).getLsbD i = _
  simp [h]

theorem barDie_form (x : Word) : barDie (BitVec.ofNat 16 x.toNat) = formDie x := getLsbD_form x (by decide)

theorem barIdx_form (x : Word) : barIdx (BitVec.ofNat 16 x.toNat) = formIdx x := by
  rw [barIdx, formIdx, BitVec.toNat_ofNat]
  omega

theorem barKey_form (x : Word) : barKey (formDie x) (formIdx x) = formKey x := rfl

/-- An instruction on the barrier that a good form names (R317). -/
theorem onBarrier_good {rs : List Reg} {d a : Reg} {bad : Word} {s : State} {k : State → Bool → Nat → BitVec 16 → Res}
    (hf : Free s (d :: a :: rs)) (hg : goodForm (s.g a)) :
    onBarrier rs d a bad s k = k s (formDie (s.g a)) (formIdx (s.g a)) (BitVec.ofNat 16 (s.g a).toNat) := by
  have hw : (s.g a).setWidth 16 = BitVec.ofNat 16 (s.g a).toNat := rfl
  unfold onBarrier
  rw [withRegs_free (any_pendingG_of_free hf)]
  dsimp only
  rw [if_pos ((barFormGood_iff _).mpr hg), hw, barDie_form, barIdx_form]

theorem onBarrier_bad {rs : List Reg} {d a : Reg} {bad : Word} {s : State} {k : State → Bool → Nat → BitVec 16 → Res}
    (hf : Free s (d :: a :: rs)) (hg : ¬ goodForm (s.g a)) : onBarrier rs d a bad s k = .next (wrote s d bad 4) := by
  unfold onBarrier
  rw [withRegs_free (any_pendingG_of_free hf)]
  dsimp only
  rw [if_neg (mt (barFormGood_iff _).mp hg), retire_eq_wrote]

/-- Whether an arrival is refused is a matter of the entry alone (R36, R37). -/
theorem arriveRaw_refused (s : State) (die : Bool) (idx : Nat) :
    (s.arriveRaw die idx).2 = true ↔ refuses (s.bar (barKey die idx)) := by
  unfold State.arriveRaw refuses
  dsimp only
  split
  · rw [show (0xFFFF : BitVec 16) = BitVec.allOnes 16 by decide]
    split
    · next h => simp only [h]
    · next h => simp only [h, Bool.false_eq_true]
  · rw [← BitVec.le_def]
    split
    · next h => simp [h]
    · next h => simp [h]

theorem released_now {s : State} (h : s.cur.releaseWaits = false) (k : State → Res) : released s k = k s :=
  if_neg (by rw [h]; decide)

theorem released_waits {s : State} (h : s.cur.releaseWaits = true) (k : State → Res) : released s k = .next (waits s) := if_pos h

theorem init_eq (b : Barrier) (x : Word) : b.init x = initialised b x := by
  have h : x.setWidth 16 = BitVec.ofNat 16 (x.toNat % 2 ^ 16) := by bv_omega
  rw [Barrier.init, initialised, h]
  rfl

theorem query_eq (b : Barrier) : b.query = BitVec.ofNat 64 (queried b) := by
  unfold Barrier.query queried wNat
  cases b.fault <;> cases b.phase <;> rfl

/-! ### The instructions at a good form (R318, R361) -/

section
variable {d a b : Reg} {s : State}

theorem exec_barInit (hf : Free s [d, a, b]) (hg : goodForm (s.g a)) : exec (.barInit d a b) s =
    let k := formKey (s.g a)
    if ¬ goodConfig (s.g b) then .next (wrote s d 1 4)
    else if (s.bar k).arrived ≠ 0 ∨ (s.bar k).pending ≠ 0 then .next (wrote s d 2 4)
    else .next (wrote (s.setBar k (initialised (s.bar k) (s.g b))) d 0 4) := by
  have hok : (!barConfigOk (s.g b)) = true ↔ ¬ goodConfig (s.g b) := by rw [← barConfigOk_iff]; simp
  change execBarInit d a b s = _
  rw [execBarInit, onBarrier_good hf hg]
  simp only [barKey_form, hok, retire_eq_wrote, init_eq]
  rfl

theorem exec_barArrive (hf : Free s [d, a]) (hg : goodForm (s.g a)) : exec (.barArrive d a) s =
    if s.cur.releaseWaits = true then .next (waits s)
    else .next ((wrote s d (if refuses (s.bar (formKey (s.g a))) then 2 else 0) 4).arrive (formDie (s.g a)) (formIdx (s.g a))).1 := by
  change execBarArrive d a s = _
  rw [execBarArrive, onBarrier_good hf hg]
  simp only [released, arriveRaw_refused, barKey_form, retire_eq_wrote]
  rfl

theorem exec_barWait (hf : Free s [d, a]) (hg : goodForm (s.g a)) : exec (.barWait d a) s =
    if (s.bar (formKey (s.g a))).phase = (s.g a).getLsbD 14 then .next (wrote s d 0 4) else .next (waits s) := by
  have hmet : s.waitMet (BitVec.ofNat 16 (s.g a).toNat) = true ↔ (s.bar (formKey (s.g a))).phase = (s.g a).getLsbD 14 := by
    obtain ⟨-, hv, -⟩ := hg
    have hv' : barV (BitVec.ofNat 16 (s.g a).toNat) = true := by rw [barV, getLsbD_form _ (by decide), hv]
    rw [State.waitMet, hv', barDie_form, barIdx_form, barKey_form, barPh, getLsbD_form _ (by decide)]
    simp
  change execBarWait d a s = _
  rw [execBarWait, onBarrier_good hf hg]
  simp only [hmet, retire_eq_wrote, stall_eq_waits]
  rfl

theorem exec_barPost_fits (hf : Free s [d, a, b]) (hg : goodForm (s.g a))
    (h : (s.bar (formKey (s.g a))).pending.toNat + (s.g b).toNat < 2 ^ 40) :
    exec (.barPost d a b) s = .next (wrote (s.setBar (formKey (s.g a)) { s.bar (formKey (s.g a)) with
      pending := BitVec.ofNat 40 ((s.bar (formKey (s.g a))).pending.toNat + (s.g b).toNat) }) d 0 4) := by
  change execBarPost d a b s = _
  rw [execBarPost, onBarrier_good hf hg, announce_fits (die := formDie (s.g a)) (idx := formIdx (s.g a)) h]
  exact congrArg _ (retire_eq_wrote ..)

theorem exec_barPost_overflows (hf : Free s [d, a, b]) (hg : goodForm (s.g a))
    (h : 2 ^ 40 ≤ (s.bar (formKey (s.g a))).pending.toNat + (s.g b).toNat) :
    exec (.barPost d a b) s = .next (wrote s d 2 4) := by
  change execBarPost d a b s = _
  rw [execBarPost, onBarrier_good hf hg, announce_overflows (die := formDie (s.g a)) (idx := formIdx (s.g a)) h]
  exact congrArg _ (retire_eq_wrote ..)

theorem exec_barDone (hf : Free s [d, a, b]) (hg : goodForm (s.g a)) (hr : s.cur.releaseWaits = false) :
    exec (.barDone d a b) s =
      if (s.bar (formKey (s.g a))).pending.toNat < (s.g b).toNat then .next (wrote s d 2 4)
      else .next ((wrote s d 0 4).deliver (formDie (s.g a)) (formIdx (s.g a)) (s.g b).toNat) := by
  change execBarDone d a b s = _
  rw [execBarDone, onBarrier_good hf hg, released_now hr]
  simp only [barKey_form, retire_eq_wrote]
  rfl

theorem exec_barQuery (hf : Free s [d, a]) (hg : goodForm (s.g a)) :
    exec (.barQuery d a) s = .next (wrote s d (BitVec.ofNat 64 (queried (s.bar (formKey (s.g a))))) 4) := by
  change execBarQuery d a s = _
  rw [execBarQuery, onBarrier_good hf hg, barKey_form, retire_eq_wrote, query_eq]

/-- The wait part of `bar.arrwait`, in the state after the arrival. -/
theorem afterArrival_eq (u : State) (d : Reg) (f : BitVec 16) (phase : Bool) : u.afterArrival d f phase =
    if (u.bar (barKey (barDie f) (barIdx f))).phase ≠ phase then .next (wrote (paused u .none) d 0 4)
    else .next (waits (paused u (.arrived f phase))) := by
  unfold State.afterArrival
  simp only [bne_iff_ne, retire_eq_wrote, stall_eq_waits]
  rfl

/-- A `bar.arrwait` that has not arrived does not look at its pause. -/
theorem exec_barArrwait_first (hp : ∀ f p, s.cur.pause ≠ .arrived f p) : exec (.barArrwait d a) s =
    onBarrier [] d a bBADFORM s (fun s die idx f => released s (fun s =>
      let phase := (s.bar (barKey die idx)).phase
      let r := (paused s (.arrived f phase)).arrive die idx
      if r.2 then .next (((s.retire d bREFUSED 4).arrive die idx).1) else r.1.afterArrival d f phase)) := by
  change execBarArrwait d a s = _
  unfold execBarArrwait
  split
  · next f p h => exact absurd h (hp f p)
  · rfl

theorem exec_barArrwait_arrives (hf : Free s [d, a]) (hg : goodForm (s.g a)) (hp : ∀ f p, s.cur.pause ≠ .arrived f p)
    (hr : s.cur.releaseWaits = false) : exec (.barArrwait d a) s =
      let e := s.bar (formKey (s.g a))
      let f := BitVec.ofNat 16 (s.g a).toNat
      let u := ((paused s (.arrived f e.phase)).arrive (formDie (s.g a)) (formIdx (s.g a))).1
      if refuses e then .next ((wrote s d 2 4).arrive (formDie (s.g a)) (formIdx (s.g a))).1
      else if (u.bar (formKey (s.g a))).phase ≠ e.phase then .next (wrote (paused u .none) d 0 4)
      else .next (waits (paused u (.arrived f e.phase))) := by
  have hrefuse (p : Pause) : ((paused s p).arrive (formDie (s.g a)) (formIdx (s.g a))).2 = true ↔
      refuses (s.bar (formKey (s.g a))) := arriveRaw_refused (paused s p) _ _
  rw [exec_barArrwait_first hp, onBarrier_good hf hg, released_now hr]
  simp only [barKey_form, hrefuse, retire_eq_wrote, afterArrival_eq, barDie_form, barIdx_form]
  rfl

/-- One that has arrived goes on once the phase has changed (R361). -/
theorem exec_barArrwait_again {f : BitVec 16} {phase : Bool} (hf : Free s [d, a]) (hp : s.cur.pause = .arrived f phase) :
    exec (.barArrwait d a) s =
      if (s.bar (barKey (barDie f) (barIdx f))).phase ≠ phase then .next (wrote (paused s .none) d 0 4)
      else .next (waits s) := by
  have hsame : paused s (.arrived f phase) = s := by rw [← hp]; rfl
  change execBarArrwait d a s = _
  unfold execBarArrwait
  rw [hp]
  dsimp only
  rw [withRegs_free (any_pendingG_of_free hf), afterArrival_eq, hsame]

end

/-- Settles O19: each instruction by the equation of its decisions, then an arrival and a delivery case by case. -/
theorem barrierInstructionResults : Obligations.BarrierInstructionResults := by
  unfold Obligations.BarrierInstructionResults
  refine ⟨?good, ⟨?bad, ?arrives, ?again⟩, ?arrival, ?delivery, fun die idx s => rfl⟩
  case good =>
    intro d a b s hf hg k e
    have hf2 : Free s [d, a] := fun r hr => hf r (by simp only [List.mem_cons] at hr ⊢; tauto)
    rw [exec_barInit hf hg, exec_barArrive hf2 hg, exec_barWait hf2 hg]
    refine ⟨fun hc => if_pos hc, fun hc ha hp => ?_, fun hc hbusy => ?_, fun hr href => ?_, fun hr href => ?_, fun hr => if_pos hr,
      fun hph => if_pos hph, fun hph => if_neg hph, exec_barPost_fits hf hg, exec_barPost_overflows hf hg,
      fun hr hle => ?_, fun hr hlt => ?_, exec_barQuery hf2 hg⟩
    · exact (if_neg (not_not.mpr hc)).trans (if_neg (by rintro (h | h); exacts [h ha, h hp]))
    · exact (if_neg (not_not.mpr hc)).trans (if_pos hbusy)
    · rw [if_neg (ne_true_of_eq_false hr), if_pos href]
    · rw [if_neg (ne_true_of_eq_false hr), if_neg href]
    · rw [exec_barDone hf hg hr, if_neg (Nat.not_lt.mpr hle)]
    · rw [exec_barDone hf hg hr, if_pos hlt]
  case bad =>
    intro d a b s hf hg
    have hf2 : Free s [d, a] := fun r hr => hf r (by simp only [List.mem_cons] at hr ⊢; tauto)
    have bad (bad : Word) (k : State → Bool → Nat → BitVec 16 → Res) := onBarrier_bad (bad := bad) (k := k) hf2 hg
    have badWord (bad : Word) (k : State → Bool → Nat → BitVec 16 → Res) := onBarrier_bad (bad := bad) (k := k) hf hg
    refine ⟨?_, ?_, ?_, ?_, ?_, fun hp => (exec_barArrwait_first hp).trans (bad _ _), ?_⟩
    · exact (badWord _ _ : execBarInit d a b s = _)
    · exact (bad _ _ : execBarArrive d a s = _)
    · exact (bad _ _ : execBarWait d a s = _)
    · exact (badWord _ _ : execBarPost d a b s = _)
    · exact (badWord _ _ : execBarDone d a b s = _)
    · exact (bad _ _ : execBarQuery d a s = _)
  case arrives =>
    intro d a s hf hg hp hr e f u
    rw [exec_barArrwait_arrives hf hg hp hr]
    exact ⟨fun href => if_pos href, fun href hph => (if_neg href).trans (if_pos hph),
      fun href hph => (if_neg href).trans (if_neg (not_not.mpr hph))⟩
  case again =>
    intro d a f phase s hf hp k
    rw [exec_barArrwait_again hf hp]
    exact ⟨fun hph => if_pos hph, fun hph => if_neg (not_not.mpr hph)⟩
  case arrival =>
    intro s die idx k b t hcfg
    refine ⟨fun hfull => ?_, fun hlast hpend => ?_, fun hlt hno => ?_, fun j hj => arriveRaw_bar_other s hj⟩
    · have h := arriveRaw_full (s := s) rfl hcfg hfull
      have ht : t = _ := congrArg Prod.fst h
      rw [ht]
      exact ⟨congrArg Prod.snd h, bar_setBar_of_expected s k hcfg⟩
    · have h := arriveRaw_completes (s := s) rfl hcfg hlast hpend
      have ht : t = _ := congrArg Prod.fst h
      refine ⟨congrArg Prod.snd h, ?_, fun he hd => ?_, fun hparv => ?_, fun hparv hpkg => ?_⟩
      all_goals rw [ht]
      · exact (bar_completed _ die idx k _ _).trans (bar_setBar_of_expected _ k hcfg)
      · exact completed_cur _ die _ he hd
      · exact (completed_turns _ die _).1 hparv
      · exact (completed_turns _ die _).2 hparv hpkg
    · have h := arriveRaw_early (s := s) rfl hcfg hlt hno
      have ht : t = _ := congrArg Prod.fst h
      rw [ht]
      exact ⟨congrArg Prod.snd h, bar_setBar_of_expected s k hcfg⟩
  case delivery =>
    intro s die idx n k b t hcfg
    exact ⟨deliverBytes_completes rfl hcfg, deliverBytes_lowers rfl hcfg, fun j hj => deliverBytes_bar_other s n hj⟩

end Sys2Proof.Machine

/-! How a collective command goes on (R25, R313, R314): what its stages, a status told and its end come to. -/

namespace Sys2Proof.Machine

open Sys2Proof.Claims

/-! ### Sending to the other ranks -/

theorem sendsOnly_sendRanks (s : State) (die : Bool) (comm rank : BitVec 16) (kind : BitVec 4) (ps : List (List Byte)) :
    SendsOnly s (s.sendRanks die comm rank kind ps).1 := by
  unfold State.sendRanks
  have inner (m : Member) (ps : List (List Byte)) : ∀ a : State × Bool, SendsOnly a.1 (ps.foldl (fun a p =>
      ((a.1.sendFlit die (flowLabel m.pkg.toNat m.mdie) kind p).1,
        a.2 && (a.1.sendFlit die (flowLabel m.pkg.toNat m.mdie) kind p).2)) a).1 := by
    induction ps with
    | nil => exact fun a => .refl a.1
    | cons p ps ih => exact fun a => (sendsOnly_sendFlit ..).trans (ih _)
  generalize (s.commOf die comm).filter (fun m => m.rank != rank) = ms
  have outer (ms : List Member) : ∀ a : State × Bool, SendsOnly a.1 (ms.foldl (fun a m => ps.foldl (fun a p =>
      ((a.1.sendFlit die (flowLabel m.pkg.toNat m.mdie) kind p).1,
        a.2 && (a.1.sendFlit die (flowLabel m.pkg.toNat m.mdie) kind p).2)) a) a).1 := by
    induction ms with
    | nil => exact fun a => .refl a.1
    | cons m ms ih => exact fun a => (inner m ps a).trans (ih _)
  exact outer ms (s, true)

/-- A rank alone in its communicator sends nothing. -/
theorem sendRanks_alone {s : State} {die : Bool} {comm rank : BitVec 16} (hn : (s.commOf die comm).length = 1)
    (hr : s.ownRank die comm = some rank) (kind : BitVec 4) (ps : List (List Byte)) :
    s.sendRanks die comm rank kind ps = (s, true) := by
  obtain ⟨m, hm⟩ := List.length_eq_one_iff.mp hn
  have hrank : m.rank = rank := by
    rw [State.ownRank, hm, List.find?_singleton] at hr
    split at hr
    · exact Option.some.inj hr
    · cases hr
  unfold State.sendRanks
  rw [hm, List.filter_singleton, hrank]
  simp

/-! ### Statuses -/

theorem failing_iff (st : BitVec 8) : failing st = true ↔ st ≠ 0 ∧ st ≠ 5 := by
  have h5 : st.toNat = xBADCOUNT ↔ st = 5 := ⟨fun h => BitVec.eq_of_toNat_eq h, fun h => by rw [h]; rfl⟩
  rw [failing, Bool.and_eq_true, bne_iff_ne, bne_iff_ne, Ne, Ne, Ne, h5]

theorem failing_false_iff (st : BitVec 8) : failing st = false ↔ st = 0 ∨ st = 5 := by
  rw [← Bool.not_eq_true, failing_iff]
  tauto

/-- A step of the search for the status of the lowest rank. -/
def lowerRank (o : Option (BitVec 16 × BitVec 8)) (e : BitVec 16 × BitVec 8) : Option (BitVec 16 × BitVec 8) :=
  match o with
  | none => some e
  | some f => if e.1.toNat < f.1.toNat then some e else some f

/-- The search finds the status of the lowest rank, however far it has come. -/
theorem foldl_lowerRank {x : BitVec 16 × BitVec 8} (l : List (BitVec 16 × BitVec 8)) : ∀ o : Option (BitVec 16 × BitVec 8),
    (∀ y ∈ l, y = x ∨ x.1.toNat < y.1.toNat) → (∀ f, o = some f → f = x ∨ x.1.toNat < f.1.toNat) → x ∈ l ∨ o = some x →
    l.foldl lowerRank o = some x := by
  induction l with
  | nil => exact fun o _ _ h => h.resolve_left (by simp)
  | cons e l ih =>
    intro o hl ho hx
    have he := hl e (by simp)
    rw [List.foldl_cons]
    have hstep (z : BitVec 16 × BitVec 8) (hz : z = x ∨ x.1.toNat < z.1.toNat) (hin : x ∈ l ∨ z = x) := ih (some z) (fun y hy => hl y (by simp [hy]))
      (fun f hf => Option.some.inj hf ▸ hz) (hin.imp_right (congrArg some))
    cases o with
    | none =>
      refine hstep e he ?_
      rcases hx with hx | hx
      · exact (List.mem_cons.mp hx).symm.imp_right Eq.symm
      · cases hx
    | some f =>
      have hf := ho f rfl
      rw [lowerRank]
      split
      · next hlt =>
        refine hstep e he ?_
        rcases hx with hx | hx
        · exact (List.mem_cons.mp hx).symm.imp_right Eq.symm
        · cases hx
          rcases he with rfl | he
          · exact .inr rfl
          · omega
      · next hge =>
        refine hstep f hf ?_
        rcases hx with hx | hx
        · rcases List.mem_cons.mp hx with rfl | hx
          · rcases hf with rfl | hf
            · exact .inr rfl
            · omega
          · exact .inl hx
        · exact .inr (Option.some.inj hx)

/-- Among the ranks' statuses the failing one of the lowest rank counts (R25, log 20). -/
theorem verdict_lowest {c : CollCmd} {x : BitVec 16 × BitVec 8} (hx : x ∈ c.ended) (hfail : failing x.2 = true)
    (hlow : ∀ y ∈ c.ended, y = x ∨ failing y.2 = false ∨ x.1.toNat < y.1.toNat) : c.verdict = x.2 := by
  have hfold := foldl_lowerRank (x := x) (c.ended.filter (fun e => failing e.2)) none
    (fun y hy => by
      obtain ⟨hmem, hy⟩ := List.mem_filter.mp hy
      rcases hlow y hmem with h | h | h
      · exact .inl h
      · simp [h] at hy
      · exact .inr h)
    (fun f hf => nomatch hf) (.inl (List.mem_filter.mpr ⟨hx, hfail⟩))
  exact congrArg (fun o : Option (BitVec 16 × BitVec 8) => match o with | some e => e.2 | none => 0) hfold

theorem verdict_ok {c : CollCmd} (h : ∀ y ∈ c.ended, failing y.2 = false) : c.verdict = 0 := by
  have hnone : c.ended.filter (fun e => failing e.2) = [] := List.filter_eq_nil_iff.mpr fun y hy => by simp [h y hy]
  unfold CollCmd.verdict
  rw [hnone]
  rfl

/-! ### Commands by communicator and number -/

theorem same_iff {c : CollCmd} {die : Bool} {comm : BitVec 16} {k : BitVec 32} :
    c.same die comm k = true ↔ c.die = die ∧ c.comm = comm ∧ c.k = k := by
  simp [CollCmd.same, and_assoc]

theorem find?_map_replace {α : Type} {p : α → Bool} {l : List α} {c c' : α} (h : l.find? p = some c) (hc : p c' = true) :
    (l.map (fun x => if p x then c' else x)).find? p = some c' := by
  induction l with
  | nil => cases h
  | cons x l ih =>
    rw [List.map_cons, List.find?_cons]
    cases hx : p x with
    | true => simp [hc]
    | false =>
      rw [List.find?_cons, hx] at h
      simpa [hx] using ih h

/-- The same command, whatever has come of it. -/
abbrev SameCmd (c c' : CollCmd) : Prop := c'.die = c.die ∧ c'.comm = c.comm ∧ c'.k = c.k

section
variable {s : State} {die : Bool} {comm : BitVec 16} {k : BitVec 32} {c c' : CollCmd}

theorem coll?_same (h : s.coll? die comm k = some c) : c.die = die ∧ c.comm = comm ∧ c.k = k :=
  same_iff.mp (by simpa using List.find?_some h)

theorem coll?_modColl (h : s.coll? c.die c.comm c.k = some c) (hsame : SameCmd c c') :
    (s.modColl c').coll? c.die c.comm c.k = some c' := by
  obtain ⟨hd, hc, hk⟩ := hsame
  unfold State.coll? State.modColl
  rw [hd, hc, hk]
  exact find?_map_replace h (same_iff.mpr ⟨hd, hc, hk⟩)

theorem modColl_modColl (hsame : SameCmd c c') : (s.modColl c).modColl c' = s.modColl c' := by
  obtain ⟨hd, hc, hk⟩ := hsame
  unfold State.modColl
  rw [hd, hc, hk]
  simp only [List.map_map]
  congr 1
  refine List.map_congr_left fun x _ => ?_
  by_cases hx : x.same c.die c.comm c.k = true
  · have hself : c.same c.die c.comm c.k = true := same_iff.mpr ⟨rfl, rfl, rfl⟩
    simp [hx, hself]
  · simp [hx]

theorem coll?_congr {t : State} (h : t.colls = s.colls) : t.coll? die comm k = s.coll? die comm k := by
  rw [State.coll?, State.coll?, h]

theorem commOf_congr {t : State} (h : t.members = s.members) : t.commOf die comm = s.commOf die comm := by
  rw [State.commOf, State.commOf, h]

end

/-! ### The end of a command -/

/-- Completions change strands and what waits for room in a pop port. -/
def GivesOnly (s t : State) : Prop := ∃ cur others done, t = { s with cur := cur, others := others, engineDone := done }

theorem GivesOnly.trans {s t u : State} (hst : GivesOnly s t) (htu : GivesOnly t u) : GivesOnly s u := by
  obtain ⟨_, _, _, rfl⟩ := hst
  obtain ⟨_, _, _, rfl⟩ := htu
  exact ⟨_, _, _, rfl⟩

theorem givesOnly_modStrand (s : State) (k : Nat) (f : Strand → Strand) : GivesOnly s (s.modStrand k f) := by
  unfold State.modStrand
  split <;> exact ⟨_, _, _, rfl⟩

theorem givesOnly_giveDone (l : List EngineDone) : ∀ s : State, GivesOnly s (s.giveDone l) := by
  induction l with
  | nil => exact fun s => ⟨_, _, _, rfl⟩
  | cons d l ih =>
    intro s
    unfold State.giveDone
    generalize (if d.coll then 3 else 1) = n
    dsimp only
    split
    · exact ih s
    · split
      · exact ih s
      · split
        · exact (givesOnly_modStrand ..).trans (ih _)
        · exact .trans ⟨_, _, _, rfl⟩ (ih _)

theorem givesOnly_giveAll (s : State) : GivesOnly s s.giveAll := by
  unfold State.giveAll
  split
  · exact ⟨_, _, _, rfl⟩
  · exact .trans ⟨_, _, _, rfl⟩ (givesOnly_giveDone _ _)

theorem endColl_colls (s : State) (c : CollCmd) (status reason : Nat) :
    (s.endColl c status reason).colls = s.colls.filter (fun x => !x.same c.die c.comm c.k) := by
  unfold State.endColl
  obtain ⟨_, _, _, h⟩ := givesOnly_giveAll { s with
    colls := s.colls.filter (fun x => !x.same c.die c.comm c.k)
    engineDone := s.engineDone ++ [{ key := c.key, coll := true, w0 := doneWord c.tag reason c.fl.toNat status, w1 := wNat c.delivered }] }
  dsimp only
  rw [h]

theorem endColl_collEarly (s : State) (c : CollCmd) (status reason : Nat) :
    (s.endColl c status reason).collEarly = s.collEarly := by
  unfold State.endColl
  obtain ⟨_, _, _, h⟩ := givesOnly_giveAll { s with
    colls := s.colls.filter (fun x => !x.same c.die c.comm c.k)
    engineDone := s.engineDone ++ [{ key := c.key, coll := true, w0 := doneWord c.tag reason c.fl.toNat status, w1 := wNat c.delivered }] }
  dsimp only
  rw [h]

/-- A command that has ended is none of the engine's. -/
theorem coll?_endColl (s : State) (c : CollCmd) (status reason : Nat) :
    (s.endColl c status reason).coll? c.die c.comm c.k = none := by
  rw [State.coll?, endColl_colls, List.find?_eq_none]
  intro x hx
  simpa using (List.mem_filter.mp hx).2

/-! ### Stages -/

section
variable {s : State} {die : Bool} {comm : BitVec 16} {k : BitVec 32} {c : CollCmd}

theorem collStage_none (h : s.coll? die comm k = none) : s.collStage die comm k = s := by
  unfold State.collStage
  rw [h]

/-- A command whose next stage leads to one that goes no further. -/
theorem collGo_of_collStage {t : State} (h : s.collStage die comm k = t) (ht : t.collStage die comm k = t) :
    s.collGo die comm k = t := by
  rw [State.collGo, h, ht, ht]

theorem collGo_ended {t : State} {status reason : Nat} (h : s.collStage c.die c.comm c.k = t.endColl c status reason) :
    s.collGo c.die c.comm c.k = t.endColl c status reason :=
  collGo_of_collStage h (collStage_none (coll?_endColl ..))

variable (hc : s.coll? die comm k = some c)
include hc

/-- A command waits for the records of the other ranks. -/
theorem collStage_unseen (h0 : c.stage = 0) (hn : c.seen.length < (s.commOf die comm).length) : s.collStage die comm k = s := by
  unfold State.collStage
  rw [hc]
  dsimp only
  split
  · rfl
  · rw [h0]
    exact if_pos hn

theorem collStage_late (h2 : 2 ≤ c.stage) : s.collStage die comm k = s ∨ s.collStage die comm k = s.judgeColl c := by
  obtain ⟨m, hm⟩ : ∃ m, c.stage = m + 2 := ⟨c.stage - 2, by omega⟩
  unfold State.collStage
  rw [hc]
  dsimp only
  split
  · exact .inl rfl
  · rw [hm]
    exact .inr rfl

variable {t : Strand} (ht : s.strand? c.key = some t)
include ht

theorem collStage_judges (h2 : 2 ≤ c.stage) : s.collStage die comm k = s.judgeColl c := by
  obtain ⟨m, hm⟩ : ∃ m, c.stage = m + 2 := ⟨c.stage - 2, by omega⟩
  unfold State.collStage
  rw [hc]
  dsimp only
  rw [ht, hm]
  rfl

theorem collStage_differs (h0 : c.stage = 0) (hn : (s.commOf die comm).length ≤ c.seen.length) (ha : c.agreed = false) :
    s.collStage die comm k = s.rankFail c 2 0 := by
  unfold State.collStage
  rw [hc]
  dsimp only
  rw [ht, h0]
  dsimp only
  rw [if_neg (Nat.not_lt.mpr hn), ha]
  rfl

/-- A BARRIER whose ranks have all arrived arrives at its own barrier and completes (R314). -/
theorem collStage_barrier (h0 : c.stage = 0) (hn : (s.commOf die comm).length ≤ c.seen.length) (ha : c.agreed = true)
    (hop : c.op = 4) : s.collStage die comm k =
      (if c.bar.getLsbD 15 then (s.arrive (c.bar.getLsbD 12) (c.bar.toNat % 4096)).1 else s).endColl c 0 0 := by
  unfold State.collStage
  rw [hc]
  dsimp only
  rw [ht, h0]
  dsimp only
  rw [if_neg (Nat.not_lt.mpr hn), ha, if_neg (by decide), if_pos hop]
  rfl

end

/-! ### Statuses told and judged -/

theorem judgeColl_waits {s : State} {c : CollCmd} (h : c.ended.length < (s.commOf c.die c.comm).length) : s.judgeColl c = s :=
  if_pos h

theorem judgeColl_ok {s : State} {c : CollCmd} (h : (s.commOf c.die c.comm).length ≤ c.ended.length) (hv : c.verdict = 0) :
    s.judgeColl c = s.endColl c 0 0 :=
  (if_neg (Nat.not_lt.mpr h)).trans (if_pos hv)

theorem judgeColl_fails {s : State} {c : CollCmd} (h : (s.commOf c.die c.comm).length ≤ c.ended.length) (hv : c.verdict ≠ 0) :
    s.judgeColl c = s.failColl c c.verdict.toNat (if c.verdict = c.status then c.reason.toNat else 0) :=
  (if_neg (Nat.not_lt.mpr h)).trans (if_neg hv)

/-- The command as its rank fails with a status. -/
def failedAs (c : CollCmd) (st : BitVec 8) (reason : Nat) : CollCmd :=
  { c with
    stage := if c.stage = 4 then 4 else 3, status := st, reason := BitVec.ofNat 8 reason, ended := noteStatus c.ended c.rank st }

theorem tell_eq (s : State) (c : CollCmd) (st : Nat) :
    s.tell c st = s.sendRanks c.die c.comm c.rank 4 [ctlBytes (statusRecord c st)] := rfl

/-- A rank that fails tells the others, where their flows stand, and waits for their statuses. -/
theorem rankFail_told {s v : State} {c : CollCmd} {status reason : Nat} (h6 : status ≠ 6)
    (hv : v = (if stops status then s.settleColl c status else s).modColl (failedAs c (BitVec.ofNat 8 status) reason))
    (hsent : (v.sendRanks c.die c.comm c.rank 4 [ctlBytes (statusRecord c status)]).2 = true) :
    s.rankFail c status reason = (v.sendRanks c.die c.comm c.rank 4 [ctlBytes (statusRecord c status)]).1.judgeColl
      (failedAs c (BitVec.ofNat 8 status) reason) := by
  subst hv
  unfold State.rankFail
  exact if_pos ⟨hsent, h6⟩

end Sys2Proof.Machine

/-! Receiving on a link (R23, R24, R27, R29). -/

namespace Sys2Proof.Machine

open Sys2Proof.Claims

/-! ### Links -/

theorem link_modLink_same (s : State) {n : Nat} (h : n < 36) (f : Link → Link) : (s.modLink n f).link n = f (s.link n) := by
  simp [State.modLink, State.link, Vector.getD, h]

theorem link_modLink_other (s : State) {m n : Nat} (h : m ≠ n) (f : Link → Link) : (s.modLink n f).link m = s.link m := by
  unfold State.link State.modLink
  by_cases hm : m < 36
  · simp [Vector.getD, hm, h.symm]
  · simp [Vector.getD, hm]

theorem link_congr {s t : State} (h : t.links = s.links) (n : Nat) : t.link n = s.link n := by rw [State.link, State.link, h]

/-- A number that names no link reads as a link that is down. -/
theorem link_of_ge (s : State) {n : Nat} (h : ¬ n < 36) : s.link n = Link.reset := by
  simp [State.link, Vector.getD, h]

theorem lt_of_link_up {s : State} {n : Nat} (h : (s.link n).state = .up) : n < 36 := by
  by_contra hn
  rw [link_of_ge s hn] at h
  cases h

/-- An update that keeps a part of a link's record keeps it of every link. -/
theorem link_modLink_part {α : Type} (part : Link → α) (s : State) (n : Nat) {f : Link → Link}
    (hf : part (f (s.link n)) = part (s.link n)) (m : Nat) : part ((s.modLink n f).link m) = part (s.link m) := by
  by_cases hm : m = n
  · subst hm
    by_cases h : m < 36
    · rw [link_modLink_same s h, hf]
    · rw [link_of_ge _ h, link_of_ge s h]
  · rw [link_modLink_other s hm]

theorem heard_state (s : State) (link : BitVec 6) (n : Nat) : ((heard s link).link n).state = (s.link n).state :=
  link_modLink_part Link.state s link.toNat (f := fun l => { l with received := l.received + 1 }) rfl n

theorem heard_crcErrors (s : State) (link : BitVec 6) (n : Nat) : ((heard s link).link n).crcErrors = (s.link n).crcErrors :=
  link_modLink_part Link.crcErrors s link.toNat (f := fun l => { l with received := l.received + 1 }) rfl n

theorem pickLink_heard (s : State) (link : BitVec 6) (die : Bool) (r : Route) :
    (heard s link).pickLink die r = s.pickLink die r := by
  simp only [State.pickLink, State.linkUp, heard_state]

/-! ### Retraining (R27, R28) -/

theorem sendsOnly_reroute (s : State) : SendsOnly s s.reroute := by
  refine SendsOnly.foldl (fun u x => ?_) s.txFlows s
  unfold State.rerouteFlow
  split
  · exact .refl u
  · dsimp only
    split
    · exact .refl u
    · split
      · exact sendsOnly_modTx ..
      · exact (sendsOnly_modTx ..).trans (sendsOnly_putWire ..)

/-- A failed check changes link records and the sending side; it counts against the link. -/
theorem badFlit_eq (s : State) (n : Nat) : ∃ links flows wire wait,
    s.badFlit n = { s with links := links, txFlows := flows, wire := wire, txWait := wait } ∧
    (n < 36 → ((s.badFlit n).link n).crcErrors = (s.link n).crcErrors + 1) := by
  unfold State.badFlit
  dsimp only
  generalize ((s.link n).received :: (s.link n).recentBad).filter (fun x => decide ((s.link n).received < x + 4096)) = bad
  have hcount (h : n < 36) : ((s.modLink n (fun l => { l with crcErrors := l.crcErrors + 1, recentBad := bad })).link n).crcErrors =
      (s.link n).crcErrors + 1 := by rw [link_modLink_same s h]
  generalize hu : s.modLink n (fun l => { l with crcErrors := l.crcErrors + 1, recentBad := bad }) = u at hcount
  have heq : u = { s with links := u.links } := by rw [← hu]; rfl
  split
  · unfold State.startRetrain
    split
    · obtain ⟨flows, wire, wait, hr⟩ := sendsOnly_reroute (u.modLink n (fun l => { l with
        state := .training, attempts := 0, recentBad := [] }))
      refine ⟨_, flows, wire, wait, by rw [hr, heq]; rfl, fun h => ?_⟩
      rw [hr, ← hcount h]
      exact link_modLink_part Link.crcErrors u n (f := fun l => { l with state := .training, attempts := 0, recentBad := [] }) rfl n
    · exact ⟨_, _, _, _, heq, hcount⟩
  · exact ⟨_, _, _, _, heq, hcount⟩

/-! ### Flows at their destination -/

theorem rx_congr {s t : State} (h : t.rxFlows = s.rxFlows) (die : Bool) (flow : BitVec 12) : t.rx die flow = s.rx die flow := by
  rw [State.rx, State.rx, h]

theorem rx_key (s : State) (die : Bool) (flow : BitVec 12) : (s.rx die flow).die = die ∧ (s.rx die flow).flow = flow := by
  unfold State.rx
  cases h : s.rxFlows.find? (fun x => x.die == die && x.flow == flow) with
  | none => exact ⟨rfl, rfl⟩
  | some x => simpa using List.find?_some h

theorem rx_setRx_same (s : State) {x : RxFlow} {die : Bool} {flow : BitVec 12} (h : x.die = die ∧ x.flow = flow) :
    (s.setRx x).rx die flow = x := by
  obtain ⟨rfl, rfl⟩ := h
  have hnone : (s.rxFlows.filter (fun y => !(y.die == x.die && y.flow == x.flow))).find?
      (fun y => y.die == x.die && y.flow == x.flow) = none := List.find?_eq_none.mpr fun y hy => by
    exact Bool.eq_false_iff.mp (by simpa only [Bool.not_eq_true'] using (List.mem_filter.mp hy).2)
  rw [State.rx, State.setRx]
  dsimp only
  rw [List.find?_append, hnone, List.find?_singleton]
  simp

theorem rx_setRx_other (s : State) {x : RxFlow} {die : Bool} {flow : BitVec 12} (h : ¬ (die = x.die ∧ flow = x.flow)) :
    (s.setRx x).rx die flow = s.rx die flow := by
  have hx : (x.die == die && x.flow == flow) = false := by
    rw [Bool.and_eq_false_iff]; simp; tauto
  have hkeep : (s.rxFlows.filter (fun y => !(y.die == x.die && y.flow == x.flow))).find? (fun y => y.die == die && y.flow == flow) =
      s.rxFlows.find? (fun y => y.die == die && y.flow == flow) := by
    rw [List.find?_filter]
    congr 1
    funext y
    by_cases hy : (y.die == die && y.flow == flow) = true
    · obtain ⟨rfl, rfl⟩ : y.die = die ∧ y.flow = flow := by simpa using hy
      have : (y.die == x.die && y.flow == x.flow) = false := by rw [Bool.and_eq_false_iff]; simp; tauto
      simp [this]
    · simp [hy]
  rw [State.rx, State.rx, State.setRx]
  dsimp only
  rw [List.find?_append, hkeep, List.find?_singleton, hx]
  simp

theorem setRx_eq (s : State) {x : RxFlow} {die : Bool} {flow : BitVec 12} (h : x.die = die ∧ x.flow = flow) :
    s.setRx x = { s with rxFlows := s.rxFlows.filter (fun y => !(y.die == die && y.flow == flow)) ++ [x] } := by
  obtain ⟨rfl, rfl⟩ := h
  rfl

theorem setRx_setRx (s : State) {x y : RxFlow} (h : y.die = x.die ∧ y.flow = x.flow) : (s.setRx x).setRx y = s.setRx y := by
  obtain ⟨hd, hf⟩ := h
  simp [State.setRx, hd, hf, List.filter_append]

/-- A record put in the place of those of its flow takes no more room than the first of them. -/
theorem sum_filter_find {α : Type} {p q : α → Bool} (w : α → Nat) {y : α} (hq : q y = true) {l : List α}
    (h : l.find? p = some y) : (((l.filter (fun a => !p a)).filter q).map w).sum + w y ≤ ((l.filter q).map w).sum := by
  induction l with
  | nil => cases h
  | cons a l ih =>
    cases hp : p a with
    | true =>
      rw [List.find?_cons, hp] at h
      obtain rfl := Option.some.inj h
      have hsub : (((l.filter (fun a => !p a)).filter q).map w).sum ≤ ((l.filter q).map w).sum :=
        ((List.filter_sublist.filter q).map w).sum_le_sum (fun _ _ => Nat.zero_le _)
      simp [hp, hq, -List.filter_filter]
      omega
    | false =>
      rw [List.find?_cons, hp] at h
      have := ih h
      cases hqa : q a with
      | true => simp [hp, hqa, -List.filter_filter]; omega
      | false => simpa [hp, hqa, -List.filter_filter] using this

theorem windowUse_setRx_le {s : State} {die : Bool} {flow : BitVec 12} {x : RxFlow} (hbad : (s.rx die flow).bad = true)
    (hx : x.die = die ∧ x.flow = flow ∧ x.window = (s.rx die flow).window) : (s.setRx x).windowUse die ≤ s.windowUse die := by
  obtain ⟨rfl, rfl, hw⟩ := hx
  cases hfind : s.rxFlows.find? (fun y => y.die == x.die && y.flow == x.flow) with
  | none => simp [State.rx, hfind] at hbad
  | some y =>
    have hy : s.rx x.die x.flow = y := by simp [State.rx, hfind]
    have hdie : (y.die == x.die) = true := by
      have := List.find?_some hfind
      simp only [Bool.and_eq_true] at this
      exact this.1
    have := sum_filter_find (q := fun z => z.die == x.die) (fun z : RxFlow => z.window.length) hdie hfind
    rw [hy] at hw
    simp only [State.windowUse, State.setRx, List.filter_append, List.map_append, List.sum_append]
    simpa [hw, -List.filter_filter] using this

/-! ### A good flit where its flow ends (R27, R29) -/

/-- The state without the mark of a failed check, from which the rest of a reception goes on. -/
noncomputable def unmark (s : State) (die : Bool) (flow : BitVec 12) : State :=
  if (s.rx die flow).bad then s.setRx { s.rx die flow with bad := false } else s

/-- A flow's record with one more flit held out of order. -/
def RxFlow.keep (x : RxFlow) (f : Flit) : RxFlow := { x with window := x.window ++ [f], bad := false }

/-- A flow's record once the flit that it expected has come. -/
def RxFlow.pass (x : RxFlow) : RxFlow := { x with expected := x.expected + 1, bad := false }

section
variable {s : State} {n : Nat} {die : Bool} {flow : BitVec 12} {f : Flit}

theorem unmark_of_good (h : (s.rx die flow).bad = false) : unmark s die flow = s := if_neg (by rw [h]; decide)

theorem setRx_unmark {x : RxFlow} (h : x.die = die ∧ x.flow = flow) : (unmark s die flow).setRx x = s.setRx x := by
  unfold unmark
  split
  · obtain ⟨hd, hf⟩ := rx_key s die flow
    exact setRx_setRx s ⟨h.1.trans hd.symm, h.2.trans hf.symm⟩
  · rfl

theorem windowUse_unmark_le : (unmark s die flow).windowUse die ≤ s.windowUse die := by
  unfold unmark
  split
  · next hbad =>
    obtain ⟨hd, hf⟩ := rx_key s die flow
    exact windowUse_setRx_le hbad ⟨hd, hf, rfl⟩
  · exact Nat.le_refl _

/-- The cases of R29 by how far the flit is ahead of what its flow expects. -/
theorem arriveFlit_eq {a : Nat} (ha : (f.seq - (s.rx die flow).expected).toNat = a) : s.arriveFlit n die flow f =
    let y := s.rx die flow
    let v := unmark s die flow
    let gap (w : State) : State := if y.window = [] ∨ y.bad = true then w.answer n f.flow y.expected true else w
    let w := (v.setRx { y with window := f :: y.window, bad := false }).drainRx die flow (y.window.length + 1)
    if 2 ^ 31 ≤ a then v.answer n f.flow (y.expected - 1) false
    else if a = 0 then w.answer n f.flow ((w.rx die flow).expected - 1) false
    else if 4096 < a ∨ 32768 ≤ v.windowUse die then (if y.bad then v.answer n f.flow y.expected true else v)
    else if y.window.any (fun g => g.seq == f.seq) then gap v
    else gap (v.setRx (y.keep f)) := by
  subst ha
  rfl

variable {a : Nat} (ha : (f.seq - (s.rx die flow).expected).toNat = a)
include ha

theorem arriveFlit_again (hbad : (s.rx die flow).bad = false) (h : 2 ^ 31 ≤ a) :
    s.arriveFlit n die flow f = s.answer n f.flow ((s.rx die flow).expected - 1) false := by
  rw [arriveFlit_eq ha, unmark_of_good hbad]
  exact if_pos h

theorem arriveFlit_far (hbad : (s.rx die flow).bad = false) (hlt : a < 2 ^ 31) (h : 4096 < a) :
    s.arriveFlit n die flow f = s := by
  rw [arriveFlit_eq ha, unmark_of_good hbad]
  dsimp only
  rw [if_neg (Nat.not_le.mpr hlt), if_neg (Nat.ne_of_gt (Nat.zero_lt_of_lt h)), if_pos (.inl h), hbad]
  exact if_neg (by decide)

/-- A flit ahead of its turn is kept; one that opens a gap or follows a failed flit is answered with a NAK. -/
theorem arriveFlit_kept (h1 : 1 ≤ a) (h2 : a ≤ 4096) (hroom : s.windowUse die < 32768)
    (hnew : ∀ g ∈ (s.rx die flow).window, g.seq ≠ f.seq) :
    let y := s.rx die flow
    let u := s.setRx (y.keep f)
    s.arriveFlit n die flow f =
      if y.window = [] ∨ y.bad = true then u.answer n f.flow y.expected true else u := by
  have hany : (s.rx die flow).window.any (fun g => g.seq == f.seq) = false := List.any_eq_false.mpr fun g hg => by
    simpa using hnew g hg
  have huse := windowUse_unmark_le (s := s) (die := die) (flow := flow)
  rw [arriveFlit_eq ha]
  dsimp only
  rw [if_neg (by omega), if_neg (by omega), if_neg (by omega), hany,
    setRx_unmark (x := (s.rx die flow).keep f) (rx_key s die flow)]
  exact if_neg (by decide)

/-- A flit in order, with none held behind it: the flow expects the next one, the payload is delivered and acknowledged. -/
theorem arriveFlit_next (h0 : a = 0) (hw : (s.rx die flow).window = []) :
    let y := s.rx die flow
    let u := (s.setRx y.pass).deliverPayload die f
    s.arriveFlit n die flow f = u.answer n f.flow ((u.rx die flow).expected - 1) false := by
  intro y u
  have hseq : f.seq = y.expected := by
    have : f.seq - y.expected = 0 := BitVec.eq_of_toNat_eq (ha.trans h0)
    bv_omega
  have hkey : y.die = die ∧ y.flow = flow := rx_key s die flow
  have hrx (v : State) : (v.setRx { y with window := [f], bad := false }).rx die flow = { y with window := [f], bad := false } :=
    rx_setRx_same v hkey
  have hnone : [f].filter (fun g => g.seq != f.seq) = y.window := by rw [hw]; simp
  have hdrain : ((unmark s die flow).setRx { y with window := [f], bad := false }).drainRx die flow 1 = u := by
    unfold State.drainRx
    rw [hrx]
    dsimp only
    rw [List.find?_cons_of_pos (by simp [hseq])]
    dsimp only
    rw [hnone]
    change State.drainRx (State.deliverPayload (State.setRx _ y.pass) die f) die flow 0 = u
    rw [setRx_setRx (x := { y with window := [f], bad := false }) (y := y.pass) _ ⟨rfl, rfl⟩, setRx_unmark (x := y.pass) hkey]
    rfl
  rw [arriveFlit_eq ha]
  dsimp only
  rw [if_neg (by omega), if_pos h0, hw]
  exact congrArg (fun w : State => w.answer n f.flow ((w.rx die flow).expected - 1) false) hdrain

end

/-! ### Reception (R23, R24) -/

section
variable {s : State} {link : BitVec 6} {f : Flit}

theorem exec_takes {c : BitVec 6 → Flit → Instr} (h : takes f c) : exec (c link f) s = .next (s.receive link f) := by
  have hrec {n : BitVec 8} (hk : f.kind = 4) (hn : (ctlOf f.payload).kind = n) : recordType f = n.toNat := by
    rw [recordType, if_pos hk, hn]
  rcases h with ⟨rfl, hk⟩ | ⟨rfl, hk⟩ | ⟨rfl, hk⟩ | ⟨rfl, hk, hn⟩ | ⟨rfl, hk, hn⟩ | ⟨rfl, hk, hn⟩
  · exact congrArg _ (if_neg hk)
  · exact congrArg _ (if_pos hk)
  · exact congrArg _ (if_pos hk)
  · exact congrArg _ (if_pos (hrec hk hn))
  · exact congrArg _ (if_pos (hrec hk hn))
  · exact congrArg _ (if_pos (hrec hk hn))

theorem receive_lost (h : (s.link link.toNat).state ≠ .up) : s.receive link f = s := if_pos h

variable (hup : (s.link link.toNat).state = .up)
include hup

theorem receive_bad (h : badCheck f = true) : s.receive link f = ((heard s link).noteBad link f).badFlit link.toNat :=
  (if_neg (not_not.mpr hup)).trans (if_pos h)

/-- A good flit with a route is taken where its flow ends, else passed on. -/
theorem receive_good (h : badCheck f = false) {r : Route}
    (hr : s.route? (decide (18 ≤ link.toNat)) (BitVec.ofNat 5 (link.toNat % 18)) f.flow = some r) : s.receive link f =
      if r.primary = 31 then (heard s link).arriveFlit link.toNat (linkDie link) r.outFlow f
      else ((heard s link).pickLink (linkDie link) r).elim (heard s link)
        (fun l => (heard s link).emit l.toNat (relabel f r.outFlow)) := by
  have hheard : s.modLink link.toNat (fun l => { l with received := l.received + 1 }) = heard s link := rfl
  have hr' : (heard s link).route? (linkDie link) (linkLocal link) f.flow = some r := hr
  unfold State.receive
  dsimp only
  rw [if_neg (not_not.mpr hup), h, if_neg (by decide), hheard, hr']
  dsimp only
  cases (heard s link).pickLink (linkDie link) r <;> rfl

theorem receive_onward (h : badCheck f = false) {r : Route} {l : BitVec 6}
    (hr : s.route? (decide (18 ≤ link.toNat)) (BitVec.ofNat 5 (link.toNat % 18)) f.flow = some r) (hon : r.primary ≠ 31)
    (hl : s.pickLink (decide (18 ≤ link.toNat)) r = some l) :
    s.receive link f = { heard s link with wire := s.wire ++ [(l, onward f r.outFlow)] } := by
  have hl' : (heard s link).pickLink (linkDie link) r = some l := (pickLink_heard ..).trans hl
  rw [receive_good hup h hr, if_neg hon, hl']
  simp only [State.emit, BitVec.ofNat_toNat, BitVec.setWidth_eq]
  rfl

theorem receive_here (h : badCheck f = false) {r : Route} (hr : endsHere s link f r) :
    s.receive link f = (heard s link).arriveFlit link.toNat (decide (18 ≤ link.toNat)) r.outFlow f := by
  obtain ⟨hroute, hhere⟩ := hr
  rw [receive_good hup h hroute, if_pos hhere]
  rfl

end

/-! ### The clauses on flits -/

section
variable {s : State} {link : BitVec 6} {f : Flit}

theorem badCheck_of_crc (h : f.crc ≠ flitCrc f) : badCheck f = true := by
  simp [badCheck, h]

/-- A flow's record with the mark of a failed check (R27). -/
def marked (x : RxFlow) : RxFlow := { x with bad := true }

/-- The mark leaves what every flow expects and holds. -/
theorem rx_marked (s : State) (d : Bool) (l : BitVec 12) (die : Bool) (flow : BitVec 12) :
    ((s.setRx (marked (s.rx d l))).rx die flow).expected = (s.rx die flow).expected ∧
    ((s.setRx (marked (s.rx d l))).rx die flow).window = (s.rx die flow).window := by
  obtain ⟨hd, hl⟩ := rx_key s d l
  by_cases h : die = d ∧ flow = l
  · obtain ⟨rfl, rfl⟩ := h
    rw [rx_setRx_same s (x := marked (s.rx die flow)) ⟨hd, hl⟩]
    exact ⟨rfl, rfl⟩
  · rw [rx_setRx_other s (x := marked (s.rx d l)) (by rintro ⟨h1, h2⟩; exact h ⟨h1.trans hd, h2.trans hl⟩)]
    exact ⟨rfl, rfl⟩

theorem noteBad_here {r : Route} (hr : endsHere s link f r) : s.noteBad link f =
    s.setRx (marked (s.rx (decide (18 ≤ link.toNat)) r.outFlow)) := by
  obtain ⟨hroute, hhere⟩ := hr
  have hroute' : s.route? (linkDie link) (linkLocal link) f.flow = some r := hroute
  unfold State.noteBad
  rw [hroute']
  exact if_pos hhere

theorem noteBad_elsewhere (h : ∀ r, ¬ endsHere s link f r) : s.noteBad link f = s := by
  unfold State.noteBad
  split
  · next r hroute => exact if_neg fun hhere => h r ⟨hroute, hhere⟩
  · rfl

theorem answer_eq (s : State) (link : BitVec 6) (label : BitVec 12) (seq : BitVec 32) (nak : Bool) :
    s.answer link.toNat label seq nak =
      { s with wire := s.wire ++ [(link, makeFlit seq label 1 [if nak then 1 else 0])] } := by
  rw [State.answer, State.emit, BitVec.ofNat_toNat, BitVec.setWidth_eq]

/-- Its flow's record once a flit in order has come. -/
theorem setRx_pass (s : State) (link : BitVec 6) (r : Route) :
    (heard s link).setRx ((heard s link).rx (decide (18 ≤ link.toNat)) r.outFlow).pass = inOrder s link r :=
  setRx_eq _ (x := RxFlow.pass _) (rx_key (heard s link) _ _)

/-- What a failed check leaves alone, and the mark where its flow ends (R27). -/
theorem receive_bad_clause (hup : (s.link link.toNat).state = .up) (h : badCheck f = true) :
    let t := s.receive link f
    t.mem = s.mem ∧ t.barriers = s.barriers ∧
    (∀ die flow, (t.rx die flow).expected = (s.rx die flow).expected ∧ (t.rx die flow).window = (s.rx die flow).window) ∧
    (∀ r, endsHere s link f r → (t.rx (decide (18 ≤ link.toNat)) r.outFlow).bad = true) ∧
    (link.toNat < 36 → (t.link link.toNat).crcErrors = (s.link link.toNat).crcErrors + 1) := by
  intro t
  obtain ⟨links, flows, wire, wait, heq, hcount⟩ := badFlit_eq ((heard s link).noteBad link f) link.toNat
  have ht : t = _ := (receive_bad hup h).trans heq
  have hrx (die : Bool) (flow : BitVec 12) : t.rx die flow = ((heard s link).noteBad link f).rx die flow :=
    rx_congr (by rw [ht]) die flow
  have hcrc (hlinks : ((heard s link).noteBad link f).links = (heard s link).links) (hlt : link.toNat < 36) :
      (t.link link.toNat).crcErrors = (s.link link.toNat).crcErrors + 1 := by
    rw [show t = _ from receive_bad hup h, hcount hlt, link_congr hlinks, heard_crcErrors]
  by_cases hends : ∃ r, endsHere s link f r
  · obtain ⟨r, hr⟩ := hends
    have hnote : (heard s link).noteBad link f = _ := noteBad_here hr
    refine ⟨?_, ?_, fun die flow => ?_, fun r' hr' => ?_, hcrc (by rw [hnote]; rfl)⟩
    · rw [ht, hnote]; rfl
    · rw [ht, hnote]; rfl
    · rw [hrx, hnote]; exact rx_marked (heard s link) _ _ die flow
    · rw [hrx, noteBad_here (s := heard s link) hr',
        rx_setRx_same _ (x := marked _) (rx_key (heard s link) _ _)]
      rfl
  · have hnote : (heard s link).noteBad link f = heard s link := noteBad_elsewhere fun r hr => hends ⟨r, hr⟩
    refine ⟨?_, ?_, fun die flow => ?_, fun r hr => absurd ⟨r, hr⟩ hends, hcrc (by rw [hnote])⟩
    · rw [ht, hnote]; rfl
    · rw [ht, hnote]; rfl
    · rw [hrx, hnote]; exact ⟨rfl, rfl⟩

/-- The clauses of the obligation on one flit that a receiving step takes. -/
theorem takes_clauses {c : BitVec 6 → Flit → Instr} (hc : takes f c) :
    ((s.link link.toNat).state ≠ .up → exec (c link f) s = .next s) ∧
    ((s.link link.toNat).state = .up → f.crc ≠ flitCrc f → ∃ t, exec (c link f) s = .next t ∧ t.mem = s.mem ∧
      t.barriers = s.barriers ∧ (∀ die flow, (t.rx die flow).expected = (s.rx die flow).expected ∧
        (t.rx die flow).window = (s.rx die flow).window) ∧
      (∀ r, endsHere s link f r → (t.rx (decide (18 ≤ link.toNat)) r.outFlow).bad = true) ∧
      (link.toNat < 36 → (t.link link.toNat).crcErrors = (s.link link.toNat).crcErrors + 1)) := by
  rw [exec_takes hc]
  exact ⟨fun h => congrArg _ (receive_lost h), fun hup h => ⟨_, rfl, receive_bad_clause hup (badCheck_of_crc h)⟩⟩

section
variable (hup : (s.link link.toNat).state = .up) (hgood : badCheck f = false) {r : Route} (hr : endsHere s link f r)
include hup hgood hr

theorem receive_again (hbad : (s.rx (decide (18 ≤ link.toNat)) r.outFlow).bad = false) (h : 2 ^ 31 ≤ aheadBy s link f r) :
    s.receive link f = { heard s link with wire := s.wire ++ [(link, makeFlit
      ((s.rx (decide (18 ≤ link.toNat)) r.outFlow).expected - 1) f.flow 1 [0])] } := by
  rw [receive_here hup hgood hr, arriveFlit_again (s := heard s link) rfl hbad h]
  exact answer_eq ..

theorem receive_far (hbad : (s.rx (decide (18 ≤ link.toNat)) r.outFlow).bad = false) (hlt : aheadBy s link f r < 2 ^ 31)
    (h : 4096 < aheadBy s link f r) : s.receive link f = heard s link := by
  rw [receive_here hup hgood hr, arriveFlit_far (s := heard s link) rfl hbad hlt h]

theorem receive_kept (h1 : 1 ≤ aheadBy s link f r) (h2 : aheadBy s link f r ≤ 4096)
    (hroom : s.windowUse (decide (18 ≤ link.toNat)) < 32768)
    (hnew : ∀ g ∈ (s.rx (decide (18 ≤ link.toNat)) r.outFlow).window, g.seq ≠ f.seq) :
    let x := s.rx (decide (18 ≤ link.toNat)) r.outFlow
    let t := s.receive link f
    t.mem = s.mem ∧ t.barriers = s.barriers ∧
    t.rx (decide (18 ≤ link.toNat)) r.outFlow = { x with window := x.window ++ [f], bad := false } ∧
    t.wire = s.wire ++ (if x.window = [] ∨ x.bad = true then [(link, makeFlit x.expected f.flow 1 [1])] else []) := by
  intro x t
  have ht : t = if x.window = [] ∨ x.bad = true then
      ((heard s link).setRx (x.keep f)).answer link.toNat f.flow x.expected true else (heard s link).setRx (x.keep f) :=
    (receive_here hup hgood hr).trans (arriveFlit_kept (s := heard s link) rfl h1 h2 hroom hnew)
  have hrx := rx_setRx_same (heard s link) (x := x.keep f) (rx_key s _ _)
  by_cases hgap : x.window = [] ∨ x.bad = true
  · rw [ht, if_pos hgap, if_pos hgap]
    rw [answer_eq]
    exact ⟨rfl, rfl, hrx, rfl⟩
  · rw [ht, if_neg hgap, if_neg hgap]
    exact ⟨rfl, rfl, hrx, (List.append_nil _).symm⟩

/-- A flit in order, with none held behind it. -/
theorem receive_next (h0 : aheadBy s link f r = 0) (hw : (s.rx (decide (18 ≤ link.toNat)) r.outFlow).window = []) :
    s.receive link f =
      acknowledging ((inOrder s link r).deliverPayload (decide (18 ≤ link.toNat)) f) link f r := by
  have hset := setRx_pass s link r
  rw [receive_here hup hgood hr, arriveFlit_next (s := heard s link) h0 rfl hw, hset]
  exact answer_eq ..

end

end

/-! ### Payloads for a command not yet taken, or ended (R314) -/

section
variable {s : State} {die : Bool} {kind : BitVec 4} {p : List Byte}

/-- The command number that a communicator's next command at a die gets. -/
abbrev nextK (s : State) (die : Bool) (p : List Byte) : BitVec 32 :=
  sget 0 s.collCount ((if die then 65536 else 0) + (payloadComm p).toNat)

theorem collReceive_untaken (h : ∀ c, ¬ Taken s die p c) : s.collReceive die kind p =
    if nextK s die p = payloadK p ∨ seqLt (nextK s die p) (payloadK p) = true then
      s.keepEarly { die := die, kind := kind, payload := p } else s := by
  have hnone : s.coll? die (payloadComm p) (payloadK p) = none := Option.eq_none_iff_forall_ne_some.mpr fun c hc => h c hc
  unfold payloadComm payloadK at hnone
  unfold State.collReceive
  dsimp only
  rw [hnone]
  rfl

theorem collReceive_ctl {c : CollCmd} (h : Taken s die p c) : s.collReceive die 4 p = s.collCtl c (ctlOf p) := by
  have hsome : s.coll? die (payloadComm p) (payloadK p) = some c := h
  unfold payloadComm payloadK at hsome
  unfold State.collReceive
  dsimp only
  rw [hsome]
  rfl

theorem collReceive_data {c : CollCmd} (h : Taken s die p c) : s.collReceive die 3 p = s.collData c p := by
  have hsome : s.coll? die (payloadComm p) (payloadK p) = some c := h
  unfold payloadComm payloadK at hsome
  unfold State.collReceive
  dsimp only
  rw [hsome]
  rfl

theorem failed_iff (r : CtlRec) : r.failed = true ↔ r.kind = 2 ∧ r.status ≠ 0 ∧ r.status ≠ 5 := by
  rw [CtlRec.failed, Bool.and_eq_true, beq_iff_eq, failing_iff]

theorem keepEarly_quiet (h : kind ≠ 4 ∨ (ctlOf p).kind ≠ 2 ∨ (ctlOf p).status = 0 ∨ (ctlOf p).status = 5) :
    s.keepEarly { die := die, kind := kind, payload := p } =
      { s with collEarly := s.collEarly ++ [{ die := die, kind := kind, payload := p }] } := by
  refine if_neg ?_
  rintro ⟨hkind, hfailed, -⟩
  obtain ⟨hrec, h0, h5⟩ := (failed_iff _).mp hfailed
  rcases h with h | h | h | h
  exacts [h hkind, h hrec, h0 h, h5 h]

/-- The first failing status among them is this rank's own too, and told to the others (log 20). -/
theorem keepEarly_answers {rank : BitVec 16} (hrec : (ctlOf p).kind = 2) (h0 : (ctlOf p).status ≠ 0) (h5 : (ctlOf p).status ≠ 5)
    (hnone : s.collEarly = []) (hrank : s.ownRank die (ctlOf p).comm = some rank) :
    s.keepEarly { die := die, kind := 4, payload := p } =
      (State.sendRanks { s with collEarly := s.collEarly ++ [{ die := die, kind := 4, payload := p }] } die (ctlOf p).comm rank 4
        [ctlBytes { ctlOf p with rank := rank }]).1 := by
  unfold State.keepEarly
  dsimp only
  rw [if_pos ⟨rfl, (failed_iff _).mpr ⟨hrec, h0, h5⟩, by rw [hnone]; rfl⟩, hrank]

end

/-! ### Records for a command that the die has taken (R25, R314) -/

/-- The command with a record seen, the first of each rank. -/
def saw (c : CollCmd) (a : CtlRec) : CollCmd :=
  { c with seen := if c.seen.any (fun x => x.rank == a.rank) then c.seen else c.seen ++ [a] }

/-- The command with a rank's status, the first of each. -/
def told (c : CollCmd) (a : CtlRec) : CollCmd := { c with ended := noteStatus c.ended a.rank a.status }

section
variable {s : State} {c : CollCmd} {a : CtlRec}

theorem collCtl_record (h : a.kind ≠ 2) : s.collCtl c a = (s.modColl (saw c a)).collGo c.die c.comm c.k := if_neg h

theorem collCtl_linkDown (h : a.kind = 2) (h6 : a.status = 6) : s.collCtl c a = s.linkFail c :=
  (if_pos h).trans (if_pos (by rw [h6]; rfl))

theorem ne_linkDown (h6 : a.status ≠ 6) : a.status.toNat ≠ xLINKDOWN := fun h => h6 (BitVec.eq_of_toNat_eq h)

theorem collCtl_fails (h : a.kind = 2) (h6 : a.status ≠ 6) (hfail : failing a.status = true) (h2 : c.stage < 2) :
    s.collCtl c a = (s.modColl (told c a)).rankFail (told c a) a.status.toNat 0 :=
  (if_pos h).trans ((if_neg (ne_linkDown h6)).trans (if_pos ⟨hfail, h2⟩))

theorem collCtl_status (h : a.kind = 2) (h6 : a.status ≠ 6) (hno : failing a.status = false ∨ 2 ≤ c.stage) :
    s.collCtl c a = (s.modColl (told c a)).collGo c.die c.comm c.k := by
  refine (if_pos h).trans ((if_neg (ne_linkDown h6)).trans (if_neg ?_))
  rintro ⟨hfail, h2⟩
  rcases hno with h | h
  · simp [h] at hfail
  · have : c.stage < 2 := h2
    omega

end

section
variable {s : State} {c : CollCmd} (hc : s.coll? c.die c.comm c.k = some c)
include hc

/-- A command whose own part is over waits for the statuses of the others. -/
theorem collStage_waits (h2 : 2 ≤ c.stage) (hn : c.ended.length < (s.commOf c.die c.comm).length) :
    s.collStage c.die c.comm c.k = s :=
  (collStage_late hc h2).elim id (fun h => h.trans (judgeColl_waits hn))

/-- A rank that fails with no byte stopped tells the others, and waits for their statuses. -/
theorem rankFail_waits {status reason : Nat} (h6 : status ≠ 6) (hstop : stops status = false)
    (hn : (noteStatus c.ended c.rank (BitVec.ofNat 8 status)).length < (s.commOf c.die c.comm).length)
    (hsent : ((s.modColl (failedAs c (BitVec.ofNat 8 status) reason)).sendRanks c.die c.comm c.rank 4
      [ctlBytes (statusRecord c status)]).2 = true) :
    let z := (s.modColl (failedAs c (BitVec.ofNat 8 status) reason)).sendRanks c.die c.comm c.rank 4
      [ctlBytes (statusRecord c status)]
    s.rankFail c status reason = z.1 ∧ z.1.collStage c.die c.comm c.k = z.1 := by
  intro z
  obtain ⟨_, _, _, hz⟩ := sendsOnly_sendRanks (s.modColl (failedAs c (BitVec.ofNat 8 status) reason)) c.die c.comm c.rank 4
    [ctlBytes (statusRecord c status)]
  have hmem : z.1.commOf c.die c.comm = s.commOf c.die c.comm := commOf_congr (by rw [show z.1 = _ from hz]; rfl)
  have hcoll : z.1.coll? c.die c.comm c.k = some (failedAs c (BitVec.ofNat 8 status) reason) := by
    rw [coll?_congr (s := s.modColl (failedAs c (BitVec.ofNat 8 status) reason)) (by rw [show z.1 = _ from hz])]
    exact coll?_modColl hc ⟨rfl, rfl, rfl⟩
  have hwait : (failedAs c (BitVec.ofNat 8 status) reason).ended.length < (z.1.commOf c.die c.comm).length := by
    rw [hmem]; exact hn
  have hstage : 2 ≤ (failedAs c (BitVec.ofNat 8 status) reason).stage := by
    change 2 ≤ if c.stage = 4 then 4 else 3
    split <;> decide
  refine ⟨?_, collStage_waits (c := failedAs c (BitVec.ofNat 8 status) reason) hcoll hstage hwait⟩
  rw [rankFail_told h6 (by rw [hstop]; rfl) hsent]
  exact judgeColl_waits hwait

end

section
variable {s : State} {c c' : CollCmd} (hc : s.coll? c.die c.comm c.k = some c) (hsame : SameCmd c c')
include hc hsame

theorem collGo_unseen (h0 : c'.stage = 0) (hn : c'.seen.length < (s.commOf c.die c.comm).length) :
    (s.modColl c').collGo c.die c.comm c.k = s.modColl c' :=
  have hgo := collStage_unseen (coll?_modColl hc hsame) h0 hn
  collGo_of_collStage hgo hgo

theorem collGo_waits (h2 : 2 ≤ c'.stage) (hn : c'.ended.length < (s.commOf c.die c.comm).length) :
    (s.modColl c').collGo c.die c.comm c.k = s.modColl c' := by
  obtain ⟨hd, hm, hk⟩ := hsame
  have hgo := collStage_waits (c := c') (s := s.modColl c') (by rw [hd, hm, hk]; exact coll?_modColl hc ⟨hd, hm, hk⟩) h2
    (by rw [hd, hm]; exact hn)
  rw [hd, hm, hk] at hgo
  exact collGo_of_collStage hgo hgo

variable {t : Strand} (ht : s.strand? c'.key = some t)
include ht

theorem collGo_barrier (h0 : c'.stage = 0) (hn : (s.commOf c.die c.comm).length ≤ c'.seen.length) (ha : c'.agreed = true)
    (hop : c'.op = 4) : (s.modColl c').collGo c.die c.comm c.k =
      (if c'.bar.getLsbD 15 then ((s.modColl c').arrive (c'.bar.getLsbD 12) (c'.bar.toNat % 4096)).1 else s.modColl c').endColl
        c' 0 0 := by
  have hgo := collStage_barrier (coll?_modColl hc hsame) (s := s.modColl c') ht h0 hn ha hop
  obtain ⟨hd, hm, hk⟩ := hsame
  rw [← hd, ← hm, ← hk] at hgo ⊢
  exact collGo_ended hgo

theorem collGo_differs (h0 : c'.stage = 0) (hn : (s.commOf c.die c.comm).length ≤ c'.seen.length) (ha : c'.agreed = false)
    (hend : c'.ended = []) (h2 : 2 ≤ (s.commOf c.die c.comm).length)
    (hsent : ((s.modColl (failedAs c' 2 0)).sendRanks c'.die c'.comm c'.rank 4 [ctlBytes (statusRecord c' 2)]).2 = true) :
    (s.modColl c').collGo c.die c.comm c.k =
      ((s.modColl (failedAs c' 2 0)).sendRanks c'.die c'.comm c'.rank 4 [ctlBytes (statusRecord c' 2)]).1 := by
  have hcoll := coll?_modColl hc hsame
  have hgo := collStage_differs hcoll (s := s.modColl c') ht h0 hn ha
  obtain ⟨hd, hm, hk⟩ := hsame
  rw [← hd, ← hm, ← hk] at hcoll hgo ⊢
  have hmod : (s.modColl c').modColl (failedAs c' (BitVec.ofNat 8 2) 0) = s.modColl (failedAs c' 2 0) :=
    modColl_modColl ⟨rfl, rfl, rfl⟩
  obtain ⟨hfail, hstay⟩ := rankFail_waits hcoll (status := 2) (reason := 0) (by decide) rfl
    (by rw [hend]; change 1 < _; rw [hd, hm]; exact h2) (by rw [hmod]; exact hsent)
  rw [hmod] at hfail hstay
  exact collGo_of_collStage (hgo.trans hfail) hstay

theorem collGo_judges (h2 : 2 ≤ c'.stage) (hn : (s.commOf c.die c.comm).length ≤ c'.ended.length) :
    (s.modColl c').collGo c.die c.comm c.k = if c'.verdict = 0 then (s.modColl c').endColl c' 0 0
      else (s.modColl c').failColl c' c'.verdict.toNat (if c'.verdict = c'.status then c'.reason.toNat else 0) := by
  have hgo := collStage_judges (coll?_modColl hc hsame) (s := s.modColl c') ht h2
  obtain ⟨hd, hm, hk⟩ := hsame
  rw [← hd, ← hm, ← hk] at hgo ⊢
  have hn' : ((s.modColl c').commOf c'.die c'.comm).length ≤ c'.ended.length := by rw [hd, hm]; exact hn
  split
  · next hv => exact collGo_ended (hgo.trans (judgeColl_ok hn' hv))
  · next hv =>
    exact collGo_of_collStage (hgo.trans (judgeColl_fails hn' hv)) (collStage_none (coll?_endColl ..))

end

/-! ### Data and failing statuses for a command that the die has taken (R25, R36, R314) -/

section
variable {s : State} {c : CollCmd} {p : List Byte}

/-- Data out of its place has no effect. -/
theorem collData_misplaced (h : leNat ((p.drop 8).take 8) ≠ (sget [] c.data (payloadRank p)).length) : s.collData c p = s :=
  if_neg h

theorem collData_joins (hc : s.coll? c.die c.comm c.k = some c) (h0 : c.stage = 0)
    (hn : c.seen.length < (s.commOf c.die c.comm).length)
    (h : leNat ((p.drop 8).take 8) = (sget [] c.data (payloadRank p)).length) :
    s.collData c p = s.modColl { c with data := sset [] c.data (payloadRank p) (sget [] c.data (payloadRank p) ++
      (p.drop 16).take (Nat.min 232 (c.srcCount (s.commOf c.die c.comm).length * c.size - (sget [] c.data (payloadRank p)).length))) } :=
  (if_pos h).trans (collGo_unseen hc (by exact ⟨rfl, rfl, rfl⟩) h0 hn)

/-- What a failure that is told leaves at the barrier of a command still at work: FAULT where a rank stopped (R36). -/
theorem settleColl_told {st : BitVec 8} (h2 : c.stage < 2) (h6 : st ≠ 6) :
    (if stops st.toNat then s.settleColl c st.toNat else s) =
      if st = 1 ∧ c.bar.getLsbD 15 = true ∧ c.op ≠ 4 ∧ c.status ≠ 1 ∧ c.status ≠ 6 then
        s.faultBar (c.bar.getLsbD 12) (c.bar.toNat % 4096) else s := by
  have hstops (x : BitVec 8) : stops x.toNat = true ↔ x = 1 ∨ x = 6 := by
    rw [stops, Bool.or_eq_true, beq_iff_eq, beq_iff_eq]
    exact or_congr ⟨fun h => BitVec.eq_of_toNat_eq h, fun h => by rw [h]; rfl⟩ ⟨fun h => BitVec.eq_of_toNat_eq h, fun h => by rw [h]; rfl⟩
  by_cases h1 : st = 1
  · subst h1
    have hcond : (!barV c.bar || c.op == 4 || c.stage == 4 || stops c.status.toNat) = true ↔
        ¬ (c.bar.getLsbD 15 = true ∧ c.op ≠ 4 ∧ c.status ≠ 1 ∧ c.status ≠ 6) := by
      simp only [Bool.or_eq_true, hstops, Bool.not_eq_true', beq_iff_eq, barV, show c.stage ≠ 4 by omega]
      rw [← Bool.not_eq_true]
      tauto
    rw [if_pos (by decide)]
    unfold State.settleColl
    by_cases h : c.bar.getLsbD 15 = true ∧ c.op ≠ 4 ∧ c.status ≠ 1 ∧ c.status ≠ 6
    · rw [if_neg (fun hn => hcond.mp hn h), if_pos (by decide), if_pos (And.intro rfl h)]
      rfl
    · rw [if_pos (hcond.mpr h), if_neg fun hn => h hn.2]
  · rw [if_neg (fun h => ((hstops st).mp h).elim h1 h6), if_neg fun h => h1 h.1]

theorem ended_told {a : CtlRec} (hend : c.ended = []) : (told c a).ended = [(a.rank, a.status)] := by
  simp [told, hend, noteStatus]

/-- The command as its rank answers another's failure. -/
def answering (c : CollCmd) (a : CtlRec) : CollCmd :=
  { told c a with stage := 3, status := a.status, reason := 0, ended := [(a.rank, a.status), (c.rank, a.status)] }

theorem failedAs_told {a : CtlRec} (h2 : c.stage < 2) (hend : c.ended = []) (hrank : a.rank ≠ c.rank) :
    failedAs (told c a) (BitVec.ofNat 8 a.status.toNat) 0 = answering c a := by
  have hstage : (told c a).stage ≠ 4 := by
    change c.stage ≠ 4
    omega
  have hnote : noteStatus [(a.rank, a.status)] c.rank a.status = [(a.rank, a.status), (c.rank, a.status)] := by
    simp [noteStatus, hrank]
  rw [failedAs, if_neg hstage, BitVec.ofNat_toNat, BitVec.setWidth_eq, ended_told hend, show (told c a).rank = c.rank from rfl, hnote]
  rfl

end

section
variable {s v : State} {c : CollCmd} {a : CtlRec}

/-- A rank answers another's failure: it tells the others the same status, and completes with the statuses of all. -/
theorem collCtl_answers (h : a.kind = 2) (h6 : a.status ≠ 6) (hfail : failing a.status = true) (h2 : c.stage < 2)
    (hend : c.ended = []) (hrank : a.rank ≠ c.rank)
    (hv : v = if a.status = 1 ∧ c.bar.getLsbD 15 = true ∧ c.op ≠ 4 ∧ c.status ≠ 1 ∧ c.status ≠ 6 then
      (s.modColl (told c a)).faultBar (c.bar.getLsbD 12) (c.bar.toNat % 4096) else s.modColl (told c a)) :
    let z := (v.modColl (answering c a)).sendRanks c.die c.comm c.rank 4 [ctlBytes (statusRecord c a.status.toNat)]
    z.2 = true →
      (2 < (s.commOf c.die c.comm).length → s.collCtl c a = z.1) ∧
      ((s.commOf c.die c.comm).length = 2 → s.collCtl c a = z.1.failColl (answering c a) a.status.toNat 0) := by
  intro z hsent
  have hmembers : v.members = s.members := by
    rw [hv]
    split <;> rfl
  obtain ⟨_, _, _, hz⟩ := sendsOnly_sendRanks (v.modColl (answering c a)) c.die c.comm c.rank 4 [ctlBytes (statusRecord c a.status.toNat)]
  have hcomm : z.1.commOf c.die c.comm = s.commOf c.die c.comm :=
    commOf_congr ((by rw [show z.1 = _ from hz]; rfl : z.1.members = v.members).trans hmembers)
  have hgo : s.collCtl c a = z.1.judgeColl (answering c a) := by
    rw [collCtl_fails h h6 hfail h2]
    have hfailed := failedAs_told (a := a) h2 hend hrank
    rw [rankFail_told (c := told c a) (v := v.modColl (answering c a)) (ne_linkDown h6)
      (by rw [settleColl_told (c := told c a) h2 h6, hfailed, hv]; rfl) hsent, hfailed]
    rfl
  refine ⟨fun hn => hgo.trans (judgeColl_waits (c := answering c a) (hcomm.symm ▸ hn)), fun hn => ?_⟩
  have hverdict : (answering c a).verdict = a.status := by
    have hboth : (answering c a).ended.filter (fun e => failing e.2) = (answering c a).ended :=
      List.filter_eq_self.mpr (by simp [answering, hfail])
    unfold CollCmd.verdict
    rw [hboth]
    dsimp only [answering, List.foldl_cons, List.foldl_nil]
    split_ifs <;> rfl
  have hne : (answering c a).verdict ≠ 0 := by
    rw [hverdict]
    exact ((failing_iff _).mp hfail).1
  rw [hgo, judgeColl_fails (c := answering c a) (hcomm.symm ▸ hn.le : (z.1.commOf c.die c.comm).length ≤ 2) hne, hverdict]
  exact congrArg _ (if_pos rfl)

end

/-! ### The obligation -/

section
variable {s : State} {link : BitVec 6} {f : Flit} {r : Route}

theorem rx_inOrder : (inOrder s link r).rx (decide (18 ≤ link.toNat)) r.outFlow =
    (s.rx (decide (18 ≤ link.toNat)) r.outFlow).pass := by
  rw [← setRx_pass]
  exact rx_setRx_same (heard s link) (x := RxFlow.pass _) (rx_key (heard s link) _ _)

theorem seq_of_aheadBy_zero (h : aheadBy s link f r = 0) : f.seq = (s.rx (decide (18 ≤ link.toNat)) r.outFlow).expected := by
  have : f.seq - (s.rx (decide (18 ≤ link.toNat)) r.outFlow).expected = 0 := BitVec.eq_of_toNat_eq h
  bv_omega

/-- A flit of KIND 0 in order moves its flow on and is acknowledged; its payload has no consumer. -/
theorem receive_data (hup : (s.link link.toNat).state = .up) (hgood : badCheck f = false) (hr : endsHere s link f r)
    (h0 : aheadBy s link f r = 0) (hkind : f.kind = 0) (hw : (s.rx (decide (18 ≤ link.toNat)) r.outFlow).window = []) :
    let t := s.receive link f
    t.mem = s.mem ∧
    t.rx (decide (18 ≤ link.toNat)) r.outFlow = { s.rx (decide (18 ≤ link.toNat)) r.outFlow with expected := f.seq + 1, bad := false } ∧
    t.wire = s.wire ++ [(link, makeFlit f.seq f.flow 1 [0])] := by
  intro t
  have hquiet : (inOrder s link r).deliverPayload (decide (18 ≤ link.toNat)) f = inOrder s link r := by
    rw [State.deliverPayload, hkind]
    rfl
  have ht : t = acknowledging (inOrder s link r) link f r := by
    rw [show t = _ from receive_next hup hgood hr h0 hw, hquiet]
  have hseq := seq_of_aheadBy_zero h0
  have hlast : ((inOrder s link r).rx (decide (18 ≤ link.toNat)) r.outFlow).expected - 1 = f.seq := by
    rw [rx_inOrder, hseq]
    exact BitVec.add_sub_cancel ..
  rw [ht]
  refine ⟨rfl, ?_, ?_⟩
  · rw [hseq]
    exact rx_inOrder
  · rw [acknowledging, hlast]
    rfl

theorem takes_good_clauses {c : BitVec 6 → Flit → Instr} (hc : takes f c) (hup : (s.link link.toNat).state = .up)
    (hgood : badCheck f = false) :
    (∀ r l, s.route? (decide (18 ≤ link.toNat)) (BitVec.ofNat 5 (link.toNat % 18)) f.flow = some r → r.primary ≠ 31 →
      s.pickLink (decide (18 ≤ link.toNat)) r = some l → exec (c link f) s =
        .next { heard s link with wire := s.wire ++ [(l, onward f r.outFlow)] }) ∧
    (∀ r, endsHere s link f r → (s.rx (decide (18 ≤ link.toNat)) r.outFlow).bad = false →
      2 ^ 31 ≤ aheadBy s link f r → exec (c link f) s =
      .next { heard s link with wire := s.wire ++ [(link, makeFlit
        ((s.rx (decide (18 ≤ link.toNat)) r.outFlow).expected - 1) f.flow 1 [0])] }) ∧
    (∀ r, endsHere s link f r → (s.rx (decide (18 ≤ link.toNat)) r.outFlow).bad = false →
      aheadBy s link f r < 2 ^ 31 → 4096 < aheadBy s link f r →
      exec (c link f) s = .next (heard s link)) ∧
    (∀ r, endsHere s link f r → 1 ≤ aheadBy s link f r → aheadBy s link f r ≤ 4096 →
      s.windowUse (decide (18 ≤ link.toNat)) < 32768 →
      (∀ g ∈ (s.rx (decide (18 ≤ link.toNat)) r.outFlow).window, g.seq ≠ f.seq) →
      let x := s.rx (decide (18 ≤ link.toNat)) r.outFlow
      ∃ t, exec (c link f) s = .next t ∧ t.mem = s.mem ∧ t.barriers = s.barriers ∧
        t.rx (decide (18 ≤ link.toNat)) r.outFlow = { x with window := x.window ++ [f], bad := false } ∧
        t.wire = s.wire ++ (if x.window = [] ∨ x.bad = true then [(link, makeFlit x.expected f.flow 1 [1])] else [])) ∧
    (∀ r, endsHere s link f r → aheadBy s link f r = 0 → f.kind = 0 →
      (s.rx (decide (18 ≤ link.toNat)) r.outFlow).window = [] → ∃ t, exec (c link f) s = .next t ∧ t.mem = s.mem ∧
        t.rx (decide (18 ≤ link.toNat)) r.outFlow =
          { s.rx (decide (18 ≤ link.toNat)) r.outFlow with expected := f.seq + 1, bad := false } ∧
        t.wire = s.wire ++ [(link, makeFlit f.seq f.flow 1 [0])]) := by
  rw [exec_takes hc]
  exact ⟨fun r l hroute hon hl => congrArg _ (receive_onward hup hgood hroute hon hl),
    fun r hr hbad h => congrArg _ (receive_again hup hgood hr hbad h),
    fun r hr hbad hlt h => congrArg _ (receive_far hup hgood hr hbad hlt h),
    fun r hr h1 h2 hroom hnew => ⟨_, rfl, receive_kept hup hgood hr h1 h2 hroom hnew⟩,
    fun r hr h0 hkind hw => ⟨_, rfl, receive_data hup hgood hr h0 hkind hw⟩⟩

/-- A step that takes a flit in order delivers its payload and acknowledges it. -/
theorem exec_next {c : BitVec 6 → Flit → Instr} (hc : takes f c) (h : nextInOrder s link f r) {u : State}
    (hu : (inOrder s link r).deliverPayload (decide (18 ≤ link.toNat)) f = u) :
    exec (c link f) s = .next (acknowledging u link f r) := by
  obtain ⟨hup, hgood, hr, h0, hw⟩ := h
  rw [exec_takes hc, receive_next hup hgood hr h0 hw, hu]

theorem deliverPayload_barrier (hkind : f.kind = 2) (die : Bool) : s.deliverPayload die f =
    (s.arrive (decide (f.payload.headD 0 ≠ 0)) (leNat ((f.payload.drop 1).take 2) % 4096)).1 := by
  have hbit : (f.payload.headD 0 != 0) = decide (f.payload.headD 0 ≠ 0) := by
    rw [Bool.eq_iff_iff, bne_iff_ne, decide_eq_true_iff]
  rw [State.deliverPayload, hkind, ← hbit]
  rfl

theorem deliverPayload_data (hkind : f.kind = 3) (die : Bool) : s.deliverPayload die f = s.collReceive die 3 f.payload := by
  rw [State.deliverPayload, hkind]
  rfl

theorem deliverPayload_ctl (hkind : f.kind = 4) (die : Bool) : s.deliverPayload die f = s.collReceive die 4 f.payload := by
  rw [State.deliverPayload, hkind]
  rfl

end

section
variable {s : State} {c : CollCmd} {a : CtlRec} (hc : s.coll? c.die c.comm c.k = some c)
include hc

/-- What a record other than a status does to a command. -/
theorem collCtl_record_clauses (hrec : a.kind ≠ 2) (h0 : c.stage = 0) :
    ((saw c a).seen.length < (s.commOf c.die c.comm).length → s.collCtl c a = s.modColl (saw c a)) ∧
    ((s.commOf c.die c.comm).length ≤ (saw c a).seen.length → s.cur.exists_ = true → c.key = s.cur.key →
      (c.op = 4 → (saw c a).agreed = true → s.collCtl c a =
        (if c.bar.getLsbD 15 then ((s.modColl (saw c a)).arrive (c.bar.getLsbD 12) (c.bar.toNat % 4096)).1
          else s.modColl (saw c a)).endColl (saw c a) 0 0) ∧
      ((saw c a).agreed = false → c.ended = [] → 2 ≤ (s.commOf c.die c.comm).length →
        let z := (s.modColl (failedAs (saw c a) 2 0)).sendRanks c.die c.comm c.rank 4 [ctlBytes (statusRecord c 2)]
        z.2 = true → s.collCtl c a = z.1)) := by
  rw [collCtl_record hrec]
  have hsame : SameCmd c (saw c a) := ⟨rfl, rfl, rfl⟩
  refine ⟨fun hn => collGo_unseen hc hsame h0 hn, fun hn hcur hkey => ?_⟩
  have ht : s.strand? (saw c a).key = some s.cur := (congrArg s.strand? hkey).trans (strand?_cur hcur)
  refine ⟨fun hop ha => collGo_barrier hc hsame ht h0 hn ha hop, fun ha hend h2 => ?_⟩
  exact collGo_differs hc hsame ht h0 hn ha hend h2

/-- What the last of the statuses does to a command whose own part is over. -/
theorem collCtl_last_clauses (hrec : a.kind = 2) (h6 : a.status ≠ 6) (h2 : 2 ≤ c.stage)
    (hn : (s.commOf c.die c.comm).length ≤ (told c a).ended.length) (hcur : s.cur.exists_ = true) (hkey : c.key = s.cur.key) :
    ((∀ x ∈ (told c a).ended, x.2 = 0 ∨ x.2 = 5) → s.collCtl c a = (s.modColl (told c a)).endColl (told c a) 0 0) ∧
    (∀ x ∈ (told c a).ended, x.2 ≠ 0 → x.2 ≠ 5 →
      (∀ y ∈ (told c a).ended, y = x ∨ y.2 = 0 ∨ y.2 = 5 ∨ x.1.toNat < y.1.toNat) →
      s.collCtl c a = (s.modColl (told c a)).failColl (told c a) x.2.toNat (if x.2 = c.status then c.reason.toNat else 0)) := by
  have ht : s.strand? (told c a).key = some s.cur := (congrArg s.strand? hkey).trans (strand?_cur hcur)
  rw [collCtl_status hrec h6 (.inr h2), collGo_judges hc (c' := told c a) ⟨rfl, rfl, rfl⟩ ht h2 hn]
  refine ⟨fun hok => if_pos (verdict_ok fun y hy => (failing_false_iff _).mpr (hok y hy)), fun x hx hx0 hx5 hlow => ?_⟩
  have hverdict := verdict_lowest hx ((failing_iff _).mpr ⟨hx0, hx5⟩) fun y hy => by
    rw [failing_false_iff, or_assoc]
    exact hlow y hy
  rw [hverdict]
  exact if_neg hx0

end

/-- Settles O49: where a flit goes is decided by the link's state, its check, its route and its distance from what its flow
expects; what its payload does is decided by its kind and by the stage of the command that it names. -/
theorem linkReceive : Obligations.LinkReceive := by
  refine ⟨⟨fun s link f c hc => ?_, fun s link f h => congrArg _ (if_pos h)⟩, fun s link f r h => ?_,
    fun s die kind p h => ?_, fun s die p c h => ?_⟩
  · obtain ⟨hlost, hbad⟩ := takes_clauses (s := s) (link := link) hc
    exact ⟨hlost, hbad, takes_good_clauses hc⟩
  · exact ⟨fun hk => exec_next (.inr (.inl ⟨rfl, hk⟩)) h (deliverPayload_barrier hk _),
      fun hk => exec_next (.inr (.inr (.inl ⟨rfl, hk⟩))) h (deliverPayload_data hk _),
      fun hk hrec => exec_next (.inr (.inr (.inr (.inl ⟨rfl, hk, hrec⟩)))) h (deliverPayload_ctl hk _),
      fun hk hrec => exec_next (.inr (.inr (.inr (.inr (.inl ⟨rfl, hk, hrec⟩))))) h (deliverPayload_ctl hk _),
      fun hk hrec => exec_next (.inr (.inr (.inr (.inr (.inr ⟨rfl, hk, hrec⟩))))) h (deliverPayload_ctl hk _)⟩
  · intro next kept a
    refine ⟨fun hnext => ?_, fun hne hlt => ?_⟩
    · rw [collReceive_untaken h, if_pos hnext]
      refine ⟨keepEarly_quiet, fun rank hkind hrec h0 h5 hnone hrank => ?_⟩
      subst hkind
      exact keepEarly_answers hrec h0 h5 hnone hrank
    · rw [collReceive_untaken h, if_neg]
      rintro (h | h)
      · exact hne h
      · exact Bool.noConfusion (hlt.symm.trans h)
  · intro n a c1
    rw [collReceive_ctl h, collReceive_data h]
    have hcoll : s.coll? die (payloadComm p) (payloadK p) = some c := h
    obtain ⟨rfl, hcomm, hk⟩ := coll?_same hcoll
    rw [← hcomm, ← hk] at hcoll
    refine ⟨fun hrec h0 => (collCtl_record_clauses hcoll hrec h0).1,
      fun hrec h0 hn hcur hkey => ((collCtl_record_clauses hcoll hrec h0).2 hn hcur hkey).1,
      fun hrec h0 hn hcur hkey ha hend h2 => ?_, fun hrec h6 => ⟨fun h0 hn hok => ?_, fun h2 hn => ?_,
        fun h2 hn hcur hkey => collCtl_last_clauses hcoll hrec h6 h2 hn hcur hkey, fun h2 h0 h5 hend hrank hn => ?_⟩,
      fun hrec h6 => collCtl_linkDown hrec h6, fun hat => collData_misplaced hat, fun hat h0 hn => collData_joins hcoll h0 hn hat⟩
    · have hfailed : failedAs (saw c a) 2 0 = { c1 with stage := 3, status := 2, reason := 0, ended := [(c.rank, 2)] } := by
        have hstage : (saw c a).stage ≠ 4 := fun h4 => by rw [show (saw c a).stage = 0 from h0] at h4; cases h4
        have hnote : noteStatus (saw c a).ended (saw c a).rank 2 = [(c.rank, 2)] := by
          rw [show (saw c a).ended = [] from hend]
          rfl
        rw [failedAs, if_neg hstage, hnote]
        rfl
      rw [← hfailed]
      exact ((collCtl_record_clauses hcoll hrec h0).2 hn hcur hkey).2 ha hend h2
    · rw [collCtl_status hrec h6 (.inl ((failing_false_iff _).mpr hok))]
      exact collGo_unseen hcoll (c' := told c a) ⟨rfl, rfl, rfl⟩ h0 hn
    · rw [collCtl_status hrec h6 (.inr h2)]
      exact collGo_waits hcoll (c' := told c a) ⟨rfl, rfl, rfl⟩ h2 hn
    · have hanswer := collCtl_answers (s := s) hrec h6 ((failing_iff _).mpr ⟨h0, h5⟩) h2 hend hrank rfl
      exact ⟨fun h3 hsent => (hanswer hsent).1 h3, fun h3 hsent => (hanswer hsent).2 h3⟩

end Sys2Proof.Machine

/-! A replay time-out of a FAILED flow (R26, R28, log 45). -/

namespace Sys2Proof.Machine

/-! ### The counterexample: a FAILED flow that still names a link -/

/-- A flow of die 0 that is FAILED, keeps one payload for its renewal and names link 0: what `State.reroute` makes of a
FAILED flow whose link has come up again, while its route has not been given again. -/
def failedFlow : TxFlow :=
  { id := 0, die := false, flow := 0, next := 1, unacked := [makeFlit 0 0 0 []], current := some 0, failed := true }

def failedFlowState : State := { State.reset with txFlows := [failedFlow] }

/-- Nothing of a FAILED flow is resent. -/
theorem exec_replayTimeout_failed {s : State} {n : Nat} {x : TxFlow} (h : s.txFlows.find? (fun y => y.id == n) = some x)
    (hx : x.failed = true) : exec (.replayTimeout n) s = .next s := by
  change execReplayTimeout n s = _
  unfold execReplayTimeout
  rw [h]
  exact congrArg _ (if_pos hx)

/-- Refutes O50: its clause on the time-out has every flow resend what is not acknowledged, and no hypothesis leaves the
FAILED ones out: at `failedFlowState` the wire must get a flit, and stays empty. The clause on a NAK has the same gap. -/
theorem not_linkControl : ¬ Obligations.LinkControl := by
  unfold Obligations.LinkControl
  rintro ⟨_, _, _, timeout, _⟩
  have hmust := timeout failedFlowState failedFlow 0 rfl rfl
  have hdoes : exec (.replayTimeout failedFlow.id) failedFlowState = .next failedFlowState :=
    exec_replayTimeout_failed (x := failedFlow) rfl rfl
  have hwire := congrArg State.wire (Host.Outcome.next.inj (hdoes.symm.trans hmust))
  exact absurd (congrArg List.length hwire) (by decide)

end Sys2Proof.Machine

/-! The block-transfer engine: taking a command, the bytes that a beat gathers, a beat (R307 to R312). -/

namespace Sys2Proof.Machine

open Sys2Proof.Claims

noncomputable section

/-! ### Taking a command (R309) -/

/-- The current strand's words at the head of e0 have been taken. -/
def bteTaken (s : State) : State :=
  { s with
    cur := wordsTaken s.cur (s.cur.ports.e0.drop (bteWords (s.cur.ports.e0.headD 0))) s.cur.ports.e2, nextBte := s.nextBte + 1 }

/-- What the checks of a command come to, in a state that took its words from a strand. -/
def bteJudged (u : State) (t : Strand) (w : List Word) (c : BteCmd) : State :=
  if bteGood t w c = true then
    match bteRange t c with
    | some cause => u.endBte c xRANGE cause.toNat
    | none =>
      match (if barV c.bar then u.announce (barDie c.bar) (barIdx c.bar) c.total else some u) with
      | none => u.endBte c xOVERFLOW 0
      | some v => { v with bte := v.bte ++ [c] }
  else u.endBte c xBADCMD 0

theorem takeBte_cur {s : State} (hcur : s.cur.exists_ = true) (hrun : s.cur.life = .running)
    (hfull : portFull 0 s.cur.ports.e0 = true) :
    let w := s.cur.ports.e0.take (bteWords (s.cur.ports.e0.headD 0))
    s.takeBte s.cur.key = bteJudged (bteTaken s) s.cur w (bteCmdOf s.cur s.nextBte w) := by
  intro w
  have hgo : ¬ (s.cur.life ≠ .running ∨ (!portFull 0 s.cur.ports.e0) = true) := by rw [hrun, hfull]; decide
  unfold State.takeBte
  rw [strand?_cur hcur]
  dsimp only
  rw [if_neg hgo, modStrand_cur hcur]
  unfold bteJudged
  cases hgood : bteGood s.cur w (bteCmdOf s.cur s.nextBte w) <;> rfl

section
variable {u : State} {t : Strand} {w : List Word} {c : BteCmd}

theorem bteJudged_bad (h : bteGood t w c = false) : bteJudged u t w c = u.endBte c 2 0 :=
  if_neg (Bool.eq_false_iff.mp h)

variable (hgood : bteGood t w c = true)
include hgood

theorem bteJudged_range {cause : BitVec 8} (h : bteRange t c = some cause) : bteJudged u t w c = u.endBte c 4 cause.toNat := by
  unfold bteJudged
  rw [if_pos hgood, h]
  rfl

variable (hrange : bteRange t c = none)
include hrange

theorem bteJudged_quiet (h : c.bar.getLsbD 15 = false) : bteJudged u t w c = { u with bte := u.bte ++ [c] } := by
  have hv : barV c.bar = false := h
  unfold bteJudged
  rw [if_pos hgood, hrange, hv]
  rfl

variable (hbar : c.bar.getLsbD 15 = true)
include hbar

theorem bteJudged_announced {b : Barrier} (hb : u.bar (barKey (barDie c.bar) (barIdx c.bar)) = b)
    (h : b.pending.toNat + c.total < 2 ^ 40) : bteJudged u t w c =
      { u.setBar (barKey (barDie c.bar) (barIdx c.bar)) { b with pending := BitVec.ofNat 40 (b.pending.toNat + c.total) } with
        bte := u.bte ++ [c] } := by
  subst hb
  have hv : barV c.bar = true := hbar
  unfold bteJudged
  rw [if_pos hgood, hrange, hv, if_pos rfl, announce_fits h]
  rfl

theorem bteJudged_overflows (h : 2 ^ 40 ≤ (u.bar (barKey (barDie c.bar) (barIdx c.bar))).pending.toNat + c.total) :
    bteJudged u t w c = u.endBte c 3 0 := by
  have hv : barV c.bar = true := hbar
  unfold bteJudged
  rw [if_pos hgood, hrange, hv, if_pos rfl, announce_overflows h]
  rfl

end

/-! ### The bytes of a beat (R308, R310, R312) -/

theorem value_eq_beatByte (s : State) (c : BteCmd) (i : Nat) : c.value s s.cur i = beatByte s c i := by
  unfold BteCmd.value beatByte
  by_cases h3 : c.op = 3
  · rw [if_pos h3, if_pos h3]
  · rw [if_neg h3, if_neg h3]
    have hop : (c.op != 3) = true := bne_iff_ne.mpr h3
    have hin : c.inside i = true ↔ i / c.rb < c.vr ∧ i % c.rb < c.vb := by
      rw [BteCmd.inside, hop]
      simp
    refine if_congr hin ?_ rfl
    unfold pinByte
    change (match pinAccess s s.cur c.spin .read (c.src + BitVec.ofNat 64 (i / c.rb) * c.sstride + BitVec.ofNat 64 (i % c.rb)) 1 with
      | .error x => _
      | .ok ks => _) = _
    split <;> simp [*]

theorem place_eq_beatPlace (s : State) (c : BteCmd) (i : Nat) : c.place s s.cur i = beatPlace s c i := rfl

theorem pinBytes_turn (s : State) (l : List (Nat × Nat)) (t : Strand) (k : BitVec 3) (kind : AKind) (p : Pin) (n va : Nat) :
    pinBytes { s with bteTurn := l } t k kind p n va = pinBytes s t k kind p n va := by
  induction n generalizing va with
  | zero => rfl
  | succ n ih =>
    rw [pinBytes, pinBytes, ih]
    rfl

theorem firstPoison_turn (s : State) (l : List (Nat × Nat)) (ks : List Nat) (i : Nat) :
    firstPoison { s with bteTurn := l } ks i = firstPoison s ks i := by
  induction ks generalizing i with
  | nil => rfl
  | cons k ks ih =>
    rw [firstPoison, firstPoison, ih]
    rfl

/-- Whose turn it is has no part in where an access goes. -/
theorem pinAccess_turn (s : State) (l : List (Nat × Nat)) (t : Strand) (k : BitVec 3) (kind : AKind) (va : Word) (n : Nat) :
    pinAccess { s with bteTurn := l } t k kind va n = pinAccess s t k kind va n := by
  unfold pinAccess
  simp only [pinBytes_turn, firstPoison_turn]

theorem gather_turn (s : State) (l : List (Nat × Nat)) (c : BteCmd) (t : Strand) (n i : Nat) :
    c.gather { s with bteTurn := l } t n i = c.gather s t n i := by
  have hvalue (i : Nat) : c.value { s with bteTurn := l } t i = c.value s t i := by
    unfold BteCmd.value pinByte
    rw [pinAccess_turn]
  have hplace (i : Nat) : c.place { s with bteTurn := l } t i = c.place s t i := by
    unfold BteCmd.place
    rw [pinAccess_turn]
  induction n generalizing i with
  | zero => rfl
  | succ n ih => rw [BteCmd.gather, BteCmd.gather, ih, hvalue, hplace]

theorem gather_turnPassed (s : State) (c : BteCmd) (t : Strand) (n i : Nat) :
    c.gather (turnPassed s c) t n i = c.gather s t n i := by
  unfold turnPassed
  split
  · rfl
  · exact gather_turn ..

/-- What some bytes of a beat add to what comes behind them. -/
def beatBefore (c : BteCmd) (i : Nat) (bytes : List Byte) (keys : List (List Nat)) (z : Beat) : Beat :=
  { keys := keys.flatten ++ z.keys, bytes := bytes ++ z.bytes
    pad := (List.range bytes.length).any (fun j => c.op != 3 && !c.inside (i + j)) || z.pad
    read := (List.range bytes.length).any (fun j => c.inside (i + j)) || z.read, stop := z.stop }

theorem any_range_succ (p : Nat → Bool) (i m : Nat) :
    (List.range (m + 1)).any (fun j => p (i + j)) = (p i || (List.range m).any (fun j => p (i + 1 + j))) := by
  rw [List.range_succ_eq_map, List.any_cons, List.any_map]
  simp [Function.comp_def, Nat.add_assoc, Nat.add_comm 1]

/-- Bytes that can be delivered are gathered before what comes behind them. -/
theorem gather_append {s : State} {c : BteCmd} (r : Nat) (bytes : List Byte) : ∀ (keys : List (List Nat)) (i : Nat),
    bytes.length = keys.length →
    (∀ j, j < bytes.length → beatByte s c (i + j) = .ok (bytes.getD j 0) ∧ beatPlace s c (i + j) = .ok (keys.getD j [])) →
    c.gather s s.cur (bytes.length + r) i = beatBefore c i bytes keys (c.gather s s.cur r (i + bytes.length)) := by
  induction bytes with
  | nil =>
    intro keys i hlen _
    obtain rfl := List.length_eq_zero_iff.mp hlen.symm
    simp [beatBefore]
  | cons b bytes ih =>
    intro keys i hlen h
    obtain _ | ⟨ks, keys⟩ := keys
    · cases hlen
    · have hrest := ih keys (i + 1) (Nat.succ.inj hlen) fun j hj => by
        have := h (j + 1) (Nat.succ_lt_succ hj)
        rwa [show i + (j + 1) = i + 1 + j by omega] at this
      obtain ⟨hbyte, hplace⟩ := h 0 (Nat.succ_pos _)
      rw [Nat.add_zero] at hbyte hplace
      rw [show (b :: bytes).length + r = bytes.length + r + 1 by simp; omega, BteCmd.gather, value_eq_beatByte, hbyte,
        place_eq_beatPlace, hplace]
      dsimp only
      rw [hrest, beatBefore, beatBefore, List.length_cons, any_range_succ (fun j => c.op != 3 && !c.inside j),
        any_range_succ c.inside, show i + 1 + bytes.length = i + (bytes.length + 1) by omega]
      simp only [List.getD_cons_zero, List.flatten_cons, List.append_assoc, List.cons_append, Beat.mk.injEq, true_and, and_true]
      constructor <;> · generalize List.any _ _ = a; ac_rfl

/-- A byte that cannot be read, or that has no place, ends what a beat gathers. -/
theorem gather_stops {s : State} {c : BteCmd} {x : Stop} {i : Nat} (n : Nat) (h : beatByte s c i = .error x ∨
    ((∃ b, beatByte s c i = .ok b) ∧ beatPlace s c i = .error x)) :
    c.gather s s.cur (n + 1) i = { keys := [], bytes := [], pad := false, read := false, stop := some x } := by
  rw [BteCmd.gather, value_eq_beatByte, place_eq_beatPlace]
  rcases h with h | ⟨⟨b, hb⟩, h⟩
  · rw [h]
  · rw [hb]
    dsimp only
    rw [h]

/-! ### A beat (R310) -/

/-- How a beat ends, once its bytes are in their places. -/
def beatEnds (v : State) (c c' : BteCmd) (stop : Option Stop) : State :=
  match stop with
  | some x => (x.cause).elim v (fun cause => (v.mirrorCheck c.key x).stopBte c' cause)
  | none => if c'.total ≤ c'.delivered then (if c.op = 4 ∧ c.endMark = true then v.putMark c' else v).endBte c' xOK 0 else v

/-- A beat that gathers some bytes, and nothing behind them. -/
def beatOf (c : BteCmd) (i : Nat) (bytes : List Byte) (keys : List (List Nat)) (stop : Option Stop) : Beat :=
  { keys := keys.flatten, bytes := bytes, pad := (List.range bytes.length).any (fun j => c.op != 3 && !c.inside (i + j))
    read := (List.range bytes.length).any (fun j => c.inside (i + j)), stop := stop }

theorem beatBefore_nothing (c : BteCmd) (i : Nat) (bytes : List Byte) (keys : List (List Nat)) (stop : Option Stop) :
    beatBefore c i bytes keys { keys := [], bytes := [], pad := false, read := false, stop := stop } =
      beatOf c i bytes keys stop := by
  simp [beatBefore, beatOf]

/-- The bytes of a beat in their places, at their homes or in the stream port. -/
theorem putBeat_eq {v : State} {c : BteCmd} (hcur : v.cur.exists_ = true) (hkey : c.key = v.cur.key) (i : Nat)
    (bytes : List Byte) (keys : List (List Nat)) (stop : Option Stop) :
    State.landed { v.putBeat c (beatOf c i bytes keys stop) with
      bte := (v.putBeat c (beatOf c i bytes keys stop)).bte.map (fun x => if x.id = c.id then beatMoved c bytes.length else x) }
        c.bar bytes.length = beatDone v c bytes keys := by
  have hlanded (u : State) : u.landed c.bar bytes.length = if c.bar.getLsbD 15 = true ∧ bytes ≠ [] then
      u.deliver (c.bar.getLsbD 12) (c.bar.toNat % 4096) bytes.length else u := by
    unfold State.landed
    exact if_congr (and_congr Iff.rfl (not_congr List.length_eq_zero_iff)) rfl rfl
  have hput : v.putBeat c (beatOf c i bytes keys stop) =
      if c.op = 4 then
        if bytes = [] then v
        else { v with cur := { v.cur.setStream c.port (v.cur.stream c.port ++ bytes.map StreamItem.byte) with
          latch := v.cur.latch ||| 4 } }
      else v.homeWrite keys.flatten bytes := by
    unfold State.putBeat
    refine if_congr Iff.rfl (if_congr Iff.rfl rfl ?_) rfl
    rw [hkey, modStrand_cur hcur]
    rfl
  rw [hlanded, hput]
  rfl

/-- A beat of a command once it has gathered its bytes. -/
def beatGathered (v : State) (c : BteCmd) (b : Beat) : State :=
  let c' := { c with delivered := c.delivered + b.bytes.length, padded := c.padded || b.pad, readAny := c.readAny || b.read }
  beatEnds (State.landed { v.putBeat c b with bte := (v.putBeat c b).bte.map (fun x => if x.id = c.id then c' else x) } c.bar
    b.bytes.length) c c' b.stop

theorem beat_gathers {s : State} {c : BteCmd} (h : Beats s c) :
    s.beat c.id = beatGathered (turnPassed s c) c (c.gather (turnPassed s c) s.cur (beatLength s c) c.delivered) := by
  obtain ⟨hcur, hkey, hfind, hruns⟩ := h
  have hstrand : s.strand? c.key = some s.cur := hkey ▸ strand?_cur hcur
  have hturn : (if s.beatWaits c = true then s else s.servedBeat c) = turnPassed s c := by
    unfold State.servedBeat turnPassed
    by_cases hrow : c.row = true <;> simp [hrow]
  have hlen : (if c.op = 4 then Nat.min (Nat.min 256 (c.total - c.delivered)) (streamRoom s.cur c.port)
      else Nat.min 256 (c.total - c.delivered)) = beatLength s c := rfl
  unfold State.beat
  rw [hfind]
  dsimp only
  rw [hstrand]
  dsimp only
  rw [hruns, if_neg (by decide), hturn]
  rw [hlen]
  unfold beatGathered beatEnds
  generalize c.gather (turnPassed s c) s.cur (beatLength s c) c.delivered = b
  rcases b.stop with _ | ⟨_ | _ | _⟩ <;> rfl

/-- The beat of a command that has it. -/
theorem beat_eq {s : State} {c : BteCmd} (h : Beats s c) {bytes : List Byte} {keys : List (List Nat)} {stop : Option Stop}
    (hg : c.gather s s.cur (beatLength s c) c.delivered = beatOf c c.delivered bytes keys stop) :
    s.beat c.id = beatEnds (beatDone (turnPassed s c) c bytes keys) c (beatMoved c bytes.length) stop := by
  rw [beat_gathers h, gather_turnPassed, hg]
  obtain ⟨hcur, hkey, hfind, hruns⟩ := h
  have hturn_cur : (turnPassed s c).cur = s.cur := by unfold turnPassed; split <;> rfl
  exact congrArg (beatEnds · c (beatMoved c bytes.length) stop)
    (putBeat_eq (v := turnPassed s c) (c := c) (hturn_cur ▸ hcur) (hturn_cur ▸ hkey) c.delivered bytes keys stop)

section
variable {s : State} {c : BteCmd} {bytes : List Byte} {keys : List (List Nat)} (h : Beats s c) (hreads : beatReads s c bytes keys)
include h hreads

/-- A beat that can deliver all its bytes. -/
theorem beat_whole (hlen : bytes.length = beatLength s c) : s.beat c.id =
    beatEnds (beatDone (turnPassed s c) c bytes keys) c (beatMoved c bytes.length) none := by
  refine beat_eq h ?_
  have := gather_append 0 bytes keys c.delivered hreads.1 hreads.2
  rwa [Nat.add_zero, hlen, BteCmd.gather, beatBefore_nothing] at this

/-- A beat that meets a byte which cannot be delivered. -/
theorem beat_stopped {x : Stop} (hlen : bytes.length < beatLength s c)
    (hx : beatByte s c (c.delivered + bytes.length) = .error x ∨
      ((∃ b, beatByte s c (c.delivered + bytes.length) = .ok b) ∧ beatPlace s c (c.delivered + bytes.length) = .error x)) :
    s.beat c.id = beatEnds (beatDone (turnPassed s c) c bytes keys) c (beatMoved c bytes.length) (some x) := by
  refine beat_eq h ?_
  have := gather_append (beatLength s c - bytes.length - 1 + 1) bytes keys c.delivered hreads.1 hreads.2
  rwa [gather_stops _ hx, beatBefore_nothing, show bytes.length + (beatLength s c - bytes.length - 1 + 1) = beatLength s c by omega]
    at this

end

/-- A command that does not have the beat. -/
theorem beat_idle {s : State} {c : BteCmd} (hfind : s.bte.find? (fun x => x.id == c.id) = some c) (h : s.runsNow c = false) :
    s.beat c.id = s := by
  unfold State.beat
  rw [hfind]
  dsimp only
  split
  · rfl
  · rw [h]
    rfl

theorem beat_none {s : State} {id : Nat} (h : ∀ c ∈ s.bte, c.id ≠ id) : s.beat id = s := by
  have hnone : s.bte.find? (fun c => c.id == id) = none := List.find?_eq_none.mpr fun c hc => by simpa using h c hc
  unfold State.beat
  rw [hnone]

/-! ### A FILL of eight bytes (R308) -/

/-- The one command of the engine has the beat. -/
theorem beats_alone {s : State} {c : BteCmd} (hone : s.bte = [c]) (hcur : s.cur.exists_ = true) (hkey : c.key = s.cur.key) :
    Beats s c := by
  refine ⟨hcur, hkey, by simp [hone], ?_⟩
  have hrun (hrow : c.row = false) : s.running8 c.cluster = [c] := by simp [State.running8, hone, hrow]
  cases hrow : c.row with
  | true => simp [State.runsNow, hrow]
  | false => 
    by_cases hlast : sget 0 s.bteTurn c.cluster ≤ c.id <;> simp [State.runsNow, hrun hrow, hlast]

theorem giveAll_mem (s : State) : s.giveAll.mem = s.mem := by
  obtain ⟨_, _, _, h⟩ := givesOnly_giveAll s
  rw [h]

theorem endBte_mem (s : State) (c : BteCmd) (status reason : Nat) : (s.endBte c status reason).mem = s.mem := by
  unfold State.endBte
  dsimp only
  split
  · rfl
  · exact giveAll_mem _

theorem endBte_bte (s : State) (c : BteCmd) (status reason : Nat) :
    (s.endBte c status reason).bte = s.bte.filter (fun x => x.id != c.id) := by
  unfold State.endBte
  dsimp only
  split
  · rfl
  · obtain ⟨_, _, _, h⟩ := givesOnly_giveAll { s with
      bte := s.bte.filter (fun x => x.id != c.id)
      engineDone := s.engineDone ++ [{ key := c.key, coll := false
                                       w0 := doneWord c.tag reason ((if c.padded then 1 else 0) + (if c.readAny then 0 else 2)) status
                                       w1 := wNat c.delivered }] }
    rw [h]

/-- The bytes of a FILL are its pattern's, eight in turn. -/
theorem fill_reads {s : State} {c : BteCmd} {keys : List Nat} (hrow : c.row = false) (hop : c.op = 3) (hzero : c.delivered = 0)
    (hrb : c.rb = 8) (hstride : c.dstride = 0) (hlen : keys.length = 8)
    (hpin : ∀ n, n < 8 → pinAccess s s.cur c.dpin .write (c.dst + BitVec.ofNat 64 n) 1 = .ok [keys.getD n 0]) :
    beatReads s c (leBytes 8 c.src.toNat) (keys.map (fun k => [k])) := by
  have hkeys : (leBytes 8 c.src.toNat).length = (keys.map (fun k => [k])).length := by rw [List.length_map, hlen]; rfl
  refine ⟨hkeys, fun j hj => ?_⟩
  have hj8 : j < 8 := hj
  rw [hzero, Nat.zero_add]
  constructor
  · have hbyte : (leBytes 8 c.src.toNat).getD j 0 = BitVec.ofNat 8 (c.src.toNat / 2 ^ (8 * j)) := by
      interval_cases j <;> simp [leBytes, Nat.div_div_eq_div_mul]
    rw [beatByte, if_pos hop, hbyte, Nat.mod_eq_of_lt hj8]
  · have hkey : (keys.map (fun k => [k])).getD j [] = [keys.getD j 0] := by
      simp [List.getD, List.getElem?_eq_getElem (hlen ▸ hj8)]
    have hplace : c.dst + BitVec.ofNat 64 (j / c.rb) * c.dstride + BitVec.ofNat 64 (j % c.rb) = c.dst + BitVec.ofNat 64 j := by
      rw [hrb, hstride, Nat.mod_eq_of_lt hj8, BitVec.ofNat_eq_ofNat, BitVec.mul_zero, BitVec.add_zero]
    rw [beatPlace, hrow, if_neg (by decide), if_neg (by rw [hop]; decide), hplace, hkey]
    exact hpin j hj8

/-- A beat that writes at homes writes its bytes there and nowhere else. -/
theorem beatDone_mem {s : State} {c : BteCmd} (hop : c.op ≠ 4) (hbar : c.bar.getLsbD 15 = false) (bytes : List Byte)
    (keys : List (List Nat)) : (beatDone (turnPassed s c) c bytes keys).mem = memWriteList s.mem keys.flatten bytes := by
  have hturn : (turnPassed s c).mem = s.mem := by unfold turnPassed; split <;> rfl
  unfold beatDone
  rw [if_neg hop, if_neg (by rw [hbar]; simp)]
  exact (homeWrite_mem ..).trans (by rw [hturn])

theorem unpoison_bte (s : State) (k : Nat) : (s.unpoison k).bte = s.bte := by
  unfold State.unpoison
  split
  · rfl
  · split
    · rfl
    · dsimp only
      split
      · obtain ⟨_, _, _, _, h⟩ := addError_eq { s with poison := sset none s.poison (lineOf k) none } 3 (errSource k) 0 0
          (lineOf k * 64)
        rw [h]
      · rfl

theorem writeByte_bte (s : State) (k : Nat) (b : Byte) : (s.writeByte k b).bte = s.bte := by
  unfold State.writeByte
  rw [unpoison_bte]
  unfold State.markVat
  split <;> rfl

theorem homeWrite_bte (s : State) (ks : List Nat) (bs : List Byte) : (s.homeWrite ks bs).bte = s.bte := by
  have hbytes (ks : List Nat) : ∀ (t : State) (bs : List Byte), (t.writeBytes ks bs).bte = t.bte := by
    induction ks with
    | nil => exact fun t bs => rfl
    | cons k ks ih =>
      rintro t (_ | ⟨b, bs⟩)
      · rfl
      · exact (ih _ bs).trans (writeByte_bte t k b)
  rw [State.homeWrite, hbytes]
  unfold State.filterLines
  split
  · generalize s.cores = cs
    exact List.foldlRecOn (motive := fun t : State => t.bte = s.bte) cs _ rfl fun t ht c _ => ht
  · rfl

/-- The engine's one command moves on with its beat. -/
theorem beatDone_bte {s : State} {c : BteCmd} (hop : c.op ≠ 4) (hbar : c.bar.getLsbD 15 = false) (hone : s.bte = [c])
    (bytes : List Byte) (keys : List (List Nat)) :
    (beatDone (turnPassed s c) c bytes keys).bte = [beatMoved c bytes.length] := by
  have hturn : (turnPassed s c).bte = s.bte := by unfold turnPassed; split <;> rfl
  unfold beatDone
  rw [if_neg hop, if_neg (by rw [hbar]; simp)]
  dsimp only
  rw [homeWrite_bte, hturn, hone, List.map_cons, if_pos rfl, List.map_nil]

theorem beat_fill {s : State} {c : BteCmd} {keys : List Nat} (hmem : MemOk s) (hone : s.bte = [c]) (hcur : s.cur.exists_ = true)
    (hkey : c.key = s.cur.key) (hrow : c.row = false) (hop : c.op = 3) (hnr : c.nr = 1) (hbar : c.bar.getLsbD 15 = false)
    (hzero : c.delivered = 0) (hrb : c.rb = 8) (hstride : c.dstride = 0) (hnodup : keys.Nodup) (hlen : keys.length = 8)
    (hpin : ∀ n, n < 8 → pinAccess s s.cur c.dpin .write (c.dst + BitVec.ofNat 64 n) 1 = .ok [keys.getD n 0]) :
    let t := s.beat c.id
    memReadList t.mem keys = leBytes 8 c.src.toNat ∧ (∀ k, k ∉ keys → memRead t.mem k = memRead s.mem k) ∧ t.bte = [] := by
  intro t
  have hop4 : c.op ≠ 4 := by rw [hop]; decide
  have hbytes : (leBytes 8 c.src.toNat).length = beatLength s c := by
    rw [beatLength, hnr, hrb, hzero, if_neg hop4]
    rfl
  have ht : t = (beatDone (turnPassed s c) c (leBytes 8 c.src.toNat) (keys.map (fun k => [k]))).endBte
      (beatMoved c (leBytes 8 c.src.toNat).length) 0 0 := by
    rw [show t = _ from beat_whole (beats_alone hone hcur hkey) (fill_reads hrow hop hzero hrb hstride hlen hpin) hbytes]
    have hdone : (beatMoved c (leBytes 8 c.src.toNat).length).total ≤ (beatMoved c (leBytes 8 c.src.toNat).length).delivered := by
      change c.nr * c.rb ≤ c.delivered + 8
      rw [hnr, hrb, hzero]
    rw [beatEnds, if_pos hdone, if_neg fun h => hop4 h.1]
    rfl
  have hflat : (keys.map (fun k => [k])).flatten = keys :=
    List.flatMap_def.symm.trans (List.flatMap_singleton' keys)
  have htmem : t.mem = memWriteList s.mem keys (leBytes 8 c.src.toNat) := by
    rw [ht, endBte_mem, beatDone_mem hop4 hbar, hflat]
  refine ⟨?_, fun k hk => ?_, ?_⟩
  · rw [htmem]
    exact memReadList_memWriteList hmem hnodup (hlen.symm ▸ rfl)
  · rw [htmem, memRead_memWriteList_other _ _ _ hk]
  · rw [ht, endBte_bte, beatDone_bte hop4 hbar hone]
    simp [beatMoved]

end
end Sys2Proof.Machine

/-! Taking a collective command (R309, R313, R314). -/

namespace Sys2Proof.Machine

open Sys2Proof.Claims

noncomputable section

/-- The current strand's four words at the head of e2 have been taken. -/
def collTaken (s : State) : State :=
  { s with cur := wordsTaken s.cur s.cur.ports.e0 (s.cur.ports.e2.drop 4), nextBte := s.nextBte + 1 }

/-- What the checks of a command come to, in a state that took its words from a strand. -/
def collJudged (v : State) (t : Strand) (w : List Word) (n : Nat) (c : CollCmd) : State :=
  if !collGood t w c then v.turnDown c xBADCMD 0
  else if (c.op = 2 ∨ c.op = 3) ∧ c.count.toNat % n ≠ 0 then
    (((v.sendRanks c.die c.comm c.rank 4 [ctlBytes (c.ctl 1 0), ctlBytes (c.ctl 2 xBADCOUNT)]).1).endColl c xBADCOUNT
      0).heardColl c
  else
    match (if c.op = 4 then none else collRange t n c) with
    | some cause => v.turnDown c xRANGE cause.toNat
    | none =>
      match (if barV c.bar ∧ c.op ≠ 4 then v.announce (barDie c.bar) (barIdx c.bar) (c.announced n) else some v) with
      | none => v.turnDown c xOVERFLOW 0
      | some v => v.joinColl c

/-- The communicator that a command's first word names, as the table of counts keeps it. -/
def collPlace (t : Strand) (comm : BitVec 16) : Nat := (if t.die then 65536 else 0) + comm.toNat

/-- The command's number has been drawn, too. -/
def collCounted (s : State) (comm : BitVec 16) : State :=
  let place := collPlace s.cur comm
  { collTaken s with collCount := sset 0 s.collCount place (sget 0 s.collCount place + 1) }

theorem ofNat_fld (x lo len : Nat) : BitVec.ofNat len (fld x lo len) = BitVec.ofNat len (x / 2 ^ lo) := by
  apply BitVec.eq_of_toNat_eq
  simp [fld]

section
variable {s : State} {w : List Word} {comm : BitVec 16} (hcur : s.cur.exists_ = true) (hw : s.cur.ports.e2.take 4 = w)
  (hcomm : BitVec.ofNat 16 ((w.headD 0).toNat / 2 ^ 48) = comm)
include hw hcomm

theorem comm_of_words : BitVec.ofNat 16 (fld ((s.cur.ports.e2.take 4).getD 0 0).toNat 48 16) = comm := by
  rw [ofNat_fld, hw, ← hcomm]
  cases w <;> rfl

include hcur

theorem takeColl_unranked (hrank : s.ownRank s.cur.die comm = none) : s.takeColl s.cur.key s.cur =
    (collTaken s).endColl (collCmdOf s.cur s.nextBte 0 (sget 0 s.collCount (collPlace s.cur comm)) w) 2 0 := by
  unfold State.takeColl
  dsimp only
  rw [comm_of_words hw hcomm, modStrand_cur hcur]
  change (match s.ownRank s.cur.die comm with
    | none => _
    | some rank => _) = _
  rw [hrank, hw]
  rfl

theorem takeColl_ranked {rank : BitVec 16} (hrank : s.ownRank s.cur.die comm = some rank) : s.takeColl s.cur.key s.cur =
    collJudged (collCounted s comm) s.cur w (s.commOf s.cur.die comm).length
      (collCmdOf s.cur s.nextBte rank (sget 0 s.collCount (collPlace s.cur comm)) w) := by
  unfold State.takeColl
  dsimp only
  rw [comm_of_words hw hcomm, modStrand_cur hcur]
  change (match s.ownRank s.cur.die comm with
    | none => _
    | some rank => _) = _
  rw [hrank, hw]
  rfl

end

theorem execCollectiveCommandTake_full {s : State} (hcur : s.cur.exists_ = true) (hrun : s.cur.life = .running)
    (h4 : 4 ≤ s.cur.ports.e2.length) : execCollectiveCommandTake s.cur.key s = .next (s.takeColl s.cur.key s.cur) := by
  have hfull : portFull 2 s.cur.ports.e2 = true := by
    unfold portFull
    split
    · next h => rw [h] at h4; cases h4
    · exact decide_eq_true h4
  unfold execCollectiveCommandTake
  rw [strand?_cur hcur]
  exact if_pos ⟨hrun, hfull⟩

theorem execCollectiveCommandTake_idle {s : State} (hcur : s.cur.exists_ = true) (h4 : s.cur.ports.e2.length < 4)
    (hnone : ∀ c ∈ s.colls, c.key ≠ s.cur.key) : execCollectiveCommandTake s.cur.key s = .next s := by
  have hfull : portFull 2 s.cur.ports.e2 = false := by
    unfold portFull
    split
    · rfl
    · exact decide_eq_false (Nat.not_le.mpr h4)
  have hcolls : s.colls.filter (fun c => c.key == s.cur.key) = [] :=
    List.filter_eq_nil_iff.mpr fun c hc => by simpa using hnone c hc
  unfold execCollectiveCommandTake
  rw [strand?_cur hcur]
  dsimp only
  rw [if_neg (fun h => Bool.noConfusion (hfull.symm.trans h.2)), hcolls]
  rfl

end
end Sys2Proof.Machine

/-! A collective command that joins the engine or is turned down (R309, R314). -/

namespace Sys2Proof.Machine

open Sys2Proof.Claims

noncomputable section

theorem SendsOnly.keeps {s t : State} (h : SendsOnly s t) :
    t.members = s.members ∧ t.colls = s.colls ∧ t.collEarly = s.collEarly := by
  obtain ⟨_, _, _, rfl⟩ := h
  exact ⟨rfl, rfl, rfl⟩

/-! ### What came early -/

theorem heardColl_quiet {t : State} (h : t.collEarly = []) (c : CollCmd) : t.heardColl c = t.collGo c.die c.comm c.k := by
  have hsame : ({ t with collEarly := [] } : State) = t := by rw [← h]
  unfold State.heardColl
  rw [h]
  exact congrArg (fun u : State => u.collGo c.die c.comm c.k) hsame

/-- A command that ends with nothing heard of it early stays ended. -/
theorem heardColl_endColl {t : State} (h : t.collEarly = []) (c : CollCmd) (status reason : Nat) :
    (t.endColl c status reason).heardColl c = t.endColl c status reason := by
  rw [heardColl_quiet ((endColl_collEarly ..).trans h)]
  have hstay := collStage_none (coll?_endColl t c status reason)
  exact collGo_of_collStage hstay hstay

/-! ### A command new to the engine -/

/-- The engine with one command more. -/
def joined (u : State) (c : CollCmd) : State := { u with colls := u.colls ++ [c] }

section
variable {u : State} {c c1 c2 : CollCmd} (hnew : ∀ x ∈ u.colls, x.same c.die c.comm c.k = false)
include hnew

theorem coll?_joined (h : SameCmd c c1) : (joined u c1).coll? c.die c.comm c.k = some c1 := by
  have hnone : u.colls.find? (fun x => x.same c.die c.comm c.k) = none := List.find?_eq_none.mpr fun x hx => by simp [hnew x hx]
  obtain ⟨hd, hm, hk⟩ := h
  have hself : c1.same c.die c.comm c.k = true := same_iff.mpr ⟨hd, hm, hk⟩
  rw [State.coll?, joined, List.find?_append, hnone, List.find?_singleton, if_pos hself]
  rfl

theorem modColl_joined (h : SameCmd c c1) (h' : SameCmd c c2) : (joined u c1).modColl c2 = joined u c2 := by
  obtain ⟨hd, hm, hk⟩ := h'
  have hself : c1.same c.die c.comm c.k = true := same_iff.mpr h
  have hkeep : u.colls.map (fun x => if x.same c.die c.comm c.k then c2 else x) = u.colls :=
    (List.map_congr_left fun x hx => by rw [hnew x hx]; rfl).trans (List.map_id _)
  rw [State.modColl, hd, hm, hk, joined, joined]
  dsimp only
  rw [List.map_append, hkeep, List.map_singleton, if_pos hself]

omit hnew in
theorem endColl_joined (h : SameCmd c c1) (h' : SameCmd c c2) (hdone : c2.key = c.key ∧ c2.tag = c.tag ∧ c2.fl = c.fl ∧
    c2.delivered = c.delivered) (status reason : Nat) : (joined u c1).endColl c2 status reason = u.endColl c status reason := by
  obtain ⟨hd, hm, hk⟩ := h'
  obtain ⟨hkey, htag, hfl, hdel⟩ := hdone
  have hself : c1.same c.die c.comm c.k = true := same_iff.mpr h
  have hout : (u.colls ++ [c1]).filter (fun x => !x.same c.die c.comm c.k) = u.colls.filter (fun x => !x.same c.die c.comm c.k) := by
    rw [List.filter_append, List.filter_singleton, hself]
    exact List.append_nil _
  unfold State.endColl
  rw [hd, hm, hk, hkey, htag, hfl, hdel]
  exact congrArg (fun l => State.giveAll { u with
    colls := l
    engineDone := u.engineDone ++ [{ key := c.key, coll := true, w0 := doneWord c.tag reason c.fl.toNat status, w1 := wNat c.delivered }] })
    hout

end

/-! ### A command that a check turns down (R309) -/

/-- The command in the engine as a check turns it down. -/
def refusedCmd (c : CollCmd) : CollCmd := { c with stage := 4 }

/-- The command as its rank tells why it was turned down. -/
def turnedDown (c : CollCmd) (st : Nat) (reason : BitVec 8) : CollCmd :=
  { c with stage := 4, status := BitVec.ofNat 8 st, reason := reason, ended := [(c.rank, BitVec.ofNat 8 st)] }

section
variable {u : State} {c : CollCmd} {st : Nat} {reason : BitVec 8} (hearly : u.collEarly = [])
  (hnew : ∀ x ∈ u.colls, x.same c.die c.comm c.k = false) (hend : c.ended = []) (hst : st = 2 ∨ st = 3 ∨ st = 4)

theorem failedAs_turnedDown (hend : c.ended = []) :
    failedAs (refusedCmd c) (BitVec.ofNat 8 st) reason.toNat = turnedDown c st reason := by
  have hend' : (refusedCmd c).ended = [] := hend
  rw [failedAs, hend', BitVec.ofNat_toNat, BitVec.setWidth_eq]
  rfl

include hst in
theorem toNat_checkStatus : (BitVec.ofNat 8 st).toNat = st ∧ stops st = false ∧ st ≠ 6 ∧ failing (BitVec.ofNat 8 st) = true := by
  rcases hst with rfl | rfl | rfl <;> decide

include hearly hst

/-- The status told is the check's own where nothing was heard early. -/
theorem turnDown_eq : u.turnDown c st reason.toNat =
    ((joined u (refusedCmd c)).rankFail (refusedCmd c) st reason.toNat).heardColl (refusedCmd c) := by
  have htold : (answered u.collEarly c.die c.comm c.k).getD (BitVec.ofNat 8 st) = BitVec.ofNat 8 st := by rw [hearly]; rfl
  unfold State.turnDown
  dsimp only
  rw [htold, (toNat_checkStatus hst).1, if_pos rfl]
  rfl

include hnew hend

/-- Alone in its communicator the command completes at once. -/
theorem turnDown_alone (hn : (u.commOf c.die c.comm).length = 1) (hrank : u.ownRank c.die c.comm = some c.rank) :
    u.turnDown c st reason.toNat = u.endColl c st reason.toNat := by
  obtain ⟨hnat, hstop, h6, hfail⟩ := toNat_checkStatus hst
  have hmod : (joined u (refusedCmd c)).modColl (turnedDown c st reason) = joined u (turnedDown c st reason) :=
    modColl_joined hnew ⟨rfl, rfl, rfl⟩ ⟨rfl, rfl, rfl⟩
  have hsend := sendRanks_alone (s := joined u (turnedDown c st reason)) hn hrank 4 [ctlBytes (statusRecord c st)]
  have hverdict : (turnedDown c st reason).verdict = BitVec.ofNat 8 st :=
    verdict_lowest (x := (c.rank, BitVec.ofNat 8 st)) (List.mem_singleton.mpr rfl) hfail
      fun y hy => .inl (List.mem_singleton.mp hy)
  have hne : (turnedDown c st reason).verdict ≠ 0 := by
    rw [hverdict]
    exact ((failing_iff _).mp hfail).1
  have hfailed : (joined u (refusedCmd c)).rankFail (refusedCmd c) st reason.toNat = u.endColl c st reason.toNat := by
    rw [rankFail_told (c := refusedCmd c) (v := joined u (turnedDown c st reason)) h6
      (by rw [hstop, failedAs_turnedDown hend]; exact hmod.symm) (congrArg Prod.snd hsend), failedAs_turnedDown hend]
    change (State.sendRanks (joined u (turnedDown c st reason)) c.die c.comm c.rank 4 [ctlBytes (statusRecord c st)]).1.judgeColl _ = _
    rw [hsend]
    dsimp only
    rw [judgeColl_fails (s := joined u (turnedDown c st reason)) (c := turnedDown c st reason) hn.le hne, hverdict, hnat,
      if_pos (show BitVec.ofNat 8 st = (turnedDown c st reason).status from rfl), State.failColl]
    have hsettle : (joined u (turnedDown c st reason)).settleColl (turnedDown c st reason) st = joined u (turnedDown c st reason) :=
      if_pos (by simp [turnedDown])
    rw [hsettle]
    exact endColl_joined ⟨rfl, rfl, rfl⟩ ⟨rfl, rfl, rfl⟩ ⟨rfl, rfl, rfl, rfl⟩ _ _
  rw [turnDown_eq hearly hst, hfailed]
  exact heardColl_endColl hearly c st reason.toNat

/-- With other ranks it tells them its status, and waits for theirs. -/
theorem turnDown_waits (hn : 2 ≤ (u.commOf c.die c.comm).length)
    (hsent : ((joined u (turnedDown c st reason)).sendRanks c.die c.comm c.rank 4 [ctlBytes (statusRecord c st)]).2 = true) :
    u.turnDown c st reason.toNat =
      ((joined u (turnedDown c st reason)).sendRanks c.die c.comm c.rank 4 [ctlBytes (statusRecord c st)]).1 := by
  obtain ⟨hnat, hstop, h6, hfail⟩ := toNat_checkStatus hst
  have hmod : (joined u (refusedCmd c)).modColl (failedAs (refusedCmd c) (BitVec.ofNat 8 st) reason.toNat) =
      joined u (turnedDown c st reason) := by
    rw [failedAs_turnedDown hend]
    exact modColl_joined hnew ⟨rfl, rfl, rfl⟩ ⟨rfl, rfl, rfl⟩
  have hcoll := coll?_joined (c1 := refusedCmd c) hnew ⟨rfl, rfl, rfl⟩
  obtain ⟨hfailed, hstay⟩ := rankFail_waits (s := joined u (refusedCmd c)) (c := refusedCmd c)
    (reason := reason.toNat) hcoll h6 hstop (by rw [show (refusedCmd c).ended = [] from hend]; exact hn)
    (by rw [hmod]; exact hsent)
  rw [hmod] at hfailed hstay
  obtain ⟨_, _, hkept⟩ :=
    (sendsOnly_sendRanks (joined u (turnedDown c st reason)) c.die c.comm c.rank 4 [ctlBytes (statusRecord c st)]).keeps
  rw [turnDown_eq hearly hst, hfailed, heardColl_quiet]
  · exact collGo_of_collStage hstay hstay
  · exact hkept.trans hearly

end

/-! ### A command that joins (R314) -/

/-- The command with its own record seen. -/
def announcedCmd (c : CollCmd) : CollCmd := { c with seen := [collRecord c] }

theorem ctl_eq_collRecord (c : CollCmd) : c.ctl (if c.op = 4 then 3 else 1) 0 = collRecord c := by
  unfold CollCmd.ctl collRecord
  split <;> rfl

section
variable {u : State} {c : CollCmd} (hearly : u.collEarly = []) (hnew : ∀ x ∈ u.colls, x.same c.die c.comm c.k = false)
  (h0 : c.stage = 0)

theorem joinColl_announces (hsent : ((joined u (announcedCmd c)).sendRanks c.die c.comm c.rank 4 [ctlBytes (collRecord c)]).2 = true) :
    u.joinColl c =
      ((joined u (announcedCmd c)).sendRanks c.die c.comm c.rank 4 [ctlBytes (collRecord c)]).1.heardColl c := by
  unfold State.joinColl
  dsimp only
  rw [ctl_eq_collRecord]
  exact if_pos hsent

include hearly hnew h0

/-- With other ranks a command waits for their records. -/
theorem joinColl_waits (hn : 2 ≤ (u.commOf c.die c.comm).length)
    (hsent : ((joined u (announcedCmd c)).sendRanks c.die c.comm c.rank 4 [ctlBytes (collRecord c)]).2 = true) :
    u.joinColl c = ((joined u (announcedCmd c)).sendRanks c.die c.comm c.rank 4 [ctlBytes (collRecord c)]).1 := by
  obtain ⟨hmembers, hcolls, hkept⟩ :=
    (sendsOnly_sendRanks (joined u (announcedCmd c)) c.die c.comm c.rank 4 [ctlBytes (collRecord c)]).keeps
  generalize hv : ((joined u (announcedCmd c)).sendRanks c.die c.comm c.rank 4 [ctlBytes (collRecord c)]).1 = v
    at hmembers hcolls hkept
  have hcoll : v.coll? c.die c.comm c.k = some (announcedCmd c) :=
    (coll?_congr hcolls).trans (coll?_joined hnew ⟨rfl, rfl, rfl⟩)
  have hcomm : v.commOf c.die c.comm = u.commOf c.die c.comm := commOf_congr hmembers
  have hstay := collStage_unseen hcoll h0 (by rw [hcomm]; exact hn)
  rw [joinColl_announces hsent, hv, heardColl_quiet (hkept.trans hearly)]
  exact collGo_of_collStage hstay hstay

/-- Alone in its communicator a BARRIER arrives at its own barrier and completes. -/
theorem joinColl_barrier (hn : (u.commOf c.die c.comm).length = 1) (hrank : u.ownRank c.die c.comm = some c.rank)
    (hzero : c.rank = 0) (hop : c.op = 4) {t : Strand} (ht : u.strand? c.key = some t) :
    let y := joined u (announcedCmd c)
    u.joinColl c = (if c.bar.getLsbD 15 then (y.arrive (c.bar.getLsbD 12) (c.bar.toNat % 4096)).1 else y).endColl c 0 0 := by
  intro y
  have hsend := sendRanks_alone (s := y) hn hrank 4 [ctlBytes (collRecord c)]
  have hcoll : y.coll? c.die c.comm c.k = some (announcedCmd c) := coll?_joined hnew ⟨rfl, rfl, rfl⟩
  have hagreed : (announcedCmd c).agreed = true := by
    have hfind : (announcedCmd c).seen.find? (fun r => r.rank == 0) = some (collRecord c) := by
      simp [announcedCmd, collRecord, hzero]
    unfold CollCmd.agreed
    rw [hfind]
    simp [announcedCmd]
  have hgo := collStage_barrier hcoll (t := t) ht h0 hn.le hagreed hop
  rw [joinColl_announces (congrArg Prod.snd hsend)]
  change (y.sendRanks c.die c.comm c.rank 4 [ctlBytes (collRecord c)]).1.heardColl c = _
  rw [hsend]
  exact (heardColl_quiet (t := y) hearly c).trans (collGo_ended (c := c) hgo)

end

end
end Sys2Proof.Machine

/-! The obligation on the engines' commands (R303, R307 to R314). -/

namespace Sys2Proof.Machine

open Sys2Proof.Claims

/-! ### The checks of a collective command (R309, R313) -/

section
variable {v : State} {t : Strand} {w : List Word} {n : Nat} {c : CollCmd}

theorem collJudged_bad (h : collGood t w c = false) : collJudged v t w n c = v.turnDown c 2 0 :=
  if_pos (by rw [h]; rfl)

variable (hgood : collGood t w c = true)
include hgood

theorem collJudged_uneven (h : (c.op = 2 ∨ c.op = 3) ∧ c.count.toNat % n ≠ 0) : collJudged v t w n c =
    ((v.sendRanks c.die c.comm c.rank 4 [ctlBytes (collRecord c), ctlBytes (statusRecord c 5)]).1.endColl c 5 0).heardColl c := by
  have hop : c.op ≠ 4 := by rcases h.1 with h | h <;> rw [h] <;> decide
  have hrec : c.ctl 1 0 = collRecord c := by rw [← ctl_eq_collRecord, if_neg hop]
  unfold collJudged
  rw [hgood, if_neg (by decide), if_pos h, hrec]
  rfl

variable (heven : ¬ ((c.op = 2 ∨ c.op = 3) ∧ c.count.toNat % n ≠ 0))
include heven

theorem collJudged_range (hop : c.op ≠ 4) {cause : BitVec 8} (h : collRange t n c = some cause) :
    collJudged v t w n c = v.turnDown c 4 cause.toNat := by
  unfold collJudged
  rw [hgood, if_neg (by decide), if_neg heven, if_neg hop, h]
  rfl

theorem collJudged_announces (hop : c.op ≠ 4) (hrange : collRange t n c = none) (hbar : c.bar.getLsbD 15 = true)
    (h : announceFits v c.bar (c.announced n)) : collJudged v t w n c = (announcing v c.bar (c.announced n)).joinColl c := by
  have hannounce : v.announce (barDie c.bar) (barIdx c.bar) (c.announced n) = some (announcing v c.bar (c.announced n)) :=
    announce_fits h
  have hv : barV c.bar = true ∧ c.op ≠ 4 := ⟨hbar, hop⟩
  unfold collJudged
  rw [hgood, if_neg (by decide), if_neg heven, if_neg hop, hrange]
  dsimp only
  rw [if_pos hv, hannounce]

theorem collJudged_overflows (hop : c.op ≠ 4) (hrange : collRange t n c = none) (hbar : c.bar.getLsbD 15 = true)
    (h : ¬ announceFits v c.bar (c.announced n)) : collJudged v t w n c = v.turnDown c 3 0 := by
  have hannounce : v.announce (barDie c.bar) (barIdx c.bar) (c.announced n) = none := announce_overflows (Nat.le_of_not_lt h)
  have hv : barV c.bar = true ∧ c.op ≠ 4 := ⟨hbar, hop⟩
  unfold collJudged
  rw [hgood, if_neg (by decide), if_neg heven, if_neg hop, hrange]
  dsimp only
  rw [if_pos hv, hannounce]
  rfl

/-- A BARRIER, and a command with no barrier of its own, joins with nothing announced there. -/
theorem collJudged_joins (h : c.op = 4 ∨ (collRange t n c = none ∧ c.bar.getLsbD 15 = false)) :
    collJudged v t w n c = v.joinColl c := by
  have hrange : (if c.op = 4 then none else collRange t n c) = none := by
    split
    · rfl
    · next hop => exact (h.resolve_left hop).1
  have hquiet : ¬ (barV c.bar = true ∧ c.op ≠ 4) := fun ⟨hv, hop⟩ =>
    Bool.noConfusion ((h.resolve_left hop).2.symm.trans hv)
  unfold collJudged
  rw [hgood, if_neg (by decide), if_neg heven, hrange]
  dsimp only
  rw [if_neg hquiet]

end

/-- What becomes of a command that a check turns down. -/
theorem turnsDown {s v : State} {c : CollCmd} {n st : Nat} {reason : BitVec 8}
    (hexec : exec (.collectiveCommandTake s.cur.key) s = .next (v.turnDown c st reason.toNat)) (hst : st = 2 ∨ st = 3 ∨ st = 4)
    (hearly : v.collEarly = s.collEarly) (hcolls : v.colls = s.colls) (hn : (v.commOf c.die c.comm).length = n)
    (hrank : v.ownRank c.die c.comm = some c.rank) (hend : c.ended = []) : TurnsDown s v c n st reason := by
  refine ⟨hexec, fun hnone hnew => ?_⟩
  rw [← hearly] at hnone
  rw [← hcolls] at hnew ⊢
  rw [hexec]
  exact ⟨fun h1 => congrArg _ (turnDown_alone hnone hnew hend hst (hn.trans h1) hrank),
    fun h2 hsent => congrArg _ (turnDown_waits hnone hnew hend hst (hn ▸ h2) hsent)⟩

/-! ### The obligation -/

/-- The clauses on beats that end early. -/
theorem bteBeat_stopped {s : State} {c : BteCmd} {bytes : List Byte} {keys : List (List Nat)} {x : Stop} (h : Beats s c)
    (hlen : bytes.length < beatLength s c) (hreads : beatReads s c bytes keys)
    (hx : beatByte s c (c.delivered + bytes.length) = .error x ∨
      ((∃ b, beatByte s c (c.delivered + bytes.length) = .ok b) ∧ beatPlace s c (c.delivered + bytes.length) = .error x)) :
    (x = .hold → exec (.bteBeat c.id) s = .next (beatDone (turnPassed s c) c bytes keys)) ∧
    (∀ cause va info, x = .trap cause va info →
      let u := beatDone (turnPassed s c) c bytes keys
      let c' := beatMoved c bytes.length
      let v := if c.bar.getLsbD 15 then u.faultBar (c.bar.getLsbD 12) (c.bar.toNat % 4096) else u
      exec (.bteBeat c.id) s = .next ((if c.op = 4 then v.putMark c' else v).endBte c' 1 cause.toNat)) := by
  have hbeat : exec (.bteBeat c.id) s =
      .next (beatEnds (beatDone (turnPassed s c) c bytes keys) c (beatMoved c bytes.length) (some x)) :=
    congrArg _ (beat_stopped h hreads hlen hx)
  rw [hbeat]
  constructor
  · rintro rfl
    rfl
  · rintro cause va info rfl
    rfl

/-- The clauses on beats that deliver all their bytes. -/
theorem bteBeat_whole {s : State} {c : BteCmd} {bytes : List Byte} {keys : List (List Nat)} (h : Beats s c)
    (hlen : bytes.length = beatLength s c) (hreads : beatReads s c bytes keys) :
    let u := beatDone (turnPassed s c) c bytes keys
    let c' := beatMoved c bytes.length
    (c'.delivered < c.nr * c.rb → exec (.bteBeat c.id) s = .next u) ∧
    (c.nr * c.rb ≤ c'.delivered → exec (.bteBeat c.id) s = .next
      ((if c.op = 4 ∧ c.endMark = true then u.putMark c' else u).endBte c' 0 0)) := by
  intro u c'
  have hbeat : exec (.bteBeat c.id) s = .next (beatEnds u c c' none) := congrArg _ (beat_whole h hreads hlen)
  rw [hbeat]
  exact ⟨fun hlt => congrArg _ (if_neg (Nat.not_le.mpr hlt)), fun hle => congrArg _ (if_pos hle)⟩

/-- The clauses on taking a command from e0. -/
theorem bteCommandTake_clauses {s : State} (hcur : s.cur.exists_ = true) (hrun : s.cur.life = .running)
    (hfull : portFull 0 s.cur.ports.e0 = true) :
    let n := bteWords (s.cur.ports.e0.headD 0)
    let w := s.cur.ports.e0.take n
    let c := bteCmdOf s.cur s.nextBte w
    let u : State := { s with cur := wordsTaken s.cur (s.cur.ports.e0.drop n) s.cur.ports.e2, nextBte := s.nextBte + 1 }
    (bteGood s.cur w c = false → exec (.bteCommandTake s.cur.key) s = .next (u.endBte c 2 0)) ∧
    (∀ cause, bteGood s.cur w c = true → bteRange s.cur c = some cause →
      exec (.bteCommandTake s.cur.key) s = .next (u.endBte c 4 cause.toNat)) ∧
    (bteGood s.cur w c = true → bteRange s.cur c = none → c.bar.getLsbD 15 = false →
      exec (.bteCommandTake s.cur.key) s = .next { u with bte := s.bte ++ [c] }) ∧
    (∀ b, bteGood s.cur w c = true → bteRange s.cur c = none → c.bar.getLsbD 15 = true →
      s.bar ((if c.bar.getLsbD 12 then 4096 else 0) + c.bar.toNat % 4096) = b →
      (b.pending.toNat + c.nr * c.rb < 2 ^ 40 →
        let b' : Barrier := { b with pending := BitVec.ofNat 40 (b.pending.toNat + c.nr * c.rb) }
        exec (.bteCommandTake s.cur.key) s = .next
          { u.setBar ((if c.bar.getLsbD 12 then 4096 else 0) + c.bar.toNat % 4096) b' with bte := s.bte ++ [c] }) ∧
      (2 ^ 40 ≤ b.pending.toNat + c.nr * c.rb → exec (.bteCommandTake s.cur.key) s = .next (u.endBte c 3 0))) := by
  intro n w c u
  have htake : exec (.bteCommandTake s.cur.key) s = .next (bteJudged u s.cur w c) := congrArg _ (takeBte_cur hcur hrun hfull)
  rw [htake]
  refine ⟨fun h => congrArg _ (bteJudged_bad h), fun cause hgood h => congrArg _ (bteJudged_range hgood h),
    fun hgood hrange hbar => congrArg _ (bteJudged_quiet hgood hrange hbar), fun b hgood hrange hbar hb => ?_⟩
  subst hb
  exact ⟨fun hfits => congrArg _ (bteJudged_announced (u := u) hgood hrange hbar rfl hfits),
    fun hover => congrArg _ (bteJudged_overflows (u := u) hgood hrange hbar hover)⟩

/-- Settles O35: a beat is what it gathers before the first byte that cannot be delivered, put in its place; a command taken goes
the way of the first check that turns it down, and one that none does joins its engine. -/
theorem engineCommands : Obligations.EngineCommands := by
  refine ⟨⟨fun s c bytes keys h hlen hreads => bteBeat_whole h hlen hreads,
    fun s c bytes keys x h hlen hreads hx => bteBeat_stopped h hlen hreads hx, fun s c hfind h => congrArg _ (beat_idle hfind h)⟩,
    ⟨fun s hcur hrun hfull => bteCommandTake_clauses hcur hrun hfull, fun s id h => congrArg _ (beat_none h), ?_,
      fun s hcur h4 hnone => execCollectiveCommandTake_idle hcur h4 hnone⟩,
    fun s c keys hmem hone hcur hkey hrow hop hnr hbar hzero hrb hstride hnodup hlen hpin =>
      ⟨_, rfl, beat_fill hmem hone hcur hkey hrow hop hnr hbar hzero hrb hstride hnodup hlen hpin⟩⟩
  intro s hcur hrun h4 w comm place k u
  have hexec : exec (.collectiveCommandTake s.cur.key) s = .next (s.takeColl s.cur.key s.cur) :=
    execCollectiveCommandTake_full hcur hrun h4
  refine ⟨fun hrank => hexec.trans (congrArg _ (takeColl_unranked hcur rfl rfl hrank)), fun rank hrank => ?_⟩
  intro c n v uneven
  have hcomm : c.comm = comm := comm_of_words rfl rfl
  have htake : exec (.collectiveCommandTake s.cur.key) s = .next (collJudged v s.cur w n c) :=
    hexec.trans (congrArg _ (takeColl_ranked hcur rfl rfl hrank))
  have hn : (v.commOf c.die c.comm).length = n := by rw [hcomm]; rfl
  have hown : v.ownRank c.die c.comm = some c.rank := by rw [hcomm]; exact hrank
  have hdown {st : Nat} {reason : BitVec 8} (hst : st = 2 ∨ st = 3 ∨ st = 4)
      (h : collJudged v s.cur w n c = v.turnDown c st reason.toNat) : TurnsDown s v c n st reason :=
    turnsDown (htake.trans (congrArg _ h)) hst rfl rfl hn hown rfl
  refine ⟨fun hbad => hdown (.inl rfl) (collJudged_bad hbad), fun hgood hodd hearly hnew => ?_,
    fun cause hgood heven hop hrange => hdown (.inr (.inr rfl)) (collJudged_range hgood heven hop hrange),
    fun hgood heven hop hrange hbar => ⟨fun hfits => ?_, fun hover => ?_⟩, fun hgood heven hquiet => ?_⟩
  · obtain ⟨_, _, hkept⟩ := (sendsOnly_sendRanks v c.die c.comm c.rank 4
      [ctlBytes (collRecord c), ctlBytes (statusRecord c 5)]).keeps
    rw [htake, collJudged_uneven hgood hodd, heardColl_endColl (hkept.trans hearly)]
  · exact htake.trans (congrArg _ (collJudged_announces (v := v) hgood heven hop hrange hbar hfits))
  · exact hdown (.inr (.inl rfl)) (collJudged_overflows (v := v) hgood heven hop hrange hbar hover)
  · have hjoin := htake.trans (congrArg _ (collJudged_joins (v := v) hgood heven hquiet))
    have hkey : v.strand? c.key = some v.cur := strand?_cur (s := v) hcur
    refine ⟨hjoin, fun h2 hearly hnew => ?_, fun h1 hzero hearly hop hnew => ?_⟩
    · exact fun hsent => hjoin.trans (congrArg _ (joinColl_waits (u := v) (c := c) hearly hnew rfl (hn.symm ▸ h2) hsent))
    · exact hjoin.trans (congrArg _ (joinColl_barrier (u := v) (c := c) hearly hnew rfl (hn.trans h1) hown hzero hop hkey))

end Sys2Proof.Machine

/-! What settles a strand's queue leaves its pins alone (R107, R171, R200). -/

namespace Sys2Proof.Machine

open Sys2Proof.Claims

/-- The same strand, as far in its life and with the same pins. -/
structure SamePins (t u : Strand) : Prop where
  farm : u.farm = t.farm
  logid : u.logid = t.logid
  life : u.life = t.life
  pins : u.pins = t.pins

section
variable {t u v : Strand}

theorem SamePins.refl (t : Strand) : SamePins t t := ⟨rfl, rfl, rfl, rfl⟩

theorem SamePins.trans (h : SamePins t u) (h' : SamePins u v) : SamePins t v :=
  ⟨h'.farm.trans h.farm, h'.logid.trans h.logid, h'.life.trans h.life, h'.pins.trans h.pins⟩

theorem SamePins.key (h : SamePins t u) : u.key = t.key := by rw [Strand.key, Strand.key, h.farm, h.logid]

theorem SamePins.exists_ (h : SamePins t u) : u.exists_ = t.exists_ := by rw [Strand.exists_, Strand.exists_, h.life]

theorem SamePins.foldl {α : Type} {f : Strand → α → Strand} (hf : ∀ u x, SamePins u (f u x)) (l : List α) (t : Strand) :
    SamePins t (l.foldl f t) :=
  List.foldlRecOn (motive := SamePins t) l f (.refl t) fun u hu x _ => hu.trans (hf u x)

end

/-! ### Entries and their groups -/

section
variable (t : Strand)

theorem samePins_modEntry (seq : BitVec 32) (f : VEntry → VEntry) : SamePins t (t.modEntry seq f) := ⟨rfl, rfl, rfl, rfl⟩

theorem samePins_orFlags (fl gs : BitVec 5) : SamePins t (t.orFlags fl gs) := ⟨rfl, rfl, rfl, rfl⟩

theorem samePins_noteOps (e : VEntry) (r : GroupRes) (copies : Nat) : SamePins t (t.noteOps e r copies) := by
  unfold Strand.noteOps
  split
  · exact .refl t
  · exact ⟨rfl, rfl, rfl, rfl⟩

theorem samePins_countCheck : SamePins t t.countCheck := by
  unfold Strand.countCheck
  split <;> exact ⟨rfl, rfl, rfl, rfl⟩

theorem samePins_finishGroup (seq : BitVec 32) (g : Nat) : SamePins t (t.finishGroup seq g) := by
  have hwrite (e : VEntry) (r : GroupRes) (copies : Nat) (u : Strand) : SamePins u
      (((u.modEntry seq (fun e => { e with done := e.done ++ [{ r with flip := none }] })).orFlags r.fl r.gs).noteOps e r copies) :=
    (samePins_modEntry ..).trans ((samePins_orFlags ..).trans (samePins_noteOps ..))
  have hcount {w u : Strand} (h : SamePins w u) (c : Word) : SamePins w { u with ctl := { u.ctl with chkcnt := c } } :=
    ⟨h.farm, h.logid, h.life, h.pins⟩
  unfold Strand.finishGroup
  split
  · exact .refl t
  · next e _ =>
    split
    · exact .refl t
    · next r _ =>
      dsimp only
      have hleft := samePins_modEntry t seq (fun e => { e with inflight := e.inflight.filter (fun r => r.g != g) })
      generalize t.modEntry seq (fun e => { e with inflight := e.inflight.filter (fun r => r.g != g) }) = w at hleft ⊢
      refine hleft.trans ?_
      split
      · exact hwrite e r 0 w
      · exact hcount (hwrite e r 1 w) _
      · next x _ _ _ => exact hwrite e { r with writes := flipFirst x r.writes } 0 w
      · split
        · exact hcount (hwrite e r 2 w) _
        · exact (hcount (.refl w) _).trans (samePins_modEntry ..)

theorem samePins_finishAll : SamePins t t.finishAll := by
  have hgroups (e : VEntry) (u : Strand) : SamePins u (e.inflight.foldl (fun w r => w.finishGroup e.seq r.g) u) :=
    SamePins.foldl (fun (w : Strand) (r : GroupRes) => samePins_finishGroup w e.seq r.g) e.inflight u
  exact SamePins.foldl (fun u e => hgroups e u) t.viq t

/-! ### Leaving the queue -/

theorem samePins_setG (r : Reg) (x : Word) : SamePins t (t.setG r x) := by
  unfold Strand.setG
  split
  · exact .refl t
  · exact ⟨rfl, rfl, rfl, rfl⟩

theorem samePins_deliver (n : Nat) : SamePins t (Strand.deliver n t) := by
  induction n generalizing t with
  | zero => exact .refl t
  | succ n ih =>
    unfold Strand.deliver
    split
    · exact .refl t
    · next q r _ =>
      split
      · exact .refl t
      · have hqueue : SamePins t (({ t with rq := r } : Strand).modEntry q.seq (fun e => { e with value := none })) :=
          ⟨rfl, rfl, rfl, rfl⟩
        exact (hqueue.trans (samePins_setG ..)).trans (ih _)

theorem samePins_applyGroup (g : GroupRes) : SamePins t (t.applyGroup g) := by
  have hwrite (u : Strand) (w : EWrite) : SamePins u (u.applyWrite w) := by
    cases w with
    | v r at_ len val => exact ⟨rfl, rfl, rfl, rfl⟩
    | p r i b =>
      by_cases hr : r = 0
      · rw [Strand.applyWrite, if_pos hr]
        exact .refl u
      · rw [Strand.applyWrite, if_neg hr]
        exact ⟨rfl, rfl, rfl, rfl⟩
  have hwrites : SamePins t (t.applyWrites g.writes) := SamePins.foldl hwrite g.writes t
  unfold Strand.applyGroup
  dsimp only
  split
  · exact hwrites
  · exact hwrites.trans ⟨rfl, rfl, rfl, rfl⟩

theorem samePins_settle (e : VEntry) (gs : List GroupRes) : SamePins t (t.settle e gs) := by
  have hgroups : SamePins t (t.applyGroups gs) := SamePins.foldl (fun u g => samePins_applyGroup u g) gs t
  have hentry : SamePins t (t.applyEntry e gs) := by
    unfold Strand.applyEntry
    dsimp only
    split
    · exact hgroups
    · exact hgroups.trans ⟨rfl, rfl, rfl, rfl⟩
  unfold Strand.settle
  dsimp only
  split
  · exact hentry
  · exact hentry.trans ⟨rfl, rfl, rfl, rfl⟩

theorem samePins_leave (n : Nat) : SamePins t (Strand.leave n t) := by
  induction n generalizing t with
  | zero => exact .refl t
  | succ n ih =>
    unfold Strand.leave
    split
    · exact .refl t
    · next e r _ =>
      split
      · have hqueue : SamePins t { t with viq := r } := ⟨rfl, rfl, rfl, rfl⟩
        exact (hqueue.trans (samePins_settle ..)).trans (ih _)
      · exact .refl t

theorem samePins_tidy : SamePins t t.tidy := (samePins_deliver t 8).trans (samePins_leave _ 64)

theorem samePins_finishEntry (seq : BitVec 32) (v : Option Word) : SamePins t (t.finishEntry seq v) := by
  unfold Strand.finishEntry
  dsimp only
  refine SamePins.trans ?_ (samePins_tidy _)
  exact ⟨rfl, rfl, rfl, rfl⟩

/-! ### Progress -/

theorem samePins_mend (seq : BitVec 32) (rows : List (Nat × Nat)) : SamePins t (t.mend seq rows) := by
  have hrow (u : Strand) (ver : Option (BitVec 32)) (x : Nat × Nat) : SamePins u (u.mendRow ver x) := by
    cases ver <;> exact ⟨rfl, rfl, rfl, rfl⟩
  refine SamePins.foldl (fun u x => ?_) rows t
  dsimp only
  split
  · exact (hrow ..).trans (hrow ..)
  · exact hrow ..

theorem samePins_recover {e : VEntry} {elem : Nat} {xs : List Span} {u : Strand}
    (h : t.recover e elem xs = .ok u ∨ t.recover e elem xs = .error u) : SamePins t u := by
  unfold Strand.recover at h
  dsimp only at h
  split at h
  · rcases h with h | h <;> cases h
    exact samePins_mend ..
  · rcases h with h | h <;> cases h
    exact (samePins_modEntry ..).trans (samePins_countCheck _)

theorem samePins_advance1 {e : VEntry} {op : VOp} {u : Strand} (h : t.advance1 e op = some u) : SamePins t u := by
  have hdone (w : Strand) (fl gs : BitVec 5) (v : Option Word) : SamePins w ((w.orFlags fl gs).finishEntry e.seq v) :=
    (samePins_orFlags ..).trans (samePins_finishEntry ..)
  unfold Strand.advance1 at h
  dsimp only at h
  split at h
  · split at h
    · cases h; exact hdone ..
    · split at h
      · split at h
        · cases h
        · split at h
          · next w hr => cases h; exact (samePins_recover t (.inl hr)).trans (hdone ..)
          · next w hr => cases h; exact samePins_recover t (.inr hr)
      · split at h
        · cases h; exact hdone ..
        · cases h
    · cases h; exact samePins_finishEntry ..
    · cases h; exact samePins_finishEntry ..
    · cases h
  · split at h
    · cases h; exact samePins_modEntry ..
    · split at h
      · cases h
      · split at h
        · cases h; exact samePins_modEntry ..
        · cases h

theorem samePins_advanceEntry (seq : BitVec 32) (n : Nat) : SamePins t (t.advanceEntry seq n) := by
  induction n generalizing t with
  | zero => exact .refl t
  | succ n ih =>
    have honce (e : VEntry) : SamePins t (if atOnce e then t.finishEntry seq none else t) := by
      split
      · exact samePins_finishEntry ..
      · exact .refl t
    unfold Strand.advanceEntry
    split
    · exact .refl t
    · split
      · exact .refl t
      · split
        · exact .refl t
        · split
          · exact honce _
          · exact .refl t
          · exact honce _
          · split
            · next h => exact (samePins_advance1 t h).trans (ih _)
            · exact .refl t

theorem samePins_advanceAll : SamePins t t.advanceAll :=
  (SamePins.foldl (fun u e => samePins_advanceEntry u e.seq 4200) t.viq t).trans (samePins_tidy _)

theorem samePins_drainIssued : SamePins t t.drainIssued := (samePins_finishAll t).trans (samePins_advanceAll _)

end

end Sys2Proof.Machine

/-! What the steps of a revocation leave alone: extents, and the only strand with its pins (R43, R175). -/

namespace Sys2Proof.Machine

open Sys2Proof.Claims

/-- The extents stay, and the current strand with its pins; where it is the only strand it stays that. -/
structure KeepsPins (s t : State) : Prop where
  extents : t.extents = s.extents
  others : s.others = [] → t.others = []
  cur : SamePins s.cur t.cur

section
variable {s t u : State}

theorem KeepsPins.refl (s : State) : KeepsPins s s := ⟨rfl, id, .refl _⟩

theorem KeepsPins.trans (h : KeepsPins s t) (h' : KeepsPins t u) : KeepsPins s u :=
  ⟨h'.extents.trans h.extents, fun ho => h'.others (h.others ho), h.cur.trans h'.cur⟩

theorem KeepsPins.foldl {α : Type} {f : State → α → State} (hf : ∀ u x, KeepsPins u (f u x)) (l : List α) (s : State) :
    KeepsPins s (l.foldl f s) :=
  List.foldlRecOn (motive := KeepsPins s) l f (.refl s) fun u hu x _ => hu.trans (hf u x)

/-- A step that leaves extents and strands as they are. -/
theorem keepsPins_of_eq (he : t.extents = s.extents) (ho : t.others = s.others) (hc : t.cur = s.cur) : KeepsPins s t :=
  ⟨he, fun h => ho.trans h, hc ▸ .refl _⟩

theorem keepsPins_modStrand (s : State) (key : Nat) {f : Strand → Strand} (hf : ∀ t, SamePins t (f t)) :
    KeepsPins s (s.modStrand key f) := by
  unfold State.modStrand
  split
  · exact ⟨rfl, id, hf _⟩
  · refine ⟨rfl, fun ho => ?_, .refl _⟩
    dsimp only
    rw [ho]
    rfl

theorem keepsPins_homeWrite (s : State) (ks : List Nat) (bs : List Byte) : KeepsPins s (s.homeWrite ks bs) :=
  have h := homeWrite_homesOnly s ks bs
  keepsPins_of_eq h.extents h.others h.cur

theorem SendsOnly.keepsPins (h : SendsOnly s t) : KeepsPins s t := by
  obtain ⟨_, _, _, rfl⟩ := h
  exact keepsPins_of_eq rfl rfl rfl

theorem keepsPins_addError (s : State) (a b c d e : Nat) : KeepsPins s (s.addError a b c d e) := by
  obtain ⟨_, _, _, _, h⟩ := addError_eq s a b c d e
  rw [h]
  exact keepsPins_of_eq rfl rfl rfl

end

/-! ### Updates left, and what a strand has issued -/

theorem keepsPins_performLeft (s : State) (key : Nat) (seq : BitVec 32) (r : GroupRes) : KeepsPins s (s.performLeft key seq r) := by
  have hdraw : KeepsPins s s.draw.2 := keepsPins_of_eq rfl rfl rfl
  unfold State.performLeft
  dsimp only
  split
  · exact hdraw
  · exact hdraw.trans ((keepsPins_homeWrite ..).trans (keepsPins_modStrand _ _ fun t => samePins_modEntry t seq _))

theorem keepsPins_performLefts (key n : Nat) : ∀ s : State, KeepsPins s (s.performLefts key n) := by
  induction n with
  | zero => exact fun s => .refl s
  | succ n ih =>
    intro s
    unfold State.performLefts
    split
    · exact .refl s
    · split
      · exact .refl s
      · exact (keepsPins_performLeft ..).trans (ih _)

theorem keepsPins_drainStrand (s : State) (key : Nat) : KeepsPins s (s.drainStrand key) := by
  unfold State.drainStrand
  split
  · exact .refl s
  · exact (keepsPins_performLefts ..).trans (keepsPins_modStrand _ _ samePins_drainIssued)

/-! ### Transfers that stop -/

theorem keepsPins_giveDone (l : List EngineDone) : ∀ s : State, KeepsPins s (s.giveDone l) := by
  induction l with
  | nil => exact fun s => .refl s
  | cons d l ih =>
    intro s
    have hwait : KeepsPins s { s with engineDone := s.engineDone ++ [d] } := keepsPins_of_eq rfl rfl rfl
    unfold State.giveDone
    generalize (if d.coll then 3 else 1) = n
    dsimp only
    split
    · exact ih s
    · split
      · exact ih s
      · split
        · refine KeepsPins.trans ?_ (ih _)
          exact keepsPins_modStrand s d.key fun t => ⟨rfl, rfl, rfl, rfl⟩
        · exact hwait.trans (ih _)

theorem keepsPins_giveAll (s : State) : KeepsPins s s.giveAll := by
  have hempty : KeepsPins s { s with engineDone := [] } := keepsPins_of_eq rfl rfl rfl
  unfold State.giveAll
  split
  · exact .refl s
  · exact hempty.trans (keepsPins_giveDone _ _)

theorem keepsPins_stopBte (s : State) (c : BteCmd) (cause : BitVec 8) : KeepsPins s (s.stopBte c cause) := by
  have hfault : KeepsPins s (if barV c.bar then s.faultBar (barDie c.bar) (barIdx c.bar) else s) := by
    split <;> exact keepsPins_of_eq rfl rfl rfl
  have hmark (u : State) : KeepsPins u (if c.op = 4 then u.putMark c else u) := by
    split
    · exact keepsPins_modStrand u c.key fun t => ⟨rfl, rfl, rfl, rfl⟩
    · exact .refl u
  have hend (u : State) (c : BteCmd) (status reason : Nat) : KeepsPins u (u.endBte c status reason) := by
    have hout : KeepsPins u { u with bte := u.bte.filter (fun x => x.id != c.id) } := keepsPins_of_eq rfl rfl rfl
    unfold State.endBte
    dsimp only
    split
    · exact hout
    · refine KeepsPins.trans ?_ (keepsPins_giveAll _)
      exact keepsPins_of_eq rfl rfl rfl
  unfold State.stopBte
  exact (hfault.trans (hmark _)).trans (hend ..)

theorem keepsPins_endColl (s : State) (c : CollCmd) (status reason : Nat) : KeepsPins s (s.endColl c status reason) := by
  unfold State.endColl
  refine KeepsPins.trans ?_ (keepsPins_giveAll _)
  exact keepsPins_of_eq rfl rfl rfl

/-- A command that has set FAULT at its barrier leaves it alone from then on. -/
theorem failColl_stopped {s : State} {c : CollCmd} (h : c.status = 1) (status reason : Nat) :
    s.failColl c status reason = s.endColl c status reason := by
  have hsettled : s.settleColl c status = s := if_pos (by simp [h, stops, xSTOPPED])
  rw [State.failColl, hsettled]

theorem keepsPins_stopColl (s : State) (c : CollCmd) (cause : BitVec 8) : KeepsPins s (s.stopColl c cause) := by
  have hsettle : KeepsPins s (s.settleColl c 1) := by
    unfold State.settleColl
    split
    · exact .refl s
    · exact keepsPins_of_eq rfl rfl rfl
  have hjudge (u : State) (d : CollCmd) (hd : d.status = 1) : KeepsPins u (u.judgeColl d) := by
    unfold State.judgeColl
    split
    · exact .refl u
    · split
      · exact keepsPins_endColl ..
      · rw [failColl_stopped hd]
        exact keepsPins_endColl ..
  have hlink (u : State) (d : CollCmd) (hd : d.status = 1) : KeepsPins u (u.linkFail d) := by
    unfold State.linkFail
    rw [failColl_stopped hd]
    exact (keepsPins_endColl ..).trans (sendsOnly_sendRanks ..).keepsPins
  have hmod (u : State) (d : CollCmd) : KeepsPins u (u.modColl d) := keepsPins_of_eq rfl rfl rfl
  have htell (u : State) (d : CollCmd) : KeepsPins u (u.tell d 1).1 := (sendsOnly_sendRanks ..).keepsPins
  obtain ⟨d, hd, hrank⟩ : ∃ d : CollCmd, d.status = 1 ∧ s.stopColl c cause =
      if (((s.settleColl c 1).modColl d).tell d 1).2 = true ∧ 1 ≠ xLINKDOWN then (((s.settleColl c 1).modColl d).tell d 1).1.judgeColl d
      else (((s.settleColl c 1).modColl d).tell d 1).1.linkFail d := ⟨failedAs c 1 cause.toNat, rfl, rfl⟩
  have htold := (hsettle.trans (hmod _ d)).trans (htell _ d)
  rw [hrank]
  split
  · exact htold.trans (hjudge _ d hd)
  · exact htold.trans (hlink _ d hd)

theorem keepsPins_stopTransfers (s : State) (key : Nat) (k : BitVec 3) : KeepsPins s (s.stopTransfers key k) :=
  (KeepsPins.foldl (fun u c => keepsPins_stopBte u c cPINREVOKED) _ s).trans
    (KeepsPins.foldl (fun u c => keepsPins_stopColl u c cPINREVOKED) _ _)

/-! ### The save area -/

theorem keepsPins_storeFault (s : State) (key : Nat) (x : Stop) : KeepsPins s (s.storeFault key x) := by
  cases x with
  | hold => exact .refl s
  | trap c a i => exact keepsPins_modStrand s key fun t => ⟨rfl, rfl, rfl, rfl⟩
  | mirror va pa =>
    exact (keepsPins_addError ..).trans (keepsPins_modStrand _ _ fun t =>
      (samePins_countCheck t).trans ⟨rfl, rfl, rfl, rfl⟩)

theorem keepsPins_putSave (s : State) (t : Strand) (off n x : Nat) : KeepsPins s (s.putSave t off n x) := by
  unfold State.putSave
  dsimp only
  split
  · exact keepsPins_modStrand s t.key fun t => ⟨rfl, rfl, rfl, rfl⟩
  · refine KeepsPins.trans ?_ (keepsPins_homeWrite ..)
    split
    · exact keepsPins_storeFault ..
    · exact .refl s

theorem keepsPins_saveRevoke (s : State) (t : Strand) (k : Nat) (p : Pin) (hit : Option (Nat × VEntry)) :
    KeepsPins s (s.saveRevoke t k p hit) := by
  have hwords (ws : List Nat) : ∀ (u : State) (off : Nat), KeepsPins u (u.putWords t off ws) := by
    induction ws with
    | nil => exact fun u off => .refl u
    | cons w ws ih => exact fun u off => (keepsPins_putSave ..).trans (ih _ _)
  unfold State.saveRevoke
  dsimp only
  have hpin := hwords (pinWords p) s (0x480 + 32 * (k - 1))
  split
  · exact hpin.trans ((keepsPins_putSave ..).trans ((keepsPins_putSave ..).trans (keepsPins_putSave ..)))
  · exact hpin

end Sys2Proof.Machine

/-! The pins of the only strand as a range of keys is taken from them (R43, R175). -/

namespace Sys2Proof.Machine

open Sys2Proof.Claims

/-- Pin j of a state's current strand. -/
abbrev State.pin (s : State) (j : Nat) : Pin := s.cur.pins.getD j Pin.idle

/-- A pin whose run in the core's table may have moved down; one with no run stays as it is. -/
def MovedPin (p q : Pin) : Prop := ∃ n, q = { p with xfirst := n } ∧ (p.extents = [] → q = p)

/-- The pins of some numbers have been revoked, and no other pin of the only strand; extents are as they were. -/
structure Revoked (s t : State) (ks : List Nat) : Prop where
  extents : t.extents = s.extents
  others : t.others = []
  key : t.cur.key = s.cur.key
  exists_ : t.cur.exists_ = s.cur.exists_
  revoked : ∀ j, j < 8 → j ∈ ks → ∃ x, t.pin j = revokedPin (s.pin j) x
  kept : ∀ j, j < 8 → j ∉ ks → MovedPin (s.pin j) (t.pin j)

theorem MovedPin.refl (p : Pin) : MovedPin p p := ⟨p.xfirst, rfl, fun _ => rfl⟩

theorem MovedPin.trans {p q r : Pin} (h : MovedPin p q) (h' : MovedPin q r) : MovedPin p r := by
  obtain ⟨n, hq, hstay⟩ := h
  obtain ⟨m, hr, hstay'⟩ := h'
  refine ⟨m, by rw [hr, hq], fun hp => ?_⟩
  have hqp := hstay hp
  rw [hqp] at hstay'
  exact hstay' hp

theorem MovedPin.revokedPin_eq {p q : Pin} (h : MovedPin p q) (x : BitVec 37) : revokedPin q x = revokedPin p x := by
  obtain ⟨n, hq, -⟩ := h
  rw [hq]
  rfl

theorem MovedPin.covers_eq {p q : Pin} (h : MovedPin p q) (lo hi : Nat) : q.covers lo hi = p.covers lo hi := by
  obtain ⟨n, hq, -⟩ := h
  rw [hq]
  rfl

theorem KeepsPins.pin_eq {s t : State} (h : KeepsPins s t) (j : Nat) : t.pin j = s.pin j := by rw [State.pin, h.cur.pins]

theorem Revoked.keeps {s t u : State} {ks : List Nat} (h : Revoked s t ks) (h' : KeepsPins t u) : Revoked s u ks where
  extents := h'.extents.trans h.extents
  others := h'.others h.others
  key := h'.cur.key.trans h.key
  exists_ := h'.cur.exists_.trans h.exists_
  revoked j hj hk := by rw [h'.pin_eq]; exact h.revoked j hj hk
  kept j hj hk := by rw [h'.pin_eq]; exact h.kept j hj hk

theorem KeepsPins.revoked {s t u : State} {ks : List Nat} (h : KeepsPins s t) (h' : Revoked t u ks) : Revoked s u ks where
  extents := h'.extents.trans h.extents
  others := h'.others
  key := h'.key.trans h.cur.key
  exists_ := h'.exists_.trans h.cur.exists_
  revoked j hj hk := by rw [← h.pin_eq]; exact h'.revoked j hj hk
  kept j hj hk := by rw [← h.pin_eq]; exact h'.kept j hj hk

/-- Revoking some pins after another. -/
theorem Revoked.cons {s t u : State} {k : Nat} {ks : List Nat} (h : Revoked s t [k]) (h' : Revoked t u ks) :
    Revoked s u (k :: ks) where
  extents := h'.extents.trans h.extents
  others := h'.others
  key := h'.key.trans h.key
  exists_ := h'.exists_.trans h.exists_
  revoked j hj hmem := by
    by_cases hjk : j = k
    · obtain ⟨y, hy⟩ := h.revoked j hj (by simp [hjk])
      by_cases hks : j ∈ ks
      · obtain ⟨x, hx⟩ := h'.revoked j hj hks
        exact ⟨x, by rw [hx, hy]; rfl⟩
      · obtain ⟨-, -, hstay⟩ := h'.kept j hj hks
        exact ⟨y, by rw [hstay (by rw [hy]; rfl), hy]⟩
    · obtain ⟨x, hx⟩ := h'.revoked j hj ((List.mem_cons.mp hmem).resolve_left hjk)
      exact ⟨x, by rw [hx, (h.kept j hj (by simpa using hjk)).revokedPin_eq]⟩
  kept j hj hnot := by
    obtain ⟨hjk, hks⟩ : j ≠ k ∧ j ∉ ks := by simpa using hnot
    exact (h.kept j hj (by simpa using hjk)).trans (h'.kept j hj hks)

/-- The run of a freed pin leaves the core's table: later runs move down. -/
theorem freeRun_moves {s : State} (ho : s.others = []) (core first n : Nat) : ∃ ps,
    s.freeRun core first n = { s with cur := { s.cur with pins := ps } } ∧
    ∀ j, j < 8 → MovedPin (s.pin j) (ps.getD j Pin.idle) := by
  have hmove (p : Pin) : MovedPin p
      (if first < p.xfirst.toNat ∧ p.extents ≠ [] then { p with xfirst := p.xfirst - BitVec.ofNat 11 n } else p) := by
    split
    · next h => exact ⟨_, rfl, fun hnil => absurd hnil h.2⟩
    · exact .refl p
  unfold State.freeRun
  split
  · exact ⟨s.cur.pins, rfl, fun j _ => .refl _⟩
  · simp only [State.mapStrands, ho, List.map_nil]
    split
    · refine ⟨_, rfl, fun j hj => ?_⟩
      simpa [State.pin, Vector.getD, hj] using hmove (s.pin j)
    · exact ⟨s.cur.pins, rfl, fun j _ => .refl _⟩

/-- Another pin in the place of pin k. -/
theorem getD_setPin (ps : Vector Pin 8) {j : Nat} (k : Nat) (p : Pin) (hj : j < 8) :
    (ps.setIfInBounds k p).getD j Pin.idle = if k = j then p else ps.getD j Pin.idle := by
  by_cases hk : k = j <;> simp [Vector.getD, hj, hk]

/-- A strand whose pin k is revoked; its queue, and what of it stands in its save area, may be marked with the fault. -/
def withRevoked (t : Strand) (k : Nat) (x : BitVec 37) (viq shadow : List VEntry) : Strand :=
  { t with pins := t.pins.setIfInBounds k (revokedPin (t.pins.getD k Pin.idle) x), viq := viq, shadow := shadow }

/-- One pin is revoked and its run freed. -/
theorem revoked_freeRun {s : State} (ho : s.others = []) {k : Nat} (x : BitVec 37) (viq shadow : List VEntry)
    (core first n : Nat) :
    Revoked s (State.freeRun { s with cur := withRevoked s.cur k x viq shadow } core first n) [k] := by
  obtain ⟨ps, hps, hmoved⟩ := freeRun_moves (s := { s with cur := withRevoked s.cur k x viq shadow }) ho core first n
  have hpin (j : Nat) (hj : j < 8) : (withRevoked s.cur k x viq shadow).pins.getD j Pin.idle =
      if k = j then revokedPin (s.pin k) x else s.pin j := getD_setPin _ _ _ hj
  rw [hps]
  refine ⟨rfl, ho, rfl, rfl, fun j hj hk => ?_, fun j hj hk => ?_⟩
  · obtain rfl := List.mem_singleton.mp hk
    obtain ⟨m, -, hstay⟩ := hmoved j hj
    have hself := (hpin j hj).trans (if_pos rfl)
    exact ⟨x, (hstay (by rw [State.pin, hself]; rfl)).trans hself⟩
  · have hother := (hpin j hj).trans (if_neg (fun h => hk (List.mem_singleton.mpr h.symm)))
    exact hother ▸ hmoved j hj

theorem revokePin_revoked {s : State} (ho : s.others = []) (he : s.cur.exists_ = true) (k : BitVec 3) :
    Revoked s (s.revokePin s.cur.key k) [k.toNat] := by
  have hdrain := keepsPins_drainStrand s s.cur.key
  have hother := hdrain.others ho
  have hkey := hdrain.cur.key
  have hexists := hdrain.cur.exists_.trans he
  refine hdrain.revoked ?_
  unfold State.revokePin
  generalize s.drainStrand s.cur.key = t at *
  dsimp only
  rw [← hkey, strand?_cur hexists]
  dsimp only
  rw [modStrand_cur hexists]
  generalize stopOffset _ _ = x
  generalize (if t.cur.life = .saved then t.cur.shadow.drop t.cur.frozen else t.cur.viq) = es
  have hfreed (viq shadow : List VEntry) := revoked_freeRun hother (k := k.toNat) x viq shadow t.cur.coreNo
    (t.cur.pins.getD k.toNat Pin.idle).xfirst.toNat (if t.cur.placed then (t.cur.pins.getD k.toNat Pin.idle).extents.length else 0)
  have hstopped (viq shadow : List VEntry) := (hfreed viq shadow).keeps (keepsPins_stopTransfers _ t.cur.key k)
  split
  · exact (hstopped _ _).keeps (keepsPins_saveRevoke ..)
  · exact hstopped _ _

theorem revokePins_revoked (ks : List Nat) : ∀ {s : State}, s.others = [] → s.cur.exists_ = true → (∀ k ∈ ks, k < 8) →
    Revoked s (ks.foldl (fun u k => u.revokePin s.cur.key (BitVec.ofNat 3 k)) s) ks := by
  induction ks with
  | nil => exact fun ho _ _ => ⟨rfl, ho, rfl, rfl, fun j _ h => (nomatch h), fun j _ _ => MovedPin.refl _⟩
  | cons k ks ih =>
    intro s ho he h8
    have hfirst := revokePin_revoked ho he (BitVec.ofNat 3 k)
    rw [BitVec.toNat_ofNat, Nat.mod_eq_of_lt (h8 k (by simp))] at hfirst
    have hrest := ih hfirst.others (hfirst.exists_.trans he) fun j hj => h8 j (by simp [hj])
    rw [hfirst.key] at hrest
    exact hfirst.cons hrest

/-- Of the only strand every pin that covers a range is revoked, and no other one. -/
theorem revokeKeys_revoked {s : State} (ho : s.others = []) (he : s.cur.exists_ = true) (lo hi : Nat) :
    Revoked s (s.revokeKeys (fun _ => true) lo hi).2 (coveringPins s.cur lo hi) := by
  have hstrands : s.strands.filter (fun t => t.exists_) = [s.cur] := by simp [State.strands, ho, he]
  have h8 : ∀ k ∈ coveringPins s.cur lo hi, k < 8 := fun k hk => by
    have := (List.mem_filter.mp hk).1
    simp at this
    omega
  have hall := revokePins_revoked (coveringPins s.cur lo hi) ho he h8
  have heq : (s.revokeKeys (fun _ => true) lo hi).2 =
      (coveringPins s.cur lo hi).foldl (fun u k => u.revokePin s.cur.key (BitVec.ofNat 3 k)) s := by
    simp only [State.revokeKeys, State.revokeWhere, hstrands, List.map_cons, List.map_nil, List.flatten_cons,
      List.flatten_nil, List.append_nil, Bool.true_and, List.foldl_map]
    rfl
  rw [heq]
  exact hall

theorem mem_coveringPins {t : Strand} {lo hi k : Nat} (h1 : 1 ≤ k) (h8 : k < 8) :
    k ∈ coveringPins t lo hi ↔ (t.pins.getD k Pin.idle).covers lo hi = true := by
  rw [coveringPins, List.mem_filter]
  exact and_iff_right (by interval_cases k <;> simp)

end Sys2Proof.Machine

/-! Extents of the second tier come and go (R40, R42 to R44). -/

namespace Sys2Proof.Machine

open Sys2Proof.Claims

/-! ### Cores -/

/-- A key below all that a list in rising order names reads as one not listed. -/
theorem sget_of_lt {α : Type} {d : α} {l : Sparse α} {k : Nat} (h : ∀ c ∈ l, k < c.1) : sget d l k = d := by
  induction l with
  | nil => rfl
  | cons c l ih =>
    rw [sget, if_neg (Nat.ne_of_gt (h c (by simp)))]
    exact ih fun x hx => h x (by simp [hx])

theorem sget_sset_rising {α : Type} [DecidableEq α] {d : α} {l : Sparse α} (h : (l.map (fun c => c.1)).Pairwise (· < ·))
    (k : Nat) (v : α) : sget d (sset d l k v) k = v := by
  induction l with
  | nil =>
    rw [sset]
    split
    · next hv => exact hv.symm
    · exact if_pos rfl
  | cons c l ih =>
    obtain ⟨j, w⟩ := c
    obtain ⟨hj, hl⟩ := List.pairwise_cons.mp h
    have habove : ∀ c ∈ l, j < c.1 := fun c hc => hj c.1 (List.mem_map_of_mem hc)
    rw [sset]
    split
    · next hkj =>
      split
      · next hv =>
        rw [sget, if_neg (by omega), sget_of_lt fun c hc => Nat.lt_trans hkj (habove c hc)]
        exact hv.symm
      · exact if_pos rfl
    · split
      · next hkj =>
        subst hkj
        split
        · next hv => rw [sget_of_lt habove, hv]
        · exact if_pos rfl
      · next hkj =>
        rw [sget, if_neg (Ne.symm hkj)]
        exact ih hl

/-- The recorded cores stand once each, in rising order. -/
abbrev CoresRise (s : State) : Prop := (s.cores.map (fun c => c.1)).Pairwise (· < ·)

/-- An update of some cores, once each. -/
theorem core_foldl_modCore {f : Core → Core} (cs : List Nat) : ∀ {s : State}, CoresRise s → cs.Nodup → ∀ n,
    (cs.foldl (fun s m => s.modCore m f) s).core n = if n ∈ cs then f (s.core n) else s.core n := by
  induction cs with
  | nil => exact fun _ _ n => rfl
  | cons m cs ih =>
    intro s hs hcs n
    obtain ⟨hm, hcs⟩ := List.nodup_cons.mp hcs
    have hother (h : n ≠ m) : (s.modCore m f).core n = s.core n := sget_sset_other h _ _
    have hsame : (s.modCore m f).core m = f (s.core m) := sget_sset_rising hs m _
    rw [List.foldl_cons, ih (s := s.modCore m f) (pairwise_sset _ hs m _) hcs]
    by_cases hn : n = m
    · subst hn
      rw [if_neg hm, if_pos (by simp), hsame]
    · rw [hother hn]
      refine if_congr ?_ rfl rfl
      simp [hn]

theorem coresRise_foldl_modCore {f : Core → Core} (cs : List Nat) {s : State} (hs : CoresRise s) :
    CoresRise (cs.foldl (fun s m => s.modCore m f) s) :=
  List.foldlRecOn (motive := CoresRise) cs _ hs fun _ hu m _ => pairwise_sset _ hu m _

/-- A core without a record is as after reset. -/
theorem core_unrecorded {s : State} {n : Nat} (h : n ∉ s.cores.map (fun c => c.1)) : s.core n = Core.reset := by
  rw [State.core]
  generalize s.cores = l at h
  induction l with
  | nil => rfl
  | cons c l ih =>
    rw [List.map_cons, List.mem_cons, not_or] at h
    rw [sget, if_neg (Ne.symm h.1)]
    exact ih h.2

/-- Every recorded core's copies of a range go: lines written back, entries of its TLB dropped. -/
theorem core_cleanIn_shootIn {s : State} (hs : CoresRise s) (lo hi n : Nat) :
    let cs := s.cores.map (fun c => c.1)
    let u := (s.cleanIn cs lo hi).shootIn cs lo hi
    (u.core n).dirty = (s.core n).dirty.filter (fun l => !lineIn lo hi l) ∧
    (u.core n).tlb = (s.core n).tlb.filter (fun x =>
      decide (hi ≤ x.frame) || decide (x.frame + 2 ^ (16 + 13 * x.level) ≤ lo)) := by
  intro cs u
  have hcs : cs.Nodup := hs.imp Nat.ne_of_lt
  have hclean : (s.cleanIn cs lo hi).core n = _ := core_foldl_modCore cs hs hcs n
  have hshoot : u.core n = _ := core_foldl_modCore cs (coresRise_foldl_modCore cs hs) hcs n
  have htlb (e : TlbEntry) : (!(decide (e.frame < hi) && decide (lo < e.frame + 2 ^ levelShift e.level))) =
      (decide (hi ≤ e.frame) || decide (e.frame + 2 ^ (16 + 13 * e.level) ≤ lo)) := by
    rw [Bool.not_and, ← decide_not, ← decide_not, decide_eq_decide.mpr Nat.not_lt, decide_eq_decide.mpr Nat.not_lt]
    rfl
  by_cases hn : n ∈ cs
  · rw [hshoot, if_pos hn, show (cs.foldl _ s).core n = _ from hclean, if_pos hn]
    exact ⟨rfl, List.filter_congr fun e _ => htlb e⟩
  · rw [hshoot, if_neg hn, show (cs.foldl _ s).core n = _ from hclean, if_neg hn, core_unrecorded hn]
    exact ⟨rfl, rfl⟩

/-! ### Nothing is in flight -/

theorem mem_insertByLog {x t : Strand} {l : List Strand} (h : x ∈ insertByLog t l) : x = t ∨ x ∈ l := by
  induction l with
  | nil => exact .inl (List.mem_singleton.mp h)
  | cons u l ih =>
    rw [insertByLog] at h
    split at h
    · exact List.mem_cons.mp h
    · rcases List.mem_cons.mp h with h | h
      · exact .inr (h ▸ by simp)
      · exact (ih h).imp_right fun h => by simp [h]

theorem mem_farmStrands {s : State} {farm : Nat} {t : Strand} (h : t ∈ s.farmStrands farm) : t ∈ s.strands := by
  have hsort (l : List Strand) : t ∈ l.foldr insertByLog [] → t ∈ l := by
    induction l with
    | nil => exact id
    | cons u l ih => exact fun h => (mem_insertByLog h).elim (fun h => h ▸ by simp) fun h => by simp [ih h]
  exact List.mem_of_mem_filter (hsort _ h)

theorem mapStrands_of_fixed {s : State} {f : Strand → Strand} (h : ∀ u ∈ s.strands, f u = u) : s.mapStrands f = s := by
  have hcur : f s.cur = s.cur := h s.cur (by simp [State.strands])
  have hothers : s.others.map f = s.others :=
    (List.map_congr_left fun u hu => h u (by simp [State.strands, hu])).trans (List.map_id _)
  rw [State.mapStrands, hcur, hothers]

/-- With no element held back a drain changes nothing. -/
theorem drainHeld_of_rest {s : State} (h : AtRest s) (p : HeldElem → Bool) {t : Strand} (ht : t.held = []) :
    s.drainHeld p t = s := by
  have hone (u : Strand) (hu : u ∈ s.strands) :
      (if u.key = t.key then { u with held := u.held.filter (fun h => !p h) }.drainFlags 0 else u) = u := by
    obtain ⟨-, -, hheld, -⟩ := h u hu
    have hsame : ({ u with held := u.held.filter (fun h => !p h) } : Strand) = u := by rw [hheld, List.filter_nil, ← hheld]
    rw [hsame]
    split
    · unfold Strand.drainFlags Strand.orFlags
      split <;> simp
    · rfl
  unfold State.drainHeld
  rw [ht, List.filter_nil]
  exact mapStrands_of_fixed hone

theorem drainRange_of_rest {s : State} (h : AtRest s) (lo hi : Nat) : s.drainRange lo hi = s := by
  have hfarm (farm : Nat) (p : HeldElem → Bool) : s.drainFarm farm p = s := by
    unfold State.drainFarm
    refine List.foldlRecOn (motive := fun u => u = s) (s.farmStrands farm) _ rfl fun u hu t ht => ?_
    obtain ⟨-, -, hheld, -⟩ := h t (mem_farmStrands ht)
    rw [hu, drainHeld_of_rest h p hheld]
  unfold State.drainRange
  refine List.foldlRecOn (motive := fun u => u = s) s.farms _ rfl fun u hu f _ => ?_
  rw [hu, hfarm]

/-! ### Lines that a forced release loses (R43) -/

/-- The least of a bound and the addresses of some lines. -/
theorem foldl_min_lines (ls : List Nat) : ∀ b : Nat,
    (ls.foldl (fun m l => Nat.min m (l * 64)) b = b ∧ ∀ l ∈ ls, b ≤ l * 64) ∨
    ∃ l ∈ ls, (∀ m ∈ ls, l ≤ m) ∧ ls.foldl (fun m l => Nat.min m (l * 64)) b = 64 * l ∧ 64 * l ≤ b := by
  induction ls with
  | nil => exact fun b => .inl ⟨rfl, by simp⟩
  | cons x ls ih =>
    intro b
    have hb : Nat.min b (x * 64) ≤ b := Nat.min_le_left ..
    have hx : Nat.min b (x * 64) ≤ x * 64 := Nat.min_le_right ..
    rw [List.foldl_cons]
    rcases ih (Nat.min b (x * 64)) with ⟨heq, hle⟩ | ⟨l, hl, hmin, heq, hle⟩
    · by_cases hbx : b ≤ x * 64
      · have hmin : Nat.min b (x * 64) = b := Nat.min_eq_left hbx
        rw [hmin] at heq hle ⊢
        exact .inl ⟨heq, fun l hl => (List.mem_cons.mp hl).elim (fun h => h ▸ hbx) (hle l)⟩
      · have hmin : Nat.min b (x * 64) = x * 64 := Nat.min_eq_right (by omega)
        rw [hmin] at heq hle ⊢
        refine .inr ⟨x, by simp, fun m hm => ?_, heq.trans (Nat.mul_comm ..), by omega⟩
        rcases List.mem_cons.mp hm with rfl | hm
        · exact Nat.le_refl _
        · have := hle m hm
          omega
    · refine .inr ⟨l, by simp [hl], fun m hm => ?_, heq, Nat.le_trans hle hb⟩
      rcases List.mem_cons.mp hm with rfl | hm
      · omega
      · exact hmin m hm

/-- From s to u the loss of lines is recorded: in a loss record, and in an error record with their number and the first one's
address (R43). -/
def LossRecorded (s u : State) (e : Extent) (lost : List Nat) : Prop :=
  u.losses = s.losses ++ [{ die := e.die, base := e.base, lines := lost }] ∧
  (s.errors.length < 4096 → ∃ (x : ErrRec) (l : Nat), u.errors = s.errors ++ [x] ∧ x.cls = 7 ∧
    x.source = (if e.die then 1 else 0) ∧ x.count = BitVec.ofNat 64 lost.length ∧ l ∈ lost ∧ (∀ m ∈ lost, l ≤ m) ∧
    x.addr = BitVec.ofNat 64 (64 * l))

/-- A state with the dirty lines of an extent noted as lost. -/
def lossNoted (s : State) (e : Extent) (lost : List Nat) : State :=
  { s with losses := s.losses ++ [{ die := e.die, base := e.base, lines := lost }] }

section
variable {s : State} {e : Extent}

theorem loseLines_none (h : s.vatIn e.base (e.base + e.len) = []) : s.loseLines e = s := if_pos h

theorem loseLines_some {lost : List Nat} (hlost : s.vatIn e.base (e.base + e.len) = lost) (hne : lost ≠ []) :
    s.loseLines e = (lossNoted s e lost).addError 7 (if e.die then 1 else 0) 0 lost.length
      (lost.foldl (fun m l => Nat.min m (l * 64)) (e.base + e.len)) := by
  subst hlost
  exact if_neg hne

/-- What the loss of lines leaves alone. -/
theorem loseLines_keeps (s : State) (e : Extent) : (s.loseLines e).extents = s.extents ∧ (s.loseLines e).vatDirty = s.vatDirty ∧
    (s.loseLines e).mem = s.mem ∧ (s.loseLines e).cur = s.cur ∧ (s.loseLines e).cores = s.cores := by
  by_cases hne : s.vatIn e.base (e.base + e.len) = []
  · rw [loseLines_none hne]
    exact ⟨rfl, rfl, rfl, rfl, rfl⟩
  · rw [loseLines_some rfl hne]
    generalize hu : lossNoted s e _ = u
    obtain ⟨_, _, _, _, h⟩ := addError_eq u 7 (if e.die then 1 else 0) 0 (s.vatIn e.base (e.base + e.len)).length
      ((s.vatIn e.base (e.base + e.len)).foldl (fun m l => Nat.min m (l * 64)) (e.base + e.len))
    rw [h, ← hu]
    exact ⟨rfl, rfl, rfl, rfl, rfl⟩

/-- The least address among lost lines of an extent. -/
theorem exists_first_line {lost : List Nat} (hlost : s.vatIn e.base (e.base + e.len) = lost) (hne : lost ≠ []) :
    ∃ l ∈ lost, (∀ m ∈ lost, l ≤ m) ∧ lost.foldl (fun m l => Nat.min m (l * 64)) (e.base + e.len) = 64 * l := by
  have hin : ∀ l ∈ lost, l * 64 < e.base + e.len := fun l hl => by
    rw [← hlost, State.vatIn, List.mem_filter, lineIn, Bool.and_eq_true, decide_eq_true_iff, decide_eq_true_iff] at hl
    omega
  rcases foldl_min_lines lost (e.base + e.len) with ⟨-, hle⟩ | ⟨l, hl, hmin, haddr, -⟩
  · obtain ⟨l, hl⟩ := List.exists_mem_of_ne_nil _ hne
    exact absurd (hle l hl) (Nat.not_le.mpr (hin l hl))
  · exact ⟨l, hl, hmin, haddr⟩

theorem loseLines_records {lost : List Nat} (hlost : s.vatIn e.base (e.base + e.len) = lost) (hne : lost ≠ []) :
    LossRecorded s (s.loseLines e) e lost := by
  obtain ⟨l, hl, hmin, haddr⟩ := exists_first_line hlost hne
  rw [loseLines_some hlost hne, haddr]
  constructor
  · obtain ⟨_, _, _, _, h⟩ := addError_eq (lossNoted s e lost) 7 (if e.die then 1 else 0) 0 lost.length (64 * l)
    rw [h]
    rfl
  · intro hroom
    rw [addError_room (s := lossNoted s e lost) hroom]
    refine ⟨_, l, rfl, rfl, ?_, rfl, hl, hmin, rfl⟩
    split <;> rfl

end

/-! ### The end of a release (R42, R43) -/

/-- A state with an extent and its dirty vat lines gone. -/
def withoutExtent (s : State) (e : Extent) : State :=
  { s with vatDirty := s.vatDirty.filter (fun l => !lineIn e.base (e.base + e.len) l)
           extents := s.extents.filter (fun x => !(x.die == e.die && x.base == e.base)) }

/-- A state with no copy of an extent's bytes in a core. -/
def State.shotExtent (s : State) (e : Extent) : State :=
  (s.cleanIn (s.cores.map (fun c => c.1)) e.base (e.base + e.len)).shootIn (s.cores.map (fun c => c.1)) e.base (e.base + e.len)

theorem shotExtent_eq (s : State) (e : Extent) : ∃ y, s.shotExtent e = { s with cores := y } := by
  obtain ⟨x, hclean⟩ := cleanIn_eq (s.cores.map (fun c => c.1)) e.base (e.base + e.len) s
  obtain ⟨y, hshoot⟩ := shootIn_eq (s.cores.map (fun c => c.1)) e.base (e.base + e.len) { s with cores := x }
  exact ⟨y, by rw [State.shotExtent, hclean, hshoot]⟩

theorem dropExtent_of_rest {s : State} (h : AtRest s) (e : Extent) (force : Bool) :
    s.dropExtent e force = withoutExtent (if force then (s.shotExtent e).loseLines e else s.shotExtent e) e := by
  unfold State.dropExtent
  dsimp only
  rw [drainRange_of_rest h]
  rfl

theorem dropExtent_clauses {s : State} {e : Extent} {force : Bool} (hcores : CoresRise s) (hrest : AtRest s) :
    let inside (l : Nat) : Bool := decide (e.base / 64 ≤ l) && decide (l < (e.base + e.len) / 64)
    let lost := s.vatDirty.filter inside
    let u := s.dropExtent e force
    u.extents = s.extents.filter (fun x => !(x.die == e.die && x.base == e.base)) ∧
    u.vatDirty = s.vatDirty.filter (fun l => !inside l) ∧ u.mem = s.mem ∧ u.cur = s.cur ∧
    (∀ n, (u.core n).dirty = (s.core n).dirty.filter (fun l => !inside l) ∧
      (u.core n).tlb = (s.core n).tlb.filter (fun x =>
        decide (e.base + e.len ≤ x.frame) || decide (x.frame + 2 ^ (16 + 13 * x.level) ≤ e.base))) ∧
    (force = false ∨ lost = [] → u.losses = s.losses ∧ u.errors = s.errors) ∧
    (force = true → lost ≠ [] → LossRecorded s u e lost) := by
  intro inside lost u
  have hu : u = withoutExtent (if force then (s.shotExtent e).loseLines e else s.shotExtent e) e := dropExtent_of_rest hrest e force
  have hcore (n : Nat) : ((s.shotExtent e).core n).dirty = _ ∧ ((s.shotExtent e).core n).tlb = _ :=
    core_cleanIn_shootIn hcores e.base (e.base + e.len) n
  obtain ⟨y, hv⟩ := shotExtent_eq s e
  generalize s.shotExtent e = v at *
  have hlost : v.vatIn e.base (e.base + e.len) = lost := by rw [hv]; rfl
  obtain ⟨hext, hvat, hmem, hcur, hcs⟩ : let w := if force then v.loseLines e else v
      w.extents = s.extents ∧ w.vatDirty = s.vatDirty ∧ w.mem = s.mem ∧ w.cur = s.cur ∧ w.cores = v.cores := by
    have h := loseLines_keeps v e
    cases force
    · rw [hv]
      exact ⟨rfl, rfl, rfl, rfl, rfl⟩
    · obtain ⟨hext, hvat, hmem, hcur, hcs⟩ := h
      exact ⟨by rw [if_pos rfl, hext, hv], by rw [if_pos rfl, hvat, hv], by rw [if_pos rfl, hmem, hv],
        by rw [if_pos rfl, hcur, hv], hcs⟩
  have hcoreu (n : Nat) : u.core n = v.core n := by
    rw [State.core, State.core, hu, ← hcs]
    rfl
  refine ⟨?_, ?_, ?_, ?_, fun n => ?_, fun h => ?_, fun hforce hne => ?_⟩
  · rw [hu, ← hext]
    rfl
  · rw [hu, ← hvat]
    rfl
  · rw [hu, ← hmem]
    rfl
  · rw [hu, ← hcur]
    rfl
  · rw [hcoreu]
    exact hcore n
  · have hsame : (if force then v.loseLines e else v) = v := by
      rcases h with rfl | h
      · rfl
      · rw [loseLines_none (hlost.trans h), ite_self]
    rw [hu, hsame, hv]
    exact ⟨rfl, rfl⟩
  · have h := loseLines_records hlost hne
    have herr : v.errors = s.errors := by rw [hv]
    have hlosses : v.losses = s.losses := by rw [hv]
    rw [LossRecorded, herr, hlosses] at h
    rw [hu, hforce, if_pos rfl]
    exact h

end Sys2Proof.Machine

/-! Extents are accepted and released (R40, R42 to R44, R52). -/

namespace Sys2Proof.Machine

open Sys2Proof.Claims

/-! ### DCD_ACCEPT (R40) -/

/-- The extent that a DCD_ACCEPT names. -/
def acceptedExtent (r : CmdRec) : Extent :=
  { die := r.arg0.getLsbD 0, tag := BitVec.ofNat 16 (r.arg0.toNat / 65536 % 65536), base := r.arg1.toNat, len := r.arg2.toNat
    releasing := none }

/-- A state with the extent of a DCD_ACCEPT added, its bytes as nothing has written them. -/
noncomputable def accepted (s : State) (r : CmdRec) : State :=
  State.clearKeys { s with extents := s.extents ++ [acceptedExtent r] } r.arg1.toNat (r.arg1.toNat + r.arg2.toNat)

theorem clearKeys_poisoned {s : State} {lo hi l : Nat} (h : lo / 64 ≤ l) (h' : l < hi / 64) :
    (s.clearKeys lo hi).poisoned l = false := by
  unfold State.poisoned State.clearKeys
  dsimp only
  rw [sget_filter_key (fun j => !(decide (lo / 64 ≤ j) && decide (j < hi / 64))), if_neg (by simp [h, h'])]
  rfl

/-- A byte below the device's own memory reads zero until it is written. -/
theorem memDefault_low {k : Nat} (h : k < 2 ^ 51) : memDefault k = 0 := if_pos (by omega)

section
variable {s : State} {r : CmdRec}

/-- R40: the words of a DCD_ACCEPT that names an aligned extent of the second tier. -/
structure ExtentNamed (s : State) (r : CmdRec) : Prop where
  flags : r.arg0 &&& ~~~(0xFFFF0001 : Word) = 0
  baseAligned : r.arg1.toNat % 65536 = 0
  lenAligned : r.arg2.toNat % 65536 = 0
  lenPos : 0 < r.arg2.toNat
  lenLe : r.arg2.toNat ≤ 2 ^ 40
  low : 2 ^ 50 ≤ r.arg1.toNat
  high : r.arg1.toNat + r.arg2.toNat ≤ 2 ^ 51
  room : (s.extents.filter (fun e => e.die == r.arg0.getLsbD 0)).length < 256

/-- A DCD_ACCEPT with a good form answers by whether its extent meets another. -/
theorem exec_dcdAccept (ha : Accepts s (.dcdAccept r)) (h : ExtentNamed s r) : exec (.dcdAccept r) s =
    if s.extents.any (fun e => decide (e.base < r.arg1.toNat + r.arg2.toNat) && decide (r.arg1.toNat < e.base + e.len)) then
      .next (s.respond r 7 0 0 0)
    else .next ((accepted s r).respond r 0 0 0 0) := by
  have hc := checked_of_accepts rfl ha
  obtain ⟨hflags, hbase, hlen, hpos, hle, hlow, hhigh, hroom⟩ := h
  have hne : r.arg2.toNat ≠ 0 := Nat.ne_of_gt hpos
  have hlow' : 0x4000000000000 ≤ r.arg1.toNat := hlow
  have hhigh' : r.arg1.toNat + r.arg2.toNat ≤ 0x8000000000000 := hhigh
  change execDcdAccept r s = _
  rw [execDcdAccept, pscCmd_checked hc ?good]
  · rfl
  case good =>
    simp only [hc.unused, hflags, hbase, hlen, hroom, hle, hlow', hhigh', bne_iff_ne.mpr hne, beq_self_eq_true, decide_true,
      Bool.and_self]

theorem accepted_memRead (h : ExtentNamed s r) (k : Nat) : memRead (accepted s r).mem k =
    if r.arg1.toNat ≤ k ∧ k < r.arg1.toNat + r.arg2.toNat then 0 else memRead s.mem k := by
  have hhigh := h.high
  rw [accepted, memRead_clearKeys]
  split
  · exact memDefault_low (by omega)
  · rfl

end

/-! ### DCD_RELEASE (R42, R43) -/

/-- A state with the release of an extent begun by a command. -/
def State.begunRelease (s : State) (e : Extent) (r : CmdRec) (force : Bool) : State :=
  { s with extents := s.extents.map (fun x =>
      if x.die = e.die ∧ x.base = e.base then { x with releasing := some (r, force) } else x) }

section
variable {s : State} {r : CmdRec} {e : Extent} {force : Bool}

theorem release_unknown (hc : Checked s r 0 2 true) (hword : r.arg0 &&& ~~~(0x101 : Word) = 0)
    (h : ∀ e ∈ s.extents, e.die ≠ r.arg0.getLsbD 0 ∨ e.base ≠ r.arg1.toNat) : s.release r force = .next (s.respond r 6 0 0 0) := by
  have hnone : s.extents.find? (fun x => x.die == r.arg0.getLsbD 0 && x.base == r.arg1.toNat) = none := by
    rw [List.find?_eq_none]
    intro x hx
    rw [Bool.and_eq_true, beq_iff_eq, beq_iff_eq, not_and_or]
    exact h x hx
  rw [State.release, pscCmd_checked hc (by rw [hc.unused, hword]; rfl), hnone]
  rfl

section
variable (hc : Checked s r 0 2 true) (hword : r.arg0 &&& ~~~(0x101 : Word) = 0)
  (hfind : s.extents.find? (fun x => x.die == r.arg0.getLsbD 0 && x.base == r.arg1.toNat) = some e)
include hc hword hfind

theorem release_known : s.release r force =
    if e.releasing.isSome then .next { s with cmdPort := r :: s.cmdPort }
    else if !force ∧ s.pinned e.base (e.base + e.len) then .next (s.respond r 5 0 0 0)
    else .next (if force then ((s.begunRelease e r force).revokeKeys (fun _ => true) e.base (e.base + e.len)).2
      else s.begunRelease e r force) := by
  have hdie : r.arg0.getLsbD 0 = e.die := by
    have hkey := List.find?_some hfind
    rw [Bool.and_eq_true, beq_iff_eq] at hkey
    exact hkey.1.symm
  rw [State.release, pscCmd_checked hc (by rw [hc.unused, hword]; rfl), hfind]
  dsimp only
  rw [hdie]
  rfl

theorem release_waits (h : e.releasing ≠ none) : s.release r force = .next { s with cmdPort := r :: s.cmdPort } := by
  rw [release_known hc hword hfind, if_pos (Option.isSome_iff_ne_none.mpr h)]

theorem release_busy (h : e.releasing = none) (hpin : s.pinned e.base (e.base + e.len) = true) :
    s.release r false = .next (s.respond r 5 0 0 0) := by
  rw [release_known hc hword hfind, h, if_neg (by simp), if_pos ⟨rfl, hpin⟩]

theorem release_forced (h : e.releasing = none) : s.release r true =
    .next ((s.begunRelease e r true).revokeKeys (fun _ => true) e.base (e.base + e.len)).2 := by
  rw [release_known hc hword hfind, h, if_neg (by simp), if_neg (by simp)]
  rfl

theorem release_unpinned (h : e.releasing = none) (hpin : s.pinned e.base (e.base + e.len) = false) :
    s.release r force = .next (s.begunRelease e r force) := by
  cases force
  · rw [release_known hc hword hfind, h, if_neg (by simp), if_neg (by simp [hpin])]
    rfl
  · have hnone : (s.begunRelease e r true).revokeKeys (fun _ => true) e.base (e.base + e.len) = (0, s.begunRelease e r true) := by
      refine revokeKeys_none fun t ht hexists _ p hp => Bool.eq_false_iff.mpr fun hcov => ?_
      rw [State.pinned, Bool.or_eq_false_iff] at hpin
      refine absurd hpin.1 ?_
      rw [Bool.not_eq_false, List.any_eq_true]
      exact ⟨t, ht, by rw [hexists, Bool.true_and, List.any_eq_true]; exact ⟨p, hp, hcov⟩⟩
    rw [release_forced hc hword hfind h, hnone]

end

/-- No pin of the only strand covers the range any more, and those that did are revoked. -/
theorem covers_after_revokeKeys {s : State} (ho : s.others = []) (he : s.cur.exists_ = true) (lo hi : Nat) {k : Nat}
    (h1 : 1 ≤ k) (h8 : k < 8) : ((s.revokeKeys (fun _ => true) lo hi).2.pin k).covers lo hi = false ∧
    ((s.pin k).covers lo hi = true → ∃ x, (s.revokeKeys (fun _ => true) lo hi).2.pin k = revokedPin (s.pin k) x) := by
  have hrevoked := revokeKeys_revoked ho he lo hi
  by_cases hcov : (s.pin k).covers lo hi = true
  · obtain ⟨x, hx⟩ := hrevoked.revoked k h8 ((mem_coveringPins h1 h8).mpr hcov)
    refine ⟨?_, fun _ => ⟨x, hx⟩⟩
    rw [hx]
    simp [Pin.covers, revokedPin]
  · have hmoved := hrevoked.kept k h8 fun h => hcov ((mem_coveringPins h1 h8).mp h)
    exact ⟨hmoved.covers_eq lo hi ▸ Bool.eq_false_iff.mpr hcov, fun h => absurd h hcov⟩

end

/-! ### EXTENT_RELEASE_COMPLETE (R42) -/

theorem exec_extentReleaseComplete {s : State} {e : Extent} {r : CmdRec} {force : Bool} (hrest : AtRest s)
    (hbase : e.base < 2 ^ 52) (hfind : s.extents.find? (fun x => x.die == e.die && x.base == e.base) = some e)
    (hrel : e.releasing = some (r, force)) :
    exec (.extentReleaseComplete e.die (BitVec.ofNat 52 e.base)) s = .next ((s.dropExtent e force).respond r 0 0 0 0).poll := by
  have hto : (BitVec.ofNat 52 e.base).toNat = e.base := (BitVec.toNat_ofNat ..).trans (Nat.mod_eq_of_lt hbase)
  change execExtentReleaseComplete e.die (BitVec.ofNat 52 e.base) s = _
  unfold execExtentReleaseComplete
  rw [hto, hfind]
  dsimp only
  rw [hrel]
  dsimp only
  rw [settleStores_of_rest hrest, storesGoOn_of_rest hrest]
  rfl

/-- Settles O40: each command by the equation of its branch; the pins of a forced release through `revokeKeys_revoked`, the
end of a release through `dropExtent_clauses`. -/
theorem extentCommands : Obligations.ExtentCommands := by
  unfold Obligations.ExtentCommands
  refine ⟨fun s r ha hflags hbase hlen hpos hle hlow hhigh hroom => ?accept, fun s r ha hword => ?release,
    fun s e r force hcanon hrest hbase hfind hrel => ?complete⟩
  case accept =>
    have hgood : ExtentNamed s r := ⟨hflags, hbase, hlen, hpos, hle, hlow, hhigh, hroom⟩
    have hexec := exec_dcdAccept ha hgood
    constructor
    · rintro ⟨e, he, hb, hl⟩
      rw [hexec, if_pos (List.any_eq_true.mpr ⟨e, he, by simp [hb, hl]⟩)]
      rfl
    · intro hfree
      have hnone : ¬ s.extents.any (fun e => decide (e.base < r.arg1.toNat + r.arg2.toNat) &&
          decide (r.arg1.toNat < e.base + e.len)) = true := by
        rw [List.any_eq_true]
        rintro ⟨e, he, hmeet⟩
        rw [Bool.and_eq_true, decide_eq_true_iff, decide_eq_true_iff] at hmeet
        have := hfree e he
        omega
      refine ⟨accepted s r, by rw [hexec, if_neg hnone], rfl, rfl, fun k hk => ?_, fun k hlo hhi => ?_,
        fun l hlo hhi => clearKeys_poisoned hlo hhi⟩
      · rw [accepted_memRead hgood, if_neg (by omega)]
      · rw [accepted_memRead hgood, if_pos ⟨hlo, hhi⟩]
  case release =>
    have hc : Checked s r 0 2 true := checked_of_accepts rfl ha
    refine ⟨fun h => ⟨release_unknown hc hword h, release_unknown hc hword h⟩, fun e hfind => ?_⟩
    refine ⟨fun h => ⟨release_waits hc hword hfind h, release_waits hc hword hfind h⟩, release_busy hc hword hfind,
      fun h hpin => ⟨release_unpinned hc hword hfind h hpin, release_unpinned hc hword hfind h hpin⟩, fun h ho he => ?_⟩
    refine ⟨_, release_forced hc hword hfind h, (revokeKeys_revoked (s := s.begunRelease e r true) ho he _ _).extents,
      fun k h1 h8 => covers_after_revokeKeys (s := s.begunRelease e r true) ho he _ _ h1 h8⟩
  case complete =>
    exact ⟨s.dropExtent e force, exec_extentReleaseComplete hrest hbase hfind hrel, dropExtent_clauses hcanon.2 hrest⟩

end Sys2Proof.Machine

/-! Farms queued and strips taken by a strand (R84, R356, R357). -/

namespace Sys2Proof.Machine

open Sys2Proof.Claims

/-! ### A read changes the cores' records only (R168, R174) -/

/-- A state that differs in what its cores hold of lines and translations. -/
def CoresOnly (s u : State) : Prop := ∃ cs, u = { s with cores := cs }

section
variable {s u v : State}

theorem CoresOnly.refl (s : State) : CoresOnly s s := ⟨s.cores, rfl⟩

theorem CoresOnly.trans (h : CoresOnly s u) (h' : CoresOnly u v) : CoresOnly s v := by
  obtain ⟨cs, rfl⟩ := h
  obtain ⟨cs', rfl⟩ := h'
  exact ⟨cs', rfl⟩

theorem CoresOnly.foldl {α : Type} {f : State → α → State} (hf : ∀ u x, CoresOnly u (f u x)) (l : List α) (s : State) :
    CoresOnly s (l.foldl f s) := by
  induction l generalizing s with
  | nil => exact .refl s
  | cons x l ih => exact (hf s x).trans (ih _)

theorem CoresOnly.ite {p : Prop} [Decidable p] (hu : CoresOnly s u) (hv : CoresOnly s v) :
    CoresOnly s (if p then u else v) := by
  split
  · exact hu
  · exact hv

theorem coresOnly_modCore (s : State) (n : Nat) (f : Core → Core) : CoresOnly s (s.modCore n f) := ⟨_, rfl⟩

theorem coresOnly_filterLines (s : State) (keep : Bool) (ls : List Nat) : CoresOnly s (s.filterLines keep ls) := by
  unfold State.filterLines
  exact .ite (.foldl (fun u (c : Nat × Core) => coresOnly_modCore u c.1 _) s.cores s) (.refl s)

theorem coresOnly_takeLine (s : State) (core : Nat) (ins : Bool) (l : Nat) : CoresOnly s (s.takeLine core ins l) := by
  have htaken := coresOnly_modCore s core (Core.takeLine ins l)
  unfold State.takeLine
  exact .ite (.refl s) (.ite (htaken.trans (coresOnly_filterLines ..)) htaken)

theorem coresOnly_takeLines (s : State) (core : Nat) (ins : Bool) (ks : List Nat) : CoresOnly s (s.takeLines core ins ks) :=
  .foldl (fun u l => coresOnly_takeLine u core ins l) _ s

theorem coresOnly_fillTlb (s : State) (t : Strand) (kind : AKind) (va : Nat) : CoresOnly s (s.fillTlb t kind va) := by
  unfold State.fillTlb
  split
  · exact .refl s
  · split
    · exact .refl s
    · split
      · exact coresOnly_modCore ..
      · exact .refl s

theorem coresOnly_touch (s : State) (kind : AKind) (va : Word) (n : Nat) : CoresOnly s (s.touch kind va n) :=
  (coresOnly_fillTlb ..).trans (coresOnly_fillTlb ..)

end

/-! ### `farm` (R356) -/

/-- What `farm` does with the descriptor it has read: it answers the status of a refusal, or the number of the farm it
queues. -/
noncomputable def State.farmJudged (s : State) (d : Reg) (fd : Fdesc) : Res :=
  match s.judge fd s.cur.part (s.cur.level == .user) with
  | some st => .next (wrote s d (BitVec.ofNat 64 (2 ^ 63 + st)) 4)
  | none => .next ((wrote s d (BitVec.ofNat 64 s.nextFarm) 4).queueFarm fd none).1

section
variable {s : State} {d a b : Reg}

theorem exec_farm_misaligned (hf : Free s [d, a, b]) (halign : (s.g a).toNat % 8 ≠ 0) :
    exec (.farm d a b) s = .next (s.takeTrap (scalarTrap cMISALIGN (s.g a).toNat 1)) := by
  change execFarm d a b s = _
  unfold execFarm
  rw [withRegs_free (any_pendingG_of_free hf), if_pos halign]
  rfl

theorem farmJudged_refused {fd : Fdesc} {st : Nat} (h : s.judge fd s.cur.part (s.cur.level == .user) = some st) :
    s.farmJudged d fd = .next (wrote s d (BitVec.ofNat 64 (2 ^ 63 + st)) 4) := by
  unfold State.farmJudged
  rw [h]

theorem farmJudged_queued {fd : Fdesc} (h : s.judge fd s.cur.part (s.cur.level == .user) = none) :
    s.farmJudged d fd = .next ((wrote s d (BitVec.ofNat 64 s.nextFarm) 4).queueFarm fd none).1 := by
  unfold State.farmJudged
  rw [h]

/-- `farm` on an aligned descriptor that may be read now, no earlier access outstanding, judges what it reads. -/
theorem exec_farm_read {keys : List Nat} (hf : Free s [d, a, b]) (halign : (s.g a).toNat % 8 = 0)
    (hkeys : scalarKeys s s.cur .read 128 (s.g a) = .ok keys) (hfence : s.cur.fenced 0 = false)
    (hloads : s.cur.loadWaits (s.g a).toNat 128 = false) (hrel : s.cur.releaseWaits = false) :
    let fd := parseFdesc (leNat (memReadList (s.cur.view s.mem) keys))
    exec (.farm d a b) s = ((s.touch .read (s.g a) 128).takeLines s.cur.coreNo false keys).farmJudged d
      (if b = 0 then fd else { fd with argptr := s.g b }) := by
  intro fd
  obtain ⟨cs, hcs⟩ := (coresOnly_touch s .read (s.g a) 128).trans (coresOnly_takeLines _ s.cur.coreNo false keys)
  have harg : withArg fd (if b = 0 then none else some (s.g b)) = if b = 0 then fd else { fd with argptr := s.g b } := by
    split <;> rfl
  change execFarm d a b s = _
  unfold execFarm
  rw [withRegs_free (any_pendingG_of_free hf), if_neg (not_not.mpr halign),
    scalarLoad_goes hkeys (by rw [hfence, hloads]; rfl), hcs, if_neg (by rw [hrel]; decide), ← harg]
  simp only [retire_eq_wrote]
  rfl

/-! ### `strip` (R84, R357) -/

/-- The strip that a strand of a farm takes next: its own sequence in a FIXED farm, else the farm's next. -/
def stripOf (t : Strand) (f : Farm) : Nat := if f.fd.fixed then t.logid + t.strips * t.nstrands else f.nextStrip

/-- The strip taken: counted for the strand and its farm, its first element in STRIPBASE. -/
def State.tookStrip (s : State) (f : Farm) : State :=
  { s with
    cur := { s.cur with
      strips := s.cur.strips + 1
      ctl := { s.cur.ctl with stripbase := BitVec.ofNat 64 (stripOf s.cur f * f.fd.striplen.toNat) } }
    farms := s.farms.map (fun h => if h.id = s.cur.farm then { h with
      strips := h.strips + 1, nextStrip := if h.fd.fixed then h.nextStrip else h.nextStrip + 1 } else h) }

theorem nextStripOf_eq {f : Farm} (hfarm : s.farm? s.cur.farm = some f) : s.nextStripOf =
    if stripOf s.cur f < f.fd.stripcnt.toNat then some (stripOf s.cur f, s.tookStrip f) else none := by
  unfold State.nextStripOf
  dsimp only
  rw [hfarm]
  rfl

theorem exec_strip_takes {f : Farm} (hf : Free s [d]) (hfarm : s.farm? s.cur.farm = some f)
    (h : stripOf s.cur f < f.fd.stripcnt.toNat) :
    exec (.strip d) s = .next (wrote (s.tookStrip f) d (BitVec.ofNat 64 (stripOf s.cur f)) 4) := by
  change execStrip d s = _
  unfold execStrip
  rw [withRegs_free (any_pendingG_of_free hf), nextStripOf_eq hfarm, if_pos h]
  exact congrArg _ (retire_eq_wrote ..)

theorem exec_strip_none {f : Farm} (hf : Free s [d]) (hfarm : s.farm? s.cur.farm = some f)
    (h : f.fd.stripcnt.toNat ≤ stripOf s.cur f) : exec (.strip d) s = .next (wrote s d (BitVec.allOnes 64) 4) := by
  change execStrip d s = _
  unfold execStrip
  rw [withRegs_free (any_pendingG_of_free hf), nextStripOf_eq hfarm, if_neg (Nat.not_lt.mpr h)]
  exact congrArg _ (retire_eq_wrote ..)

end

/-- Settles O17: the descriptor that `farm` reads is judged in a state that differs in the cores' records only; `strip` by the
equation of its decision. -/
theorem farmAndStripResults : Obligations.FarmAndStripResults := by
  unfold Obligations.FarmAndStripResults
  refine ⟨fun d a b s => exec_farm_misaligned, fun d a b s keys hf halign hkeys hfence hloads hrel => ?farm,
    fun d s f hf hfarm => ?strip⟩
  case farm =>
    intro s1 fd0 fd
    have hread : exec (.farm d a b) s = s1.farmJudged d fd := exec_farm_read hf halign hkeys hfence hloads hrel
    obtain ⟨cs, hcs⟩ : CoresOnly s s1 := (coresOnly_touch ..).trans (coresOnly_takeLines ..)
    have hcur : s1.cur = s.cur := by rw [hcs]
    have hnext : s1.nextFarm = s.nextFarm := by rw [hcs]
    rw [hread, ← hcur, ← hnext]
    exact ⟨fun st => farmJudged_refused, farmJudged_queued⟩
  case strip => exact ⟨exec_strip_takes hf hfarm, exec_strip_none hf hfarm⟩

end Sys2Proof.Machine

/-! The command and response ports (R47, R48, R50 to R52), and the canonical form of the reset state (R70). -/

namespace Sys2Proof.Machine

open Sys2Proof.Claims

/-- Settles O55: the reset state has no byte of memory written and no core recorded. -/
theorem resetCanonical : Obligations.ResetCanonical := ⟨mem_nil_wf, .nil⟩

/-! ### Fields of a record as bytes (R51, R52) -/

theorem leBytes_append (m n y : Nat) : ∀ {x : Nat}, x < 2 ^ (8 * m) →
    leBytes m x ++ leBytes n y = leBytes (m + n) (x + 2 ^ (8 * m) * y) := by
  induction m with
  | zero =>
    intro x hx
    obtain rfl : x = 0 := by simpa using hx
    simp [leBytes]
  | succ m ih =>
    intro x hx
    have hpow : 2 ^ (8 * (m + 1)) = 256 * 2 ^ (8 * m) := by rw [Nat.mul_add, Nat.pow_add]; omega
    rw [hpow] at hx ⊢
    rw [Nat.mul_assoc]
    have hlow : BitVec.ofNat 8 (x + 256 * (2 ^ (8 * m) * y)) = BitVec.ofNat 8 x :=
      BitVec.eq_of_toNat_eq (by simp [Nat.add_mul_mod_self_left])
    rw [Nat.add_right_comm, leBytes, leBytes, List.cons_append, ih (by omega), hlow,
      Nat.add_mul_div_left _ _ (by decide : 0 < 256)]

/-- The first eight bytes of a response record are its fields in their order. -/
theorem respBytes_eq (r : RespRec) : respBytes r =
    leBytes 2 r.opcode.toNat ++ leBytes 2 r.tag.toNat ++ leBytes 1 r.part.toNat ++ leBytes 1 0 ++ leBytes 2 r.status.toNat ++
      leBytes 8 r.res0.toNat ++ leBytes 8 r.res1.toNat ++ leBytes 8 r.res2.toNat := by
  have hop := r.opcode.isLt
  have htag := r.tag.isLt
  have hpart := r.part.isLt
  have hhead : leBytes 2 r.opcode.toNat ++ leBytes 2 r.tag.toNat ++ leBytes 1 r.part.toNat ++ leBytes 1 0 ++
      leBytes 2 r.status.toNat =
      leBytes 8 (r.opcode.toNat + r.tag.toNat * 2 ^ 16 + r.part.toNat * 2 ^ 32 + r.status.toNat * 2 ^ 48) := by
    rw [leBytes_append _ _ _ hop, leBytes_append _ _ _ (by omega), leBytes_append _ _ _ (by omega),
      leBytes_append _ _ _ (by omega)]
    congr 1
    omega
  rw [hhead, respBytes]

theorem byteField_here {w n : Nat} (h : w ≤ 8 * n) (x : BitVec w) (bs : List Byte) :
    byteField (leBytes n x.toNat ++ bs) 0 n = x.toNat := by
  rw [byteField, List.drop_zero, List.take_left' (leBytes_length ..), leNat_leBytes,
    Nat.mod_eq_of_lt (x.isLt.trans_le (Nat.pow_le_pow_right (by decide) h))]

theorem byteField_behind {m off : Nat} (h : m ≤ off) (x n : Nat) (bs : List Byte) :
    byteField (leBytes m x ++ bs) off n = byteField bs (off - m) n := by
  rw [byteField, byteField, List.drop_append, List.drop_eq_nil_of_le (by rw [leBytes_length]; exact h), leBytes_length,
    List.nil_append]

/-- The bytes of a command record are read back as its fields. -/
theorem recordOf_bytes (r : CmdRec) : recordOf (leBytes 2 r.opcode.toNat ++ leBytes 2 r.tag.toNat ++ leBytes 1 r.part.toNat ++
    leBytes 1 r.flags.toNat ++ leBytes 2 r.rsvd.toNat ++ leBytes 8 r.arg0.toNat ++ leBytes 8 r.arg1.toNat ++
    leBytes 8 r.arg2.toNat ++ leBytes 8 r.arg3.toNat ++ leBytes 8 r.arg4.toNat ++ leBytes 8 r.arg5.toNat ++
    leBytes 8 r.arg6.toNat) = r := by
  have hlast : leBytes 8 r.arg6.toNat = leBytes 8 r.arg6.toNat ++ [] := (List.append_nil _).symm
  rw [hlast]
  simp [recordOf, byteField_here, byteField_behind, -List.append_nil]

/-! ### Writes to the command port (R47, R50) -/

theorem portOpen_iff {s : State} : s.portOpen = true ↔ s.mode = .ready ∨ s.mode = .failed ∨ s.mode = .tripped := by
  simp [State.portOpen, or_assoc]

theorem barAnswers_iff {s : State} : s.barAnswers = true ↔ s.mode ≠ .off := by simp [State.barAnswers]

/-- The port takes a record when it is open and has room. -/
abbrev PortTakes (s : State) : Prop := s.portOpen = true ∧ s.cmdPort.length < 256

theorem not_portTakes {s : State} (h : s.mode = .coldStart ∨ s.mode = .warmStart ∨ 256 ≤ s.cmdPort.length) :
    ¬ PortTakes s := by
  rintro ⟨hopen, hroom⟩
  rcases portOpen_iff.mp hopen with hm | hm | hm <;> simp [hm] at h <;> omega

section
variable {s : State}

theorem writeRecord_takes (h : PortTakes s) (r : CmdRec) : s.writeRecord r = { s with cmdPort := s.cmdPort ++ [r] } := by
  have hon : s.mode ≠ .off := by rcases portOpen_iff.mp h.1 with hm | hm | hm <;> simp [hm]
  rw [State.writeRecord, if_neg (by simp [barAnswers_iff.mpr hon]), if_pos h]

theorem writeRecord_refused (hon : s.mode ≠ .off) (h : ¬ PortTakes s) (r : CmdRec) :
    s.writeRecord r = { s with cmdRefused := s.cmdRefused + 1 } := by
  rw [State.writeRecord, if_neg (by simp [barAnswers_iff.mpr hon]), if_neg h]

theorem exec_commandRecordRefused (hon : s.mode ≠ .off) (off len : Nat) : exec (.commandRecordRefused off len) s =
    if off % 64 ≠ 0 ∨ len ≠ 64 then .next { s with cmdBadWrite := s.cmdBadWrite + 1 }
    else if PortTakes s then .next s
    else .next { s with cmdRefused := s.cmdRefused + 1 } := if_neg (by simp [barAnswers_iff.mpr hon])

/-- A record of the host in the turns is written to the port. -/
theorem step_record {rest : List Turn} {bs : List Byte} (hlost : s.lost = false) (hturn : s.turns = .record bs :: rest) :
    step s = .next (State.writeBytesToPort { s with turns := rest } bs) := by
  unfold step
  rw [if_neg (by simp [hlost]), hturn]
  rfl

theorem writeBytesToPort_short {bs : List Byte} (hlen : bs.length ≠ 64) (hon : s.mode ≠ .off) :
    s.writeBytesToPort bs = { s with cmdBadWrite := s.cmdBadWrite + 1 } := by
  rw [State.writeBytesToPort, if_neg hlen, if_pos (barAnswers_iff.mpr hon)]

theorem writeBytesToPort_off (hoff : s.mode = .off) (bs : List Byte) : s.writeBytesToPort bs = s := by
  have hbar : s.barAnswers = false := by simp [State.barAnswers, hoff]
  simp [State.writeBytesToPort, State.writeRecord, hbar]

/-! ### The response port (R48, R52) -/

theorem exec_responsePortRead_oldest {r : RespRec} {rest : List RespRec} (hon : s.mode ≠ .off) (h : s.respPort = r :: rest) :
    exec .responsePortRead s = .next { s with respPort := rest, hostRead := respBytes r, hostPoison := false } := by
  change execResponsePortRead s = _
  unfold execResponsePortRead
  rw [if_neg (by simp [barAnswers_iff.mpr hon]), h]

/-- Of an empty port's answer OPCODE is 0xFFFF, the rest a free value. -/
theorem exec_responsePortRead_empty (hon : s.mode ≠ .off) (h : s.respPort = []) :
    exec .responsePortRead s = .next { s.draw.2 with
      hostRead := leBytes 32 (0xFFFF + 2 ^ 16 * s.draw.1), hostPoison := false } := by
  change execResponsePortRead s = _
  unfold execResponsePortRead
  rw [if_neg (by simp [barAnswers_iff.mpr hon]), h]

theorem exec_completionNotice {r : RespRec} {rest : List RespRec} (h : s.notices = r :: rest) : exec .completionNotice s =
    .next (if s.respPort.length < 256 then State.pushResp { s with notices := rest } r else s) := by
  change execCompletionNotice s = _
  unfold execCompletionNotice
  rw [h]

end

/-- Settles O41: the command port by whether it takes a record, the response port by its oldest record, the bytes of a record
field by field. -/
theorem hostPorts : Obligations.HostPorts := by
  unfold Obligations.HostPorts
  refine ⟨fun s r hmode hroom => writeRecord_takes ⟨portOpen_iff.mpr hmode, hroom⟩ r,
    fun s r hon h => writeRecord_refused hon (not_portTakes h) r,
    fun s off len hon => ⟨fun h => ?badWrite, fun h64 hlen h => ?refused⟩,
    fun s r rest hon h => ?oldest, fun s hon h => ?empty, fun s r rest h => ⟨fun hroom => ?enters, fun hfull => ?stays⟩,
    fun s c st a b d => ?respond, fun s rest bs hlost hturn => ?record, recordOf_bytes⟩
  case badWrite => rw [exec_commandRecordRefused hon, if_pos h]
  case refused => rw [exec_commandRecordRefused hon, if_neg (by simp [h64, hlen]), if_neg (not_portTakes h)]
  case oldest => rw [exec_responsePortRead_oldest hon h, respBytes_eq]
  case empty =>
    refine ⟨_, exec_responsePortRead_empty hon h, h, ?_, leBytes_length ..⟩
    have hfront := leBytes_append 2 30 s.draw.1 (x := 0xFFFF) (by decide)
    exact (congrArg (List.take 2) hfront.symm).trans (List.take_left' (leBytes_length ..))
  case enters => rw [exec_completionNotice h, if_pos hroom]; rfl
  case stays => rw [exec_completionNotice h, if_neg (Nat.not_lt.mpr hfull)]
  case respond =>
    intro r
    refine ⟨fun hnone hroom => if_pos ⟨hnone, hroom⟩, fun h => if_neg ?_⟩
    rintro ⟨hnone, hroom⟩
    exact h.elim (absurd hnone) (absurd hroom ∘ Nat.not_lt.mpr)
  case record =>
    intro u
    rw [step_record hlost hturn]
    exact ⟨fun hlen => congrArg _ (if_pos hlen), fun hlen hon => congrArg _ (writeBytesToPort_short (s := u) hlen hon),
      fun hoff => congrArg _ (writeBytesToPort_off (s := u) hoff bs)⟩

end Sys2Proof.Machine

/-! The commands of the PSC on farms and images (R54 to R58, R65, R76). -/

namespace Sys2Proof.Machine

open Sys2Proof.Claims

/-! ### START_FARM: the checks of its three forms (R54, R55) -/

/-- R54: the reserved bits of ARG0 are zero, and it does not ask for DIRECT and RESUME at once. -/
abbrev GoodStart (x : Word) : Prop := fld x.toNat 32 30 = 0 ∧ (x.getLsbD 62 && x.getLsbD 63) = false

theorem goodStart_of_lt {x : Word} (h : x.toNat < 2 ^ 32) : GoodStart x := by
  refine ⟨by rw [fld, Nat.div_eq_of_lt h]; rfl, ?_⟩
  rw [BitVec.getLsbD, Nat.testBit_lt_two_pow (h.trans (by decide))]
  rfl

theorem goodStart_direct {x : Word} (h : x.toNat = 2 ^ 63) : GoodStart x := by
  obtain rfl : x = 0x8000000000000000 := BitVec.eq_of_toNat_eq h
  decide

theorem goodStart_resume {x : Word} (h : x.toNat = 2 ^ 62) : GoodStart x := by
  obtain rfl : x = 0x4000000000000000 := BitVec.eq_of_toNat_eq h
  decide

section
variable {s : State} {r : CmdRec} {q : Part}

theorem pageBase_ne_zero (hq : s.part? r.part.toNat = some q) (hbase : q.ptbase ≠ 0) : s.pageBase r.part.toNat ≠ 0 := by
  unfold State.pageBase
  rw [hq]
  exact fun h => hbase (BitVec.eq_of_toNat_eq h)

section
variable (hc : Checked s r 1 3 false)
include hc

theorem startCmd_bothModes (h62 : r.arg0.getLsbD 62 = true) (h63 : r.arg0.getLsbD 63 = true) (k : State → Res) :
    startCmd r s k = Claims.answered s r 2 0 0 0 := pscCmd_ownCheck hc (by simp [h62, h63]) _

theorem startCmd_checked (hgood : GoodStart r.arg0) (k : State → Res) :
    startCmd r s k = if s.pageBase r.part.toNat = 0 then s.status r 11 else k s :=
  pscCmd_checked hc (by rw [hc.unused, hgood.1, hgood.2]; rfl) _

theorem startCmd_denied (hgood : GoodStart r.arg0) (hbase : s.pageBase r.part.toNat = 0) (k : State → Res) :
    startCmd r s k = Claims.answered s r 11 0 0 0 := (startCmd_checked hc hgood k).trans (if_pos hbase)

theorem startCmd_goes (hgood : GoodStart r.arg0) (hq : s.part? r.part.toNat = some q) (hbase : q.ptbase ≠ 0)
    (k : State → Res) : startCmd r s k = k s := (startCmd_checked hc hgood k).trans (if_neg (pageBase_ne_zero hq hbase))

end

/-! ### START_FARM: a descriptor is judged (R55, R56, R76) -/

/-- R54: the descriptor with the ARGPTR that the command gives. -/
def argDesc (r : CmdRec) (d : Fdesc) : Fdesc := if r.arg2 = 0 then d else { d with argptr := r.arg2 }

/-- One more notice can be owed, if the command asks for one. -/
abbrev NoticeFits (s : State) (r : CmdRec) : Prop := noticeOf r ≠ none → s.owed < 4096

theorem not_noticesFull (h : NoticeFits s r) : ¬ ((noticeOf r).isSome ∧ 4096 ≤ s.owed) :=
  fun ⟨hsome, hfull⟩ => absurd (h (Option.isSome_iff_ne_none.mp hsome)) (Nat.not_lt.mpr hfull)

theorem startDesc_full (hn : noticeOf r ≠ none) (hfull : 4096 ≤ s.owed) (d : Fdesc) :
    s.startDesc r d = Claims.answered s r 10 0 0 0 := if_pos ⟨Option.isSome_iff_ne_none.mpr hn, hfull⟩

theorem startDesc_refused (hfits : NoticeFits s r) {d : Fdesc} {st : Nat}
    (h : s.judge (argDesc r d) (r.part.setWidth 3) false = some st) : s.startDesc r d = Claims.answered s r st 0 0 0 := by
  unfold State.startDesc
  rw [← argDesc, if_neg (not_noticesFull hfits), h]
  rfl

theorem startDesc_queued (hfits : NoticeFits s r) {d : Fdesc} (h : s.judge (argDesc r d) (r.part.setWidth 3) false = none) :
    s.startDesc r d = .next ((s.respond r 0 s.nextFarm 0 0).queueFarm (argDesc r d) (noticeOf r)).1 := by
  unfold State.startDesc
  rw [← argDesc, if_neg (not_noticesFull hfits), h]

/-! ### START_FARM of an image's descriptor (R55) -/

/-- The descriptor that ARG0 names by a handle and an index, if there is one. -/
theorem exec_startFarm (ha : Accepts s (.startFarm r)) (hlt : r.arg0.toNat < 2 ^ 32) (hq : s.part? r.part.toNat = some q)
    (hbase : q.ptbase ≠ 0) : exec (.startFarm r) s =
      (q.images.find? (fun x => x.1 == r.arg0.toNat % 2 ^ 16)).elim (s.status r 8)
        (fun x => x.2.farms[r.arg0.toNat / 2 ^ 16]?.elim (s.status r 2) (s.startDesc r)) := by
  have hhandle : fld r.arg0.toNat 0 16 = r.arg0.toNat % 2 ^ 16 := by rw [fld, pow_zero, Nat.div_one]
  have hindex : fld r.arg0.toNat 16 16 = r.arg0.toNat / 2 ^ 16 := Nat.mod_eq_of_lt (by omega)
  change execStartFarm r s = _
  unfold execStartFarm
  rw [startCmd_goes (checked_of_accepts rfl ha) (goodStart_of_lt hlt) hq hbase, hq, Option.bind_some, hhandle, hindex]
  cases q.images.find? (fun x => x.1 == r.arg0.toNat % 2 ^ 16) with
  | none => rfl
  | some x =>
    dsimp only [Option.elim_some]
    cases x.2.farms[r.arg0.toNat / 2 ^ 16]? <;> rfl

/-! ### START_FARM of a descriptor in memory (R55) -/

section
variable (ha : Accepts s (.startFarmDirect r)) (hword : r.arg0.toNat = 2 ^ 63) (hq : s.part? r.part.toNat = some q)
  (hbase : q.ptbase ≠ 0)
include ha hword hq hbase

theorem exec_startFarmDirect : exec (.startFarmDirect r) s =
    if r.arg1.toNat % 8 ≠ 0 then s.status r 2
    else (fdescKeys s (r.part.setWidth 3) r.arg1.toNat).elim (s.status r 2)
      (fun keys => s.startDesc r (parseFdesc (leNat (memReadList s.mem keys)))) := by
  change execStartFarmDirect r s = _
  unfold execStartFarmDirect
  rw [startCmd_goes (checked_of_accepts rfl ha) (goodStart_direct hword) hq hbase]
  cases fdescKeys s (r.part.setWidth 3) r.arg1.toNat <;> rfl

theorem exec_startFarmDirect_noDesc (h : r.arg1.toNat % 8 ≠ 0 ∨ fdescKeys s (r.part.setWidth 3) r.arg1.toNat = none) :
    exec (.startFarmDirect r) s = Claims.answered s r 2 0 0 0 := by
  rw [exec_startFarmDirect ha hword hq hbase]
  rcases h with h | h
  · exact if_pos h
  · rw [h]
    exact ite_self _

theorem exec_startFarmDirect_desc (halign : r.arg1.toNat % 8 = 0) {keys : List Nat}
    (hkeys : fdescKeys s (r.part.setWidth 3) r.arg1.toNat = some keys) :
    exec (.startFarmDirect r) s = s.startDesc r (parseFdesc (leNat (memReadList s.mem keys))) := by
  rw [exec_startFarmDirect ha hword hq hbase, if_neg (not_not.mpr halign), hkeys, Option.elim_some]

end

/-! ### START_FARM of a held farm, STOP_FARM, PREEMPT, QUERY_FARM (R54, R56 to R58) -/

section
variable {f : Farm}

theorem farmOf_own {id : Nat} (hfarm : s.farm? id = some f) (hpart : f.part.toNat = r.part.toNat) : s.farmOf r id = some f := by
  unfold State.farmOf
  rw [hfarm]
  exact if_pos hpart

theorem farmOf_foreign {id : Nat} (h : s.farm? id = none ∨ ∃ f, s.farm? id = some f ∧ f.part.toNat ≠ r.part.toNat) :
    s.farmOf r id = none := by
  unfold State.farmOf
  rcases h with h | ⟨f, h, hpart⟩
  · rw [h]
  · rw [h]
    exact if_neg hpart

/-- A held farm back in its launch queue, ready now, with the notice that the command asks for. -/
def State.requeued (s : State) (r : CmdRec) (f : Farm) : State :=
  { s with
    farms := s.farms.map (fun x => if x.id = f.id then { x with
      state := .queued, ready := true, order := s.nextOrder, readyAt := s.nextOrder, aged := 0
      notify := match noticeOf r with | some n => some n | none => x.notify } else x)
    nextOrder := s.nextOrder + 1 }

section
variable (ha : Accepts s (.startFarmResume r)) (hword : r.arg0.toNat = 2 ^ 62) (hq : s.part? r.part.toNat = some q)
  (hbase : q.ptbase ≠ 0) (hfarm : s.farmOf r r.arg1.toNat = some f)
include ha hword hq hbase hfarm

theorem exec_startFarmResume : exec (.startFarmResume r) s =
    if f.state ≠ .held then s.status r 8
    else if (noticeOf r).isSome ∧ 4096 ≤ s.owed then s.status r 10
    else .next ((s.respond r 0 f.id 0 0).requeued r f).poll := by
  change execStartFarmResume r s = _
  unfold execStartFarmResume
  rw [startCmd_goes (checked_of_accepts rfl ha) (goodStart_resume hword) hq hbase, hfarm]
  rfl

end

theorem requeued_respond (s : State) (r : CmdRec) (f : Farm) :
    let u := (s.respond r 0 f.id 0 0).requeued r f
    u.farms = (s.requeued r f).farms ∧ u.nextOrder = s.nextOrder + 1 ∧ u.mem = s.mem ∧ u.cur = s.cur := by
  obtain ⟨ports, vectors, notices, h, -⟩ := respond_eq s r 0 f.id 0 0
  rw [h]
  exact ⟨rfl, rfl, rfl, rfl⟩

theorem exec_stopFarm (ha : Accepts s (.stopFarm r)) : exec (.stopFarm r) s =
    (s.farmOf r r.arg0.toNat).elim (s.status r 8) (fun f => .next (s.stopFarm f (some r))) := by
  have hc := checked_of_accepts rfl ha
  change execStopFarm r s = _
  unfold execStopFarm
  rw [pscCmd_checked hc hc.unused]
  cases s.farmOf r r.arg0.toNat <;> rfl

theorem stopFarm_running (h : f.state = .running) (o : Option CmdRec) : s.stopFarm f o = s.requestHalt f.id (.stop o) := by
  unfold State.stopFarm
  rw [h]

theorem stopFarm_waiting (h : f.state = .queued ∨ f.state = .held) :
    s.stopFarm f (some r) = (((s.discardFarm f.id).finishFarm f .stopped).respond r 0 4 0 0).poll := by
  unfold State.stopFarm
  rcases h with h | h <;> rw [h] <;> rfl

theorem stopFarm_ended (h : f.state = .done ∨ f.state = .stopped ∨ f.state = .faulted) :
    s.stopFarm f (some r) = s.respond r 0 f.state.code 0 0 := by
  unfold State.stopFarm
  rcases h with h | h | h <;> rw [h]

theorem exec_preempt (ha : Accepts s (.preempt r)) (harg : r.arg1.toNat ≤ 1) : exec (.preempt r) s =
    (s.farmOf r r.arg0.toNat).elim (s.status r 8) (fun f =>
      if f.state = .running then .next (s.requestHalt f.id (if r.arg1 = 0 then .requeue (some r) else .hold r))
      else s.status r 0) := by
  have hc := checked_of_accepts rfl ha
  change execPreempt r s = _
  unfold execPreempt
  rw [pscCmd_checked hc (by rw [hc.unused, decide_eq_true harg]; rfl)]
  cases s.farmOf r r.arg0.toNat <;> rfl

theorem exec_queryFarm (ha : Accepts s (.queryFarm r)) : exec (.queryFarm r) s =
    (s.farmOf r r.arg0.toNat).elim (s.status r 8) (fun f => Claims.answered s r 0 (f.state.code + 16 * f.grant.toNat +
      256 * (s.strands.filter (fun t => t.farm == f.id && t.life == .running)).length) f.strips f.res2) := by
  have hc := checked_of_accepts rfl ha
  change execQueryFarm r s = _
  unfold execQueryFarm
  rw [pscCmd_checked hc hc.unused]
  cases s.farmOf r r.arg0.toNat with
  | none => rfl
  | some f =>
    rw [Option.elim_some, Nat.mul_comm 16, Nat.mul_comm 256]
    rfl

end

/-! ### LOAD_IMAGE (R65, R240, R241, R244, R246) -/

/-- A partition that exists has a number of three bits. -/
theorem part?_lt {p : Nat} (h : (s.part? p).isSome = true) : p < 8 := by
  by_contra hp
  have hnone : s.part? p = none := by
    unfold State.part?
    simp [Vector.getD, Nat.not_lt.mp hp]
  simp [hnone] at h

theorem part_toNat_setWidth (h : (s.part? r.part.toNat).isSome = true) : (r.part.setWidth 3).toNat = r.part.toNat :=
  (BitVec.toNat_setWidth ..).trans (Nat.mod_eq_of_lt (part?_lt h))

/-- The partition with an image registered under a handle. -/
def State.withImage (s : State) (p h : Nat) (im : Image) : State :=
  s.modPart p (fun q => { q with images := putImage h im q.images })

/-- The sections are written in turn and the image is registered; BADARG when a page of one is not valid. -/
noncomputable def State.placeImage (s : State) (r : CmdRec) (xs : List Section) (fs : List Fdesc) (h : Nat) : Res :=
  match State.loadSections (r.part.setWidth 3) r.arg0.toNat xs s with
  | (u, false) => u.status r 2
  | (u, true) =>
    let im : Image := { farms := fs, hash := Config.sha512 (memReadList s.mem (keysFrom r.arg0.toNat r.arg1.toNat)) }
    .next ((u.withImage r.part.toNat h im).respond r 0 h 0 0)

/-- What LOAD_IMAGE does with the sections of a good header: its signature, its farm table, a handle and the sections' places
are checked in turn, then it is placed. -/
noncomputable def State.loadImage (s : State) (r : CmdRec) (q : Part) (xs : List Section) : Res :=
  if s.imageSigned r.arg0.toNat r.arg1.toNat = false then s.status r 4
  else
    match imageFarms s.mem r.arg0.toNat r.arg1.toNat xs with
    | none => s.status r 2
    | some fs =>
      match freeHandle q.images with
      | none => s.status r 10
      | some h => if clash (xs.filter (fun x => x.loaded && x.size != 0)) then s.status r 2 else s.placeImage r xs fs h

section
variable (ha : Accepts s (.loadImage r)) (hbytes : goodBytes r.arg0.toNat r.arg1.toNat)
include ha hbytes

theorem exec_loadImage_denied (hbase : s.pageBase r.part.toNat = 0) : exec (.loadImage r) s = Claims.answered s r 11 0 0 0 := by
  have hc := checked_of_accepts rfl ha
  change execLoadImage r s = _
  unfold execLoadImage
  dsimp only
  rw [pscCmd_checked hc (by rw [hc.unused, devRange_iff.mpr hbytes]; rfl), part_toNat_setWidth hc.exists_, if_pos hbase]
  rfl

theorem exec_loadImage (hq : s.part? r.part.toNat = some q) (hbase : q.ptbase ≠ 0) : exec (.loadImage r) s =
    (imageSections s.mem r.arg0.toNat r.arg1.toNat).elim (s.status r 2) (s.loadImage r q) := by
  have hc := checked_of_accepts rfl ha
  change execLoadImage r s = _
  unfold execLoadImage
  dsimp only
  rw [pscCmd_checked hc (by rw [hc.unused, devRange_iff.mpr hbytes]; rfl), part_toNat_setWidth hc.exists_,
    if_neg (pageBase_ne_zero hq hbase), hq]
  cases imageSections s.mem r.arg0.toNat r.arg1.toNat <;> rfl

end

section
variable {xs : List Section} {fs : List Fdesc}

theorem placeImage_unmapped {h : Nat} {u : State}
    (hload : State.loadSections (r.part.setWidth 3) r.arg0.toNat xs s = (u, false)) :
    s.placeImage r xs fs h = Claims.answered u r 2 0 0 0 := by
  unfold State.placeImage
  rw [hload]
  rfl

theorem placeImage_loads {h : Nat} {u : State}
    (hload : State.loadSections (r.part.setWidth 3) r.arg0.toNat xs s = (u, true)) : s.placeImage r xs fs h =
      Claims.answered (u.withImage r.part.toNat h
        { farms := fs, hash := Config.sha512 (memReadList s.mem (keysFrom r.arg0.toNat r.arg1.toNat)) }) r 0 h 0 0 := by
  unfold State.placeImage
  rw [hload]
  rfl

theorem loadImage_unsigned (h : s.imageSigned r.arg0.toNat r.arg1.toNat = false) :
    s.loadImage r q xs = Claims.answered s r 4 0 0 0 := if_pos h

variable (hsigned : s.imageSigned r.arg0.toNat r.arg1.toNat = true)
include hsigned

theorem loadImage_noFarms (hfarms : imageFarms s.mem r.arg0.toNat r.arg1.toNat xs = none) :
    s.loadImage r q xs = Claims.answered s r 2 0 0 0 := by
  unfold State.loadImage
  rw [if_neg (by simp [hsigned]), hfarms]
  rfl

variable (hfarms : imageFarms s.mem r.arg0.toNat r.arg1.toNat xs = some fs)
include hfarms

theorem loadImage_noHandle (hhandle : freeHandle q.images = none) : s.loadImage r q xs = Claims.answered s r 10 0 0 0 := by
  unfold State.loadImage
  rw [if_neg (by simp [hsigned]), hfarms, hhandle]
  rfl

theorem loadImage_handle {h : Nat} (hhandle : freeHandle q.images = some h) : s.loadImage r q xs =
    if clash (xs.filter (fun x => x.loaded && x.size != 0)) then s.status r 2 else s.placeImage r xs fs h := by
  unfold State.loadImage
  rw [if_neg (by simp [hsigned]), hfarms, hhandle]

end

end

/-! ### The obligation -/

/-- Settles O37: each command by the equation of its branch, a descriptor by what judges it, LOAD_IMAGE check by check. -/
theorem farmCommands : Obligations.FarmCommands := by
  unfold Obligations.FarmCommands
  refine ⟨fun s r => ⟨fun ha hlt hbase => ?denied, fun q hq hbase => ⟨fun ha hlt himage => ?noImage,
      fun h im ha hlt himage hdesc => ?noDesc, fun h im d ha hlt himage hdesc hn hfull => ?full,
      fun ha hword hkeys => ?noKeys⟩,
      fun ha h62 h63 => ?bothModes, fun q h im d ha hlt hq hbase himage hdesc hfits => ?image,
      fun q keys ha hword hq hbase halign hkeys hfits => ?direct, fun q f ha hword hq hbase hfarm hpart hfits => ?resume,
      fun f hfarm hpart => ?own, fun h => ?foreign⟩,
    fun s r ha hbytes => ⟨exec_loadImage_denied ha hbytes, fun q hq hbase hsect => ?badHeader,
      fun q xs hq hbase hsect => ?sections⟩⟩
  case denied =>
    change execStartFarm r s = _
    exact startCmd_denied (checked_of_accepts rfl ha) (goodStart_of_lt hlt) hbase _
  case noImage =>
    rw [exec_startFarm ha hlt hq hbase, himage]
    rfl
  case noDesc =>
    rw [exec_startFarm ha hlt hq hbase, himage, Option.elim_some, hdesc]
    rfl
  case full =>
    rw [exec_startFarm ha hlt hq hbase, himage, Option.elim_some, hdesc, Option.elim_some]
    exact startDesc_full hn hfull d
  case noKeys => exact exec_startFarmDirect_noDesc ha hword hq hbase hkeys
  case bothModes =>
    change execStartFarmDirect r s = _
    exact startCmd_bothModes (checked_of_accepts rfl ha) h62 h63 _
  case image =>
    rw [exec_startFarm ha hlt hq hbase, himage, Option.elim_some, hdesc, Option.elim_some]
    exact ⟨fun st => startDesc_refused hfits, startDesc_queued hfits⟩
  case direct =>
    rw [exec_startFarmDirect_desc ha hword hq hbase halign hkeys]
    exact ⟨fun st => startDesc_refused hfits, startDesc_queued hfits⟩
  case resume =>
    have hexec := exec_startFarmResume ha hword hq hbase (farmOf_own hfarm hpart)
    refine ⟨fun h => hexec.trans (if_pos h), fun h => ⟨_, ?_, requeued_respond s r f⟩⟩
    rw [hexec, if_neg (not_not.mpr h), if_neg (not_noticesFull hfits)]
  case own =>
    have hown := farmOf_own (r := r) hfarm hpart
    have hstop (ha : Accepts s (.stopFarm r)) : exec (.stopFarm r) s = .next (s.stopFarm f (some r)) := by
      rw [exec_stopFarm ha, hown, Option.elim_some]
    refine ⟨fun ha h => ?_, fun ha h => ?_, fun ha h => ?_, fun ha harg h => ?_, fun ha harg h => ?_, fun ha => ?_⟩
    · rw [hstop ha, stopFarm_running h]
      rfl
    · rw [hstop ha, stopFarm_waiting h]
    · rw [hstop ha, stopFarm_ended h]
      rfl
    · rw [exec_preempt ha harg, hown, Option.elim_some, if_pos h]
      rfl
    · rw [exec_preempt ha harg, hown, Option.elim_some, if_neg h]
      rfl
    · rw [exec_queryFarm ha, hown, Option.elim_some]
  case foreign =>
    have hnone := farmOf_foreign h
    refine ⟨fun ha => ?_, fun ha => ?_, fun ha harg => ?_⟩
    · rw [exec_stopFarm ha, hnone]
      rfl
    · rw [exec_queryFarm ha, hnone]
      rfl
    · rw [exec_preempt ha harg, hnone]
      rfl
  case badHeader =>
    rw [exec_loadImage ha hbytes hq hbase, hsect]
    rfl
  case sections =>
    intro farms
    rw [exec_loadImage ha hbytes hq hbase, hsect, Option.elim_some]
    refine ⟨loadImage_unsigned, loadImage_noFarms, fun hsigned hfarms hhandle => ?noHandle,
      fun h hsigned hfarms hhandle hclash => ?clash, fun h u hsigned hfarms hhandle hclash hload => ?unmapped,
      fun h u fs hsigned hfarms hhandle hclash hload => ?loads⟩
    case noHandle =>
      obtain ⟨fs, hfs⟩ := Option.ne_none_iff_exists'.mp hfarms
      exact loadImage_noHandle hsigned hfs hhandle
    case clash =>
      obtain ⟨fs, hfs⟩ := Option.ne_none_iff_exists'.mp hfarms
      rw [loadImage_handle hsigned hfs hhandle, if_pos hclash]
      rfl
    case unmapped =>
      obtain ⟨fs, hfs⟩ := Option.ne_none_iff_exists'.mp hfarms
      rw [loadImage_handle hsigned hfs hhandle, hclash]
      exact placeImage_unmapped hload
    case loads =>
      rw [loadImage_handle hsigned hfarms hhandle, hclash]
      exact placeImage_loads hload

end Sys2Proof.Machine

/-! The start state of a strand (R83, R119, R127, R212), and the halts, due traps and time-outs of a running one (R87, R199,
R352, R353, R361). -/

namespace Sys2Proof.Machine

open Sys2Proof.Claims

/-! ### The start of a strand (R83) -/

/-- R83: a started strand before its three register arguments are written. -/
def seatedStrand (s : State) (f : Farm) (w : Nat) (lvl : Level) (x : Seat) : Strand :=
  { Strand.blank with
    farm := f.id, logid := x.logid, nstrands := f.fd.nstrands.toNat, part := f.fd.part, die := f.fd.dieOf x.logid
    core := BitVec.ofNat 7 x.core, lane := BitVec.ofNat 5 x.lane, lgw := widthLanes w, lanes := x.lanes, det := f.fd.det
    life := .running, level := lvl, pc := f.fd.entry
    ctl := { Ctl.start with
      srseed := f.fd.srseed, srsalt := f.fd.srsalt.setWidth 64, check := f.fd.check.setWidth 64
      ptbase := s.partTable f.fd.part }
    tiles := List.replicate f.fd.ntile.toNat Tile.start, orths := List.replicate f.fd.north.toNat Orth.start
    tcmBase := x.tcmBase, tcmLen := x.tcmLen, saveVa := f.fd.saveva.toNat }

theorem newStrand_eq (s : State) (f : Farm) (w : Nat) (lvl : Level) (x : Seat) : newStrand s f w lvl x =
    (((seatedStrand s f w lvl x).setG 1 f.fd.argptr).setG 30 (stackTop x)).setG 31 (BitVec.ofNat 64 romVa) := rfl

section

variable (s : State) (f : Farm) (w : Nat) (lvl : Level) (x : Seat)

/-- The three register writes reach the g registers only. -/
theorem newStrand_eq_seated : ∃ g, newStrand s f w lvl x = { seatedStrand s f w lvl x with g := g } := ⟨_, rfl⟩

theorem seatedStrand_getG (r : Reg) : (seatedStrand s f w lvl x).getG r = 0 := by
  have hr : r.toNat < 32 := r.isLt
  simp [Strand.getG, seatedStrand, Strand.blank, Vector.getD, hr]

theorem newStrand_argptr : (newStrand s f w lvl x).getG 1 = f.fd.argptr := by
  rw [newStrand_eq, strand_getG_setG_other _ _ (by decide), strand_getG_setG_other _ _ (by decide),
    strand_getG_setG_same _ _ (by decide)]

theorem newStrand_stackTop : (newStrand s f w lvl x).getG 30 = stackTop x := by
  rw [newStrand_eq, strand_getG_setG_other _ _ (by decide), strand_getG_setG_same _ _ (by decide)]

theorem newStrand_romAddress : (newStrand s f w lvl x).getG 31 = BitVec.ofNat 64 romVa := by
  rw [newStrand_eq, strand_getG_setG_same _ _ (by decide)]

theorem newStrand_getG_zero {r : Reg} (h1 : r ≠ 1) (h30 : r ≠ 30) (h31 : r ≠ 31) : (newStrand s f w lvl x).getG r = 0 := by
  rw [newStrand_eq, strand_getG_setG_other _ _ h31, strand_getG_setG_other _ _ h30, strand_getG_setG_other _ _ h1,
    seatedStrand_getG]

theorem newStrand_v {n : Nat} (h : n < 32) : (newStrand s f w lvl x).v.getD n 0 = 0 := by
  obtain ⟨g, hg⟩ := newStrand_eq_seated s f w lvl x
  rw [hg]
  simp [seatedStrand, Strand.blank, Vector.getD, h]

theorem newStrand_getP {n : Nat} (hpos : 1 ≤ n) (h : n < 64) : (newStrand s f w lvl x).getP n = 0 := by
  obtain ⟨g, hg⟩ := newStrand_eq_seated s f w lvl x
  rw [hg, Strand.getP, if_neg (by omega)]
  simp [seatedStrand, Strand.blank, Vector.getD, h]

theorem newStrand_pin_idle {k : Nat} (h : k < 8) : ((newStrand s f w lvl x).pins.getD k Pin.idle).live = false := by
  obtain ⟨g, hg⟩ := newStrand_eq_seated s f w lvl x
  rw [hg]
  simp [seatedStrand, Strand.blank, Vector.getD, h, Pin.idle]

end

/-- R83: the stack begins at a multiple of 16, as the window does. -/
theorem stackTop_aligned (x : Seat) : (stackTop x).toNat % 16 = 0 := by
  rw [stackTop, BitVec.toNat_ofNat, windowBase]
  omega

/-- Settles O51: the registers by the three writes of a start, every other part as the blank strand and the descriptor give it. -/
theorem strandStart : Obligations.StrandStart := by
  unfold Obligations.StrandStart
  intro s f w lvl x t
  refine ⟨rfl, rfl, rfl, rfl, rfl, rfl, rfl, rfl, rfl, rfl, rfl, newStrand_argptr s f w lvl x, newStrand_stackTop s f w lvl x,
    (congrArg (·.toNat % 16) (newStrand_stackTop s f w lvl x)).trans (stackTop_aligned x), newStrand_romAddress s f w lvl x,
    fun r => newStrand_getG_zero s f w lvl x, fun n => newStrand_v s f w lvl x, fun n => newStrand_getP s f w lvl x, rfl,
    fun k => newStrand_pin_idle s f w lvl x, rfl, rfl, ?control⟩
  case control => and_intros <;> rfl

/-! ### A strand with nothing under way (R200) -/

theorem drainIssued_of_quiet {t : Strand} (hv : t.viq = []) (hq : t.rq = []) : t.drainIssued = t := by
  have hdeliver : Strand.deliver 8 t = t := by rw [Strand.deliver, hq]
  have hleave : Strand.leave 64 t = t := by rw [Strand.leave, hv]
  rw [Strand.drainIssued, Strand.finishAll, hv, List.foldl_nil, Strand.advanceAll, hv, List.foldl_nil, Strand.tidy, hdeliver,
    hleave]

section

variable {s : State}

theorem drainStrand_of_quiet (h : Quiet s) : s.drainStrand s.cur.key = s := by
  obtain ⟨he, hv, hq, -⟩ := h
  have hleft : s.performLefts s.cur.key s.cur.leftCount = s := by
    rw [Strand.leftCount, hv]
    rfl
  simp only [State.drainStrand, strand?_cur he, hleft, modStrand_cur he, drainIssued_of_quiet hv hq]

theorem focus_cur (h : s.cur.exists_ = true) : s.focus s.cur.key = s := if_pos ⟨rfl, h⟩

/-! ### HALT_REQUEST and STRAND_HALT (R87, R353, R361) -/

theorem exec_haltRequest_alone (ho : s.others = []) (core : BitVec 8) : exec (.haltRequest core) s = .next { s with
    cur := if s.cur.coreNo = core.toNat ∧ s.mustHalt s.cur = true then { s.cur with haltReq := true } else s.cur } := by
  change execHaltRequest core s = _
  rw [execHaltRequest, State.mapStrands, ho, List.map_nil, ← ho]

/-- A marked strand with nothing under way and no buffered store halts as the model abandons its instruction. -/
theorem exec_strandHalt_marked (hrun : s.cur.life = .running) (hreq : s.cur.haltReq = true) (hquiet : Quiet s)
    (hsbuf : s.cur.sbuf = []) : exec (.strandHalt s.cur.key) s = .next { s with
      cur := { s.cur.abandon with life := .halted, haltReq := false, stalled := false } } := by
  change execStrandHalt s.cur.key s = _
  have he : s.cur.exists_ = true := exists_of_running hrun
  simp only [execStrandHalt, State.haltStrand, strand?_cur he, hrun, hreq, and_self, if_true, drainStrand_of_quiet hquiet,
    hsbuf, List.length_nil, State.flushStores, modStrand_cur he]

theorem exec_strandHalt_unmarked (he : s.cur.exists_ = true) (hreq : s.cur.haltReq = false) :
    exec (.strandHalt s.cur.key) s = .next s := by
  change execStrandHalt s.cur.key s = _
  rw [execStrandHalt, State.haltStrand, strand?_cur he]
  simp [hreq]

theorem abandon_none {t : Strand} (h : t.pause = .none) : t.abandon = t := by
  rw [Strand.abandon, h]
  dsimp only
  rw [← h]

theorem abandon_yielded {t : Strand} (h : t.pause = .yielded) : t.abandon = { t with pause := .none, pc := t.pc + 4 } := by
  rw [Strand.abandon, h]

theorem abandon_arrived {t : Strand} {f : BitVec 16} {p : Bool} (h : t.pause = .arrived f p) : t.abandon = t := by
  rw [Strand.abandon, h]

/-! ### TAKE_TRAP (R199) -/

theorem exec_takeTrap_cur (hrun : s.cur.life = .running) : exec (.takeTrap s.cur.key) s =
    .next (if s.cur.haltReq = false ∧ s.cur.trapDue = true ∧ s.cur.dueSettled = true then s.takeTrap (scalarTrap 0 0 0)
      else s) := by
  change execTakeTrap s.cur.key s = _
  rw [execTakeTrap, focus_cur (exists_of_running hrun)]
  simp only [hrun, true_and]
  rfl

/-! ### WAIT_TIMEOUT and YIELD_EXPIRY (R352, R353) -/

theorem exec_waitTimeout_cur (he : s.cur.exists_ = true) : exec (.waitTimeout s.cur.key) s = .next { s with
    cur := if s.cur.pause = .waiting true then { s.cur with latch := s.cur.latch ||| 1 } else s.cur } :=
  congrArg _ (modStrand_cur he _)

theorem exec_yieldExpiry_yielding (he : s.cur.exists_ = true) {n : Nat} (h : s.cur.pause = .yielding n) :
    exec (.yieldExpiry s.cur.key) s = .next { s with cur := { s.cur with pause := .yielded } } := by
  change execYieldExpiry s.cur.key s = _
  rw [execYieldExpiry, modStrand_cur he, h]

theorem exec_yieldExpiry_other (he : s.cur.exists_ = true) (h : ∀ n, s.cur.pause ≠ .yielding n) :
    exec (.yieldExpiry s.cur.key) s = .next s := by
  change execYieldExpiry s.cur.key s = _
  rw [execYieldExpiry, modStrand_cur he]
  split
  · next n hn => exact absurd hn (h n)
  · rfl

end

/-- Settles O46: each step by its equation on the current strand, a halt by what it makes of the instruction at the pc. -/
theorem haltAndWaitSteps : Obligations.HaltAndWaitSteps := by
  unfold Obligations.HaltAndWaitSteps
  refine ⟨fun s core hothers => ⟨fun hcore hmust => ?marks, fun hnot => ?unmarked⟩,
    fun s hrun hreq hquiet hsbuf => ⟨fun hpause => ?atPc, fun hpause => ?pastYield, fun f p hpause => ?arrived⟩,
    fun s => exec_strandHalt_unmarked,
    fun s hrun => ⟨fun hdue hreq hsettled => ?taken, fun hnot => ?notTaken⟩,
    fun s he => ⟨fun hpause => ?timeout, fun hpause => ?noTimeout, fun n => exec_yieldExpiry_yielding he,
      exec_yieldExpiry_other he⟩⟩
  case marks => rw [exec_haltRequest_alone hothers, if_pos ⟨hcore, hmust⟩]
  case unmarked =>
    rw [exec_haltRequest_alone hothers, if_neg]
    rintro ⟨hcore, hmust⟩
    exact hnot.elim (absurd hcore) (by simp [hmust])
  case atPc => rw [exec_strandHalt_marked hrun hreq hquiet hsbuf, abandon_none hpause]
  case pastYield => rw [exec_strandHalt_marked hrun hreq hquiet hsbuf, abandon_yielded hpause]
  case arrived => rw [exec_strandHalt_marked hrun hreq hquiet hsbuf, abandon_arrived hpause]
  case taken => rw [exec_takeTrap_cur hrun, if_pos ⟨hreq, hdue, hsettled⟩]
  case notTaken =>
    rw [exec_takeTrap_cur hrun, if_neg]
    rintro ⟨hreq, hdue, hsettled⟩
    simp [hreq, hdue, hsettled] at hnot
  case timeout => rw [exec_waitTimeout_cur he, if_pos hpause]
  case noTimeout => rw [exec_waitTimeout_cur he, if_neg hpause]

end Sys2Proof.Machine

/-! Registers that wait, and registers that are written (R99, R119, R247 to R253). -/

namespace Sys2Proof.Machine

open Sys2Proof.Claims

/-! ### A register write (R119) -/

theorem getG_zero (t : Strand) : t.getG 0 = 0 := if_pos rfl

/-- What a written register reads as: its own value, g0 excepted, and every other register its old one. -/
theorem wrote_g (s : State) (d r : Reg) (x : Word) (len : Nat) :
    (wrote s d x len).g r = if d ≠ 0 ∧ r = d then x else s.g r := by
  rw [← retire_eq_wrote]
  have hset : (s.retire d x len).g r = (s.cur.setG d x).getG r := rfl
  rw [hset]
  by_cases hd : d = 0
  · rw [if_neg (fun h => h.1 hd), Strand.setG, if_pos hd]
    rfl
  · by_cases hr : r = d
    · rw [if_pos ⟨hd, hr⟩, hr, strand_getG_setG_same _ _ hd]
    · rw [if_neg (fun h => hr h.2), strand_getG_setG_other _ _ hr]
      rfl

/-! ### A register that is pending (R99) -/

theorem withRegs_not_free {s : State} {rs : List Reg} (h : ¬ Free s rs) (k : State → Res) :
    withRegs rs s k = .next (waits s) := by
  refine withRegs_pending ?_
  rw [← Bool.not_eq_false]
  exact fun hf => h (by simpa [List.any_eq_false] using hf)

/-- A three-register instruction asks for its three registers before anything else. -/
theorem exec_threeRegister {i : Instr} {d a b : Reg} {f : Word → Word → Word} (h : threeRegister i = some (d, a, b, f)) :
    ∃ k, ∀ s, exec i s = withRegs [d, a, b] s k := by
  unfold threeRegister at h
  split at h
  all_goals cases h
  all_goals exact ⟨_, fun _ => rfl⟩

/-- An instruction that reads one register asks for it and its destination before anything else. -/
theorem exec_oneRegister {i : Instr} {d a : Reg} {f : Word → Word} {len : Nat} (h : oneRegister i = some (d, a, f, len)) :
    ∃ k, ∀ s, exec i s = withRegs [d, a] s k := by
  unfold oneRegister at h
  split at h
  all_goals cases h
  all_goals exact ⟨_, fun _ => rfl⟩

/-- Settles O2: both shapes wait on their registers first; a write read back is `wrote_g`. -/
theorem registerRules : Obligations.RegisterRules := by
  unfold Obligations.RegisterRules
  refine ⟨⟨fun i d a b f s hi hf => ?_, fun i d a f len s hi hf => ?_⟩, fun s d r x len => ⟨getG_zero _, wrote_g s d r x len, rfl⟩⟩
  · obtain ⟨k, hk⟩ := exec_threeRegister hi
    rw [hk, withRegs_not_free hf]
    rfl
  · obtain ⟨k, hk⟩ := exec_oneRegister hi
    rw [hk, withRegs_not_free hf]
    rfl

end Sys2Proof.Machine

/-! Control registers read (R100, R127, R128, R355). -/

namespace Sys2Proof.Machine

open Sys2Proof.Claims

section

variable {d r : Reg} {n : BitVec 10} {s : State}

theorem exec_mfc : exec (.mfc d n) s = execMfc d n s := rfl

theorem exec_mtc : exec (.mtc r n) s = execMtc r n s := rfl

/-! ### The classes of numbers (R127, R130) -/

theorem ctlKernel_iff {n : Nat} : ctlKernel n = true ↔ n ∈ kernelRegs := by
  simp only [ctlKernel, kernelRegs, Bool.or_eq_true, Bool.and_eq_true, decide_eq_true_eq, List.mem_cons, List.not_mem_nil, or_false]
  omega

theorem ctlReadOnly_iff {n : Nat} : ctlReadOnly n = true ↔ n ∈ readOnlyRegs := by
  simp only [ctlReadOnly, readOnlyRegs, Bool.or_eq_true, Bool.and_eq_true, decide_eq_true_eq, List.mem_cons, List.not_mem_nil, or_false]
  omega

theorem readGathers_iff {n : Nat} : (ctlGathers n || n == 0x024) = true ↔ n ∈ [0x008, 0x009, 0x00A, 0x00C, 0x024] := by
  simp only [ctlGathers, Bool.or_eq_true, decide_eq_true_eq, beq_iff_eq, List.mem_cons, List.not_mem_nil, or_false]
  omega

/-! ### What a number reads (R127) -/

/-- The strand's slot has two bits, its lane five (R82). -/
theorem slot_mod_four (t : Strand) : t.slot % 4 = t.lane.toNat / 8 := by
  have := t.lane.isLt
  unfold Strand.slot
  omega

theorem controlWord_high {n : Nat} (h : 0x33 ≤ n) : controlWord s n = none := by
  unfold controlWord
  split
  any_goals omega
  rfl

theorem ctlRead_high (t : Strand) (maxlg : BitVec 6) {n : Nat} (h : 0x33 ≤ n) : t.ctlRead maxlg n = none := by
  unfold Strand.ctlRead
  split
  any_goals omega
  rfl

theorem ctlExists_high {n : Nat} (h : 0x33 ≤ n) : ctlExists n = false := by
  simp only [ctlExists, Bool.or_eq_false_iff, Bool.and_eq_false_iff, decide_eq_false_iff_not]
  omega

/-- STRANDID: die, core and slot. -/
theorem ctlRead_strandId : s.cur.ctlRead (s.core s.cur.coreNo).maxlg 0x010 = controlWord s 0x010 := by
  have hword : 512 * boolNat s.cur.die + 4 * s.cur.core.toNat + s.cur.slot % 4 =
      (if s.cur.die then 512 else 0) + 4 * s.cur.core.toNat + s.cur.lane.toNat / 8 := by
    rw [slot_mod_four]
    cases s.cur.die <;> rfl
  exact congrArg (fun x => some (BitVec.ofNat 64 x)) hword

/-- `mfc` reads what the spec's table gives, reserved numbers included. -/
theorem ctlRead_eq_controlWord (s : State) (n : Nat) :
    s.cur.ctlRead (s.core s.cur.coreNo).maxlg n = controlWord s n := by
  rcases Nat.lt_or_ge n 0x33 with h | h
  · by_cases hid : n = 0x010
    · rw [hid, ctlRead_strandId]
    · interval_cases n
      any_goals rfl
      exact absurd rfl hid
  · rw [ctlRead_high _ _ h, controlWord_high h]

theorem ctlExists_eq_isSome (s : State) (n : Nat) : ctlExists n = (controlWord s n).isSome := by
  rcases Nat.lt_or_ge n 0x33 with h | h
  · interval_cases n <;> rfl
  · rw [ctlExists_high h, controlWord_high h]
    rfl

/-! ### `mfc` and `mtc` (R128, R229, R355) -/

theorem exec_mfc_reserved (h : controlWord s n.toNat = none) : exec (.mfc d n) s = s.illegal := by
  have hex : ctlExists n.toNat = false := by rw [ctlExists_eq_isSome s, h]; rfl
  rw [exec_mfc, execMfc]
  rw [hex]
  rfl

theorem exec_mtc_reserved (h : controlWord s n.toNat = none) : exec (.mtc r n) s = s.illegal := by
  have hex : ctlExists n.toNat = false := by rw [ctlExists_eq_isSome s, h]; rfl
  rw [exec_mtc, execMtc]
  rw [hex]
  rfl

theorem exec_mtc_readOnly (h : n.toNat ∈ readOnlyRegs) : exec (.mtc r n) s = s.illegal := by
  rw [exec_mtc, execMtc]
  rw [ctlReadOnly_iff.mpr h, Bool.or_true]
  rfl

theorem kernelRegs_exist {n : Nat} (h : n ∈ kernelRegs) : ctlExists n = true := by
  have all : ∀ n ∈ kernelRegs, ctlExists n = true := by decide
  exact all n h

theorem exec_mfc_user (hk : n.toNat ∈ kernelRegs) (hl : s.cur.level = .user) : exec (.mfc d n) s = s.priv := by
  rw [exec_mfc, execMfc]
  rw [kernelRegs_exist hk, if_neg (by decide), if_pos ⟨ctlKernel_iff.mpr hk, hl⟩]

theorem exec_mfc_reads {x : Word} (h : controlWord s n.toNat = some x) (hk : n.toNat ∈ kernelRegs → s.cur.level = .kernel)
    (hf : Free s [d]) (hv : n.toNat ∈ [0x008, 0x009, 0x00A, 0x00C, 0x024] → AllComplete s) :
    exec (.mfc d n) s = .next (wrote s d x 4) := by
  have hex : ctlExists n.toNat = true := by rw [ctlExists_eq_isSome s, h]; rfl
  have hlevel : ¬ (ctlKernel n.toNat = true ∧ s.cur.level = .user) := fun ⟨hn, hu⟩ =>
    absurd (hu.symm.trans (hk (ctlKernel_iff.mp hn))) (by decide)
  have hgathered : ((ctlGathers n.toNat || n.toNat == 0x024) && !s.cur.viqDone) = false := by
    rw [Bool.and_eq_false_imp]
    exact fun hn => by rw [viqDone_iff.mpr (hv (readGathers_iff.mp hn))]; rfl
  rw [exec_mfc, execMfc]
  rw [hex, if_neg (by decide), if_neg hlevel, withRegs_free (any_pendingG_of_free hf), hgathered, if_neg (by decide),
    ctlRead_eq_controlWord, h, retire_eq_wrote]
  rfl

end

/-- Settles O13: each check in its order, then the word, which is the table's by `ctlRead_eq_controlWord`. -/
theorem controlReads : Obligations.ControlReads := by
  unfold Obligations.ControlReads
  exact ⟨fun _ _ _ _ h hk hf hv => exec_mfc_reads h hk hf hv,
    fun _ _ _ => ⟨fun h => ⟨exec_mfc_reserved h, exec_mtc_reserved h⟩, exec_mtc_readOnly, exec_mfc_user⟩⟩

end Sys2Proof.Machine

/-! Instructions that wait, and the end of a strand (R108, R213, R349, R352 to R354, R359, R360). -/

namespace Sys2Proof.Machine

open Sys2Proof.Claims

section

variable {d a : Reg} {s : State}

/-! ### `wait` and `yield` (R352, R353) -/

theorem exec_wait (hf : Free s [d, a]) : exec (.wait d a) s =
    if s.cur.latch = 0 then .next (waits { s with cur := { s.cur with pause := .waiting (s.g a != 0) } })
    else .next (wrote { s with cur := { s.cur with latch := 0, pause := .none } } d (s.cur.latch.setWidth 64) 4) := by
  have h : exec (.wait d a) s = execWait d a s := rfl
  rw [h, execWait, withRegs_free (any_pendingG_of_free hf), retire_eq_wrote]
  rfl

theorem latch_word (x : BitVec 6) : x.setWidth 64 = BitVec.ofNat 64 x.toNat :=
  BitVec.eq_of_toNat_eq (by rw [BitVec.toNat_setWidth, BitVec.toNat_ofNat])

theorem exec_yield_ends (hf : Free s [a]) (hp : s.cur.pause = .yielded) :
    exec (.yield a) s = .next (moved { s with cur := { s.cur with pause := .none } } 4) := by
  have h : exec (.yield a) s = execYield a s := rfl
  rw [h, execYield, withRegs_free (any_pendingG_of_free hf), hp]
  rfl

theorem exec_yield_begins (hf : Free s [a]) (hp : s.cur.pause = .none) : exec (.yield a) s =
    .next (waits { s with cur := { s.cur with pause := .yielding (yieldCycles (s.g a)) } }).poll := by
  have h : exec (.yield a) s = execYield a s := rfl
  rw [h, execYield, withRegs_free (any_pendingG_of_free hf), hp]
  rfl

/-! ### `vsync`, `sync` and `cvy` (R108, R359, R360) -/

theorem exec_vsync : exec .vsync s =
    if s.cur.viqDone = true ∧ s.cur.rq = [] then .next (moved s 4) else .next (waits s) := rfl

theorem exec_sync : exec .sync s = if s.cur.sbuf ≠ [] then .next (waits s)
    else .next (moved (s.modCore s.cur.coreNo (fun c => { c with dirty := [], ilines := [], stale := [] })) 4) := rfl

theorem exec_cvy : exec .cvy s = .next (moved { s with cur := { s.cur with cvy := true } } 2) := rfl

/-! ### `halt` (R213, R349, R354) -/

theorem exec_halt : exec .halt s = execHalt s := rfl

theorem exec_halt_user (hl : s.cur.level = .user) : exec .halt s = s.priv := by
  rw [exec_halt, execHalt, kernelOnly_user hl]

/-- What `halt` at kernel level waits for. -/
theorem haltsNow_iff : (s.cur.viqDone = true ∧ (!s.transfers s.cur.key) = true) ↔
    AllComplete s ∧ s.transfers s.cur.key = false := by rw [Bool.not_eq_true', viqDone_iff]

theorem exec_halt_waits (hl : s.cur.level = .kernel) (h : ¬ (AllComplete s ∧ s.transfers s.cur.key = false)) :
    exec .halt s = .next (waits s) := by
  rw [exec_halt, execHalt, kernelOnly_kernel hl, if_neg (mt haltsNow_iff.mp h)]
  rfl

theorem exec_halt_ends (hl : s.cur.level = .kernel) (hv : AllComplete s) (ht : s.transfers s.cur.key = false)
    {res2 : Option Nat} (hres : haltRes2 s.cur = res2) : exec .halt s = .next (s.endStrand s.cur.key res2) := by
  rw [exec_halt, execHalt, kernelOnly_kernel hl, if_pos (haltsNow_iff.mpr ⟨hv, ht⟩), hres]

theorem haltRes2_outside {t : Strand} (h : t.inHandler = false) : haltRes2 t = none := by
  rw [haltRes2, h]
  rfl

/-- The exit stub's `trap 1023` is no trap to report (R213). -/
theorem haltRes2_exit {t : Strand} (hcause : t.trapNow.toNat % 256 = 0x18) (hcode : t.trapInfo.toNat % 1024 = 1023) :
    haltRes2 t = none := if_neg (fun h => absurd h.2 (by simp [hcause, hcode, cTRAP]))

theorem haltRes2_trap {t : Strand} (h : t.inHandler = true)
    (hother : t.trapNow.toNat % 256 ≠ 0x18 ∨ t.trapInfo.toNat % 1024 ≠ 1023) :
    haltRes2 t = some (t.trapNow.toNat % 512) :=
  if_pos ⟨h, by rw [Bool.not_eq_true', decide_eq_false_iff_not, not_and_or]; exact hother⟩

end

/-- Settles O16, instruction by instruction. -/
theorem waitingResults : Obligations.WaitingResults := by
  unfold Obligations.WaitingResults
  refine ⟨fun s => ⟨fun d a hf hl => ?_, fun d a hf hl => ?_, fun a hf hp => exec_yield_ends hf hp, fun a hf hp => ?_,
    fun hv hq => ?_, fun h => ?_, fun h => ?_, fun h => ?_, exec_cvy⟩, fun s => ⟨exec_halt_user, exec_halt_waits,
    fun hl hv ht hn => exec_halt_ends hl hv ht (haltRes2_outside hn),
    fun hl hv ht _ hcause hcode => exec_halt_ends hl hv ht (haltRes2_exit hcause hcode),
    fun hl hv ht hn hother => exec_halt_ends hl hv ht (haltRes2_trap hn hother)⟩⟩
  · rw [exec_wait hf, if_neg hl, latch_word]
  · rw [exec_wait hf, if_pos hl]
  · exact ⟨yieldCycles (s.g a), fun h => if_pos h, fun h => if_neg h, exec_yield_begins hf hp⟩
  · rw [exec_vsync, if_pos ⟨viqDone_iff.mpr hv, hq⟩]
  · rw [exec_vsync, if_neg (fun hn => h ⟨viqDone_iff.mp hn.1, hn.2⟩)]
  · rw [exec_sync, if_neg (not_not.mpr h)]
  · rw [exec_sync, if_pos h]

end Sys2Proof.Machine

/-! An error injected into a row whose newest version stands in the queue (R115, R136). -/

namespace Sys2Proof.Machine

open Sys2Proof.Claims Sys2Proof.Tests

/-- A marked row is its newest version's. -/
theorem exec_errinjMarkRow {s : State} {reg : Reg} {pos : BitVec 12} (hrun : s.cur.life = .running)
    (hpos : pos.toNat < 8 * s.cur.lgw) : exec (.errinjMarkRow reg pos) s = .next { s with
      cur := s.cur.markRow (s.cur.versionOf none (reg.toNat, pos.toNat)) (reg.toNat, pos.toNat) } := by
  have h : exec (.errinjMarkRow reg pos) s = execErrinjMarkRow reg pos s := rfl
  rw [h, execErrinjMarkRow, errinj, if_neg (not_not.mpr hrun)]
  exact if_pos (decide_eq_true hpos)

/-! ### The counterexample: the queue's head has written row 0 of v3 and is not complete -/

/-- A `vadd` of eight elements whose first group, the row (3, 0), is final. -/
def halfDone : VEntry :=
  { instr := .vadd { ext := false, m := 0 } 3 1 2, seq := 0, convoy := false
    caps := { ga := 0, gb := 0, gd := 0, vl := 8, vtype := 2, stripbase := 0, srseed := 0, srsalt := 0, check := 0, tshape := 0
              tpad := 0, mxsa := 0, mxsb := 0, xferbar := 0, rowbytes := 0 }
    prog := 4, rowprog := 0, inflight := []
    done := [{ g := 0, writes := [.v 3 0 4 0, .v 3 4 4 0, .v 3 8 4 0, .v 3 12 4 0], fl := 0, gs := 0, flip := none, left := [] }]
    fault := none, complete := false, value := none, skip := none, partA := [], logged := false, bad := [] }

def halfDoneState : State := ready.modCur (fun t => { t with viq := [halfDone], nextSeq := 1 })

theorem newest_halfDone : halfDoneState.cur.versionOf none (3, 0) = some 0 := by decide

/-- The mark goes to the entry, and the list of the register file itself stays empty. -/
theorem badRows_halfDone : (halfDoneState.cur.markRow (halfDoneState.cur.versionOf none (3, 0)) (3, 0)).badRows = [] := by
  rw [newest_halfDone]
  rfl

/-- Refutes O14: its last clause has the injected mark join the lost rows of the register file, and no hypothesis asks that the
row's newest version be the register file's. Here the queue's head has written the row, and the mark is its own. -/
theorem not_laneLimitAndInjection : ¬ Obligations.LaneLimitAndInjection := by
  unfold Obligations.LaneLimitAndInjection
  rintro ⟨_, _, _, _, _, hinject⟩
  obtain ⟨_, _, hrow⟩ := hinject 3 0 0 halfDoneState rfl
  obtain ⟨t, ht, hmem, _⟩ := hrow (by decide)
  rw [exec_errinjMarkRow rfl (by decide)] at ht
  cases ht
  exact absurd (badRows_halfDone ▸ hmem) List.not_mem_nil

end Sys2Proof.Machine

/-! The commit of vector, tile and orthogonal instructions (R98, R99, R129, R214, R229). -/

namespace Sys2Proof.Machine

open Sys2Proof.Claims

/-! ### Lengths (R214, R220 to R222) -/

theorem length_splitWord (w : BitVec 32) : (splitWord w).length = 2 := rfl

theorem vxLen_eq_encV (major fn : Nat) (x : VX) (b a d : BitVec 6) : vxLen x = 2 * (encV major fn x b a d).length := by
  unfold vxLen encV
  split <;> rfl

theorem vxLen_eq_encM (major : Nat) (x : VX) (o : Bool) (w : BitVec 2) (k : BitVec 3) (b a d : BitVec 6) :
    vxLen x = 2 * (encM major x o w k b a d).length := by
  unfold vxLen encM
  split <;> rfl

theorem vxLen_eq_encVldseg (x : VX) (w : BitVec 2) (k : BitVec 3) (d a : Reg) (nf : BitVec 3) (perm : Option Reg) :
    vxLen x = 2 * (encVldseg x w k d a nf perm).length := by
  unfold vxLen encVldseg
  split <;> rfl

/-- A row of the table is committed by `post`, with the instruction's own length. -/
theorem exec_vop {i : Instr} {op : VOp} (h : vop i = some op) (s : State) : exec i s = post i op i.size s := by
  suffices hlen : ∃ len, exec i s = post i op len s ∧ len = i.size by
    obtain ⟨len, hexec, rfl⟩ := hlen
    exact hexec
  cases i
  all_goals cases h
  case vld | vlds | vldx | vst | vsts | vstx | vstseg | vamoAdd | vamoMin | vamoMax | vamoSwap | vgscr =>
    exact ⟨_, rfl, vxLen_eq_encM ..⟩
  case vldseg => exact ⟨_, rfl, vxLen_eq_encVldseg ..⟩
  case vepop ext w d b => exact ⟨_, rfl, vxLen_eq_encM 0x3A { ext := ext, m := 0 } ..⟩
  case vmvsv ext d a b => exact ⟨_, rfl, vxLen_eq_encV 0x27 0x06 { ext := ext, m := 0 } ..⟩
  case tcfg | tzero | tmma | tmmaV | tmmas | tld | tst | trow | tcol | tchk | tcon | tsave | trest | tstat =>
    exact ⟨_, rfl, rfl⟩
  case oqinit | oqacc | oqhh | oqapl | oqapr | oqapv | oqform | oqsave | oqrest | oqcnt | oqrd => exact ⟨_, rfl, rfl⟩
  all_goals exact ⟨_, rfl, vxLen_eq_encV ..⟩

/-! ### What is posted (R98, R99, R129, R323) -/

/-- The model's own posting is the entry, the slot and the shape of the statement. -/
theorem post_eq_posted (t : Strand) (i : Instr) (op : VOp) : t.post i op = (shaped (posted t i op) i).advanceAll := by
  have hshape : ∀ u : Strand, u.recordShape i = shaped u i := by
    intro u
    have h1 : ∀ x : Nat, x / 2 ^ 0 = x := fun x => Nat.div_one x
    cases i
    case tcfg acc =>
      simp only [Strand.recordShape, shaped, fld, h1]
      rfl
    all_goals rfl
  unfold Strand.post
  rw [hshape]
  rfl

theorem not_queueFull_iff {s : State} {i : Instr} : s.cur.queueFull i = false ↔ hasRoom s i := by
  have hviq : decide (viqSize ≤ s.cur.viq.length) = false ↔ s.cur.viq.length < 32 := decide_eq_false_iff_not.trans Nat.not_le
  have hrq : decide (rqSize ≤ s.cur.rq.length) = false ↔ s.cur.rq.length < 8 := decide_eq_false_iff_not.trans Nat.not_le
  rw [Strand.queueFull, Bool.or_eq_false_iff, Bool.and_eq_false_imp, hviq, hrq, Option.isSome_iff_ne_none]

section

variable {i : Instr} {op : VOp} {s : State}

theorem exec_vop_posts (h : vop i = some op) (hl : op.legal s.cur = true) (hf : Free s [op.ga, op.gb, op.gd])
    (hroom : hasRoom s i) (hc : commitStop s i = none) :
    exec i s = .next (moved { s with cur := (shaped (posted s.cur i op) i).advanceAll } i.size) := by
  rw [exec_vop h, post_goes hl (any_pendingG_of_free hf) (not_queueFull_iff.mpr hroom) hc, State.modCur, post_eq_posted]
  rfl

theorem exec_vop_illegal (h : vop i = some op) (hl : op.legal s.cur = false) : exec i s = s.illegal := by
  rw [exec_vop h, post_illegal hl]

theorem exec_vop_pending (h : vop i = some op) (hl : op.legal s.cur = true) (hf : ¬ Free s [op.ga, op.gb, op.gd]) :
    exec i s = .next (waits s) := by
  rw [exec_vop h, post, checked_ok hl, withRegs_not_free hf]

theorem exec_vop_full (h : vop i = some op) (hl : op.legal s.cur = true) (hroom : ¬ hasRoom s i) :
    exec i s = .next (waits s) := by
  have hfull : s.cur.queueFull i = true := by
    rw [← Bool.not_eq_false]
    exact mt not_queueFull_iff.mp hroom
  by_cases hf : Free s [op.ga, op.gb, op.gd]
  · rw [exec_vop h, post_full hl (any_pendingG_of_free hf) hfull]
    rfl
  · exact exec_vop_pending h hl hf

theorem exec_vop_stopped (h : vop i = some op) (hl : op.legal s.cur = true) (hf : Free s [op.ga, op.gb, op.gd])
    (hroom : hasRoom s i) {x : Stop} (hc : commitStop s i = some x) : exec i s = s.stopped x := by
  rw [exec_vop h, post, checked_ok hl, withRegs_free (any_pendingG_of_free hf),
    if_neg (by rw [not_queueFull_iff.mpr hroom]; decide), hc]

end

/-- Settles O22: every row is committed by `post`, whose checks come one after another. -/
theorem vectorCommits : Obligations.VectorCommits := by
  unfold Obligations.VectorCommits
  exact ⟨fun _ _ _ => exec_vop_posts, fun _ _ _ h => ⟨exec_vop_illegal h, exec_vop_pending h, exec_vop_full h,
    fun _ _ hl hf hroom hc => exec_vop_stopped h hl hf hroom hc⟩⟩

end Sys2Proof.Machine

/-! ## O60: what a commit changes -/

namespace Sys2Proof.Machine

open Sys2Proof.Claims Sys2Proof.Tests

/-- `ready` with VL = 0 and row 0 of v1 lost, whose producer has left the operand buffers. -/
def lostSource : State := ready.modCur (fun t => { t with badRows := [(1, 0)], ctl := { t.ctl with vl := 0 } })

/-- `vmvsv` of that row: it reads element 0 at its commit, whatever VL is. -/
noncomputable def readsLost : Instr := .vmvsv false 8 1 3

theorem readsLost_commits :
    (opVmvsv false 8 1 3).legal lostSource.cur = true ∧ hasRoom lostSource readsLost ∧ commitStop lostSource readsLost = none := by
  decide +kernel

theorem readsLost_registers_free :
    Free lostSource [(opVmvsv false 8 1 3).ga, (opVmvsv false 8 1 3).gb, (opVmvsv false 8 1 3).gd] := by
  decide +kernel

/-- The new entry at the head of the empty queue takes MCHECK in the commit itself, and CHKCNT counts it. -/
theorem readsLost_counts :
    (shaped (posted lostSource.cur readsLost (opVmvsv false 8 1 3)) readsLost).advanceAll.ctl.chkcnt = 1 := by
  decide +kernel

/-- Refutes O60: with VL = 0 a `vmvsv` into an empty queue reads its element as it is posted, and a lost row that cannot be
written again is counted in CHKCNT (R115, R133), a control register that the frame keeps. -/
theorem not_vectorCommitFrame : ¬ Obligations.VectorCommitFrame := by
  unfold Obligations.VectorCommitFrame
  intro h
  obtain ⟨hl, hroom, hc⟩ := readsLost_commits
  obtain ⟨hframe, _⟩ := h readsLost (opVmvsv false 8 1 3) lostSource _ rfl hl readsLost_registers_free hroom hc
    (exec_vop_posts rfl hl readsLost_registers_free hroom hc)
  have hcount := congrArg (fun t : State => t.cur.ctl.chkcnt) hframe
  exact absurd (readsLost_counts.symm.trans hcount) (by decide)

end Sys2Proof.Machine

/-! ## O25: vector compares (R280, R265) -/

namespace Sys2Proof.Machine

open Sys2Proof.Claims

/-! ### Operands of a vector instruction -/

/-- p0 reads all ones (R122). -/
theorem getP_getLsbD (t : Strand) (m : PReg) (k : Nat) : (t.getP m.toNat).getLsbD k = true ↔
    (m = 0 ∧ k < 32768) ∨ (m ≠ 0 ∧ (t.p.getD m.toNat 0).getLsbD k = true) := by
  by_cases h : m = 0
  · have h0 : t.getP m.toNat = BitVec.allOnes 32768 := by rw [h]; rfl
    rw [h0, BitVec.getLsbD_allOnes, decide_eq_true_eq]
    exact ⟨fun hk => .inl ⟨h, hk⟩, fun hk => hk.elim And.right (fun x => absurd h x.1)⟩
  · have h0 : t.getP m.toNat = t.p.getD m.toNat 0 := if_neg (fun hm => h (BitVec.eq_of_toNat_eq hm))
    rw [h0]
    exact ⟨fun hk => .inr ⟨h, hk⟩, fun hk => hk.elim (fun x => absurd x.1 h) And.right⟩

theorem active_iff_acting {e : VEnv} {m : PReg} {k : Nat} : e.active m.toNat k = true ↔ acting e m k := by
  rw [VEnv.active, Bool.and_eq_true, Bool.and_eq_true, decide_eq_true_eq, getP_getLsbD, bne_iff_ne, and_assoc]
  rfl

/-- SEW is a number of whole bytes. -/
theorem sew_bytes (e : VEnv) : 8 * (e.sew / 8) = e.sew := by
  rw [VEnv.sew, vtSew, Nat.mul_div_cancel_left _ (by decide)]

theorem sew_pos (e : VEnv) : 0 < e.sew := Nat.mul_pos (by decide) (Nat.two_pow_pos _)

theorem getBytes_lt (v : BitVec 32768) (i n : Nat) : getBytes v i n < 2 ^ (8 * n) := BitVec.isLt _

theorem get_sew_lt (e : VEnv) (r : Reg) (k : Nat) : e.get r e.sew k < 2 ^ e.sew := by
  have h : e.get r e.sew k < 2 ^ (8 * (e.sew / 8)) := getBytes_lt _ _ _
  rwa [sew_bytes] at h

theorem source_lt (e : VEnv) (scalar : Bool) (r : Reg) (k : Nat) : source e scalar r k < 2 ^ e.sew := by
  cases scalar with
  | true => exact Nat.mod_lt _ (Nat.two_pow_pos _)
  | false => exact get_sew_lt e r k

theorem fmt_of_vtFp {e : VEnv} {f : Fmt} (h : vtFp e.c.vtype = some f) : e.fmt = f := by
  rw [VEnv.fmt, h, Option.getD_some]

/-! ### The model's comparisons of numbers are those of bit vectors -/

theorem toInt_ofNat_eq_toSigned {w x : Nat} (hw : 0 < w) (hx : x < 2 ^ w) : (BitVec.ofNat w x).toInt = toSigned w x := by
  have h2 : 2 ^ w = 2 * 2 ^ (w - 1) := by rw [← Nat.pow_succ', Nat.succ_eq_add_one, Nat.sub_add_cancel hw]
  have hc : ((2 ^ w : Nat) : Int) = (2 : Int) ^ w := by push_cast; rfl
  rw [BitVec.toInt_eq_toNat_cond, BitVec.toNat_ofNat, Nat.mod_eq_of_lt hx, toSigned, if_neg hw.ne', Nat.mod_eq_of_lt hx, hc]
  exact if_congr (by omega) rfl rfl

section

variable {w x y : Nat} (hw : 0 < w) (hx : x < 2 ^ w) (hy : y < 2 ^ w)
include hx hy

theorem ofNat_beq_ofNat : (BitVec.ofNat w x == BitVec.ofNat w y) = (x == y) := by
  rw [Bool.eq_iff_iff, beq_iff_eq, beq_iff_eq, BitVec.toNat_eq, BitVec.toNat_ofNat, BitVec.toNat_ofNat,
    Nat.mod_eq_of_lt hx, Nat.mod_eq_of_lt hy]

theorem ofNat_ult_ofNat : (BitVec.ofNat w x).ult (BitVec.ofNat w y) = decide (x < y) := by
  rw [BitVec.ult, BitVec.toNat_ofNat, BitVec.toNat_ofNat, Nat.mod_eq_of_lt hx, Nat.mod_eq_of_lt hy]

theorem ofNat_ule_ofNat : (BitVec.ofNat w x).ule (BitVec.ofNat w y) = decide (x ≤ y) := by
  rw [BitVec.ule, BitVec.toNat_ofNat, BitVec.toNat_ofNat, Nat.mod_eq_of_lt hx, Nat.mod_eq_of_lt hy]

include hw

theorem ofNat_slt_ofNat : (BitVec.ofNat w x).slt (BitVec.ofNat w y) = decide (toSigned w x < toSigned w y) := by
  rw [BitVec.slt, toInt_ofNat_eq_toSigned hw hx, toInt_ofNat_eq_toSigned hw hy]

theorem ofNat_sle_ofNat : (BitVec.ofNat w x).sle (BitVec.ofNat w y) = decide (toSigned w x ≤ toSigned w y) := by
  rw [BitVec.sle, toInt_ofNat_eq_toSigned hw hx, toInt_ofNat_eq_toSigned hw hy]

end

/-! ### The rows -/

/-- What an active element of a compare does: one predicate bit, and the flags of its condition. -/
def compareElem (d : PReg) (a b : Reg) (scalar : Bool) (f : VEnv → Nat → Nat → Bool × BitVec 5) (e : VEnv) (k : Nat) : ERes :=
  let x := f e (source e false a k) (source e scalar b k)
  { writes := [.p d.toNat k x.1], fl := x.2, gs := 0 }

/-- An operation that compares element by element with condition `f`. -/
def IsCompare (op : VOp) (m d : PReg) (a b : Reg) (scalar : Bool) (f : VEnv → Nat → Nat → Bool × BitVec 5) : Prop :=
  op.run = .elem (compareElem d a b scalar f) (fun _ => 0) ∧ op.gb = (if scalar then b else 0) ∧
  ∀ (e : VEnv) (k : Nat), op.acts e k = true ↔ acting e m k

section

variable (m d : PReg) (a b : Reg) (extra : Word → Bool) (f : VEnv → Nat → Nat → Bool × BitVec 5)

theorem putBit_withFlags (e : VEnv) (k : Nat) (x : Bool) (fl : BitVec 5) :
    (e.putBit d k x).withFlags fl 0 = { writes := [.p d.toNat k x], fl := fl, gs := 0 } := by
  simp [VEnv.putBit, ERes.withFlags]

theorem isCompare_cvvOp : IsCompare (cvvOp m extra d a b f) m d a b false f :=
  ⟨congrArg (VRun.elem · (fun _ => 0)) (funext₂ fun e k => putBit_withFlags d e k _ _), rfl, fun _ _ => active_iff_acting⟩

theorem isCompare_cvsOp : IsCompare (cvsOp m extra d a b f) m d a b true f :=
  ⟨congrArg (VRun.elem · (fun _ => 0)) (funext₂ fun e k => putBit_withFlags d e k _ _), rfl, fun _ _ => active_iff_acting⟩

end

/-- A condition on numbers is one on the bit vectors that they are. -/
def Agrees (f : Nat → Nat → Nat → Bool) (c : (w : Nat) → BitVec w → BitVec w → Bool) : Prop :=
  ∀ w x y : Nat, 0 < w → x < 2 ^ w → y < 2 ^ w → f w x y = c w (BitVec.ofNat w x) (BitVec.ofNat w y)

theorem agrees_eq : Agrees (fun _ x y => x == y) (fun _ x y => x == y) :=
  fun _ _ _ _ hx hy => (ofNat_beq_ofNat hx hy).symm
theorem agrees_ne : Agrees (fun _ x y => x != y) (fun _ x y => x != y) :=
  fun _ _ _ _ hx hy => congrArg (!·) (ofNat_beq_ofNat hx hy).symm
theorem agrees_slt : Agrees (fun w x y => decide (toSigned w x < toSigned w y)) (fun _ x y => x.slt y) :=
  fun _ _ _ hw hx hy => (ofNat_slt_ofNat hw hx hy).symm
theorem agrees_sle : Agrees (fun w x y => decide (toSigned w x ≤ toSigned w y)) (fun _ x y => x.sle y) :=
  fun _ _ _ hw hx hy => (ofNat_sle_ofNat hw hx hy).symm
theorem agrees_ult : Agrees (fun _ x y => decide (x < y)) (fun _ x y => x.ult y) :=
  fun _ _ _ _ hx hy => (ofNat_ult_ofNat hx hy).symm
theorem agrees_ule : Agrees (fun _ x y => decide (x ≤ y)) (fun _ x y => x.ule y) :=
  fun _ _ _ _ hx hy => (ofNat_ule_ofNat hx hy).symm

theorem vop_vectorCompareRow {i : Instr} {m d : PReg} {a b : Reg} {scalar : Bool} {c : (w : Nat) → BitVec w → BitVec w → Bool}
    (h : vectorCompareRow i = some (m, d, a, scalar, b, c)) :
    ∃ op f, vop i = some op ∧ IsCompare op m d a b scalar (icFn f) ∧ Agrees f c := by
  cases i
  all_goals cases h
  case veq => exact ⟨_, _, rfl, isCompare_cvvOp .., agrees_eq⟩
  case vne => exact ⟨_, _, rfl, isCompare_cvvOp .., agrees_ne⟩
  case vlt => exact ⟨_, _, rfl, isCompare_cvvOp .., agrees_slt⟩
  case vle => exact ⟨_, _, rfl, isCompare_cvvOp .., agrees_sle⟩
  case vltu => exact ⟨_, _, rfl, isCompare_cvvOp .., agrees_ult⟩
  case vleu => exact ⟨_, _, rfl, isCompare_cvvOp .., agrees_ule⟩
  case veqScalar => exact ⟨_, _, rfl, isCompare_cvsOp .., agrees_eq⟩
  case vneScalar => exact ⟨_, _, rfl, isCompare_cvsOp .., agrees_ne⟩
  case vltScalar => exact ⟨_, _, rfl, isCompare_cvsOp .., agrees_slt⟩
  case vleScalar => exact ⟨_, _, rfl, isCompare_cvsOp .., agrees_sle⟩
  case vltuScalar => exact ⟨_, _, rfl, isCompare_cvsOp .., agrees_ult⟩
  case vleuScalar => exact ⟨_, _, rfl, isCompare_cvsOp .., agrees_ule⟩

theorem vop_vectorFpCompareRow {i : Instr} {m d : PReg} {a b : Reg} {scalar : Bool} {c : Cmp}
    (h : vectorFpCompareRow i = some (m, d, a, scalar, b, c)) :
    ∃ op, vop i = some op ∧ IsCompare op m d a b scalar (fcFn c) := by
  cases i
  all_goals cases h
  case vfeq | vflt | vfle | vfunord => exact ⟨_, rfl, isCompare_cvvOp ..⟩
  case vfeqScalar | vfltScalar | vfleScalar | vfunordScalar => exact ⟨_, rfl, isCompare_cvsOp ..⟩

theorem compareElem_icFn {f : Nat → Nat → Nat → Bool} {c : (w : Nat) → BitVec w → BitVec w → Bool} (h : Agrees f c) (d : PReg)
    (a b : Reg) (scalar : Bool) (e : VEnv) (k : Nat) : compareElem d a b scalar (icFn f) e k =
      { writes := [.p d.toNat k (c e.sew (BitVec.ofNat e.sew (source e false a k)) (BitVec.ofNat e.sew (source e scalar b k)))]
        fl := 0, gs := 0 } := by
  rw [← h e.sew _ _ (sew_pos e) (source_lt e false a k) (source_lt e scalar b k)]
  rfl

theorem compareElem_fcFn {e : VEnv} {fmt : Fmt} (h : vtFp e.c.vtype = some fmt) (c : Cmp) (d : PReg) (a b : Reg) (scalar : Bool)
    (k : Nat) : compareElem d a b scalar (fcFn c) e k =
      { writes := [.p d.toNat k (fpCompare c (fmt.decode (source e false a k)) (fmt.decode (source e scalar b k))).1]
        fl := (fpCompare c (fmt.decode (source e false a k)) (fmt.decode (source e scalar b k))).2, gs := 0 } := by
  rw [← fmt_of_vtFp h]
  rfl

/-- Settles O25: a row is `cvvOp` or `cvsOp` with its condition, and elements of SEW bits compare as the bit vectors they are. -/
theorem vectorCompareElements : Obligations.VectorCompareElements := by
  unfold Obligations.VectorCompareElements
  constructor
  · intro i m d a b scalar c h
    obtain ⟨op, f, hop, ⟨hrun, hgb, hacts⟩, hf⟩ := vop_vectorCompareRow h
    exact ⟨op, _, _, hop, hrun, hgb, fun e k => ⟨hacts e k, rfl, compareElem_icFn hf d a b scalar e k⟩⟩
  · intro i m d a b scalar c h
    obtain ⟨op, hop, hrun, hgb, hacts⟩ := vop_vectorFpCompareRow h
    exact ⟨op, _, _, hop, hrun, hgb, fun e k fmt hfmt => ⟨hacts e k, rfl, compareElem_fcFn hfmt c d a b scalar k⟩⟩

end Sys2Proof.Machine

/-! ## O27: reductions (R111, R150, R285, R286) -/

namespace Sys2Proof.Machine

open Sys2Proof.Claims

theorem activeList_eq_actives (e : VEnv) (m : PReg) (n : Nat) : e.activeList m.toNat n = actives e m n :=
  List.filter_congr fun i _ => by rw [Bool.eq_iff_iff, active_iff_acting, decide_eq_true_eq]

/-! ### The model's list of partials is the tree of R111 -/

section

variable (op : Nat → Nat → Nat → Nat × BitVec 5) (get : Nat → Nat) (is : List Nat)

/-- A node's value, lowest element and flags as the model's record. -/
def asPartial (p : Nat × Nat × BitVec 5) : Partial := { val := p.1, low := p.2.1, fl := p.2.2 }

/-- A node of the tree as the model's record. -/
noncomputable def treePartial (n j : Nat) : Option Partial := (treeNode op get is n j).map asPartial

theorem partialOf_some (r : List Nat) (p : Nat × Nat × BitVec 5) : partialOf op get r (some (asPartial p)) =
    some (asPartial (r.foldl (fun p k => ((op k p.1 (get k)).1, p.2.1, p.2.2 ||| (op k p.1 (get k)).2)) p)) := by
  induction r generalizing p with
  | nil => rfl
  | cons i r ih => exact ih ((op i p.1 (get i)).1, p.2.1, p.2.2 ||| (op i p.1 (get i)).2)

theorem partialOf_leaf (j : Nat) : partialOf op get (is.filter (fun i => i % 16 == j)) none = treePartial op get is 0 j := by
  have hf : is.filter (fun i => i % 16 == j) = is.filter (fun i => decide (i % 16 = j)) := rfl
  rw [hf, treePartial, treeNode]
  cases is.filter (fun i => decide (i % 16 = j)) with
  | nil => rfl
  | cons i r => exact partialOf_some op get r (get i, i, 0)

theorem joinPartial_nodes (n j : Nat) :
    joinPartial op (treePartial op get is n (2 * j)) (treePartial op get is n (2 * j + 1)) = treePartial op get is (n + 1) j := by
  simp only [treePartial, treeNode]
  cases treeNode op get is n (2 * j) with
  | none => cases treeNode op get is n (2 * j + 1) <;> rfl
  | some a => cases treeNode op get is n (2 * j + 1) <;> rfl

theorem treeLevel_range (k : Nat) (g : Nat → Option Partial) : treeLevel op ((List.range (2 * k)).map g) =
    (List.range k).map (fun j => joinPartial op (g (2 * j)) (g (2 * j + 1))) := by
  induction k generalizing g with
  | zero => rfl
  | succ k ih =>
    have h2 : 2 * (k + 1) = 2 * k + 1 + 1 := by omega
    rw [h2, List.range_succ_eq_map, List.range_succ_eq_map, List.range_succ_eq_map]
    simp only [List.map_cons, List.map_map, treeLevel]
    exact congrArg (List.cons _) (ih (fun j => g (j + 1 + 1)))

theorem treeLevel_nodes (k n : Nat) : treeLevel op ((List.range (2 * k)).map (treePartial op get is n)) =
    (List.range k).map (treePartial op get is (n + 1)) := by
  rw [treeLevel_range]
  exact List.map_congr_left fun j _ => joinPartial_nodes op get is n j

theorem reduceList_eq_tree : reduceList op get is = treePartial op get is 4 0 := by
  have hleaf : (List.range 16).map (fun j => partialOf op get (is.filter (fun i => i % 16 == j)) none) =
      (List.range (2 * 8)).map (treePartial op get is 0) := List.map_congr_left fun j _ => partialOf_leaf op get is j
  rw [reduceList, hleaf, treeLevel_nodes, show 8 = 2 * 4 from rfl, treeLevel_nodes, show 4 = 2 * 2 from rfl, treeLevel_nodes,
    show 2 = 2 * 1 from rfl, treeLevel_nodes]
  rfl

end

/-! ### A tree of a commutative operation is its fold -/

/-- A commutative and associative operation with its neutral element. -/
structure IsFold {w : Nat} (f : BitVec w → BitVec w → BitVec w) (z : BitVec w) : Prop where
  comm : ∀ x y, f x y = f y x
  assoc : ∀ x y u, f (f x y) u = f x (f y u)
  unit : ∀ x, f x z = x

section

variable {w : Nat} {f : BitVec w → BitVec w → BitVec w} {z : BitVec w} (hf : IsFold f z) (val : Nat → BitVec w)

/-- The fold of some elements. -/
def foldOf (f : BitVec w → BitVec w → BitVec w) (z : BitVec w) (val : Nat → BitVec w) (l : List Nat) : BitVec w :=
  (l.map val).foldr f z

theorem foldOf_cons (f : BitVec w → BitVec w → BitVec w) (z : BitVec w) (i : Nat) (l : List Nat) :
    foldOf f z val (i :: l) = f (val i) (foldOf f z val l) := rfl

include hf

/-- Elements of two kinds fold as the folds of each kind. -/
theorem foldOf_filter_or {p q r : Nat → Bool} (h : ∀ i, r i = (p i || q i)) (hd : ∀ i, (p i && q i) = false) (l : List Nat) :
    foldOf f z val (l.filter r) = f (foldOf f z val (l.filter p)) (foldOf f z val (l.filter q)) := by
  induction l with
  | nil => exact (hf.unit z).symm
  | cons i l ih =>
    have hi := hd i
    rw [List.filter_cons, List.filter_cons, List.filter_cons, h]
    cases hp : p i with
    | true =>
      have hq : q i = false := by simpa [hp] using hi
      simp only [hq, Bool.or_false, if_true, Bool.false_eq_true, if_false, foldOf_cons, ih, hf.assoc]
    | false =>
      cases hq : q i with
      | true =>
        simp only [Bool.or_true, if_true, Bool.false_eq_true, if_false, foldOf_cons, ih]
        rw [← hf.assoc, ← hf.assoc, hf.comm (val i)]
      | false => exact ih

omit hf in
theorem no_flags : (0 : BitVec 5) ||| 0 = 0 := by decide

/-- A partial that starts at `a` takes the fold of its further elements. -/
theorem foldl_eq_foldOf {g : Nat → Nat → Nat} {get : Nat → Nat} (hg : ∀ x y : BitVec w, g x.toNat y.toNat = (f x y).toNat)
    (hget : ∀ k, get k = (val k).toNat) (r : List Nat) (a : BitVec w) (i : Nat) :
    r.foldl (fun (p : Nat × Nat × BitVec 5) k => (g p.1 (get k), p.2.1, p.2.2 ||| 0)) (a.toNat, i, 0) =
      ((f a (foldOf f z val r)).toNat, i, 0) := by
  induction r generalizing a with
  | nil => rw [List.foldl_nil, foldOf, List.map_nil, List.foldr_nil, hf.unit]
  | cons k r ih =>
    rw [List.foldl_cons, hget, hg, foldOf_cons, ← hf.assoc]
    exact (congrArg (fun fl => List.foldl _ (_, _, fl) r) no_flags).trans (ih (f a (val k)))

/-- The elements under node j of level n. -/
def under (is : List Nat) (n j : Nat) : List Nat := is.filter (fun i => decide (i % 16 / 2 ^ n = j))

theorem foldOf_under_succ (is : List Nat) (n j : Nat) : foldOf f z val (under is (n + 1) j) =
    f (foldOf f z val (under is n (2 * j))) (foldOf f z val (under is n (2 * j + 1))) := by
  have hdiv : ∀ i, i % 16 / 2 ^ (n + 1) = i % 16 / 2 ^ n / 2 := fun i => by rw [Nat.pow_succ, Nat.div_div_eq_div_mul]
  refine foldOf_filter_or hf val (fun i => ?_) (fun i => ?_) is
  · rw [hdiv, Bool.eq_iff_iff, Bool.or_eq_true, decide_eq_true_eq, decide_eq_true_eq, decide_eq_true_eq]
    omega
  · rw [Bool.and_eq_false_imp, decide_eq_true_eq, decide_eq_false_iff_not]
    omega

/-- A node without flags: absent where it has no element, else the fold of its elements. -/
theorem treeNode_eq_fold {g : Nat → Nat → Nat} {get : Nat → Nat} (hg : ∀ x y : BitVec w, g x.toNat y.toNat = (f x y).toNat)
    (hget : ∀ k, get k = (val k).toNat) (is : List Nat) (n j : Nat) :
    (treeNode (fun _ x y => (g x y, 0)) get is n j = none ∧ foldOf f z val (under is n j) = z) ∨
    ∃ low, treeNode (fun _ x y => (g x y, 0)) get is n j = some ((foldOf f z val (under is n j)).toNat, low, 0) := by
  induction n generalizing j with
  | zero =>
    have hu : under is 0 j = is.filter (fun i => decide (i % 16 = j)) := by simp only [under, Nat.pow_zero, Nat.div_one]
    rw [hu, treeNode]
    cases is.filter (fun i => decide (i % 16 = j)) with
    | nil => exact .inl ⟨rfl, rfl⟩
    | cons i r =>
      refine .inr ⟨i, ?_⟩
      simp only [hget i]
      rw [foldl_eq_foldOf hf val hg hget]
      rfl
  | succ n ih =>
    rw [foldOf_under_succ hf, treeNode]
    obtain ⟨ha, hla⟩ | ⟨la, ha⟩ := ih (2 * j) <;> obtain ⟨hb, hlb⟩ | ⟨lb, hb⟩ := ih (2 * j + 1)
    · exact .inl ⟨by rw [ha, hb], by rw [hla, hlb, hf.unit]⟩
    · exact .inr ⟨lb, by rw [ha, hb, hla, hf.comm, hf.unit]⟩
    · exact .inr ⟨la, by rw [ha, hb, hlb, hf.unit]⟩
    · exact .inr ⟨min la lb, by rw [ha, hb, ← hg]; simp only [no_flags]⟩

end


/-! ### The operations of the integer rows -/

section

variable {w : Nat}

variable {K : Type} [LinearOrder K] {key : BitVec w → K} {z : BitVec w}

/-- The operand with the smaller key, and the one with the greater. -/
def lesser (key : BitVec w → K) (x y : BitVec w) : BitVec w := if key x ≤ key y then x else y
def greater (key : BitVec w → K) (x y : BitVec w) : BitVec w := if key x ≤ key y then y else x

theorem key_lesser (key : BitVec w → K) (x y : BitVec w) : key (lesser key x y) = min (key x) (key y) := by
  rw [lesser, apply_ite key, min_def]

theorem key_greater (key : BitVec w → K) (x y : BitVec w) : key (greater key x y) = max (key x) (key y) := by
  rw [greater, apply_ite key, max_def]

theorem isFold_lesser (hkey : Function.Injective key) (hz : ∀ x, key x ≤ key z) : IsFold (lesser key) z where
  comm x y := hkey (by simp only [key_lesser, min_comm])
  assoc x y u := hkey (by simp only [key_lesser, min_assoc])
  unit x := if_pos (hz x)

theorem isFold_greater (hkey : Function.Injective key) (hz : ∀ x, key z ≤ key x) : IsFold (greater key) z where
  comm x y := hkey (by simp only [key_greater, max_comm])
  assoc x y u := hkey (by simp only [key_greater, max_assoc])
  unit x := hkey (by simp only [key_greater, max_eq_left (hz x)])

end

theorem intMax_toInt {w : Nat} (hw : 0 < w) (x : BitVec w) : x.toInt ≤ (BitVec.ofNat w (2 ^ (w - 1) - 1)).toInt := by
  have h2 : 2 ^ w = 2 * 2 ^ (w - 1) := by rw [← Nat.pow_succ', Nat.succ_eq_add_one, Nat.sub_add_cancel hw]
  have hpos := Nat.two_pow_pos (w - 1)
  have hx := x.isLt
  rw [BitVec.toInt_eq_toNat_cond, BitVec.toInt_eq_toNat_cond, BitVec.toNat_ofNat, Nat.mod_eq_of_lt (by omega)]
  split_ifs <;> omega

theorem intMin_toInt {w : Nat} (hw : 0 < w) (x : BitVec w) : (BitVec.ofNat w (2 ^ (w - 1))).toInt ≤ x.toInt := by
  have h2 : 2 ^ w = 2 * 2 ^ (w - 1) := by rw [← Nat.pow_succ', Nat.succ_eq_add_one, Nat.sub_add_cancel hw]
  have hpos := Nat.two_pow_pos (w - 1)
  have hx := x.isLt
  rw [BitVec.toInt_eq_toNat_cond, BitVec.toInt_eq_toNat_cond, BitVec.toNat_ofNat, Nat.mod_eq_of_lt (by omega)]
  split_ifs <;> omega

theorem toSigned_toNat {w : Nat} (hw : 0 < w) (x : BitVec w) : toSigned w x.toNat = x.toInt := by
  rw [← toInt_ofNat_eq_toSigned hw x.isLt, BitVec.ofNat_toNat, BitVec.setWidth_eq]

/-- A row's operation on numbers is a fold's on the bit vectors that they are, with the fold's neutral element for none. -/
structure IsIntegerRow (g : Nat → Nat → Nat → Nat) (none : Nat → Nat) (f : (w : Nat) → BitVec w → BitVec w → BitVec w)
    (z : (w : Nat) → BitVec w) : Prop where
  fold : ∀ w, 0 < w → IsFold (f w) (z w)
  op : ∀ w, 0 < w → ∀ x y : BitVec w, g w x.toNat y.toNat = (f w x y).toNat
  empty : ∀ w, 0 < w → none w = (z w).toNat

theorem isIntegerRow_sum : IsIntegerRow (fun w p q => (p + q) % 2 ^ w) (fun _ => 0) (fun _ x y => x + y) (fun _ => 0) where
  fold _ _ := ⟨BitVec.add_comm, BitVec.add_assoc, fun x => BitVec.add_zero x⟩
  op _ _ x y := (BitVec.toNat_add x y).symm
  empty _ _ := rfl

theorem isIntegerRow_smin : IsIntegerRow sminN (fun w => 2 ^ (w - 1) - 1) (fun _ x y => if x.toInt ≤ y.toInt then x else y)
    (fun w => BitVec.ofNat w (2 ^ (w - 1) - 1)) where
  fold w hw := isFold_lesser (fun _ _ => BitVec.eq_of_toInt_eq) (intMax_toInt hw)
  op w hw x y := by
    rw [sminN, toSigned_toNat hw, toSigned_toNat hw, BitVec.toNat_mod_cancel, BitVec.toNat_mod_cancel, apply_ite BitVec.toNat]
  empty w hw := by
    have h : 2 ^ (w - 1) < 2 ^ w := Nat.pow_lt_pow_right (by decide) (Nat.sub_lt hw Nat.one_pos)
    exact (Nat.mod_eq_of_lt ((Nat.sub_le _ _).trans_lt h)).symm

theorem isIntegerRow_smax : IsIntegerRow smaxN (fun w => 2 ^ (w - 1)) (fun _ x y => if x.toInt ≤ y.toInt then y else x)
    (fun w => BitVec.ofNat w (2 ^ (w - 1))) where
  fold w hw := isFold_greater (fun _ _ => BitVec.eq_of_toInt_eq) (intMin_toInt hw)
  op w hw x y := by
    rw [smaxN, toSigned_toNat hw, toSigned_toNat hw, BitVec.toNat_mod_cancel, BitVec.toNat_mod_cancel, apply_ite BitVec.toNat]
  empty w hw := (Nat.mod_eq_of_lt (Nat.pow_lt_pow_right (by decide) (Nat.sub_lt hw Nat.one_pos))).symm

theorem isIntegerRow_umin : IsIntegerRow uminN (fun w => 2 ^ w - 1) (fun _ x y => if x.toNat ≤ y.toNat then x else y)
    (fun w => BitVec.allOnes w) where
  fold w _ := isFold_lesser (fun _ _ => BitVec.eq_of_toNat_eq) (fun x => by
    rw [BitVec.toNat_allOnes]
    exact Nat.le_sub_one_of_lt x.isLt)
  op w _ x y := by rw [uminN, BitVec.toNat_mod_cancel, BitVec.toNat_mod_cancel]; exact (key_lesser BitVec.toNat x y).symm
  empty _ _ := BitVec.toNat_allOnes.symm

theorem isIntegerRow_umax : IsIntegerRow umaxN (fun _ => 0) (fun _ x y => if x.toNat ≤ y.toNat then y else x) (fun _ => 0) where
  fold w _ := isFold_greater (fun _ _ => BitVec.eq_of_toNat_eq) (fun x => Nat.zero_le _)
  op w _ x y := by rw [umaxN, BitVec.toNat_mod_cancel, BitVec.toNat_mod_cancel]; exact (key_greater BitVec.toNat x y).symm
  empty _ _ := rfl

theorem isIntegerRow_and : IsIntegerRow (fun _ p q => p &&& q) (fun w => 2 ^ w - 1) (fun _ x y => x &&& y) (fun w => BitVec.allOnes w) where
  fold _ _ := ⟨BitVec.and_comm, BitVec.and_assoc, fun _ => BitVec.and_allOnes⟩
  op _ _ x y := (BitVec.toNat_and x y).symm
  empty _ _ := BitVec.toNat_allOnes.symm

theorem isIntegerRow_or : IsIntegerRow (fun _ p q => p ||| q) (fun _ => 0) (fun _ x y => x ||| y) (fun _ => 0) where
  fold _ _ := ⟨BitVec.or_comm, BitVec.or_assoc, fun _ => BitVec.or_zero⟩
  op _ _ x y := (BitVec.toNat_or x y).symm
  empty _ _ := rfl

theorem isIntegerRow_xor : IsIntegerRow (fun _ p q => p ^^^ q) (fun _ => 0) (fun _ x y => x ^^^ y) (fun _ => 0) where
  fold _ _ := ⟨BitVec.xor_comm, BitVec.xor_assoc, fun _ => BitVec.xor_zero⟩
  op _ _ x y := (BitVec.toNat_xor x y).symm
  empty _ _ := rfl

theorem vop_integerReductionRow {i : Instr} {m : PReg} {a : Reg} {signed : Bool} {f : (w : Nat) → BitVec w → BitVec w → BitVec w}
    {z : (w : Nat) → BitVec w} (h : integerReductionRow i = some (m, a, signed, f, z)) :
    ∃ g none, vop i = some (iredOp m a signed g none) ∧ IsIntegerRow g none f z := by
  cases i
  all_goals cases h
  case vredsum => exact ⟨_, _, rfl, isIntegerRow_sum⟩
  case vredmin => exact ⟨_, _, rfl, isIntegerRow_smin⟩
  case vredmax => exact ⟨_, _, rfl, isIntegerRow_smax⟩
  case vredminu => exact ⟨_, _, rfl, isIntegerRow_umin⟩
  case vredmaxu => exact ⟨_, _, rfl, isIntegerRow_umax⟩
  case vredand => exact ⟨_, _, rfl, isIntegerRow_and⟩
  case vredor => exact ⟨_, _, rfl, isIntegerRow_or⟩
  case vredxor => exact ⟨_, _, rfl, isIntegerRow_xor⟩

/-- The word that an integer reduction delivers of a value. -/
theorem extended (signed : Bool) {w : Nat} (hw : 0 < w) (x : BitVec w) :
    (if signed then sextN w x.toNat else BitVec.ofNat 64 x.toNat) = if signed then x.signExtend 64 else x.setWidth 64 := by
  rw [sextN, toSigned_toNat hw, BitVec.ofNat_toNat]
  rfl

/-- What a reduction delivers: of the tree's value, or of the value with no active element. -/
noncomputable def delivered (m : PReg) (op : VEnv → Nat → Nat → Nat → Nat × BitVec 5) (get : VEnv → Nat → Nat) (empty : VEnv → Nat)
    (fin : VEnv → Nat → Word) (e : VEnv) : Word × ERes :=
  let r := treeNode (op e) (get e) (actives e m e.c.vl.toNat) 4 0
  (fin e (r.elim (empty e) (fun p => p.1)), { writes := [], fl := r.elim 0 (fun p => p.2.2), gs := 0 })

theorem redOp_run (m : PReg) (extra : Word → Bool) (a : Reg) (op : VEnv → Nat → Nat → Nat → Nat × BitVec 5)
    (get : VEnv → Nat → Nat) (empty : VEnv → Nat) (fin : VEnv → Nat → Word) :
    (redOp m extra a op get empty fin).run = .scalar (delivered m op get empty fin) := by
  refine congrArg VRun.scalar (funext fun e => ?_)
  rw [VEnv.vl, activeList_eq_actives, reduceList_eq_tree, treePartial, delivered]
  cases treeNode (op e) (get e) (actives e m e.c.vl.toNat) 4 0 with
  | none => rfl
  | some p => simp [asPartial, ERes.withFlags, ERes.none]

/-- What an integer reduction delivers. -/
theorem delivered_integer {g : Nat → Nat → Nat → Nat} {none : Nat → Nat} {f : (w : Nat) → BitVec w → BitVec w → BitVec w}
    {z : (w : Nat) → BitVec w} (h : IsIntegerRow g none f z) (m : PReg) (a : Reg) (fin : VEnv → Nat → Word) (e : VEnv) :
    delivered m (fun e _ x y => (g e.sew x y, 0)) (fun e i => e.get a e.sew i) (fun e => none e.sew) fin e =
      (fin e (foldOf (f e.sew) (z e.sew) (fun k => BitVec.ofNat e.sew (source e false a k)) (actives e m e.c.vl.toNat)).toNat,
        { writes := [], fl := 0, gs := 0 }) := by
  have hw := sew_pos e
  have hget : ∀ k, e.get a e.sew k = (BitVec.ofNat e.sew (source e false a k)).toNat := fun k =>
    (Nat.mod_eq_of_lt (get_sew_lt e a k)).symm
  have hall : under (actives e m e.c.vl.toNat) 4 0 = actives e m e.c.vl.toNat :=
    List.filter_eq_self.mpr fun i _ => decide_eq_true (by omega)
  have htree := treeNode_eq_fold (h.fold _ hw) (fun k => BitVec.ofNat e.sew (source e false a k)) (h.op _ hw) hget
    (actives e m e.c.vl.toNat) 4 0
  rw [hall] at htree
  rw [delivered]
  obtain ⟨hnone, hz⟩ | ⟨low, hsome⟩ := htree
  · rw [hnone, hz, ← h.empty _ hw]
    rfl
  · rw [hsome]
    rfl

/-! ### The floating-point rows -/

theorem vtFp_eq_some {vt : Word} {f : Fmt} (h : vtFp vt = some f) :
    Fmt.ofCode (vtFmt vt) = some f ∧ vtFmt vt ≤ 3 ∧ f.width = vtSew vt := by
  unfold vtFp at h
  cases hc : Fmt.ofCode (vtFmt vt) with
  | none => rw [hc] at h; cases h
  | some f' =>
    rw [hc] at h
    by_cases hle : vtFmt vt ≤ 3 ∧ f'.width = vtSew vt
    · obtain rfl : f' = f := Option.some.inj ((if_pos hle).symm.trans h)
      exact ⟨rfl, hle⟩
    · exact nomatch (if_neg hle).symm.trans h

/-- The format of VTYPE is one of the first four. -/
theorem vtFp_isIeee {vt : Word} {f : Fmt} (h : vtFp vt = some f) : f = .fp64 ∨ f = .fp32 ∨ f = .fp16 ∨ f = .bf16 := by
  obtain ⟨hc, hle, _⟩ := vtFp_eq_some h
  generalize vtFmt vt = n at hc hle
  interval_cases n <;> cases hc <;> decide

theorem width_eq_sew {e : VEnv} {f : Fmt} (h : vtFp e.c.vtype = some f) : f.width = e.sew := (vtFp_eq_some h).2.2

theorem infBits_pos {vt : Word} {f : Fmt} (h : vtFp vt = some f) : f.infBits false = (2 ^ f.ebits - 1) * 2 ^ f.fbits := by
  obtain rfl | rfl | rfl | rfl := vtFp_isIeee h <;> decide

theorem infBits_neg {vt : Word} {f : Fmt} (h : vtFp vt = some f) :
    f.infBits true = 2 ^ (f.width - 1) + (2 ^ f.ebits - 1) * 2 ^ f.fbits := by
  obtain rfl | rfl | rfl | rfl := vtFp_isIeee h <;> decide

theorem vop_fpReductionRow {i : Instr} {m : PReg} {a : Reg} {e : VEnv} {fmt : Fmt} {f : Rm → Nat → Nat → Nat × BitVec 5}
    {get fin : Nat → Nat} {z : Nat} (hfmt : vtFp e.c.vtype = some fmt) (h : fpReductionRow fmt i = some (m, a, f, get, z, fin)) :
    ∃ op v, vop i = some op ∧ op.run = .scalar v ∧
      v e = delivered m (fun e i => f (e.rm i)) (fun e k => get (source e false a k)) (fun _ => z)
        (fun _ x => BitVec.ofNat 64 (fin x)) e := by
  have hf := fmt_of_vtFp hfmt
  cases i
  case vfredsumW x d a' =>
    rw [fpReductionRow] at h
    by_cases hw : fmt.width = 16
    · rw [if_pos hw] at h
      cases h
      refine ⟨_, _, rfl, redOp_run .., ?_⟩
      have hsew : e.sew = 16 := (width_eq_sew hfmt).symm.trans hw
      have hget : (fun k => wideBits (e.fmt.decode (e.get a 16 k))) = fun k => wideBits (fmt.decode (source e false a k)) := by
        rw [hf]
        exact funext fun k => congrArg (fun w => wideBits (fmt.decode (e.get a w k))) hsew.symm
      simp only [delivered, hget]
      rfl
    · rw [if_neg hw] at h
      cases h
  all_goals cases h
  case vfredsum =>
    refine ⟨_, _, rfl, redOp_run .., ?_⟩
    subst hf
    rfl
  case vfredmin =>
    refine ⟨_, _, rfl, redOp_run .., ?_⟩
    rw [← infBits_pos hfmt]
    subst hf
    rfl
  case vfredmax =>
    refine ⟨_, _, rfl, redOp_run .., ?_⟩
    rw [← infBits_neg hfmt]
    subst hf
    rfl

/-- Settles O27: the sixteen partials and four levels of `reduceList` are the tree of R111, and without flags a tree of a
commutative operation is its fold. -/
theorem reductions : Obligations.Reductions := by
  unfold Obligations.Reductions
  constructor
  · intro i m a signed f z h
    obtain ⟨g, none, hop, hrow⟩ := vop_integerReductionRow h
    exact ⟨_, _, hop, redOp_run .., fun e => (delivered_integer hrow m a _ e).trans
      (congrArg (·, _) (extended signed (sew_pos e) _))⟩
  · intro i m a e fmt f get fin z hfmt h
    obtain ⟨op, v, hop, hrun, hv⟩ := vop_fpReductionRow hfmt h
    exact ⟨op, v, hop, hrun, hv⟩

end Sys2Proof.Machine

/-! ## What the events of the vector side do to the current strand -/

namespace Sys2Proof.Machine

open Sys2Proof.Claims

/-! ### Entries -/

theorem findEntry_seq {seq : BitVec 32} {l : List VEntry} {e : VEntry} (h : findEntry seq l = some e) : e.seq = seq := by
  induction l with
  | nil => cases h
  | cons x l ih =>
    rw [findEntry] at h
    split at h
    next hx => exact Option.some.inj h ▸ hx
    next => exact ih h

theorem entry?_seq {t : Strand} {seq : BitVec 32} {e : VEntry} (h : t.entry? seq = some e) : e.seq = seq := findEntry_seq h

theorem before_lgw (t : Strand) (seq : BitVec 32) : (t.before seq).lgw = t.lgw := by
  obtain ⟨v, p, b, h⟩ : RegsOnly t (t.before seq) :=
    RegsOnly.foldl (fun u e => applyEntry_regsOnly u e e.done) (entriesBefore seq t.viq) t
  rw [h]

/-! ### An access looks at the stacks, the extents and the poisoned lines -/

section

variable {s u : State} (hhbm : u.hbm = s.hbm) (hext : u.extents = s.extents)
include hhbm hext

theorem physCheck_congr : physCheck u = physCheck s := by
  funext die kind va pa
  simp only [physCheck, stack_congr hhbm, hext]

theorem pinBytes_congr (t : Strand) (k : BitVec 3) (kind : AKind) (p : Pin) (n va : Nat) :
    pinBytes u t k kind p n va = pinBytes s t k kind p n va := by
  induction n generalizing va with
  | zero => rfl
  | succ n ih => simp only [pinBytes, ih, physCheck_congr hhbm hext]

theorem pinAccess_congr (hpoison : u.poison = s.poison) : pinAccess u = pinAccess s := by
  have hlines : u.poisoned = s.poisoned := by
    funext l
    rw [State.poisoned, State.poisoned, hpoison]
  have hfirst (ks : List Nat) (i : Nat) : firstPoison u ks i = firstPoison s ks i := by
    induction ks generalizing i with
    | nil => rfl
    | cons k ks ih => rw [firstPoison, firstPoison, hlines, ih]
  funext t k kind va n
  simp only [pinAccess, pinBytes_congr hhbm hext, hfirst]

end

theorem pinAccess_pipeGranted (s : State) (p : Nat) : pinAccess (pipeGranted s p) = pinAccess s := pinAccess_congr rfl rfl rfl

section

variable (s : State) (w : Strand)

theorem filterLines_withCur (keep : Bool) (ls : List Nat) :
    State.filterLines { s with cur := w } keep ls = { s.filterLines keep ls with cur := w } := by
  have hfold (cs : List (Nat × Core)) (u : State) :
      cs.foldl (fun t c => t.modCore c.1 (Core.giveUp keep ls.contains)) { u with cur := w } =
        { cs.foldl (fun t c => t.modCore c.1 (Core.giveUp keep ls.contains)) u with cur := w } := by
    induction cs generalizing u with
    | nil => rfl
    | cons c cs ih => exact ih (u.modCore c.1 (Core.giveUp keep ls.contains))
  unfold State.filterLines
  split
  · exact hfold s.cores s
  · rfl

theorem readKeys_withCur (t : Strand) (xs : List (BitVec 3 × Nat × List Word)) :
    readKeys { s with cur := w } t xs = readKeys s t xs := by
  simp only [readKeys, pinAccess_congr (s := s) (u := { s with cur := w }) rfl rfl rfl]

theorem cleanReads_withCur (t : Strand) (xs : List (BitVec 3 × Nat × List Word)) :
    State.cleanReads { s with cur := w } t xs = { s.cleanReads t xs with cur := w } := by
  unfold State.cleanReads
  rw [readKeys_withCur, filterLines_withCur]
  split <;> rfl

end

theorem cleanReads_homesOnly (s : State) (t : Strand) (xs : List (BitVec 3 × Nat × List Word)) :
    HomesOnly s (s.cleanReads t xs) := by
  unfold State.cleanReads
  split
  · exact filterLines_homesOnly ..
  · exact HomesOnly.refl s

theorem modStrand_of_cur {s : State} {t : Strand} (hcur : s.cur = t) (hex : t.exists_ = true) (f : Strand → Strand) :
    s.modStrand t.key f = { s with cur := f t } := by
  subst hcur
  exact modStrand_cur hex f

/-- The strand of a key after it has changed in nothing that names it. -/
theorem modStrand_withCur {s : State} {t w : Strand} (hw : SamePins t w) (hex : t.exists_ = true) (f : Strand → Strand) :
    State.modStrand { s with cur := w } t.key f = { s with cur := f w } := by
  rw [← hw.key]
  exact modStrand_cur (s := { s with cur := w }) (hw.exists_.trans hex) f

/-! ### Lost rows that an access reads (R115, R116) -/

section

variable {s : State} {e : VEntry} {elem : Nat} {xs : List Span} (hex : s.cur.exists_ = true)

theorem recover_recovers {t : Strand} (h : Recovers t e xs) : t.recover e elem xs = .ok (mendedReads t e xs) :=
  if_pos (List.all_eq_true.mpr h)

theorem recover_lost {t : Strand} (h : ¬ Recovers t e xs) : t.recover e elem xs = .error (lostRow t e elem) :=
  if_neg (mt List.all_eq_true.mp h)

include hex

/-- The rows that an entry reads are written again, if each can be. -/
theorem recoverRows_recovers (h : Recovers s.cur e xs) : s.recoverRows s.cur.key s.cur e elem xs =
    ({ s with cur := mendedReads s.cur e xs }, some (mendedReads s.cur e xs)) := by
  unfold State.recoverRows
  split
  next hnone =>
    have hm : mendedReads s.cur e xs = s.cur := by rw [mendedReads, hnone]; rfl
    rw [hm]
  next =>
    rw [recover_recovers h]
    exact congrArg (·, some _) (modStrand_cur hex _)

theorem recoverRows_lost (h : ¬ Recovers s.cur e xs) : s.recoverRows s.cur.key s.cur e elem xs =
    ({ s with cur := lostRow s.cur e elem }, none) := by
  unfold State.recoverRows
  split
  next hnone => exact absurd (fun x hx => absurd (hnone ▸ hx) List.not_mem_nil) h
  next =>
    rw [recover_lost h]
    exact congrArg (·, none) (modStrand_cur hex _)

end

theorem samePins_mendedReads (t : Strand) (e : VEntry) (xs : List Span) : SamePins t (mendedReads t e xs) := samePins_mend ..

theorem samePins_lostRow (t : Strand) (e : VEntry) (elem : Nat) : SamePins t (lostRow t e elem) :=
  (samePins_modEntry ..).trans (samePins_countCheck _)

/-! ### MICRO_OPERATION_ISSUE -/

section

variable {s : State} {e : VEntry} {op : VOp} {k : Nat}

/-- What a group that may issue comes to, once the rows that it reads are looked at. -/
theorem issue_eq (hex : s.cur.exists_ = true) (hentry : s.cur.entry? e.seq = some e) (hvop : vop e.instr = some op)
    (hrun : ∀ port d, op.run ≠ .epop port d) (hissue : MayIssue s e op k) :
    s.issue s.cur.key e.seq k =
      (let a := (pipeGranted s (s.cur.pipe e.instr k)).recoverRows s.cur.key s.cur e (k * e.G) (s.cur.microReads e op k)
      match a.2 with
      | some u => a.1.perform s.cur.key u e op k
      | none => a.1) := by
  obtain ⟨hlife, hcan, hwin, hrows, hturn⟩ := hissue
  have hgo : ¬ ((decide (s.cur.life ≠ .running) || !s.cur.canIssue e op k || !s.cur.inWindow (s.windowShare s.cur) e op k ||
      !s.cur.rowsOk e op k || !s.cur.pipeTurn e op k) = true) := by
    simp [hlife, hcan, hwin, hrows, hturn]
  unfold State.issue
  rw [strand?_cur hex]
  dsimp only
  rw [hentry]
  dsimp only
  rw [hvop]
  dsimp only
  split
  next port d h => exact absurd h (hrun port d)
  next => exact if_neg hgo

/-- The results of a group's elements, joined in order. -/
theorem foldl_join_eq_groupResult (g : VEnv → Nat → ERes) (v : VEnv) (ks : List Nat) :
    ks.foldl (fun (a : ERes) i => a.join (g v i)) ERes.none = groupResult g v ks := rfl

section

variable {g : VEnv → Nat → ERes} {fin : VEnv → BitVec 5} (hex : s.cur.exists_ = true) (hentry : s.cur.entry? e.seq = some e)
  (hvop : vop e.instr = some op) (hrun : op.run = .elem g fin) (hissue : MayIssue s e op k)
include hex hentry hvop hrun hissue

theorem issue_elem_recovers (h : Recovers s.cur e (s.cur.microReads e op k)) :
    s.issue s.cur.key e.seq k = { pipeGranted s (s.cur.pipe e.instr k) with
      cur := (mended s.cur e op k).modEntry e.seq (fun x => x.addGroup
        (groupOf k (groupResult g ((mended s.cur e op k).env e) (e.acting op ((mended s.cur e op k).env e) k)))) } := by
  have hnot : ∀ port d, op.run ≠ .epop port d := fun port d h => nomatch hrun.symm.trans h
  have hreads : (pipeGranted s (s.cur.pipe e.instr k)).recoverRows s.cur.key s.cur e (k * e.G) (s.cur.microReads e op k) =
      ({ pipeGranted s (s.cur.pipe e.instr k) with cur := mended s.cur e op k }, some (mended s.cur e op k)) :=
    recoverRows_recovers (s := pipeGranted s (s.cur.pipe e.instr k)) hex h
  rw [issue_eq hex hentry hvop hnot hissue, hreads]
  dsimp only
  rw [State.perform, hrun]
  exact modStrand_withCur (s := pipeGranted s (s.cur.pipe e.instr k)) (samePins_mendedReads ..) hex _

theorem issue_elem_lost (h : ¬ Recovers s.cur e (s.cur.microReads e op k)) :
    s.issue s.cur.key e.seq k =
      { pipeGranted s (s.cur.pipe e.instr k) with cur := lostRow s.cur e (k * e.G) } := by
  have hnot : ∀ port d, op.run ≠ .epop port d := fun port d h => nomatch hrun.symm.trans h
  have hreads := recoverRows_lost (s := pipeGranted s (s.cur.pipe e.instr k)) (elem := k * e.G) hex h
  rw [issue_eq hex hentry hvop hnot hissue]
  exact congrArg (fun a : State × Option Strand => match a.2 with
    | some u => a.1.perform s.cur.key u e op k
    | none => a.1) hreads

end

end

end Sys2Proof.Machine

/-! ## O31: completion of groups, buffered stores, rows and steps of the engines -/

namespace Sys2Proof.Machine

open Sys2Proof.Claims

/-! ### ELEMENT_GROUP_COMPLETE -/

theorem dropAt_eq_eraseIdx {α : Type} (n : Nat) (l : List α) : dropAt n l = l.eraseIdx n := by
  induction l generalizing n with
  | nil => cases n <;> rfl
  | cons x l ih =>
    cases n with
    | zero => rfl
    | succ n => exact congrArg (x :: ·) (ih n)

theorem performHeld_homesOnly (s : State) (h : HeldElem) : HomesOnly s (s.performHeld h) := homeWrite_homesOnly ..

theorem outcome_flags (m : Memory) (h : HeldElem) : (h.outcome m).2 = updateFlags m h := by
  unfold HeldElem.outcome updateFlags
  cases h.amo <;> rfl

section

variable {s : State} {seq : BitVec 32} {k : Nat} (hex : s.cur.exists_ = true)
include hex

/-- With no update left the group's results leave flight. -/
theorem complete_done (h : ∀ e, s.cur.entry? seq = some e → ∀ r ∈ e.inflight, r.g = k → r.left = []) :
    s.complete s.cur.key seq k = { s with cur := (s.cur.finishGroup seq k).advanceAll } := by
  have hnone : ((s.strand? s.cur.key).bind (fun t => (t.entry? seq).bind (fun e =>
      e.inflight.find? (fun r => r.g == k && r.left != [])))) = none := by
    rw [strand?_cur hex, Option.bind_some]
    cases hentry : s.cur.entry? seq with
    | none => rfl
    | some e =>
      refine List.find?_eq_none.mpr fun r hr hp => ?_
      rw [Bool.and_eq_true, beq_iff_eq, bne_iff_ne] at hp
      exact hp.2 (h e hentry r hr hp.1)
  rw [State.complete, hnone]
  exact modStrand_cur hex _

/-- Else one update, which a free value picks, is performed. -/
theorem complete_left {e : VEntry} {r : GroupRes} {h : HeldElem} (hentry : s.cur.entry? seq = some e)
    (hfind : e.inflight.find? (fun x => x.g == k && x.left != []) = some r)
    (hpick : r.left[Config.free s.free % r.left.length]? = some h) :
    s.complete s.cur.key seq k = { State.performHeld { s with free := s.free + 1 } h with
      cur := s.cur.modEntry seq (fun x => { x with
        inflight := x.inflight.map (fun y => if y.g = k then { y with
          left := y.left.eraseIdx (Config.free s.free % r.left.length), fl := y.fl ||| updateFlags s.mem h } else y) }) } := by
  have hsome : ((s.strand? s.cur.key).bind (fun t => (t.entry? seq).bind (fun e =>
      e.inflight.find? (fun r => r.g == k && r.left != [])))) = some r := by
    rw [strand?_cur hex, Option.bind_some, hentry, Option.bind_some, hfind]
  have hg : r.g = k := by
    have hp := List.find?_some hfind
    rw [Bool.and_eq_true, beq_iff_eq] at hp
    exact hp.1
  have hcur : (State.performHeld { s with free := s.free + 1 } h).cur = s.cur := (performHeld_homesOnly _ h).cur
  rw [State.complete, hsome]
  dsimp only
  unfold State.performLeft State.draw
  dsimp only
  rw [hpick]
  dsimp only
  rw [modStrand_of_cur hcur hex, hg, outcome_flags]
  simp only [dropAt_eq_eraseIdx]

end

/-- A group that is neither compared nor flipped: its results are the entry's, its flags are raised. -/
theorem finishGroup_plain {t : Strand} {seq : BitVec 32} {k : Nat} {e : VEntry} {r : GroupRes} (hentry : t.entry? seq = some e)
    (hfind : e.inflight.find? (fun x => x.g == k) = some r) (hflip : r.flip = none) (hcheck : e.caps.check.toNat % 4 = 0) :
    t.finishGroup seq k = { t with
      viq := t.viq.map (fun x => if x.seq = seq then { x with
        inflight := x.inflight.filter (fun y => y.g != k), done := x.done ++ [r] } else x)
      opBuf := (t.noteOps e r 0).opBuf
      ctl := { t.ctl with fstat := t.ctl.fstat ||| r.fl.setWidth 64, gstat := t.ctl.gstat ||| r.gs.setWidth 64 } } := by
  have hr : { r with flip := none } = r := by rw [← hflip]
  have hmap : (t.viq.map (fun x => if x.seq = seq then { x with inflight := x.inflight.filter (fun y => y.g != k) } else x)).map
      (fun x => if x.seq = seq then { x with done := x.done ++ [r] } else x) = t.viq.map (fun x => if x.seq = seq then { x with
        inflight := x.inflight.filter (fun y => y.g != k), done := x.done ++ [r] } else x) := by
    rw [List.map_map]
    refine List.map_congr_left fun x _ => ?_
    by_cases hx : x.seq = seq <;> simp [hx]
  have hops (u : Strand) (hlgw : u.lgw = t.lgw) (hbuf : u.opBuf = t.opBuf) :
      u.noteOps e r 0 = { u with opBuf := (t.noteOps e r 0).opBuf } := by
    unfold Strand.noteOps
    split
    next => rw [← hbuf]
    next => rw [hlgw, hbuf]
  unfold Strand.finishGroup
  rw [hentry]
  dsimp only
  rw [hfind]
  dsimp only
  rw [hcheck, hflip, hr]
  simp only [ne_eq, not_true_eq_false, decide_false, Bool.false_and]
  simp only [Strand.orFlags, Strand.modEntry, hmap]
  exact hops _ rfl rfl

/-! ### SCALAR_ACCESS_PERFORMED -/

section

variable {s : State} {n : Nat} {b : BufferedStore} (hex : s.cur.exists_ = true) (hb : s.cur.sbuf[n]? = some b)
include hex hb

theorem performNth_stays (h : s.storeKeys s.cur b = none) : s.performNth s.cur.key n = s := by
  rw [State.performNth, strand?_cur hex]
  dsimp only
  rw [hb]
  dsimp only
  rw [h]

variable {ks : List Nat} (h : s.storeKeys s.cur b = some ks)
include h

/-- The store leaves the buffer, and is performed unless something stops it. -/
theorem performNth_performs
    (hstop : ks.findSome? (State.storeStop { s with cur := { s.cur with sbuf := s.cur.sbuf.eraseIdx n } } s.cur.die b.va) = none) :
    s.performNth s.cur.key n = State.performStore { s with cur := { s.cur with sbuf := s.cur.sbuf.eraseIdx n } } s.cur.key
      s.cur.coreNo ks (leBytes ks.length b.val) := by
  rw [State.performNth, strand?_cur hex]
  dsimp only
  rw [hb]
  dsimp only
  rw [h]
  dsimp only
  rw [modStrand_cur hex, dropAt_eq_eraseIdx, hstop]

theorem performNth_faults {x : Stop}
    (hstop : ks.findSome? (State.storeStop { s with cur := { s.cur with sbuf := s.cur.sbuf.eraseIdx n } } s.cur.die b.va) = some x) :
    s.performNth s.cur.key n = State.storeFault { s with cur := { s.cur with sbuf := s.cur.sbuf.eraseIdx n } } s.cur.key x := by
  rw [State.performNth, strand?_cur hex]
  dsimp only
  rw [hb]
  dsimp only
  rw [h]
  dsimp only
  rw [modStrand_cur hex, dropAt_eq_eraseIdx, hstop]

end

theorem exec_scalarAccessPerformed {s : State} {n : Nat} (hex : s.cur.exists_ = true) (h : s.cur.storeReady n = true) :
    exec (.scalarAccessPerformed s.cur.key n) s = .next (s.performNth s.cur.key n) := by
  have hx : exec (.scalarAccessPerformed s.cur.key n) s = execScalarAccessPerformed s.cur.key n s := rfl
  rw [hx, execScalarAccessPerformed, strand?_cur hex]
  dsimp only
  rw [if_pos h]

/-! ### MATRIX_ENGINE_STEP -/

theorem tileServed_cur (s : State) (e : VEntry) : (tileServed s e).cur = s.cur := by
  unfold tileServed
  dsimp only
  split <;> rfl

theorem orthServed_cur (s : State) (e : VEntry) : (orthServed s e).cur = s.cur := by
  unfold orthServed
  dsimp only
  split <;> rfl

section

variable {s : State} {e : VEntry} {op : VOp}

theorem tileStep_idle (hex : s.cur.exists_ = true) (h : s.cur.oldest isTile = none) : s.tileStep s.cur.key = s := by
  rw [State.tileStep, strand?_cur hex]
  dsimp only
  rw [h]

theorem orthStep_idle (hex : s.cur.exists_ = true) (h : s.cur.oldest isOrth = none) : s.orthStep s.cur.key = s := by
  rw [State.orthStep, strand?_cur hex]
  dsimp only
  rw [h]

theorem tileStep_runs {f : TileForm} (hrun : RowRuns s e op) (hform : s.cur.formOf e = some f) : s.tileStep s.cur.key =
    if f.steps ≤ e.prog then { tileServed s e with cur := (s.cur.finishEntry e.seq none).advanceAll }
    else (tileServed s e).runRow (tileServed s e).cur.key (tileServed s e).cur e op f := by
  obtain ⟨hex, hlife, hold, hvop, hready, hturn⟩ := hrun
  have hgo : ¬ ((decide (s.cur.life ≠ .running) || !s.cur.tileReady ||
      !s.engineTurn s.cur (s.core s.cur.coreNo).tile (sget 0 (s.core s.cur.coreNo).ptrs 68) Strand.tileReady) = true) := by
    simp [hlife, hready, hturn]
  have hmod := modStrand_of_cur (tileServed_cur s e) hex (fun t => (t.finishEntry e.seq none).advanceAll)
  rw [tileServed_cur]
  rw [← hmod, State.tileStep, strand?_cur hex]
  dsimp only
  rw [hold]
  dsimp only
  rw [hvop, hform]
  dsimp only
  exact if_neg hgo

theorem orthStep_runs {q : BitVec 1} (hrun : LineRuns s e op) (hacc : orthAcc e.instr = some q) : s.orthStep s.cur.key =
    (orthServed s e).runLine (orthServed s e).cur.key (orthServed s e).cur e op q := by
  obtain ⟨hex, hlife, hold, hvop, hready, hturn⟩ := hrun
  have hgo : ¬ ((decide (s.cur.life ≠ .running) || !s.cur.orthReady ||
      !s.engineTurn s.cur (s.core s.cur.coreNo).orth (sget 0 (s.core s.cur.coreNo).ptrs 69) Strand.orthReady) = true) := by
    simp [hlife, hready, hturn]
  rw [orthServed_cur, State.orthStep, strand?_cur hex]
  dsimp only
  rw [hold]
  dsimp only
  rw [hvop, hacc]
  dsimp only
  exact if_neg hgo

end

section

variable {u : State} {e : VEntry} {op : VOp} (hex : u.cur.exists_ = true)

/-- A trap recorded at an entry. -/
theorem vFault_trap (hex : u.cur.exists_ = true) (seq : BitVec 32) (elem : Nat) (c : BitVec 8) (va info : Nat) :
    u.vFault u.cur.key seq elem (.trap c va info) = { u with cur := u.cur.modEntry seq (fun x => x.addFault
      { cause := c, elem := elem, addr := BitVec.ofNat 64 va, info := BitVec.ofNat 62 info }) } := modStrand_cur hex _

theorem lostRow_tile (t : Strand) (e : VEntry) (elem : Nat) (acc : BitVec 3) : (lostRow t e elem).tile acc = t.tile acc := by
  have h : (lostRow t e elem).tiles = t.tiles := by
    unfold lostRow Strand.countCheck
    split <;> rfl
  rw [Strand.tile, Strand.tile, h]

include hex

theorem rowFault_trap (acc : BitVec 3) (c : BitVec 8) (va info : Nat) :
    u.rowFault u.cur.key e acc (.trap c va info) = { u with
      cur := (u.cur.modEntry e.seq (fun x => x.addFault { cause := c, elem := 64 * e.prog + e.rowprog, addr := BitVec.ofNat 64 va
                                                          info := BitVec.ofNat 62 info })).setTile acc
        { u.cur.tile acc with rowprog := BitVec.ofNat 7 e.rowprog } } := by
  rw [State.rowFault, vFault_trap hex, State.stayAtRow]
  · exact modStrand_withCur (samePins_modEntry ..) hex _
  · exact Stop.noConfusion

omit hex in
/-- A row that stores no image, or one whose place is aligned or that has begun. -/
theorem noImage {f : TileForm} (h : e.rowprog ≠ 0 ∨ e.caps.ga.toNat % 8 = 0 ∨ f.image = none) :
    (if e.rowprog = 0 ∧ e.caps.ga.toNat % 8 ≠ 0 then f.image else none) = none := by
  rw [ite_eq_right_iff]
  rintro ⟨hrow, hga⟩
  exact (h.resolve_left (not_not.mpr hrow)).resolve_left hga

/-- What a row does once its bytes are known: the rows that it reads, its stores, the accumulator. -/
theorem runRow_ok {f : TileForm} {z : RowRes} {xs : List VStore}
    (himage : (if e.rowprog = 0 ∧ e.caps.ga.toNat % 8 ≠ 0 then f.image else none) = none)
    (hrow : f.row (rowEnv u e) (u.cur.tile f.acc) = .ok z)
    (hcheck : checkStores u u.cur f.pin .write f.bytes [] z.stores = .ok xs) (hrec : Recovers u.cur e (rowReads u e op z)) :
    u.runRow u.cur.key u.cur e op f =
      (let a := State.vStores { u.cleanReads u.cur z.reads with cur := mendedReads u.cur e (rowReads u e op z) } u.cur.key e.seq xs
      a.1.modStrand u.cur.key (fun t => t.rowDone e f z a.2)) := by
  have hreads := recoverRows_recovers (elem := 64 * e.prog + e.rowprog) hex hrec
  simp only [rowEnv] at hrow
  simp only [rowReads] at hreads ⊢
  rw [State.runRow, himage]
  dsimp only
  rw [hrow]
  dsimp only
  rw [hcheck]
  dsimp only
  rw [hreads]
  dsimp only
  rw [cleanReads_withCur]

/-- A row whose stores may be made finds a lost row that cannot be written again. -/
theorem runRow_lost {f : TileForm} {z : RowRes} {xs : List VStore}
    (himage : (if e.rowprog = 0 ∧ e.caps.ga.toNat % 8 ≠ 0 then f.image else none) = none)
    (hrow : f.row (rowEnv u e) (u.cur.tile f.acc) = .ok z)
    (hcheck : checkStores u u.cur f.pin .write f.bytes [] z.stores = .ok xs) (hrec : ¬ Recovers u.cur e (rowReads u e op z)) :
    u.runRow u.cur.key u.cur e op f = { u with
      cur := (lostRow u.cur e (64 * e.prog + e.rowprog)).setTile f.acc
        { u.cur.tile f.acc with rowprog := BitVec.ofNat 7 e.rowprog } } := by
  have hreads := recoverRows_lost (elem := 64 * e.prog + e.rowprog) hex hrec
  simp only [rowEnv] at hrow
  simp only [rowReads] at hreads
  rw [State.runRow, himage]
  dsimp only
  rw [hrow]
  dsimp only
  rw [hcheck]
  dsimp only
  rw [hreads]
  dsimp only
  rw [State.stayAtRow, modStrand_withCur (samePins_lostRow ..) hex, lostRow_tile]

omit hex in
/-- A row that something stops is a row's fault. -/
theorem runRow_stops {f : TileForm} {x : Stop} (h : rowStops u e f x) :
    u.runRow u.cur.key u.cur e op f = u.rowFault u.cur.key e f.acc x := by
  rw [State.runRow]
  obtain ⟨kind, hrow, hga, hkind, rfl⟩ | ⟨hplain, h⟩ := h
  · rw [if_pos ⟨hrow, hga⟩, hkind]
  · simp only [rowEnv] at h
    rw [noImage hplain]
    dsimp only
    obtain h | ⟨z, i, hz, h⟩ := h
    · rw [h]
    · rw [hz]
      dsimp only
      rw [h]

omit hex in
theorem lineReads_eq (z : OStep) : u.cur.engineReads e op
    (List.range (if z.last then Nat.min (orthNeeds u.cur e) (u.cur.env e).top else 0)) z.writes = lineReads u e op z := by
  have htop : (u.cur.env e).top = vlmaxOf u.cur.lgw e.caps.vtype := by
    rw [VEnv.top, show (u.cur.env e).t = u.cur.before e.seq from rfl, before_lgw]
    rfl
  rw [htop, lineReads]
  cases z.last <;> rfl

/-- What a step of the orthogonal unit does once its bytes are known. -/
theorem runLine_ok {q : BitVec 1} {z : OStep} {xs : List VStore}
    (hstep : Machine.orthStep (lineEnv u e) (u.cur.orth q) e.instr = .ok z)
    (hcheck : checkStores u u.cur z.pin .write z.bytes [] z.stores = .ok xs) (hrec : Recovers u.cur e (lineReads u e op z)) :
    u.runLine u.cur.key u.cur e op q =
      (let a := State.vStores { u.cleanReads u.cur z.reads with cur := mendedReads u.cur e (lineReads u e op z) } u.cur.key e.seq xs
      let r : GroupRes := { g := 0, writes := z.writes, fl := 0, gs := 0, flip := none, left := [] }
      a.1.modStrand u.cur.key (fun t =>
        let t := (((t.setOrth q z.orth).orFlags (z.fl ||| a.2) z.gs).modEntry e.seq (fun x => { x with
          prog := if z.part = .line then x.prog + 1 else x.prog, logged := x.logged || z.part == .log
          done := if z.writes = [] then x.done else x.done ++ [r] }))
        if z.last then (t.finishEntry e.seq none).advanceAll else t)) := by
  have hreads := recoverRows_recovers (elem := e.prog) hex hrec
  simp only [lineEnv] at hstep
  unfold State.runLine
  dsimp only
  rw [hstep]
  dsimp only
  rw [hcheck]
  dsimp only
  rw [lineReads_eq, hreads]
  dsimp only
  rw [cleanReads_withCur]
  rfl

theorem runLine_lost {q : BitVec 1} {z : OStep} {xs : List VStore}
    (hstep : Machine.orthStep (lineEnv u e) (u.cur.orth q) e.instr = .ok z)
    (hcheck : checkStores u u.cur z.pin .write z.bytes [] z.stores = .ok xs) (hrec : ¬ Recovers u.cur e (lineReads u e op z)) :
    u.runLine u.cur.key u.cur e op q = { u with cur := lostRow u.cur e e.prog } := by
  have hreads := recoverRows_lost (elem := e.prog) hex hrec
  simp only [lineEnv] at hstep
  unfold State.runLine
  dsimp only
  rw [hstep]
  dsimp only
  rw [hcheck]
  dsimp only
  rw [lineReads_eq, hreads]

omit hex in
theorem runLine_stops {q : BitVec 1} {x : Stop} (h : lineStops u e q x) :
    u.runLine u.cur.key u.cur e op q = u.vFault u.cur.key e.seq e.prog x := by
  simp only [lineStops, lineEnv] at h
  unfold State.runLine
  dsimp only
  obtain h | ⟨z, i, hz, h⟩ := h
  · rw [h]
  · rw [hz]
    dsimp only
    rw [h]

end

section

variable {s : State} {e : VEntry} {op : VOp}

theorem rowReads_congr {u : State} (hcur : u.cur = s.cur) (z : RowRes) : rowReads s e op z = rowReads u e op z := by
  rw [rowReads, rowReads, hcur]

theorem lineReads_congr {u : State} (hcur : u.cur = s.cur) (z : OStep) : lineReads s e op z = lineReads u e op z := by
  rw [lineReads, lineReads, hcur]

/-- A row that runs is one of the served engine's. -/
theorem exec_matrixEngineStep {f : TileForm} (hrun : RowRuns s e op) (hform : s.cur.formOf e = some f) (hlt : e.prog < f.steps) :
    exec (.matrixEngineStep s.cur.key) s =
      .next ((tileServed s e).runRow (tileServed s e).cur.key (tileServed s e).cur e op f) :=
  congrArg Host.Outcome.next ((tileStep_runs hrun hform).trans (if_neg (Nat.not_le.mpr hlt)))

theorem exec_orthogonalLineStep {q : BitVec 1} (hrun : LineRuns s e op) (hacc : orthAcc e.instr = some q) :
    exec (.orthogonalLineStep s.cur.key) s =
      .next ((orthServed s e).runLine (orthServed s e).cur.key (orthServed s e).cur e op q) :=
  congrArg Host.Outcome.next (orthStep_runs hrun hacc)

theorem exists_of_cur {u : State} (hcur : u.cur = s.cur) (hex : s.cur.exists_ = true) : u.cur.exists_ = true :=
  hcur ▸ hex

end

/-- Settles O31, event by event. -/
theorem microOperations : Obligations.MicroOperations := by
  unfold Obligations.MicroOperations
  refine ⟨⟨?_, ?_, ?_, ?_, ?_⟩, ?_, ?_, ?_⟩
  · intro s seq k e op g fin hex hentry hvop hrun hissue
    obtain rfl := entry?_seq hentry
    exact ⟨fun h => congrArg Host.Outcome.next (issue_elem_recovers hex hentry hvop hrun hissue h),
      fun h => congrArg Host.Outcome.next (issue_elem_lost hex hentry hvop hrun hissue h)⟩
  · exact fun s seq k hex h => congrArg Host.Outcome.next (complete_done hex h)
  · exact fun s seq k e r h hex hentry hfind hpick => congrArg Host.Outcome.next (complete_left hex hentry hfind hpick)
  · exact fun s seq k e r hentry hfind hflip hcheck => finishGroup_plain hentry hfind hflip hcheck
  · intro s n b hex hb hready
    dsimp only
    rw [exec_scalarAccessPerformed hex hready]
    refine ⟨fun h => congrArg Host.Outcome.next (performNth_stays hex hb h), fun ks h hstop => ?_, fun ks x h hstop => ?_⟩
    · exact congrArg Host.Outcome.next (performNth_performs hex hb h (List.findSome?_eq_none_iff.mpr hstop))
    · exact congrArg Host.Outcome.next (performNth_faults hex hb h hstop)
  · exact fun s hex => ⟨fun h => congrArg Host.Outcome.next (tileStep_idle hex h),
      fun h => congrArg Host.Outcome.next (orthStep_idle hex h)⟩
  · intro s e op f hrun hform
    have hcur := tileServed_cur s e
    have hex := exists_of_cur hcur hrun.1
    have hstep := exec_matrixEngineStep hrun hform
    refine ⟨fun h => congrArg Host.Outcome.next ((tileStep_runs hrun hform).trans (if_pos h)), fun hlt hplain => ?_,
      fun x hlt h => ?_⟩
    · rw [hstep hlt]
      generalize tileServed s e = u at hcur hex
      simp only [rowReads_congr hcur, ← hcur]
      have himage := noImage hplain
      refine ⟨fun z hrow hstores hrec => ?_, fun z xs hrow hcheck hrec => ?_, fun z xs hrow hcheck hrec => ?_⟩
      · have hcheck : checkStores u u.cur f.pin .write f.bytes [] z.stores = .ok [] := by rw [hstores]; rfl
        rw [runRow_ok hex himage hrow hcheck hrec]
        exact congrArg Host.Outcome.next (modStrand_withCur (samePins_mendedReads ..) hex _)
      · exact congrArg Host.Outcome.next (runRow_ok hex himage hrow hcheck hrec)
      · exact congrArg Host.Outcome.next (runRow_lost hex himage hrow hcheck hrec)
    · rw [hstep hlt, runRow_stops h]
      refine ⟨fun hx => ?_, fun c va info hx => ?_⟩
      · rw [hx]
        rfl
      · rw [hx]
        exact congrArg Host.Outcome.next (rowFault_trap hex ..)
  · intro s e op q hrun hacc
    have hcur := orthServed_cur s e
    have hex := exists_of_cur hcur hrun.1
    dsimp only
    rw [exec_orthogonalLineStep hrun hacc]
    generalize orthServed s e = u at hcur hex
    simp only [lineReads_congr hcur, ← hcur]
    refine ⟨fun z xs hz hcheck => ⟨fun hrec => ?_, fun hrec => ?_⟩, fun x h hx => ?_, fun x c va info h hx => ?_⟩
    · exact congrArg Host.Outcome.next (runLine_ok hex hz hcheck hrec)
    · exact congrArg Host.Outcome.next (runLine_lost hex hz hcheck hrec)
    · rw [runLine_stops h, hx]
      rfl
    · rw [runLine_stops h, hx]
      exact congrArg Host.Outcome.next (vFault_trap hex ..)

end Sys2Proof.Machine

/-! ## O32: vector memory micro-operations (R298 to R304) -/

namespace Sys2Proof.Machine

open Sys2Proof.Claims

/-! ### What moves no byte -/

theorem modStrand_mem_eq (s : State) (key : Nat) (f : Strand → Strand) : (s.modStrand key f).mem = s.mem := by
  unfold State.modStrand
  split <;> rfl

theorem vFault_mem (s : State) (key : Nat) (seq : BitVec 32) (elem : Nat) (x : Stop) : (s.vFault key seq elem x).mem = s.mem := by
  cases x with
  | hold => rfl
  | trap c va info => exact modStrand_mem_eq ..
  | mirror va pa => exact (modStrand_mem_eq ..).trans (addError_mem ..)

theorem cleanReads_mem (s : State) (t : Strand) (xs : List (BitVec 3 × Nat × List Word)) : (s.cleanReads t xs).mem = s.mem := by
  unfold State.cleanReads
  split
  · exact filterLines_mem ..
  · rfl

/-! ### The elements of a group -/

theorem mem_fieldList {n : Nat} {is : List Nat} {p : Nat × Nat} : p ∈ fieldList n is ↔ p.1 ∈ is ∧ p.2 < n := by
  obtain ⟨i, f⟩ := p
  simp [fieldList]

/-- An element that acts stands in the group, below VL. -/
theorem mem_acting {e : VEntry} {op : VOp} {v : VEnv} {k i : Nat} (h : i ∈ e.acting op v k) :
    i < e.caps.vl.toNat ∧ i / e.G = k := by
  obtain ⟨hi, hp⟩ := List.mem_filter.mp h
  obtain ⟨j, hj, rfl⟩ := List.mem_map.mp hi
  rw [Bool.and_eq_true, decide_eq_true_eq] at hp
  have hG := List.mem_range.mp hj
  refine ⟨hp.1, ?_⟩
  rw [Nat.mul_comm, Nat.mul_add_div (Nat.zero_lt_of_lt hG), Nat.div_eq_of_lt hG, Nat.add_zero]

/-- Checked elements carry the bytes that their access reaches. -/
theorem checkStores_keys {s : State} {t : Strand} {k : BitVec 3} {kind : AKind} {n : Nat} {before : List Nat}
    {els : List (Nat × Word × Nat)} {xs : List VStore} (h : checkStores s t k kind n before els = .ok xs) {x : VStore} (hx : x ∈ xs) :
    ∃ p ∈ els, pinAccess s t k kind p.2.1 n = .ok x.keys := by
  induction els generalizing before xs with
  | nil =>
    cases h
    cases hx
  | cons p els ih =>
    obtain ⟨i, va, val⟩ := p
    rw [checkStores] at h
    cases hacc : pinAccess s t k kind va n with
    | error y => rw [hacc] at h; cases h
    | ok ks =>
      rw [hacc] at h
      dsimp only at h
      cases hline : t.lineStop before ks va.toNat with
      | some y => rw [hline] at h; cases h
      | none =>
        rw [hline] at h
        dsimp only at h
        cases hrest : checkStores s t k kind n (if t.holds ks then before ++ ks else before) els with
        | error y => rw [hrest] at h; cases h
        | ok ys =>
          rw [hrest] at h
          cases h
          obtain rfl | hx := List.mem_cons.mp hx
          · exact ⟨_, List.mem_cons_self, hacc⟩
          · obtain ⟨q, hq, hk⟩ := ih hrest hx
            exact ⟨q, List.mem_cons_of_mem _ hq, hk⟩

/-! ### Unordered elements lose bytes and gain none (R191) -/

/-- A state with the same memory, and an element with no byte more. -/
def Thinner (s : State) (x : VStore) (a : State × VStore) : Prop := a.1.mem = s.mem ∧ ∀ j ∈ a.2.keys, j ∈ x.keys

theorem thinBytes_thinner (s : State) (n : Nat) (prior : List Nat) (x : VStore) : Thinner s x (s.thinBytes n prior x) := by
  have hfold := List.foldlRecOn (motive := fun a : State × List (Nat × Byte) => a.1.mem = s.mem ∧ ∀ y ∈ a.2, y.1 ∈ x.keys)
    ((x.keys.zip (leBytes n x.val)).zip (List.range n)) (fun a p =>
      if prior.any (fun q => decide (q ≤ x.va + p.2) && decide (x.va + p.2 < q + n)) then
        let (d, s) := a.1.draw
        if d % 2 = 0 then (s, a.2 ++ [p.1]) else (s, a.2)
      else (a.1, a.2 ++ [p.1])) (b := (s, [])) ⟨rfl, fun y hy => nomatch hy⟩ (fun a ha p hp => by
      have hkey : p.1.1 ∈ x.keys := (List.of_mem_zip (List.of_mem_zip hp).1).1
      have happ : ∀ y ∈ a.2 ++ [p.1], y.1 ∈ x.keys := fun y hy => by
        obtain hy | hy := List.mem_append.mp hy
        · exact ha.2 y hy
        · rwa [List.mem_singleton.mp hy]
      dsimp only [State.draw]
      split
      · split
        · exact ⟨ha.1, happ⟩
        · exact ⟨ha.1, ha.2⟩
      · exact ⟨ha.1, happ⟩)
  refine ⟨hfold.1, fun j hj => ?_⟩
  obtain ⟨y, hy, rfl⟩ := List.mem_map.mp hj
  exact hfold.2 y hy

theorem thin_thinner (s : State) (n : Nat) (prior : List Nat) (x : VStore) : Thinner s x (s.thin n prior x) := by
  unfold State.thin
  split
  · exact ⟨rfl, fun j hj => hj⟩
  · split
    · dsimp only [State.draw]
      split
      · exact thinBytes_thinner { s with free := s.free + 1 } n _ x
      · exact ⟨rfl, fun j hj => nomatch hj⟩
    · exact thinBytes_thinner s n prior x

/-- A state with the same memory, and elements with no byte more. -/
def AllThinner (s : State) (xs : List VStore) (a : State × List VStore) : Prop :=
  a.1.mem = s.mem ∧ ∀ y ∈ a.2, ∃ x ∈ xs, ∀ j ∈ y.keys, j ∈ x.keys

theorem thinAll_thinner (s : State) (n : Nat) (prior : List Nat) (xs : List VStore) : AllThinner s xs (s.thinAll n prior xs) := by
  induction xs generalizing s prior with
  | nil => exact ⟨rfl, fun y hy => nomatch hy⟩
  | cons x xs ih =>
    obtain ⟨hmem, hkeys⟩ := thin_thinner s n prior x
    obtain ⟨hmem', hall⟩ := ih (s.thin n prior x).1 (x.va :: prior)
    refine ⟨hmem'.trans hmem, fun y hy => ?_⟩
    obtain rfl | hy := List.mem_cons.mp hy
    · exact ⟨x, List.mem_cons_self, hkeys⟩
    · obtain ⟨z, hz, hj⟩ := hall y hy
      exact ⟨z, List.mem_cons_of_mem _ hz, hj⟩

theorem orderElems_thinner (s : State) (t : Strand) (e : VEntry) (op : VOp) (v : VEnv) (m : MemOp) (xs : List VStore) :
    AllThinner s xs (s.orderElems t e op v m xs) := by
  unfold State.orderElems
  split
  · exact thinAll_thinner ..
  · exact ⟨rfl, fun y hy => ⟨y, hy, fun j hj => hj⟩⟩

/-! ### Performed elements write their own bytes -/

theorem performHeld_mem (s : State) (h : HeldElem) : (s.performHeld h).mem = h.apply s.mem := homeWrite_mem ..

theorem memRead_apply_other (m : Memory) {h : HeldElem} {j : Nat} (hj : j ∉ h.keys) : memRead (h.apply m) j = memRead m j := by
  refine memRead_memWriteList_other m _ _ fun hmem => hj ?_
  obtain ⟨y, hy, rfl⟩ := List.mem_map.mp hmem
  exact (List.of_mem_zip (List.mem_filter.mp hy).1).1

theorem memRead_vStore_other (s : State) (key : Nat) (seq : BitVec 32) {x : VStore} {j : Nat} (hj : j ∉ x.keys) :
    memRead (s.vStore key seq x).1.mem j = memRead s.mem j := by
  unfold State.vStore
  cases s.strand? key with
  | none => rfl
  | some t =>
    dsimp only
    split
    · rw [modStrand_mem_eq]
    · dsimp only
      rw [performHeld_mem]
      exact memRead_apply_other s.mem hj

theorem memRead_vStores_other (s : State) (key : Nat) (seq : BitVec 32) {xs : List VStore} {j : Nat} (hj : ∀ x ∈ xs, j ∉ x.keys) :
    memRead (s.vStores key seq xs).1.mem j = memRead s.mem j := by
  induction xs generalizing s with
  | nil => rfl
  | cons x xs ih =>
    exact (ih _ fun y hy => hj y (List.mem_cons_of_mem _ hy)).trans
      (memRead_vStore_other s key seq (hj x List.mem_cons_self))

/-! ### A memory micro-operation -/

/-- The bytes that the elements of a group reach through its pin. -/
def GroupKey (s : State) (t : Strand) (e : VEntry) (op : VOp) (m : MemOp) (k j : Nat) : Prop :=
  ∃ i f keys, i ∈ e.acting op (t.env e) k ∧ f < m.fields ∧
    pinAccess s t m.k m.kind (m.addr (t.env e) i f) ((t.env e).sew / 8) = .ok keys ∧ j ∈ keys

theorem issueMem_mem_of_read {s : State} {m : MemOp} (hread : m.kind = .read) (key : Nat) (t : Strand) (e : VEntry) (op : VOp)
    (k : Nat) : (s.issueMem key t e op m k).mem = s.mem := by
  unfold State.issueMem
  dsimp only
  rw [if_pos hread]
  split
  · exact vFault_mem ..
  · rw [modStrand_mem_eq, cleanReads_mem]

/-- A byte that no element of the group reaches keeps its value. -/
theorem memRead_issueMem_other {s : State} {t : Strand} {e : VEntry} {op : VOp} {m : MemOp} {k j : Nat}
    (hj : ¬ GroupKey s t e op m k j) (key : Nat) : memRead (s.issueMem key t e op m k).mem j = memRead s.mem j := by
  by_cases hread : m.kind = .read
  · rw [issueMem_mem_of_read hread]
  · unfold State.issueMem
    dsimp only
    rw [if_neg hread]
    split
    next => rw [vFault_mem]
    next xs hcheck =>
      split
      · rw [modStrand_mem_eq]
      · rw [modStrand_mem_eq]
        obtain ⟨hmem, hkeys⟩ := orderElems_thinner s t e op (t.env e) m (xs.map (fun x => { x with
          amo := m.amo.map (fun o => (o, e.caps.vtype,
            if vtRm e.caps.vtype = 5 then srWord e.caps.srseed (srCounter e.caps.srsalt e.caps.stripbase x.elem) else 0)) }))
        rw [memRead_vStores_other, hmem]
        intro y hy hjy
        obtain ⟨x', hx', hsub⟩ := hkeys y (List.mem_filter.mp hy).1
        obtain ⟨x, hx, rfl⟩ := List.mem_map.mp hx'
        obtain ⟨q, hq, hacc⟩ := checkStores_keys hcheck hx
        obtain ⟨p, hp, rfl⟩ := List.mem_map.mp hq
        obtain ⟨hi, hf⟩ := mem_fieldList.mp hp
        exact hj ⟨p.1, p.2, x.keys, hi, hf, hacc, hsub j hjy⟩

/-- A plain store leaves its bytes holding its value. -/
theorem memReadList_apply_plain {m : Memory} (hm : m.wf = true) {h : HeldElem} (hamo : h.amo = none) (hpast : h.past = [])
    (hkeys : h.keys.Nodup) : memReadList (h.apply m) h.keys = leBytes h.keys.length h.val := by
  have hall : h.writes m = h.keys.zip (leBytes h.keys.length h.val) := by
    rw [HeldElem.writes, HeldElem.result, HeldElem.outcome, hamo]
    exact List.filter_eq_self.mpr fun y _ => by rw [HeldElem.covered, hpast]; rfl
  have hlen : (leBytes h.keys.length h.val).length = h.keys.length := leBytes_length ..
  have hfst : (h.keys.zip (leBytes h.keys.length h.val)).map (fun x => x.1) = h.keys := List.map_fst_zip (by rw [hlen])
  have hsnd : (h.keys.zip (leBytes h.keys.length h.val)).map (fun x => x.2) = leBytes h.keys.length h.val :=
    List.map_snd_zip (by rw [hlen])
  rw [HeldElem.apply, hall, hfst, hsnd]
  exact memReadList_memWriteList hm hkeys hlen

theorem loadElems_one {s : State} {t : Strand} {view : Memory} {v : VEnv} {m : MemOp} {i step : Nat} {keys : List Nat}
    (h : pinAccess s t m.k .read (m.addr v i 0) (v.sew / 8) = .ok keys) :
    loadElems s t view v m step [(i, 0)] = .ok [v.t.elemWrite m.data.toNat v.sew i (leNat (memReadList view keys))] := by
  rw [loadElems, vRead, h]
  dsimp only
  rw [loadElems, Nat.zero_mul, Nat.add_zero]

theorem holds_of_not_det {t : Strand} (h : t.det = false) (ks : List Nat) : t.holds ks = false := by
  rw [Strand.holds, h, Bool.false_and]

section

variable {s : State} {t : Strand} {e : VEntry} {op : VOp} {m : MemOp} {k i : Nat} {keys : List Nat}
  (hact : e.acting op (t.env e) k = [i]) (hfields : m.fields = 1)
  (hacc : pinAccess s t m.k m.kind (m.addr (t.env e) i 0) ((t.env e).sew / 8) = .ok keys) (key : Nat)
include hact hfields

theorem fieldList_one : fieldList m.fields (e.acting op (t.env e) k) = [(i, 0)] := by rw [hact, hfields]; rfl

include hacc

/-- A load of one element. -/
theorem issueMem_read (hread : m.kind = .read) : s.issueMem key t e op m k =
    (s.cleanReads t [(m.k, (t.env e).sew / 8, [m.addr (t.env e) i 0])]).modStrand key (fun u => u.modEntry e.seq (fun x =>
      x.addGroup { g := k
                   writes := [(t.env e).t.elemWrite m.data.toNat (t.env e).sew i
                     (leNat (memReadList (heldView s.mem t.held) keys))]
                   fl := 0, gs := 0, flip := none, left := [] })) := by
  rw [hread] at hacc
  unfold State.issueMem
  dsimp only
  rw [if_pos hread, fieldList_one hact hfields, loadElems_one hacc]
  rfl

omit hact hfields in
/-- Outside deterministic mode the check of one element is that of its access. -/
theorem checkStores_one (hdet : t.det = false) (val : Nat) :
    checkStores s t m.k m.kind ((t.env e).sew / 8) [] [(i, m.addr (t.env e) i 0, val)] =
      .ok [{ elem := i, va := (m.addr (t.env e) i 0).toNat, keys := keys, val := val, amo := none }] := by
  have hline : t.lineStop [] keys (m.addr (t.env e) i 0).toNat = none := by
    rw [Strand.lineStop, holds_of_not_det hdet]
    rfl
  rw [checkStores, hacc]
  dsimp only
  rw [hline]
  rfl

/-- An ordered or unit-stride store of one element outside deterministic mode performs it at its home. -/
theorem issueMem_write_mem (hwrite : m.kind = .write) (hamo : m.amo = none) (hdet : t.det = false)
    (hord : m.ordered = true ∨ (unitStride e).isSome = true) (hkeys : keys ≠ []) (ht : s.strand? key = some t) :
    (s.issueMem key t e op m k).mem = HeldElem.apply s.mem
      { seq := e.seq, elem := i, va := (m.addr (t.env e) i 0).toNat, keys := keys
        val := (t.env e).t.elem m.data.toNat (t.env e).sew i, amo := none, past := [], quiet := false } := by
  have hnot : ¬ m.kind = .read := fun h => nomatch hwrite.symm.trans h
  have horder (xs : List VStore) : s.orderElems t e op (t.env e) m xs = (s, xs) := by
    refine if_neg ?_
    rw [unordered]
    obtain h | h := hord <;> simp [h]
  unfold State.issueMem
  dsimp only
  rw [if_neg hnot, fieldList_one hact hfields]
  simp only [List.map_cons, List.map_nil, Nat.zero_mul, Nat.add_zero]
  rw [checkStores_one hacc hdet]
  dsimp only
  rw [if_neg (by rw [hwrite]; simp), modStrand_mem_eq, horder, hamo]
  have hfilter : ([{ elem := i, va := (m.addr (t.env e) i 0).toNat, keys := keys
                     val := (t.env e).t.elem m.data.toNat (t.env e).sew i, amo := none }] : List VStore).filter
      (fun x => x.keys != []) = [{ elem := i, va := (m.addr (t.env e) i 0).toNat, keys := keys
                                   val := (t.env e).t.elem m.data.toNat (t.env e).sew i, amo := none }] :=
    List.filter_eq_self.mpr (by simpa using hkeys)
  simp only [List.map_cons, List.map_nil, Option.map_none]
  rw [hfilter, State.vStores, State.vStores, State.vStore, ht]
  dsimp only
  rw [if_neg (by rw [holds_of_not_det hdet]; decide)]
  exact performHeld_mem ..

theorem memReadList_issueMem_write (hm : s.mem.wf = true) (hwrite : m.kind = .write) (hamo : m.amo = none) (hdet : t.det = false)
    (hord : m.ordered = true ∨ (unitStride e).isSome = true) (hkeys : keys ≠ []) (hnodup : keys.Nodup)
    (ht : s.strand? key = some t) : memReadList (s.issueMem key t e op m k).mem keys =
      leBytes keys.length ((t.env e).t.elem m.data.toNat (t.env e).sew i) := by
  rw [issueMem_write_mem hact hfields hacc key hwrite hamo hdet hord hkeys ht]
  exact memReadList_apply_plain (h := { seq := e.seq, elem := i, va := (m.addr (t.env e) i 0).toNat, keys := keys
                                        val := (t.env e).t.elem m.data.toNat (t.env e).sew i, amo := none, past := []
                                        quiet := false }) hm rfl rfl hnodup

/-- An unordered atomic of one element outside deterministic mode leaves its update to be performed. -/
theorem issueMem_atomic {o : BitVec 2} (hatomic : m.kind = .atomic) (hamo : m.amo = some o) (hdet : t.det = false)
    (hord : m.ordered = false) : s.issueMem key t e op m k = s.modStrand key (fun u => u.modEntry e.seq (fun x => x.addGroup
      { g := k, writes := [], fl := 0, gs := 0, flip := none
        left := [{ seq := e.seq, elem := i, va := (m.addr (t.env e) i 0).toNat, keys := keys
                   val := (t.env e).t.elem m.data.toNat (t.env e).sew i, past := [], quiet := false
                   amo := some (o, e.caps.vtype, if vtRm e.caps.vtype = 5 then
                     srWord e.caps.srseed (srCounter e.caps.srsalt e.caps.stripbase i) else 0) }] })) := by
  have hnot : ¬ m.kind = .read := fun h => nomatch hatomic.symm.trans h
  have hun : unordered t m = true := by rw [unordered, hord, hdet, hatomic]; rfl
  unfold State.issueMem
  dsimp only
  rw [if_neg hnot, fieldList_one hact hfields]
  simp only [List.map_cons, List.map_nil, Nat.zero_mul, Nat.add_zero]
  rw [checkStores_one hacc hdet]
  dsimp only
  rw [if_pos (by rw [hun, hatomic]; rfl), hamo]
  rfl

end

/-! ### Issue of a group that reads no lost row -/

section

variable {s : State} {e : VEntry} {op : VOp} {k : Nat} (hex : s.cur.exists_ = true) (hentry : s.cur.entry? e.seq = some e)
  (hvop : vop e.instr = some op)
include hex hentry hvop

theorem issue_sound (hrun : ∀ port d, op.run ≠ .epop port d) (hissue : MayIssue s e op k)
    (hrows : s.cur.badRowsIn e (s.cur.microReads e op k) = []) : s.issue s.cur.key e.seq k =
      (pipeGranted s (s.cur.pipe e.instr k)).perform s.cur.key s.cur e op k := by
  rw [issue_eq hex hentry hvop hrun hissue, State.recoverRows, if_pos hrows]

/-- A stream pop that may go on. -/
theorem issue_epop {port d : Reg} (hrun : op.run = .epop port d) (hlife : s.cur.life = .running) (hgoing : e.complete = false)
    (hfault : e.fault = none) (hconvoy : s.cur.convoyOk e = true) (hspare : s.cur.rowsOk e op 0 = true) (g : Nat) :
    s.issue s.cur.key e.seq g = s.popStream s.cur.key s.cur e port d := by
  unfold State.issue
  rw [strand?_cur hex]
  dsimp only
  rw [hentry]
  dsimp only
  rw [hvop]
  dsimp only
  rw [hrun]
  refine if_neg ?_
  simp [hgoing, hfault, hlife, hconvoy, hspare]

end

/-! ### `vgscr` -/

theorem checkRows_one {s : State} {t : Strand} {p : BitVec 3} {n i : Nat} {va : Word} {keys : List Nat}
    (h : pinAccess s t p .read va n = .ok keys) : checkRows s t p n [(i, va)] = none := by
  rw [checkRows, h]
  rfl

/-- One row goes to the place behind the rows of the elements that act before it (R303). -/
theorem issueRows_one {s : State} {t : Strand} {e : VEntry} {op : VOp} {p : BitVec 3} {b : Reg} {k i : Nat} {keys : List Nat}
    (hact : e.acting op (t.env e) k = [i]) (hacc : pinAccess s t p .read
      (e.caps.ga + BitVec.ofNat 64 (source (t.env e) false b i * (e.caps.rowbytes.toNat % 2 ^ 17)))
      (e.caps.rowbytes.toNat % 2 ^ 17) = .ok keys) (key : Nat) :
    s.issueRows key t e op p b k =
      (s.handRow key t e p (e.caps.ga + BitVec.ofNat 64 (source (t.env e) false b i * (e.caps.rowbytes.toNat % 2 ^ 17)))
        (scratchKey t.cluster (e.caps.gd.toNat - scratchVa +
          ((List.range i).filter (op.acts (t.env e))).length * (e.caps.rowbytes.toNat % 2 ^ 17)))
        (e.caps.rowbytes.toNat % 2 ^ 17)).modStrand key (fun u => u.modEntry e.seq (fun x => x.addGroup (groupOf k ERes.none))) := by
  unfold State.issueRows
  dsimp only
  rw [hact]
  simp only [List.map_cons, List.map_nil, List.foldl_cons, List.foldl_nil]
  have hrows : checkRows s t p (e.caps.rowbytes.toNat % 2 ^ 17)
      [(i, e.caps.ga + wNat ((t.env e).get b (t.env e).sew i * (e.caps.rowbytes.toNat % 2 ^ 17)))] = none := checkRows_one hacc
  rw [hrows]
  rfl

/-! ### `vepop` -/

theorem streamHead_eq (items : List StreamItem) : streamHead items = (beforeMark items, decide (StreamItem.endMark ∈ items)) := by
  induction items with
  | nil => rfl
  | cons x r ih =>
    cases x with
    | endMark => simp [streamHead, beforeMark]
    | byte b => simp [streamHead, ih, beforeMark]

theorem badRowsIn_of_no_lost {t : Strand} {e : VEntry} (h : t.lostRows e.seq = []) (xs : List Span) : t.badRowsIn e xs = [] := by
  rw [Strand.badRowsIn, h]
  rfl

section

variable {s : State} {e : VEntry} {port d : Reg}

theorem popStream_waits
    (hshort : (beforeMark (sget [] s.cur.ports.streams port.toNat)).length / ((s.cur.env e).sew / 8) < e.caps.vl.toNat)
    (hmark : StreamItem.endMark ∉ sget [] s.cur.ports.streams port.toNat) : s.popStream s.cur.key s.cur e port d = s := by
  unfold State.popStream
  dsimp only
  rw [streamHead_eq]
  refine if_pos (.inl ⟨hshort, ?_⟩)
  simpa using hmark

/-- The strand once a stream pop has delivered what it takes (R304). -/
def popped (t : Strand) (e : VEntry) (port d : Reg) : Strand :=
  let items := sget [] t.ports.streams port.toNat
  let bytes := beforeMark items
  let w := (t.env e).sew
  let c := Nat.min e.caps.vl.toNat (bytes.length / (w / 8))
  let writes := (List.range c).map (fun i => (t.env e).t.elemWrite d.toNat w i (leNat ((bytes.drop (i * (w / 8))).take (w / 8))))
  let used := if c < e.caps.vl.toNat then bytes.length + 1 else c * (w / 8)
  let u : Strand := { t with
    ports := { t.ports with streams := sset [] t.ports.streams port.toNat (items.drop used) }
    ctl := { t.ctl with vl := BitVec.ofNat 64 c, gstat := t.ctl.gstat ||| (if c < e.caps.vl.toNat then 4 else 0) } }
  (u.modEntry e.seq (fun x => { x with
    done := x.done ++ [{ g := 0, writes := writes, fl := 0, gs := 0, flip := none, left := [] }] })).finishEntry e.seq none

theorem popStream_delivers (hex : s.cur.exists_ = true) (hlost : s.cur.lostRows e.seq = [])
    (hfree : s.cur.destsFree e [Opd.vec e.caps.vtype d (s.cur.env e).sew .whole] = true)
    (henough : e.caps.vl.toNat ≤ (beforeMark (sget [] s.cur.ports.streams port.toNat)).length / ((s.cur.env e).sew / 8) ∨
      StreamItem.endMark ∈ sget [] s.cur.ports.streams port.toNat) :
    s.popStream s.cur.key s.cur e port d = { s with cur := popped s.cur e port d } := by
  have hgo : ¬ (((beforeMark (sget [] s.cur.ports.streams port.toNat)).length / ((s.cur.env e).sew / 8) < e.caps.vl.toNat ∧
      (!decide (StreamItem.endMark ∈ sget [] s.cur.ports.streams port.toNat)) = true) ∨
      (!s.cur.destsFree e [Opd.vec e.caps.vtype d (s.cur.env e).sew .whole]) = true) := by
    rw [hfree]
    rintro (⟨h1, h2⟩ | h)
    · obtain h3 | h3 := henough
      · omega
      · simp [h3] at h2
    · cases h
  unfold State.popStream
  dsimp only
  rw [streamHead_eq]
  refine (if_neg hgo).trans ?_
  rw [State.recoverRows, if_pos (badRowsIn_of_no_lost hlost _)]
  dsimp only
  rw [modStrand_cur hex]
  have hfl : s.cur.ctl.fstat ||| BitVec.setWidth 64 (0 : BitVec 5) = s.cur.ctl.fstat := BitVec.or_zero
  have hgs (p : Prop) [Decidable p] : BitVec.setWidth 64 (if p then gTRIM else 0) = if p then (4 : Word) else 0 := by
    split <;> rfl
  unfold Strand.orFlags Strand.modEntry groupOf
  dsimp only
  rw [hfl, hgs]
  rfl

end

/-! ### The clauses -/

section

variable {u : State} {key : Nat} {t : Strand} {e : VEntry} {p : BitVec 3} {src : Word} {dst n : Nat}

/-- A row that is announced is handed to the BTE. -/
theorem handRow_fits (h : announceFits u (e.caps.xferbar.setWidth 16) n) : u.handRow key t e p src dst n =
    { announcing u (e.caps.xferbar.setWidth 16) n with
      bte := u.bte ++ [{ id := u.nextBte, key := key, seq := e.seq, cluster := t.cluster, row := true, op := 1, spin := p, dpin := 0
                         port := 0, endMark := false, bar := e.caps.xferbar.setWidth 16, tag := 0, pad := 0, src := src
                         dst := wNat dst, rb := n, nr := 1, sstride := 0, dstride := 0, vr := 1, vb := n, delivered := 0
                         padded := false, readAny := false }]
      nextBte := u.nextBte + 1 } := by
  have ha := announce_fits (s := u) (die := barDie (e.caps.xferbar.setWidth 16)) (idx := barIdx (e.caps.xferbar.setWidth 16)) h
  unfold State.handRow
  dsimp only
  rw [ha]
  rfl

theorem handRow_refused (h : ¬ announceFits u (e.caps.xferbar.setWidth 16) n) : u.handRow key t e p src dst n =
    u.faultBar ((e.caps.xferbar.setWidth 16).getLsbD 12) ((e.caps.xferbar.setWidth 16).toNat % 4096) := by
  have ha := announce_overflows (s := u) (die := barDie (e.caps.xferbar.setWidth 16)) (idx := barIdx (e.caps.xferbar.setWidth 16))
    (Nat.not_lt.mp h)
  unfold State.handRow
  dsimp only
  rw [ha]
  rfl

end

/-- SEW in bytes. -/
theorem sew_div (e : VEnv) : e.sew / 8 = 2 ^ (e.c.vtype.toNat % 8) := by
  rw [VEnv.sew, vtSew, Nat.mul_div_cancel_left _ (by decide)]

/-- Settles O32, clause by clause. -/
theorem vectorMemoryElements : Obligations.VectorMemoryElements := by
  unfold Obligations.VectorMemoryElements
  refine ⟨?_, ?_, ?_⟩
  · intro s seq k e op b p i keys hex hentry hvop hrun hissue hrows hact n src hacc form u t
    obtain rfl := entry?_seq hentry
    have hnot : ∀ port d, op.run ≠ .epop port d := fun port d h => nomatch hrun.symm.trans h
    have hstep := issue_sound hex hentry hvop hnot hissue hrows
    rw [State.perform, hrun] at hstep
    dsimp only at hstep
    rw [issueRows_one hact (by rw [pinAccess_pipeGranted]; exact hacc)] at hstep
    refine ⟨fun hfits => congrArg Host.Outcome.next (hstep.trans ?_), fun hfull => congrArg Host.Outcome.next (hstep.trans ?_)⟩
    · rw [handRow_fits hfits]
      exact (modStrand_of_cur (by rfl) hex _).trans rfl
    · rw [handRow_refused hfull]
      exact (modStrand_of_cur (by rfl) hex _).trans rfl
  · intro s seq e op d b hex hlife hentry hvop hrun hgoing hfault hconvoy hspare hlost w hfree items bytes c
    obtain rfl := entry?_seq hentry
    have hstep := issue_epop hex hentry hvop hrun hlife hgoing hfault hconvoy hspare 0
    exact ⟨fun hshort hmark => congrArg Host.Outcome.next (hstep.trans (popStream_waits hshort hmark)),
      fun henough => congrArg Host.Outcome.next (hstep.trans (popStream_delivers hex hlost hfree henough))⟩
  · intro s seq k e op m hex hentry hvop hrun hissue hrows v n u
    obtain rfl := entry?_seq hentry
    have hnot : ∀ port d, op.run ≠ .epop port d := fun port d h => nomatch hrun.symm.trans h
    have hstep := issue_sound hex hentry hvop hnot hissue hrows
    rw [State.perform, hrun] at hstep
    dsimp only at hstep
    have hexec : exec (.microOperationIssue s.cur.key e.seq k) s = .next (u.issueMem s.cur.key s.cur e op m k) :=
      congrArg Host.Outcome.next hstep
    have hacc : ∀ {va keys}, pinAccess s s.cur m.k m.kind va n = .ok keys →
        pinAccess u s.cur m.k m.kind va ((s.cur.env e).sew / 8) = .ok keys := fun h => by
      rw [pinAccess_pipeGranted, sew_div]
      exact h
    rw [hexec]
    refine ⟨⟨_, rfl, fun hread => issueMem_mem_of_read hread .., fun j hj => memRead_issueMem_other ?_ _⟩,
      fun i keys hact hfields hkeys => ⟨fun hread => ?_, fun hwrite hamo hmem hdet hord hnodup hlen => ?_,
        fun o hatomic hamo hdet hord => ?_⟩⟩
    · rintro ⟨i, f, keys, hi, hf, hkeys, hjk⟩
      obtain ⟨hvl, hgroup⟩ := mem_acting hi
      rw [pinAccess_pipeGranted, sew_div] at hkeys
      exact hj i f keys hvl hgroup hf hkeys hjk
    · have hcur : (u.cleanReads s.cur [(m.k, n, [m.addr v i 0])]).cur = s.cur := (cleanReads_homesOnly u s.cur _).cur
      rw [issueMem_read hact hfields (hacc hkeys) _ hread, sew_div]
      exact congrArg Host.Outcome.next (modStrand_of_cur hcur hex _)
    · have hne : keys ≠ [] := fun h => by
        rw [h] at hlen
        exact absurd hlen.symm (Nat.two_pow_pos _).ne'
      have hu : u.strand? s.cur.key = some s.cur := strand?_cur (s := u) hex
      refine ⟨_, rfl, ?_⟩
      exact (memReadList_issueMem_write hact hfields (hacc hkeys) _ hmem hwrite hamo hdet hord hne hnodup hu).trans
        (by rw [hlen]; rfl)
    · rw [issueMem_atomic hact hfields (hacc hkeys) _ hatomic hamo hdet hord]
      exact congrArg Host.Outcome.next (modStrand_cur (s := u) hex _)

end Sys2Proof.Machine

/-! An `mtc` of FSTAT under a deterministic strand's held atomics (R128, R130, log 69). -/

namespace Sys2Proof.Machine

open Sys2Proof.Claims Sys2Proof.Tests

/-! ### The counterexample: a deterministic strand holds back an atomic whose flags are still to come -/

/-- A `vamo` element of four bytes at the start of HBM, held until its epoch's drain. -/
def heldAtomic : HeldElem :=
  { seq := 0, elem := 0, va := 0, keys := [0, 1, 2, 3], val := 1, amo := some (0, 0x8A, 0), past := [], quiet := false }

def holdingState : State := ready.modCur (fun t => { t with det := true, held := [heldAtomic] })

/-- The write of FSTAT replaces the flags that the held atomic is to raise, and the atomic is marked so. -/
theorem exec_mtc_fstat_holding : exec (.mtc 0 0x008) holdingState = .next
    (moved (holdingState.modCur (fun t => { t with
      held := [{ heldAtomic with quiet := true }], ctl := { t.ctl with fstat := 0 } })) 4) := rfl

/-- Refutes O12: its last clause leaves the strand as it was but for the register written, and no hypothesis asks that the strand
hold no element back. Here it holds an atomic, which an `mtc` of FSTAT marks (R130). -/
theorem not_controlWrites : ¬ Obligations.ControlWrites := by
  unfold Obligations.ControlWrites
  intro h
  obtain ⟨_, _, hwrite⟩ := h 0 0x008 holdingState _ _ rfl (by decide)
  have hnext := (exec_mtc_fstat_holding.symm.trans
    (hwrite (by decide) (by decide) (fun _ => by decide) (fun hn => absurd hn (by decide))))
  injection hnext with hstate
  have hheld := congrArg (fun s : State => s.cur.held.map HeldElem.quiet) hstate
  exact absurd hheld (by decide)

end Sys2Proof.Machine

/-! What a register-only instruction leaves alone (R119, R247 to R254, R259, R263 to R267). -/

namespace Sys2Proof.Machine

open Sys2Proof.Claims

/-! ### The frame of such an instruction -/

/-- All of the module but the current strand's registers, pc, mark of a stall and FSTAT. -/
def RegisterOnly (s t : State) : Prop :=
  t = { s with cur := { s.cur with g := t.cur.g, pc := t.cur.pc, stalled := t.cur.stalled
                                   ctl := { s.cur.ctl with fstat := t.cur.ctl.fstat } } }

/-- No register but d differs. -/
def OnlyDest (d : Reg) (s t : State) : Prop := ∀ r, r ≠ d → t.g r = s.g r

/-- What an instruction with destination d leaves as it was, FSTAT too where `fp` is false. -/
structure Framed (fp : Bool) (d : Reg) (s t : State) : Prop where
  registers : RegisterOnly s t
  dest : OnlyDest d s t
  fstat : fp = false → t.cur.ctl.fstat = s.cur.ctl.fstat

theorem framed_waits (fp : Bool) (d : Reg) (s : State) : Framed fp d s (waits s) := ⟨rfl, fun _ _ => rfl, fun _ => rfl⟩

theorem framed_wentTo (fp : Bool) (d : Reg) (s : State) (x : Word) : Framed fp d s (wentTo s x) :=
  ⟨rfl, fun _ _ => rfl, fun _ => rfl⟩

theorem framed_moved (fp : Bool) (d : Reg) (s : State) (len : Nat) : Framed fp d s (moved s len) :=
  ⟨rfl, fun _ _ => rfl, fun _ => rfl⟩

theorem framed_wrote (fp : Bool) (d : Reg) (s : State) (x : Word) (len : Nat) : Framed fp d s (wrote s d x len) :=
  ⟨rfl, fun r hr => by rw [wrote_g, if_neg (fun h => hr h.2)], fun _ => rfl⟩

theorem framed_flagged (d : Reg) (s : State) (fl : BitVec 5) (x : Word) (len : Nat) :
    Framed true d s (wrote (flagged s fl) d x len) :=
  ⟨rfl, (framed_wrote true d (flagged s fl) x len).dest, fun h => absurd h (by decide)⟩

/-- An instruction that asks for registers first waits, or goes on as its body does. -/
theorem framed_withRegs {fp : Bool} {d : Reg} {rs : List Reg} {s t : State} {k : State → Res}
    (hk : k s = .next t → Framed fp d s t) (h : withRegs rs s k = .next t) : Framed fp d s t := by
  unfold withRegs at h
  split at h
  · cases h
    exact framed_waits fp d s
  · exact hk h

/-- The body of an instruction that writes one register. -/
theorem framed_retire {fp : Bool} {d : Reg} {s t : State} {x : Word} {len : Nat} (h : (.next (s.retire d x len) : Res) = .next t) :
    Framed fp d s t := by
  cases h
  rw [retire_eq_wrote]
  exact framed_wrote fp d s x len

/-! ### The shapes of the rows -/

theorem fpRetire_eq_wrote (s : State) (d : Reg) (r : Nat × BitVec 5) :
    s.fpRetire d r = wrote (flagged s r.2) d (wNat r.1) 4 := by
  rw [State.fpRetire, retire_eq_wrote]
  simp [flagged, State.modCur, Strand.orFlags]

/-- A three-register instruction asks for its registers, then writes its destination. -/
theorem threeRegister_shape {i : Instr} {d a b : Reg} {f : Word → Word → Word} (h : threeRegister i = some (d, a, b, f)) :
    ∃ k, (∀ s, exec i s = withRegs [d, a, b] s k) ∧ ∀ s, ∃ x, k s = .next (s.retire d x 4) := by
  unfold threeRegister at h
  split at h
  all_goals cases h
  all_goals exact ⟨_, fun _ => rfl, fun _ => ⟨_, rfl⟩⟩

/-- So does an instruction that reads one register. -/
theorem oneRegister_shape {i : Instr} {d a : Reg} {f : Word → Word} {len : Nat} (h : oneRegister i = some (d, a, f, len)) :
    ∃ k, (∀ s, exec i s = withRegs [d, a] s k) ∧ ∀ s, ∃ x, k s = .next (s.retire d x len) := by
  unfold oneRegister at h
  split at h
  all_goals cases h
  all_goals exact ⟨_, fun _ => rfl, fun _ => ⟨_, rfl⟩⟩

theorem plainFpRow_shape {i : Instr} {d : Reg} {rs : List Reg} {f : State → Nat × BitVec 5}
    (h : plainFpRow i = some (d, rs, f)) : ∃ g, ∀ s, exec i s = fpPlain rs d s g := by
  unfold plainFpRow at h
  split at h
  all_goals cases h
  all_goals exact ⟨_, fun _ => rfl⟩

theorem roundingRow_shape {i : Instr} {d : Reg} {rs : List Reg} {m : BitVec 3} {f : State → Rm → Nat × BitVec 5}
    (h : roundingRow i = some (d, rs, m, f)) : ∃ g, ∀ s, exec i s = fpRound rs d m s g := by
  unfold roundingRow at h
  split at h
  all_goals cases h
  all_goals exact ⟨_, fun _ => rfl⟩

/-- A branch asks for its registers, then goes to its target or on. -/
theorem branchRow_shape {i : Instr} {x : Reg × Reg × (Word → Word → Prop) × Int × Nat} (h : branchRow i = some x) :
    ∃ rs k, (∀ s, exec i s = withRegs rs s k) ∧
      ∀ s, ∃ (c : Bool) (y : Word) (len : Nat), k s = .next (if c then wentTo s y else moved s len) := by
  unfold branchRow at h
  split at h
  all_goals cases h
  all_goals exact ⟨_, _, fun _ => rfl, fun _ => ⟨_, _, _, rfl⟩⟩

theorem scalarRm_isSome {m : BitVec 3} (h : m.toNat ≤ 5) (s : State) : ∃ rm, scalarRm s m = some rm := by
  unfold scalarRm
  split
  · exact ⟨_, rfl⟩
  · next h4 =>
    have h5 : m = 5 := BitVec.eq_of_toNat_eq (show m.toNat = 5 by omega)
    exact ⟨_, if_pos h5⟩

/-! ### Each shape keeps the frame -/

theorem framed_fpPlain {rs : List Reg} {d : Reg} {g : State → Nat × BitVec 5} {s t : State}
    (h : fpPlain rs d s g = .next t) : Framed true d s t := by
  refine framed_withRegs (fun hk => ?_) h
  cases hk
  rw [fpRetire_eq_wrote]
  exact framed_flagged d s _ _ 4

theorem framed_fpRound {rs : List Reg} {d : Reg} {m : BitVec 3} {g : State → Rm → Nat × BitVec 5} {s t : State}
    (hm : m.toNat ≤ 5) (h : fpRound rs d m s g = .next t) : Framed true d s t := by
  obtain ⟨rm, hrm⟩ := scalarRm_isSome hm s
  unfold fpRound at h
  rw [hrm] at h
  exact framed_fpPlain (g := fun s => g s rm) h

/-- Whether an instruction may raise flags. -/
def raisesFlags (i : Instr) : Bool := (plainFpRow i).isSome || (roundingRow i).isSome

theorem raisesFlags_plain {i : Instr} {x : Reg × List Reg × (State → Nat × BitVec 5)} (h : plainFpRow i = some x) :
    raisesFlags i = true := by rw [raisesFlags, h]; rfl

theorem raisesFlags_rounding {i : Instr} {x : Reg × List Reg × BitVec 3 × (State → Rm → Nat × BitVec 5)}
    (h : roundingRow i = some x) : raisesFlags i = true := by rw [raisesFlags, h, Option.isSome_some, Bool.or_true]

/-- The rows that an instruction with a destination may stand in. -/
theorem destination_cases {i : Instr} {d : Reg} (h : destination i = some d) :
    (∃ imm, i = .luim d imm) ∨ (∃ imm, i = .apc d imm) ∨ (∃ x a, i = .cAdd x a ∧ d = low8 x) ∨
    (∃ a b f, threeRegister i = some (d, a, b, f)) ∨ (∃ a f len, oneRegister i = some (d, a, f, len)) ∨
    (∃ rs f, plainFpRow i = some (d, rs, f)) ∨ (∃ rs m f, roundingRow i = some (d, rs, m, f) ∧ m.toNat ≤ 5) ∨
    (∃ x, branchRow i = some x ∧ d = 0) := by
  unfold destination at h
  split at h
  · cases h
    exact .inl ⟨_, rfl⟩
  · cases h
    exact .inr (.inl ⟨_, rfl⟩)
  · cases h
    exact .inr (.inr (.inl ⟨_, _, rfl, rfl⟩))
  · simp only [Option.or_eq_some_iff, Option.map_eq_some_iff, Option.bind_eq_some_iff] at h
    rcases h with ⟨⟨_, a, b, f⟩, h3, rfl⟩ | ⟨-, ⟨⟨_, a, f, len⟩, h1, rfl⟩ | ⟨-, ⟨⟨_, rs, f⟩, hp, rfl⟩ | ⟨-, ⟨⟨_, rs, m, f⟩, hr, hm⟩ | ⟨-, x, hb, rfl⟩⟩⟩⟩
    · exact .inr (.inr (.inr (.inl ⟨a, b, f, h3⟩)))
    · exact .inr (.inr (.inr (.inr (.inl ⟨a, f, len, h1⟩))))
    · exact .inr (.inr (.inr (.inr (.inr (.inl ⟨rs, f, hp⟩)))))
    · refine .inr (.inr (.inr (.inr (.inr (.inr (.inl ⟨rs, m, f, ?_⟩))))))
      split at hm
      · next hle => cases hm; exact ⟨hr, hle⟩
      · cases hm
    · exact .inr (.inr (.inr (.inr (.inr (.inr (.inr ⟨x, hb, rfl⟩))))))

/-- Every instruction with a destination keeps the frame. -/
theorem exec_framed {i : Instr} {d : Reg} {s t : State} (hd : destination i = some d) (h : exec i s = .next t) :
    Framed (raisesFlags i) d s t := by
  rcases destination_cases hd with ⟨imm, rfl⟩ | ⟨imm, rfl⟩ | ⟨x, a, rfl, rfl⟩ | ⟨a, b, f, h3⟩ | ⟨a, f, len, h1⟩ |
    ⟨rs, f, hp⟩ | ⟨rs, m, f, hr, hm⟩ | ⟨x, hb, rfl⟩
  · exact framed_withRegs (k := fun s => .next (s.retire d (hi19 imm) 4)) framed_retire h
  · exact framed_withRegs (k := fun s => .next (s.retire d (s.cur.pc + hi19 imm) 4)) framed_retire h
  · rw [← cReg_eq_low8]
    exact framed_withRegs (k := fun s => .next (s.retire (cReg x) (s.g (cReg x) + s.g (cReg a)) 2)) framed_retire h
  · obtain ⟨k, hex, hk⟩ := threeRegister_shape h3
    obtain ⟨x, hx⟩ := hk s
    exact framed_withRegs (fun ht => framed_retire (hx.symm.trans ht)) ((hex s).symm.trans h)
  · obtain ⟨k, hex, hk⟩ := oneRegister_shape h1
    obtain ⟨x, hx⟩ := hk s
    exact framed_withRegs (fun ht => framed_retire (hx.symm.trans ht)) ((hex s).symm.trans h)
  · obtain ⟨g, hg⟩ := plainFpRow_shape hp
    rw [raisesFlags_plain hp]
    exact framed_fpPlain ((hg s).symm.trans h)
  · obtain ⟨g, hg⟩ := roundingRow_shape hr
    rw [raisesFlags_rounding hr]
    exact framed_fpRound hm ((hg s).symm.trans h)
  · obtain ⟨rs, k, hex, hk⟩ := branchRow_shape hb
    obtain ⟨c, y, len, hx⟩ := hk s
    refine framed_withRegs (fun ht => ?_) ((hex s).symm.trans h)
    cases hx.symm.trans ht
    split
    · exact framed_wentTo _ _ s y
    · exact framed_moved _ _ s len

/-- Settles O59: the rows have five shapes, and each of them waits, writes its destination or goes elsewhere. -/
theorem scalarFrame : Obligations.ScalarFrame := by
  unfold Obligations.ScalarFrame
  intro i d s t hd h
  obtain ⟨hregs, hdest, hfstat⟩ := exec_framed hd h
  have hmem : t.mem = s.mem := by rw [hregs]
  exact ⟨hregs, hdest, fun hp hr => hfstat (by rw [raisesFlags, hp, hr]; rfl), fun k => by rw [hmem]⟩

end Sys2Proof.Machine

/-! Traps taken (R135, R197 to R201, R350): what the frozen area's records leave of the strand, and the entry into the handler. -/

namespace Sys2Proof.Machine

open Sys2Proof.Claims

/-! ### What the records of the frozen area leave of the strand (R14, R15, R200) -/

/-- A strand with other bytes of its save area held back, and another machine check due and counted. -/
def SaveNoted (t u : Strand) : Prop := ∃ p m n c, u = { t with
  pendSave := p, mcheck := m, checks := n, ctl := { t.ctl with chkcnt := c } }

theorem SaveNoted.refl (t : Strand) : SaveNoted t t := ⟨t.pendSave, t.mcheck, t.checks, t.ctl.chkcnt, rfl⟩

theorem SaveNoted.trans {t u w : Strand} (h : SaveNoted t u) (h' : SaveNoted u w) : SaveNoted t w := by
  obtain ⟨p, m, n, c, rfl⟩ := h
  obtain ⟨p', m', n', c', rfl⟩ := h'
  exact ⟨p', m', n', c', rfl⟩

theorem saveNoted_modStrand {f : Strand → Strand} (hf : ∀ t, SaveNoted t (f t)) (s : State) (key : Nat) :
    SaveNoted s.cur (s.modStrand key f).cur := by
  unfold State.modStrand
  split
  · exact hf s.cur
  · exact SaveNoted.refl s.cur

theorem saveNoted_countCheck (t : Strand) (m : Option TrapInfo) : SaveNoted t { t.countCheck with mcheck := m } := by
  unfold Strand.countCheck
  split
  · exact ⟨t.pendSave, m, t.checks, _, rfl⟩
  · exact ⟨t.pendSave, m, _, t.ctl.chkcnt, rfl⟩

theorem saveNoted_storeFault (s : State) (key : Nat) (x : Stop) : SaveNoted s.cur (s.storeFault key x).cur := by
  cases x with
  | hold => exact SaveNoted.refl s.cur
  | trap c va info => exact saveNoted_modStrand (fun t => ⟨t.pendSave, _, t.checks, t.ctl.chkcnt, rfl⟩) s key
  | mirror va pa =>
    have h := saveNoted_modStrand (fun t => saveNoted_countCheck t (some (scalarTrap cMCHECK va 2)))
      (s.addError 4 (errSource pa) 0 0 pa) key
    rwa [addError_cur] at h

theorem saveNoted_putSave (s : State) (t : Strand) (off n x : Nat) : SaveNoted s.cur (s.putSave t off n x).cur := by
  unfold State.putSave
  dsimp only
  split
  · exact saveNoted_modStrand (fun t => ⟨_, t.mcheck, t.checks, t.ctl.chkcnt, rfl⟩) s t.key
  · rw [(homeWrite_homesOnly ..).cur]
    split
    · exact saveNoted_storeFault s t.key _
    · exact SaveNoted.refl s.cur

theorem saveNoted_putMany (t : Strand) (L : List Piece) (s : State) : SaveNoted s.cur (s.putMany t L).cur := by
  induction L generalizing s with
  | nil => exact SaveNoted.refl s.cur
  | cons q L ih => exact (saveNoted_putSave s t q.1 q.2.1 q.2.2).trans (ih _)

theorem freeze_eq (s : State) : s.freeze = (s.putRecords s.cur 0x7000 s.cur.viq).modCur (fun t => { t with
    g := s.cur.architectural.g, v := s.cur.architectural.v, p := s.cur.architectural.p
    badRows := s.cur.architectural.badRows, opBuf := t.settledOps, frozen := t.viq.length, shadow := t.viq
    viq := [], rq := [] }) := rfl

/-- Freezing: the queue is kept aside and empty, the registers take their architectural values. -/
theorem freeze_cur (s : State) : ∃ pend m n c rows ops, s.freeze.cur = { s.cur with
    pendSave := pend, mcheck := m, checks := n, ctl := { s.cur.ctl with chkcnt := c }, g := s.cur.architectural.g
    v := s.cur.architectural.v, p := s.cur.architectural.p, badRows := rows, opBuf := ops, frozen := s.cur.viq.length
    shadow := s.cur.viq, viq := [], rq := [] } := by
  obtain ⟨pend, m, n, c, h⟩ := saveNoted_putMany s.cur (recordPieces 0x7000 s.cur.viq) s
  refine ⟨pend, m, n, c, s.cur.architectural.badRows,
    (s.putMany s.cur (recordPieces 0x7000 s.cur.viq)).cur.settledOps, ?_⟩
  rw [freeze_eq, putRecords_eq_putMany, State.modCur, h]

theorem clearFault_eq (t : Strand) (i : TrapInfo) : ∃ q m, t.clearFault i = { t with viq := q, mcheck := m } ∧
    q.length = t.viq.length := by
  unfold Strand.clearFault
  split
  · exact ⟨_, t.mcheck, rfl, List.length_map _⟩
  · exact ⟨t.viq, none, rfl, rfl⟩

/-- The strand as a trap enters its handler: nothing queued, the trap record filled, the registers at their architectural
values (R135, R200). -/
structure InHandler (u t : Strand) (j : TrapInfo) : Prop where
  level : t.level = .kernel
  inHandler : t.inHandler = true
  viq : t.viq = []
  rq : t.rq = []
  frozen : t.frozen = u.viq.length
  pc : t.pc = u.ctl.trapvec
  tpc : t.ctl.tpc = u.pc
  taddr : t.ctl.taddr = j.addr
  tcause : t.ctl.tcause = BitVec.ofNat 64 j.tcause
  tviq : t.ctl.tviq = j.seq.setWidth 64
  telem : t.ctl.telem = BitVec.ofNat 64 j.elem
  g : t.g = (u.clearFault j).architectural.g
  v : t.v = (u.clearFault j).architectural.v
  p : t.p = (u.clearFault j).architectural.p
  trapNow : t.trapNow = t.ctl.tcause
  trapInfo : t.trapInfo = t.ctl.tinfo
  tinfo : t.ctl.tinfo = j.tinfo u.level

theorem inHandler_enterHandler (w : State) (j : TrapInfo) :
    InHandler w.cur ((w.modCur (fun t => t.clearFault j)).freeze.enterHandler j).cur j := by
  obtain ⟨pend, m, n, c, rows, ops, hfreeze⟩ := freeze_cur (w.modCur (fun t => t.clearFault j))
  obtain ⟨q, k, hclear, hlen⟩ := clearFault_eq w.cur j
  have hcur : (w.modCur (fun t => t.clearFault j)).cur = w.cur.clearFault j := rfl
  have henter (x : State) : (x.enterHandler j).cur = { x.cur with
      ctl := { x.cur.ctl with
        tcause := BitVec.ofNat 64 j.tcause, tpc := x.cur.pc, tviq := j.seq.setWidth 64, telem := BitVec.ofNat 64 j.elem
        taddr := j.addr, tinfo := j.tinfo x.cur.level }
      trapNow := BitVec.ofNat 64 j.tcause, trapInfo := j.tinfo x.cur.level
      level := .kernel, inHandler := true, pc := x.cur.ctl.trapvec, stalled := false, pause := .none } := rfl
  rw [henter, hfreeze, hcur]
  constructor
  case frozen => rw [hclear]; exact hlen
  case pc | tpc | tinfo => rw [hclear]
  all_goals rfl

theorem tinfo_eq (i : TrapInfo) (l : Level) :
    i.tinfo l = BitVec.ofNat 64 ((if l = .kernel then 2 ^ 63 else 0) + i.info.toNat) := by cases l <;> rfl

/-- With no machine check due and no recorded fault, the cause is the instruction's own (R199). -/
theorem chooseTrap_own {t : Strand} {i : TrapInfo} (hm : t.mcheck = none) (hd : t.dueFault = none) : chooseTrap t i = i := by
  rw [chooseTrap, hm, hd]

section

variable {s : State} {i : TrapInfo}

theorem takeTrap_held (hn : (s.drainStrand s.cur.key).cur.inHandler = false) (hv : (s.drainStrand s.cur.key).cur.viq ≠ [])
    (hh : (s.drainStrand s.cur.key).saveHeld (s.drainStrand s.cur.key).cur = true) :
    s.takeTrap i = waits (s.drainStrand s.cur.key) := by
  have hq : ((s.drainStrand s.cur.key).cur.viq != []) = true := bne_iff_ne.mpr hv
  unfold State.takeTrap
  simp only [hn, hq, hh, Bool.and_self, Bool.false_eq_true, if_false, if_true]
  rfl

/-! ### A strand with nothing queued -/

theorem chooseTrap_of_quiet (h : Quiet s) (i : TrapInfo) : chooseTrap s.cur i = i := by
  obtain ⟨-, hv, -, hm⟩ := h
  exact chooseTrap_own hm (by rw [Strand.dueFault, hv]; rfl)

/-- Freezing an empty queue writes no record. -/
theorem freeze_of_empty (hv : s.cur.viq = []) :
    s.freeze = { s with cur := { s.cur with frozen := 0, shadow := [], viq := [], rq := [] } } := by
  have harch : s.cur.architectural = s.cur := by rw [Strand.architectural, hv]; rfl
  have hops : s.cur.settledOps = s.cur.opBuf := by
    unfold Strand.settledOps
    split
    · next h => exact h.symm
    · rw [hv]; rfl
  rw [freeze_eq, hv, State.putRecords, harch, State.modCur, hops, hv]
  rfl

theorem clearFault_of_quiet (h : Quiet s) (hvec : i.vec = false) : s.cur.clearFault i = s.cur := by
  obtain ⟨-, -, -, hm⟩ := h
  rw [Strand.clearFault, hvec, if_neg (by decide), ← hm]

theorem takeTrap_of_quiet {cause : BitVec 8} {addr info : Nat} (h : Quiet s) (hn : s.cur.inHandler = false)
    (hinfo : info < 2 ^ 62) : s.takeTrap (scalarTrap cause addr info) = entered s cause.toNat (BitVec.ofNat 64 addr) info := by
  have hdrain := drainStrand_of_quiet h
  have hwrote : (scalarTrap cause addr info).info.toNat = info := Nat.mod_eq_of_lt hinfo
  have hinf := tinfo_eq (scalarTrap cause addr info) s.cur.level
  rw [hwrote] at hinf
  have hcause : (scalarTrap cause addr info).tcause = cause.toNat := Nat.zero_add _
  obtain ⟨-, hv, hq, -⟩ := id h
  rw [takeTrap_delivers (by rw [hdrain]; exact hn) (by rw [hdrain, hv]; rfl), hdrain, chooseTrap_of_quiet h, State.modCur,
    clearFault_of_quiet h rfl, freeze_of_empty hv, State.enterHandler, State.modCur]
  dsimp only
  rw [hinf, hcause, entered, ← hv, ← hq]
  rfl

/-! ### A trap in a handler (R201) -/

theorem takeTrap_double {cause : BitVec 8} {addr info : Nat} (h : Quiet s) (hn : s.cur.inHandler = true)
    (ht : s.transfers s.cur.key = false) : s.takeTrap (scalarTrap cause addr info) =
      s.endStrand s.cur.key (some (s.cur.trapNow.toNat % 512 + 0x1F * 2 ^ 16 + cause.toNat * 2 ^ 24)) := by
  have hdrain := drainStrand_of_quiet h
  rw [takeTrap_ends (by rw [hdrain]; exact hn) (by rw [hdrain]; exact ht), hdrain, chooseTrap_of_quiet h]
  rfl

theorem takeTrap_double_waits {cause : BitVec 8} {addr info : Nat} (h : Quiet s) (hn : s.cur.inHandler = true)
    (ht : s.transfers s.cur.key = true) : (s.takeTrap (scalarTrap cause addr info)).cur =
      { s.cur with mcheck := some (scalarTrap cause addr info), stalled := true } := by
  unfold State.takeTrap
  rw [drainStrand_of_quiet h]
  dsimp only
  rw [if_pos hn, if_pos ht, chooseTrap_of_quiet h]
  rfl

end

/-! ### `trap`, `brk` and `c.brk` (R350) -/

theorem exec_trap (n : BitVec 10) (s : State) : exec (.trap n) s = .next (s.takeTrap (scalarTrap 0x18 0 n.toNat)) := rfl

theorem exec_brk (n : BitVec 10) (s : State) : exec (.brk n) s = .next (s.takeTrap (scalarTrap 0x19 0 n.toNat)) := rfl

theorem exec_cBrk (n : BitVec 11) (s : State) : exec (.cBrk n) s = .next (s.takeTrap (scalarTrap 0x19 0 n.toNat)) := rfl

/-- Settles O10: the three instructions, the entry with nothing queued, the entry whatever is queued, and a trap in a handler. -/
theorem trapEntry : Obligations.TrapEntry := by
  unfold Obligations.TrapEntry
  have small {w : Nat} (hw : w ≤ 62) (n : BitVec w) : n.toNat < 2 ^ 62 :=
    Nat.lt_of_lt_of_le n.isLt (Nat.pow_le_pow_right (by decide) hw)
  refine ⟨⟨fun n s hq hn => ⟨?trap, ?brk⟩, fun n s hq hn => ?cBrk, fun n m s => ⟨exec_trap n s, exec_brk n s, exec_cBrk m s⟩⟩,
    fun s cause addr info hq hn hinfo => takeTrap_of_quiet hq hn hinfo, fun s i => ?entry,
    fun s cause addr info hq hn => ⟨takeTrap_double hq hn, takeTrap_double_waits hq hn⟩⟩
  case trap => exact congrArg Host.Outcome.next (takeTrap_of_quiet hq hn (small (by decide) n))
  case brk => exact congrArg Host.Outcome.next (takeTrap_of_quiet hq hn (small (by decide) n))
  case cBrk => exact congrArg Host.Outcome.next (takeTrap_of_quiet hq hn (small (by decide) n))
  case entry =>
    intro w u j t hn
    refine ⟨takeTrap_held hn, fun hgoes => ?_⟩
    have hwritten : (u.viq != [] && w.saveHeld u) = false := by
      rcases hgoes with hv | hh
      · rw [hv]
        rfl
      · rw [hh, Bool.and_false]
    have ht : t = (w.modCur (fun t => t.clearFault j)).freeze.enterHandler j := takeTrap_delivers hn hwritten
    obtain ⟨hlevel, hin, hviq, hrq, hfrozen, hpc, htpc, htaddr, htcause, htviq, htelem, hg, hv, hp, hnow, hinfo, htinfo⟩ :
        InHandler u t.cur j := ht ▸ inHandler_enterHandler w j
    exact ⟨hlevel, hin, hviq, hrq, hfrozen, hpc, htpc, htaddr, htcause, htviq, htelem, hg, hv, hp, hnow, hinfo,
      htinfo.trans (tinfo_eq j u.level), chooseTrap_own⟩

end Sys2Proof.Machine

/-! The engine ports (R126, R306, R308, R309): pushes, pops and counts of words. -/

namespace Sys2Proof.Machine

open Sys2Proof.Claims

section

variable {d p a : Reg} {s : State}

theorem exec_epush : exec (.epush p a) s = execEpush p a s := rfl
theorem exec_epop : exec (.epop d p) s = execEpop d p s := rfl
theorem exec_eavail : exec (.eavail d p) s = execEavail d p s := rfl

/-! ### Ports (R126) -/

theorem isPushPort_iff : isPushPort p = true ↔ p = 0 ∨ p = 2 := by simp [isPushPort]

theorem isPopPort_iff : isPopPort p = true ↔ p = 1 ∨ p = 3 ∨ 16 ≤ p.toNat := by simp [isPopPort, or_assoc]

/-- A stream port is no push port. -/
theorem isPushPort_stream (h : 16 ≤ p.toNat) : isPushPort p = false := by
  rw [Bool.eq_false_iff, Ne, isPushPort_iff]
  rintro (rfl | rfl) <;> exact absurd h (by decide)

/-! ### `epush` (R306) -/

theorem exec_epush_illegal (h0 : p ≠ 0) (h2 : p ≠ 2) : exec (.epush p a) s = s.illegal := by
  rw [exec_epush, execEpush, checked_bad]
  rw [Bool.eq_false_iff, Ne, isPushPort_iff]
  exact fun h => h.elim h0 h2

/-- The words of a push port. -/
def pushWords (t : Strand) (p : Reg) : List Word := if p = 0 then t.ports.e0 else t.ports.e2

/-- The module with one more word in a push port. -/
def pushed (s : State) (p : Reg) (x : Word) : State := { s with cur := { s.cur with ports :=
  if p = 0 then { s.cur.ports with e0 := pushWords s.cur p ++ [x] } else { s.cur.ports with e2 := pushWords s.cur p ++ [x] } } }

/-- Words that a command at the head of a push port has. -/
def commandWords (p : Reg) (ws : List Word) : Nat := if p = 0 then bteWords (ws.headD 0) else 4

theorem portFull_append (p : Reg) (ws : List Word) (x : Word) :
    portFull p (ws ++ [x]) = decide (commandWords p (ws ++ [x]) ≤ ws.length + 1) := by
  cases ws with
  | nil => rfl
  | cons w r => simp [portFull, commandWords]

theorem words_push (hp : p = 0 ∨ p = 2) (t : Strand) : t.ports.words p.toNat = pushWords t p := by
  rcases hp with rfl | rfl <;> rfl

theorem setPort_push (hp : p = 0 ∨ p = 2) (s : State) (x : Word) :
    s.modCur (fun t => t.setPort p (pushWords s.cur p ++ [x])) = pushed s p x := by
  rcases hp with rfl | rfl <;> rfl

/-- A push that no release and no earlier push holds back. -/
theorem exec_epush_push (hp : p = 0 ∨ p = 2) (hf : Free s [a]) (hr : s.cur.releaseWaits = false) (hpause : s.cur.pause ≠ .pushed) :
    exec (.epush p a) s =
      if 32 ≤ (pushWords s.cur p).length then .next (waits s)
      else if commandWords p (pushWords s.cur p ++ [s.g a]) ≤ (pushWords s.cur p).length + 1 then
        .next (waits (paused (pushed s p (s.g a)) .pushed))
      else .next (moved (pushed s p (s.g a)) 4) := by
  have hwaits : (s.cur.pause = .pushed ∨ s.cur.releaseWaits = true ∨ 32 ≤ (pushWords s.cur p).length) ↔
      32 ≤ (pushWords s.cur p).length := by simp [hpause, hr]
  have hset := setPort_push hp s (s.g a)
  rw [exec_epush, execEpush, checked_ok (isPushPort_iff.mpr hp), withRegs_free (any_pendingG_of_free hf)]
  dsimp only
  rw [words_push hp, portFull_append]
  simp only [hwaits, decide_eq_true_eq]
  rw [← hset]
  rfl

/-! ### `epop` (R306) -/

theorem exec_epop_illegal (h1 : p ≠ 1) (h3 : p ≠ 3) (h16 : p.toNat < 16) : exec (.epop d p) s = s.illegal := by
  rw [exec_epop, execEpop, checked_bad]
  rw [Bool.eq_false_iff, Ne, isPopPort_iff]
  exact fun h => h.elim h1 (fun h => h.elim h3 (by omega))

theorem exec_epop_empty (hp : p = 1 ∨ p = 3 ∨ 16 ≤ p.toNat) (hf : Free s [d]) (h : s.cur.pop p = none) :
    exec (.epop d p) s = .next (waits s) := by
  rw [exec_epop, execEpop, checked_ok (isPopPort_iff.mpr hp), withRegs_free (any_pendingG_of_free hf), h]
  rfl

theorem exec_epop_pops {w : Word} {t : Strand} (hp : p = 1 ∨ p = 3 ∨ 16 ≤ p.toNat) (hf : Free s [d])
    (h : s.cur.pop p = some (w, t)) : exec (.epop d p) s = .next (wrote { s with cur := t } d w 4).giveAll := by
  rw [exec_epop, execEpop, checked_ok (isPopPort_iff.mpr hp), withRegs_free (any_pendingG_of_free hf), h]
  dsimp only
  rw [retire_eq_wrote]
  rfl

theorem pop_words (h : p.toNat < 16) (t : Strand) : t.pop p =
    match t.ports.words p.toNat with
    | [] => none
    | w :: r => some (w, t.setPort p r) := if_pos h

theorem waiting_stream (h : 16 ≤ p.toNat) (t : Strand) : t.waiting p = (streamHead (sget [] t.ports.streams p.toNat)).1.length / 8 :=
  if_neg (by omega)

theorem pop_stream_short (h : 16 ≤ p.toNat) {t : Strand}
    (hshort : (streamHead (sget [] t.ports.streams p.toNat)).1.length < 8) : t.pop p = none := by
  rw [Strand.pop, if_neg (by omega), waiting_stream h, if_pos (Nat.div_eq_of_lt hshort)]

theorem pop_stream_word (h : 16 ≤ p.toNat) {t : Strand}
    (hword : 8 ≤ (streamHead (sget [] t.ports.streams p.toNat)).1.length) : t.pop p =
      some (BitVec.ofNat 64 (leNat ((streamHead (sget [] t.ports.streams p.toNat)).1.take 8)), { t with ports := { t.ports with
        streams := sset [] t.ports.streams p.toNat ((sget [] t.ports.streams p.toNat).drop 8) } }) := by
  rw [Strand.pop, if_neg (by omega), waiting_stream h, if_neg (by omega)]
  rfl

/-! ### `eavail` (R306) -/

theorem exec_eavail_illegal (h4 : 4 ≤ p.toNat) (h16 : p.toNat < 16) : exec (.eavail d p) s = s.illegal := by
  have hport : (isPushPort p || isPopPort p) = false := by
    rw [Bool.eq_false_iff, Ne, Bool.or_eq_true, isPushPort_iff, isPopPort_iff]
    rintro ((rfl | rfl) | rfl | rfl | h)
    · exact absurd h4 (by decide : ¬ 4 ≤ (0 : Reg).toNat)
    · exact absurd h4 (by decide : ¬ 4 ≤ (2 : Reg).toNat)
    · exact absurd h4 (by decide : ¬ 4 ≤ (1 : Reg).toNat)
    · exact absurd h4 (by decide : ¬ 4 ≤ (3 : Reg).toNat)
    · omega
  rw [exec_eavail, execEavail, checked_bad hport]

theorem exec_eavail_counts (hport : (isPushPort p || isPopPort p) = true) (hf : Free s [d]) : exec (.eavail d p) s =
    .next (wrote s d (BitVec.ofNat 64
      (if isPushPort p then 32 - (s.cur.ports.words p.toNat).length else s.cur.waiting p)) 4) := by
  rw [exec_eavail, execEavail, checked_ok hport, withRegs_free (any_pendingG_of_free hf), retire_eq_wrote]
  rfl

theorem exec_eavail_stream (h : 16 ≤ p.toNat) (hf : Free s [d]) : exec (.eavail d p) s = .next (wrote s d
    (BitVec.ofNat 64 ((streamHead (sget [] s.cur.ports.streams p.toNat)).1.length / 8)) 4) := by
  have hport : (isPushPort p || isPopPort p) = true := by
    rw [isPopPort_iff.mpr (.inr (.inr h)), Bool.or_true]
  rw [exec_eavail_counts hport hf, isPushPort_stream h, waiting_stream h]
  rfl

end

/-- Settles O21: `epush` by what it waits for and whether the word completes a command, `epop` by what waits in its port, `eavail`
port by port. -/
theorem enginePortResults : Obligations.EnginePortResults := by
  unfold Obligations.EnginePortResults
  refine ⟨fun p a s => exec_epush_illegal, fun p a s hp hf hr hpause => ⟨fun hfull => ?full, fun hroom hmore => ?part,
    fun hroom hneed => ?whole⟩, fun d p s => exec_epop_illegal, fun d p w r s hf => ⟨?empty1, ?empty3, ?word1, ?word3⟩,
    fun d p s hf hp => ⟨fun hword => ?stream, fun hshort => ?short⟩,
    fun d p s hf => ⟨?count0, ?count2, ?count1, ?count3, fun hp => exec_eavail_stream hp hf, exec_eavail_illegal⟩⟩
  case full => rw [exec_epush_push hp hf hr hpause]; exact if_pos hfull
  case part =>
    rw [exec_epush_push hp hf hr hpause]
    exact (if_neg (Nat.not_le.mpr hroom)).trans (if_neg (Nat.not_le.mpr hmore))
  case whole =>
    rw [exec_epush_push hp hf hr hpause]
    exact (if_neg (Nat.not_le.mpr hroom)).trans (if_pos hneed)
  case empty1 =>
    rintro rfl h
    exact exec_epop_empty (.inl rfl) hf (by rw [pop_words (by decide)]; simp [Ports.words, h])
  case empty3 =>
    rintro rfl h
    exact exec_epop_empty (.inr (.inl rfl)) hf (by rw [pop_words (by decide)]; simp [Ports.words, h])
  case word1 =>
    rintro rfl h
    refine exec_epop_pops (.inl rfl) hf ?_
    rw [pop_words (by decide), show s.cur.ports.words (1 : Reg).toNat = w :: r from h]
    rfl
  case word3 =>
    rintro rfl h
    refine exec_epop_pops (.inr (.inl rfl)) hf ?_
    rw [pop_words (by decide), show s.cur.ports.words (3 : Reg).toNat = w :: r from h]
    rfl
  case stream => exact exec_epop_pops (.inr (.inr hp)) hf (pop_stream_word hp hword)
  case short => exact exec_epop_empty (.inr (.inr hp)) hf (pop_stream_short hp hshort)
  case count0 | count2 | count1 | count3 =>
    rintro rfl
    rw [exec_eavail_counts rfl hf]
    rfl

end Sys2Proof.Machine

/-! Flags of a list of results, and sparse tables written key by key. -/

namespace Sys2Proof.Machine

open Sys2Proof.Claims

/-! ### Flags -/

theorem orFl_map_range {α : Type} (n : Nat) (f : Nat → Fl α) : orFl ((List.range n).map f) = flagsTo n f := List.foldl_map

theorem flagsTo_congr {α β : Type} {n : Nat} {f : Nat → α × BitVec 5} {g : Nat → β × BitVec 5} (h : ∀ i < n, (f i).2 = (g i).2) :
    flagsTo n f = flagsTo n g :=
  List.foldl_ext _ _ _ fun _ i hi => by rw [h i (List.mem_range.mp hi)]

theorem flagsTo_succ {α : Type} (n : Nat) (f : Nat → α × BitVec 5) : flagsTo (n + 1) f = flagsTo n f ||| (f n).2 := by
  rw [flagsTo, List.range_succ, List.foldl_append]
  rfl

theorem nth_map_range {n i : Nat} (h : i < n) (f : Nat → Fl Nat) : nth ((List.range n).map f) i = (f i).1 := by
  simp [nth, List.getD_eq_getElem?_getD, h]

/-- Where each of some elements gives one write or none, the writes are those of the elements that give one. -/
theorem flatten_map_ite {α β : Type} (p : α → Prop) [DecidablePred p] (g : α → β) (l : List α) :
    (l.map (fun i => if p i then [g i] else [])).flatten = (l.filter (fun i => decide (p i))).map g := by
  induction l with
  | nil => rfl
  | cons i l ih =>
    by_cases h : p i
    · simp [h, ih]
    · simp [h, ih]

/-! ### A sparse table of words after some writes -/

section

variable {α : Type} [DecidableEq α] {d : α} {is : List Nat} {key : Nat → Nat} {f : Nat → α}

/-- A table after one write for each of some numbers. -/
def written (d : α) (m : Sparse α) (is : List Nat) (key : Nat → Nat) (f : Nat → α) : Sparse α :=
  is.foldl (fun m i => sset d m (key i) (f i)) m

theorem swf_written {m : Sparse α} (hm : swf (fun _ => d) none m = true) : swf (fun _ => d) none (written d m is key f) = true := by
  induction is generalizing m with
  | nil => exact hm
  | cons i is ih => exact ih (swf_sset (d := fun _ => d) hm rfl _)

theorem sget_written_other {j : Nat} (h : ∀ i ∈ is, key i ≠ j) (m : Sparse α) : sget d (written d m is key f) j = sget d m j := by
  induction is generalizing m with
  | nil => rfl
  | cons i is ih =>
    exact (ih (fun x hx => h x (.tail _ hx)) _).trans (sget_sset_other (Ne.symm (h i (.head _))) m _)

/-- Keys of their own keep what was written at them. -/
theorem sget_written_same {m : Sparse α} (hm : swf (fun _ => d) none m = true) (hnodup : is.Nodup)
    (hkey : ∀ x ∈ is, ∀ y ∈ is, key x = key y → x = y) {i : Nat} (hi : i ∈ is) : sget d (written d m is key f) (key i) = f i := by
  induction is generalizing m with
  | nil => exact absurd hi List.not_mem_nil
  | cons x is ih =>
    obtain ⟨hx, hnodup⟩ := List.nodup_cons.mp hnodup
    rcases List.mem_cons.mp hi with rfl | hi
    · have hlater : ∀ y ∈ is, key y ≠ key i := fun y hy hyx => hx (hkey y (.tail _ hy) i (.head _) hyx ▸ hy)
      exact (sget_written_other hlater (sset d m (key i) (f i))).trans (sget_sset_same (d := fun _ => d) hm _ _)
    · exact ih (swf_sset (d := fun _ => d) hm rfl _) hnodup (fun a ha b hb => hkey a (.tail _ ha) b (.tail _ hb)) hi

end

theorem toNat_wNat (x : Nat) : (wNat x).toNat = x % 2 ^ 64 := BitVec.toNat_ofNat x 64

end Sys2Proof.Machine

/-! Sums, lines and appends of the orthogonal unit (R338, R339, R341, R345). -/

namespace Sys2Proof.Machine

open Sys2Proof.Claims

/-! ### The tree of a dot product (R339) -/

section

variable {f : Fmt} {x y x' y' : Nat → Nat} {is : List Nat}

theorem joinFl_nodes (n j : Nat) :
    joinFl f (dotNode f x y is n (2 * j)) (dotNode f x y is n (2 * j + 1)) = dotNode f x y is (n + 1) j := by
  rw [dotNode]
  cases dotNode f x y is n (2 * j) with
  | none => cases dotNode f x y is n (2 * j + 1) <;> rfl
  | some a => cases dotNode f x y is n (2 * j + 1) <;> rfl

theorem levelFl_range (k : Nat) (g : Nat → Option (Fl Nat)) : levelFl f ((List.range (2 * k)).map g) =
    (List.range k).map (fun j => joinFl f (g (2 * j)) (g (2 * j + 1))) := by
  induction k generalizing g with
  | zero => rfl
  | succ k ih =>
    have h2 : 2 * (k + 1) = 2 * k + 1 + 1 := by omega
    rw [h2, List.range_succ_eq_map, List.range_succ_eq_map, List.range_succ_eq_map]
    simp only [List.map_cons, List.map_map, levelFl]
    exact congrArg (List.cons _) (ih (fun j => g (j + 1 + 1)))

theorem levelFl_nodes (k n : Nat) : levelFl f ((List.range (2 * k)).map (dotNode f x y is n)) =
    (List.range k).map (dotNode f x y is (n + 1)) := by
  rw [levelFl_range]
  exact List.map_congr_left fun j _ => joinFl_nodes n j

theorem dot_eq_dotOf (f : Fmt) (x y : Nat → Nat) (is : List Nat) : dot f x y is = dotOf f x y is := by
  have hleaf : (List.range 16).map (fun j => dotPartial f x y (is.filter (fun i => i % 16 == j))) =
      (List.range (2 * 8)).map (dotNode f x y is 0) := rfl
  rw [dot, hleaf, levelFl_nodes, show 8 = 2 * 4 from rfl, levelFl_nodes, show 4 = 2 * 2 from rfl, levelFl_nodes,
    show 2 = 2 * 1 from rfl, levelFl_nodes]
  rfl

/-- A dot product looks at its index set alone. -/
theorem dotNode_congr (h : ∀ i ∈ is, x i = x' i ∧ y i = y' i) (n j : Nat) : dotNode f x y is n j = dotNode f x' y' is n j := by
  induction n generalizing j with
  | zero =>
    rw [dotNode, dotNode]
    congr 2
    refine List.foldl_ext _ _ _ fun p i hi => ?_
    obtain ⟨hx, hy⟩ := h i (List.mem_of_mem_filter hi)
    rw [hx, hy]
  | succ n ih => rw [dotNode, dotNode, ih, ih]

theorem dotOf_congr (h : ∀ i ∈ is, x i = x' i ∧ y i = y' i) : dotOf f x y is = dotOf f x' y' is := by
  rw [dotOf, dotNode_congr h, dotOf]

end

/-! ### Lines (R339, R345) -/

section

variable {o : Orth} {tra : Bool} {x x' w w' : Nat → Nat}

theorem project_eq (o : Orth) (x : Nat → Nat) : o.project x = (List.range o.k.toNat).map (onColumn o x) :=
  List.map_congr_left fun _ _ => dot_eq_dotOf _ _ _ _

theorem onColumn_congr (h : ∀ i < o.n.toNat, x i = x' i) : onColumn o x = onColumn o x' :=
  funext fun _ => dotOf_congr fun i hi => ⟨rfl, h i (List.mem_range.mp hi)⟩

theorem filter_le_range {k i : Nat} (h : i < k) : (List.range k).filter (fun l => decide (l ≤ i)) = List.range (i + 1) := by
  obtain ⟨j, rfl⟩ : ∃ j, k = i + 1 + j := ⟨k - (i + 1), by omega⟩
  rw [List.range_add, List.filter_append, List.filter_eq_self.mpr, List.filter_eq_nil_iff.mpr, List.append_nil]
  · intro l hl
    obtain ⟨m, -, rfl⟩ := List.mem_map.mp hl
    simp
    omega
  · intro l hl
    have hlt := List.mem_range.mp hl
    simp
    omega

theorem drop_range (k i : Nat) : (List.range k).drop i = (List.range (k - i)).map (i + ·) := by
  refine List.ext_getElem (by simp) fun j h _ => ?_
  simp

theorem filter_ge_range (k i : Nat) : (List.range k).filter (fun l => decide (i ≤ l)) = (List.range k).drop i := by
  by_cases h : i ≤ k
  · obtain ⟨j, rfl⟩ : ∃ j, k = i + j := ⟨k - i, by omega⟩
    rw [drop_range, List.range_add, List.filter_append, List.filter_eq_nil_iff.mpr, List.filter_eq_self.mpr]
    · simp
    · intro l hl
      obtain ⟨m, -, rfl⟩ := List.mem_map.mp hl
      simp
    · intro l hl
      have hlt := List.mem_range.mp hl
      simp
      omega
  · rw [List.drop_eq_nil_of_le (by simp; omega), List.filter_eq_nil_iff]
    intro l hl
    have hlt := List.mem_range.mp hl
    simp
    omega

theorem tri_eq (o : Orth) (tra : Bool) (w : Nat → Nat) : tri o tra w = (List.range o.k.toNat).map (triangular o tra w) := by
  refine List.map_congr_left fun i hi => ?_
  unfold triangular
  cases tra with
  | true => simp only [if_true, filter_le_range (List.mem_range.mp hi)]; rfl
  | false => simp only [Bool.false_eq_true, if_false, filter_ge_range]; rfl

theorem triangular_congr (h : ∀ l < o.k.toNat, w l = w' l) : triangular o tra w = triangular o tra w' :=
  funext fun _ => List.foldl_ext _ _ _ fun _ l hl => by rw [h l (List.mem_range.mp (List.mem_of_mem_filter hl))]

theorem turned_congr (h : ∀ i < o.n.toNat, x i = x' i) : turned o tra x = turned o tra x' := by
  rw [turned, onColumn_congr h, turned]

theorem tri_project (o : Orth) (tra : Bool) (x : Nat → Nat) :
    tri o tra (nth (o.project x)) = (List.range o.k.toNat).map (turned o tra x) := by
  rw [tri_eq, project_eq, triangular_congr fun l hl => nth_map_range hl _]
  rfl

theorem transformed_congr (h : ∀ i < o.n.toNat, x i = x' i) {r : Nat} (hr : r < o.n.toNat) :
    transformed o tra x r = transformed o tra x' r := by
  rw [transformed, turned_congr h, h r hr, transformed]

theorem lineFlags_congr (h : ∀ i < o.n.toNat, x i = x' i) : lineFlags o tra x = lineFlags o tra x' := by
  rw [lineFlags, onColumn_congr h, turned_congr h, flagsTo_congr fun r hr => congrArg Prod.snd (transformed_congr h hr), lineFlags]

theorem apply_eq (o : Orth) (tra : Bool) (x : Nat → Nat) :
    o.apply tra x = ((List.range o.n.toNat).map (fun r => (transformed o tra x r).1), lineFlags o tra x) := by
  have hout : (List.range o.n.toNat).map (fun r => (List.range o.k.toNat).foldl (fun p i =>
      fmaStep o.fmt true (o.vAt i r) (nth ((List.range o.k.toNat).map (turned o tra x)) i) p) (x r, 0)) =
      (List.range o.n.toNat).map (transformed o tra x) :=
    List.map_congr_left fun r _ => List.foldl_ext _ _ _ fun p i hi => by rw [nth_map_range (List.mem_range.mp hi)]; rfl
  rw [Orth.apply]
  rw [tri_project, hout, project_eq, orFl_map_range, orFl_map_range, orFl_map_range, List.map_map]
  rfl

end

/-! ### Appends (R341) -/

section

variable {o : Orth} {l : List Nat} {v : Nat → Nat} {tau : Nat}

theorem signBit_fmt (o : Orth) : o.fmt.signBit = o.fmt.width - 1 := by
  unfold Orth.fmt
  split <;> rfl

theorem bias_fmt (o : Orth) : o.fmt.bias = 2 ^ (o.fmt.ebits - 1) - 1 := by
  unfold Orth.fmt
  split <;> rfl

/-- The accumulator after an append, each table written key by key. -/
theorem append_eq (hl : ∀ r < o.n.toNat, l.getD r 0 = v r) : o.append l tau = ({ o with
    t := sset 0 (written 0 o.t (List.range o.k.toNat) (fun i => 32 * i + o.k.toNat) (fun i => wNat (coupling o v tau i).1))
      (32 * o.k.toNat + o.k.toNat) (wNat tau)
    v := written 0 o.v (List.range o.n.toNat) (fun r => 512 * o.k.toNat + r) (fun r => wNat (v r)), k := o.k + 1 },
    appendFlags o v tau) := by
  have hcol : (List.range o.k.toNat).map (fun i => fmulN o.fmt Rm.rne (tau ^^^ 2 ^ o.fmt.signBit)
      (nth ((List.range o.k.toNat).map (turned o false v)) i)) = (List.range o.k.toNat).map (coupling o v tau) :=
    List.map_congr_left fun i hi => by rw [nth_map_range (List.mem_range.mp hi), signBit_fmt]; rfl
  have hproject : o.project (fun r => l.getD r 0) = o.project v := by rw [project_eq, project_eq, onColumn_congr hl]
  have ht : (List.range o.k.toNat).foldl (fun t i => sset (0 : Word) t (32 * i + o.k.toNat)
      (wNat (nth ((List.range o.k.toNat).map (coupling o v tau)) i))) o.t =
      written 0 o.t (List.range o.k.toNat) (fun i => 32 * i + o.k.toNat) (fun i => wNat (coupling o v tau i).1) :=
    List.foldl_ext _ _ _ fun m i hi => by rw [nth_map_range (List.mem_range.mp hi)]
  have hv : (List.range o.n.toNat).foldl (fun m r => sset (0 : Word) m (512 * o.k.toNat + r) (wNat (l.getD r 0))) o.v =
      written 0 o.v (List.range o.n.toNat) (fun r => 512 * o.k.toNat + r) (fun r => wNat (v r)) :=
    List.foldl_ext _ _ _ fun m r hr => by rw [hl r (List.mem_range.mp hr)]
  rw [Orth.append]
  rw [hproject, tri_project, hcol, ht, hv, project_eq, orFl_map_range, orFl_map_range, orFl_map_range]
  rfl

theorem append_flags (hl : ∀ r < o.n.toNat, l.getD r 0 = v r) : (o.append l tau).2 = appendFlags o v tau := by rw [append_eq hl]

theorem append_appended (hl : ∀ r < o.n.toNat, l.getD r 0 = v r) : appended o v tau (o.append l tau).1 := by
  rw [append_eq hl]
  refine ⟨rfl, fun hk hn hwv hwt => ⟨fun c r hr => ?_, fun i j hj => ?_⟩⟩
  · rw [Orth.vAt, Orth.vAt]
    dsimp only
    split
    case isTrue h =>
      obtain ⟨rfl, hr⟩ := h
      have h := sget_written_same (key := fun r => 512 * o.k.toNat + r) (f := fun r => wNat (v r)) hwv List.nodup_range
        (fun x _ y _ hxy => by simpa using hxy) (List.mem_range.mpr hr)
      rw [h, toNat_wNat]
    case isFalse h =>
      rw [sget_written_other]
      intro i hi hkey
      have hi := List.mem_range.mp hi
      exact h ⟨by omega, by omega⟩
  · rw [Orth.tAt, Orth.tAt]
    dsimp only
    have hdiag := swf_written (is := List.range o.k.toNat) (key := fun i => 32 * i + o.k.toNat)
      (f := fun i => wNat (coupling o v tau i).1) hwt
    split
    case isTrue h =>
      obtain ⟨rfl, hi⟩ := h
      rw [sget_sset_other (by omega)]
      have h := sget_written_same (key := fun i => 32 * i + o.k.toNat) (f := fun i => wNat (coupling o v tau i).1) hwt
        List.nodup_range (fun x _ y _ hxy => by omega) (List.mem_range.mpr hi)
      rw [h, toNat_wNat]
    case isFalse h =>
      split
      case isTrue h' =>
        obtain ⟨rfl, rfl⟩ := h'
        have h := sget_sset_same (d := fun _ => (0 : Word)) hdiag (32 * o.k.toNat + o.k.toNat) (wNat tau)
        rw [h, toNat_wNat]
      case isFalse h' =>
        rw [sget_sset_other (fun hkey => h' ⟨by omega, by omega⟩), sget_written_other]
        intro m hm hkey
        have hm := List.mem_range.mp hm
        exact h ⟨by omega, by omega⟩

end

end Sys2Proof.Machine

/-! Steps of the orthogonal unit (R125, R207, R338 to R348). -/

namespace Sys2Proof.Machine

open Sys2Proof.Claims

/-! ### Vectors in and out (R338) -/

section

variable {e : VEnv} {o : Orth} {d a : Reg}

theorem vecIn_eq (e : VEnv) (o : Orth) (a : Reg) : vecIn e o a = (List.range o.n.toNat).map (Claims.lineIn e o a) := rfl

theorem nth_vecIn {i : Nat} (h : i < o.n.toNat) : nth (vecIn e o a) i = (Claims.lineIn e o a i).1 := nth_map_range h _

theorem getD_vecIn {i : Nat} (h : i < o.n.toNat) : ((vecIn e o a).map (fun x => x.1)).getD i 0 = (Claims.lineIn e o a i).1 := by
  rw [vecIn_eq, List.map_map]
  simp [List.getD_eq_getElem?_getD, h]

theorem vecKeeps_eq (e : VEnv) (d a : Reg) (is : List Nat) : (is.map (vecKeep e d a)).flatten = lineSame e d a is :=
  flatten_map_ite (fun i => i < e.top) _ is

theorem vecOuts_writes (is : List Nat) (f : Nat → Nat) : (vecOuts e o d (is.map (fun i => (i, f i)))).1 = lineOut e o d is f := by
  rw [vecOuts]
  simp only [List.map_map]
  exact flatten_map_ite (fun i => i < e.top) _ is

theorem vecOuts_flags (is : List Nat) (f : Nat → Nat) : (vecOuts e o d (is.map (fun i => (i, f i)))).2 =
    is.foldl (fun x i => x ||| (carried o.fmt e.fmt (f i)).2) 0 := by
  rw [vecOuts, orFl]
  simp only [List.map_map, List.foldl_map]
  rfl

theorem vecOuts_range_flags (n : Nat) (f : Nat → Nat) :
    (vecOuts e o d ((List.range n).map (fun i => (i, f i)))).2 = flagsTo n (fun i => carried o.fmt e.fmt (f i)) :=
  vecOuts_flags _ f

theorem vecOuts_drop_flags (n p : Nat) (f : Nat → Nat) :
    (vecOuts e o d (((List.range n).drop p).map (fun i => (i, f i)))).2 =
      flagsTo (n - p) (fun j => carried o.fmt e.fmt (f (p + j))) := by
  rw [vecOuts_flags, drop_range, List.foldl_map, flagsTo]

end

/-! ### Lines in memory (R205, R344) -/

theorem vReads_length {s : State} {t : Strand} {view : Memory} {k : BitVec 3} {n : Nat} {vas : List Word} {xs : List Nat}
    (h : vReads s t view k n vas = .ok xs) : xs.length = vas.length := by
  induction vas generalizing xs with
  | nil => cases h; rfl
  | cons va vas ih =>
    rw [vReads] at h
    split at h
    · cases h
    · split at h
      · cases h
      · next hys =>
        cases h
        rw [List.length_cons, List.length_cons, ih hys]

section

variable {r : OEnv} {o : Orth} {i : Instr} {k : BitVec 3} {base : Word} {tra last : Bool}

/-- The addresses of a line's elements. -/
def lineAddresses (o : Orth) (base : Word) : List Word := (List.range o.n.toNat).map (fun j => base + wNat (j * o.bytes))

/-- A line's step once its elements are read. -/
def lineRead (r : OEnv) (o : Orth) (k : BitVec 3) (base : Word) (tra last : Bool) (xs : List Nat) : OStep :=
  { orth := o, fl := lineFlags o tra (fun j => xs.getD j 0), gs := 0, pin := k, bytes := o.bytes
    stores := (List.range o.n.toNat).map (fun j => (65536 * r.step + j, base + wNat (j * o.bytes),
      (transformed o tra (fun j => xs.getD j 0) j).1))
    reads := [(k, o.bytes, lineAddresses o base)], writes := [], part := .line, last := last }

theorem lineStep_error {x : Stop} (h : vReads r.s r.t r.view k o.bytes (lineAddresses o base) = .error x) :
    lineStep r o k base tra = .error x := by
  rw [lineAddresses] at h
  rw [lineStep]
  simp only [h]

theorem lineStep_ok {xs : List Nat} (h : vReads r.s r.t r.view k o.bytes (lineAddresses o base) = .ok xs) :
    lineStep r o k base tra = .ok (lineRead r o k base tra false xs) := by
  rw [lineAddresses] at h
  rw [lineStep]
  simp only [h, apply_eq]
  rw [lineRead, lineAddresses]
  refine congrArg (fun l => Except.ok { lineRead r o k base tra false xs with stores := l }) (List.ext_getElem ?_ fun j _ _ => ?_)
  · simp
  · simp [Nat.mul_comm]

theorem lineStep_last {z : OStep} (h : lineStep r o k base tra = .ok z) : z.last = false := by
  rw [lineStep] at h
  split at h
  · cases h
  · cases h
    rfl

/-- An instruction whose step is that of a line, or stops as it does. -/
theorem lineMoves_of_lineStep
    (hstop : ∀ x, lineStep r o k base tra = .error x → orthStep r o i = .error x)
    (hgo : ∀ z, lineStep r o k base tra = .ok z → orthStep r o i = .ok { z with last := last }) :
    lineMoves r o i k base tra last :=
  ⟨fun _ h => hstop _ (lineStep_error h),
    fun xs h => ⟨lineRead r o k base tra last xs, hgo _ (lineStep_ok h), rfl, rfl, rfl, rfl, rfl, rfl, rfl, rfl, rfl⟩⟩

theorem targetLines_eq (o : Orth) : o.targetLines = targetCount o := by
  unfold Orth.targetLines Orth.hasTarget targetCount
  by_cases hs : o.bside = 3
  · simp [hs]
  · by_cases hp : o.bpin = 0
    · simp [hp]
    · by_cases hc : o.bcols = 0
      · simp [hc]
      · simp_all

theorem targetMoves_of_targetStep (h : orthStep r o i = targetStep r o r.step) : targetMoves r o i := by
  refine lineMoves_of_lineStep (fun x hx => h.trans hx) (fun z hz => h.trans (hz.trans ?_))
  rw [← lineStep_last hz]

/-! ### Words stored in a row (R342, R347) -/

theorem wordStores_eq (step : Nat) (base : Word) (ws : List Nat) : wordStores step base ws = storesAt step base ws := by
  refine List.ext_getElem (by simp [wordStores, storesAt]) fun j h _ => ?_
  have hj : j < ws.length := by simpa [wordStores] using h
  simp [wordStores, storesAt, wNat, Nat.mul_comm, hj]

theorem logStep_recorded (r : OEnv) (o : Orth) : recorded r o (logStep r o) :=
  ⟨rfl, rfl, rfl, rfl, rfl, rfl, rfl, rfl, wordStores_eq _ _ _⟩

end

/-! ### The capacity rule (R341, R342) -/

section

variable {r : OEnv} {q : BitVec 1} {o : Orth} {i : Instr} {form : Orth → OStep} {formed : Orth → OStep → Prop}

theorem capped_below (hlog : r.logged = false) (hk : o.k ≠ o.cap) : capped r q o form = .ok (form o) := by
  simp [capped, hlog, hk]

theorem capped_trap (hlog : r.logged = false) (hk : o.k = o.cap) (hpol : o.pol = 0#2) :
    capped r q o form = .error (.trap cOQCAP 0 q.toNat) := by
  simp [capped, hlog, hk, hpol, capStop]

theorem capped_full (hlog : r.logged = false) (hk : o.k = o.cap) (hpol : o.pol ≠ 0#2) (hfull : o.lcount = o.lmax) :
    capped r q o form = .error (.trap cOQCAP 0 (q.toNat + 2)) := by
  simp [capped, hlog, hk, hpol, hfull, capStop]

theorem capped_log (hlog : r.logged = false) (hk : o.k = o.cap) (hpol : o.pol ≠ 0#2) (hroom : o.lcount ≠ o.lmax) :
    capped r q o form = .ok (logStep r o) := by
  simp [capped, hlog, hk, hpol, hroom]

theorem capped_target (hlog : r.logged = true) (h : r.step < targetCount o) : capped r q o form = targetStep r o r.step := by
  simp [capped, hlog, targetLines_eq, h]

theorem capped_retired (hlog : r.logged = true) (h : targetCount o ≤ r.step) :
    capped r q o form = .ok { form o.empty with gs := (form o.empty).gs ||| gRETIRED } := by
  simp [capped, hlog, targetLines_eq, Nat.not_lt.mpr h]

/-- An instruction under the capacity rule whose last step forms what is claimed, whatever bits of GSTAT stand with it. -/
theorem capacity_of_capped (hi : orthStep r o i = capped r q o form)
    (hform : ∀ (o' : Orth) gs, o'.n = o.n → formed o' { form o' with gs := gs }) (hgs : ∀ o', (form o').gs = 0) :
    capacity r q o i formed := by
  rw [capacity, hi]
  refine ⟨fun hlog => ⟨fun hk => ⟨form o, capped_below hlog hk, hform o (form o).gs rfl, hgs o⟩, capped_trap hlog,
    capped_full hlog, fun hk hpol hroom => ⟨logStep r o, capped_log hlog hk hpol hroom, logStep_recorded r o⟩⟩,
    fun hlog => ⟨fun h => targetMoves_of_targetStep (hi.trans (capped_target hlog h)),
      fun h => ⟨_, capped_retired hlog h, hform o.empty _ rfl, ?_⟩⟩⟩
  simp only [hgs]
  rfl

end

end Sys2Proof.Machine

/-! What each orthogonal instruction comes to (R340 to R348). -/

namespace Sys2Proof.Machine

open Sys2Proof.Claims

/-! ### `oqacc` (R341) -/

theorem oqaccForm_fl (r : OEnv) (a : Reg) (o : Orth) : (oqaccForm r a o).fl = flagsTo o.n.toNat (Claims.lineIn r.e o a) |||
    (tauIn r.e o).2 ||| appendFlags o (fun i => (Claims.lineIn r.e o a i).1) (tauIn r.e o).1 := by
  rw [← append_flags fun i hi => getD_vecIn (e := r.e) (a := a) hi, ← orFl_map_range]
  rfl

theorem oqaccForm_appended (r : OEnv) (a : Reg) (o : Orth) :
    appended o (fun i => (Claims.lineIn r.e o a i).1) (tauIn r.e o).1 (oqaccForm r a o).orth :=
  append_appended fun _ hi => getD_vecIn hi

/-! ### `oqhh` (R343) -/

/-- β's sign: opposite to α's, a zero α counting as positive. -/
theorem withSign_eq_oppositeSign (o : Orth) (x alpha : Nat) :
    withSign o.fmt (!(signOf o.fmt alpha) || isZeroN o.fmt alpha) x = oppositeSign o.fmt x alpha := by
  unfold withSign oppositeSign signOf isZeroN
  rw [signBit_fmt]
  split
  · rfl
  · by_cases hs : alpha.testBit (o.fmt.width - 1) = true
    · by_cases hz : alpha % 2 ^ (o.fmt.width - 1) = 0
      · simp [hs, hz]
      · simp [hs, hz]
    · simp [hs]

section

variable (r : OEnv) (d a : Reg) (p : Nat) (o : Orth)

/-- An element of x in the accumulator's format, the sum of squares behind the pivot, and 1 (R343). -/
def hhIn (i : Nat) : Nat := (Claims.lineIn r.e o a i).1
def hhSum : Nat × BitVec 5 :=
  dotOf o.fmt (hhIn r a o) (hhIn r a o) ((List.range o.n.toNat).filter (fun i => decide (p < i)))
def hhOne : Nat := (2 ^ (o.fmt.ebits - 1) - 1) * 2 ^ o.fmt.fbits

theorem hhSum_eq : dot o.fmt (nth (vecIn r.e o a)) (nth (vecIn r.e o a))
    ((List.range o.n.toNat).filter (fun i => decide (p < i))) = hhSum r a p o := by
  rw [dot_eq_dotOf, hhSum]
  refine dotOf_congr fun i hi => ?_
  have h := nth_vecIn (e := r.e) (a := a) (List.mem_range.mp (List.mem_of_mem_filter hi))
  exact ⟨h, h⟩

/-- The reflector where nothing is to be annihilated. -/
def flatVector (i : Nat) : Nat := if i < p then 0 else if i = p then hhOne o else hhIn r a o i

/-- β, τ and the reflector with the scale c, otherwise. -/
def hhSquare : Nat × BitVec 5 := ffmaN o.fmt Rm.rne false false (hhIn r a o p) (hhIn r a o p) (hhSum r a p o).1
def hhRoot : Nat × BitVec 5 := fsqrtN o.fmt Rm.rne (hhSquare r a p o).1
def hhBeta : Nat := oppositeSign o.fmt (hhRoot r a p o).1 (hhIn r a o p)
def hhTop : Nat × BitVec 5 := fsubN o.fmt Rm.rne (hhBeta r a p o) (hhIn r a o p)
def hhTau : Nat × BitVec 5 := fdivN o.fmt Rm.rne (hhTop r a p o).1 (hhBeta r a p o)
def hhScale : Nat × BitVec 5 := fsubN o.fmt Rm.rne (hhIn r a o p) (hhBeta r a p o)
def hhVector (i : Nat) : Nat × BitVec 5 :=
  if i < p then (0, 0) else if i = p then (hhOne o, 0) else fdivN o.fmt Rm.rne (hhIn r a o i) (hhScale r a p o).1
def hhOut (i : Nat) : Nat := if i = p then hhBeta r a p o else (hhVector r a p o i).1

variable {r d a p o}

theorem oqhhForm_flat (hz : (hhSum r a p o).1 % 2 ^ (o.fmt.width - 1) = 0) :
    oqhhForm r d a p o = OStep.last_ (o.append ((List.range o.n.toNat).map (flatVector r a p o)) 0).1
      (flagsTo o.n.toNat (Claims.lineIn r.e o a) ||| (hhSum r a p o).2 ||| appendFlags o (flatVector r a p o) 0)
      (lineSame r.e d a (List.range o.n.toNat)) := by
  have hzero : isZeroN o.fmt (hhSum r a p o).1 = true := by rw [isZeroN, signBit_fmt, hz]; rfl
  have hlist : (List.range o.n.toNat).map (fun i => if i < p then 0 else if i = p then o.fmt.bias * 2 ^ o.fmt.fbits
      else nth (vecIn r.e o a) i) = (List.range o.n.toNat).map (flatVector r a p o) :=
    List.map_congr_left fun i hi => by rw [nth_vecIn (List.mem_range.mp hi), bias_fmt]; rfl
  have hget : ∀ i < o.n.toNat, ((List.range o.n.toNat).map (flatVector r a p o)).getD i 0 = flatVector r a p o i :=
    fun i hi => by simp [List.getD_eq_getElem?_getD, hi]
  rw [oqhhForm]
  dsimp only
  rw [hhSum_eq, if_pos hzero, hlist, append_flags hget, vecKeeps_eq, ← orFl_map_range]
  rfl

theorem oqhhForm_split (hp : p < o.n.toNat) (hz : (hhSum r a p o).1 % 2 ^ (o.fmt.width - 1) ≠ 0) :
    oqhhForm r d a p o =
      OStep.last_ (o.append ((List.range o.n.toNat).map (fun i => (hhVector r a p o i).1)) (hhTau r a p o).1).1
      (flagsTo o.n.toNat (Claims.lineIn r.e o a) ||| (hhSum r a p o).2 ||| (hhSquare r a p o).2 ||| (hhRoot r a p o).2 |||
        (hhTop r a p o).2 ||| (hhTau r a p o).2 ||| (hhScale r a p o).2 ||| flagsTo o.n.toNat (hhVector r a p o) |||
        appendFlags o (fun i => (hhVector r a p o i).1) (hhTau r a p o).1 |||
        flagsTo (o.n.toNat - p) (fun j => carried o.fmt r.e.fmt (hhOut r a p o (p + j))))
      (lineSame r.e d a (List.range p) ++ lineOut r.e o d ((List.range o.n.toNat).drop p) (hhOut r a p o)) := by
  have hzero : ¬ isZeroN o.fmt (hhSum r a p o).1 = true := by rw [isZeroN, signBit_fmt, beq_iff_eq]; exact hz
  have hvs : (List.range o.n.toNat).map (fun i => if i < p then ((0, 0) : Fl Nat) else if i = p then
      (o.fmt.bias * 2 ^ o.fmt.fbits, 0) else fdivN o.fmt Rm.rne (nth (vecIn r.e o a) i) (hhScale r a p o).1) =
      (List.range o.n.toNat).map (hhVector r a p o) :=
    List.map_congr_left fun i hi => by rw [nth_vecIn (List.mem_range.mp hi), bias_fmt]; rfl
  have hget : ∀ i < o.n.toNat, ((List.range o.n.toNat).map (fun i => (hhVector r a p o i).1)).getD i 0 =
      (hhVector r a p o i).1 := fun i hi => by simp [List.getD_eq_getElem?_getD, hi]
  have hout : ((List.range o.n.toNat).filter (fun i => decide (p ≤ i))).map (fun i => (i, if i = p then hhBeta r a p o
      else nth ((List.range o.n.toNat).map (hhVector r a p o)) i)) =
      ((List.range o.n.toNat).drop p).map (fun i => (i, hhOut r a p o i)) := by
    rw [filter_ge_range]
    refine List.map_congr_left fun i hi => ?_
    rw [nth_map_range (List.mem_range.mp (List.mem_of_mem_drop hi))]
    rfl
  have hbeta := withSign_eq_oppositeSign o (hhRoot r a p o).1 (hhIn r a o p)
  have halpha : nth (vecIn r.e o a) p = hhIn r a o p := nth_vecIn hp
  rw [oqhhForm]
  dsimp only
  rw [hhSum_eq, if_neg hzero, halpha]
  simp only [← hhSquare.eq_1]
  simp only [← hhRoot.eq_1]
  rw [hbeta]
  simp only [← hhBeta.eq_1]
  simp only [← hhTop.eq_1, ← hhScale.eq_1]
  simp only [← hhTau.eq_1]
  rw [hvs, hout, List.map_map, vecOuts_writes, vecOuts_drop_flags, vecKeeps_eq, orFl_map_range, vecIn_eq, orFl_map_range]
  have hflags := append_flags (tau := (hhTau r a p o).1) hget
  rw [← hflags]
  rfl

theorem oqhhForm_householder (hp : p < o.n.toNat) (gs : BitVec 5) :
    householder r.e d a p o { oqhhForm r d a p o with gs := gs } := by
  have hget (v : Nat → Nat) : ∀ i < o.n.toNat, ((List.range o.n.toNat).map v).getD i 0 = v i :=
    fun i hi => by simp [List.getD_eq_getElem?_getD, hi]
  refine ⟨?_, fun hz => ?_, fun hz => ?_⟩
  · by_cases hz : (hhSum r a p o).1 % 2 ^ (o.fmt.width - 1) = 0
    · rw [oqhhForm_flat hz]
      exact ⟨rfl, rfl, rfl⟩
    · rw [oqhhForm_split hp hz]
      exact ⟨rfl, rfl, rfl⟩
  · rw [oqhhForm_flat hz]
    exact ⟨append_appended (hget (flatVector r a p o)), rfl, rfl⟩
  · rw [oqhhForm_split hp hz]
    exact ⟨append_appended (hget fun i => (hhVector r a p o i).1), rfl, rfl⟩

theorem oqhhForm_gs : (oqhhForm r d a p o).gs = 0 := by
  unfold oqhhForm
  dsimp only
  split <;> rfl

end

/-! ### Lines (R344, R345) -/

section

variable {r : OEnv} {o : Orth} {d a : Reg} {k : BitVec 3} {tr tra : Bool}

theorem oqapStep_none (h : o.k = 0 ∨ r.e.c.gb.toNat / 2 ^ 32 % 2 ^ 16 ≤ r.step) :
    oqapStep r k tra o = .ok (OStep.last_ o 0 []) := if_pos h

theorem oqapStep_line (hk : o.k ≠ 0) (h : r.step < r.e.c.gb.toNat / 2 ^ 32 % 2 ^ 16) : oqapStep r k tra o =
    match lineStep r o k (r.e.c.ga + BitVec.ofNat 64 r.step * stride r.e.c.gb) tra with
    | .error e => .error e
    | .ok z => .ok { z with last := decide (r.e.c.gb.toNat / 2 ^ 32 % 2 ^ 16 ≤ r.step + 1) } :=
  if_neg (by rintro (h' | h'); exacts [hk h', absurd h (Nat.not_lt.mpr h')])

theorem oqapStep_moves {i : Instr} (hi : orthStep r o i = oqapStep r k tra o) (hk : o.k ≠ 0)
    (h : r.step < r.e.c.gb.toNat / 2 ^ 32 % 2 ^ 16) : lineMoves r o i k (r.e.c.ga + BitVec.ofNat 64 r.step * stride r.e.c.gb)
      tra (decide (r.e.c.gb.toNat / 2 ^ 32 % 2 ^ 16 ≤ r.step + 1)) := by
  rw [oqapStep_line hk h] at hi
  exact lineMoves_of_lineStep (fun x hx => hi.trans (by rw [hx])) (fun z hz => hi.trans (by rw [hz]))

theorem oqapvStep_empty (h : o.k = 0) :
    oqapvStep r d a tr o = OStep.last_ o 0 (lineSame r.e d a (List.range o.n.toNat)) := by
  rw [oqapvStep, if_pos h, vecKeeps_eq]

theorem oqapvStep_line (h : o.k ≠ 0) : oqapvStep r d a tr o = OStep.last_ o
    (flagsTo o.n.toNat (Claims.lineIn r.e o a) ||| lineFlags o tr (fun i => (Claims.lineIn r.e o a i).1) |||
      flagsTo o.n.toNat (fun i => carried o.fmt r.e.fmt (transformed o tr (fun i => (Claims.lineIn r.e o a i).1) i).1))
    (lineOut r.e o d (List.range o.n.toNat) (fun i => (transformed o tr (fun i => (Claims.lineIn r.e o a i).1) i).1)) := by
  have hin : ∀ i < o.n.toNat, nth (vecIn r.e o a) i = (Claims.lineIn r.e o a i).1 := fun _ hi => nth_vecIn hi
  have hline : (List.range o.n.toNat).map (fun i => (transformed o tr (nth (vecIn r.e o a)) i).1) =
      (List.range o.n.toNat).map (fun i => (transformed o tr (fun i => (Claims.lineIn r.e o a i).1) i).1) :=
    List.map_congr_left fun i hi => by rw [transformed_congr hin (List.mem_range.mp hi)]
  have hzip (f : Nat → Nat) : (List.range o.n.toNat).zip ((List.range o.n.toNat).map f) =
      (List.range o.n.toNat).map (fun i => (i, f i)) := by
    refine List.ext_getElem (by simp) fun i _ _ => ?_
    simp
  rw [oqapvStep, if_neg h]
  dsimp only
  rw [apply_eq, lineFlags_congr hin, hline]
  dsimp only
  rw [hzip, vecOuts_writes, vecOuts_range_flags, vecIn_eq, orFl_map_range]

end

/-! ### `oqform` (R346) -/

section

variable {r : OEnv} {q : BitVec 1} {o : Orth}

theorem oqformStep_empty (hlog : r.logged = false) (hk : o.k = 0#6) : oqformStep r q o = .ok (OStep.last_ o 0 []) := by
  simp [oqformStep, hlog, hk]

theorem oqformStep_full (hlog : r.logged = false) (hk : o.k ≠ 0#6) (hl : o.lmax ≠ 0#16) (hfull : o.lmax ≤ o.lcount) :
    oqformStep r q o = .error (.trap cOQCAP 0 (q.toNat + 2)) := by
  simp [oqformStep, hlog, hk, hl, hfull, capStop]

theorem oqformStep_log (hlog : r.logged = false) (hk : o.k ≠ 0#6) (hl : o.lmax ≠ 0#16) (hroom : o.lcount < o.lmax) :
    oqformStep r q o = .ok (logStep r o) := by
  simp [oqformStep, hlog, hk, hl, hroom]

theorem oqformStep_target (h : r.logged = true ∨ o.k ≠ 0#6 ∧ o.lmax = 0#16) (ht : r.step < targetCount o) :
    oqformStep r q o = targetStep r o r.step := by
  rcases h with hlog | ⟨hk, hl⟩
  · simp [oqformStep, hlog, targetLines_eq, ht]
  · simp [oqformStep, hk, hl, targetLines_eq, ht]

theorem oqformStep_retired (h : r.logged = true ∨ o.k ≠ 0#6 ∧ o.lmax = 0#16) (ht : targetCount o ≤ r.step) :
    oqformStep r q o = .ok { OStep.last_ o.empty 0 [] with gs := gRETIRED } := by
  rcases h with hlog | ⟨hk, hl⟩
  · simp [oqformStep, hlog, targetLines_eq, Nat.not_lt.mpr ht]
  · simp [oqformStep, hk, hl, targetLines_eq, Nat.not_lt.mpr ht]

end

/-! ### Images (R207, R347) -/

theorem misaligned_none {va : Word} (kind : AKind) (h : va.toNat % 8 = 0) : misaligned va kind = none := if_pos h

theorem misaligned_some {va : Word} (kind : AKind) (h : va.toNat % 8 ≠ 0) :
    misaligned va kind = some (.trap cACCESS va.toNat kind.code) := if_neg h

theorem imageWords_eq (o : Orth) : o.imageWords = imageWordsOf o := by
  unfold Orth.imageWords imageWordsOf orthWords boolNat
  cases o.fp64 <;> rfl

section

variable {r : OEnv} {o : Orth} {k : BitVec 3}

theorem oqsaveStep_stores (h : r.e.c.ga.toNat % 8 = 0) : oqsaveStep r k o =
    .ok { OStep.last_ o 0 [] with pin := k, bytes := 8, stores := storesAt 0 r.e.c.ga (imageWordsOf o) } := by
  rw [oqsaveStep, misaligned_none _ h]
  dsimp only
  rw [imageWords_eq, wordStores_eq]

theorem headOf_orthOfWords (w : Nat → Nat) : headOf w (orthOfWords w) := by
  refine ⟨BitVec.toNat_ofNat _ _, rfl, ?_⟩
  simp [orthOfWords]

theorem bounds_of_not_imageBad {w : Nat → Nat} (h : ¬ imageBad w) : w 0 % 2 ^ 10 ≤ 512 ∧ w 0 / 2 ^ 24 % 2 ^ 6 ≤ 32 := by
  rw [imageBad] at h
  omega

theorem imageOk_iff (w : Nat → Nat) : (orthOfWords w).imageOk = true ↔ ¬ imageBad w := by
  obtain ⟨hn, -, hk, hcap, hpol, -, -, -, -, -, -, -, hlc, hlm⟩ := headOf_orthOfWords w
  rw [Orth.imageOk, hn, hk, hcap, hpol, hlc, hlm, imageBad]
  simp only [Bool.and_eq_true, decide_eq_true_eq]
  omega

/-- V and T of an image, from its words behind the head (R347). -/
def imageV (k n : Nat) (xs : List Nat) : Sparse Word :=
  written 0 [] (List.range (k * n)) (fun i => 512 * (i / n) + i % n) (fun i => wNat (xs.getD i 0))
def imageT (k n : Nat) (xs : List Nat) : Sparse Word :=
  written 0 [] ((List.range (k * k)).filter (fun i => decide (i / k ≤ i % k))) (fun i => 32 * (i / k) + i % k)
    (fun i => wNat (xs.getD (k * n + i) 0))

theorem fillSparse_eq_written (is : List Nat) (key f : Nat → Nat) :
    fillSparse (is.map (fun i => (key i, f i))) = written 0 [] is key (fun i => wNat (f i)) := by
  rw [fillSparse, List.foldl_map]
  rfl

theorem div_mod_inj {m : Nat} {x y : Nat} (h : x / m = y / m) (h' : x % m = y % m) : x = y := by
  rw [← Nat.div_add_mod x m, ← Nat.div_add_mod y m, h, h']

theorem sget_imageV {k n : Nat} (hn : n ≤ 512) (xs : List Nat) (c : Nat) {j : Nat} (hj : j < 512) :
    (sget 0 (imageV k n xs) (512 * c + j)).toNat = if c < k ∧ j < n then xs.getD (n * c + j) 0 % 2 ^ 64 else 0 := by
  have hmod : ∀ x ∈ List.range (k * n), x % n < n := fun x hx =>
    Nat.mod_lt _ (Nat.pos_of_ne_zero fun h0 => by simp [h0] at hx)
  split
  case isTrue h =>
    obtain ⟨hc, hjn⟩ := h
    have hlt : n * c + j < k * n := by
      have := Nat.mul_le_mul_left n (Nat.succ_le_of_lt hc)
      rw [Nat.mul_succ, Nat.mul_comm n k] at this
      omega
    have hdiv : (n * c + j) / n = c := by rw [Nat.mul_add_div (by omega), Nat.div_eq_of_lt hjn, Nat.add_zero]
    have hmd : (n * c + j) % n = j := by rw [Nat.mul_add_mod, Nat.mod_eq_of_lt hjn]
    have h := sget_written_same (d := (0 : Word)) (key := fun i => 512 * (i / n) + i % n) (f := fun i => wNat (xs.getD i 0))
      (m := []) rfl (List.nodup_range (n := k * n)) (fun x hx y hy hxy => ?_) (List.mem_range.mpr hlt)
    · rw [hdiv, hmd] at h
      rw [imageV, h, toNat_wNat]
    · have hx' := hmod x hx
      have hy' := hmod y hy
      exact div_mod_inj (m := n) (by omega) (by omega)
  case isFalse h =>
    rw [imageV, sget_written_other]
    · rfl
    · intro i hi hkey
      have hi' := hmod i hi
      refine h ⟨?_, by omega⟩
      have hc : i / n = c := by omega
      rw [← hc]
      exact Nat.div_lt_of_lt_mul (by rw [Nat.mul_comm]; exact List.mem_range.mp hi)

theorem sget_imageT {k n : Nat} (hk : k ≤ 32) (xs : List Nat) (i : Nat) {j : Nat} (hj : j < 32) :
    (sget 0 (imageT k n xs) (32 * i + j)).toNat =
      if i ≤ j ∧ j < k then xs.getD (k * n + k * i + j) 0 % 2 ^ 64 else 0 := by
  have hmod : ∀ x ∈ (List.range (k * k)).filter (fun i => decide (i / k ≤ i % k)), x % k < k ∧ x / k ≤ x % k := by
    intro x hx
    obtain ⟨hx, hle⟩ := List.mem_filter.mp hx
    exact ⟨Nat.mod_lt _ (Nat.pos_of_ne_zero fun h0 => by simp [h0] at hx), by simpa using hle⟩
  split
  case isTrue h =>
    obtain ⟨hij, hjk⟩ := h
    have hlt : k * i + j < k * k := by
      have := Nat.mul_le_mul_left k (show i + 1 ≤ k by omega)
      rw [Nat.mul_succ] at this
      omega
    have hdiv : (k * i + j) / k = i := by rw [Nat.mul_add_div (by omega), Nat.div_eq_of_lt hjk, Nat.add_zero]
    have hmd : (k * i + j) % k = j := by rw [Nat.mul_add_mod, Nat.mod_eq_of_lt hjk]
    have h := sget_written_same (d := (0 : Word)) (key := fun i => 32 * (i / k) + i % k)
      (f := fun i => wNat (xs.getD (k * n + i) 0)) (m := []) rfl
      ((List.nodup_range (n := k * k)).filter (fun i => decide (i / k ≤ i % k))) (fun x hx y hy hxy => ?_)
      (List.mem_filter.mpr ⟨List.mem_range.mpr hlt, by rw [hdiv, hmd]; simpa using hij⟩)
    · rw [hdiv, hmd, ← Nat.add_assoc] at h
      rw [imageT, h, toNat_wNat]
    · have hx' := hmod x hx
      have hy' := hmod y hy
      exact div_mod_inj (m := k) (by omega) (by omega)
  case isFalse h =>
    rw [imageT, sget_written_other]
    · rfl
    · intro m hm hkey
      have hm' := hmod m hm
      exact h ⟨by omega, by omega⟩

/-- The image's words that a `read` of the step asks for. -/
def imageRead (r : OEnv) (k : BitVec 3) (from_ len : Nat) : Except Stop (List Nat) :=
  vReads r.s r.t r.view k 8 ((List.range len).map (fun i => r.e.c.ga + BitVec.ofNat 64 (8 * (from_ + i))))

theorem oqrestStep_stops (h : r.e.c.ga.toNat % 8 = 0) {x : Stop} (hx : imageRead r k 0 8 = .error x) :
    oqrestStep r k o = .error x := by
  rw [imageRead] at hx
  rw [oqrestStep, misaligned_none _ h]
  simp only [wNat, hx]

theorem oqrestStep_refused (h : r.e.c.ga.toNat % 8 = 0) {ws : List Nat} (hws : imageRead r k 0 8 = .ok ws)
    (hbad : imageBad (fun i => ws.getD i 0)) :
    ∃ l, oqrestStep r k o = .ok { OStep.last_ o.empty fNV [] with reads := l } := by
  have hnot : (orthOfWords (fun i => ws.getD i 0)).imageOk = false := by
    rw [← Bool.not_eq_true, imageOk_iff]
    exact not_not.mpr hbad
  rw [imageRead] at hws
  rw [oqrestStep, misaligned_none _ h]
  simp only [wNat, hws, hnot, Bool.not_false, if_true]
  exact ⟨_, rfl⟩

theorem oqrestStep_reads (h : r.e.c.ga.toNat % 8 = 0) {ws : List Nat} (hws : imageRead r k 0 8 = .ok ws)
    (hgood : ¬ imageBad (fun i => ws.getD i 0)) {kk nn : Nat} (hkk : kk = ws.getD 0 0 / 2 ^ 24 % 2 ^ 6)
    (hnn : nn = ws.getD 0 0 % 2 ^ 10) :
    (∀ x, imageRead r k 8 (kk * (nn + kk)) = .error x → oqrestStep r k o = .error x) ∧
    (∀ xs, imageRead r k 8 (kk * (nn + kk)) = .ok xs → ∃ l, oqrestStep r k o = .ok { OStep.last_
      { orthOfWords (fun i => ws.getD i 0) with v := imageV kk nn xs, t := imageT kk nn xs } 0 [] with reads := l }) := by
  have hok : (orthOfWords (fun i => ws.getD i 0)).imageOk = true := (imageOk_iff _).mpr hgood
  obtain ⟨hn, -, hk, -⟩ := headOf_orthOfWords (fun i => ws.getD i 0)
  replace hn := hn.trans hnn.symm
  replace hk := hk.trans hkk.symm
  rw [imageRead] at hws
  rw [oqrestStep, misaligned_none _ h]
  refine ⟨fun x hx => ?_, fun xs hxs => ?_⟩
  · rw [imageRead] at hx
    simp only [wNat, hws, hok, hk, hn, hx, Bool.not_true, Bool.false_eq_true, if_false]
  · rw [imageRead] at hxs
    simp only [wNat, hws, hok, hk, hn, hxs, Bool.not_true, Bool.false_eq_true, if_false, fillSparse_eq_written]
    exact ⟨_, rfl⟩

end

/-! ### Read-outs (R348) -/

theorem oqrdStep_eq (r : OEnv) (d : Reg) (o : Orth) : oqrdStep r d o =
    let c := r.e.c.gb.toNat % 64
    let ofT := (r.e.c.gb.toNat).testBit 8
    let x (i : Nat) : Nat := if o.k.toNat ≤ c then 0 else if ofT then o.tAt i c else o.vAt c i
    let len := if ofT then 32 else o.n.toNat
    OStep.last_ o (flagsTo len (fun i => carried o.fmt r.e.fmt (x i))) (lineOut r.e o d (List.range len) x) := by
  have hx (p : Nat → Nat) (c i : Nat) : (if decide (c < o.k.toNat) then p i else 0) = if o.k.toNat ≤ c then 0 else p i := by
    by_cases hc : c < o.k.toNat
    · simp [hc]
    · simp [hc, Nat.not_lt.mp hc]
  rw [oqrdStep]
  cases (r.e.c.gb.toNat).testBit 8 with
  | true => simp only [if_true, hx, vecOuts_writes, vecOuts_range_flags]
  | false => simp only [Bool.false_eq_true, if_false, hx, vecOuts_writes, vecOuts_range_flags]

/-! ### The obligation -/

/-- Settles O34: each instruction by what its step comes to; the appends and retirements by the capacity rule. -/
theorem orthogonalResults : Obligations.OrthogonalResults := by
  unfold Obligations.OrthogonalResults
  intro r o q d a b k tr
  refine ⟨?acc, fun hp => ?hh, fun hp => ?pivot, ?lines, ?vector, fun hlog hk => ?nothing, fun hlog hk hl => ?log,
    fun h => ?retire, fun h => ?unaligned, fun h => ?save, fun h => ?restore, ?count, ?readOut⟩
  case acc =>
    refine capacity_of_capped rfl (fun o' gs hn => ⟨⟨rfl, rfl, rfl⟩, rfl, oqaccForm_appended r a o', ?_⟩) (fun _ => rfl)
    rw [← hn]
    exact oqaccForm_fl r a o'
  case hh =>
    have hi : orthStep r o (.oqhh q d a b) = capped r q o (oqhhForm r d a r.e.c.gb.toNat) := if_neg (Nat.not_le.mpr hp)
    exact capacity_of_capped hi (fun o' gs hn => oqhhForm_householder (hn ▸ hp) gs) (fun _ => oqhhForm_gs)
  case pivot => exact ⟨_, if_pos hp, ⟨rfl, rfl, rfl⟩, rfl, rfl, rfl, vecKeeps_eq _ _ _ _⟩
  case lines =>
    intro count i tra hi
    have hstep : orthStep r o i = oqapStep r k tra o := by rcases hi with ⟨rfl, rfl⟩ | ⟨rfl, rfl⟩ <;> rfl
    exact ⟨fun h => ⟨_, hstep.trans (oqapStep_none h), ⟨rfl, rfl, rfl⟩, rfl, rfl, rfl, rfl⟩, oqapStep_moves hstep⟩
  case vector =>
    refine ⟨oqapvStep r d a tr o, rfl, ?_⟩
    by_cases hk : o.k = 0
    · rw [oqapvStep_empty hk]
      exact ⟨⟨rfl, rfl, rfl⟩, rfl, rfl, fun _ => ⟨rfl, rfl⟩, fun h => absurd hk h⟩
    · rw [oqapvStep_line hk]
      exact ⟨⟨rfl, rfl, rfl⟩, rfl, rfl, fun h => absurd h hk, fun _ => ⟨rfl, rfl⟩⟩
  case nothing => exact ⟨_, oqformStep_empty hlog hk, ⟨rfl, rfl, rfl⟩, rfl, rfl, rfl, rfl⟩
  case log =>
    exact ⟨oqformStep_full hlog hk hl, fun hroom => ⟨_, oqformStep_log hlog hk hl hroom, logStep_recorded r o⟩⟩
  case retire =>
    exact ⟨fun ht => targetMoves_of_targetStep (oqformStep_target h ht),
      fun ht => ⟨_, oqformStep_retired h ht, ⟨rfl, rfl, rfl⟩, rfl, rfl, rfl, rfl⟩⟩
  case unaligned =>
    refine ⟨?_, ?_⟩
    · show oqsaveStep r k o = _
      rw [oqsaveStep, misaligned_some _ h]
    · show oqrestStep r k o = _
      rw [oqrestStep, misaligned_some _ h]
  case save => exact ⟨_, oqsaveStep_stores h, rfl, rfl, rfl, rfl, rfl, rfl, rfl, rfl, rfl⟩
  case restore =>
    refine ⟨fun x hx => oqrestStep_stops h hx, fun ws hws => ⟨fun hbad => ?refused, fun hgood => ?taken⟩⟩
    case refused =>
      obtain ⟨l, hl⟩ := oqrestStep_refused (o := o) h hws hbad
      exact ⟨_, hl, ⟨rfl, rfl, rfl⟩, rfl, rfl, rfl, rfl⟩
    case taken =>
      obtain ⟨hstop, hgo⟩ := oqrestStep_reads (o := o) h hws hgood rfl rfl
      refine ⟨hstop, fun xs hxs => ?_⟩
      obtain ⟨l, hl⟩ := hgo xs hxs
      obtain ⟨hn, hk⟩ := bounds_of_not_imageBad hgood
      exact ⟨_, hl, ⟨rfl, rfl, rfl⟩, rfl, rfl, rfl, headOf_orthOfWords (fun i => ws.getD i 0), fun c j hj => sget_imageV hn xs c hj,
        fun i j hj => sget_imageT hk xs i hj⟩
  case count => exact ⟨_, rfl, ⟨rfl, rfl, rfl⟩, rfl, rfl, rfl, rfl⟩
  case readOut =>
    refine ⟨_, congrArg Except.ok (oqrdStep_eq r d o), ⟨rfl, rfl, rfl⟩, rfl, rfl, rfl, rfl⟩

end Sys2Proof.Machine

/-! Rows of tile instructions: containers placed in a tile, words appended, and the flags of a row (R155, R330 to R336). -/

namespace Sys2Proof.Machine

open Sys2Proof.Claims

/-! ### Containers placed in a tile (R124) -/

/-- A tile with some containers replaced: number j's at row `row j`, column `col j`. -/
def placed (a : Tile) (is : List Nat) (row col f : Nat → Nat) : Tile :=
  { a with elems := written 0 a.elems is (fun j => 64 * row j + col j) (fun j => BitVec.ofNat 64 (f j)) }

section

variable {a : Tile} {is : List Nat} {row col f : Nat → Nat} {u v n x : Nat}

theorem at_placed_other (h : ∀ j ∈ is, 64 * row j + col j ≠ 64 * u + v) : (placed a is row col f).at_ u v = a.at_ u v :=
  congrArg BitVec.toNat (sget_written_other (key := fun j => 64 * row j + col j) h a.elems)

theorem at_placed_same (ha : swf (fun _ => (0 : BitVec 64)) none a.elems = true) (hnodup : is.Nodup)
    (hkey : ∀ i ∈ is, ∀ j ∈ is, 64 * row i + col i = 64 * row j + col j → i = j) {j : Nat} (hj : j ∈ is) :
    (placed a is row col f).at_ (row j) (col j) = f j % 2 ^ 64 :=
  (congrArg BitVec.toNat (sget_written_same (key := fun j => 64 * row j + col j) ha hnodup hkey hj)).trans (BitVec.toNat_ofNat _ _)

/-- A row's first n containers replaced. -/
theorem at_placed_row (ha : swf (fun _ => (0 : BitVec 64)) none a.elems = true) (hn : n ≤ 64) (hv : v < 64) :
    (placed a (List.range n) (fun _ => x) (fun j => j) f).at_ u v = if u = x ∧ v < n then f v % 2 ^ 64 else a.at_ u v := by
  split
  case isTrue h =>
    obtain ⟨rfl, hv⟩ := h
    exact at_placed_same ha List.nodup_range (fun i _ j _ hij => by simpa using hij) (List.mem_range.mpr hv)
  case isFalse h =>
    refine at_placed_other fun j hj hkey => ?_
    have hj := List.mem_range.mp hj
    exact h ⟨by omega, by omega⟩

/-- A column's first n containers replaced. -/
theorem at_placed_column (ha : swf (fun _ => (0 : BitVec 64)) none a.elems = true) (hx : x < 64) (hv : v < 64) :
    (placed a (List.range n) (fun j => j) (fun _ => x) f).at_ u v = if v = x ∧ u < n then f u % 2 ^ 64 else a.at_ u v := by
  split
  case isTrue h =>
    obtain ⟨rfl, hu⟩ := h
    exact at_placed_same ha List.nodup_range (fun i _ j _ hij => by omega) (List.mem_range.mpr hu)
  case isFalse h =>
    refine at_placed_other fun j hj hkey => ?_
    have hj := List.mem_range.mp hj
    exact h ⟨by omega, by omega⟩

theorem placed_snoc (a : Tile) (n : Nat) (row col f : Nat → Nat) :
    placed a (List.range (n + 1)) row col f = (placed a (List.range n) row col f).set (row n) (col n) (f n) := by
  unfold placed written Tile.set
  rw [List.range_succ, List.foldl_append]
  rfl

end

/-! ### What a row gathers -/

/-- Containers set one after another, with their flags. -/
theorem foldl_set (row col : Nat → Nat) (g : Nat → Nat × BitVec 5) (n : Nat) (z : RowRes) (hz : z.fl = 0) :
    (List.range n).foldl (fun (z : RowRes) j => { z with tile := z.tile.set (row j) (col j) (g j).1, fl := z.fl ||| (g j).2 }) z =
      { z with tile := placed z.tile (List.range n) row col (fun j => (g j).1), fl := flagsTo n g } := by
  induction n with
  | zero => rw [flagsTo, List.range_zero, List.foldl_nil, List.foldl_nil, ← hz]; rfl
  | succ n ih =>
    rw [placed_snoc, flagsTo_succ, List.range_succ, List.foldl_append, ih]
    rfl

/-- Stores gathered one after another, with their flags. -/
theorem foldl_stores (w : Nat → Nat × Word × Nat) (fl gs : Nat → BitVec 5) (n : Nat) (z : RowRes) :
    (List.range n).foldl (fun (z : RowRes) j =>
      { z with stores := z.stores ++ [w j], fl := z.fl ||| fl j, gs := z.gs ||| gs j }) z =
      { z with stores := z.stores ++ (List.range n).map w, fl := (List.range n).foldl (fun x j => x ||| fl j) z.fl
               gs := (List.range n).foldl (fun x j => x ||| gs j) z.gs } := by
  induction n with
  | zero => simp
  | succ n ih =>
    rw [List.range_succ, List.foldl_append, ih]
    simp

/-- Register writes gathered one after another, with their flags. -/
theorem foldl_writes (w : Nat → EWrite) (fl gs : Nat → BitVec 5) (n : Nat) (z : RowRes) :
    (List.range n).foldl (fun (z : RowRes) j =>
      { z with writes := z.writes ++ [w j], fl := z.fl ||| fl j, gs := z.gs ||| gs j }) z =
      { z with writes := z.writes ++ (List.range n).map w, fl := (List.range n).foldl (fun x j => x ||| fl j) z.fl
               gs := (List.range n).foldl (fun x j => x ||| gs j) z.gs } := by
  induction n with
  | zero => simp
  | succ n ih =>
    rw [List.range_succ, List.foldl_append, ih]
    simp

/-- Several register writes at a time. -/
theorem foldl_writeLists (w : Nat → List EWrite) (n : Nat) (z : RowRes) :
    (List.range n).foldl (fun (z : RowRes) j => { z with writes := z.writes ++ w j }) z =
      { z with writes := z.writes ++ ((List.range n).map w).flatten } := by
  induction n with
  | zero => simp
  | succ n ih =>
    rw [List.range_succ, List.foldl_append, ih]
    simp

/-- No flag is raised by results that raise none. -/
theorem foldl_or_zero (n : Nat) (x : BitVec 5) : (List.range n).foldl (fun y _ => y ||| (0 : BitVec 5)) x = x := by
  induction n with
  | zero => rfl
  | succ n ih =>
    rw [List.range_succ, List.foldl_append, ih]
    simp

/-- Results behind the first m of n raise no flag. -/
theorem flagsTo_of_le {α β : Type} {m n : Nat} (hmn : m ≤ n) {f : Nat → α × BitVec 5} {g : Nat → β × BitVec 5}
    (hlow : ∀ i < m, (f i).2 = (g i).2) (hhigh : ∀ i, m ≤ i → (f i).2 = 0) : flagsTo n f = flagsTo m g := by
  induction n with
  | zero => rw [Nat.le_zero.mp hmn]; rfl
  | succ n ih =>
    rcases Nat.lt_or_ge n m with hlt | hge
    · obtain rfl : m = n + 1 := by omega
      exact flagsTo_congr hlow
    · rw [flagsTo_succ, ih hge, hhigh n hge]
      simp

/-! ### `tld` (R330) -/

theorem fmtOf_eq_fp64 (fa : BitVec 4) : fmtOf fa = .fp64 ↔ fa = 0 := by
  have all : ∀ fa : BitVec 4, fmtOf fa = .fp64 ↔ fa = 0 := by decide
  exact all fa

theorem widen_eq_widened (fa : BitVec 4) (x : Nat) : widen fa x = widened (fmtOf fa) x := by
  unfold widen widened
  simp only [fmtOf_eq_fp64]
  rfl

/-- Element v that a row of `tld` sets, and its flags. -/
def loaded (ms : BitVec 3) (fa : BitVec 4) (cols tpad : Nat) (xs : List Nat) (v : Nat) : Nat × BitVec 5 :=
  if v < cols then (if ms = 1 then (xs.getD v 0, 0) else widened (fmtOf fa) (xs.getD v 0)) else ((widened .fp32 tpad).1, 0)

theorem tldRow_ok {ms : BitVec 3} {fa : BitVec 4} {ka : BitVec 3} {r : RowEnv} {a : Tile} {z : RowRes}
    (h : tldRow ms fa ka r a = .ok z) :
    let size := if ms = 1 then 8 else fmtBytes fa
    let vr := r.e.c.gb.toNat % 2 ^ 32
    let vc := r.e.c.gb.toNat / 2 ^ 32
    let cols := if r.row < vr then min vc a.n.toNat else 0
    let vas := (List.range cols).map (fun v =>
      r.e.c.ga + BitVec.ofNat 64 r.row * stride r.e.c.gd + BitVec.ofNat 64 (v * size))
    ∃ xs, r.read ka size vas = .ok xs ∧ z = { RowRes.of { placed a (List.range a.n.toNat) (fun _ => r.row) (fun j => j)
        (fun v => (loaded ms fa cols r.e.c.tpad.toNat xs v).1) with ckv := false } with
      fl := flagsTo a.n.toNat (loaded ms fa cols r.e.c.tpad.toNat xs)
      gs := if vr = 0 ∨ vc = 0 then 16 else 0, reads := [(ka, size, vas)] } := by
  intro size vr vc cols vas
  rw [tldRow] at h
  dsimp only at h
  split at h
  case h_1 => cases h
  case h_2 xs hread =>
    refine ⟨xs, hread, ?_⟩
    have hlen : xs.length = cols := (vReads_length hread).trans (by simp; rfl)
    have hfold := foldl_set (fun _ => r.row) (fun j => j) (loaded ms fa cols r.e.c.tpad.toNat xs) a.n.toNat
      (RowRes.of { a with ckv := false }) rfl
    refine (Except.ok.inj h).symm.trans ?_
    refine (congrArg (fun w => { w with gs := if vr = 0 ∨ vc = 0 then gPADFILL else 0, reads := [(ka, size, vas)] })
      ((List.foldl_ext _ _ _ fun w v _ => ?_).trans hfold)).trans rfl
    unfold loaded
    by_cases hv : v < cols
    · simp only [List.getElem?_eq_getElem (hlen ▸ hv), if_pos hv, List.getD_eq_getElem _ _ (hlen ▸ hv), widen_eq_widened]
    · simp only [List.getElem?_eq_none (Nat.not_lt.mp (hlen ▸ hv)), if_neg hv]
      rfl

end Sys2Proof.Machine

/-! What each tile row comes to (R330 to R336). -/

namespace Sys2Proof.Machine

open Sys2Proof.Claims

/-! ### `tst` (R331) -/

/-- An element that a row of `tst`, or a line, reads out: bits and flags, and SATX; a raw container is taken as it is. -/
def readOutAs (raw : Bool) (e : VEnv) (f : Fmt) (i x : Nat) : (Nat × BitVec 5) × BitVec 5 :=
  if raw then ((x, 0), 0) else readTo e f i x

/-- The same as the model keeps it. -/
def resultAs (raw : Bool) (e : VEnv) (f : Fmt) (i x : Nat) : FpRes :=
  if raw then { bits := x, fl := 0, satx := false } else readOut e f i x

theorem readOutAs_eq (raw : Bool) (e : VEnv) (f : Fmt) (i x : Nat) : readOutAs raw e f i x =
    (((resultAs raw e f i x).bits, (resultAs raw e f i x).fl), satBit (resultAs raw e f i x).satx) := by cases raw <;> rfl

theorem tstRow_eq (ms : BitVec 3) (fa : BitVec 4) (r : RowEnv) (a : Tile) :
    let size := if ms.getLsbD 0 then 8 else fmtBytes fa
    let at_ (v : Nat) : Word :=
      if ms.getLsbD 1 then r.e.c.ga + BitVec.ofNat 64 v * stride r.e.c.gd + BitVec.ofNat 64 (r.row * size)
      else r.e.c.ga + BitVec.ofNat 64 r.row * stride r.e.c.gd + BitVec.ofNat 64 (v * size)
    let out (v : Nat) : (Nat × BitVec 5) × BitVec 5 :=
      readOutAs (ms.getLsbD 0) r.e (fmtOf fa) (64 * r.row + v) (a.at_ r.row v)
    tstRow ms fa r a = { RowRes.of a with
      stores := (List.range a.n.toNat).map (fun v => (64 * r.row + v, at_ v, (out v).1.1))
      fl := flagsTo a.n.toNat (fun v => (out v).1), gs := flagsTo a.n.toNat out } := by
  intro size at_ out
  have hfold := foldl_stores (fun v => (64 * r.row + v, at_ v, (out v).1.1)) (fun v => (out v).1.2) (fun v => (out v).2)
    a.n.toNat (RowRes.of a)
  refine (List.foldl_ext _ _ _ fun z v _ => ?_).trans hfold
  rw [show out v = _ from readOutAs_eq ..]
  rfl

/-! ### Lines (R332) -/

section

variable {col : Bool} {ra : Reg} {ms : BitVec 3} {r : RowEnv} {a : Tile}

/-- Elements of a line, and the containers it may name. -/
def lineLength (col : Bool) (a : Tile) : Nat := if col then a.m.toNat else a.n.toNat
def lineCount (col : Bool) (a : Tile) : Nat := if col then a.n.toNat else a.m.toNat
def lineCell (col : Bool) (a : Tile) (x j : Nat) : Nat := if col then a.at_ j x else a.at_ x j

/-- Element j of a vector as a line takes it. -/
def widenedAs (raw : Bool) (e : VEnv) (ra : Reg) (j : Nat) : Nat × BitVec 5 :=
  if raw then (source e false ra j, 0) else widened e.fmt (source e false ra j)

theorem lineRow_absent_in (hx : ¬ r.e.c.gb.toNat < lineCount col a) (hms : ms.getLsbD 0 = true) :
    lineRow col ra ms r a = { RowRes.of a with gs := 1 } := by
  unfold lineCount at hx
  unfold lineRow
  simp only [hms, if_true, decide_eq_false hx, Bool.false_eq_true, if_false]
  rfl

theorem lineRow_absent_out (hx : ¬ r.e.c.gb.toNat < lineCount col a) (hms : ms.getLsbD 0 = false) :
    lineRow col ra ms r a = { RowRes.of a with gs := 1, writes := (List.range (lineLength col a)).map (fun j =>
      r.e.t.elemWrite ra.toNat r.e.sew j 0) } := by
  unfold lineCount at hx
  have hfold := foldl_writes (fun j => r.e.t.elemWrite ra.toNat r.e.sew j 0) (fun _ => 0) (fun _ => 0) (lineLength col a)
    { RowRes.of a with gs := 1 }
  rw [foldl_or_zero, foldl_or_zero] at hfold
  unfold lineRow
  simp only [hms, decide_eq_false hx, Bool.false_eq_true, if_false, Bool.not_false, if_true]
  exact hfold

theorem lineRow_out (hx : r.e.c.gb.toNat < lineCount col a) (hms : ms.getLsbD 0 = false) :
    let out (j : Nat) := readOutAs (ms.getLsbD 1) r.e r.e.fmt j (lineCell col a r.e.c.gb.toNat j)
    lineRow col ra ms r a = { RowRes.of a with
        fl := flagsTo (lineLength col a) (fun j => (out j).1), gs := flagsTo (lineLength col a) out
        writes := (List.range (lineLength col a)).map (fun j => r.e.t.elemWrite ra.toNat r.e.sew j (out j).1.1) } := by
  intro out
  unfold lineCount at hx
  have hfold := foldl_writes (fun j => r.e.t.elemWrite ra.toNat r.e.sew j (out j).1.1) (fun j => (out j).1.2)
    (fun j => (out j).2) (lineLength col a) (RowRes.of a)
  unfold lineRow
  simp only [hms, decide_eq_true hx, Bool.false_eq_true, if_false, Bool.not_true, if_true]
  refine (List.foldl_ext _ _ _ fun z j _ => ?_).trans hfold
  rw [show out j = _ from readOutAs_eq ..]
  cases col <;> rfl

theorem lineRow_in (hx : r.e.c.gb.toNat < lineCount col a) (hms : ms.getLsbD 0 = true) :
    let wide := widenedAs (ms.getLsbD 1) r.e ra
    let row (j : Nat) : Nat := if col then j else r.e.c.gb.toNat
    let column (j : Nat) : Nat := if col then r.e.c.gb.toNat else j
    lineRow col ra ms r a =
      { RowRes.of { placed a (List.range (lineLength col a)) row column (fun j => (wide j).1) with ckv := false } with
        fl := flagsTo (lineLength col a) wide } := by
  intro wide row column
  unfold lineCount at hx
  have hfold := foldl_set row column wide (lineLength col a) (RowRes.of { a with ckv := false }) rfl
  unfold lineRow
  simp only [hms, decide_eq_true hx, if_true]
  refine (List.foldl_ext _ _ _ fun z j _ => ?_).trans hfold
  unfold wide widenedAs
  cases ms.getLsbD 1 with
  | true => cases col <;> rfl
  | false => cases col <;> rfl

end

/-! ### `tchk` (R335) -/

theorem residues_eq {a : Tile} (hm : a.m.toNat ≤ 64) : residues a = (List.range 128).map (residueAt a) := by
  rw [show 128 = 64 + 64 from rfl, List.range_add, List.map_append, List.map_map]
  refine congrArg₂ (· ++ ·) (List.map_congr_left fun i hi => ?_) (List.map_congr_left fun j _ => ?_)
  · have hi := List.mem_range.mp hi
    rw [residueAt]
    by_cases him : i < a.m.toNat
    · rw [if_pos him, if_pos him]
      rfl
    · rw [if_neg him, if_neg him, if_neg (by omega)]
  · rw [Function.comp_apply, residueAt, if_neg (show ¬ 64 + j < a.m.toNat by omega), Nat.add_sub_cancel_left]
    by_cases hjn : j < a.n.toNat
    · rw [if_pos hjn, if_pos ⟨by omega, hjn⟩]
      rfl
    · rw [if_neg hjn, if_neg (fun h => hjn h.2)]

/-- The row's outcome in terms of the model's list of residues. -/
theorem tchkRow_residues (ra : Reg) (mk : PReg) (r : RowEnv) (a : Tile) :
    tchkRow ra mk r a = { RowRes.of { a with ckv := !(residues a).any (residueBad (r.e.c.gb.toNat % 2 ^ 32)) } with
      writes := ((List.range 128).map (fun i => [r.e.t.elemWrite ra.toNat 32 i ((residues a).getD i 0),
        .p mk.toNat i (residueBad (r.e.c.gb.toNat % 2 ^ 32) ((residues a).getD i 0))])).flatten } := by
  have hfold := foldl_writeLists (fun i => [r.e.t.elemWrite ra.toNat 32 i ((residues a).getD i 0),
    .p mk.toNat i (residueBad (r.e.c.gb.toNat % 2 ^ 32) ((residues a).getD i 0))]) 128 (RowRes.of a)
  rw [show (RowRes.of a).writes = [] from rfl, List.nil_append] at hfold
  exact congrArg (fun z : RowRes => { z with tile :=
    { a with ckv := !(residues a).any (residueBad (r.e.c.gb.toNat % 2 ^ 32)) } }) hfold

theorem tchkRow_eq {ra : Reg} {mk : PReg} {r : RowEnv} {a : Tile} (hm : a.m.toNat ≤ 64) :
    tchkRow ra mk r a = { RowRes.of { a with
        ckv := (List.range 128).all (fun i => !residueHigh (r.e.c.gb.toNat % 2 ^ 32) (residueAt a i)) } with
      writes := ((List.range 128).map (fun i => [r.e.t.elemWrite ra.toNat 32 i (residueAt a i),
        .p mk.toNat i (residueHigh (r.e.c.gb.toNat % 2 ^ 32) (residueAt a i))])).flatten } := by
  have hget : ∀ i ∈ List.range 128, (residues a).getD i 0 = residueAt a i := fun i hi => by
    rw [residues_eq hm]
    simp [List.getD_eq_getElem?_getD, List.mem_range.mp hi]
  have hckv (tol : Nat) : (!(residues a).any (residueBad tol)) = (List.range 128).all (fun i => !residueHigh tol (residueAt a i)) := by
    rw [residues_eq hm, List.any_map, List.not_any_eq_all_not]
    exact List.all_congr rfl fun _ => rfl
  rw [tchkRow_residues, hckv, List.map_congr_left fun i hi => by rw [hget i hi]]
  rfl

/-! ### `tcon` (R336) -/

theorem and_of_toWa (x : Exact) : (toWa x).2 &&& 11 = 0 := by
  have hmask : (fOF ||| fNV) &&& 11 = 0 := by decide
  rw [toWa, BitVec.and_assoc, hmask]
  exact BitVec.and_zero

theorem or_and_eleven {x y : BitVec 5} (hx : x &&& 11 = 0) (hy : y &&& 11 = 0) : (x ||| y) &&& 11 = 0 := by
  rw [BitVec.and_or_distrib_right, hx, hy]
  exact BitVec.or_zero

theorem blockStep_flags (old : Nat) (ps : List Exact) : (blockStep old ps).2 &&& 11 = 0 :=
  or_and_eleven (and_of_toWa _) (and_of_toWa _)

theorem flagsTo_and {α : Type} {f : Nat → α × BitVec 5} (h : ∀ i, (f i).2 &&& 11 = 0) (n : Nat) : flagsTo n f &&& 11 = 0 := by
  induction n with
  | zero => exact BitVec.zero_and
  | succ n ih =>
    rw [flagsTo_succ]
    exact or_and_eleven ih (h n)

/-- A row's elements take their block steps one by one, each from its own old container. -/
theorem foldl_blockStep (ps : Nat → List Exact) (row n : Nat) (a : Tile) (z : RowRes) (hz : z.fl = 0) (ha : z.tile = a) :
    (List.range n).foldl (fun (z : RowRes) q =>
      { z with tile := z.tile.set row q (blockStep (z.tile.at_ row q) (ps q)).1
               fl := z.fl ||| (blockStep (z.tile.at_ row q) (ps q)).2 }) z =
      { z with tile := placed a (List.range n) (fun _ => row) (fun j => j) (fun q => accumulated (a.at_ row q) (ps q))
               fl := flagsTo n (fun q => blockStep (a.at_ row q) (ps q)) } := by
  subst ha
  induction n with
  | zero => rw [flagsTo, List.range_zero, List.foldl_nil, List.foldl_nil, ← hz]; rfl
  | succ n ih =>
    have hown : (placed z.tile (List.range n) (fun _ => row) (fun j => j)
        (fun q => accumulated (z.tile.at_ row q) (ps q))).at_ row n = z.tile.at_ row n :=
      at_placed_other fun j hj => by
        have hj := List.mem_range.mp hj
        omega
    rw [placed_snoc, flagsTo_succ, List.range_succ, List.foldl_append, ih, List.foldl_cons, List.foldl_nil]
    dsimp only
    rw [hown]
    rfl

/-- The contracted products of element v. -/
def contracted (f : Fmt) (ds us : List Nat) (v : Nat) : List Exact :=
  (List.range 8).map (fun l => fpMul (f.decode (ds.getD (8 * v + l) 0)) (f.decode (us.getD l 0)))

theorem tconRow_ok {ms : BitVec 3} {fa : BitVec 4} {ka kb : BitVec 3} {r : RowEnv} {a : Tile} {z : RowRes}
    (h : tconRow ms fa ka kb r a = .ok z) :
    let n := fmtBytes fa
    let dvas := (List.range 64).map (fun j => r.e.c.gb + BitVec.ofNat 64 (j * n))
    let uvas := (List.range 8).map (fun l => r.e.c.ga + BitVec.ofNat 64 (conIndex ms r.row l * n))
    ∃ ds us, r.read kb n dvas = .ok ds ∧ r.read ka n uvas = .ok us ∧
      z = { RowRes.of { placed a (List.range 8) (fun _ => r.row) (fun j => j)
          (fun v => accumulated (a.at_ r.row v) (contracted (fmtOf fa) ds us v)) with ckv := false } with
        fl := flagsTo 8 (fun v => blockStep (a.at_ r.row v) (contracted (fmtOf fa) ds us v))
        reads := [(kb, n, dvas), (ka, n, uvas)] } := by
  intro n dvas uvas
  rw [tconRow] at h
  dsimp only at h
  split at h
  case h_1 => cases h
  case h_2 ds hds =>
    split at h
    case h_1 => cases h
    case h_2 us hus =>
      exact ⟨ds, us, hds, hus, (Except.ok.inj h).symm.trans (foldl_blockStep (contracted (fmtOf fa) ds us) r.row 8
        { a with ckv := false } { RowRes.of { a with ckv := false } with reads := [(kb, n, dvas), (ka, n, uvas)] } rfl rfl)⟩

/-! ### Images (R333) -/

theorem imageWord_elem (a : Tile) {m n : Nat} (hm : m < 64) (hn : n < 64) : a.imageWord (64 * m + n) = a.at_ m n := by
  rw [Tile.imageWord]
  dsimp only
  rw [if_pos (by omega), show (64 * m + n) / 64 = m by omega, show (64 * m + n) % 64 = n by omega]

theorem imageRow_words (a : Tile) {m : Nat} (hm : m < 64) : (imageRow m).map (fun i => (i, a.imageWord i)) = imageOf a m := by
  rw [imageRow, imageOf, List.map_append, List.map_map]
  congr 1
  · refine List.map_congr_left fun n hn => ?_
    rw [Function.comp_apply, imageWord_elem a hm (List.mem_range.mp hn)]
  · split
    · rfl
    · rfl

theorem imageOf_map {α : Type} (a : Tile) {m : Nat} (hm : m < 64) (f : Nat → Nat → α) :
    (imageOf a m).map (fun p => f p.1 p.2) = (imageRow m).map (fun i => f i (a.imageWord i)) := by
  rw [← imageRow_words a hm, List.map_map]
  rfl

/-- Checksum j of a pair of words. -/
def halves (x : Nat → Nat) (j : Nat) : BitVec 32 := BitVec.ofNat 32 (x (j / 2) / 2 ^ (32 * (j % 2)))

/-- Checksums taken back from n words, two from each. -/
def paired (c : Sparse (BitVec 32)) (n : Nat) (x : Nat → Nat) : Sparse (BitVec 32) :=
  written 0 c (List.range (2 * n)) (fun j => j) (halves x)

theorem paired_succ (c : Sparse (BitVec 32)) (n : Nat) (x : Nat → Nat) : paired c (n + 1) x =
    sset 0 (sset 0 (paired c n x) (2 * n) (BitVec.ofNat 32 (x n))) (2 * n + 1) (BitVec.ofNat 32 (x n / 2 ^ 32)) := by
  have hlow : halves x (2 * n) = BitVec.ofNat 32 (x n) := by
    rw [halves, show 2 * n / 2 = n by omega, show 2 * n % 2 = 0 by omega]
    simp
  have hhigh : halves x (2 * n + 1) = BitVec.ofNat 32 (x n / 2 ^ 32) := by
    rw [halves, show (2 * n + 1) / 2 = n by omega, show (2 * n + 1) % 2 = 1 by omega]
  rw [← hlow, ← hhigh, paired, written, show 2 * (n + 1) = 2 * n + 1 + 1 by omega, List.range_succ, List.range_succ,
    List.foldl_append, List.foldl_append]
  rfl

theorem sget_paired {c : Sparse (BitVec 32)} (hc : swf (fun _ => (0 : BitVec 32)) none c = true) {n j : Nat} (hj : j < 2 * n)
    (x : Nat → Nat) : (sget 0 (paired c n x) j).toNat = x (j / 2) / 2 ^ (32 * (j % 2)) % 2 ^ 32 := by
  have h := sget_written_same (key := fun j => j) (f := halves x) hc List.nodup_range (fun _ _ _ _ h => h)
    (List.mem_range.mpr hj)
  exact (congrArg BitVec.toNat h).trans (BitVec.toNat_ofNat _ _)

theorem takeWord_elem (a : Tile) {m n : Nat} (hm : m < 64) (hn : n < 64) (x : Nat) :
    a.takeWord (64 * m + n) x = a.set m n (if m < a.m.toNat ∧ n < a.n.toNat then x else 0) := by
  rw [Tile.takeWord]
  dsimp only
  rw [if_pos (by omega), show (64 * m + n) / 64 = m by omega, show (64 * m + n) % 64 = n by omega]

theorem takeWord_ckrow (a : Tile) {j : Nat} (hj : j < 32) (x : Nat) : a.takeWord (4096 + j) x = { a with
    ckrow := sset 0 (sset 0 a.ckrow (2 * j) (BitVec.ofNat 32 x)) (2 * j + 1) (BitVec.ofNat 32 (x / 2 ^ 32)) } := by
  rw [Tile.takeWord]
  dsimp only
  rw [if_neg (by omega), if_pos (by omega), Nat.add_sub_cancel_left]

theorem takeWord_ckcol (a : Tile) {j : Nat} (hj : j < 32) (x : Nat) : a.takeWord (4128 + j) x = { a with
    ckcol := sset 0 (sset 0 a.ckcol (2 * j) (BitVec.ofNat 32 x)) (2 * j + 1) (BitVec.ofNat 32 (x / 2 ^ 32)) } := by
  rw [Tile.takeWord]
  dsimp only
  rw [if_neg (by omega), if_neg (by omega), if_pos (by omega), Nat.add_sub_cancel_left]

theorem takeWord_ckv (a : Tile) (x : Nat) : a.takeWord 4160 x = { a with ckv := x.testBit 24 } := rfl

theorem foldl_takeRow (x : Nat → Nat) {m n : Nat} (hm : m < 64) (hn : n ≤ 64) (a : Tile) :
    (List.range n).foldl (fun a j => a.takeWord (64 * m + j) (x j)) a =
      placed a (List.range n) (fun _ => m) (fun j => j) (fun j => if m < a.m.toNat ∧ j < a.n.toNat then x j else 0) := by
  induction n with
  | zero => rfl
  | succ n ih =>
    rw [placed_snoc, List.range_succ, List.foldl_append, ih (by omega)]
    exact takeWord_elem _ hm (by omega) _

theorem foldl_takeCkrow (x : Nat → Nat) {n : Nat} (hn : n ≤ 32) (a : Tile) :
    (List.range n).foldl (fun a j => a.takeWord (4096 + j) (x j)) a = { a with ckrow := paired a.ckrow n x } := by
  induction n with
  | zero => rfl
  | succ n ih =>
    rw [paired_succ, List.range_succ, List.foldl_append, ih (by omega)]
    exact takeWord_ckrow _ (by omega) _

theorem foldl_takeCkcol (x : Nat → Nat) {n : Nat} (hn : n ≤ 32) (a : Tile) :
    (List.range n).foldl (fun a j => a.takeWord (4128 + j) (x j)) a = { a with ckcol := paired a.ckcol n x } := by
  induction n with
  | zero => rfl
  | succ n ih =>
    rw [paired_succ, List.range_succ, List.foldl_append, ih (by omega)]
    exact takeWord_ckcol _ (by omega) _

theorem zip_eq_map_range (l xs : List Nat) (h : xs.length = l.length) :
    l.zip xs = (List.range l.length).map (fun j => (l.getD j 0, xs.getD j 0)) := by
  refine List.ext_getElem (by simp [h]) fun j hj _ => ?_
  have hjl : j < l.length := by simpa [h] using hj
  simp [hjl, h]

theorem length_imageRow (m : Nat) : (imageRow m).length = if m = 63 then 129 else 64 := by
  rw [imageRow]
  split <;> simp

theorem getD_imageRow {m j : Nat} (hj : j < 64) : (imageRow m).getD j 0 = 64 * m + j := by
  rw [imageRow, List.getD_eq_getElem?_getD, List.getElem?_append_left (by simpa using hj)]
  simp [hj]

theorem getD_imageRow_last {j : Nat} (hj : j < 65) : (imageRow 63).getD (64 + j) 0 = 4096 + j := by
  rw [imageRow, List.getD_eq_getElem?_getD, List.getElem?_append_right (by simp)]
  simp [hj]

theorem foldl_range_add {α : Type} (f : α → Nat → α) (a : α) (m n : Nat) :
    (List.range (m + n)).foldl f a = (List.range n).foldl (fun a j => f a (m + j)) ((List.range m).foldl f a) := by
  rw [List.range_add, List.foldl_append, List.foldl_map]

/-- The four parts of the last row's words. -/
theorem foldl_range_129 {α : Type} (f : α → Nat → α) (a : α) : (List.range 129).foldl f a =
    f ((List.range 32).foldl (fun a j => f a (96 + j)) ((List.range 32).foldl (fun a j => f a (64 + j))
      ((List.range 64).foldl f a))) 128 := by
  rw [show 129 = 64 + 32 + 32 + 1 from rfl, foldl_range_add, foldl_range_add, foldl_range_add, List.range_one, List.foldl_cons,
    List.foldl_nil]

/-- The tile that takes back the words of a row but the last. -/
theorem trest_row {m : Nat} (hm : m < 63) {xs : List Nat} (hxs : xs.length = (imageRow m).length) (a : Tile) :
    ((imageRow m).zip xs).foldl (fun a p => a.takeWord p.1 p.2) a = placed a (List.range 64) (fun _ => m) (fun j => j)
      (fun j => if m < a.m.toNat ∧ j < a.n.toNat then xs.getD j 0 else 0) := by
  rw [zip_eq_map_range _ _ hxs, length_imageRow, if_neg (by omega), List.foldl_map,
    ← foldl_takeRow (fun j => xs.getD j 0) (by omega) (Nat.le_refl 64)]
  exact List.foldl_ext _ _ _ fun a j hj => by dsimp only; rw [getD_imageRow (List.mem_range.mp hj)]

/-- The tile that takes back the words of the last row: its elements, the checksums, CKV. -/
theorem trest_last {xs : List Nat} (hxs : xs.length = (imageRow 63).length) (a : Tile) :
    ((imageRow 63).zip xs).foldl (fun a p => a.takeWord p.1 p.2) a = { placed a (List.range 64) (fun _ => 63) (fun j => j)
      (fun j => if 63 < a.m.toNat ∧ j < a.n.toNat then xs.getD j 0 else 0) with
      ckrow := paired a.ckrow 32 (fun j => xs.getD (64 + j) 0), ckcol := paired a.ckcol 32 (fun j => xs.getD (96 + j) 0)
      ckv := (xs.getD 128 0).testBit 24 } := by
  have hrow (a : Tile) : (List.range 64).foldl (fun a j => a.takeWord ((imageRow 63).getD j 0) (xs.getD j 0)) a =
      placed a (List.range 64) (fun _ => 63) (fun j => j) (fun j => if 63 < a.m.toNat ∧ j < a.n.toNat then xs.getD j 0 else 0) := by
    rw [← foldl_takeRow (fun j => xs.getD j 0) (by omega) (Nat.le_refl 64)]
    exact List.foldl_ext _ _ _ fun a j hj => by rw [getD_imageRow (List.mem_range.mp hj)]
  have hckrow (a : Tile) : (List.range 32).foldl (fun a j => a.takeWord ((imageRow 63).getD (64 + j) 0) (xs.getD (64 + j) 0)) a =
      { a with ckrow := paired a.ckrow 32 (fun j => xs.getD (64 + j) 0) } := by
    rw [← foldl_takeCkrow (fun j => xs.getD (64 + j) 0) (Nat.le_refl 32)]
    exact List.foldl_ext _ _ _ fun a j hj => by rw [getD_imageRow_last (by have := List.mem_range.mp hj; omega)]
  have hckcol (a : Tile) : (List.range 32).foldl (fun a j => a.takeWord ((imageRow 63).getD (96 + j) 0) (xs.getD (96 + j) 0)) a =
      { a with ckcol := paired a.ckcol 32 (fun j => xs.getD (96 + j) 0) } := by
    rw [← foldl_takeCkcol (fun j => xs.getD (96 + j) 0) (Nat.le_refl 32)]
    refine List.foldl_ext _ _ _ fun a j hj => ?_
    have hj := List.mem_range.mp hj
    rw [show 96 + j = 64 + (32 + j) by omega, getD_imageRow_last (by omega), ← Nat.add_assoc]
  have hckv (a : Tile) : a.takeWord ((imageRow 63).getD 128 0) (xs.getD 128 0) = { a with ckv := (xs.getD 128 0).testBit 24 } := by
    rw [getD_imageRow_last (j := 64) (by omega), takeWord_ckv]
  have hfold : ((imageRow 63).zip xs).foldl (fun a p => a.takeWord p.1 p.2) a =
      (List.range 129).foldl (fun a j => a.takeWord ((imageRow 63).getD j 0) (xs.getD j 0)) a := by
    rw [zip_eq_map_range _ _ hxs, length_imageRow, if_pos rfl, List.foldl_map]
  rw [hfold, foldl_range_129, hrow, hckrow, hckcol, hckv, placed]

/-! ### `tstat` (R334) -/

/-- Four bits as a number. -/
def fourBits (b0 b1 b2 b3 : Bool) : Nat := b0.toNat + 2 * b1.toNat + 4 * b2.toNat + 8 * b3.toNat

theorem testBit_fourBits (b0 b1 b2 b3 : Bool) : let y := fourBits b0 b1 b2 b3
    y < 16 ∧ y.testBit 0 = b0 ∧ y.testBit 1 = b1 ∧ y.testBit 2 = b2 ∧ y.testBit 3 = b3 := by
  have all : ∀ b0 b1 b2 b3 : Bool, let y := fourBits b0 b1 b2 b3
      y < 16 ∧ y.testBit 0 = b0 ∧ y.testBit 1 = b1 ∧ y.testBit 2 = b2 ∧ y.testBit 3 = b3 := by decide
  exact all b0 b1 b2 b3

theorem ite_two_pow (b : Bool) (n : Nat) : (if b then 2 ^ n else 0) = 2 ^ n * b.toNat := by cases b <;> simp

/-- A status word's fields and its four bits. -/
theorem statusWord_bits {x : Nat} (hx : x < 2 ^ 24) (b0 b1 b2 b3 : Bool) :
    let w := x + (if b0 then 2 ^ 24 else 0) + (if b1 then 2 ^ 25 else 0) + (if b2 then 2 ^ 26 else 0) + (if b3 then 2 ^ 27 else 0)
    w % 2 ^ 24 = x ∧ w < 2 ^ 28 ∧ w.testBit 24 = b0 ∧ w.testBit 25 = b1 ∧ w.testBit 26 = b2 ∧ w.testBit 27 = b3 := by
  intro w
  obtain ⟨hy, h0, h1, h2, h3⟩ := testBit_fourBits b0 b1 b2 b3
  have hw : w = 2 ^ 24 * fourBits b0 b1 b2 b3 + x := by
    unfold w fourBits
    simp only [ite_two_pow]
    omega
  have hbit (j : Nat) (hj : ¬ j < 24) : w.testBit j = (fourBits b0 b1 b2 b3).testBit (j - 24) := by
    rw [hw, Nat.testBit_two_pow_mul_add _ hx, if_neg hj]
  exact ⟨by omega, by omega, (hbit 24 (by omega)).trans h0, (hbit 25 (by omega)).trans h1, (hbit 26 (by omega)).trans h2,
    (hbit 27 (by omega)).trans h3⟩

/-- Some element of the tile meets a property. -/
theorem any_elements (a : Tile) (p : FpVal → Bool) :
    ((List.range 4096).any (fun i => p (Fmt.decode .wa (a.at_ (i / 64) (i % 64)))) = true) ↔
      ∃ u < 64, ∃ v < 64, p (Fmt.decode .wa (a.at_ u v)) = true := by
  rw [List.any_eq_true]
  constructor
  · rintro ⟨i, hi, h⟩
    have hi := List.mem_range.mp hi
    exact ⟨i / 64, by omega, i % 64, by omega, h⟩
  · rintro ⟨u, hu, v, hv, h⟩
    refine ⟨64 * u + v, List.mem_range.mpr (by omega), ?_⟩
    rwa [show (64 * u + v) / 64 = u by omega, show (64 * u + v) % 64 = v by omega]

end Sys2Proof.Machine

/-! The rows of tile instructions, together (R155, R157, R330 to R336). -/

namespace Sys2Proof.Machine

open Sys2Proof.Claims

theorem trestRow_ok {ka : BitVec 3} {r : RowEnv} {a : Tile} {z : RowRes} (h : trestRow ka r a = .ok z) :
    ∃ xs, r.read ka 8 ((imageRow r.row).map (fun i => r.e.c.ga + wNat (8 * i))) = .ok xs ∧ z =
      { RowRes.of (((imageRow r.row).zip xs).foldl (fun a p => a.takeWord p.1 p.2) a) with
        reads := [(ka, 8, (imageRow r.row).map (fun i => r.e.c.ga + wNat (8 * i)))] } := by
  rw [trestRow] at h
  dsimp only at h
  split at h
  case h_1 => cases h
  case h_2 xs hread => exact ⟨xs, hread, (Except.ok.inj h).symm⟩

/-- A row's container after the words of its row are taken back. -/
theorem at_taken {a : Tile} {m u v : Nat} {xs : List Nat} (ha : swf (fun _ => (0 : BitVec 64)) none a.elems = true) (hv : v < 64) :
    (placed a (List.range 64) (fun _ => m) (fun j => j) (fun j => if m < a.m.toNat ∧ j < a.n.toNat then xs.getD j 0 else 0)).at_
      u v = if u ≠ m then a.at_ u v else if u < a.m.toNat ∧ v < a.n.toNat then xs.getD v 0 % 2 ^ 64 else 0 := by
  rw [at_placed_row ha (Nat.le_refl 64) hv]
  by_cases hu : u = m
  · subst hu
    rw [if_pos ⟨rfl, hv⟩, if_neg (not_not.mpr rfl)]
    split
    · rfl
    · exact Nat.zero_mod _
  · rw [if_neg (fun h => hu h.1), if_pos hu]

theorem at_of_elems {a b : Tile} (h : a.elems = b.elems) (u v : Nat) : a.at_ u v = b.at_ u v := by
  rw [Tile.at_, h, Tile.at_]

/-- A tile that takes back the words of one row of an image. -/
def takenBack (a : Tile) (m : Nat) (xs : List Nat) : Tile :=
  ((imageRow m).zip xs).foldl (fun a p => a.takeWord p.1 p.2) a

/-- Its row is the image's within the shape, and the last row brings the checksums and CKV. -/
abbrev rowTaken (a b : Tile) (m : Nat) (xs : List Nat) : Prop :=
  b = { a with elems := b.elems, ckrow := b.ckrow, ckcol := b.ckcol, ckv := b.ckv } ∧
  (∀ u v, v < 64 → b.at_ u v = if u ≠ m then a.at_ u v
    else if u < a.m.toNat ∧ v < a.n.toNat then xs.getD v 0 % 2 ^ 64 else 0) ∧
  (m ≠ 63 → b.ckrow = a.ckrow ∧ b.ckcol = a.ckcol ∧ b.ckv = a.ckv) ∧
  (m = 63 → b.ckv = (xs.getD 128 0).testBit 24 ∧ ∀ j, j < 64 →
    (sget 0 b.ckrow j).toNat = xs.getD (64 + j / 2) 0 / 2 ^ (32 * (j % 2)) % 2 ^ 32 ∧
    (sget 0 b.ckcol j).toNat = xs.getD (96 + j / 2) 0 / 2 ^ (32 * (j % 2)) % 2 ^ 32)

/-- What the claim says of a container. -/
abbrev rowTakenAt (a b : Tile) (m : Nat) (xs : List Nat) : Prop :=
  ∀ u v, v < 64 → b.at_ u v = if u ≠ m then a.at_ u v
    else if u < a.m.toNat ∧ v < a.n.toNat then xs.getD v 0 % 2 ^ 64 else 0

section

variable {a b : Tile} {m : Nat} {xs is : List Nat} {row col f : Nat → Nat}

theorem rowTaken_row (hm : m ≠ 63) (hb : b = placed a is row col f) (hat : rowTakenAt a b m xs) : rowTaken a b m xs := by
  subst hb
  exact ⟨rfl, hat, fun _ => ⟨rfl, rfl, rfl⟩, fun h => absurd h hm⟩

theorem rowTaken_last {ckrow ckcol : Sparse (BitVec 32)}
    (hb : b = { placed a is row col f with ckrow := ckrow, ckcol := ckcol, ckv := (xs.getD 128 0).testBit 24 })
    (hat : rowTakenAt a b 63 xs)
    (hrow : ∀ j, j < 64 → (sget 0 ckrow j).toNat = xs.getD (64 + j / 2) 0 / 2 ^ (32 * (j % 2)) % 2 ^ 32)
    (hcol : ∀ j, j < 64 → (sget 0 ckcol j).toNat = xs.getD (96 + j / 2) 0 / 2 ^ (32 * (j % 2)) % 2 ^ 32) :
    rowTaken a b 63 xs := by
  subst hb
  exact ⟨rfl, hat, fun h => absurd rfl h, fun _ => ⟨rfl, fun j hj => ⟨hrow j hj, hcol j hj⟩⟩⟩

theorem rowTaken_back (hm : m < 64) (hlen : xs.length = (imageRow m).length) (hk : tileKept a) :
    rowTaken a (takenBack a m xs) m xs := by
  obtain ⟨helems, hckrow, hckcol⟩ := hk
  rcases Nat.lt_or_ge m 63 with hlt | hge
  · have hb := trest_row hlt hlen a
    refine rowTaken_row (Nat.ne_of_lt hlt) hb fun u v hv => ?_
    rw [takenBack, hb, at_taken helems hv]
  · obtain rfl : m = 63 := by omega
    have hb := trest_last hlen a
    refine rowTaken_last hb (fun u v hv => ?_) (fun j hj => sget_paired hckrow (n := 32) hj _)
      (fun j hj => sget_paired hckcol (n := 32) hj _)
    have hsame : (takenBack a 63 xs).elems = (placed a (List.range 64) (fun _ => 63) (fun j => j)
        (fun j => if 63 < a.m.toNat ∧ j < a.n.toNat then xs.getD j 0 else 0)).elems := by rw [takenBack, hb]
    rw [at_of_elems hsame, at_taken helems hv]

end

/-- The word of `tstat`. -/
def statusWord (acc : BitVec 3) (r : RowEnv) (a : Tile) : Nat :=
  let any (p : FpVal → Bool) : Bool := (List.range 4096).any (fun i => p (Fmt.decode .wa (a.at_ (i / 64) (i % 64))))
  a.m.toNat + 2 ^ 8 * a.n.toNat + 2 ^ 16 * a.rowprog.toNat + (if a.ckv then 2 ^ 24 else 0)
    + (if r.t.ctl.suspect.getLsbD acc.toNat then 2 ^ 25 else 0) + (if any FpVal.isNan then 2 ^ 26 else 0)
    + (if any (fun v => match v with | .inf _ => true | _ => false) then 2 ^ 27 else 0)

theorem statusWord_results (acc : BitVec 3) (r : RowEnv) (a : Tile) :
    let w := statusWord acc r a
    let some_ (P : FpVal → Bool) : Prop := ∃ u < 64, ∃ v < 64, P (Fmt.decode .wa (a.at_ u v)) = true
    w % 2 ^ 24 = a.m.toNat + 2 ^ 8 * a.n.toNat + 2 ^ 16 * a.rowprog.toNat ∧ w < 2 ^ 28 ∧ w.testBit 24 = a.ckv ∧
    w.testBit 25 = r.t.ctl.suspect.getLsbD acc.toNat ∧ (w.testBit 26 = true ↔ some_ FpVal.isNan) ∧
    (w.testBit 27 = true ↔ some_ (fun v => match v with | .inf _ => true | _ => false)) := by
  intro w some_
  have hfields : a.m.toNat + 2 ^ 8 * a.n.toNat + 2 ^ 16 * a.rowprog.toNat < 2 ^ 24 := by omega
  have hnan := any_elements a FpVal.isNan
  have hinf := any_elements a (fun v => match v with | .inf _ => true | _ => false)
  obtain ⟨hlow, hlt, h24, h25, h26, h27⟩ := statusWord_bits hfields a.ckv (r.t.ctl.suspect.getLsbD acc.toNat)
    ((List.range 4096).any _) ((List.range 4096).any _)
  rw [← h26] at hnan
  rw [← h27] at hinf
  exact ⟨hlow, hlt, h24, h25, hnan, hinf⟩

/-- What a line comes to, in the claim's terms. -/
theorem lineRow_results {col : Bool} {ra : Reg} {ms : BitVec 3} {r : RowEnv} {a : Tile} (hn : a.n.toNat ≤ 64)
    (hk : tileKept a) :
    let z := lineRow col ra ms r a
    let x := r.e.c.gb.toNat
    let len := lineLength col a
    let there : Prop := x < lineCount col a
    let w := 8 * 2 ^ (r.e.c.vtype.toNat % 8)
    let read (j : Nat) := readOutAs (ms.getLsbD 1) r.e r.e.fmt j (lineCell col a x j)
    let wide (j : Nat) := widenedAs (ms.getLsbD 1) r.e ra j
    z.stores = [] ∧
    (¬ there → z.tile = a ∧ z.fl = 0 ∧ z.gs = 1 ∧ z.writes = if ms.getLsbD 0 then []
      else (List.range len).map (fun j => r.e.t.elemWrite ra.toNat w j 0)) ∧
    (there → ms.getLsbD 0 = false → z.tile = a ∧ z.fl = flagsTo len (fun j => (read j).1) ∧ z.gs = flagsTo len read ∧
      z.writes = (List.range len).map (fun j => r.e.t.elemWrite ra.toNat w j (read j).1.1)) ∧
    (there → ms.getLsbD 0 = true → z.writes = [] ∧ z.gs = 0 ∧ z.fl = flagsTo len wide ∧
      z.tile = { a with elems := z.tile.elems, ckv := false } ∧
      ∀ u v, u < 64 → v < 64 → z.tile.at_ u v =
        if (if col then v else u) = x ∧ (if col then u else v) < len then (wide (if col then u else v)).1 % 2 ^ 64
        else a.at_ u v) := by
  intro z x len there w read wide
  obtain ⟨helems, -, -⟩ := hk
  by_cases hx : there
  · refine ⟨?_, fun h => absurd hx h, fun _ hms => ?_, fun _ hms => ?_⟩
    · cases hms : ms.getLsbD 0 with
      | true => exact congrArg RowRes.stores (lineRow_in hx hms)
      | false => exact congrArg RowRes.stores (lineRow_out hx hms)
    · have hz : z = _ := lineRow_out hx hms
      rw [hz]
      exact ⟨rfl, rfl, rfl, rfl⟩
    · have hz : z = _ := lineRow_in hx hms
      rw [hz]
      refine ⟨rfl, rfl, rfl, rfl, fun u v hu hv => ?_⟩
      cases col with
      | true => exact at_placed_column helems (Nat.lt_of_lt_of_le hx hn) hv
      | false => exact at_placed_row helems hn hv
  · cases hms : ms.getLsbD 0 with
    | true =>
      have hz : z = _ := lineRow_absent_in hx hms
      rw [hz]
      exact ⟨rfl, fun _ => ⟨rfl, rfl, rfl, rfl⟩, fun h => absurd h hx, fun h => absurd h hx⟩
    | false =>
      have hz : z = _ := lineRow_absent_out hx hms
      rw [hz]
      exact ⟨rfl, fun _ => ⟨rfl, rfl, rfl, rfl⟩, fun h => absurd h hx, fun h => absurd h hx⟩

/-- Settles O33: each row by what it comes to, a fold over its elements in closed form. -/
theorem tileResults : Obligations.TileResults := by
  unfold Obligations.TileResults
  intro acc ra rb rs ms fa fb mk ka kb vl m
  refine ⟨⟨_, rfl, rfl, rfl, rfl, fun r a z hz hrow hm hn hk => ?load⟩, ⟨_, rfl, rfl, rfl, rfl, fun r a z hz hrow hm hn hk => ?store⟩,
    fun col => ?line, ⟨_, rfl, rfl, rfl, rfl, fun r a z hz hrow hm hn hk => ?check⟩,
    ⟨_, rfl, rfl, rfl, rfl, fun r a z hz hrow hm hn hk => ?contract⟩, ⟨_, rfl, rfl, rfl, rfl, fun r a z hz hrow hm hn hk => ?save⟩,
    ⟨_, rfl, rfl, rfl, rfl, fun r a z hz hrow hm hn hk => ?restore⟩, ⟨_, rfl, rfl, rfl, rfl, fun r a z hz hrow hm hn hk => ?status⟩⟩
  case load =>
    obtain ⟨helems, -, -⟩ := hk
    obtain ⟨xs, hread, rfl⟩ := tldRow_ok hz
    refine ⟨⟨rfl, rfl⟩, rfl, xs, hread, ?_, rfl, fun u v hv => ?_⟩
    · refine flagsTo_of_le ?_ (fun v hv => ?_) (fun v hv => ?_)
      · split
        · exact Nat.min_le_right _ _
        · exact Nat.zero_le _
      · rw [loaded, if_pos hv]
      · rw [loaded, if_neg (Nat.not_lt.mpr hv)]
    · refine (at_placed_row helems hn hv).trans ?_
      rw [loaded, apply_ite Prod.fst]
  case store =>
    obtain rfl := Except.ok.inj hz
    rw [tstRow_eq]
    exact ⟨rfl, rfl, rfl, rfl, rfl, rfl, rfl⟩
  case line =>
    refine ⟨TileForm.one acc (lineRow col ra ms), by cases col <;> rfl, rfl, rfl, rfl, fun r a z hz hrow hm hn hk => ?_⟩
    obtain rfl := Except.ok.inj hz
    exact lineRow_results hn hk
  case check =>
    obtain rfl := Except.ok.inj hz
    rw [tchkRow_eq hm]
    exact ⟨rfl, rfl, rfl, rfl, rfl⟩
  case contract =>
    obtain ⟨helems, -, -⟩ := hk
    obtain ⟨ds, us, hds, hus, rfl⟩ := tconRow_ok hz
    refine ⟨⟨rfl, rfl⟩, rfl, flagsTo_and (fun v => blockStep_flags _ _) 8, ds, us, hds, hus, rfl, fun u v hv => ?_⟩
    exact at_placed_row helems (by omega) hv
  case save =>
    obtain rfl := Except.ok.inj hz
    refine ⟨rfl, rfl, rfl, rfl, rfl, rfl, rfl, ?_⟩
    exact (imageOf_map a hrow (fun i x => (i, r.e.c.ga + BitVec.ofNat 64 (8 * i), x))).symm
  case restore =>
    obtain ⟨xs, hread, rfl⟩ := trestRow_ok hz
    have hlen : xs.length = (imageRow r.row).length := (vReads_length hread).trans (List.length_map _)
    have hvas := imageOf_map a hrow (fun i _ => r.e.c.ga + BitVec.ofNat 64 (8 * i))
    exact ⟨rfl, ⟨rfl, rfl⟩, rfl, rfl, xs, (congrArg _ hvas).trans hread, rowTaken_back hrow hlen hk⟩
  case status =>
    obtain rfl := Except.ok.inj hz
    exact ⟨rfl, rfl, rfl, rfl, _, rfl, statusWord_results acc r a⟩

end Sys2Proof.Machine
